-- ==== Sys2Proof/Word.lean ====
section
/-! DEFINITION. The byte type, the word type of a register and the two table types the state is built from. -/
namespace Sys2Proof

/-- One byte of a memory, a ring, a message or a frame. -/
abbrev Byte := BitVec 8

/-- A block register as a master reads it (R4). -/
abbrev Word := BitVec 32

/-- Sparse data by number: pairs of a key and an entry, keys rising. -/
abbrev Tab (α : Type) := List (Nat × α)

/-- Byte memory in canonical form: addresses strictly rising, no listed byte equal to what an unlisted address
reads as. -/
abbrev Mem := List (Nat × Byte)

end Sys2Proof
end

