-- ==== Sys2Proof/Machine/Cmd.lean ====
section
/-! DEFINITION. The commands of the host interface with their payload fields, offset by offset as the command tables of
the chapters give them. -/
namespace Sys2Proof.Machine

/-- One host command: its payload fields in the order of its table (R402 and the chapters' command tables). -/
inductive Cmd where
  /-- TAKE (R47). -/
  | take (rec expected : Nat)
  /-- SALVO (R57). -/
  | salvo (count rsvd off expected : Nat)
  /-- ROUTE_QUERY (R60). -/
  | routeQuery (epoch first count off : Nat)
  /-- PROTECT (R46). -/
  | protect (first count rel : Nat)
  /-- FORCE_RELEASE (R46). -/
  | forceRelease (first count : Nat)
  /-- BANK_LOAD (R61). -/
  | bankLoad (plane act count off : Nat)
  /-- BANK_SWAP (R62). -/
  | bankSwap (plane : Nat)
  /-- SRC_MODE (R42). -/
  | srcMode (src mode flags lossHold : Nat)
  /-- SRC_WARM (R44). -/
  | srcWarm (src on : Nat)
  /-- SRC_GROUP (R92). -/
  | srcGroup (size m0 m1 m2 m3 : Nat)
  /-- SRC_STATUS (R104). -/
  | srcStatus (src : Nat)
  /-- SRC_WINDOW (R78). -/
  | srcWindow (src w qcount : Nat)
  /-- DEST_BIND (R45). -/
  | destBind (first count plane : Nat)
  /-- DEST_AUDIO (R49). -/
  | destAudio (first count mode : Nat)
  /-- GEN_CFG (R35). -/
  | genCfg (gen plane pattern audio y cb cr : Nat)
  /-- SVC_SEND (R433). -/
  | svcSend (lane cls len off roff rmax timeout : Nat)
  /-- PLANE_CFG (R19). -/
  | planeCfg (plane raster scan rate phLines phSamples : Nat)
  /-- PLANE_SWITCH (R15). -/
  | planeSwitch (plane line cutoff : Nat)
  /-- PLANE_STATUS (R431). -/
  | planeStatus (plane : Nat)
  /-- SESSION_OPEN (R430). -/
  | sessionOpen (name lease sub irqCount irqDelay : Nat)
  /-- SESSION_CLOSE (R418). -/
  | sessionClose (target : Nat)
  /-- SESSION_ATTACH (R421). -/
  | sessionAttach (key : Nat)
  /-- SUBSCRIBE (R426). -/
  | subscribe (sub irqCount irqDelay : Nat)
  /-- PENDING_QUERY (R430). -/
  | pendingQuery (all max off : Nat)
  /-- IDENTITY (R430). -/
  | identity
  /-- EXPERT_GRANT (R419). -/
  | expertGrant (req lease : Nat)
  /-- SESSION_BUDGET (R414). -/
  | sessionBudget (target cmds hare cpus : Nat)
  /-- FLT_LIST (R531). -/
  | fltList (cls off : Nat)
  /-- FLT_CLEAR (R522). -/
  | fltClear (src kind : Nat)
  /-- FLT_CFG (R521). -/
  | fltCfg (escn esct fnclass budget : Nat)
  /-- SNP_TRIGGER (R527). -/
  | snpTrigger
  /-- SNP_CFG (R527). -/
  | snpCfg (enables sclass src kind div msec mns period : Nat)
  /-- SNP_LIST (R531). -/
  | snpList (off : Nat)
  /-- SNP_READ (R532). -/
  | snpRead (slot ioff len off : Nat)
  /-- SNP_HOLD (R529). -/
  | snpHold (slot hold : Nat)
  /-- FLT_INJECT (R532). -/
  | fltInject (msg : Nat)
  /-- LANE_STATUS (R165). -/
  | laneStatus (lane : Nat)
  /-- EYE_SCAN (R161). -/
  | eyeScan (lane eye k sp sv thr off : Nat)
  /-- LANE_LOOP (R158). -/
  | laneLoop (lane mode flags : Nat)
  /-- LANE_PRBS (R160). -/
  | lanePrbs (lane pattern on rate : Nat)
  /-- LANE_EQ_SET (R166). -/
  | laneEqSet (lane set flags vals : Nat)
  /-- ETH_PORT_SPLIT (R171). -/
  | ethPortSplit (port mode : Nat)
  /-- ETH_MAC_CFG (R174). -/
  | ethMacCfg (mac addr maxFrame : Nat)
  /-- ETH_STATUS (R184). -/
  | ethStatus (mac : Nat)
  /-- WAKE_PATTERN (R181). -/
  | wakePattern (matcher on mac check mask : Nat)
  /-- FLOW_DEFINE (R188). -/
  | flowDefine (ctx op off : Nat)
  /-- FLOW_PORT (R207). -/
  | flowPort (ctx port flags : Nat)
  /-- FLOW_STATUS (R218). -/
  | flowStatus (ctx : Nat)
  /-- FLOW_IF (R192). -/
  | flowIf (mac off : Nat)
  /-- FLOW_CAPACITY (R218). -/
  | flowCapacity (mac : Nat)
  /-- FLOW_OFFSET (R197). -/
  | flowOffset (ctx auto offset : Nat)
  /-- CMP_BIND (R222). -/
  | cmpBind (m plane dither audwin back : Nat)
  /-- CMP_LAYOUT (R227). -/
  | cmpLayout (m count off : Nat)
  /-- CMP_GUARD (R235). -/
  | cmpGuard (m count off : Nat)
  /-- CMP_FREEZE (R240). -/
  | cmpFreeze (m win op : Nat)
  /-- CMP_STATUS (R245). -/
  | cmpStatus (m off : Nat)
  /-- CMP_COEF (R232). -/
  | cmpCoef (m set off : Nat)
  /-- AUD_MIX (R280). -/
  | audMix (count ramp anchor off : Nat)
  /-- AUD_GROUP (R254). -/
  | audGroup (src mode : Nat)
  /-- AUD_OFFSET (R266). -/
  | audOffset (dest us : Nat)
  /-- AUD_HISTORY (R269). -/
  | audHistory (first count len : Nat)
  /-- AUD_METER (R273). -/
  | audMeter (first count op off : Nat)
  /-- AUD_STATUS (R282). -/
  | audStatus (kind index : Nat)
  /-- AUD_BANK_LOAD (R275). -/
  | audBankLoad (cluster act count off : Nat)
  /-- AUD_BANK_SWAP (R278). -/
  | audBankSwap (mask : Nat)
  /-- AUD_RATE (R281). -/
  | audRate (rate : Nat)
  /-- APT_CFG (R300). -/
  | aptCfg (port format nslots w m flags nout inLat outLat : Nat)
  /-- APT_RING (R299). -/
  | aptRing (port n : Nat)
  /-- APT_STATUS (R303). -/
  | aptStatus (port : Nat)
  /-- TMG_REF_CFG (R342). -/
  | tmgRefCfg (cand kind prio flags num den wtr soft hard slope lossn : Nat) (delay : Int)
  /-- TMG_LREF_BIND (R311). -/
  | tmgLrefBind (lref lane refid : Nat)
  /-- TMG_SEL_CFG (R318). -/
  | tmgSelCfg (mode forced flags holdql freeql : Nat)
  /-- TMG_APLL_CFG (R333). -/
  | tmgApllCfg (apll mint mnum mden : Nat)
  /-- TMG_CLKOUT_CFG (R335). -/
  | tmgClkoutCfg (out src apll level d plane flags width : Nat) (outdly : Int)
  /-- TMG_WCLK_CFG (R339). -/
  | tmgWclkCfg (out op apll level : Nat) (outdly : Int)
  /-- TMG_STATUS (R343). -/
  | tmgStatus (cand : Nat)
  /-- TMG_CLASS_MAP (R312). -/
  | tmgClassMap (off : Nat)
  /-- TMG_LOOP_CFG (R323). -/
  | tmgLoopCfg (track acq tt w n alslew guard hwin learn : Nat)
  /-- DT_STEP (R352). -/
  | dtStep (sec ns : Int) (flags : Nat)
  /-- DT_CFG (R350). -/
  | dtCfg (mode steplim : Nat)
  /-- DT_STATUS (R366). -/
  | dtStatus
  /-- PTP_CFG (R362). -/
  | ptpCfg (domain prio1 prio2 timesrc utc flags ident classOut : Nat)
  /-- PTP_PORT_CFG (R361). -/
  | ptpPortCfg (port mac flags : Nat) (logSync logAnn : Int) (annTimeout : Nat) (logDelay rxdly txdly asym : Int)
  /-- DT_PIN_CFG (R360). -/
  | dtPinCfg (mode : Nat)
  /-- PTP_SERVO_CFG (R364). -/
  | ptpServoCfg (sbw stepThr slew : Nat)
  /-- MEM_STATUS (R389). -/
  | memStatus (pc : Nat)
  /-- MEM_REARM (R382). -/
  | memRearm (pc : Nat)
  /-- MEM_PORT_CFG (R376). -/
  | memPortCfg (port budget : Nat)
  /-- MEM_FREEZE (R383). -/
  | memFreeze (pc op off : Nat)
  /-- MEM_CAL_SAVE (R385). -/
  | memCalSave (mask : Nat)
  /-- PAIR_STATUS (R482). -/
  | pairStatus (which off : Nat)
  /-- PAIR_CHANGEOVER (R480). -/
  | pairChangeover (plane warmMax : Nat)
  /-- PAIR_CFG (R484). -/
  | pairCfg (demote flags plane drill warmMax : Nat)
  /-- PAIR_DRILL (R483). -/
  | pairDrill
  /-- PAIR_FORCE (R485). -/
  | pairForce (op : Nat)
  /-- PWR_STATUS (R510). -/
  | pwrStatus
  /-- PWR_DEN (R498). -/
  | pwrDen
  /-- PWR_WAKE_PARTNER (R510). -/
  | pwrWakePartner
  /-- PWR_CFG (R509). -/
  | pwrCfg (hold flags : Nat)
  /-- UPD_STATUS (R552). -/
  | updStatus
  /-- UPD_ACTIVATE (R544). -/
  | updActivate (slot : Nat)
  /-- UPD_CONFIRM (R544). -/
  | updConfirm
  /-- UPD_RESTART (R548). -/
  | updRestart
  /-- UPD_SVC_CFG (R552). -/
  | updSvcCfg (on : Nat)
  /-- UPD_FUSE (R545). -/
  | updFuse
  /-- CAL_READ (R569). -/
  | calRead (sect off : Nat)
  /-- CAL_WRITE (R562). -/
  | calWrite (sect off : Nat)
  deriving DecidableEq, Repr

end Sys2Proof.Machine
end

