-- ==== Sys2Proof/Machine/Blocks.lean ====
section
/-! DEFINITION. The module's state as plain data, block by block: every register, buffer, queue, counter and mode the spec
names, each field at the value the spec gives for reset or at the value the assumption log names. -/
namespace Sys2Proof.Machine

/-- An ancillary packet: its horizontal position and its words from the DID to the checksum (R125). -/
structure Anc where
  pos : Nat := 0
  words : List Nat := []
  deriving DecidableEq, Repr

/-- One raster line as it arrives: its number, its active words in transmission order, its ancillary packets, the word
ranges that came errored or not at all (start and length), and how many ancillary packets were lost with them (R95). -/
structure LineIn where
  line : Nat := 0
  words : List Nat := []
  anc : List Anc := []
  holes : List (Nat × Nat) := []
  ancLost : Nat := 0
  /-- Device time of its arrival (R77, R125); none: the moment of the command. -/
  at_ : Option Nat := none
  deriving DecidableEq, Repr

/-! ### Planes, change sets and the epoch (chapter 01, R14 to R27; commands R431) -/

/-- A plane or source format: raster 0 to 2, scan 0 to 2, rate as an IS_SRC_FMT code (R431). -/
structure Fmt where
  raster : Nat := 1
  scan : Nat := 0
  rate : Nat := 7
  deriving DecidableEq, Repr

/-- One timing plane (R14 to R19, R431). Lines 0 stand for the default of R15. -/
structure Plane where
  fmt : Fmt := {}
  phLines : Nat := 0
  phSamples : Nat := 0
  swLine : Nat := 0
  cutoff : Nat := 2000
  swLineNow : Nat := 0
  cutoffNow : Nat := 2000
  /-- Count from which the committed switch line and cut-off apply (R431). -/
  applyAt : Nat := 0
  /-- Count the next switch point gets (R73). -/
  nextSw : Nat := 0
  /-- The cut-off instant of the next switch point has passed (R17). -/
  cut : Bool := false
  /-- Staging has begun and is not complete (R53). -/
  staging : Bool := false
  bankFg : Bool := false
  ready : Bool := false
  /-- Tick of the latest switch point: a save at the same instant counts it (R73). -/
  swAt : Option Nat := none
  deriving DecidableEq, Repr

/-- Committed state of one destination (R12, R24, R33, R46). -/
structure Dest where
  plane : Nat := 0
  src : Nat := 4095
  asrc : Nat := 4095
  amode : Nat := 0
  vswc : Option Nat := none
  aswc : Option Nat := none
  prot : Option Nat := none
  deriving DecidableEq, Repr

/-- What a destination carries (R81, R98), with the epoch it carries it from (R25). -/
structure Air where
  plane : Nat := 0
  src : Nat := 4095
  asrc : Nat := 4095
  amode : Nat := 0
  /-- Waiting for the first complete frame, black meanwhile (R43). -/
  cold : Bool := false
  /-- The fade that brings the new audio in once the cold switch ends: its length (R266). -/
  fadeIn : Option Nat := none
  epoch : Nat := 0
  /-- Epochs of the binding and of the audio mode it carries: an older change set that comes due later gives way (R25). -/
  bindEp : Nat := 0
  modeEp : Nat := 0
  deriving DecidableEq, Repr

/-- One entry of the staged route table (R74). -/
structure RtEntry where
  valid : Bool := false
  plane : Nat := 0
  feed : Nat := 8191
  deriving DecidableEq, Repr

/-- An internal generator (R35). -/
structure Gen where
  plane : Nat := 0
  pattern : Nat := 0
  tone : Bool := false
  y : Nat := 64
  cb : Nat := 512
  cr : Nat := 512
  deriving DecidableEq, Repr

/-- An effect a committed change set has at a switch point (R17). -/
inductive Eff where
  | route (dest : Nat) (v a : Option Nat) (ramp : Nat)
  | bind (dest plane src asrc : Nat)
  | amode (dest mode : Nat)
  | gen (g : Nat) (v : Gen)
  | srcMode (src mode sticky hold : Nat)
  | srcWarm (src : Nat) (on : Bool)
  | srcGroup (members : List Nat) (form : Bool)
  | srcWindow (src w qc : Nat)
  | cmpBind (m : Nat)
  | audOffset (dest : Nat)
  deriving DecidableEq, Repr

/-- An effect waiting for switch point `target` of `plane`. -/
structure Pend where
  epoch : Nat
  plane : Nat
  target : Nat
  eff : Eff
  deriving DecidableEq, Repr

/-- A ROUTE_ON_AIR report (R55): waiting for its switch point, then for its event. -/
structure Airing where
  epoch : Nat
  ses : Nat
  plane : Nat
  target : Nat
  dests : List Nat
  deriving DecidableEq, Repr

/-- A ROUTE_ON_AIR event ready to be posted (R55). -/
structure OnAir where
  epoch : Nat
  ses : Nat
  plane : Nat
  swcnt : Nat
  cold : Nat
  carried : Nat
  deriving DecidableEq, Repr

/-- A route's hold of its read feed and frame buffers (R41); `out` is the switch point at which it leaves the air. -/
structure Hold where
  dest : Nat
  src : Nat
  plane : Nat
  out : Option (Nat × Nat) := none
  deriving DecidableEq, Repr

/-- An expert load of a plane's background bank (R61). -/
structure BankLoad where
  plane : Nat
  ses : Nat
  entries : Tab Nat := []
  deriving DecidableEq, Repr

/-- The committed routing state of one earlier epoch, kept for R23. -/
structure EpochRec where
  epoch : Nat
  dests : Tab Dest
  deriving DecidableEq, Repr

/-- Crossbar, planes, change sets and the epoch. -/
structure Xbar where
  planes : List Plane := List.replicate 16 {}
  epoch : Nat := 0
  dests : Tab Dest := []
  /-- Committed states of the 255 epochs before the current one, newest first (R23). -/
  history : List EpochRec := []
  air : Tab Air := []
  /-- Background entries that differ from the foreground: staged, loaded, or those of the foreground before the swap, until
  the catch-up copy (R53, R61). -/
  bg : Tab RtEntry := []
  gens : Tab Gen := []
  /-- The generators as they run, until their switch points, and the epochs that set them (R25, R35). -/
  gensNow : Tab Gen := []
  gensEp : Tab Nat := []
  pend : List Pend := []
  airing : List Airing := []
  onAir : List OnAir := []
  holds : List Hold := []
  /-- Frame buffers of outgoing routes not yet returned: source and plane (R41). -/
  fbRet : List (Nat × Nat) := []
  loads : List BankLoad := []
  rtSel : Nat := 0
  lateSeg : Nat := 0
  coldSw : Nat := 0
  stageMax : Nat := 0
  deriving DecidableEq, Repr

/-! ### Input stages (chapter 03) -/

/-- The six respects in which consecutive frames must agree (R76), as IS_SRC_FMT shows them. -/
structure SrcFmt where
  total : Nat := 0
  lines : Nat := 0
  samples : Nat := 0
  scan : Nat := 0
  rclass : Nat := 0
  rate : Nat := 15
  deriving DecidableEq, Repr

/-- One line held in a line-alignment or frame buffer: its active words and ancillary packets. -/
structure LineData where
  words : List Nat := []
  anc : List Anc := []
  deriving DecidableEq, Repr

/-- A line in a line-alignment buffer (R78): its arrival, and the last plane instant it waits for, in device time. -/
structure LabLine where
  data : LineData := {}
  at_ : Nat := 0
  until_ : Nat := 0
  deriving DecidableEq, Repr

/-- One frame buffer of a source (R84, R85): 0 empty, 1 being written, 2 complete. Its bytes are `byteAt`'s. -/
structure FrameBuf where
  st : Nat := 0
  num : Nat := 0
  fmt : SrcFmt := {}
  lines : Tab LineData := []
  at_ : Nat := 0
  /-- Device time at which the first field of an interlaced frame was whole (R224). -/
  fieldAt : Option Nat := none
  concealed : Bool := false
  /-- Samples that a read found poisoned: raster line, first word and count (R84, R93). -/
  bad : List (Nat × Nat × Nat) := []
  /-- Bytes its ancillary region holds (R84, R101). -/
  ancLen : Nat := 0
  /-- Number of the group frame it belongs to: the lead member's frame number (R92). -/
  gnum : Nat := 0
  deriving DecidableEq, Repr

/-- One input stage (R76 to R108). -/
structure Src where
  mode : Nat := 0
  sticky : Bool := false
  lossHold : Nat := 2
  warm : Bool := false
  /-- Planes at whose switch point a warm release has yet to act (R103). -/
  warmOff : List Nat := []
  /-- W set by SRC_WINDOW in µs; 0 for the default (R78). -/
  wSet : Nat := 0
  qSet : Nat := 16
  group : List Nat := []
  gbroken : Bool := false
  /-- Group frames in line since the group broke (R92). -/
  gcount : Nat := 0
  /-- Ticks at which the latest line 1 and the one before arrived (R92), and device time of the latest (R77). -/
  line1At : Nat := 0
  prev1At : Nat := 0
  line1T : Nat := 0
  /-- Tick of the latest valid line (R97). -/
  validAt : Nat := 0
  /-- Scan byte of the ST 352 payload identifier of the frame in progress (R76). -/
  pid : Option Nat := none
  present : Bool := false
  ever : Bool := false
  fmt : SrcFmt := {}
  lastSig : Option SrcFmt := none
  frame : Nat := 0
  /-- Number of the last frame of the presence that was lost last (R98). -/
  lostNum : Option Nat := none
  /-- Periods of the latest 16 frames in ps, newest first (R79). -/
  periods : List Nat := []
  /-- Intervals from line 1 to completion of the latest 16 frames in ticks, newest first: K of R264. -/
  kTicks : List Nat := []
  bufs : List FrameBuf := [{}, {}, {}]
  /-- Buffer the frame in progress is written to, and that of the frame before it until its completion (R87). -/
  cur : Option Nat := none
  ended : Option Nat := none
  /-- The line-alignment buffer, by line number (R78). -/
  lab : Tab LabLine := []
  /-- The latest line of each number that arrived, which compositors take in (R224). -/
  seen : Tab LineData := []
  /-- De-embedded sample frames on their way to the channel group (R100): stamp, samples and flags. -/
  audioQ : List (Nat × List Int × List Nat) := []
  deriving DecidableEq, Repr

/-- The counters of one input stage (R108). -/
structure SrcCnt where
  wrSkip : Nat := 0
  concLink : Nat := 0
  concPoison : Nat := 0
  lateLine : Nat := 0
  ancDrop : Nat := 0
  reclass : Nat := 0
  loss : Nat := 0
  deriving DecidableEq, Repr

/-- One (source, plane) pair (R77 to R82): class 0 ABSENT, 1 MISMATCHED, 2 ASYNCHRONOUS, 3 SYNCHRONOUS. -/
structure SrcPlane where
  cls : Nat := 0
  qcount : Nat := 0
  /-- Every line of the frame in progress stayed in the inner window, and of the frame before it (R80). -/
  inside : Bool := false
  insideWas : Bool := false
  /-- Class changes caused and not yet in effect, with the count that fixes each (R80). -/
  due : List (Nat × Nat) := []
  leadNs : Nat := 0
  /-- Leads of line 1 of the latest 17 frames in ns, newest first (R264). -/
  leads : List Nat := []
  /-- Mean of those leads at the latest qualification, in units of 2⁻³² ns (R264). -/
  qual : Nat := 0
  /-- The mode in force towards the plane (R103): SYNC when set. -/
  sync : Bool := false
  sticky : Bool := false
  lossHold : Nat := 2
  wSet : Nat := 0
  qSet : Nat := 16
  /-- The group in force towards the plane (R92, R103). -/
  grp : List Nat := []
  /-- A breach of a SYNC source that no qualification has answered (R83). -/
  breached : Bool := false
  /-- Lines that missed their plane instant when they last arrived (R82, R83). -/
  late : List Nat := []
  deriving DecidableEq, Repr

/-- One synchroniser read feed (R39, R87 to R91, R109). -/
structure Feed where
  valid : Bool := false
  plane : Nat := 0
  src : Nat := 0
  last : Nat := 0
  repeats : Nat := 0
  drops : Nat := 0
  /-- The buffer chosen at the latest decision. -/
  buf : Option Nat := none
  /-- The buffer chosen before, still being read until a tick (R85). -/
  prev : Option Nat := none
  prevUntil : Nat := 0
  /-- Switch point whose plane frame holds its first decision (R91). -/
  since : Nat := 0
  /-- Has made its first decision with a complete frame. -/
  started : Bool := false
  /-- Loss repeats made since the source was lost (R98). -/
  lossRun : Nat := 0
  /-- Samples of the frame being read that came poisoned: raster line, first word and count (R96). -/
  torn : List (Nat × Nat × Nat) := []
  deriving DecidableEq, Repr

/-- The input stages. -/
structure Inputs where
  srcs : Tab Src := []
  cnts : Tab SrcCnt := []
  /-- By 16 times the source plus the plane. -/
  pairs : Tab SrcPlane := []
  feeds : Tab Feed := []
  sel : Nat := 0
  deriving DecidableEq, Repr

/-! ### Control: sessions, rings, journal (chapter 14) -/

/-- One response entry (R404). -/
structure Resp where
  opcode : Nat := 0
  status : Nat := 0
  flags : Nat := 0
  hseq : Nat := 0
  jseq : Nat := 0
  result : List Byte := []
  deriving DecidableEq, Repr

/-- One event entry (R425). -/
structure Evt where
  code : Nat := 0
  group : Nat := 0
  eseq : Nat := 0
  sec : Nat := 0
  ns : Nat := 0
  body : List Byte := []
  deriving DecidableEq, Repr

/-- One entry of a session's outcome cache (R403): no final response while the outcome is open. -/
structure CacheEntry where
  hseq : Nat
  jseq : Nat
  final : List Resp := []
  deriving DecidableEq, Repr

inductive SesState where
  | free | opening | opn | detached
  deriving DecidableEq, Repr

/-- One session and its window (R397 to R401, R413 to R421, R426). -/
structure Session where
  st : SesState := .free
  port : Nat := 0
  name : Nat := 0
  lease : Nat := 5000
  /-- Tick at which the lease runs out, while it runs (R417). -/
  leaseEnd : Option Nat := none
  openingAt : Nat := 0
  /-- Tick at which the expert grant ends (R419). -/
  grantEnd : Option Nat := none
  key : BitVec 64 := 0
  cmds : Nat := 32
  hare : Nat := 4
  cpus : Nat := 6
  usedCmds : Nat := 0
  usedHare : Nat := 0
  /-- Microseconds of control-processor time used in the tick (R28, R413). -/
  usedCpu : Nat := 0
  heldTick : Bool := false
  irqCount : Nat := 1
  irqDelay : Nat := 0
  sub : Nat := 0
  cache : List CacheEntry := []
  /-- Entries posted and not yet signalled, and the tick of the oldest (R395). -/
  unsig : Nat := 0
  unsigAt : Nat := 0
  /-- Response entries reserved (R401). -/
  reserved : Nat := 0
  eseq : Nat := 0
  /-- Events lost since EVT_LOST was last posted and the ESEQ of the first (R427). -/
  lost : Nat := 0
  lostFirst : Nat := 0
  deriving DecidableEq, Repr

/-- A session's window: salvo area and command rings as bytes by window offset, posted entries by slot, and the
indices (R397, R398). -/
structure Window where
  ram : Mem := []
  resps : Tab Resp := []
  evts : Tab Evt := []
  cmdTail : Nat := 0
  /-- Entries taken from the command ring. -/
  cmdHead : Nat := 0
  /-- Entries taken that are not journalled and wait for their final status, oldest first: index, OPCODE, HSEQ (R400). -/
  unfinished : List (Nat × Nat × Nat) := []
  hareTail : Nat := 0
  hareHead : Nat := 0
  respTail : Nat := 0
  respHead : Nat := 0
  evtTail : Nat := 0
  evtHead : Nat := 0
  deriving DecidableEq, Repr

/-- A session's counters (R437). -/
structure SesCnt where
  cmds : Nat := 0
  held : Nat := 0
  hareRef : Nat := 0
  dup : Nat := 0
  evtLost : Nat := 0
  idxErr : Nat := 0
  foreign : Nat := 0
  deriving DecidableEq, Repr

/-- A ring entry that has been rung and not yet taken (R409). No command: the entry does not parse (R410). -/
structure Rung where
  ses : Nat
  port : Nat
  hare : Bool
  opcode : Nat
  hseq : Nat
  cmd : Option Cmd
  /-- Since when it has waited for journal room (R423). -/
  jwait : Option Nat := none
  deriving DecidableEq, Repr

/-- One journal entry (R422). `waiting`: answered PENDING, its commit record not yet written (R411). -/
structure JEntry where
  jseq : Nat
  kind : Nat
  ses : Nat
  port : Nat := 0
  hseq : Nat
  cmd : Cmd
  data : List Byte := []
  st : Nat := 0
  status : Nat := 0
  epoch : Nat := 0
  instant : Nat := 0
  waiting : Bool := false
  /-- JSEQ of the acceptance entry that a commit record belongs to; the entry's own JSEQ otherwise. -/
  of : Nat := 0
  /-- ACCEPTED is held back until the partner acknowledges the entry, and the final response until it acknowledges the
  change of STATE (R469). -/
  unacked : Bool := false
  held : List Resp := []
  /-- Response entries the command may still post (R401). -/
  room : Nat := 0
  /-- The first save that records the outcome (R423). -/
  savedIn : Option Nat := none
  /-- Tick at which the entry was journalled. -/
  tick : Nat := 0
  hare : Bool := false
  replay : Bool := false
  /-- The session has closed: nothing more is posted for the entry. -/
  deaf : Bool := false
  /-- A DT_STEP whose request stands (R353). -/
  asked : Bool := false
  /-- Offset of the entry in the journal's SRAM (R422). -/
  at_ : Nat := 0
  deriving DecidableEq, Repr

/-- A waiting SVC_SEND (R433). -/
structure SvcWait where
  ses : Nat
  hseq : Nat
  lane : Nat
  msg : Nat
  deadline : Nat
  off : Nat
  max : Nat
  deriving DecidableEq, Repr

/-- The control block. -/
structure Ctl where
  sessions : Tab Session := []
  windows : Tab Window := []
  cnts : Tab SesCnt := []
  /-- MBX_ALLOC_RES of each port: DONE, VALID, SESSION (R416). -/
  alloc : Tab (Bool × Bool × Nat) := []
  /-- MSI-X messages sent, by 128 times the port plus the vector (R395). -/
  irqs : Tab Nat := []
  /-- The MSI-X tables of the two ports as bytes, by 0x10000 times the port plus the offset (R394). -/
  msix : Mem := []
  rung : List Rung := []
  journal : List JEntry := []
  /-- Next JSEQ. -/
  jnext : Nat := 1
  /-- Offset in the journal's SRAM at which the next entry begins (R422). -/
  jpos : Nat := 0
  svc : List SvcWait := []
  /-- A Pumet firmware restart is in progress (R424). -/
  restarting : Bool := false
  /-- Ring entries are not taken (R480). -/
  quiesced : Bool := false
  /-- The journal-full condition stands (R423). -/
  jfull : Bool := false
  deriving DecidableEq, Repr

/-! ### Faults and snapshots (chapter 18) -/

/-- One fault record (R518). -/
structure FaultRec where
  src : Nat
  kind : Nat
  msg : BitVec 64
  first : Nat
  latest : Nat
  /-- Stamps of the messages, newest first, as many as escalation looks back (R521). -/
  stamps : List Nat := []
  count : Nat := 1
  base : Nat
  escalated : Bool := false
  cond : Bool := false
  injected : Bool := false
  /-- The latest message that was suppressed in this tick (R520). -/
  supp : Option (BitVec 64) := none
  overflow : Bool := false
  deriving DecidableEq, Repr

/-- The fault collector (R515 to R524, R533). -/
structure Flt where
  recs : List FaultRec := []
  /-- Messages raised by each source, modulo 256 (R515). -/
  seqs : Tab Nat := []
  /-- Messages delivered of each source in this tick (R520). -/
  delivered : Tab Nat := []
  escn : Nat := 8
  esct : Nat := 1000
  fnclass : Nat := 2
  budget : Nat := 4
  /-- Owl has made its first pass, so FAULT_N is driven (R523). -/
  passed : Bool := false
  last : BitVec 64 := 0
  raised : Nat := 0
  suppressed : Nat := 0
  escalations : Nat := 0
  cleared : Nat := 0
  tableFull : Nat := 0
  /-- A message of class C3 has been recorded since reset (R524). -/
  grave : Bool := false
  /-- Case temperature in 1/128 °C, and since when it has stayed below +100 °C (R525). -/
  caseTemp : Int := 0
  coolSince : Option Nat := none
  hot : Bool := false
  deriving DecidableEq, Repr

/-- One snapshot slot's directory entry (R528, R531). -/
structure SnapSlot where
  id : Nat := 0
  /-- 0 empty, 1 copying, 2 complete. -/
  st : Nat := 0
  held : Bool := false
  grave : Bool := false
  mask : Nat := 0
  epoch : Nat := 0
  instant : Nat := 0
  swcnt : Nat := 0
  msg : BitVec 64 := 0
  deriving DecidableEq, Repr

/-- Snapshots (R526 to R534). -/
structure Snp where
  slots : List SnapSlot := List.replicate 16 {}
  nextId : Nat := 1
  lastId : Nat := 0
  /-- The slot whose copy is in progress. -/
  busy : Option Nat := none
  enables : Nat := 0
  sclass : Nat := 0
  src : Nat := 0xFFFF
  kind : Nat := 0xFF
  div : Nat := 1
  matchSec : Nat := 0
  matchNs : Nat := 0
  period : Nat := 0
  /-- TP_0 switch points since bit 4 was enabled (R527). -/
  frames : Nat := 0
  triggers : Nat := 0
  missed : Nat := 0
  deriving DecidableEq, Repr

/-! ### Wainar Link (chapter 04) -/

/-- A block as received: header, payload and CRC, and whether every codeword that holds a bit of it was correctable (R116). -/
structure RxBlock where
  hdr : BitVec 64 := 0
  payload : BitVec 4096 := 0
  crc : BitVec 32 := 0
  cwOk : Bool := true
  deriving DecidableEq, Repr

/-- A position of a received frame (R119): its number, its calendar position and its start at the module's ball in device
time. -/
structure RxPos where
  pos : Nat := 0
  cal : Nat := 0
  at_ : Nat := 0
  deriving DecidableEq, Repr

/-- A block in the position that brought it. -/
structure WlBlock where
  at_ : RxPos := {}
  blk : RxBlock := {}
  deriving DecidableEq, Repr

/-- The frame overhead below the alignment word (R114). -/
structure Overhead where
  fseq : Nat := 0
  cpos : Nat := 0
  mode : Nat := 0
  lane : Nat := 0
  slotId : Nat := 0
  deriving DecidableEq, Repr

/-- A block held between its check and its release (R127). -/
structure HeldBlock where
  /-- Scheduled position (SEQ). -/
  pos : Nat
  /-- A copy that passed its check, if any: header and payload. -/
  good : Option (BitVec 64 × BitVec 4096) := none
  resent : Bool := false
  deriving DecidableEq, Repr

/-- Word-stream reception of one upstream slot (R121, R122, R126, R132). -/
structure RxSlot where
  /-- Owned positions since the last stream block, up to 64. -/
  quiet : Nat := 64
  /-- Where the next word belongs: line and offset; none before the first block. -/
  expect : Option (Nat × Nat) := none
  /-- The words of the record being received, with its line. -/
  line : Nat := 0
  words : List Nat := []
  /-- Word ranges of the record being received that are missing: start and length. -/
  holes : List (Nat × Nat) := []
  /-- Start of the position of the block that carried its word 0 (R125). -/
  at_ : Nat := 0
  /-- An errored block has been released since the last good one. -/
  errored : Bool := false
  /-- Complete line records not yet arrived at the input stage, oldest first. -/
  done : List LineIn := []
  rclass : Nat := 0
  deriving DecidableEq, Repr

/-- Reassembly of one service class (R135). -/
structure SvcRx where
  /-- Number of a message being discarded, whose other fragments count no more (R135). -/
  dead : Option Nat := none
  msg : Nat := 0
  frag : Nat := 0
  busy : Bool := false
  bytes : List Byte := []
  deriving DecidableEq, Repr

/-- One transmitted position kept for re-sending (R129). -/
structure Replay where
  pos : Nat
  hdr : BitVec 64
  payload : BitVec 4096
  resend : Bool := false
  served : Bool := false
  deriving DecidableEq, Repr

/-- A line record queued on a downstream slot: its line, its words, the frame it belongs to (R121, R122). -/
structure TxRec where
  line : Nat
  len : Nat
  frame : Nat
  /-- The line's slot instant in device time (R124). -/
  instant : Int := 0
  deriving DecidableEq, Repr

/-- A downstream slot's words waiting to be sent: those left of the first record from `offset` on, then the others'. -/
structure TxSlot where
  words : List Nat := []
  offset : Nat := 0
  recs : List TxRec := []
  /-- Frames queued. -/
  frame : Nat := 0
  rclass : Nat := 0
  deriving DecidableEq, Repr

/-- A service message being sent: class, number, next fragment and the bytes left (R135). -/
structure SvcTx where
  cls : Nat
  msg : Nat
  frag : Nat := 0
  bytes : List Byte
  deriving DecidableEq, Repr

/-- Receive side of one WL lane. -/
structure WlRx where
  /-- 0 DOWN, 1 SEARCH, 2 ALIGN, 3 SYNC, 4 IDENT, 5 UP (R142). -/
  st : Nat := 0
  mode : Nat := 0
  fawRun : Nat := 0
  fawMiss : Nat := 0
  fseq : Nat := 0
  cpos : Nat := 0
  slotId : Nat := 0
  farLane : Nat := 0
  /-- Start of the latest frame at the module's ball in device time, and the latest 58 line bits (R113, R137). -/
  frameAt : Nat := 0
  scr : Nat := 0
  /-- Blocks received and not yet checked, and positions not yet released, oldest first (R127, R128). -/
  blocks : List WlBlock := []
  sched : List RxPos := []
  good : Nat := 0
  bad : Nat := 0
  /-- Tick at which the current mode was entered (R142). -/
  modeAt : Nat := 0
  trips : List Nat := []
  dvalid : Bool := false
  delay : Nat := 0
  farUp : Bool := false
  foreign : Bool := false
  forRun : Nat := 0
  ownRun : Nat := 0
  echo : BitVec 32 := 0
  held : List HeldBlock := []
  slots : Tab RxSlot := []
  segOver : Nat := 0
  svc : Tab SvcRx := []
  maker : Nat := 0
  ctype : Nat := 0
  clane : Nat := 0
  lanes : Nat := 0
  modes : Nat := 0
  ident : Bool := false
  /-- MSG of the identify message sent and not yet answered (R136). -/
  identMsg : Option Nat := none
  /-- MODE of the far end's frames. -/
  farMode : Nat := 0
  /-- Consecutive good blocks that echo the module's own slot ID (R466). -/
  echoRun : Nat := 0
  deriving DecidableEq, Repr

/-- Transmit side of one WL lane. -/
structure WlTx where
  pos : Nat := 0
  cal : Nat := 0
  replay : List Replay := []
  nacks : List Nat := []
  resends : List Nat := []
  disp : Nat := 0
  /-- Owned blocks running late: header and payload in order (R130). -/
  late : List (BitVec 64 × BitVec 4096) := []
  svc : List SvcTx := []
  slots : Tab TxSlot := []
  /-- The latest block sent. -/
  lastHdr : BitVec 64 := 0
  lastPay : BitVec 4096 := 0
  /-- The claim word that the next position carries (R138). -/
  claim : Nat := 0
  /-- Starts of the latest 256 positions in device time, newest first (R137). -/
  starts : List (Nat × Nat) := []
  /-- The frame being sent: its overhead, its blocks so far, the latest 58 scrambled bits; the line bits of the latest whole
  frame (R113, R114). -/
  ovh : Overhead := {}
  frame : List Nat := []
  scr : Nat := 0
  sent : Nat := 0
  /-- Levels at the transmit balls in the latest frame time; none is electrical idle (R153, R158). -/
  ball : List Nat := []
  cwCorr : Nat := 0
  cwUnc : Nat := 0
  blkErr : Nat := 0
  /-- A heartbeat waits for the next position of lane 0 of an XL bundle (R462). -/
  beatDue : Bool := false
  deriving DecidableEq, Repr

/-- Counters of one WL lane (R146). -/
structure WlCnt where
  cwCorr : Nat := 0
  cwUncorr : Nat := 0
  chkFail : Nat := 0
  nackTx : Nat := 0
  nackRx : Nat := 0
  resendTx : Nat := 0
  resendOk : Nat := 0
  blkErr : Nat := 0
  resendSkip : Nat := 0
  nackStale : Nat := 0
  alignLoss : Nat := 0
  svcDrop : Nat := 0
  refDrop : Nat := 0
  badType : Nat := 0
  deriving DecidableEq, Repr

/-- A reference descriptor record received (R133), waiting for REF_EVENT. -/
structure RefRec where
  lane : Nat
  refid : Nat
  kind : Nat
  ql : Nat
  present : Bool
  cardHold : Bool
  stale : Bool
  pnum : Nat
  pden : Nat
  event : Nat
  spos : Nat
  soff : Nat
  /-- The event's instant in device time (R134). -/
  at_ : Int := 0
  /-- A block that may have held a record of it has been lost since (R134). -/
  hurt : Bool := false
  /-- Tick at which the record came (R311). -/
  came : Nat := 0
  deriving DecidableEq, Repr

/-- The Wainar Link block. -/
structure Wl where
  rx : Tab WlRx := []
  tx : Tab WlTx := []
  cnts : Tab WlCnt := []
  /-- Latest reference record of each (lane, REFID), by 16 times the lane plus the REFID (R134). -/
  refs : Tab RefRec := []
  /-- Records whose events REF_EVENT has yet to take, oldest first. -/
  refQ : List RefRec := []
  deriving DecidableEq, Repr

/-! ### Serial lanes (chapter 05) -/

/-- One rate set of a lane (R151): the 20 bytes as the board table has them. -/
abbrev RateSet := List Byte

/-- One serial lane (R150 to R169). -/
structure Lane where
  ready : Bool := false
  lock : Bool := false
  sig : Bool := false
  rate : Nat := 0
  loop : Nat := 0
  /-- Session that set the loopback. -/
  loopSes : Nat := 255
  keepTx : Bool := false
  fitted : Bool := false
  flags : Nat := 0
  clane : Nat := 255
  phys : Nat := 0
  tblErr : Bool := false
  set : Nat := 0
  pattern : Nat := 0
  gen : Bool := false
  chk : Bool := false
  /-- Values given by LANE_EQ_SET, in force at the next bring-up or rate change (R166). -/
  next : List RateSet := [[], [], []]
  /-- Values in force, and the board table's. -/
  now : List RateSet := [[], [], []]
  table : List RateSet := [[], [], []]
  width : Nat := 0
  height : Nat := 0
  eye : Nat := 0
  /-- A rate change is in progress to this rate. -/
  toRate : Option Nat := none
  lockLoss : Nat := 0
  prbsErr : Nat := 0
  prbsBits : Nat := 0
  /-- Tick up to which the checker has compared, and sixteenths of bits beyond the whole units in `prbsBits` (R160, R169). -/
  prbsAt : Nat := 0
  prbsRest : Nat := 0
  eyeDone : Nat := 0
  deriving DecidableEq, Repr

/-- A running eye scan (R161 to R163). -/
structure Scan where
  id : Nat
  lane : Nat
  ses : Nat
  hseq : Nat
  eye : Nat
  k : Nat
  sp : Nat
  sv : Nat
  thr : Nat
  off : Nat
  at_ : Nat
  deriving DecidableEq, Repr

/-- The serial lanes. -/
structure Lanes where
  lanes : Tab Lane := []
  scans : List Scan := []
  scanId : Nat := 0
  deriving DecidableEq, Repr

/-! ### Ethernet ports and MACs (chapter 06) -/

/-- A packet in a release buffer: the frame without its FCS and the context that sends it (R179). -/
structure TxPkt where
  ctx : Option Nat
  seq : Nat := 0
  frame : List Byte
  /-- Media, ARP or neighbour discovery: a module below ROLE 8 does not send it (R206). -/
  speak : Bool := false
  deriving DecidableEq, Repr

/-- A received frame that waits in a MAC's receive buffer, FCS included, and its receive stamp (R175, R176). -/
structure RxFrame where
  frame : List Byte
  stamp : Int
  deriving DecidableEq, Repr

/-- One MAC (R172 to R186). -/
structure Mac where
  link : Bool := false
  align : Bool := false
  lfault : Bool := false
  rfault : Bool := false
  addr : Nat := 0
  maxFrame : Nat := 9216
  /-- Tick of the latest instant at which a local or remote fault stood (R173). -/
  faultAt : Nat := 0
  /-- The receive buffer, oldest frame first (R175). -/
  rxq : List RxFrame := []
  txq : List TxPkt := []
  /-- The latest frame sent, FCS included. -/
  sent : List Byte := []
  deriving DecidableEq, Repr

/-- The 64-bit statistics of one MAC (R187). -/
structure MacCnt where
  rxFrames : Nat := 0
  rxBytes : Nat := 0
  pcsErr : Nat := 0
  fcsErr : Nat := 0
  runt : Nat := 0
  oversize : Nat := 0
  ovfFrames : Nat := 0
  ovfBytes : Nat := 0
  filtered : Nat := 0
  pause : Nat := 0
  ipErr : Nat := 0
  udpErr : Nat := 0
  unmatched : Nat := 0
  txFrames : Nat := 0
  txBytes : Nat := 0
  txLate : Nat := 0
  fecCorr : Nat := 0
  fecUncorr : Nat := 0
  wakeMatch : Nat := 0
  deriving DecidableEq, Repr

/-- One wake-pattern matcher (R181). -/
structure Matcher where
  on : Bool := false
  mac : Nat := 0
  check : Nat := 0
  mask : Nat := 0
  deriving DecidableEq, Repr

/-- The Ethernet block. -/
structure Eth where
  split : Tab Nat := []
  macs : Tab Mac := []
  cnts : Tab MacCnt := []
  wake : Tab Matcher := []
  /-- Enabled matchers, in the order in which they were enabled (R183). -/
  wakeOrder : List Nat := []
  deriving DecidableEq, Repr

/-! ### IP media flows (chapter 07) -/

/-- A flow descriptor, field by field as R189 lays it out. -/
structure Desc where
  typ : Nat := 0
  dir : Nat := 0
  mac : Nat := 0
  flags : Nat := 0
  tci : Nat := 0
  dscp : Nat := 0
  ttl : Nat := 0
  daddr : List Byte := []
  saddr : List Byte := []
  dport : Nat := 0
  sport : Nat := 0
  ssrc : Nat := 0
  pt : Nat := 0
  bind : Nat := 0
  port : Nat := 0
  chan : Nat := 0
  nch : Nat := 0
  afmt : Nat := 0
  partner : Nat := 0xFFFF
  offset : Nat := 0
  mwin : Nat := 0
  payload : Nat := 0
  anchor : Nat := 0
  depth : Nat := 0
  joinWait : Nat := 0
  width : Nat := 0
  height : Nat := 0
  fmt : Nat := 0
  /-- The reserved bytes, which must be 0. -/
  rest : Nat := 0
  deriving DecidableEq, Repr

/-- A received packet kept for playout: extended sequence number, timestamp, arrival (2⁻³² ns) and payload. -/
structure RxPkt where
  seq : Nat
  ts : Nat
  marker : Bool
  at_ : Nat
  data : List Byte
  deriving DecidableEq, Repr

/-- Counters of one context (R221). -/
structure CtxCnt where
  pkts : Nat := 0
  discard : Nat := 0
  late : Nat := 0
  lost : Nat := 0
  dup : Nat := 0
  pathLate : Nat := 0
  pathMiss : Nat := 0
  rebase : Nat := 0
  ins : Nat := 0
  drop : Nat := 0
  deriving DecidableEq, Repr

/-- A packet that a receive context or its pair has kept: sequence number, arrival (2⁻³² ns), the member that delivered
it, timestamp and marker, and whether the other member has delivered it too. -/
structure Kept where
  seq : Nat
  at_ : Nat
  who : Nat
  ts : Nat
  marker : Bool
  /-- A packet of a second field. -/
  field : Bool := false
  both : Bool := false
  deriving DecidableEq, Repr

/-- One flow context (R188 to R204): state 0 UNDEFINED, 1 DEFINED, 2 ENABLED, 3 BOUND, 4 SWAPPING. -/
structure Ctx where
  st : Nat := 0
  d : Desc := {}
  /-- Bound or target port. -/
  port : Nat := 4095
  /-- Playout offset in force in ns; for AUTO none until the flow is present (R197). -/
  offset : Nat := 0
  based : Bool := false
  /-- FLOW_OFFSET's offset waits for the next line 1 or block (R218). -/
  moved : Bool := false
  /-- An enable or disable waits for this switch point of this plane, or for this grid index beside plane 16 (R214). -/
  startAt : Option (Nat × Nat × Bool) := none
  seq : Nat := 0
  tro : Nat := 0
  pathUp : Bool := false
  pathLost : Bool := false
  lastPkt : Nat := 0
  buf : List RxPkt := []
  /-- Packets of the latest 250 ms by sequence number, the first copies of a pair (R202, R208). -/
  kept : List Kept := []
  /-- An AUTO context takes its offset anew at the next release of line 1 (R198). -/
  rebase : Bool := false
  /-- A send context sends (R214). -/
  live : Bool := false
  lateRun : Nat := 0
  /-- Audio: slip in sample periods, next timestamp, inserting or dropping, mean lateness in ns (R199, R200). -/
  slip : Int := 0
  nextTs : Option Nat := none
  inserting : Bool := false
  dropping : Bool := false
  lateSum : Int := 0
  lateN : Nat := 0
  /-- Send: bytes gathered for the next packet, with its timestamp. -/
  out : List Byte := []
  outTs : Nat := 0
  /-- Send -40: the packets gathered, each with its line (R212). -/
  ancQ : List (Nat × Anc) := []
  /-- Send 2022-6: bits gathered, and their value; frames begun (R194). -/
  bits : Nat × Nat := (0, 0)
  frames : Nat := 0
  deriving DecidableEq, Repr

/-- A MAC's IP interfaces (R192, R217). -/
structure Iface where
  ip4 : List Byte := [0, 0, 0, 0]
  pre4 : Nat := 0
  gw4 : List Byte := [0, 0, 0, 0]
  ip6 : List Byte := List.replicate 16 0
  pre6 : Nat := 0
  gw6 : List Byte := List.replicate 16 0
  deriving DecidableEq, Repr

/-- A resolved unicast next hop (R192). -/
structure Hop where
  mac : Nat
  ip : List Byte
  eth : Nat
  deriving DecidableEq, Repr

/-- A change of an ingress port's context that waits for its swap release (R207). -/
structure SwapTo where
  ctx : Option Nat
  plane : Nat
  target : Nat
  epoch : Nat
  ses : Nat
  keep : Bool
  tick : Nat
  late : Bool := false
  deriving DecidableEq, Repr

/-- An ingress port (R207 to R209). -/
structure Ingress where
  /-- The context that feeds the port. -/
  cur : Option Nat := none
  /-- The context the port swaps to (or none to unbind), the switch point and plane, epoch, session, KEEP_OLD, and
  the tick of the commit. -/
  swap : Option SwapTo := none
  /-- The committed context and the switch point from which the committed state names it. -/
  com : Option Nat := none
  /-- Lines released from the playout and not yet arrived at the input stage, oldest first (R196). -/
  lines : List LineIn := []
  /-- Timestamp of the latest frame that has left the playout whole (R201). -/
  lastTs : Option Nat := none
  deriving DecidableEq, Repr

/-- A group membership on a MAC and VLAN (R205): the contexts that use it, each with its source filter; the records of
the latest state change while their repetition is due; a query that waits for its answer. -/
structure Member where
  mac : Nat
  /-- TCI, or 65536 for no tag. -/
  tci : Nat
  v6 : Bool
  addr : List Byte
  ctxs : List (Nat × Option (List Byte)) := []
  again : List (Nat × List (List Byte)) := []
  /-- A query waits for its answer: the sources it asked about, or none for all. -/
  query : Option (List (List Byte)) := none
  deriving DecidableEq, Repr

/-- The media flows. -/
structure Flw where
  ctxs : Tab Ctx := []
  cnts : Tab CtxCnt := []
  ifs : Tab Iface := []
  hops : List Hop := []
  ports : Tab Ingress := []
  members : List Member := []
  /-- Ticks at which MACs heard an IGMPv2 and an MLDv1 query last: host compatibility modes (R205). -/
  v2 : Tab Nat := []
  mld1 : Tab Nat := []
  /-- Device-time instant to which the image's sequence numbers of send contexts were advanced (R475). -/
  seqAt : Nat := 0
  deriving DecidableEq, Repr

/-! ### Compositors (chapter 08) -/

/-- One window record (R227), with where its admission placed it (R230, R233). -/
structure Win where
  src : Nat := 0
  cropX : Nat := 0
  cropY : Nat := 0
  cropW : Nat := 2
  cropH : Nat := 1
  dstX : Nat := 0
  dstY : Nat := 0
  dstW : Nat := 2
  dstH : Nat := 1
  layer : Nat := 0
  border : Nat := 0
  alpha : Nat := 0
  bcolour : Nat := 0
  hset : Nat := 0
  vset : Nat := 0
  /-- The source was interlaced when the layout was admitted. -/
  ilace : Bool := false
  engine : Option Nat := none
  deriving DecidableEq, Repr

/-- One guarded-region record (R235). -/
structure Region where
  cls : Nat := 0
  learn : Bool := false
  mframes : Nat := 3
  sigs : List Nat := []
  x : Nat := 0
  y : Nat := 0
  w : Nat := 2
  h : Nat := 1
  /-- Epoch of the record, which restarts the mismatch count (R239). -/
  epoch : Nat := 0
  deriving DecidableEq, Repr

/-- A compositor's layout: binding, background, windows, regions, frozen windows and loaded coefficient sets. -/
structure Layout where
  plane : Nat := 0
  dither : Nat := 0
  audwin : Nat := 127
  back : Nat := 0x04080200
  wins : Tab Win := []
  regions : Tab Region := []
  frozen : List Nat := []
  /-- Sets 4 to 7: 512 horizontal and 384 vertical coefficients (R232). -/
  sets : Tab (List Int) := []
  deriving DecidableEq, Repr

/-- What a window reads in one output frame (R224, R225): black, a picture by active row with a field offset, a
source's line-alignment buffer, a generator, or another compositor's output store. -/
inductive Pic where
  | black
  /-- The last argument: 0 a whole frame, 1 a first field, 2 a second field (R224). -/
  | rows (rows : Tab (List Nat)) (width height field : Nat)
  | sync (src : Nat)
  | gen (g : Nat)
  | cmp (m : Nat)
  deriving DecidableEq, Repr

/-- A picture as the scaler reads it: the words of its active rows. -/
structure Image where
  width : Nat := 0
  height : Nat := 0
  rows : Tab (List Nat) := []
  deriving DecidableEq, Repr

/-- One frame in composition: the layout latched at its layout instant and what each window reads. -/
structure CmpFrame where
  layout : Layout := {}
  fmt : Fmt := {}
  count : Nat := 0
  pics : Tab Pic := []
  deriving DecidableEq, Repr

/-- A complete frame of the output store, as what its lines are composed from: its windows from the bottom up with their
pictures, its frame number, and the lines that were late (R226). Not complete before the first layout instant. -/
structure CmpOut where
  made : Bool := false
  layout : Layout := {}
  fmt : Fmt := {}
  count : Nat := 0
  ims : List (Win × Option (Image × Nat)) := []
  frame : Nat := 0
  late : List Nat := []
  deriving DecidableEq, Repr

/-- The counters of a compositor (R248). -/
structure CmpCnt where
  lateLine : Nat := 0
  poison : Nat := 0
  winRepeat : Nat := 0
  winDrop : Nat := 0
  guardFail : Nat := 0
  coldWin : Nat := 0
  deriving DecidableEq, Repr

/-- Running check of one region (R236 to R239). -/
structure Guard where
  epoch : Nat := 0
  miss : Nat := 0
  hit : Nat := 0
  bad : Bool := false
  /-- EXP_0 learned at the first frame (R237). -/
  learned : Option Nat := none
  deriving DecidableEq, Repr

/-- One compositor. -/
structure Cmp where
  com : Layout := {}
  /-- Layouts committed and not yet latched: plane, switch point, layout (R223). -/
  pend : List (Nat × Nat × Layout) := []
  /-- The layout latched last, and the frame composed from it. -/
  lat : CmpFrame := {}
  /-- The two halves of the output store: the last complete frame and the one before it. -/
  out : CmpOut := {}
  prev : CmpOut := {}
  /-- Stored pictures of frozen windows (R240). -/
  ice : Tab Pic := []
  /-- Freeze buffers waiting for their return: windows (R240). -/
  thaw : List Nat := []
  guards : Tab Guard := []
  /-- Frame number each window read last, and loss repeats it has shown since its source was lost (R224). -/
  lastRead : Tab Nat := []
  lossRun : Tab Nat := []
  /-- Windows that are cold (R224). -/
  coldNow : List Nat := []
  frames : Nat := 0
  /-- Signature of each region in the latest output frame (R236). -/
  sigs : Tab Nat := []
  shed : Bool := false
  /-- No frame is in composition: it was shed at its latest layout instant (R242). -/
  idle : Bool := false
  deriving DecidableEq, Repr

/-- The compositors. -/
structure Cmps where
  cmps : Tab Cmp := []
  cnts : Tab CmpCnt := []
  /-- Tick from which the next compositor may be shed or restored (R242). -/
  stepAt : Nat := 0
  deriving DecidableEq, Repr

/-! ### Audio domain (chapter 09) -/

/-- One input group: a source's 0 to 2399, an audio port's 2400 on, a context's 3000 on (R250 to R255). -/
structure AGroup where
  convert : Bool := false
  /-- Core that holds the conversion kernel (R271). -/
  core : Nat := 0
  /-- Next grid index to write; none before the first frame or after a loss. -/
  next : Option Nat := none
  /-- Missing frames since the last written one, 8 before any, and written frames since the last gap (R255). -/
  gap : Nat := 8
  up : Nat := 0
  last : List Int := []
  /-- Grid error at the latest block check in units of 2⁻³² ns (R253). -/
  err : Int := 0
  lastBlock : Nat := 0
  /-- Stamps of the frames of the latest 1 s, newest first (R282). -/
  stamps : List Nat := []
  rate : Nat := 0
  mismatch : Bool := false
  /-- Latest whole channel-status block of each channel, bit 0 of byte 0 lowest (R256, R263). -/
  status : List Nat := []
  /-- The block each channel is receiving: its bits so far and their number, 0 before a block start. -/
  block : List (Nat × Nat) := []
  /-- Samples were lost: the next frame goes to the index nearest its stamp (R95, R252). -/
  resync : Bool := false
  deriving DecidableEq, Repr

/-- A crossfade of an output channel (R260). -/
structure Fade where
  tap : Nat
  start : Nat
  len : Nat
  deriving DecidableEq, Repr

/-- A change of the source that a compositor's channel group carries: the source and window age before, and the first
index after (R241). -/
structure CmpFade where
  old : Option (Nat × Nat) := none
  start : Nat := 0
  deriving DecidableEq, Repr

/-- A gain ramp of one slot (R280). -/
structure Ramp where
  chan : Nat
  slot : Nat
  old : Int
  start : Nat
  len : Nat
  deriving DecidableEq, Repr

/-- A timed tap change in a cluster's change list (R277): a take's fade tap, or one slot of AUD_MIX. -/
structure Timed where
  epoch : Nat
  ses : Nat
  chan : Nat
  /-- None: a fade to `tap` over `len`. Some slot: the slot takes `tap`, its gain over `len`. -/
  slot : Option Nat
  tap : Nat
  len : Nat
  /-- First output index; none while it waits for switch point `target` of `plane`. -/
  start : Option Nat
  plane : Nat := 0
  target : Nat := 0
  deriving DecidableEq, Repr

/-- A load of a cluster's background mix bank (R275, R276). -/
structure MixLoad where
  cluster : Nat
  ses : Nat
  written : Tab Nat := []
  /-- Copied positions. -/
  copied : Nat := 0
  /-- The copier has begun, at a tick boundary. -/
  begun : Bool := false
  deriving DecidableEq, Repr

/-- A mix-bank or domain-rate change committed for the next block boundary (R278, R281). -/
structure BlockChange where
  epoch : Nat
  ses : Nat
  hseq : Nat
  swap : Nat
  rate : Option Nat
  /-- The written entries of the banks that are swapped in, as the journal entry holds them. -/
  taps : Tab Nat := []
  deriving DecidableEq, Repr

/-- Metering of one output channel (R273, R274). -/
structure Meter where
  on : Bool := false
  peak : Nat := 0
  ms : Nat := 0
  accPeak : Nat := 0
  accSq : Nat := 0
  n : Nat := 0
  deriving DecidableEq, Repr

/-- Audio alignment of one destination (R264 to R266, R282). -/
structure ADest where
  user : Nat := 0
  lambda : Nat := 0
  delay : Nat := 0
  block : Nat := 0
  /-- K the taps were written with, in 2⁻³² ns (R266). -/
  k : Nat := 0
  deriving DecidableEq, Repr

/-- One Shrew core's registers (R285). -/
structure ShrewCore where
  peak : Nat := 0
  ovr : Nat := 0
  deriving DecidableEq, Repr

/-- The audio domain. -/
structure Aud where
  /-- 0 for 48 kHz, 1 for 96 kHz. -/
  rate : Nat := 0
  block : Nat := 0
  /-- Ring lengths that differ from the default, and those waiting for the wrap. -/
  len : Tab Nat := []
  lenNext : Tab Nat := []
  /-- By input channel: containers by grid index (R268). -/
  rings : Tab (Tab Nat) := []
  groups : Tab AGroup := []
  /-- Foreground taps by 32 times the output channel plus the slot (R258). -/
  taps : Tab Nat := []
  fades : Tab Fade := []
  /-- By compositor: the latest change of the source its group carries (R241). -/
  cmpFades : Tab CmpFade := []
  ramps : List Ramp := []
  timed : List Timed := []
  loads : List MixLoad := []
  bankFg : Nat := 0
  ready : Nat := 0
  blockChg : List BlockChange := []
  meters : Tab Meter := []
  /-- Cores whose metering kernel has overrun in this tick (R28, R272). -/
  stopped : List Nat := []
  shedClusters : Nat := 0
  dests : Tab ADest := []
  /-- The video age each (source, plane) pair had last, in 2⁻³² ns, by 16 times the source plus the plane (R264). -/
  psi : Tab Nat := []
  /-- Changes of each generator's tone: first index and whether on, newest first (R251). -/
  tones : Tab (List (Nat × Bool)) := []
  /-- Recent output samples by channel and index. -/
  outs : Tab (Tab Int) := []
  /-- Poisoned tap reads: 32 times the output channel plus the slot, and the output index (R270). -/
  poison : List (Nat × Nat) := []
  /-- First output index after the latest jump of device time (R355). -/
  jumpTo : Option Nat := none
  deriving DecidableEq, Repr

/-- The audio domain's counters and cores (R284, R285). -/
structure AudCnt where
  clip : Nat := 0
  late : Nat := 0
  gap : Nat := 0
  poison : Nat := 0
  slipIns : Nat := 0
  slipDrop : Nat := 0
  cores : Tab ShrewCore := []
  deriving DecidableEq, Repr

/-! ### Serial audio ports (chapter 10) -/

/-- The configuration of an audio port (R286, R302). -/
structure AptCfg where
  format : Nat := 0
  s : Nat := 2
  w : Nat := 32
  m : Nat := 24
  enable : Bool := false
  fspol : Bool := false
  bclkEdge : Bool := false
  tdmdly : Bool := false
  conv : Bool := false
  trislot : Bool := false
  nout : Nat := 0
  inLat : Nat := 1000
  outLat : Nat := 1000
  deriving DecidableEq, Repr

/-- One audio port (R289 to R301): state 0 DISABLED to 5 MUTED. -/
structure Apt where
  cfg : AptCfg := {}
  n : Nat := 256
  nPend : Option Nat := none
  st : Nat := 0
  nominal : Nat := 0
  drive : Bool := false
  fine : Nat := 0
  /-- Periods of the latest 64 valid frames, newest first (R290). -/
  coarse : List Nat := []
  /-- Valid edges counted, and at the port blocks of the latest second the count and the stamp, newest first (R290). -/
  edges : Nat := 0
  win : List (Nat × Nat) := []
  lastEdge : Nat := 0
  hasEdge : Bool := false
  glitches : Nat := 0
  inBuf : List (Nat × List Int) := []
  readIdx : Nat := 0
  /-- The slot words of the frame driven before, and of the frame being driven: the slots in turn, W bits each; slots beyond
  the list are high impedance (R287). -/
  prevOut : List Nat := []
  lastOut : List Nat := []
  blkIdx : Nat := 0
  blkAt : Nat := 0
  e : Int := 0
  eo : Int := 0
  rampIn : Nat := 64
  rampOut : Nat := 64
  /-- Ramping down after a clock loss: frames still to ramp. -/
  down : Nat := 0
  within : Option Nat := none
  /-- A port block has begun and the output's check is due at the next edge (R295). -/
  pblock : Bool := false
  /-- The clock has been declared lost and has not returned (R297). -/
  clkLost : Bool := false
  core : Nat := 0
  deriving DecidableEq, Repr

/-- The counters of an audio port (R306). -/
structure AptCnt where
  glitch : Nat := 0
  inIns : Nat := 0
  inDrop : Nat := 0
  outIns : Nat := 0
  outDrop : Nat := 0
  clkLost : Nat := 0
  rateEvt : Nat := 0
  deriving DecidableEq, Repr

/-- The audio ports. -/
structure Apts where
  ports : Tab Apt := []
  cnts : Tab AptCnt := []
  deriving DecidableEq, Repr

/-! ### References, loops and clock outputs (chapter 11) -/

/-- The configuration of a reference candidate (R309, R342). -/
structure RefCfg where
  kind : Nat := 0
  prio : Nat := 0
  qlfix : Nat := 15
  qlsrc : Bool := false
  edge : Bool := false
  align : Bool := true
  num : Nat := 0
  den : Nat := 1
  wtr : Nat := 10
  soft : Nat := 2000
  hard : Nat := 10000
  slope : Nat := 500
  lossn : Nat := 3
  delay : Int := 0
  deriving DecidableEq, Repr

/-- One reference candidate: state 0 OFF to 6 DISQUALIFIED (R317). -/
structure Cand where
  cfg : RefCfg := {}
  st : Nat := 0
  qlrx : Nat := 15
  qleff : Nat := 15
  stale : Bool := false
  /-- HOLD of R310, or CARD_HOLD of the link record. -/
  hold : Bool := false
  soft : Bool := false
  hard : Bool := false
  slope : Bool := false
  /-- Tick at which the wait of QUALIFYING or WTR ends, or the return within SOFT completes. -/
  waitEnd : Option Nat := none
  ever : Bool := false
  present : Bool := false
  /-- Frequency offset in 10⁻¹² and phase against system timing in ns. -/
  foff : Int := 0
  phase : Int := 0
  /-- Event phases against the compensated XO over the latest 10 s, newest first: instant in ns and phase in ps (R313). -/
  phases : List (Nat × Int) := []
  /-- Tick of the latest event and its stamp (2⁻³² ns). -/
  lastEvent : Nat := 0
  stamp : Int := 0
  lastQl : Nat := 0
  loss : Nat := 0
  softCnt : Nat := 0
  hardCnt : Nat := 0
  slopeCnt : Nat := 0
  qlErr : Nat := 0
  selCnt : Nat := 0
  deriving DecidableEq, Repr

/-- One APLL (R333, R334). -/
structure Apll where
  mint : Nat := 40
  mnum : Nat := 0
  mden : Nat := 1
  lock : Bool := false
  bypass : Bool := true
  lockAt : Nat := 0
  byp : Nat := 0
  deriving DecidableEq, Repr

/-- One clock output (R335 to R339). -/
structure ClkOut where
  src : Nat := 0
  apll : Nat := 0
  level : Nat := 0
  d : Nat := 1
  plane : Nat := 0
  paired : Bool := false
  invert : Bool := false
  noff : Bool := false
  width : Nat := 2
  outdly : Int := 0
  wclk : Bool := false
  drive : Bool := false
  grant : Bool := false
  grantAt : Nat := 0
  deriving DecidableEq, Repr

/-- One sample of the control history (R327): u and the temperature-corrected w in 2⁻⁴⁰, its tick, and its flag. -/
structure HistSample where
  u : Int
  w : Int
  at_ : Nat
  flag : Bool
  deriving DecidableEq, Repr

/-- The loop parameters (R323 to R329). -/
structure LoopCfg where
  track : Nat := 4
  acq : Nat := 8
  tt : Nat := 2000
  w : Nat := 100
  n : Nat := 64
  alslew : Nat := 100
  guard : Nat := 2000
  hwin : Nat := 60
  learn : Nat := 24
  deriving DecidableEq, Repr

/-- The selector and the DPLL (R318 to R332). -/
structure Dpll where
  /-- 0 FREERUN, 1 ACQUIRE, 2 LOCKED, 3 TRANSITION, 4 HOLDOVER. -/
  st : Nat := 0
  mode : Nat := 0
  forced : Nat := 0
  revert : Bool := true
  pairFollow : Bool := true
  holdql : Nat := 10
  freeql : Nat := 12
  sel : Nat := 15
  lastSel : Nat := 15
  /-- ACQUIRE was entered after HOLDOVER (R332). -/
  acqHold : Bool := false
  qlout : Nat := 12
  lp : LoopCfg := {}
  u : Int := 0
  err : Int := 0
  /-- In ps. -/
  buildout : Int := 0
  lock : Bool := false
  /-- Tick at which the lock criterion was met last; lock was lost and has not been regained. -/
  lockAt : Nat := 0
  lockLost : Bool := false
  okRun : Nat := 0
  badRun : Nat := 0
  /-- The transition in progress: tick of its end, u at its start, Φ0 in ps. -/
  transEnd : Nat := 0
  transU : Int := 0
  phi0 : Int := 0
  /-- Holdover: tick and u at entry, and the holdover value last used. -/
  holdAt : Nat := 0
  holdU : Int := 0
  holdVal : Option Int := none
  /-- The last-good mark: tick and device time. -/
  mark : Nat := 0
  markT : Nat := 0
  markFrozen : Bool := false
  markClear : Option Nat := none
  hist : List HistSample := []
  /-- 60 s means of flagged w: the mean, its instant, how many flagged. -/
  means : List (Int × Nat × Nat) := []
  /-- Samples recorded since reset. -/
  samples : Nat := 0
  /-- Filtered temperature in 1/128 °C, and the filter's state in 2⁻¹⁶ of that (R327). -/
  temp : Int := 0
  tempF : Int := 0
  ageing : Int := 0
  /-- Commands committed since the previous evaluation cycle, with their data (R321). -/
  queued : List (Cmd × List Byte) := []
  deriving DecidableEq, Repr

/-- The timing block. -/
structure Tmg where
  cands : Tab Cand := []
  /-- LREF_k: lane and REFID, while bound (R311). -/
  lrefs : Tab (Nat × Nat) := []
  /-- The clockClass map, where it differs from the reset map (R312). -/
  classMap : List Byte := []
  dpll : Dpll := {}
  aplls : Tab Apll := []
  outs : Tab ClkOut := []
  /-- c(T) at the 31 points, in 2⁻⁴⁰; empty while the store holds none (R331). -/
  osc : List Int := []
  deriving DecidableEq, Repr

/-! ### Device time and PTP (chapter 12) -/

/-- A requested change of device time (R352, R353): kind 0 step, 1 jump, 2 set. -/
structure StepReq where
  /-- In units of 2⁻³² ns. -/
  delta : Int
  kind : Nat
  at_ : Nat
  ses : Option (Nat × Nat)
  jseq : Nat := 0
  deriving DecidableEq, Repr

/-- An announced master (R361): the dataset fields the comparison of IEEE 1588 Clause 9.3 uses. -/
structure Announce where
  prio1 : Nat := 255
  cls : Nat := 255
  acc : Nat := 255
  var : Nat := 0xFFFF
  prio2 : Nat := 255
  gm : Nat := 0
  steps : Nat := 0
  sender : Nat := 0
  portNo : Nat := 0
  utc : Nat := 37
  flags : Nat := 0
  deriving DecidableEq, Repr

/-- A foreign master heard on a port: its latest Announce and the ticks of the latest two (IEEE 1588 Clause 9.3). -/
structure Foreign where
  ann : Announce
  last : Nat
  prev : Option Nat := none
  deriving DecidableEq, Repr

/-- One PTP port (R361 to R364). -/
structure PtpPort where
  mac : Option Nat := none
  flags : Nat := 0
  logSync : Int := -3
  logAnn : Int := -2
  annTimeout : Nat := 3
  logDelay : Int := -3
  rxdly : Int := 0
  txdly : Int := 0
  asym : Int := 0
  st : Nat := 0
  offset : Int := 0
  mpd : Int := 0
  /-- Latest 16 round trips ((t2 − t1) + (t4 − t3)) / 2 in ps, newest first. -/
  trips : List Int := []
  /-- t1, t2 and sequence number of the latest Sync; t3 of the latest Delay_Req. -/
  t1 : Int := 0
  t2 : Int := 0
  t2t1 : Int := 0
  t3 : Int := 0
  syncSeq : Nat := 0
  waitFup : Bool := false
  /-- Correction of the Sync that waits for its Follow_Up, in ps; its sender. -/
  corr : Int := 0
  syncFrom : Nat := 0
  seqSync : Nat := 0
  seqAnn : Nat := 0
  seqReq : Nat := 0
  seqMgmt : Nat := 0
  foreign : List Foreign := []
  /-- The best of them that qualifies. -/
  best : Option Announce := none
  /-- Ethernet and IP source of the best master's latest message, for unicast Delay_Req (R361). -/
  peer : Option (Nat × List Byte) := none
  rxEvt : Nat := 0
  txEvt : Nat := 0
  annTo : Nat := 0
  bad : Nat := 0
  deriving DecidableEq, Repr

/-- The reset CLASS_OUT table (R362). -/
def classOutReset : List Nat := [6, 6, 7, 13, 14, 52, 52, 58, 140, 150, 160, 165, 248, 248, 248, 255]

/-- The PTP clock (R362, R364). -/
structure Ptp where
  domain : Nat := 127
  prio1 : Nat := 128
  prio2 : Nat := 128
  timesrc : Nat := 0xA0
  utc : Nat := 37
  flags : Nat := 0
  ident : Nat := 0
  classOut : List Nat := classOutReset
  ports : Tab PtpPort := []
  sbw : Nat := 4
  stepThr : Nat := 500
  slew : Nat := 400
  /-- 0 FREE, 1 ACQUIRING, 2 LOCKED. -/
  servo : Nat := 0
  slewing : Bool := false
  farRun : Nat := 0
  nearRun : Nat := 0
  outRun : Nat := 0
  deriving DecidableEq, Repr

/-- A device-time match unit (R359). -/
structure MatchUnit where
  on : Bool := false
  at_ : Nat := 0
  /-- Period in ms; 0 for once. -/
  period : Nat := 0
  deriving DecidableEq, Repr

/-- Device time. -/
structure Dt where
  /-- The counter in units of 2⁻³² ns from the PTP epoch, below 2⁴⁸ seconds (R348). -/
  t : Nat := 0
  incr : Nat := 0x200000000
  /-- The carried remainder of INCR in units of 2⁻⁴⁰ (R350). -/
  rem : Int := 0
  valid : Bool := false
  mode : Nat := 0
  jump : Bool := false
  follow : Bool := false
  pps : Bool := false
  steplim : Nat := 1000
  lastStep : Int := 0
  steps : Nat := 0
  stepRef : Nat := 0
  reqs : List StepReq := []
  units : Tab MatchUnit := []
  ptp : Ptp := {}
  deriving DecidableEq, Repr

/-! ### Memory stacks (chapter 13) -/

/-- One pseudo-channel position (R377 to R383, R392): state 0 in service, 1 replay, 2 quarantined, 3 frozen. -/
structure Pc where
  st : Nat := 0
  spare : Option Nat := none
  searched : Bool := false
  /-- The position's own pseudo-channel has been quarantined (R378). -/
  quar : Bool := false
  armed : Bool := true
  alerts : Nat := 0
  /-- Tick of the latest alert. -/
  alertAt : Nat := 0
  /-- Tick of the quarantine, until the remap (R378). -/
  quarAt : Option Nat := none
  capAddr : Nat := 0
  capPort : Nat := 0
  capKind : Nat := 0
  capBank : Nat := 0
  capRow : Nat := 0
  /-- The row opened last, bank included (R374). -/
  openRow : Option Nat := none
  capId : Nat := 0
  capAt : Nat := 0
  /-- MEM_FREEZE: the session and the tick it began (R383). -/
  frozen : Option (Nat × Nat) := none
  /-- The latest 64 commands issued: write or read, byte address, tick (R377). -/
  retry : List (Bool × Nat × Nat) := []
  /-- 2 KiB blocks of the spare written since the remap (R378). -/
  written : List Nat := []
  ce : Nat := 0
  ue : Nat := 0
  parity : Nat := 0
  scrub : Nat := 0
  deriving DecidableEq, Repr

/-- One controller port's budget and counters (R373, R391). The budget is none while it is at its default. -/
structure MemPort where
  budget : Option Nat := none
  /-- The budget in force in this tick (R389). -/
  force : Option Nat := none
  /-- Bytes of the requests served in this tick (R27, R28). -/
  spent : Nat := 0
  peak : Nat := 0
  late : Nat := 0
  held : Nat := 0
  urg3 : Nat := 0
  deriving DecidableEq, Repr

/-- A request that waits at the controller (R374): its port, pseudo-channel and row, the tick of its issue, its bytes; and,
where a bus master made it, the master, the address and the word to be written. -/
structure MemReq where
  port : Nat
  pos : Nat
  row : Nat
  at_ : Nat
  bytes : Nat
  act : Option (Nat × Nat × Option Nat) := none
  deriving DecidableEq, Repr

/-- One stack (R369, R378, R386). Spares: the position each serves, and whether it is itself quarantined. -/
structure Stack where
  sp0 : Option Nat := none
  sp1 : Option Nat := none
  sp0Bad : Bool := false
  sp1Bad : Bool := false
  temp : Nat := 0
  /-- 0 every 32 ms, 1 every 16 ms, 2 every 8 ms. -/
  rfsh : Nat := 0
  hot : Bool := false
  postponed : Nat := 0
  deriving DecidableEq, Repr

/-- The memory controller. -/
structure MemCtl where
  pcs : Tab Pc := []
  ports : Tab MemPort := []
  /-- Requests that wait, in order of issue (R374). -/
  reqs : List MemReq := []
  stks : Tab Stack := []
  /-- The controller answers (R387): false from P4 to W4. -/
  awake : Bool := true
  playoutPoison : Nat := 0
  /-- Patrol scrub position: pseudo-channel and unit (R384). -/
  scrubPc : Nat := 0
  scrubUnit : Nat := 0
  /-- Delay records loaded, by pseudo-channel or spare (R385). -/
  delays : Tab (List Byte) := []
  /-- Bytes of the pools by address from 0x80_0000_0000 (R449). -/
  pool : Mem := []
  /-- 64-byte units of the pools that hold the poison pattern, until they are next written (R384). -/
  bad : List Nat := []
  deriving DecidableEq, Repr

/-! ### Interconnect (chapter 15) -/

/-- The bus matrix and the system block. -/
structure Bus where
  remap : Bool := false
  lock : Bool := false
  /-- Access tables that have been narrowed (R453). -/
  acc : Tab Nat := []
  errAddr : Nat := 0
  errValid : Bool := false
  errWrite : Bool := false
  errCase : Nat := 0
  errMaster : Nat := 0
  errTarget : Nat := 0
  deny : Nat := 0
  decode : Nat := 0
  timeout : Nat := 0
  /-- Partner halves latched per master: by 2⁴⁰ times the master plus the register's address (R446). -/
  latched : Tab Nat := []
  /-- What the latest read returned: the model's own field, so that a read is seen. -/
  rdata : Nat := 0
  /-- The latest access was answered by the default target. -/
  rerr : Bool := false
  /-- Bytes that bus writes left in working SRAM, journal SRAM and Owl SRAM, by offset. -/
  work : Mem := []
  jsram : Mem := []
  owl : Mem := []
  deriving DecidableEq, Repr

/-! ### Pair operation (chapter 16) -/

/-- One heartbeat path (R464). -/
structure HbPath where
  miss : Nat := 0
  good : Nat := 0
  lost : Bool := false
  ever : Bool := false
  /-- Tick from which the 250 µs of the next miss run. -/
  at_ : Nat := 0
  deriving DecidableEq, Repr

/-- The fields of a heartbeat (R462). -/
structure Beat where
  claim : Nat := 0
  st : Nat := 0
  qlout : Nat := 0
  tvalid : Bool := false
  fit : Bool := false
  stale : Bool := false
  wakeFail : Bool := false
  t : Nat := 0
  epoch : Nat := 0
  jseq : Nat := 0
  save : Nat := 0
  rxA : Nat := 0
  rxB : Nat := 0
  deriving DecidableEq, Repr

/-- A changeover in progress (R480): phase 1 waking, 2 ready with X chosen, 3 quiesced. -/
structure Changeover where
  phase : Nat
  c : Nat
  warmMax : Nat
  plane : Nat
  /-- X in device time, once chosen. -/
  x : Option Nat := none
  jseq : Nat := 0
  byGrade : Bool := false
  deriving DecidableEq, Repr

/-- The pair settings of PAIR_CFG (R484). -/
structure PairCfg where
  demote : Nat := 8
  denAuto : Bool := true
  keepA : Bool := true
  keepB : Bool := true
  plane : Nat := 0
  drill : Nat := 24
  warmMax : Nat := 10
  deriving DecidableEq, Repr

/-! ### Saved state (R467) -/

/-- The first item of R467. -/
structure SavedHead where
  epoch : Nat := 0
  jseq : Nat := 0
  save : Nat := 0
  swcnts : List Nat := []
  /-- The instant of the save in device time, units of 2⁻³² ns. -/
  instant : Nat := 0
  deriving DecidableEq, Repr

/-- Planes, destinations, routes, protections, source modes, groups, warm holds, generators, classes. -/
structure SavedRoutes where
  xb : Xbar := {}
  srcs : Tab Src := []
  pairs : Tab SrcPlane := []
  deriving DecidableEq, Repr

/-- Flow contexts, interfaces, next hops, RTP state, splits, MAC settings, wake patterns. -/
structure SavedFlows where
  flw : Flw := {}
  eth : Eth := {}
  deriving DecidableEq, Repr

/-- Mix tables, timed changes, group modes, offsets, ring lengths, meters, rate, audio port settings. -/
structure SavedAudio where
  aud : Aud := {}
  apt : Apts := {}
  deriving DecidableEq, Repr

/-- Timing, device-time and PTP settings, mean path delays, sequenceIds. -/
structure SavedTiming where
  tmg : Tmg := {}
  dt : Dt := {}
  deriving DecidableEq, Repr

/-- Session table, outcome caches, grants. -/
structure SavedSessions where
  sessions : Tab Session := []
  deriving DecidableEq, Repr

/-- Memory port budgets, fault and snapshot settings, pair settings. -/
structure SavedSettings where
  ports : Tab MemPort := []
  flt : Flt := {}
  snp : Snp := {}
  pair : PairCfg := {}
  /-- The bundles kept in Den in the order in which they were configured (R183). -/
  keepOrder : List Nat := [0, 1]
  deriving DecidableEq, Repr

/-- An image: the nine items of R467. -/
structure Saved where
  head : SavedHead := {}
  routes : SavedRoutes := {}
  flows : SavedFlows := {}
  cmps : Cmps := {}
  audio : SavedAudio := {}
  timing : SavedTiming := {}
  sessions : SavedSessions := {}
  settings : SavedSettings := {}
  epochs : List EpochRec := []
  deriving DecidableEq, Repr

/-- One record of a save (R468): one item of R467. -/
inductive SavedRec where
  | head (x : SavedHead)
  | routes (x : SavedRoutes)
  | flows (x : SavedFlows)
  | cmps (x : Cmps)
  | audio (x : SavedAudio)
  | timing (x : SavedTiming)
  | sessions (x : SavedSessions)
  | settings (x : SavedSettings)
  | epochs (x : List EpochRec)
  deriving DecidableEq, Repr

/-- What the partner's image announces (R546). -/
structure PartnerImg where
  ssf : Nat
  ssfmin : Nat
  release : Nat
  svn : Nat
  deriving DecidableEq, Repr

/-- A message on XL (R461): what the block's payload carries. -/
inductive XlMsg where
  | beat (b : Beat)
  | journal (e : JEntry)
  | jstate (jseq st status epoch instant : Nat)
  | saveRec (k : Nat) (r : SavedRec)
  | slice (k i : Nat) (r : SavedRec)
  | whole (k : Nat) (img : Saved) (journal : List JEntry)
  | jack (jseq : Nat)
  | stateAck (jseq : Nat)
  | saveAck (k : Nat)
  | resend (k : Nat)
  | wantWhole
  /-- A wake message: for a changeover with its plane and WARMMAX, or PWR_WAKE_PARTNER's. -/
  | wake (changeover : Bool) (plane warmMax : Nat)
  | ready
  | chosen (x : Nat)
  /-- The changeover is over before X. -/
  | ended
  | report (bytes : List Byte)
  | formats (p : PartnerImg)
  deriving DecidableEq, Repr

/-- The pair block's counters (R488). -/
structure PairCnt where
  missA : Nat := 0
  missB : Nat := 0
  missPin : Nat := 0
  takeover : Nat := 0
  changeover : Nat := 0
  demote : Nat := 0
  resendReq : Nat := 0
  diverge : Nat := 0
  fullSync : Nat := 0
  deriving DecidableEq, Repr

/-- The pair block (R456 to R488). STATE 0 DEN, 1 WAKING, 2 SHADOW, 3 ACTIVE, 4 DRILL. -/
structure Pair where
  role : Nat := 0
  slotId : Nat := 0
  st : Nat := 1
  fit : Bool := false
  stale : Bool := false
  unprot : Bool := false
  split : Bool := false
  /-- ROLE 8 or 15 that a slot ID clash holds at 0; 0 for none (R458). -/
  clashRole : Nat := 0
  wakeFail : Bool := false
  ploss : Bool := false
  /-- Heartbeat loss was declared from a heartbeat showing ROLE 0 (R464). -/
  plossRole0 : Bool := false
  echoOk : Bool := false
  /-- Tick of the heartbeat loss (R466). -/
  plossAt : Nat := 0
  /-- Echo confirmation is being waited for. -/
  withhold : Bool := false
  watching : Bool := false
  pathA : HbPath := {}
  pathB : HbPath := {}
  pathPin : HbPath := {}
  /-- The partner's latest valid XL heartbeat, and the latest role it showed before. -/
  beat : Option Beat := none
  /-- The partner's latest health report (R482). -/
  report : Option (List Byte) := none
  cfg : PairCfg := {}
  /-- Bundles in the order in which they were configured for Den (R183). -/
  keepOrder : List Nat := [0, 1]
  chg : Option Changeover := none
  /-- Tick from which a handover by grade may start again (R459). -/
  again : Nat := 0
  /-- X of a changeover that left this module at ROLE 4, in device time (R480). -/
  formerAt : Option Nat := none
  /-- A self-test runs (R483); the PAIR_DRILL that asked for it: session and HSEQ. -/
  drilling : Bool := false
  drillAsk : Option (Nat × Nat) := none
  /-- Result of the latest drill, its failing blocks, its instant in device time, and its tick. -/
  drillRes : Nat := 0
  drillBlocks : Nat := 0
  drillInstant : Nat := 0
  drillTick : Nat := 0
  /-- Save number sent (claiming) or applied, and the partner's last acknowledged save. -/
  save : Nat := 0
  saveAcked : Nat := 0
  imgEpoch : Nat := 0
  img : Option Saved := none
  /-- Records received of saves not yet applied: save number and record (R468). -/
  recv : List (Nat × SavedRec) := []
  /-- Slices received with them. -/
  slices : List (Nat × SavedRec) := []
  /-- Saves in a row whose slice has been applied since the latest that was missed, while STALE (R470). -/
  renewed : Nat := 0
  /-- Messages that one bundle has brought and whose copy the other has yet to bring: bundle and message (R461). -/
  copies : List (Nat × XlMsg) := []
  /-- Saves missed and not yet applied (R470). -/
  wanted : List Nat := []
  /-- The image is the state of R33 taken at start-up (R565). -/
  ownImage : Bool := false
  /-- The whole image asked for has been applied, with the journal (R508). -/
  seeded : Bool := false
  /-- Start-up found no claim word of a partner's: 1 no heartbeat at all, 2 pulses on the pin alone (R565, R590). -/
  lone : Nat := 0
  /-- The module has neither claimed nor slept since its start: DEN_AUTO may begin its first Den entry (R498). -/
  starting : Bool := true
  /-- The latest 16 saves, newest first (R470). -/
  kept : List (Nat × Saved) := []
  /-- The journal copy of a standby (R467). -/
  jcopy : List JEntry := []
  jrecv : Nat := 0
  cnt : PairCnt := {}
  /-- The latest heartbeat sent, and pulses driven on PAIR_HB_OUT. -/
  sent : Beat := {}
  pulses : Nat := 0
  /-- Messages sent over XL beside heartbeats: the latest 64, newest last. The model's own field. -/
  sentXl : List XlMsg := []
  deriving DecidableEq, Repr

/-! ### Power (chapter 17) -/

/-- Power state: 0 ACTIVE, 1 SHADOW, 2 DEN, 3 ENTERING, 4 WAKING (R512). -/
structure Pwr where
  st : Nat := 1
  lowPower : Bool := false
  /-- 0 none, 1 to 5 P1 to P5, 9 to 15 W1 to W7. -/
  phase : Nat := 0
  cause : Nat := 0
  reseed : Bool := false
  limchk : Bool := false
  wakeFail : Bool := false
  measured : Nat := 0
  rbFail : Nat := 0
  wakeUs : Nat := 0
  wakeAt : Nat := 0
  /-- Tick at which the wake step in progress began (R503). -/
  stepAt : Nat := 0
  shadowHold : Nat := 300
  /-- Tick from which the conditions of R506 have held together. -/
  holdFrom : Option Nat := none
  /-- Rails: good and millivolts (R513). -/
  rails : Tab (Bool × Nat) := []
  /-- Wake events pending: cause codes, and the tick at which the governing one came (R499, R502). -/
  events : List Nat := []
  eventAt : Nat := 0
  /-- The step in progress has been retried (R504). -/
  retried : Bool := false
  /-- The wake runs for a claim. -/
  claiming : Bool := false
  /-- State before Den entry, to which an abort returns (R499): power state and pair state. -/
  before : Nat × Nat := (1, 2)
  /-- Regulator stays in NORMAL for the rest of the Den stay (R507). -/
  brownStay : Bool := false
  /-- Banks that hold valid signatures (R500). -/
  signed : Nat := 0
  /-- A PWR_WAKE_PARTNER waiting for the partner's SHADOW: session and HSEQ (R510). -/
  wakePartner : List (Nat × Nat) := []
  denEntry : Nat := 0
  abort : Nat := 0
  wake : Nat := 0
  retry : Nat := 0
  wakeFails : Nat := 0
  rbErr : Nat := 0
  brownout : Nat := 0
  deriving DecidableEq, Repr

/-! ### Field update (chapter 19) -/

/-- A slot record (R543); not valid is treated as erased. -/
structure SlotRec where
  valid : Bool := false
  trial : Nat := 0
  svn : Nat := 0
  gen : Nat := 0
  release : Nat := 0
  imglen : Nat := 0
  deriving DecidableEq, Repr

/-- One flash slot: its record and its image (R541, R543). -/
structure Slot where
  sr : SlotRec := {}
  image : Mem := []
  deriving DecidableEq, Repr

/-- The header of a service request beside its operation (R537), with its client: 0 the UART, else one more than
65,536 times the IPv4 address plus the UDP port. -/
structure SvcReq where
  client : Nat
  tag : Nat := 0
  offset : Nat := 0
  deriving DecidableEq, Repr

/-- A reply of the service port (R537, R540). -/
structure SvcReply where
  client : Nat
  op : Nat
  status : Nat
  tag : Nat
  offset : Nat
  payload : List Byte
  deriving DecidableEq, Repr

/-- The transfer (R538): state 1 receiving, 2 verified, 3 writing. `ranges` are the received byte ranges, start and
end, rising and apart. `asked`: the VERIFYs, or WRITEs, whose replies are deferred: one and its repeats (R537). -/
structure Xfer where
  client : Nat
  slot : Nat
  len : Nat
  st : Nat := 1
  staged : Mem := []
  ranges : List (Nat × Nat) := []
  lastAt : Nat := 0
  asked : List SvcReq := []
  deriving DecidableEq, Repr

/-- A frame as it arrives on the service port (R535, R536). -/
inductive SvcFrame where
  /-- An Ethernet frame on SVC, its FCS last. -/
  | svc (frame : List Byte)
  /-- The bytes between two END characters on SVC_UART. -/
  | uart (frame : List Byte)
  deriving DecidableEq, Repr

/-- The update block. -/
structure Upd where
  slotA : Slot := {}
  slotB : Slot := {}
  fcount : Nat := 0
  /-- A fuse that does not burn: a burn to this count or above fails to read back (R545). The model's own field. -/
  fuseStuck : Option Nat := none
  /-- The key digests that fuse sets 0 to 3 hold (R542). -/
  keys : List (List Byte) := List.replicate 4 (List.replicate 48 0)
  runSlot : Nat := 0
  /-- Firmware runs from `runSlot`. -/
  running : Bool := false
  fallback : Bool := false
  svcOn : Bool := true
  xfer : Option Xfer := none
  partner : Option PartnerImg := none
  /-- The latest reply sent; as it leaves: the UDP payload on SVC, the framed bytes on SVC_UART (R536, R537). -/
  reply : Option SvcReply := none
  wire : List Byte := []
  /-- The latest ARP reply, without its FCS (R535). -/
  arp : List Byte := []
  xferOk : Nat := 0
  xferFail : Nat := 0
  flashErr : Nat := 0
  svcBad : Nat := 0
  deriving DecidableEq, Repr

/-! ### Start-up (chapter 20) -/

/-- What a boot phase measures or reads from outside: the slot ID pins and the measured XO in Hz (S1); the flash contents
that the factory and the board maker have programmed since the previous start, slot records, images, calibration stores and
board tables (S2); the memory positions that fail their verification (S3), a position plus 136 where its delay search fails
as well. -/
structure BootFind where
  slotId : Nat := 0
  xo : Nat := 0
  recA : Option (List Byte) := none
  recB : Option (List Byte) := none
  imgA : Option Mem := none
  imgB : Option Mem := none
  calA : Option (List Byte) := none
  calB : Option (List Byte) := none
  btA : Option (List Byte) := none
  btB : Option (List Byte) := none
  badPos : List Nat := []
  deriving DecidableEq, Repr

/-- A write of the calibration store waiting or in progress (R562): the command that asked, if any (session, HSEQ, opcode),
the bytes it replaces from an offset in the store on, and the devices written so far. -/
structure CalJob where
  ask : Option (Nat × Nat × Nat) := none
  patches : List (Nat × List Byte) := []
  /-- The whole store being programmed, once begun. -/
  store : List Byte := []
  /-- The device being programmed: 0 FLASH_A, 1 FLASH_B; and whether only that one is (a repair). -/
  dev : Nat := 0
  only : Bool := false
  begun : Bool := false
  /-- A device read back wrong. -/
  bad : Bool := false
  deriving DecidableEq, Repr

/-- Start-up state and the SYS_ registers of R570. PHASE 1 to 7, 0 once ready. -/
structure Sys where
  phase : Nat := 1
  romMode : Bool := false
  slot : Nat := 0
  rstCause : Nat := 0
  xonom : Nat := 0
  slotId : Nat := 0
  readyMs : Nat := 0
  /-- Tick of reset release and tick at which the current phase began. -/
  resetAt : Nat := 0
  phaseAt : Nat := 0
  /-- The calibration copies as bytes (R560) and the copy in use: 0 none, 1 A, 2 B. -/
  calA : List Byte := []
  calB : List Byte := []
  calUsed : Nat := 0
  /-- The store in use. -/
  cal : List Byte := []
  btA : List Byte := []
  btB : List Byte := []
  /-- Copies read as valid, and the copy in use: 0 none, 1 A, 2 B. -/
  btAOk : Bool := false
  btBOk : Bool := false
  btUsed : Nat := 0
  jobs : List CalJob := []
  /-- Faults to raise once the firmware runs: kind and ADDR, with the source (R544, R557, R561). -/
  later : List (Nat × Nat × Nat) := []
  /-- Slots that S4 has rejected (R557). -/
  rejected : List Nat := []
  /-- The part is an engineering sample (R2). -/
  sample : Bool := false
  deriving DecidableEq, Repr

/-- What a destination's release buffer released last (R31). -/
structure OutLine where
  line : Nat := 0
  words : List Nat := []
  anc : List Anc := []
  /-- Samples that were concealed: start and length. -/
  concealed : List (Nat × Nat) := []
  late : Bool := false
  /-- After an unplanned claim no frame with content has left yet (R474). -/
  idle : Bool := false
  /-- In EMBED mode the first output index not yet embedded (R263). -/
  emb : Option Nat := none
  deriving DecidableEq, Repr

/-! ### Operands of the events -/

/-- What the input stage measured of a completed frame (R76): lines, samples, rate class, whether its raster has two
fields, and its period in ps (R79). -/
structure FrameShape where
  total : Nat := 0
  lines : Nat := 0
  samples : Nat := 0
  rclass : Nat := 0
  fields : Bool := false
  period : Nat := 0
  deriving DecidableEq, Repr

/-- A received WL frame (R113 to R115): the levels of its line symbols at the phase the receiver searches or holds, and
the start of its first bit at the module's ball in device time. -/
structure WlFrame where
  levels : List Nat := []
  at_ : Nat := 0
  deriving DecidableEq, Repr

/-- What a PTP message's stamps measured, in ps of device time: the ingress or egress stamp (R357). -/
structure PtpMeas where
  stamp : Int := 0
  deriving DecidableEq, Repr

/-- What a poisoned read was for (R381). -/
inductive PoisonUse where
  /-- A synchroniser read feed's unit of a frame buffer (R96): feed and byte offset (R84). -/
  | feed (feed off : Nat)
  /-- The concealment read of a source's newest complete frame (R93): source and byte offset. -/
  | conceal (src off : Nat)
  /-- A compositor window's input line: compositor, window, active row (R226). -/
  | window (m w row : Nat)
  /-- A tap's sample: output channel, slot and output index (R270). -/
  | tap (chan slot index : Nat)
  /-- A playout packet: context and extended sequence number. -/
  | playout (ctx seq : Nat)
  /-- The system area; both copies poisoned. -/
  | system (both : Bool)
  /-- A patrol or other read. -/
  | other
  deriving DecidableEq, Repr

/-- The header of a host command: the session and port it comes from, its ring and its HSEQ (R402). -/
structure Hdr where
  ses : Nat
  port : Nat := 0
  hseq : Nat := 1
  deriving DecidableEq, Repr

/-- The blocks of the module. -/
structure Blocks where
  now : Nat := 0
  free : Nat := 0
  xb : Xbar := {}
  is_ : Inputs := {}
  ctl : Ctl := {}
  flt : Flt := {}
  snp : Snp := {}
  wl : Wl := {}
  ln : Lanes := {}
  eth : Eth := {}
  flw : Flw := {}
  cmp : Cmps := {}
  aud : Aud := {}
  audCnt : AudCnt := {}
  apt : Apts := {}
  tmg : Tmg := {}
  dt : Dt := {}
  mem : MemCtl := {}
  bus : Bus := {}
  pr : Pair := {}
  pwr : Pwr := {}
  upd : Upd := {}
  sys : Sys := {}
  out : Tab OutLine := []
  deriving DecidableEq, Repr

end Sys2Proof.Machine
end

