-- ==== Sys2Proof/Syntax.lean ====
section
/-! DEFINITION. The commands of the block: one constructor per row of the table of operations and events. A host command
carries the session, port and HSEQ it comes with and its payload fields; an event carries what it measures or brings
from outside. -/
namespace Sys2Proof
open Sys2Proof.Machine

/-- One command or event. -/
inductive Instr where
  /-- TAKE (R47). -/
  | take (h : Hdr) (rec expected : Nat)
  /-- SALVO (R57). -/
  | salvo (h : Hdr) (count rsvd off expected : Nat)
  /-- ROUTE_QUERY (R60). -/
  | routeQuery (h : Hdr) (epoch first count off : Nat)
  /-- PROTECT (R46). -/
  | protect (h : Hdr) (first count rel : Nat)
  /-- FORCE_RELEASE (R46). -/
  | forceRelease (h : Hdr) (first count : Nat)
  /-- BANK_LOAD (R61). -/
  | bankLoad (h : Hdr) (plane act count off : Nat)
  /-- BANK_SWAP (R62). -/
  | bankSwap (h : Hdr) (plane : Nat)
  /-- SRC_MODE (R42). -/
  | srcMode (h : Hdr) (src mode flags lossHold : Nat)
  /-- SRC_WARM (R44). -/
  | srcWarm (h : Hdr) (src on : Nat)
  /-- SRC_GROUP (R92). -/
  | srcGroup (h : Hdr) (size m0 m1 m2 m3 : Nat)
  /-- SRC_STATUS (R104). -/
  | srcStatus (h : Hdr) (src : Nat)
  /-- SRC_WINDOW (R78). -/
  | srcWindow (h : Hdr) (src w qcount : Nat)
  /-- DEST_BIND (R45). -/
  | destBind (h : Hdr) (first count plane : Nat)
  /-- DEST_AUDIO (R49). -/
  | destAudio (h : Hdr) (first count mode : Nat)
  /-- GEN_CFG (R35). -/
  | genCfg (h : Hdr) (gen plane pattern audio y cb cr : Nat)
  /-- SVC_SEND (R433). -/
  | svcSend (h : Hdr) (lane cls len off roff rmax timeout : Nat)
  /-- PLANE_CFG (R19). -/
  | planeCfg (h : Hdr) (plane raster scan rate phLines phSamples : Nat)
  /-- PLANE_SWITCH (R15). -/
  | planeSwitch (h : Hdr) (plane line cutoff : Nat)
  /-- PLANE_STATUS (R431). -/
  | planeStatus (h : Hdr) (plane : Nat)
  /-- LANE_STATUS (R165). -/
  | laneStatus (h : Hdr) (lane : Nat)
  /-- EYE_SCAN (R161). -/
  | eyeScan (h : Hdr) (lane eye k sp sv thr off : Nat)
  /-- LANE_LOOP (R158). -/
  | laneLoop (h : Hdr) (lane mode flags : Nat)
  /-- LANE_PRBS (R160). -/
  | lanePrbs (h : Hdr) (lane pattern on rate : Nat)
  /-- LANE_EQ_SET (R166). -/
  | laneEqSet (h : Hdr) (lane set flags vals : Nat)
  /-- ETH_PORT_SPLIT (R171). -/
  | ethPortSplit (h : Hdr) (port mode : Nat)
  /-- ETH_MAC_CFG (R174). -/
  | ethMacCfg (h : Hdr) (mac addr maxFrame : Nat)
  /-- ETH_STATUS (R184). -/
  | ethStatus (h : Hdr) (mac : Nat)
  /-- WAKE_PATTERN (R181). -/
  | wakePattern (h : Hdr) (matcher on mac check mask : Nat)
  /-- FLOW_DEFINE (R188). -/
  | flowDefine (h : Hdr) (ctx op off : Nat)
  /-- FLOW_PORT (R207). -/
  | flowPort (h : Hdr) (ctx port flags : Nat)
  /-- FLOW_STATUS (R218). -/
  | flowStatus (h : Hdr) (ctx : Nat)
  /-- FLOW_IF (R192). -/
  | flowIf (h : Hdr) (mac off : Nat)
  /-- FLOW_CAPACITY (R218). -/
  | flowCapacity (h : Hdr) (mac : Nat)
  /-- FLOW_OFFSET (R197). -/
  | flowOffset (h : Hdr) (ctx auto offset : Nat)
  /-- CMP_BIND (R222). -/
  | cmpBind (h : Hdr) (m plane dither audwin back : Nat)
  /-- CMP_LAYOUT (R227). -/
  | cmpLayout (h : Hdr) (m count off : Nat)
  /-- CMP_GUARD (R235). -/
  | cmpGuard (h : Hdr) (m count off : Nat)
  /-- CMP_FREEZE (R240). -/
  | cmpFreeze (h : Hdr) (m win op : Nat)
  /-- CMP_STATUS (R245). -/
  | cmpStatus (h : Hdr) (m off : Nat)
  /-- CMP_COEF (R232). -/
  | cmpCoef (h : Hdr) (m set off : Nat)
  /-- AUD_MIX (R280). -/
  | audMix (h : Hdr) (count ramp anchor off : Nat)
  /-- AUD_GROUP (R254). -/
  | audGroup (h : Hdr) (src mode : Nat)
  /-- AUD_OFFSET (R266). -/
  | audOffset (h : Hdr) (dest us : Nat)
  /-- AUD_HISTORY (R269). -/
  | audHistory (h : Hdr) (first count len : Nat)
  /-- AUD_METER (R273). -/
  | audMeter (h : Hdr) (first count op off : Nat)
  /-- AUD_STATUS (R282). -/
  | audStatus (h : Hdr) (kind index : Nat)
  /-- AUD_BANK_LOAD (R275). -/
  | audBankLoad (h : Hdr) (cluster act count off : Nat)
  /-- AUD_BANK_SWAP (R278). -/
  | audBankSwap (h : Hdr) (mask : Nat)
  /-- AUD_RATE (R281). -/
  | audRate (h : Hdr) (rate : Nat)
  /-- APT_CFG (R300). -/
  | aptCfg (h : Hdr) (port format nslots w m flags nout inLat outLat : Nat)
  /-- APT_RING (R299). -/
  | aptRing (h : Hdr) (port n : Nat)
  /-- APT_STATUS (R303). -/
  | aptStatus (h : Hdr) (port : Nat)
  /-- TMG_REF_CFG (R342). -/
  | tmgRefCfg (h : Hdr) (cand kind prio flags num den wtr soft hard slope lossn : Nat) (delay : Int)
  /-- TMG_LREF_BIND (R311). -/
  | tmgLrefBind (h : Hdr) (lref lane refid : Nat)
  /-- TMG_SEL_CFG (R318). -/
  | tmgSelCfg (h : Hdr) (mode forced flags holdql freeql : Nat)
  /-- TMG_APLL_CFG (R333). -/
  | tmgApllCfg (h : Hdr) (apll mint mnum mden : Nat)
  /-- TMG_CLKOUT_CFG (R335). -/
  | tmgClkoutCfg (h : Hdr) (out src apll level d plane flags width : Nat) (outdly : Int)
  /-- TMG_WCLK_CFG (R339). -/
  | tmgWclkCfg (h : Hdr) (out op apll level : Nat) (outdly : Int)
  /-- TMG_STATUS (R343). -/
  | tmgStatus (h : Hdr) (cand : Nat)
  /-- TMG_CLASS_MAP (R312). -/
  | tmgClassMap (h : Hdr) (off : Nat)
  /-- TMG_LOOP_CFG (R323). -/
  | tmgLoopCfg (h : Hdr) (track acq tt w n alslew guard hwin learn : Nat)
  /-- DT_STEP (R352). -/
  | dtStep (h : Hdr) (sec ns : Int) (flags : Nat)
  /-- DT_CFG (R350). -/
  | dtCfg (h : Hdr) (mode steplim : Nat)
  /-- DT_STATUS (R366). -/
  | dtStatus (h : Hdr)
  /-- PTP_CFG (R362). -/
  | ptpCfg (h : Hdr) (domain prio1 prio2 timesrc utc flags ident classOut : Nat)
  /-- PTP_PORT_CFG (R361). -/
  | ptpPortCfg (h : Hdr) (port mac flags : Nat) (logSync logAnn : Int) (annTimeout : Nat) (logDelay rxdly txdly asym : Int)
  /-- DT_PIN_CFG (R360). -/
  | dtPinCfg (h : Hdr) (mode : Nat)
  /-- PTP_SERVO_CFG (R364). -/
  | ptpServoCfg (h : Hdr) (sbw stepThr slew : Nat)
  /-- MEM_STATUS (R389). -/
  | memStatus (h : Hdr) (pc : Nat)
  /-- MEM_REARM (R382). -/
  | memRearm (h : Hdr) (pc : Nat)
  /-- MEM_PORT_CFG (R376). -/
  | memPortCfg (h : Hdr) (port budget : Nat)
  /-- MEM_FREEZE (R383). -/
  | memFreeze (h : Hdr) (pc op off : Nat)
  /-- MEM_CAL_SAVE (R385). -/
  | memCalSave (h : Hdr) (mask : Nat)
  /-- SESSION_OPEN (R430). -/
  | sessionOpen (h : Hdr) (name lease sub irqCount irqDelay : Nat)
  /-- SESSION_CLOSE (R418). -/
  | sessionClose (h : Hdr) (target : Nat)
  /-- SESSION_ATTACH (R421). -/
  | sessionAttach (h : Hdr) (key : Nat)
  /-- SUBSCRIBE (R426). -/
  | subscribe (h : Hdr) (sub irqCount irqDelay : Nat)
  /-- PENDING_QUERY (R430). -/
  | pendingQuery (h : Hdr) (all max off : Nat)
  /-- IDENTITY (R430). -/
  | identity (h : Hdr)
  /-- EXPERT_GRANT (R419). -/
  | expertGrant (h : Hdr) (req lease : Nat)
  /-- SESSION_BUDGET (R414). -/
  | sessionBudget (h : Hdr) (target cmds hare cpus : Nat)
  /-- PAIR_STATUS (R482). -/
  | pairStatus (h : Hdr) (which off : Nat)
  /-- PAIR_CHANGEOVER (R480). -/
  | pairChangeover (h : Hdr) (plane warmMax : Nat)
  /-- PAIR_CFG (R484). -/
  | pairCfg (h : Hdr) (demote flags plane drill warmMax : Nat)
  /-- PAIR_DRILL (R483). -/
  | pairDrill (h : Hdr)
  /-- PAIR_FORCE (R485). -/
  | pairForce (h : Hdr) (op : Nat)
  /-- PWR_STATUS (R510). -/
  | pwrStatus (h : Hdr)
  /-- PWR_DEN (R498). -/
  | pwrDen (h : Hdr)
  /-- PWR_WAKE_PARTNER (R510). -/
  | pwrWakePartner (h : Hdr)
  /-- PWR_CFG (R509). -/
  | pwrCfg (h : Hdr) (hold flags : Nat)
  /-- FLT_LIST (R531). -/
  | fltList (h : Hdr) (cls off : Nat)
  /-- FLT_CLEAR (R522). -/
  | fltClear (h : Hdr) (src kind : Nat)
  /-- FLT_CFG (R521). -/
  | fltCfg (h : Hdr) (escn esct fnclass budget : Nat)
  /-- SNP_TRIGGER (R527). -/
  | snpTrigger (h : Hdr)
  /-- SNP_CFG (R527). -/
  | snpCfg (h : Hdr) (enables sclass src kind div msec mns period : Nat)
  /-- SNP_LIST (R531). -/
  | snpList (h : Hdr) (off : Nat)
  /-- SNP_READ (R532). -/
  | snpRead (h : Hdr) (slot ioff len off : Nat)
  /-- SNP_HOLD (R529). -/
  | snpHold (h : Hdr) (slot hold : Nat)
  /-- FLT_INJECT (R532). -/
  | fltInject (h : Hdr) (msg : Nat)
  /-- UPD_STATUS (R552). -/
  | updStatus (h : Hdr)
  /-- UPD_ACTIVATE (R544). -/
  | updActivate (h : Hdr) (slot : Nat)
  /-- UPD_CONFIRM (R544). -/
  | updConfirm (h : Hdr)
  /-- UPD_RESTART (R548). -/
  | updRestart (h : Hdr)
  /-- UPD_SVC_CFG (R552). -/
  | updSvcCfg (h : Hdr) (on : Nat)
  /-- UPD_FUSE (R545). -/
  | updFuse (h : Hdr)
  /-- CAL_READ (R569). -/
  | calRead (h : Hdr) (sect off : Nat)
  /-- CAL_WRITE (R562). -/
  | calWrite (h : Hdr) (sect off : Nat)
  /-- IDENT (R539). -/
  | svcIdent (c : SvcReq)
  /-- OPEN (R539). -/
  | svcOpen (c : SvcReq) (slot len : Nat)
  /-- DATA (R539). -/
  | svcData (c : SvcReq) (data : List Byte)
  /-- VERIFY (R542). -/
  | svcVerify (c : SvcReq)
  /-- WRITE (R544). -/
  | svcWrite (c : SvcReq)
  /-- STATUS (R539). -/
  | svcStatus (c : SvcReq)
  /-- ABORT (R539). -/
  | svcAbort (c : SvcReq)
  /-- ACTIVATE (R559). -/
  | svcActivate (c : SvcReq) (slot : Nat)
  /-- FAULTS (R539). -/
  | svcFaults (c : SvcReq)
  /-- SNAPSHOT (R539). -/
  | svcSnapshot (c : SvcReq) (slot : Nat)
  /-- MBX_CMD_TAIL_WRITE (R399). -/
  | mbxCmdTailWrite (port ses tail : Nat)
  /-- MBX_HARE_TAIL_WRITE (R399). -/
  | mbxHareTailWrite (port ses tail : Nat)
  /-- MBX_RESP_HEAD_WRITE (R417). -/
  | mbxRespHeadWrite (port ses head : Nat)
  /-- MBX_EVT_HEAD_WRITE (R417). -/
  | mbxEvtHeadWrite (port ses head : Nat)
  /-- MBX_ALLOC_REQ_GO (R416). -/
  | mbxAllocReqGo (port : Nat)
  /-- SYS_REMAP_WRITE (R448). -/
  | sysRemapWrite (master value : Nat)
  /-- BUS_ACC_WRITE (R453). -/
  | busAccWrite (master target value : Nat)
  /-- BUS_LOCK_WRITE (R453). -/
  | busLockWrite (master value : Nat)
  /-- BUS_ERR_INFO_CLEAR (R444). -/
  | busErrInfoClear (master value : Nat)
  /-- DT_STAT_JUMP_CLEAR (R367). -/
  | dtStatJumpClear (master value : Nat)
  /-- RC_COUNTER_READ (R4). -/
  | rcCounterRead (master addr : Nat)
  /-- LATCHING_READ (R446). -/
  | latchingRead (master addr : Nat)
  /-- REGISTER_WRITE (R5). -/
  | registerWrite (master addr value : Nat)
  /-- DEFAULT_TARGET_ACCESS (R442). -/
  | defaultTargetAccess (master addr : Nat) (write : Bool) (value : Nat)
  /-- BUS_TARGET_TIMEOUT (R443). -/
  | busTargetTimeout (master addr : Nat) (write : Bool)
  /-- BMC_I2C_ACCESS (R581). -/
  | bmcI2cAccess (dev addr : Nat) (write : Bool)
  /-- HOST_LINK_DOWN (R396). -/
  | hostLinkDown (port : Nat)
  /-- CHANGE_SET_COMMIT (R411). -/
  | changeSetCommit
  /-- BUDGET_TICK (R27). -/
  | budgetTick
  /-- PLANE_CUTOFF (R53). -/
  | planeCutoff (plane : Nat)
  /-- STAGING_COMPLETE (R54). -/
  | stagingComplete (plane us : Nat)
  /-- PLANE_SWITCH_POINT (R53). -/
  | planeSwitchPoint (plane : Nat)
  /-- CATCH_UP_COPY_COMPLETE (R61). -/
  | catchUpCopyComplete (plane : Nat)
  /-- ROUTE_ON_AIR (R55). -/
  | routeOnAir (plane : Nat)
  /-- FRAME_BUFFER_RETURN (R41). -/
  | frameBufferReturn (src plane : Nat)
  /-- OUTPUT_RELEASE (R31). -/
  | outputRelease (dest line : Nat) (late : Bool)
  /-- IS_LINE_ARRIVAL (R77). -/
  | isLineArrival (src : Nat) (content : Option LineIn)
  /-- IS_FRAME_COMPLETE (R87). -/
  | isFrameComplete (src : Nat) (shape : FrameShape)
  /-- IS_READ_DECISION (R88). -/
  | isReadDecision (feed : Nat)
  /-- IS_SOURCE_LOST (R97). -/
  | isSourceLost (src : Nat)
  /-- WL_FRAME_RECEIVE (R115). -/
  | wlFrameReceive (lane : Nat) (f : WlFrame)
  /-- WL_BLOCK_RECEIVE (R116). -/
  | wlBlockReceive (lane : Nat) (block : Option WlBlock)
  /-- WL_POSITION_TRANSMIT (R120). -/
  | wlPositionTransmit (lane at_ : Nat)
  /-- WL_BLOCK_RELEASE (R127). -/
  | wlBlockRelease (lane : Nat)
  /-- WL_SLOT_IDLE (R126). -/
  | wlSlotIdle (lane slot : Nat)
  /-- WL_LANE_DOWN (R143). -/
  | wlLaneDown (lane : Nat)
  /-- WL_MODE_TRY_TIMEOUT (R142). -/
  | wlModeTryTimeout (lane : Nat)
  /-- LANE_READY (R154). -/
  | laneReady (lane : Nat)
  /-- LANE_LOCK (R154). -/
  | laneLock (lane : Nat)
  /-- LANE_LOCK_LOSS (R156). -/
  | laneLockLoss (lane : Nat) (sig : Bool)
  /-- LANE_RATE_CHANGE_DONE (R155). -/
  | laneRateChangeDone (lane : Nat)
  /-- EYE_SCAN_COMPLETE (R163). -/
  | eyeScanComplete (lane : Nat) (counts : List Nat)
  /-- ETH_FRAME_RECEIVE (R175). -/
  | ethFrameReceive (mac : Nat) (frame : List Byte) (pcsErr : Bool) (m : PtpMeas)
  /-- ETH_LINK_CHANGE (R173). -/
  | ethLinkChange (mac : Nat) (up align lfault rfault : Bool)
  /-- ETH_PACKET_RELEASE (R180). -/
  | ethPacketRelease (mac : Nat) (complete : Bool)
  /-- FLOW_LINE_RELEASE (R196). -/
  | flowLineRelease (ctx ts line : Nat)
  /-- FLOW_AUDIO_RELEASE (R199). -/
  | flowAudioRelease (ctx : Nat)
  /-- FLOW_LATENESS_CHECK (R200). -/
  | flowLatenessCheck (ctx : Nat)
  /-- PROTECTION_PATH_LOST (R203). -/
  | protectionPathLost (ctx : Nat)
  /-- FLOW_SWAP_RELEASE (R207). -/
  | flowSwapRelease (port : Nat)
  /-- STATE_CHANGE_REPORT_REPEAT (R205). -/
  | stateChangeReportRepeat (mac : Nat) (group : List Byte)
  /-- QUERY_RESPONSE (R205). -/
  | queryResponse (mac : Nat)
  /-- NEXT_HOP_REFRESH (R192). -/
  | nextHopRefresh (mac : Nat)
  /-- CMP_LAYOUT_INSTANT (R223). -/
  | cmpLayoutInstant (m : Nat) (lateLines : List Nat)
  /-- COMPOSITOR_SHED (R242). -/
  | compositorShed
  /-- COMPOSITOR_RESTORE (R242). -/
  | compositorRestore
  /-- METERS_SHED (R274). -/
  | metersShed
  /-- AUDIO_INPUT_FRAME (R252). -/
  | audioInputFrame (group : Nat)
  /-- AUDIO_BLOCK (R20). -/
  | audioBlock
  /-- AUDIO_OUTPUT_SAMPLE (R259). -/
  | audioOutputSample (chan index : Nat)
  /-- AUD_BANK_WHOLE (R278). -/
  | audBankWhole (cluster : Nat)
  /-- APT_FSYNC_EDGE (R289). -/
  | aptFsyncEdge (port bclks : Nat) (slots : List Nat)
  /-- APT_CLOCK_LOST (R297). -/
  | aptClockLost (port : Nat)
  /-- REF_EVENT (R308). -/
  | refEvent (cand at_ : Nat) (phase : Int)
  /-- QL_MESSAGE (R310). -/
  | qlMessage (cand : Nat) (bytes : List Byte) (gap : Bool)
  /-- QL_TIMEOUT (R310). -/
  | qlTimeout (cand : Nat)
  /-- CANDIDATE_MEASUREMENT (R313). -/
  | candidateMeasurement (cand : Nat) (events : List (Nat × Int))
  /-- CANDIDATE_ABSENT (R314). -/
  | candidateAbsent (cand : Nat)
  /-- SELECTOR_EVALUATION (R321). -/
  | selectorEvaluation
  /-- TRANSITION_END (R324). -/
  | transitionEnd
  /-- DPLL_PHASE_CYCLE (R325). -/
  | dpllPhaseCycle (err : Int)
  /-- HOLDOVER_SAMPLE (R327). -/
  | holdoverSample (temp : Int)
  /-- APLL_LOCK (R334). -/
  | apllLock (apll : Nat)
  /-- APLL_BYPASS (R334). -/
  | apllBypass (apll : Nat)
  /-- APLL_BYPASS_RETURN (R334). -/
  | apllBypassReturn (apll : Nat)
  /-- CLKOUT_GRANT_ENABLE (R338). -/
  | clkoutGrantEnable (out : Nat)
  /-- DT_TICK (R349). -/
  | dtTick (n : Nat)
  /-- DT_STEP_APPLY (R353). -/
  | dtStepApply
  /-- DT_MATCH (R359). -/
  | dtMatch (unit : Nat)
  /-- SNAP_TRIG_EDGE (R527). -/
  | snapTrigEdge (high : Nat)
  /-- PTP_MESSAGE_SEND (R358). -/
  | ptpMessageSend (port kind : Nat) (m : PtpMeas)
  /-- ANNOUNCE_RECEIPT_TIMEOUT (R361). -/
  | announceReceiptTimeout (port : Nat)
  /-- MEM_PARITY_ALERT (R377). -/
  | memParityAlert (pc : Nat)
  /-- MEM_REMAP (R379). -/
  | memRemap (pc : Nat)
  /-- MEM_POISONED_READ (R381). -/
  | memPoisonedRead (pc port addr : Nat) (use : PoisonUse)
  /-- PATROL_SCRUB (R384). -/
  | patrolScrub (pc addr outcome : Nat)
  /-- MEM_REFRESH (R386). -/
  | memRefresh (stack : Nat) (temp : Int) (postpone : Bool)
  /-- MEM_FREEZE_TIMEOUT (R383). -/
  | memFreezeTimeout (pc : Nat)
  /-- LEASE_EXPIRY (R417). -/
  | leaseExpiry (ses : Nat)
  /-- SESSION_OPENING_TIMEOUT (R415). -/
  | sessionOpeningTimeout (ses : Nat)
  /-- EXPERT_GRANT_EXPIRY (R419). -/
  | expertGrantExpiry (ses : Nat)
  /-- IRQ_DELAY_EXPIRY (R395). -/
  | irqDelayExpiry (ses : Nat)
  /-- WATCHDOG_EXPIRY (R424). -/
  | watchdogExpiry (processor : Nat)
  /-- FIRMWARE_RESTART_COMPLETE (R424). -/
  | firmwareRestartComplete
  /-- JOURNAL_FULL (R423). -/
  | journalFull (ses : Nat)
  /-- HEARTBEAT_SEND (R462). -/
  | heartbeatSend
  /-- XL_BLOCK_RECEIVE (R461). -/
  | xlBlockReceive (bundle : Nat) (m : XlMsg)
  /-- HEARTBEAT_PULSE_IN (R464). -/
  | heartbeatPulseIn (width : Nat)
  /-- HEARTBEAT_MISS (R464). -/
  | heartbeatMiss (path : Nat)
  /-- ECHO_CONFIRM_TIMEOUT (R466). -/
  | echoConfirmTimeout
  /-- SAVE_SEND_COMPLETE (R468). -/
  | saveSendComplete (k : Nat)
  /-- SAVE_APPLY (R468). -/
  | saveApply (k : Nat) (ok : Bool)
  /-- JOURNAL_ACK_TIMEOUT (R469). -/
  | journalAckTimeout (jseq : Nat)
  /-- HEALTH_REPORT_SEND (R482). -/
  | healthReportSend
  /-- CHANGEOVER_READY (R480). -/
  | changeoverReady
  /-- CHANGEOVER_QUIESCE (R480). -/
  | changeoverQuiesce
  /-- CHANGEOVER_SWAP (R480). -/
  | changeoverSwap
  /-- CHANGEOVER_ABANDON (R480). -/
  | changeoverAbandon
  /-- DRILL_TIMER (R483). -/
  | drillTimer
  /-- DRILL_COMPLETE (R483). -/
  | drillComplete (failing : Nat)
  /-- WAKE_EVENT (R502). -/
  | wakeEvent (cause : Nat)
  /-- DEN_PHASE_END (R498). -/
  | denPhaseEnd
  /-- WAKE_STEP_READY (R503). -/
  | wakeStepReady (bad : Nat)
  /-- WAKE_STEP_TIMEOUT (R504). -/
  | wakeStepTimeout
  /-- SHADOWHOLD_EXPIRY (R506). -/
  | shadowholdExpiry
  /-- BROWN_OUT (R507). -/
  | brownOut
  /-- SUPPLY_OUT_OF_RANGE (R493). -/
  | supplyOutOfRange (rail mv : Nat)
  /-- RESEED_COMPLETE (R508). -/
  | reseedComplete
  /-- POWER_ON_RESET (R554). -/
  | powerOnReset (cause : Nat)
  /-- BOOT_PHASE_END (R556). -/
  | bootPhaseEnd (find : BootFind)
  /-- BOOT_PHASE_OVERRUN (R556). -/
  | bootPhaseOverrun
  /-- PAIR_DECISION (R565). -/
  | pairDecision
  /-- FAULT_MESSAGE (R518). -/
  | faultMessage (msg : BitVec 64) (ended : Bool)
  /-- FAULT_RECORD_EXPIRY (R522). -/
  | faultRecordExpiry (src kind : Nat)
  /-- THERMAL_POLL (R525). -/
  | thermalPoll (caseTemp : Int) (junctions : List Int)
  /-- SNAPSHOT_COPY_COMPLETE (R528). -/
  | snapshotCopyComplete
  /-- SERVICE_TRANSFER_ABANDONED (R538). -/
  | serviceTransferAbandoned
  /-- SVC_SEND_TIMEOUT (R433). -/
  | svcSendTimeout (ses hseq : Nat)
  /-- CHANGEOVER_DEN_ENTRY (R480). -/
  | changeoverDenEntry
  /-- IMAGE_VERIFY_COMPLETE (R542). -/
  | imageVerifyComplete
  /-- FLASH_WRITE_COMPLETE (R544). -/
  | flashWriteComplete (dev : Nat) (mismatch : Option Nat)
  /-- SERVICE_PORT_FRAME (R535). -/
  | servicePortFrame (f : SvcFrame)
  deriving DecidableEq, Repr

end Sys2Proof
end

