-- ==== Sys2Proof/Config.lean ====
section
/-! DEFINITION. What the spec leaves open: each is an opaque constant, applied to the state's counter `free` or to the
operands it depends on, so that no proof can see its value. -/
namespace Sys2Proof.Config

/-- The attach key drawn at random at a SESSION_OPEN (R430). Assumption 5. -/
opaque attachKey : Nat → BitVec 64

/-- The MSG number the module chooses for a service message (R433). Assumption 5. -/
opaque serviceMsg : Nat → BitVec 16

/-- The control word u of the DPLL after a phase-detector cycle: the spec gives the loop's bandwidth and its clamps,
not the filter (R323, R326). Assumption 5. -/
opaque dpllControl : Nat → Int

/-- INCR after a servo update: the spec gives the servo's bandwidth and slew rate, not the filter (R364). Assumption 5. -/
opaque servoIncr : Nat → Nat

/-- One coefficient of a built-in scaler set, by set, whether vertical, phase and tap: the spec gives the design,
not the numbers (R232). Assumption 5. -/
opaque scalerCoef : Nat → Bool → Nat → Nat → Int

/-- One sample of the sample-rate conversion kernel's output, from the free counter: the spec bounds the kernel, it does
not give its coefficients (R254). Assumption 5. -/
opaque convertSample : Nat → Int

/-- One byte of a pseudo-channel's scheduler dump: the spec gives its size, not its layout (R383). Assumption 5. -/
opaque schedulerDump : Nat → Nat → Byte

/-- The data of a PTP management answer: the spec says that a GET is answered, not what each dataset holds (R361).
Assumption 5. -/
opaque managementData : Nat → List Byte

/-- The stepping that IDENTITY reports: the spec gives its size, not its value (R430). Assumption 5. -/
opaque stepping : Nat

/-- A value the spec does not state, where the machine goes on: the free counter gives a fresh one each time. Assumption 5. -/
opaque unstated : Nat → Nat

/-- Microseconds of control-processor time that taking a command uses, by session, HSEQ and tick: the spec states none (R28, R413).
Assumption 5. -/
opaque commandTime : Nat → Nat → Nat → Nat

/-- The boot ROM's bytes by offset: the spec gives the ROM's service, not its contents (R447). Assumption 5. -/
opaque romByte : Nat → Byte

/-- Bank (bits 18 to 14) and row of a pool address: the spec gives the pools' placement among pseudo-channels, not within them
(R374, R382). Assumption 5. -/
opaque dramRow : Nat → Nat

/-- The 64-byte unit of a pool address within its pseudo-channel: the spec does not give it (R371, R392). Assumption 5. -/
opaque dramUnit : Nat → Nat

/-- The module's MAC address on SVC: the spec gives its IPv4 address alone (R535). Assumption 5. -/
opaque serviceMac : Nat

/-- What a register that each host port has of its own reads as for a master that is no port, from the free counter and the
register's offset: the spec states no value (R435). Assumption 5. -/
opaque portRegister : Nat → Nat → Nat

end Sys2Proof.Config
end

