-- ==== Sys2Proof/Machine/State.lean ====
section
/-! DEFINITION. The state: the blocks of the module, the snapshot images that copy them, and the queue of waiting commands;
the reasons a step can stop; the state after reset. -/
namespace Sys2Proof.Machine

/-- Nothing in the spec stops the module: a refusal to a host is a response and a fault is a record in the state. -/
inductive Fault where
  /-- Raised by no command: the interface asks for a reason type and the spec has no such stop. Safe. -/
  | unreachable
  deriving DecidableEq, Repr

/-- Why a command has no meaning. -/
inductive Refusal where
  /-- Answered by the dispatcher for a row without a meaning. Safe: the model says nothing of the row. -/
  | notModelled (mnemonic : String)
  /-- Answered by an event that names a unit the module does not have (a seventeenth plane): the event cannot happen and
  the spec gives it no effect (R1, R516). Safe. -/
  | noSuchUnit
  deriving DecidableEq, Repr

/-- Everything but the queue: the blocks, and the snapshot images by slot (R526), each a copy of the blocks. -/
structure Mach extends Blocks where
  images : Tab Blocks := []
  deriving DecidableEq, Repr

/-- The state of the block: the machine and the commands that wait, first in, first out. -/
structure State extends Mach where
  pending : List Instr := []
  deriving DecidableEq, Repr

/-- The module right after a power-on reset: every field at the reset value of its rule, or at the value the assumption
log names (Assumptions 1 to 4). -/
def State.reset : State := {}

/-- A command that has an effect on the machine: the next state. -/
def run (f : Mach → Mach) (s : State) : Host.Outcome State Fault Refusal :=
  .next { s with toMach := f s.toMach }

/-- The same for an event that names a unit, where `b` says that the unit exists. -/
def runIf (b : Bool) (f : Mach → Mach) (s : State) : Host.Outcome State Fault Refusal :=
  if b then run f s else .refused .noSuchUnit

end Sys2Proof.Machine
end

