-- ==== Sys2Proof/Machine/Ops.lean ====
section
/-! DEFINITION. Tables, byte memory, byte order, counters and instants: the operations every block is written with. -/
namespace Sys2Proof.Machine

/-! ### Tables -/

/-- The entry of a key, if listed. -/
def tget? {α : Type} (k : Nat) : Tab α → Option α
  | [] => none
  | (i, a) :: t => if i = k then some a else tget? k t

/-- The entry of a key, or `d`. -/
def tget {α : Type} (d : α) (t : Tab α) (k : Nat) : α := (tget? k t).getD d

/-- Set the entry of a key. -/
def tset {α : Type} (t : Tab α) (k : Nat) (a : α) : Tab α :=
  match t with
  | [] => [(k, a)]
  | (i, b) :: r => if k < i then (k, a) :: (i, b) :: r else if k = i then (k, a) :: r else (i, b) :: tset r k a

/-- Remove a key. -/
def tdel {α : Type} (t : Tab α) (k : Nat) : Tab α := t.filter fun x => x.1 != k

/-- Change the entry of a key, starting from `d`. -/
def tmod {α : Type} (d : α) (t : Tab α) (k : Nat) (f : α → α) : Tab α := tset t k (f (tget d t k))

/-- Change every listed entry. -/
def tmap {α β : Type} (f : Nat → α → β) (t : Tab α) : Tab β := t.map fun x => (x.1, f x.1 x.2)

/-- The keys in rising order whose entries satisfy `p`. -/
def tkeys {α : Type} (p : α → Bool) (t : Tab α) : List Nat := (t.filter fun x => p x.2).map (·.1)

/-- A list's entry, or `d`. -/
def lget {α : Type} (d : α) (l : List α) (i : Nat) : α := (l[i]?).getD d

/-- Change one entry of a list. -/
def lmod {α : Type} (l : List α) (i : Nat) (f : α → α) : List α :=
  match l, i with
  | [], _ => []
  | a :: r, 0 => f a :: r
  | a :: r, i + 1 => a :: lmod r i f

/-- The numbers from `a` on, `n` of them. -/
def span (a n : Nat) : List Nat := (List.range n).map (a + ·)

/-! ### Byte memory -/

/-- One byte: a byte that nothing has written reads 0 (Assumption 3). -/
def mget (m : Mem) (a : Nat) : Byte := tget 0 m a

/-- Store one byte, keeping the canonical form: a byte equal to 0 is not listed. -/
def mset (m : Mem) (a : Nat) (b : Byte) : Mem := if b = 0 then tdel m a else tset m a b

/-- Store bytes from an address on. -/
def mput (m : Mem) (a : Nat) : List Byte → Mem
  | [] => m
  | b :: bs => mput (mset m a b) (a + 1) bs

/-- `n` bytes from an address on. -/
def mbytes (m : Mem) (a n : Nat) : List Byte := (span a n).map (mget m)

/-- Drop the bytes from `a` up to but not including `b`. -/
def mclear (m : Mem) (a b : Nat) : Mem := m.filter fun x => x.1 < a || b ≤ x.1

/-- Addresses above `lo`, rising, and no listed byte 0. -/
def Memory.wfFrom : Nat → Mem → Bool
  | _, [] => true
  | lo, (a, b) :: r => decide (lo ≤ a) && decide (b ≠ 0) && Memory.wfFrom (a + 1) r

/-- The canonical form: addresses strictly rising, no listed byte 0. -/
def Memory.wf (m : Mem) : Bool := Memory.wfFrom 0 m

/-! ### Byte order and two's complement -/

/-- A number as `n` bytes, least significant first. -/
def le : Nat → Nat → List Byte
  | 0, _ => []
  | n + 1, v => BitVec.ofNat 8 v :: le n (v / 256)

/-- The number that bytes spell, least significant first. -/
def leNat : List Byte → Nat
  | [] => 0
  | b :: r => b.toNat + 256 * leNat r

/-- A number as `n` bytes, most significant first. -/
def be (n v : Nat) : List Byte := (le n v).reverse

/-- The number that bytes spell, most significant first. -/
def beNat (bs : List Byte) : Nat := leNat bs.reverse

/-- A signed number in `w` bits. -/
def toBits (w : Nat) (i : Int) : Nat := (i % (2 ^ w : Int)).toNat

/-- The signed number that `w` bits spell. -/
def ofBits (w : Nat) (n : Nat) : Int := if n % 2 ^ w < 2 ^ (w - 1) then (n % 2 ^ w : Nat) else (n % 2 ^ w : Nat) - (2 ^ w : Int)

/-- Bits `hi` to `lo` of a number. -/
def bits (n hi lo : Nat) : Nat := n / 2 ^ lo % 2 ^ (hi + 1 - lo)

/-- One bit of a number. -/
def bit (n i : Nat) : Bool := n / 2 ^ i % 2 == 1

/-- A condition as a number. -/
def b2n (b : Bool) : Nat := if b then 1 else 0

/-- The number whose bits are set where the list holds true, bit 0 first. -/
def mask : List Bool → Nat
  | [] => 0
  | b :: r => b2n b + 2 * mask r

/-- The set bits of a number, below `n`. -/
def members (n v : Nat) : List Nat := (List.range n).filter (bit v)

/-- Pad a list to `n` entries. -/
def padTo {α : Type} (d : α) (n : Nat) (l : List α) : List α := (l ++ List.replicate (n - l.length) d).take n

/-! ### Counters -/

/-- A counter of 32 bits that saturates at all ones (R4). -/
def sat (n k : Nat) : Nat := min (n + k) 0xFFFFFFFF

/-- A counter of 64 bits that saturates at all ones (R187). -/
def sat64 (n k : Nat) : Nat := min (n + k) 0xFFFFFFFFFFFFFFFF

/-! ### Time -/

/-- Ticks of 2 ns in a microsecond and in a millisecond. -/
def usT : Nat := 500
def msT : Nat := 500000

/-- Units of 2⁻³² ns in a nanosecond, and in a second. -/
def nsU : Nat := 2 ^ 32
def secU : Nat := 1000000000 * 2 ^ 32

/-- Device-time seconds, nanoseconds and fraction of an instant (R348). -/
def secOf (t : Nat) : Nat := t / secU
def nsOf (t : Nat) : Nat := t / nsU % 1000000000
def fracOf (t : Nat) : Nat := t % nsU

/-- A fresh free value's argument, and the machine with the counter advanced. -/
def fresh (m : Mach) : Nat × Mach := (m.free, { m with free := m.free + 1 })

/-! ### Results (R405) -/

/-- One item of a result. -/
inductive Item where
  | q (v : Nat)
  | instant (t : Nat)
  | w (v : Nat)
  | i (v : Int)
  | h (v : Nat)
  | b (v : Nat)
  | raw (align : Nat) (bytes : List Byte)
  deriving DecidableEq, Repr

/-- An item's alignment. -/
def Item.align : Item → Nat
  | .q _ | .instant _ => 8
  | .w _ | .i _ => 4
  | .h _ => 2
  | .b _ => 1
  | .raw a _ => a

/-- An item's bytes. -/
def Item.bytes : Item → List Byte
  | .q v => le 8 v
  | .instant t => le 8 (secOf t) ++ le 4 (nsOf t) ++ le 4 (fracOf t)
  | .w v => le 4 v
  | .i v => le 4 (toBits 32 v)
  | .h v => le 2 v
  | .b v => le 1 v
  | .raw _ bs => bs

/-- Items one after another, each at the next offset that is a multiple of its alignment. -/
def layout (is : List Item) : List Byte :=
  is.foldl (fun acc i => acc ++ List.replicate ((i.align - acc.length % i.align) % i.align) 0 ++ i.bytes) []

/-- The refusal block of R408. -/
structure Ref where
  index : Nat := 0xFFFF
  okind : Nat := 0
  res : Nat := 0
  oid : Nat := 0
  free : Nat := 0
  value : Int := 0
  deriving DecidableEq, Repr

/-- The 48 bytes of a refusal block. -/
def Ref.bytes (r : Ref) : List Byte :=
  le 2 r.index ++ le 1 r.okind ++ le 1 r.res ++ le 4 r.oid ++ le 4 r.free ++ le 4 0 ++ le 8 (toBits 64 r.value)
    ++ List.replicate 24 0

/-! ### Status codes (R407) -/

def sOk : Nat := 0x00
def sAccepted : Nat := 0x01
def sPending : Nat := 0x02
def sDone : Nat := 0x03
def sArg : Nat := 0x10
def sBudget : Nat := 0x11
def sConflict : Nat := 0x12
def sOwner : Nat := 0x13
def sCapacity : Nat := 0x14
def sStale : Nat := 0x15
def sNotExpert : Nat := 0x16
def sFaulted : Nat := 0x17

end Sys2Proof.Machine
end

