-- ==== Sys2Proof/Machine/Respond.lean ====
section
/-! DEFINITION. Sessions, their rings, responses, events and interrupts (chapter 14). -/
namespace Sys2Proof.Machine

def ses (m : Mach) (n : Nat) : Session := tget {} m.ctl.sessions n
def win (m : Mach) (n : Nat) : Window := tget {} m.ctl.windows n
def setSes (m : Mach) (n : Nat) (f : Session → Session) : Mach :=
  { m with ctl := { m.ctl with sessions := tmod {} m.ctl.sessions n f } }
def setWin (m : Mach) (n : Nat) (f : Window → Window) : Mach :=
  { m with ctl := { m.ctl with windows := tmod {} m.ctl.windows n f } }
def setCnt (m : Mach) (n : Nat) (f : SesCnt → SesCnt) : Mach :=
  { m with ctl := { m.ctl with cnts := tmod {} m.ctl.cnts n f } }

/-- Entries between two free-running 16-bit indices (R397). -/
def ringLen (tail head : Nat) : Nat := (tail + 65536 - head) % 65536

/-- An index one further. -/
def ringNext (i : Nat) : Nat := (i + 1) % 65536

/-- Send one MSI-X message: vector `v` of a port (R395). -/
def fireVector (m : Mach) (port v : Nat) : Mach :=
  { m with ctl := { m.ctl with irqs := tmod 0 m.ctl.irqs (128 * port + v) (· + 1) } }

/-- A session's vector fires, on the port it is attached to, and nothing remains unsignalled (R395). -/
def signal (m : Mach) (n : Nat) : Mach :=
  if (ses m n).st = .opn ∨ (ses m n).st = .opening then
    setSes (fireVector m (ses m n).port n) n fun x => { x with unsig := 0 }
  else m

/-- One more entry is posted and unsignalled; the vector fires when IRQ_COUNT is reached or the entry asks for it. -/
def noteEntry (m : Mach) (n : Nat) (now : Bool) : Mach :=
  let m := setSes m n fun x => { x with unsig := x.unsig + 1, unsigAt := if x.unsig = 0 then m.now else x.unsigAt }
  if now ∨ (ses m n).irqCount ≤ (ses m n).unsig then signal m n else m

/-! ### Events (R425 to R428) -/

/-- Put one event in a session's ring, or count it lost when the ring is full (R427). -/
def postEvt (m : Mach) (n code group : Nat) (body : List Byte) : Mach :=
  let w := win m n
  let x := ses m n
  if 256 ≤ ringLen w.evtTail w.evtHead then
    let m := setSes m n fun x => { x with eseq := (x.eseq + 1) % 2 ^ 32, lost := x.lost + 1,
                                          lostFirst := if x.lost = 0 then x.eseq else x.lostFirst }
    setCnt m n fun c => { c with evtLost := sat c.evtLost 1 }
  else
    let e : Evt := { code, group, eseq := x.eseq, sec := secOf m.dt.t % 2 ^ 32, ns := nsOf m.dt.t,
                     body := padTo 0 48 body }
    let m := setWin m n fun w => { w with evts := tset w.evts (w.evtTail % 256) e, evtTail := ringNext w.evtTail }
    noteEntry (setSes m n fun x => { x with eseq := (x.eseq + 1) % 2 ^ 32 }) n false

/-- The sessions that keep a table entry: open or detached. -/
def liveSessions (m : Mach) : List Nat := tkeys (fun x => x.st = .opn ∨ x.st = .detached) m.ctl.sessions

/-- Post an event to every session that subscribes to its group, and to `also` whether it does or not (R426). -/
def event (m : Mach) (code group : Nat) (body : List Byte) (also : Option Nat := none) : Mach :=
  ((liveSessions m).filter fun n => bit (ses m n).sub group || also == some n).foldl
    (fun m n => postEvt m n code group body) m

/-- EVT_LOST, once an entry is free again (R427). -/
def postLost (m : Mach) (n : Nat) : Mach :=
  let x := ses m n
  if x.lost ≠ 0 ∧ ringLen (win m n).evtTail (win m n).evtHead < 256 then
    postEvt (setSes m n fun x => { x with lost := 0 }) n 0x0001 0xFF (le 4 x.lost ++ le 4 x.lostFirst)
  else m

/-! ### Responses (R404, R405) -/

/-- Split a result over entries of 48 bytes, at least one. -/
def chunks : Nat → List Byte → List (List Byte)
  | 0, l => [padTo 0 48 l]
  | k + 1, l => if l.length ≤ 48 then [padTo 0 48 l] else padTo 0 48 (l.take 48) :: chunks k (l.drop 48)

/-- The response entries of a result: MORE on every entry but the last (R405). -/
def mkResps (opcode status flags hseq jseq : Nat) (result : List Byte) : List Resp :=
  let cs := chunks 7 result
  cs.zipIdx.map fun x => { opcode, status, hseq, jseq, result := x.1,
                            flags := flags + (if x.2 + 1 < cs.length then 4 else 0) }

/-- Put response entries in a session's ring; `hare`: the vector fires at once for a final one (R395). -/
def putResps (m : Mach) (n : Nat) (hare : Bool) : List Resp → Mach
  | [] => m
  | r :: rs =>
    let m := setWin m n fun w => { w with resps := tset w.resps (w.respTail % 256) r, respTail := ringNext w.respTail }
    let m := setSes m n fun x => { x with reserved := x.reserved - 1 }
    putResps (noteEntry m n (hare && rs.isEmpty && r.status != sAccepted && r.status != sPending)) n hare rs

/-- Return what is left of a reservation (R401). -/
def unreserve (m : Mach) (n k : Nat) : Mach := setSes m n fun x => { x with reserved := x.reserved - k }

/-- MBX_CMD_HEAD (R398, R400): the entries taken, up to the first that still waits for its final status. -/
def Window.headReg (w : Window) : Nat := (w.unfinished.head?.map (·.1)).getD w.cmdHead

/-- Post the final response of a command that is not journalled, with its reservation's rest returned; the head may pass its
entry (R400). -/
def postFinal (m : Mach) (n opcode hseq status : Nat) (result : List Byte) (room : Nat := 2) (hare : Bool := false) : Mach :=
  let rs := mkResps opcode status 0 hseq 0 result
  let m := setWin m n fun w => { w with unfinished := w.unfinished.eraseP fun u => u.2 == (opcode, hseq) }
  unreserve (putResps m n hare rs) n (room - rs.length)

/-! ### The salvo area (R397, R406) -/

/-- A region lies wholly within the salvo area. -/
def inSalvo (off len : Nat) : Bool := decide (off + len ≤ 65536)

/-- Bytes of a session's salvo area. -/
def salvo (m : Mach) (n off len : Nat) : List Byte := mbytes (win m n).ram off len

/-- Write a result into a session's salvo area. -/
def putSalvo (m : Mach) (n off : Nat) (bs : List Byte) : Mach := setWin m n fun w => { w with ram := mput w.ram off bs }

end Sys2Proof.Machine
end

