-- ==== Sys2Proof/Machine/Flags.lean ====
section
/-! DEFINITION. The conditions the module computes from its state: grade, claim word, bundles, the class of a fault
record, the blocks that refuse commands. -/
namespace Sys2Proof.Machine

/-! ### Fault records (R521) -/

/-- The class in force of a record: the highest class proposed, one higher once escalated, never raised above C2. -/
def FaultRec.cls (r : FaultRec) : Nat := if r.escalated then max r.base (min 2 (r.base + 1)) else r.base

/-- Kinds whose records stand while a condition persists (R517, R550). -/
def condKinds : List Nat :=
  [0x12, 0x14, 0x16, 0x17, 0x20, 0x21, 0x22, 0x24, 0x30, 0x31, 0x32, 0x43, 0x50, 0x51, 0x53, 0x54, 0x55, 0x60, 0x61,
   0x62, 0x63, 0x77, 0x83, 0x90, 0x91, 0x92, 0x95, 0x98, 0xA3, 0xA4, 0xA5, 0xB0, 0xD6]

/-- Records at one class. -/
def countCls (m : Mach) (c : Nat) : Nat := (m.flt.recs.filter fun r => r.cls == c).length

/-- The module holds a record of class C3 (R524). -/
def grave (m : Mach) : Bool := m.flt.recs.any fun r => r.cls == 3

/-- FAULT_N is held low (R523). -/
def faultN (m : Mach) : Bool := m.flt.passed && m.flt.recs.any fun r => decide (m.flt.fnclass ≤ r.cls)

/-- The highest class in force, 4 for none; 0 until Owl's first pass over its records (R523, R533). -/
def highCls (m : Mach) : Nat :=
  if !m.flt.passed then 0 else if m.flt.recs.isEmpty then 4 else m.flt.recs.foldl (fun a r => max a r.cls) 0

/-! ### The pair (R456, R457, R461) -/

/-- Receiver of XL lane `i` of bundle `b` is UP: XL lanes follow the 144 WL lanes. -/
def xlRxUp (m : Mach) (b i : Nat) : Bool := (tget {} m.wl.rx (144 + 8 * b + i)).st == 5

/-- The partner's role as its latest heartbeat shows it; none before the first. -/
def partnerRole (m : Mach) : Option Nat := m.pr.beat.map fun b => b.claim / 2 ^ 28

/-- The module's ROLE is 8 or 15. -/
def claiming (m : Mach) : Bool := decide (8 ≤ m.pr.role)

/-- The partner's heartbeat shows ROLE 8 or 15. -/
def partnerClaims (m : Mach) : Bool := (partnerRole m).any fun r => decide (8 ≤ r)

/-- The receive mask of XL bundle `b` as heartbeats carry it (R462). -/
def rxMask (m : Mach) (b : Nat) : Nat := mask ((List.range 8).map (xlRxUp m b))

/-- Set bits of a receive mask. -/
def ones (v : Nat) : Nat := (members 8 v).length

/-- A bundle is UP at the module (R461). -/
def bundleUp (m : Mach) (b : Nat) : Bool :=
  let mine := ones (rxMask m b)
  let theirs := match m.pr.beat with
    | some x => ones (if b = 0 then x.rxA else x.rxB)
    | none => 0
  xlRxUp m b 0 && (tget {} m.wl.rx (144 + 8 * b)).farUp &&
    (if claiming m then decide (4 ≤ theirs)
     else if partnerClaims m then decide (4 ≤ mine)
     else decide (4 ≤ mine) && decide (4 ≤ theirs))

/-- Either XL bundle is UP. -/
def xlUp (m : Mach) : Bool := bundleUp m 0 || bundleUp m 1

/-- The protocols of XL have started: boot phase S6 has begun (R556). -/
def xlStarted (m : Mach) : Bool := m.sys.phase == 0 || decide (6 ≤ m.sys.phase)

/-- GRADE (R457). A bundle costs nothing before S6, so that GRADE is 15 at reset (R487). -/
def grade (m : Mach) : Nat :=
  15 - (min 4 (countCls m 1) + 4 * countCls m 2 + b2n (xlStarted m && !bundleUp m 0) + b2n (xlStarted m && !bundleUp m 1))

/-- The highest epoch the module holds (R456). -/
def heldEpoch (m : Mach) : Nat := if claiming m then m.xb.epoch else m.pr.imgEpoch

/-- The claim word with a given ROLE (R456). -/
def claimWordAs (m : Mach) (role : Nat) : Nat :=
  role * 2 ^ 28 + grade m * 2 ^ 24 + heldEpoch m % 2 ^ 16 * 2 ^ 8 + m.pr.slotId % 256

/-- The claim word. -/
def claimWord (m : Mach) : Nat := claimWordAs m m.pr.role

/-- The module claims, and nothing is withheld until echo confirmation (R206, R301, R363, R466). -/
def speaks (m : Mach) : Bool := claiming m && !m.pr.withhold

/-- The module is granted its PAIRED clock outputs (R338, R466): the partner's claim counts as 0 once its heartbeat is lost. -/
def pairGrant (m : Mach) : Bool :=
  speaks m && decide ((if m.pr.ploss then 0 else (m.pr.beat.getD {}).claim) < claimWord m)

/-- PAIRED outputs gain or lose their grant; a driver that loses it goes to high impedance (R338). -/
def settleGrants (m : Mach) : Mach :=
  let g := pairGrant m
  { m with tmg := { m.tmg with outs := tmap (fun _ (o : ClkOut) =>
      if !o.paired ∨ o.grant = g then o else { o with grant := g, grantAt := m.now, drive := false }) m.tmg.outs } }

/-- A partner is present: a heartbeat has been received and the heartbeat is not lost. -/
def partnerHere (m : Mach) : Bool := m.pr.beat.isSome && !m.pr.ploss

/-- A path carries valid heartbeats (R464). -/
def HbPath.carries (p : HbPath) : Bool := p.ever && decide (p.miss < 16)

/-- An XL path carries valid heartbeats, so the partner's ROLE is known (R590). -/
def roleHeard (m : Mach) : Bool := partnerHere m && (m.pr.pathA.carries || m.pr.pathB.carries)

/-- Send a message over XL, on both bundles (R461). -/
def xlSend (m : Mach) (x : XlMsg) : Mach :=
  { m with pr := { m.pr with sentXl := (m.pr.sentXl.drop (m.pr.sentXl.length - 63)) ++ [x] } }

/-- The session holds an expert grant (R419). -/
def expert (x : Session) : Bool := x.grantEnd.isSome

/-- A fault of class C2 or above stands against a source in a range. -/
def blocked (m : Mach) (lo hi : Nat) : Bool :=
  m.flt.recs.any fun r => decide (lo ≤ r.src) && decide (r.src ≤ hi) && decide (2 ≤ r.cls)

end Sys2Proof.Machine
end

