-- ==== Sys2Proof/Machine/Faults.lean ====
section
/-! DEFINITION. Fault messages, records and escalation; snapshots; the change of ROLE (chapters 16 and 18). -/
namespace Sys2Proof.Machine

/-! ### Snapshots (R526 to R529) -/

/-- The common trigger latches an armed pseudo-channel's snapshot registers (R382). What a request there was is not
stated: free values. -/
def capturePcs (m : Mach) (id : Nat) : Mach :=
  let pcs := (List.range 128).foldl (fun t n =>
    let p : Pc := tget {} t n
    if p.armed then
      tset t n { p with capKind := 2, capId := id, capAt := m.dt.t,
                        capAddr := Config.unstated (m.free + 4 * n) % 2 ^ 24 * 64,
                        capPort := Config.unstated (m.free + 4 * n + 1) % 128,
                        capBank := Config.unstated (m.free + 4 * n + 2) % 32,
                        capRow := Config.unstated (m.free + 4 * n + 3) % 2 ^ 14 }
    else t) m.mem.pcs
  { m with mem := { m.mem with pcs }, free := m.free + 512 }

/-- The slot that takes the next snapshot: an empty one, else the oldest, by the count of IDs since it, that is not held
(R528, R529). -/
def snapSlot (m : Mach) : Option Nat :=
  let free := m.snp.slots.zipIdx.filter fun x => !x.1.held && !x.1.grave
  let age (x : SnapSlot × Nat) : Nat := (m.snp.nextId + 2 ^ 32 - 1 - x.1.id) % (2 ^ 32 - 1)
  match free.find? fun x => x.1.st == 0 with
  | some x => some x.2
  | none => (free.foldl (fun a x => match a with
      | none => some x
      | some y => if age y < age x then some x else some y)
      (none : Option (SnapSlot × Nat))).map (·.2)

/-- A trigger (R528): a second one at the same instant joins the snapshot, one during a copy is missed. Answers the ID. -/
def snapTrigger (m : Mach) (source : Nat) (msg : BitVec 64 := 0) : Mach × Option Nat :=
  match m.snp.busy with
  | some k =>
    let x := lget {} m.snp.slots k
    if x.instant = m.dt.t then
      ({ m with snp := { m.snp with slots := lmod m.snp.slots k fun y =>
          { y with mask := if bit y.mask source then y.mask else y.mask + 2 ^ source,
                   grave := y.grave || source == 5, msg := if y.msg = 0 then msg else y.msg } } }, some x.id)
    else ({ m with snp := { m.snp with missed := sat m.snp.missed 1 } }, none)
  | none =>
    match snapSlot m with
    | none => ({ m with snp := { m.snp with missed := sat m.snp.missed 1 } }, none)
    | some k =>
      let id := m.snp.nextId
      let e : SnapSlot := { id, st := 1, mask := 2 ^ source, epoch := m.xb.epoch, instant := m.dt.t,
                            swcnt := ((lget {} m.xb.planes 0).nextSw - 1) % 2 ^ 32, msg, grave := source == 5 }
      let m := capturePcs { m with images := tset m.images k m.toBlocks } id
      ({ m with snp := { m.snp with slots := lmod m.snp.slots k fun _ => e, busy := some k, lastId := id,
                                    nextId := if id + 1 = 2 ^ 32 then 1 else id + 1,
                                    triggers := sat m.snp.triggers 1 } }, some id)

/-! ### ROLE (R458, R420) -/

/-- The body of a PAIR event (R486). -/
def pairBody (m : Mach) (cause : Nat) : List Byte :=
  le 1 cause ++ le 1 m.pr.st ++ le 1 (if m.pr.ploss ∨ m.pr.beat.isNone then 5 else (m.pr.beat.getD {}).st) ++ le 1 0
    ++ le 4 (claimWord m) ++ le 4 ((m.pr.beat.getD {}).claim) ++ le 4 0 ++ le 8 (heldEpoch m)
    ++ (Item.instant m.dt.t).bytes ++ le 4 (m.pr.drillRes * 2 ^ 24 + m.pr.drillBlocks % 2 ^ 24)

/-- A PAIR event. -/
def pairEvt (m : Mach) (cause : Nat) : Mach := event m 0x0080 7 (pairBody m cause)

/-- Set ROLE. A module that falls below 8 stands in SHADOW with its own state as its image, holds every session DETACHED and
runs no leases (R417, R420). -/
def setRole (m : Mach) (r : Nat) : Mach :=
  let m' := { m with pr := { m.pr with role := r } }
  let drop (_ : Nat) (x : Session) : Session :=
    { x with st := if x.st = .opn then .detached else x.st, leaseEnd := none }
  settleGrants (if claiming m && !claiming m' then
      { m' with ctl := { m'.ctl with sessions := tmap drop m'.ctl.sessions, journal := [], quiesced := false },
                pr := { m'.pr with st := 2, withhold := false, chg := none, ownImage := true, img := none,
                                   imgEpoch := m.xb.epoch, jcopy := m.ctl.journal, jrecv := m.ctl.jnext - 1 },
                pwr := { m'.pwr with st := 1 } }
    else m')

/-- ROLE falls to 0: a module that claimed reports the change of its STATE (R486). -/
def fallRole (m : Mach) : Mach := if claiming m then pairEvt (setRole m 0) 0 else setRole m 0

/-! ### Fault messages (R515 to R524) -/

/-- The message word (R515). -/
def faultWord (src kind cls seq addr : Nat) : BitVec 64 :=
  BitVec.ofNat 64 (src % 2 ^ 12 * 2 ^ 52 + kind % 2 ^ 8 * 2 ^ 44 + cls % 16 * 2 ^ 40 + seq % 256 * 2 ^ 32 + addr % 2 ^ 32)

/-- The position of a record. -/
def recIdx (m : Mach) (src kind : Nat) : Option Nat := m.flt.recs.findIdx? fun r => r.src == src && r.kind == kind && !r.overflow

/-- A message joins a record, which may escalate (R521). -/
def FaultRec.join (r : FaultRec) (f : Flt) (msg : BitVec 64) (stamp cls : Nat) (cond injected : Bool) : FaultRec :=
  let hit := decide (f.escn ≤ r.count + 1) &&
    decide (stamp ≤ lget 0 (stamp :: r.stamps) (f.escn - 1) + f.esct * 1000000 * nsU) &&
    decide (f.escn ≤ (stamp :: r.stamps).length)
  { r with msg, latest := stamp, stamps := (stamp :: r.stamps).take 64, count := r.count + 1, base := max r.base cls,
           cond := r.cond || cond, injected := r.injected && injected, escalated := r.escalated || hit }

/-- Post a FAULT event (R428, R520): bit 7 of the class byte reports a clear. -/
def faultEvt (m : Mach) (msg : BitVec 64) (cls : Nat) : Mach := event m 0x0060 5 (le 8 msg.toNat ++ le 1 cls)

/-- A record has reached a class in force it did not have: the grave actions and the fault trigger (R524, R527). -/
def reached (m : Mach) (old : Nat) (hadOld : Bool) (r : FaultRec) : Mach :=
  let up := !hadOld || decide (old < r.cls)
  let m := if up && r.cls == 3 then fallRole { m with flt := { m.flt with grave := true } } else m
  let m := if up && r.cls == 3 then (snapTrigger m 5 r.msg).1 else m
  let fire := up && bit m.snp.enables 3 && decide (m.snp.sclass ≤ r.cls) &&
    (m.snp.src == 0xFFFF || m.snp.src == r.src) && (m.snp.kind == 0xFF || m.snp.kind == r.kind)
  if fire then (snapTrigger m 3 r.msg).1 else m

/-- The record that a C1 or higher message displaces when the table is full: the C0 record whose latest message is the
oldest (R519). -/
def oldestNotice (m : Mach) : Option Nat :=
  (m.flt.recs.zipIdx.foldl (fun a x => if x.1.cls != 0 || x.1.overflow then a else match a with
    | none => some x
    | some y => if x.1.latest < y.1.latest then some x else some y) (none : Option (FaultRec × Nat))).map (·.2)

/-- Owl records a message (R518, R519, R521). Answers the record it went to. -/
def recordMsg (m : Mach) (src kind cls : Nat) (msg : BitVec 64) (cond injected : Bool) : Mach × Option FaultRec :=
  let st := m.dt.t
  match recIdx m src kind with
  | some i =>
    let r := lget { src, kind, msg, first := st, latest := st, base := cls } m.flt.recs i
    let r' := r.join m.flt msg st cls cond injected
    let m' := { m with flt := { m.flt with recs := lmod m.flt.recs i fun _ => r',
                                           escalations := sat m.flt.escalations (b2n (r'.escalated && !r.escalated)) } }
    (reached m' r.cls true r', some r')
  | none =>
    let r : FaultRec := { src, kind, msg, first := st, latest := st, stamps := [st], base := cls, cond, injected }
    if (m.flt.recs.filter fun r => !r.overflow).length < 2048 then
      (reached { m with flt := { m.flt with recs := m.flt.recs ++ [r] } } 0 false r, some r)
    else if cls = 0 then ({ m with flt := { m.flt with tableFull := sat m.flt.tableFull 1 } }, none)
    else match oldestNotice m with
      | some i => (reached { m with flt := { m.flt with recs := m.flt.recs.eraseIdx i ++ [r] } } 0 false r, some r)
      | none =>
        match m.flt.recs.findIdx? (·.overflow) with
        | some i =>
          let o := lget r m.flt.recs i
          let o' := o.join m.flt msg st cls false injected
          (reached { m with flt := { m.flt with recs := lmod m.flt.recs i fun _ => o',
                                                escalations := sat m.flt.escalations (b2n (o'.escalated && !o.escalated)) } }
             o.cls true o', some o')
        | none =>
          let o := { r with src := 0xE20, kind := 0xC0, cond := false, overflow := true }
          (reached { m with flt := { m.flt with recs := m.flt.recs ++ [o] } } 0 false o, some o)

/-- Owl takes a message (R518, R520): delivered as an event within the source's budget, suppressed beyond it. -/
def takeFault (m : Mach) (src kind cls addr : Nat) (cond : Bool) (injected : Bool := false) : Mach :=
  let seq := tget 0 m.flt.seqs src
  let msg := faultWord src kind cls seq addr
  let m := { m with flt := { m.flt with seqs := tset m.flt.seqs src ((seq + 1) % 256), raised := sat m.flt.raised 1,
                                        last := msg } }
  let (m, r) := recordMsg m src kind cls msg cond injected
  let m := settleGrants m
  let n := tget 0 m.flt.delivered src
  if n < m.flt.budget then
    faultEvt { m with flt := { m.flt with delivered := tset m.flt.delivered src (n + 1) } } msg ((r.map (·.cls)).getD cls)
  else
    let recs := match r with
      | some r => m.flt.recs.map fun x => if x.src == r.src && x.kind == r.kind then { x with supp := some msg } else x
      | none => m.flt.recs
    { m with flt := { m.flt with suppressed := sat m.flt.suppressed 1, recs } }

/-- A block raises a fault: the message counts as a condition when its kind is one (R517). -/
def raise (m : Mach) (src kind cls : Nat) (addr : Nat := 0) : Mach := takeFault m src kind cls addr (condKinds.contains kind)

/-- Discard a record with its history, with the event of its clear (R522). -/
def clearRec (m : Mach) (i : Nat) : Mach :=
  match m.flt.recs[i]? with
  | none => m
  | some r => faultEvt (settleGrants { m with flt := { m.flt with recs := m.flt.recs.eraseIdx i,
                                                                   cleared := sat m.flt.cleared 1 } }) r.msg (0x80 + r.cls)

/-- The raiser reports the end of a condition (R522): the record clears unless it is C3. -/
def endCond (m : Mach) (src kind : Nat) : Mach :=
  match recIdx m src kind with
  | none => m
  | some i =>
    let r := lget { src, kind, msg := 0, first := 0, latest := 0, base := 0 } m.flt.recs i
    if !r.cond then m
    else if r.cls == 3 then { m with flt := { m.flt with recs := lmod m.flt.recs i fun x => { x with cond := false } } }
    else clearRec m i

/-- A raiser's condition with this key persists (R518, R522): one that injection alone made is none. -/
def standing (m : Mach) (src kind : Nat) : Bool := m.flt.recs.any fun r => r.src == src && r.kind == kind && !r.overflow && r.cond

/-- The record holds a raiser's condition: a Cond kind that injection alone has not made (R522). -/
def holdsCond (r : FaultRec) : Bool := r.cond && condKinds.contains r.kind

/-- FLT_CLEAR clears the record (R522): an Event record of C1 or C2, or one made by injection alone. -/
def clearable (r : FaultRec) : Bool := (r.cls == 1 || r.cls == 2) && !holdsCond r

/-- A record of C0 that clears ESCT after its latest message (R522). -/
def expires (r : FaultRec) : Bool := r.cls == 0 && !holdsCond r

end Sys2Proof.Machine
end

