-- ==== Sys2Proof/Machine/Operands.lean ====
section
/-! DEFINITION. The encoding of commands in ring entries (R402): opcodes, lengths, rings, levels, payloads; the answers a
command's meaning gives; the take record. -/
namespace Sys2Proof.Machine

/-- `n` bytes of a payload from offset `o`. -/
def sub (p : List Byte) (o n : Nat) : List Byte := (p.drop o).take n

/-- The little-endian field of `n` bytes at offset `o`. -/
def fld (p : List Byte) (o n : Nat) : Nat := leNat (sub p o n)

/-- A number fits `w` bits; a signed number fits `w` bits. -/
def fitsU (w n : Nat) : Bool := decide (n < 2 ^ w)
def fitsS (w : Nat) (n : Int) : Bool := decide (-(2 ^ (w - 1) : Int) ≤ n) && decide (n < (2 ^ (w - 1) : Int))


/-- The opcode (R402). -/
def Cmd.opcode : Cmd → Nat
  | .take _ _ => 0x0201
  | .salvo _ _ _ _ => 0x0202
  | .routeQuery _ _ _ _ => 0x0203
  | .protect _ _ _ => 0x0204
  | .forceRelease _ _ => 0x0205
  | .bankLoad _ _ _ _ => 0x0210
  | .bankSwap _ => 0x0211
  | .srcMode _ _ _ _ => 0x0301
  | .srcWarm _ _ => 0x0302
  | .srcGroup _ _ _ _ _ => 0x0303
  | .srcStatus _ => 0x0304
  | .srcWindow _ _ _ => 0x0310
  | .destBind _ _ _ => 0x0320
  | .destAudio _ _ _ => 0x0321
  | .genCfg _ _ _ _ _ _ _ => 0x0330
  | .svcSend _ _ _ _ _ _ _ => 0x0340
  | .planeCfg _ _ _ _ _ _ => 0x0401
  | .planeSwitch _ _ _ => 0x0402
  | .planeStatus _ => 0x0403
  | .sessionOpen _ _ _ _ _ => 0x0101
  | .sessionClose _ => 0x0102
  | .sessionAttach _ => 0x0103
  | .subscribe _ _ _ => 0x0104
  | .pendingQuery _ _ _ => 0x0105
  | .identity => 0x0106
  | .expertGrant _ _ => 0x0107
  | .sessionBudget _ _ _ _ => 0x0110
  | .fltList _ _ => 0x0B01
  | .fltClear _ _ => 0x0B02
  | .fltCfg _ _ _ _ => 0x0B03
  | .snpTrigger => 0x0B04
  | .snpCfg _ _ _ _ _ _ _ _ => 0x0B05
  | .snpList _ => 0x0B06
  | .snpRead _ _ _ _ => 0x0B07
  | .snpHold _ _ => 0x0B08
  | .fltInject _ => 0x0B10
  | .laneStatus _ => 0x0D20
  | .eyeScan _ _ _ _ _ _ _ => 0x0D21
  | .laneLoop _ _ _ => 0x0D22
  | .lanePrbs _ _ _ _ => 0x0D23
  | .laneEqSet _ _ _ _ => 0x0D24
  | .ethPortSplit _ _ => 0x0540
  | .ethMacCfg _ _ _ => 0x0541
  | .ethStatus _ => 0x0542
  | .wakePattern _ _ _ _ _ => 0x0A30
  | .flowDefine _ _ _ => 0x0501
  | .flowPort _ _ _ => 0x0502
  | .flowStatus _ => 0x0503
  | .flowIf _ _ => 0x0504
  | .flowCapacity _ => 0x0505
  | .flowOffset _ _ _ => 0x0510
  | .cmpBind _ _ _ _ _ => 0x0601
  | .cmpLayout _ _ _ => 0x0602
  | .cmpGuard _ _ _ => 0x0603
  | .cmpFreeze _ _ _ => 0x0604
  | .cmpStatus _ _ => 0x0605
  | .cmpCoef _ _ _ => 0x0610
  | .audMix _ _ _ _ => 0x0701
  | .audGroup _ _ => 0x0702
  | .audOffset _ _ => 0x0703
  | .audHistory _ _ _ => 0x0704
  | .audMeter _ _ _ _ => 0x0705
  | .audStatus _ _ => 0x0706
  | .audBankLoad _ _ _ _ => 0x0710
  | .audBankSwap _ => 0x0711
  | .audRate _ => 0x0712
  | .aptCfg _ _ _ _ _ _ _ _ _ => 0x0720
  | .aptRing _ _ => 0x0721
  | .aptStatus _ => 0x0722
  | .tmgRefCfg _ _ _ _ _ _ _ _ _ _ _ _ => 0x0801
  | .tmgLrefBind _ _ _ => 0x0802
  | .tmgSelCfg _ _ _ _ _ => 0x0803
  | .tmgApllCfg _ _ _ _ => 0x0804
  | .tmgClkoutCfg _ _ _ _ _ _ _ _ _ => 0x0805
  | .tmgWclkCfg _ _ _ _ _ => 0x0806
  | .tmgStatus _ => 0x0807
  | .tmgClassMap _ => 0x0808
  | .tmgLoopCfg _ _ _ _ _ _ _ _ _ => 0x0810
  | .dtStep _ _ _ => 0x0820
  | .dtCfg _ _ => 0x0821
  | .dtStatus => 0x0822
  | .ptpCfg _ _ _ _ _ _ _ _ => 0x0823
  | .ptpPortCfg _ _ _ _ _ _ _ _ _ _ => 0x0824
  | .dtPinCfg _ => 0x0825
  | .ptpServoCfg _ _ _ => 0x0830
  | .memStatus _ => 0x0D40
  | .memRearm _ => 0x0D41
  | .memPortCfg _ _ => 0x0D42
  | .memFreeze _ _ _ => 0x0D43
  | .memCalSave _ => 0x0D44
  | .pairStatus _ _ => 0x0901
  | .pairChangeover _ _ => 0x0902
  | .pairCfg _ _ _ _ _ => 0x0903
  | .pairDrill => 0x0904
  | .pairForce _ => 0x0910
  | .pwrStatus => 0x0A01
  | .pwrDen => 0x0A02
  | .pwrWakePartner => 0x0A03
  | .pwrCfg _ _ => 0x0A04
  | .updStatus => 0x0C01
  | .updActivate _ => 0x0C02
  | .updConfirm => 0x0C03
  | .updRestart => 0x0C04
  | .updSvcCfg _ => 0x0C05
  | .updFuse => 0x0C10
  | .calRead _ _ => 0x0D50
  | .calWrite _ _ => 0x0D51

/-- LEN: the payload bytes of the command. -/
def Cmd.len : Cmd → Nat
  | .take _ _ => 16
  | .salvo _ _ _ _ => 16
  | .routeQuery _ _ _ _ => 16
  | .protect _ _ _ => 5
  | .forceRelease _ _ => 4
  | .bankLoad _ _ _ _ => 8
  | .bankSwap _ => 1
  | .srcMode _ _ _ _ => 5
  | .srcWarm _ _ => 3
  | .srcGroup _ _ _ _ _ => 10
  | .srcStatus _ => 2
  | .srcWindow _ _ _ => 5
  | .destBind _ _ _ => 5
  | .destAudio _ _ _ => 5
  | .genCfg _ _ _ _ _ _ _ => 10
  | .svcSend _ _ _ _ _ _ _ => 22
  | .planeCfg _ _ _ _ _ _ => 8
  | .planeSwitch _ _ _ => 8
  | .planeStatus _ => 1
  | .sessionOpen _ _ _ _ _ => 28
  | .sessionClose _ => 1
  | .sessionAttach _ => 8
  | .subscribe _ _ _ => 8
  | .pendingQuery _ _ _ => 8
  | .identity => 0
  | .expertGrant _ _ => 4
  | .sessionBudget _ _ _ _ => 4
  | .fltList _ _ => 8
  | .fltClear _ _ => 3
  | .fltCfg _ _ _ _ => 6
  | .snpTrigger => 0
  | .snpCfg _ _ _ _ _ _ _ _ => 24
  | .snpList _ => 8
  | .snpRead _ _ _ _ => 16
  | .snpHold _ _ => 2
  | .fltInject _ => 8
  | .laneStatus _ => 2
  | .eyeScan _ _ _ _ _ _ _ => 12
  | .laneLoop _ _ _ => 4
  | .lanePrbs _ _ _ _ => 5
  | .laneEqSet _ _ _ _ => 24
  | .ethPortSplit _ _ => 2
  | .ethMacCfg _ _ _ => 10
  | .ethStatus _ => 1
  | .wakePattern _ _ _ _ _ => 24
  | .flowDefine _ _ _ => 8
  | .flowPort _ _ _ => 5
  | .flowStatus _ => 2
  | .flowIf _ _ => 8
  | .flowCapacity _ => 1
  | .flowOffset _ _ _ => 8
  | .cmpBind _ _ _ _ _ => 8
  | .cmpLayout _ _ _ => 8
  | .cmpGuard _ _ _ => 8
  | .cmpFreeze _ _ _ => 3
  | .cmpStatus _ _ => 8
  | .cmpCoef _ _ _ => 8
  | .audMix _ _ _ _ => 8
  | .audGroup _ _ => 3
  | .audOffset _ _ => 8
  | .audHistory _ _ _ => 8
  | .audMeter _ _ _ _ => 12
  | .audStatus _ _ => 4
  | .audBankLoad _ _ _ _ => 8
  | .audBankSwap _ => 2
  | .audRate _ => 1
  | .aptCfg _ _ _ _ _ _ _ _ _ => 16
  | .aptRing _ _ => 8
  | .aptStatus _ => 1
  | .tmgRefCfg _ _ _ _ _ _ _ _ _ _ _ _ => 28
  | .tmgLrefBind _ _ _ => 3
  | .tmgSelCfg _ _ _ _ _ => 5
  | .tmgApllCfg _ _ _ _ => 12
  | .tmgClkoutCfg _ _ _ _ _ _ _ _ _ => 16
  | .tmgWclkCfg _ _ _ _ _ => 8
  | .tmgStatus _ => 1
  | .tmgClassMap _ => 8
  | .tmgLoopCfg _ _ _ _ _ _ _ _ _ => 18
  | .dtStep _ _ _ => 13
  | .dtCfg _ _ => 8
  | .dtStatus => 0
  | .ptpCfg _ _ _ _ _ _ _ _ => 32
  | .ptpPortCfg _ _ _ _ _ _ _ _ _ _ => 20
  | .dtPinCfg _ => 1
  | .ptpServoCfg _ _ _ => 12
  | .memStatus _ => 1
  | .memRearm _ => 1
  | .memPortCfg _ _ => 4
  | .memFreeze _ _ _ => 8
  | .memCalSave _ => 16
  | .pairStatus _ _ => 8
  | .pairChangeover _ _ => 4
  | .pairCfg _ _ _ _ _ => 8
  | .pairDrill => 0
  | .pairForce _ => 1
  | .pwrStatus => 0
  | .pwrDen => 0
  | .pwrWakePartner => 0
  | .pwrCfg _ _ => 3
  | .updStatus => 0
  | .updActivate _ => 1
  | .updConfirm => 0
  | .updRestart => 0
  | .updSvcCfg _ => 1
  | .updFuse => 0
  | .calRead _ _ => 8
  | .calWrite _ _ => 8

/-- The command belongs on the Hare ring (R66). -/
def Cmd.hare : Cmd → Bool
  | .take _ _ => true
  | .salvo _ _ _ _ => true
  | _ => false

/-- The command is an expert command (R66). -/
def Cmd.level : Cmd → Bool
  | .forceRelease _ _ => true
  | .bankLoad _ _ _ _ => true
  | .bankSwap _ => true
  | .srcWindow _ _ _ => true
  | .sessionBudget _ _ _ _ => true
  | .fltInject _ => true
  | .laneLoop _ _ _ => true
  | .lanePrbs _ _ _ _ => true
  | .laneEqSet _ _ _ _ => true
  | .flowOffset _ _ _ => true
  | .cmpCoef _ _ _ => true
  | .audBankLoad _ _ _ _ => true
  | .audBankSwap _ => true
  | .audRate _ => true
  | .tmgLoopCfg _ _ _ _ _ _ _ _ _ => true
  | .ptpServoCfg _ _ _ => true
  | .memPortCfg _ _ => true
  | .memFreeze _ _ _ => true
  | .memCalSave _ => true
  | .pairForce _ => true
  | .updFuse => true
  | .calWrite _ _ => true
  | _ => false

/-- The command is journalled: a change set, or DT_STEP (R352). AUD_METER: see `isChange`. -/
def Cmd.journalled : Cmd → Bool
  | .routeQuery _ _ _ _ => false
  | .bankLoad _ _ _ _ => false
  | .srcStatus _ => false
  | .svcSend _ _ _ _ _ _ _ => false
  | .planeStatus _ => false
  | .sessionAttach _ => false
  | .pendingQuery _ _ _ => false
  | .identity => false
  | .fltList _ _ => false
  | .fltClear _ _ => false
  | .snpTrigger => false
  | .snpList _ => false
  | .snpRead _ _ _ _ => false
  | .snpHold _ _ => false
  | .fltInject _ => false
  | .laneStatus _ => false
  | .eyeScan _ _ _ _ _ _ _ => false
  | .laneLoop _ _ _ => false
  | .lanePrbs _ _ _ _ => false
  | .laneEqSet _ _ _ _ => false
  | .ethStatus _ => false
  | .flowStatus _ => false
  | .flowCapacity _ => false
  | .cmpStatus _ _ => false
  | .audStatus _ _ => false
  | .audBankLoad _ _ _ _ => false
  | .aptStatus _ => false
  | .tmgStatus _ => false
  | .dtStatus => false
  | .memStatus _ => false
  | .memRearm _ => false
  | .memFreeze _ _ _ => false
  | .memCalSave _ => false
  | .pairStatus _ _ => false
  | .pairDrill => false
  | .pairForce _ => false
  | .pwrStatus => false
  | .pwrDen => false
  | .pwrWakePartner => false
  | .updStatus => false
  | .updActivate _ => false
  | .updConfirm => false
  | .updRestart => false
  | .updFuse => false
  | .calRead _ _ => false
  | .calWrite _ _ => false
  | _ => true

/-- The payload, each field at its offset (R402). -/
def Cmd.payload : Cmd → List Byte
  | .take rec expected => le 8 rec ++ le 8 expected
  | .salvo count rsvd off expected => le 2 count ++ le 2 rsvd ++ le 4 off ++ le 8 expected
  | .routeQuery epoch first count off => le 8 epoch ++ le 2 first ++ le 2 count ++ le 4 off
  | .protect first count rel => le 2 first ++ le 2 count ++ le 1 rel
  | .forceRelease first count => le 2 first ++ le 2 count
  | .bankLoad plane act count off => le 1 plane ++ le 1 act ++ le 2 count ++ le 4 off
  | .bankSwap plane => le 1 plane
  | .srcMode src mode flags lossHold => le 2 src ++ le 1 mode ++ le 1 flags ++ le 1 lossHold
  | .srcWarm src on => le 2 src ++ le 1 on
  | .srcGroup size m0 m1 m2 m3 => le 1 size ++ le 1 0 ++ le 2 m0 ++ le 2 m1 ++ le 2 m2 ++ le 2 m3
  | .srcStatus src => le 2 src
  | .srcWindow src w qcount => le 2 src ++ le 2 w ++ le 1 qcount
  | .destBind first count plane => le 2 first ++ le 2 count ++ le 1 plane
  | .destAudio first count mode => le 2 first ++ le 2 count ++ le 1 mode
  | .genCfg gen plane pattern audio y cb cr => le 1 gen ++ le 1 plane ++ le 1 pattern ++ le 1 audio ++ le 2 y ++ le 2 cb ++ le 2 cr
  | .svcSend lane cls len off roff rmax timeout => le 1 lane ++ le 1 cls ++ le 2 0 ++ le 4 len ++ le 4 off ++ le 4 roff ++ le 4 rmax ++ le 2 timeout
  | .planeCfg plane raster scan rate phLines phSamples => le 1 plane ++ le 1 raster ++ le 1 scan ++ le 1 rate ++ le 2 phLines ++ le 2 phSamples
  | .planeSwitch plane line cutoff => le 1 plane ++ le 1 0 ++ le 2 line ++ le 4 cutoff
  | .planeStatus plane => le 1 plane
  | .sessionOpen name lease sub irqCount irqDelay => le 16 name ++ le 4 lease ++ le 4 sub ++ le 1 irqCount ++ le 1 0 ++ le 2 irqDelay
  | .sessionClose target => le 1 target
  | .sessionAttach key => le 8 key
  | .subscribe sub irqCount irqDelay => le 4 sub ++ le 1 irqCount ++ le 1 0 ++ le 2 irqDelay
  | .pendingQuery all max off => le 1 all ++ le 1 0 ++ le 2 max ++ le 4 off
  | .identity => []
  | .expertGrant req lease => le 1 req ++ le 1 0 ++ le 2 lease
  | .sessionBudget target cmds hare cpus => le 1 target ++ le 1 cmds ++ le 1 hare ++ le 1 cpus
  | .fltList cls off => le 1 cls ++ le 3 0 ++ le 4 off
  | .fltClear src kind => le 2 src ++ le 1 kind
  | .fltCfg escn esct fnclass budget => le 1 escn ++ le 1 0 ++ le 2 esct ++ le 1 fnclass ++ le 1 budget
  | .snpTrigger => []
  | .snpCfg enables sclass src kind div msec mns period => le 1 enables ++ le 1 sclass ++ le 2 src ++ le 1 kind ++ le 1 0 ++ le 2 div ++ le 8 msec ++ le 4 mns ++ le 4 period
  | .snpList off => le 4 0 ++ le 4 off
  | .snpRead slot ioff len off => le 1 slot ++ le 3 0 ++ le 4 ioff ++ le 4 len ++ le 4 off
  | .snpHold slot hold => le 1 slot ++ le 1 hold
  | .fltInject msg => le 8 msg
  | .laneStatus lane => le 2 lane
  | .eyeScan lane eye k sp sv thr off => le 2 lane ++ le 1 eye ++ le 1 k ++ le 1 sp ++ le 1 sv ++ le 2 thr ++ le 4 off
  | .laneLoop lane mode flags => le 2 lane ++ le 1 mode ++ le 1 flags
  | .lanePrbs lane pattern on rate => le 2 lane ++ le 1 pattern ++ le 1 on ++ le 1 rate
  | .laneEqSet lane set flags vals => le 2 lane ++ le 1 set ++ le 1 flags ++ le 20 vals
  | .ethPortSplit port mode => le 1 port ++ le 1 mode
  | .ethMacCfg mac addr maxFrame => le 1 mac ++ le 1 0 ++ be 6 addr ++ le 2 maxFrame
  | .ethStatus mac => le 1 mac
  | .wakePattern matcher on mac check mask => le 1 matcher ++ le 1 on ++ le 1 mac ++ le 1 0 ++ le 4 check ++ le 16 mask
  | .flowDefine ctx op off => le 2 ctx ++ le 1 op ++ le 1 0 ++ le 4 off
  | .flowPort ctx port flags => le 2 ctx ++ le 2 port ++ le 1 flags
  | .flowStatus ctx => le 2 ctx
  | .flowIf mac off => le 1 mac ++ le 3 0 ++ le 4 off
  | .flowCapacity mac => le 1 mac
  | .flowOffset ctx auto offset => le 2 ctx ++ le 1 auto ++ le 1 0 ++ le 4 offset
  | .cmpBind m plane dither audwin back => le 1 m ++ le 1 plane ++ le 1 dither ++ le 1 audwin ++ le 4 back
  | .cmpLayout m count off => le 1 m ++ le 1 0 ++ le 2 count ++ le 4 off
  | .cmpGuard m count off => le 1 m ++ le 1 0 ++ le 2 count ++ le 4 off
  | .cmpFreeze m win op => le 1 m ++ le 1 win ++ le 1 op
  | .cmpStatus m off => le 1 m ++ le 3 0 ++ le 4 off
  | .cmpCoef m set off => le 1 m ++ le 1 set ++ le 2 0 ++ le 4 off
  | .audMix count ramp anchor off => le 2 count ++ le 1 ramp ++ le 1 anchor ++ le 4 off
  | .audGroup src mode => le 2 src ++ le 1 mode
  | .audOffset dest us => le 2 dest ++ le 2 0 ++ le 4 us
  | .audHistory first count len => le 2 first ++ le 2 count ++ le 4 len
  | .audMeter first count op off => le 2 first ++ le 2 count ++ le 1 op ++ le 3 0 ++ le 4 off
  | .audStatus kind index => le 1 kind ++ le 1 0 ++ le 2 index
  | .audBankLoad cluster act count off => le 1 cluster ++ le 1 act ++ le 2 count ++ le 4 off
  | .audBankSwap mask => le 2 mask
  | .audRate rate => le 1 rate
  | .aptCfg port format nslots w m flags nout inLat outLat => le 1 port ++ le 1 format ++ le 1 nslots ++ le 1 w ++ le 1 m ++ le 1 flags ++ le 1 nout ++ le 1 0 ++ le 4 inLat ++ le 4 outLat
  | .aptRing port n => le 1 port ++ le 3 0 ++ le 4 n
  | .aptStatus port => le 1 port
  | .tmgRefCfg cand kind prio flags num den wtr soft hard slope lossn delay => le 1 cand ++ le 1 kind ++ le 1 prio ++ le 1 flags ++ le 4 num ++ le 2 den ++ le 2 wtr ++ le 4 soft ++ le 4 hard ++ le 2 slope ++ le 1 lossn ++ le 1 0 ++ le 4 (toBits 32 delay)
  | .tmgLrefBind lref lane refid => le 1 lref ++ le 1 lane ++ le 1 refid
  | .tmgSelCfg mode forced flags holdql freeql => le 1 mode ++ le 1 forced ++ le 1 flags ++ le 1 holdql ++ le 1 freeql
  | .tmgApllCfg apll mint mnum mden => le 1 apll ++ le 1 mint ++ le 2 0 ++ le 4 mnum ++ le 4 mden
  | .tmgClkoutCfg out src apll level d plane flags width outdly => le 1 out ++ le 1 src ++ le 1 apll ++ le 1 level ++ le 4 d ++ le 1 plane ++ le 1 flags ++ le 2 width ++ le 4 (toBits 32 outdly)
  | .tmgWclkCfg out op apll level outdly => le 1 out ++ le 1 op ++ le 1 apll ++ le 1 level ++ le 4 (toBits 32 outdly)
  | .tmgStatus cand => le 1 cand
  | .tmgClassMap off => le 4 0 ++ le 4 off
  | .tmgLoopCfg track acq tt w n alslew guard hwin learn => le 1 track ++ le 1 acq ++ le 2 tt ++ le 4 w ++ le 2 n ++ le 2 alslew ++ le 2 guard ++ le 2 hwin ++ le 2 learn
  | .dtStep sec ns flags => le 8 (toBits 64 sec) ++ le 4 (toBits 32 ns) ++ le 1 flags
  | .dtCfg mode steplim => le 1 mode ++ le 3 0 ++ le 4 steplim
  | .dtStatus => []
  | .ptpCfg domain prio1 prio2 timesrc utc flags ident classOut => le 1 domain ++ le 1 prio1 ++ le 1 prio2 ++ le 1 timesrc ++ le 2 utc ++ le 1 flags ++ le 1 0 ++ le 8 ident ++ le 16 classOut
  | .ptpPortCfg port mac flags logSync logAnn annTimeout logDelay rxdly txdly asym => le 1 port ++ le 1 mac ++ le 1 flags ++ le 1 (toBits 8 logSync) ++ le 1 (toBits 8 logAnn) ++ le 1 annTimeout ++ le 1 (toBits 8 logDelay) ++ le 1 0 ++ le 4 (toBits 32 rxdly) ++ le 4 (toBits 32 txdly) ++ le 4 (toBits 32 asym)
  | .dtPinCfg mode => le 1 mode
  | .ptpServoCfg sbw stepThr slew => le 1 sbw ++ le 3 0 ++ le 4 stepThr ++ le 4 slew
  | .memStatus pc => le 1 pc
  | .memRearm pc => le 1 pc
  | .memPortCfg port budget => le 1 port ++ le 1 0 ++ le 2 budget
  | .memFreeze pc op off => le 1 pc ++ le 1 op ++ le 2 0 ++ le 4 off
  | .memCalSave mask => le 16 mask
  | .pairStatus which off => le 1 which ++ le 3 0 ++ le 4 off
  | .pairChangeover plane warmMax => le 1 plane ++ le 1 0 ++ le 2 warmMax
  | .pairCfg demote flags plane drill warmMax => le 1 demote ++ le 1 flags ++ le 1 plane ++ le 1 0 ++ le 2 drill ++ le 2 warmMax
  | .pairDrill => []
  | .pairForce op => le 1 op
  | .pwrStatus => []
  | .pwrDen => []
  | .pwrWakePartner => []
  | .pwrCfg hold flags => le 2 hold ++ le 1 flags
  | .updStatus => []
  | .updActivate slot => le 1 slot
  | .updConfirm => []
  | .updRestart => []
  | .updSvcCfg on => le 1 on
  | .updFuse => []
  | .calRead sect off => le 1 sect ++ le 3 0 ++ le 4 off
  | .calWrite sect off => le 1 sect ++ le 3 0 ++ le 4 off

/-- The command that an opcode and a payload spell; none for an unknown opcode. -/
def parseOp (op : Nat) (p : List Byte) : Option Cmd :=
  match op with
  | 0x0201 => some (.take (fld p 0 8) (fld p 8 8))
  | 0x0202 => some (.salvo (fld p 0 2) (fld p 2 2) (fld p 4 4) (fld p 8 8))
  | 0x0203 => some (.routeQuery (fld p 0 8) (fld p 8 2) (fld p 10 2) (fld p 12 4))
  | 0x0204 => some (.protect (fld p 0 2) (fld p 2 2) (fld p 4 1))
  | 0x0205 => some (.forceRelease (fld p 0 2) (fld p 2 2))
  | 0x0210 => some (.bankLoad (fld p 0 1) (fld p 1 1) (fld p 2 2) (fld p 4 4))
  | 0x0211 => some (.bankSwap (fld p 0 1))
  | 0x0301 => some (.srcMode (fld p 0 2) (fld p 2 1) (fld p 3 1) (fld p 4 1))
  | 0x0302 => some (.srcWarm (fld p 0 2) (fld p 2 1))
  | 0x0303 => some (.srcGroup (fld p 0 1) (fld p 2 2) (fld p 4 2) (fld p 6 2) (fld p 8 2))
  | 0x0304 => some (.srcStatus (fld p 0 2))
  | 0x0310 => some (.srcWindow (fld p 0 2) (fld p 2 2) (fld p 4 1))
  | 0x0320 => some (.destBind (fld p 0 2) (fld p 2 2) (fld p 4 1))
  | 0x0321 => some (.destAudio (fld p 0 2) (fld p 2 2) (fld p 4 1))
  | 0x0330 => some (.genCfg (fld p 0 1) (fld p 1 1) (fld p 2 1) (fld p 3 1) (fld p 4 2) (fld p 6 2) (fld p 8 2))
  | 0x0340 => some (.svcSend (fld p 0 1) (fld p 1 1) (fld p 4 4) (fld p 8 4) (fld p 12 4) (fld p 16 4) (fld p 20 2))
  | 0x0401 => some (.planeCfg (fld p 0 1) (fld p 1 1) (fld p 2 1) (fld p 3 1) (fld p 4 2) (fld p 6 2))
  | 0x0402 => some (.planeSwitch (fld p 0 1) (fld p 2 2) (fld p 4 4))
  | 0x0403 => some (.planeStatus (fld p 0 1))
  | 0x0101 => some (.sessionOpen (fld p 0 16) (fld p 16 4) (fld p 20 4) (fld p 24 1) (fld p 26 2))
  | 0x0102 => some (.sessionClose (fld p 0 1))
  | 0x0103 => some (.sessionAttach (fld p 0 8))
  | 0x0104 => some (.subscribe (fld p 0 4) (fld p 4 1) (fld p 6 2))
  | 0x0105 => some (.pendingQuery (fld p 0 1) (fld p 2 2) (fld p 4 4))
  | 0x0106 => some (.identity)
  | 0x0107 => some (.expertGrant (fld p 0 1) (fld p 2 2))
  | 0x0110 => some (.sessionBudget (fld p 0 1) (fld p 1 1) (fld p 2 1) (fld p 3 1))
  | 0x0B01 => some (.fltList (fld p 0 1) (fld p 4 4))
  | 0x0B02 => some (.fltClear (fld p 0 2) (fld p 2 1))
  | 0x0B03 => some (.fltCfg (fld p 0 1) (fld p 2 2) (fld p 4 1) (fld p 5 1))
  | 0x0B04 => some (.snpTrigger)
  | 0x0B05 => some (.snpCfg (fld p 0 1) (fld p 1 1) (fld p 2 2) (fld p 4 1) (fld p 6 2) (fld p 8 8) (fld p 16 4) (fld p 20 4))
  | 0x0B06 => some (.snpList (fld p 4 4))
  | 0x0B07 => some (.snpRead (fld p 0 1) (fld p 4 4) (fld p 8 4) (fld p 12 4))
  | 0x0B08 => some (.snpHold (fld p 0 1) (fld p 1 1))
  | 0x0B10 => some (.fltInject (fld p 0 8))
  | 0x0D20 => some (.laneStatus (fld p 0 2))
  | 0x0D21 => some (.eyeScan (fld p 0 2) (fld p 2 1) (fld p 3 1) (fld p 4 1) (fld p 5 1) (fld p 6 2) (fld p 8 4))
  | 0x0D22 => some (.laneLoop (fld p 0 2) (fld p 2 1) (fld p 3 1))
  | 0x0D23 => some (.lanePrbs (fld p 0 2) (fld p 2 1) (fld p 3 1) (fld p 4 1))
  | 0x0D24 => some (.laneEqSet (fld p 0 2) (fld p 2 1) (fld p 3 1) (fld p 4 20))
  | 0x0540 => some (.ethPortSplit (fld p 0 1) (fld p 1 1))
  | 0x0541 => some (.ethMacCfg (fld p 0 1) (beNat (sub p 2 6)) (fld p 8 2))
  | 0x0542 => some (.ethStatus (fld p 0 1))
  | 0x0A30 => some (.wakePattern (fld p 0 1) (fld p 1 1) (fld p 2 1) (fld p 4 4) (fld p 8 16))
  | 0x0501 => some (.flowDefine (fld p 0 2) (fld p 2 1) (fld p 4 4))
  | 0x0502 => some (.flowPort (fld p 0 2) (fld p 2 2) (fld p 4 1))
  | 0x0503 => some (.flowStatus (fld p 0 2))
  | 0x0504 => some (.flowIf (fld p 0 1) (fld p 4 4))
  | 0x0505 => some (.flowCapacity (fld p 0 1))
  | 0x0510 => some (.flowOffset (fld p 0 2) (fld p 2 1) (fld p 4 4))
  | 0x0601 => some (.cmpBind (fld p 0 1) (fld p 1 1) (fld p 2 1) (fld p 3 1) (fld p 4 4))
  | 0x0602 => some (.cmpLayout (fld p 0 1) (fld p 2 2) (fld p 4 4))
  | 0x0603 => some (.cmpGuard (fld p 0 1) (fld p 2 2) (fld p 4 4))
  | 0x0604 => some (.cmpFreeze (fld p 0 1) (fld p 1 1) (fld p 2 1))
  | 0x0605 => some (.cmpStatus (fld p 0 1) (fld p 4 4))
  | 0x0610 => some (.cmpCoef (fld p 0 1) (fld p 1 1) (fld p 4 4))
  | 0x0701 => some (.audMix (fld p 0 2) (fld p 2 1) (fld p 3 1) (fld p 4 4))
  | 0x0702 => some (.audGroup (fld p 0 2) (fld p 2 1))
  | 0x0703 => some (.audOffset (fld p 0 2) (fld p 4 4))
  | 0x0704 => some (.audHistory (fld p 0 2) (fld p 2 2) (fld p 4 4))
  | 0x0705 => some (.audMeter (fld p 0 2) (fld p 2 2) (fld p 4 1) (fld p 8 4))
  | 0x0706 => some (.audStatus (fld p 0 1) (fld p 2 2))
  | 0x0710 => some (.audBankLoad (fld p 0 1) (fld p 1 1) (fld p 2 2) (fld p 4 4))
  | 0x0711 => some (.audBankSwap (fld p 0 2))
  | 0x0712 => some (.audRate (fld p 0 1))
  | 0x0720 => some (.aptCfg (fld p 0 1) (fld p 1 1) (fld p 2 1) (fld p 3 1) (fld p 4 1) (fld p 5 1) (fld p 6 1) (fld p 8 4) (fld p 12 4))
  | 0x0721 => some (.aptRing (fld p 0 1) (fld p 4 4))
  | 0x0722 => some (.aptStatus (fld p 0 1))
  | 0x0801 => some (.tmgRefCfg (fld p 0 1) (fld p 1 1) (fld p 2 1) (fld p 3 1) (fld p 4 4) (fld p 8 2) (fld p 10 2) (fld p 12 4) (fld p 16 4) (fld p 20 2) (fld p 22 1) (ofBits 32 (fld p 24 4)))
  | 0x0802 => some (.tmgLrefBind (fld p 0 1) (fld p 1 1) (fld p 2 1))
  | 0x0803 => some (.tmgSelCfg (fld p 0 1) (fld p 1 1) (fld p 2 1) (fld p 3 1) (fld p 4 1))
  | 0x0804 => some (.tmgApllCfg (fld p 0 1) (fld p 1 1) (fld p 4 4) (fld p 8 4))
  | 0x0805 => some (.tmgClkoutCfg (fld p 0 1) (fld p 1 1) (fld p 2 1) (fld p 3 1) (fld p 4 4) (fld p 8 1) (fld p 9 1) (fld p 10 2) (ofBits 32 (fld p 12 4)))
  | 0x0806 => some (.tmgWclkCfg (fld p 0 1) (fld p 1 1) (fld p 2 1) (fld p 3 1) (ofBits 32 (fld p 4 4)))
  | 0x0807 => some (.tmgStatus (fld p 0 1))
  | 0x0808 => some (.tmgClassMap (fld p 4 4))
  | 0x0810 => some (.tmgLoopCfg (fld p 0 1) (fld p 1 1) (fld p 2 2) (fld p 4 4) (fld p 8 2) (fld p 10 2) (fld p 12 2) (fld p 14 2) (fld p 16 2))
  | 0x0820 => some (.dtStep (ofBits 64 (fld p 0 8)) (ofBits 32 (fld p 8 4)) (fld p 12 1))
  | 0x0821 => some (.dtCfg (fld p 0 1) (fld p 4 4))
  | 0x0822 => some (.dtStatus)
  | 0x0823 => some (.ptpCfg (fld p 0 1) (fld p 1 1) (fld p 2 1) (fld p 3 1) (fld p 4 2) (fld p 6 1) (fld p 8 8) (fld p 16 16))
  | 0x0824 => some (.ptpPortCfg (fld p 0 1) (fld p 1 1) (fld p 2 1) (ofBits 8 (fld p 3 1)) (ofBits 8 (fld p 4 1)) (fld p 5 1) (ofBits 8 (fld p 6 1)) (ofBits 32 (fld p 8 4)) (ofBits 32 (fld p 12 4)) (ofBits 32 (fld p 16 4)))
  | 0x0825 => some (.dtPinCfg (fld p 0 1))
  | 0x0830 => some (.ptpServoCfg (fld p 0 1) (fld p 4 4) (fld p 8 4))
  | 0x0D40 => some (.memStatus (fld p 0 1))
  | 0x0D41 => some (.memRearm (fld p 0 1))
  | 0x0D42 => some (.memPortCfg (fld p 0 1) (fld p 2 2))
  | 0x0D43 => some (.memFreeze (fld p 0 1) (fld p 1 1) (fld p 4 4))
  | 0x0D44 => some (.memCalSave (fld p 0 16))
  | 0x0901 => some (.pairStatus (fld p 0 1) (fld p 4 4))
  | 0x0902 => some (.pairChangeover (fld p 0 1) (fld p 2 2))
  | 0x0903 => some (.pairCfg (fld p 0 1) (fld p 1 1) (fld p 2 1) (fld p 4 2) (fld p 6 2))
  | 0x0904 => some (.pairDrill)
  | 0x0910 => some (.pairForce (fld p 0 1))
  | 0x0A01 => some (.pwrStatus)
  | 0x0A02 => some (.pwrDen)
  | 0x0A03 => some (.pwrWakePartner)
  | 0x0A04 => some (.pwrCfg (fld p 0 2) (fld p 2 1))
  | 0x0C01 => some (.updStatus)
  | 0x0C02 => some (.updActivate (fld p 0 1))
  | 0x0C03 => some (.updConfirm)
  | 0x0C04 => some (.updRestart)
  | 0x0C05 => some (.updSvcCfg (fld p 0 1))
  | 0x0C10 => some (.updFuse)
  | 0x0D50 => some (.calRead (fld p 0 1) (fld p 4 4))
  | 0x0D51 => some (.calWrite (fld p 0 1) (fld p 4 4))
  | _ => none

/-- Every field fits the size its table gives it. -/
def Cmd.fits : Cmd → Bool
  | .take rec expected => fitsU 64 rec && fitsU 64 expected
  | .salvo count rsvd off expected => fitsU 16 count && fitsU 16 rsvd && fitsU 32 off && fitsU 64 expected
  | .routeQuery epoch first count off => fitsU 64 epoch && fitsU 16 first && fitsU 16 count && fitsU 32 off
  | .protect first count rel => fitsU 16 first && fitsU 16 count && fitsU 8 rel
  | .forceRelease first count => fitsU 16 first && fitsU 16 count
  | .bankLoad plane act count off => fitsU 8 plane && fitsU 8 act && fitsU 16 count && fitsU 32 off
  | .bankSwap plane => fitsU 8 plane
  | .srcMode src mode flags lossHold => fitsU 16 src && fitsU 8 mode && fitsU 8 flags && fitsU 8 lossHold
  | .srcWarm src on => fitsU 16 src && fitsU 8 on
  | .srcGroup size m0 m1 m2 m3 => fitsU 8 size && fitsU 16 m0 && fitsU 16 m1 && fitsU 16 m2 && fitsU 16 m3
  | .srcStatus src => fitsU 16 src
  | .srcWindow src w qcount => fitsU 16 src && fitsU 16 w && fitsU 8 qcount
  | .destBind first count plane => fitsU 16 first && fitsU 16 count && fitsU 8 plane
  | .destAudio first count mode => fitsU 16 first && fitsU 16 count && fitsU 8 mode
  | .genCfg gen plane pattern audio y cb cr => fitsU 8 gen && fitsU 8 plane && fitsU 8 pattern && fitsU 8 audio && fitsU 16 y && fitsU 16 cb && fitsU 16 cr
  | .svcSend lane cls len off roff rmax timeout => fitsU 8 lane && fitsU 8 cls && fitsU 32 len && fitsU 32 off && fitsU 32 roff && fitsU 32 rmax && fitsU 16 timeout
  | .planeCfg plane raster scan rate phLines phSamples => fitsU 8 plane && fitsU 8 raster && fitsU 8 scan && fitsU 8 rate && fitsU 16 phLines && fitsU 16 phSamples
  | .planeSwitch plane line cutoff => fitsU 8 plane && fitsU 16 line && fitsU 32 cutoff
  | .planeStatus plane => fitsU 8 plane
  | .sessionOpen name lease sub irqCount irqDelay => fitsU 128 name && fitsU 32 lease && fitsU 32 sub && fitsU 8 irqCount && fitsU 16 irqDelay
  | .sessionClose target => fitsU 8 target
  | .sessionAttach key => fitsU 64 key
  | .subscribe sub irqCount irqDelay => fitsU 32 sub && fitsU 8 irqCount && fitsU 16 irqDelay
  | .pendingQuery all max off => fitsU 8 all && fitsU 16 max && fitsU 32 off
  | .identity => true
  | .expertGrant req lease => fitsU 8 req && fitsU 16 lease
  | .sessionBudget target cmds hare cpus => fitsU 8 target && fitsU 8 cmds && fitsU 8 hare && fitsU 8 cpus
  | .fltList cls off => fitsU 8 cls && fitsU 32 off
  | .fltClear src kind => fitsU 16 src && fitsU 8 kind
  | .fltCfg escn esct fnclass budget => fitsU 8 escn && fitsU 16 esct && fitsU 8 fnclass && fitsU 8 budget
  | .snpTrigger => true
  | .snpCfg enables sclass src kind div msec mns period => fitsU 8 enables && fitsU 8 sclass && fitsU 16 src && fitsU 8 kind && fitsU 16 div && fitsU 64 msec && fitsU 32 mns && fitsU 32 period
  | .snpList off => fitsU 32 off
  | .snpRead slot ioff len off => fitsU 8 slot && fitsU 32 ioff && fitsU 32 len && fitsU 32 off
  | .snpHold slot hold => fitsU 8 slot && fitsU 8 hold
  | .fltInject msg => fitsU 64 msg
  | .laneStatus lane => fitsU 16 lane
  | .eyeScan lane eye k sp sv thr off => fitsU 16 lane && fitsU 8 eye && fitsU 8 k && fitsU 8 sp && fitsU 8 sv && fitsU 16 thr && fitsU 32 off
  | .laneLoop lane mode flags => fitsU 16 lane && fitsU 8 mode && fitsU 8 flags
  | .lanePrbs lane pattern on rate => fitsU 16 lane && fitsU 8 pattern && fitsU 8 on && fitsU 8 rate
  | .laneEqSet lane set flags vals => fitsU 16 lane && fitsU 8 set && fitsU 8 flags && fitsU 160 vals
  | .ethPortSplit port mode => fitsU 8 port && fitsU 8 mode
  | .ethMacCfg mac addr maxFrame => fitsU 8 mac && fitsU 48 addr && fitsU 16 maxFrame
  | .ethStatus mac => fitsU 8 mac
  | .wakePattern matcher on mac check mask => fitsU 8 matcher && fitsU 8 on && fitsU 8 mac && fitsU 32 check && fitsU 128 mask
  | .flowDefine ctx op off => fitsU 16 ctx && fitsU 8 op && fitsU 32 off
  | .flowPort ctx port flags => fitsU 16 ctx && fitsU 16 port && fitsU 8 flags
  | .flowStatus ctx => fitsU 16 ctx
  | .flowIf mac off => fitsU 8 mac && fitsU 32 off
  | .flowCapacity mac => fitsU 8 mac
  | .flowOffset ctx auto offset => fitsU 16 ctx && fitsU 8 auto && fitsU 32 offset
  | .cmpBind m plane dither audwin back => fitsU 8 m && fitsU 8 plane && fitsU 8 dither && fitsU 8 audwin && fitsU 32 back
  | .cmpLayout m count off => fitsU 8 m && fitsU 16 count && fitsU 32 off
  | .cmpGuard m count off => fitsU 8 m && fitsU 16 count && fitsU 32 off
  | .cmpFreeze m win op => fitsU 8 m && fitsU 8 win && fitsU 8 op
  | .cmpStatus m off => fitsU 8 m && fitsU 32 off
  | .cmpCoef m set off => fitsU 8 m && fitsU 8 set && fitsU 32 off
  | .audMix count ramp anchor off => fitsU 16 count && fitsU 8 ramp && fitsU 8 anchor && fitsU 32 off
  | .audGroup src mode => fitsU 16 src && fitsU 8 mode
  | .audOffset dest us => fitsU 16 dest && fitsU 32 us
  | .audHistory first count len => fitsU 16 first && fitsU 16 count && fitsU 32 len
  | .audMeter first count op off => fitsU 16 first && fitsU 16 count && fitsU 8 op && fitsU 32 off
  | .audStatus kind index => fitsU 8 kind && fitsU 16 index
  | .audBankLoad cluster act count off => fitsU 8 cluster && fitsU 8 act && fitsU 16 count && fitsU 32 off
  | .audBankSwap mask => fitsU 16 mask
  | .audRate rate => fitsU 8 rate
  | .aptCfg port format nslots w m flags nout inLat outLat => fitsU 8 port && fitsU 8 format && fitsU 8 nslots && fitsU 8 w && fitsU 8 m && fitsU 8 flags && fitsU 8 nout && fitsU 32 inLat && fitsU 32 outLat
  | .aptRing port n => fitsU 8 port && fitsU 32 n
  | .aptStatus port => fitsU 8 port
  | .tmgRefCfg cand kind prio flags num den wtr soft hard slope lossn delay => fitsU 8 cand && fitsU 8 kind && fitsU 8 prio && fitsU 8 flags && fitsU 32 num && fitsU 16 den && fitsU 16 wtr && fitsU 32 soft && fitsU 32 hard && fitsU 16 slope && fitsU 8 lossn && fitsS 32 delay
  | .tmgLrefBind lref lane refid => fitsU 8 lref && fitsU 8 lane && fitsU 8 refid
  | .tmgSelCfg mode forced flags holdql freeql => fitsU 8 mode && fitsU 8 forced && fitsU 8 flags && fitsU 8 holdql && fitsU 8 freeql
  | .tmgApllCfg apll mint mnum mden => fitsU 8 apll && fitsU 8 mint && fitsU 32 mnum && fitsU 32 mden
  | .tmgClkoutCfg out src apll level d plane flags width outdly => fitsU 8 out && fitsU 8 src && fitsU 8 apll && fitsU 8 level && fitsU 32 d && fitsU 8 plane && fitsU 8 flags && fitsU 16 width && fitsS 32 outdly
  | .tmgWclkCfg out op apll level outdly => fitsU 8 out && fitsU 8 op && fitsU 8 apll && fitsU 8 level && fitsS 32 outdly
  | .tmgStatus cand => fitsU 8 cand
  | .tmgClassMap off => fitsU 32 off
  | .tmgLoopCfg track acq tt w n alslew guard hwin learn => fitsU 8 track && fitsU 8 acq && fitsU 16 tt && fitsU 32 w && fitsU 16 n && fitsU 16 alslew && fitsU 16 guard && fitsU 16 hwin && fitsU 16 learn
  | .dtStep sec ns flags => fitsS 64 sec && fitsS 32 ns && fitsU 8 flags
  | .dtCfg mode steplim => fitsU 8 mode && fitsU 32 steplim
  | .dtStatus => true
  | .ptpCfg domain prio1 prio2 timesrc utc flags ident classOut => fitsU 8 domain && fitsU 8 prio1 && fitsU 8 prio2 && fitsU 8 timesrc && fitsU 16 utc && fitsU 8 flags && fitsU 64 ident && fitsU 128 classOut
  | .ptpPortCfg port mac flags logSync logAnn annTimeout logDelay rxdly txdly asym => fitsU 8 port && fitsU 8 mac && fitsU 8 flags && fitsS 8 logSync && fitsS 8 logAnn && fitsU 8 annTimeout && fitsS 8 logDelay && fitsS 32 rxdly && fitsS 32 txdly && fitsS 32 asym
  | .dtPinCfg mode => fitsU 8 mode
  | .ptpServoCfg sbw stepThr slew => fitsU 8 sbw && fitsU 32 stepThr && fitsU 32 slew
  | .memStatus pc => fitsU 8 pc
  | .memRearm pc => fitsU 8 pc
  | .memPortCfg port budget => fitsU 8 port && fitsU 16 budget
  | .memFreeze pc op off => fitsU 8 pc && fitsU 8 op && fitsU 32 off
  | .memCalSave mask => fitsU 128 mask
  | .pairStatus which off => fitsU 8 which && fitsU 32 off
  | .pairChangeover plane warmMax => fitsU 8 plane && fitsU 16 warmMax
  | .pairCfg demote flags plane drill warmMax => fitsU 8 demote && fitsU 8 flags && fitsU 8 plane && fitsU 16 drill && fitsU 16 warmMax
  | .pairDrill => true
  | .pairForce op => fitsU 8 op
  | .pwrStatus => true
  | .pwrDen => true
  | .pwrWakePartner => true
  | .pwrCfg hold flags => fitsU 16 hold && fitsU 8 flags
  | .updStatus => true
  | .updActivate slot => fitsU 8 slot
  | .updConfirm => true
  | .updRestart => true
  | .updSvcCfg on => fitsU 8 on
  | .updFuse => true
  | .calRead sect off => fitsU 8 sect && fitsU 32 off
  | .calWrite sect off => fitsU 8 sect && fitsU 32 off

/-- The change sets (R411): every journalled command but DT_STEP (R352) and the reads of AUD_METER (R273). -/
def Cmd.isChange : Cmd → Bool
  | .dtStep _ _ _ => false
  | .audMeter _ _ op _ => op != 2
  | c => c.journalled

/-- The 64-byte ring entry of a command (R402). -/
def Cmd.entry (c : Cmd) (hseq : Nat) : List Byte :=
  padTo 0 64 (le 2 c.opcode ++ le 1 c.len ++ le 1 0 ++ le 4 hseq ++ c.payload)

/-- The command of a ring entry; none where the opcode is unknown, LEN is not the opcode's or byte 3 is not zero (R410). -/
def parseEntry (e : List Byte) : Option Cmd :=
  match parseOp (fld e 0 2) (e.drop 8) with
  | some c => if fld e 2 1 = c.len ∧ fld e 3 1 = 0 then some c else none
  | none => none

/-- What a commit knows beside the state: the committing session if any, the epoch it gives, HSEQ, JSEQ, the copied data. -/
structure CCtx where
  ses : Option Nat
  ep : Nat
  hseq : Nat
  jseq : Nat
  data : List Byte := []
  /-- The entry comes from the journal copy of a claimant (R26). -/
  replay : Bool := false
  deriving DecidableEq, Repr

/-- What admission at the commit answers: a refusal, PENDING, or the new state with the items that follow the epoch. -/
inductive CRes where
  | refuse (st : Nat) (r : Ref)
  | wait (m : Mach)
  | commit (m : Mach) (items : List Item)
  deriving DecidableEq, Repr

/-- What a command that is not a change set answers: a refusal, one final response, ACCEPTED with the final response to
come, or both at once. -/
inductive QRes where
  | refuse (st : Nat) (r : Ref)
  | answer (m : Mach) (st : Nat) (items : List Item)
  | accept (m : Mach) (items : List Item := [])
  | both (m : Mach) (st : Nat) (items : List Item) (first : List Item := [])
  deriving DecidableEq, Repr

/-- A field of the calibration store in use (R560). -/
def calNum (m : Mach) (o n : Nat) : Nat := fld m.sys.cal o n

/-- A section of the store in use is present. -/
def calHas (m : Mach) (i : Nat) : Bool := bit (calNum m 6 1) i

/-- A sensor offset in 1/128 °C, at an offset in its section; 0 while the section is absent (R560). -/
def sensorOffset (m : Mach) (o : Nat) : Int := if calHas m 1 then ofBits 16 (calNum m (8768 + o) 2) else 0

/-- Refusals without an owner. -/
def CRes.arg : CRes := .refuse sArg {}
def QRes.arg : QRes := .refuse sArg {}
def CRes.conflict (okind oid : Nat) : CRes := .refuse sConflict { okind, oid }
def QRes.conflict (okind oid : Nat) : QRes := .refuse sConflict { okind, oid }

/-- A take record, field by field (R47). -/
structure TakeRec where
  dest : Nat
  src : Nat
  mode : Nat
  ramp : Nat
  asrc : Nat
  rsvd : Nat
  deriving DecidableEq, Repr

/-- The fields of a take record word (R47). -/
def takeRec (w : Nat) : TakeRec :=
  { dest := bits w 63 52, src := bits w 51 40, mode := bits w 39 38, ramp := bits w 37 32, asrc := bits w 31 20,
    rsvd := bits w 19 0 }

/-- A list of take records, eight bytes each. -/
def takeRecs (n : Nat) (d : List Byte) : List TakeRec := (List.range n).map fun i => takeRec (fld d (8 * i) 8)

end Sys2Proof.Machine
end

