-- ==== Sys2Proof/Machine/Journal.lean ====
section
/-! DEFINITION. The journal: entries, outcomes, the responses that wait for the partner, the outcome cache, retirement
(R400 to R405, R411, R422, R423, R469). -/
namespace Sys2Proof.Machine

/-- A length in bytes rounded up to a multiple of 64. -/
def pad64 (n : Nat) : Nat := (n + 63) / 64 * 64

/-- Bytes an entry takes (R422). -/
def JEntry.size (e : JEntry) : Nat := 64 + 64 + pad64 e.data.length

/-- The entry as it lies in the journal's SRAM: header, payload, copied data (R422). -/
def JEntry.bytes (e : JEntry) : List Byte :=
  padTo 0 64 (le 8 e.jseq ++ le 1 e.kind ++ le 1 e.ses ++ le 2 e.cmd.opcode ++ le 4 e.hseq ++ le 4 (e.size - 64) ++ le 1 e.st
      ++ le 1 e.status ++ le 2 0 ++ le 8 e.epoch ++ (Item.instant e.instant).bytes)
    ++ padTo 0 64 e.cmd.payload ++ padTo 0 (pad64 e.data.length) e.data

/-- The byte of the journal at an offset of its SRAM, where an entry lies there (R422). -/
def journalByte (m : Mach) (o : Nat) : Option Byte :=
  (m.ctl.journal.find? fun e => decide ((o + 2 ^ 20 - e.at_) % 2 ^ 20 < e.size)).map
    fun e => lget 0 e.bytes ((o + 2 ^ 20 - e.at_) % 2 ^ 20)

/-- Bytes of the journal in use. -/
def journalUsed (m : Mach) : Nat := (m.ctl.journal.map JEntry.size).foldl (· + ·) 0

/-- The journal holds an entry with `n` bytes of copied data (R423). -/
def journalRoom (m : Mach) (n : Nat) : Bool := decide (journalUsed m + 128 + pad64 n ≤ 2 ^ 20)

/-- The entry of a JSEQ. -/
def jentry? (m : Mach) (j : Nat) : Option JEntry := m.ctl.journal.find? fun e => e.jseq == j

/-- Change the entry of a JSEQ. -/
def setEntry (m : Mach) (j : Nat) (f : JEntry → JEntry) : Mach :=
  { m with ctl := { m.ctl with journal := m.ctl.journal.map fun e => if e.jseq = j then f e else e } }

/-- The journal is not mirrored: UNPROT and its fault (R469). -/
def unprotect (m : Mach) : Mach :=
  if m.pr.unprot then m else raise { m with pr := { m.pr with unprot := true } } 0xDE0 0x95 1

/-- A session can be posted to: open, detached, or opening. -/
def live (m : Mach) (n : Nat) : Bool := (ses m n).st != .free

/-- Post response entries of a journalled command, with the rest of its reservation returned after the last. -/
def postRoom (m : Mach) (e : JEntry) (rs : List Resp) (last : Bool) : Mach :=
  if e.deaf || !live m e.ses then setEntry m e.jseq fun x => { x with room := 0 }
  else
    let m := putResps m e.ses e.hare rs
    if last then setEntry (unreserve m e.ses (e.room - rs.length)) e.jseq fun x => { x with room := 0 }
    else setEntry m e.jseq fun x => { x with room := x.room - rs.length }

/-- ACCEPTED of an entry (R404, R407). -/
def acceptedResp (e : JEntry) : List Resp := mkResps e.cmd.opcode sAccepted 0 e.hseq e.jseq []

/-- The partner has acknowledged the entry: ACCEPTED is posted, if it was held. -/
def entryAcked (m : Mach) (j : Nat) : Mach :=
  match jentry? m j with
  | some e => if e.unacked then postRoom (setEntry m j fun x => { x with unacked := false }) e (acceptedResp e) false else m
  | none => m

/-- The partner has acknowledged the entry's final STATE: its final response is posted, if it was held. -/
def finalAcked (m : Mach) (j : Nat) : Mach :=
  let m := entryAcked m j
  match jentry? m j with
  | some e => if e.held.isEmpty then m else postRoom (setEntry m j fun x => { x with held := [] }) e e.held true
  | none => m

/-- Write an entry (R422). Its ACCEPTED waits for the partner while a bundle is UP (R469). -/
def journalPut (m : Mach) (kind n port hseq : Nat) (cmd : Cmd) (data : List Byte) (hare : Bool) (room : Nat) : Mach :=
  let j := m.ctl.jnext
  let e : JEntry := { jseq := j, kind, ses := n, port, hseq, cmd, data, of := j, room, hare, tick := m.now,
                      unacked := kind == 0 && xlUp m, at_ := m.ctl.jpos }
  let m := { m with ctl := { m.ctl with journal := m.ctl.journal ++ [e], jnext := j + 1, jpos := (m.ctl.jpos + e.size) % 2 ^ 20 } }
  if xlUp m then xlSend m (.journal e)
  else
    let m := unprotect m
    if kind = 0 then postRoom m e (acceptedResp e) false else m

/-- Keep a final response in the session's outcome cache (R403). -/
def cacheFinal (m : Mach) (n j : Nat) (rs : List Resp) : Mach :=
  setSes m n fun x => { x with cache := x.cache.map fun c => if c.jseq = j then { c with final := rs } else c }

/-- A change set enters its session's outcome cache: the latest 256 (R403). -/
def cacheOpen (m : Mach) (n hseq j : Nat) : Mach :=
  setSes m n fun x => { x with cache := ({ hseq, jseq := j } :: x.cache).take 256 }

/-- The latest save that has reached the partner records what save `k` records (counts modulo 2³²). -/
def saveReached (m : Mach) (k : Nat) : Bool := decide ((m.pr.saveAcked + 2 ^ 32 - k % 2 ^ 32) % 2 ^ 32 < 2 ^ 31)

/-- The entry may be retired (R423): the saved state that records its outcome has reached the partner, if there is one. -/
def retirable (m : Mach) (e : JEntry) : Bool :=
  e.st != 0 && e.held.isEmpty && !e.unacked && (!partnerHere m || e.savedIn.all (saveReached m))

/-- Retire entries; the journal's space is reused in JSEQ order (R423). -/
def retire (m : Mach) : Mach :=
  let js := m.ctl.journal.map fun e => if e.st != 4 && retirable m e then { e with st := 4 } else e
  { m with ctl := { m.ctl with journal := js.dropWhile fun e => e.st == 4 } }

/-- An entry's outcome is final: state, status, and the response with these items, which waits for the partner while a
bundle is UP (R411, R422, R469). -/
def conclude (m : Mach) (j st status : Nat) (result : List Byte) (epoch : Nat := 0) : Mach :=
  match jentry? m j with
  | none => m
  | some e =>
    let rs := mkResps e.cmd.opcode status (if e.replay then 2 else 0) e.hseq e.of result
    let m := setEntry m j fun x => { x with st, status, epoch, instant := m.dt.t, tick := m.now, waiting := false,
                                            savedIn := some ((lget {} m.xb.planes 0).nextSw) }
    let m := if xlUp m then xlSend m (.jstate j st status epoch m.dt.t) else m
    if e.ses = 255 then retire (if xlUp m then m else unprotect m)
    else
      let m := cacheFinal m e.ses e.of rs
      if xlUp m then setEntry m j fun x => { x with held := rs }
      else retire (postRoom (unprotect m) e rs true)

/-- The condition of a PENDING change set is met: its commit record is journalled, and its acceptance is completed
(R411). -/
def commitRecord (m : Mach) (j : Nat) : Mach :=
  match jentry? m j with
  | none => m
  | some e =>
    if !e.waiting then m
    else
      let r : JEntry := { e with jseq := m.ctl.jnext, kind := 1, of := j, waiting := false, tick := m.now, at_ := m.ctl.jpos }
      let m := setEntry m j fun x => { x with st := 3, status := sPending, waiting := false, room := 0, tick := m.now,
                                              savedIn := some ((lget {} m.xb.planes 0).nextSw) }
      let m := { m with ctl := { m.ctl with journal := m.ctl.journal ++ [r], jnext := m.ctl.jnext + 1,
                                            jpos := (m.ctl.jpos + r.size) % 2 ^ 20 } }
      if xlUp m then xlSend (xlSend m (.jstate j 3 sPending 0 m.dt.t)) (.journal r) else unprotect m

/-- Journal the commit records of the waiting entries whose commands satisfy `p`, in JSEQ order. -/
def recordReady (m : Mach) (p : Cmd → Bool) : Mach :=
  ((m.ctl.journal.filter fun e => e.waiting && p e.cmd).map (·.jseq)).foldl commitRecord m

/-- JOURNAL_ACK_TIMEOUT (R469): no acknowledgement within 10 µs, the last instant included (R6); the module posts without it. -/
def ackTimeout (j : Nat) (m : Mach) : Mach :=
  match jentry? m j with
  | some e =>
    if (e.unacked ∨ !e.held.isEmpty) ∧ e.tick + 5000 < m.now then retire (unprotect (finalAcked m j)) else m
  | none => m

/-- The entries that PENDING_QUERY lists and the sequencer commits: open ones. -/
def openEntries (m : Mach) : List JEntry := m.ctl.journal.filter fun e => e.st == 0

/-- JOURNAL_ACK_TIMEOUT (R469). -/
def execJournalAckTimeout (jseq : Nat) := run (ackTimeout jseq)

end Sys2Proof.Machine
end

