-- ==== Sys2Proof/Machine/Planes.lean ====
section
/-! DEFINITION. Formats, planes, switch points, routes and the resources they hold (chapters 01 and 02, R431). -/
namespace Sys2Proof.Machine

/-! ### Formats (R15, R431) -/

/-- Frame rate of an IS_SRC_FMT code, as a fraction. -/
def rateNum (r : Nat) : Nat := lget 0 [24000, 24, 25, 30000, 30, 48000, 48, 50, 60000, 60] r
def rateDen (r : Nat) : Nat := lget 1 [1001, 1, 1, 1001, 1, 1001, 1, 1, 1001, 1] r

/-- The formats a plane accepts (R431). -/
def fmtOk (f : Fmt) : Bool :=
  match f.raster, f.scan with
  | 0, 0 => decide (f.rate ≤ 4) || (decide (7 ≤ f.rate) && decide (f.rate ≤ 9))
  | 1, 0 => decide (f.rate ≤ 9)
  | 1, 1 => decide (2 ≤ f.rate) && decide (f.rate ≤ 4)
  | 1, 2 => decide (f.rate ≤ 4)
  | 2, 0 => decide (f.rate ≤ 9)
  | _, _ => false

/-- Rate class of a format: 0 1.5G, 1 3G, 2 6G, 3 12G (R431). -/
def fmtClass (f : Fmt) : Nat :=
  match f.raster with
  | 0 => 0
  | 1 => if f.scan = 0 ∧ 5 ≤ f.rate then 1 else 0
  | _ => if 5 ≤ f.rate then 3 else 2

/-- Calendar cells of a rate class (R37). -/
def classCells (c : Nat) : Nat := lget 0 [12, 24, 48, 96] c

/-- Total lines, active lines and active samples (SMPTE ST 296, ST 274 and the raster of R15). -/
def totalLines (f : Fmt) : Nat := lget 1125 [750, 1125, 2250] f.raster
def activeLines (f : Fmt) : Nat := lget 1080 [720, 1080, 2160] f.raster
def activeSamples (f : Fmt) : Nat := lget 1920 [1280, 1920, 3840] f.raster

/-- Total samples per line, as the standards R431 names give them. -/
def totalSamples (f : Fmt) : Nat :=
  match f.raster with
  | 0 => lget 1650 [4125, 4125, 3960, 3300, 3300, 0, 0, 1980, 1650, 1650] f.rate
  | 1 => lget 2200 [2750, 2750, 2640, 2200, 2200, 2750, 2750, 2640, 2200, 2200] f.rate
  | _ => lget 4400 [5500, 5500, 5280, 4400, 4400, 5500, 5500, 5280, 4400, 4400] f.rate

/-- Frame period in ps. -/
def framePs (f : Fmt) : Nat := 1000000000000 * rateDen f.rate / rateNum f.rate

/-- Frame period in ticks of 2 ns, rounded down. -/
def frameTicks (f : Fmt) : Nat := 500000000 * rateDen f.rate / rateNum f.rate

/-- First and last switch line the host may set, and the default (R15). -/
def lastSwLine (f : Fmt) : Nat :=
  match f.raster, f.scan with
  | 0, _ => 25
  | 1, 0 => 41
  | 1, _ => 20
  | _, _ => 82
def defaultSwLine (f : Fmt) : Nat := if f.raster = 2 then 13 else 7

/-- The switch line a set value stands for: 0 is the default (R15). -/
def swLineOf (f : Fmt) (l : Nat) : Nat := if l = 0 then defaultSwLine f else l

/-- A set switch line lies in the format's range (R15). -/
def swLineOk (f : Fmt) (l : Nat) : Bool := decide (l ≤ lastSwLine f)

/-- A cut-off in µs is allowed for a format (R16). -/
def cutoffOk (f : Fmt) (us : Nat) : Bool :=
  decide (250 ≤ us) && decide (us ≤ 10000) && decide ((us + 250) * 1000000 ≤ framePs f)

/-! ### Plane timing (R14, R15, R73, R77) -/

/-- Samples of a frame, and the offset of a plane's switch point within its frame in samples. -/
def frameSamples (f : Fmt) : Nat := totalLines f * totalSamples f
def swOffset (x : Plane) : Nat := (x.phLines + swLineOf x.fmt x.swLineNow - 1) * totalSamples x.fmt + x.phSamples

/-- Frames of a plane begun at a device time, where `o` samples into the frame counts as its beginning. -/
def framesAt (f : Fmt) (o : Nat) (t : Int) : Int :=
  let den : Int := secU * rateDen f.rate * frameSamples f
  (t * (rateNum f.rate * frameSamples f) - secU * rateDen f.rate * o) / den

/-- Switch points that a plane's timing places in (t1, t2] (R73). -/
def switchesIn (x : Plane) (t1 t2 : Int) : Int := framesAt x.fmt (swOffset x) t2 - framesAt x.fmt (swOffset x) t1

/-- The cut-off instant of the next switch point has passed at a device time (R17). -/
def cutAt (x : Plane) (t : Int) : Bool := decide (0 < switchesIn x t (t + x.cutoffNow * 1000 * nsU))

/-- Lines of a raster finished at a device time, within the frame: its line number less one. -/
def lineAt (f : Fmt) (x : Plane) (t : Int) : Nat :=
  let o := x.phLines * totalSamples f + x.phSamples
  let den : Int := secU * rateDen f.rate
  (((t * (rateNum f.rate * frameSamples f) - den * o) % (den * frameSamples f)) / (den * totalSamples f)).toNat

/-- Samples of a plane's frame before a line begins, counted from the grid. -/
def lineOffset (x : Plane) (line : Nat) : Nat := (x.phLines + line - 1) * totalSamples x.fmt + x.phSamples

/-- Device time at which a count of a plane's samples is complete, rounded up. -/
def samplesAt (f : Fmt) (n : Int) : Int :=
  -((-(n * (secU * rateDen f.rate : Nat))) / (rateNum f.rate * frameSamples f : Nat))

/-- The plane instant of a line in the first frame in which it comes at or after a device time. -/
def instantFrom (x : Plane) (line : Nat) (t : Int) : Int :=
  samplesAt x.fmt (frameSamples x.fmt * (framesAt x.fmt (lineOffset x line) (t - 1) + 1) + lineOffset x line)

/-- The switch point that a plane counts as number `n`: its device time, seen from a device time before the next one (R73). -/
def switchInstant (x : Plane) (n : Nat) (t : Int) : Int :=
  samplesAt x.fmt (frameSamples x.fmt * (framesAt x.fmt (swOffset x) (t - 1) + 1 + (n - x.nextSw : Nat)) + swOffset x)

/-- A stamp of 0.125 ns resolution, from units of 2⁻³² ns (R357). -/
def stampOf (t : Int) : Int := t / 2 ^ 29 * 2 ^ 29

/-- The same from ps. -/
def stampPs (t : Int) : Int := t / 125 * 125

/-- The latest plane instant of a line at or before a device time. -/
def instantTo (x : Plane) (line : Nat) (t : Int) : Int :=
  samplesAt x.fmt (frameSamples x.fmt * framesAt x.fmt (lineOffset x line) t + lineOffset x line)

/-- The plane instant of a line in the plane frame that begins at or after `t1`: line 1 of a source's frame (R77). -/
def leadInstant (x : Plane) (line : Nat) (t1 : Int) : Int :=
  samplesAt x.fmt (frameSamples x.fmt * (framesAt x.fmt (lineOffset x 1) (t1 - 1) + 1) + lineOffset x line)

/-! ### Rasters -/

/-- The first active line of a progressive raster, by total lines (Assumption 9). -/
def firstActive (total : Nat) : Nat := if total = 750 then 26 else if total = 1125 then 42 else 83

/-- The raster line of an active row: progressive, or segmented as the fields of ST 274 (Assumption 9). -/
def rowLine (total scan r : Nat) : Nat :=
  if scan = 0 then firstActive total + r else if r % 2 = 0 then 21 + r / 2 else 584 + r / 2

/-- The active row of a raster line, if it has one. -/
def lineRow (total active scan line : Nat) : Option Nat :=
  if scan = 0 then
    if firstActive total ≤ line ∧ line < firstActive total + active then some (line - firstActive total) else none
  else if 21 ≤ line ∧ line < 21 + active / 2 then some (2 * (line - 21))
  else if 584 ≤ line ∧ line < 584 + active / 2 then some (2 * (line - 584) + 1)
  else none

/-- The black word of a position (R34): chroma 512, luma 64, in the order Cb, Y, Cr, Y. -/
def blackWord (i : Nat) : Nat := if i % 2 = 0 then 512 else 64

/-- A line of black. -/
def blackLine (n : Nat) : List Nat := (List.range n).map blackWord

/-! ### Planes and destinations -/

def plane (m : Mach) (p : Nat) : Plane := lget {} m.xb.planes p
def setPlane (m : Mach) (p : Nat) (f : Plane → Plane) : Mach :=
  { m with xb := { m.xb with planes := lmod m.xb.planes p f } }

/-- The switch point a commit at this instant belongs to (R17). -/
def target (m : Mach) (p : Nat) : Nat := (plane m p).nextSw + b2n (plane m p).cut

/-- XB_TP_SWCNT (R73): the count of the latest switch point. -/
def swcnt (m : Mach) (p : Nat) : Nat := ((plane m p).nextSw - 1) % 2 ^ 32

def dest (m : Mach) (d : Nat) : Dest := tget {} m.xb.dests d
def setDest (m : Mach) (d : Nat) (f : Dest → Dest) : Mach :=
  { m with xb := { m.xb with dests := tmod {} m.xb.dests d f } }
def air (m : Mach) (d : Nat) : Air := tget {} m.xb.air d
def setAir (m : Mach) (d : Nat) (f : Air → Air) : Mach :=
  { m with xb := { m.xb with air := tmod {} m.xb.air d f } }

/-- Destinations in a range. -/
def destRangeOk (first count : Nat) : Bool := decide (1 ≤ count) && decide (first + count ≤ 2304)

/-- The lowest-numbered destination that satisfies `p`. -/
def lowDest (p : Nat → Bool) : Option Nat := (List.range 2304).find? p

/-- Slots of a WL lane in its mode: 8 before a mode is known (R9, R110). -/
def laneSlots (m : Mach) (n : Nat) : Nat := lget 8 [8, 2, 4, 8] (tget {} m.wl.rx n).mode

/-- A serial source's slot exists under R9. -/
def slotExists (m : Mach) (s : Nat) : Bool := decide (1152 ≤ s) || decide (s % 8 < laneSlots m (s / 8))

/-- Indices of generators and of compositor outputs. -/
def isGen (s : Nat) : Bool := decide (2336 ≤ s) && decide (s < 2400)
def isCmp (s : Nat) : Bool := decide (2304 ≤ s) && decide (s < 2336)

def gen (m : Mach) (g : Nat) : Gen := tget {} m.xb.gens g
def genNow (m : Mach) (g : Nat) : Gen := tget {} m.xb.gensNow g
def cmpr (m : Mach) (k : Nat) : Cmp := tget {} m.cmp.cmps k
def setCmp (m : Mach) (k : Nat) (f : Cmp → Cmp) : Mach :=
  { m with cmp := { m.cmp with cmps := tmod {} m.cmp.cmps k f } }
def srcOf (m : Mach) (s : Nat) : Src := tget {} m.is_.srcs s
def setSrc (m : Mach) (s : Nat) (f : Src → Src) : Mach :=
  { m with is_ := { m.is_ with srcs := tmod {} m.is_.srcs s f } }
def pair (m : Mach) (s p : Nat) : SrcPlane := tget {} m.is_.pairs (16 * s + p)
def setPair (m : Mach) (s p : Nat) (f : SrcPlane → SrcPlane) : Mach :=
  { m with is_ := { m.is_ with pairs := tmod {} m.is_.pairs (16 * s + p) f } }
def setSrcCnt (m : Mach) (s : Nat) (f : SrcCnt → SrcCnt) : Mach :=
  { m with is_ := { m.is_ with cnts := tmod {} m.is_.cnts s f } }

/-! ### Resources (R39 to R44) -/

/-- A route's source is handled by a synchroniser towards a plane: an AUTO source, by its committed mode or by the mode
still in force there, or a compositor of another plane (R36, R42). -/
def synced (m : Mach) (s p : Nat) : Bool :=
  if s < 2304 then (srcOf m s).mode == 0 || !(pair m s p).sync
  else isCmp s && (cmpr m (s - 2304)).com.plane != p

/-- The (source, plane) pairs that need a read feed, in the order in which the holds were made: windows need none (R224). -/
def feedPairs (m : Mach) (hs : List Hold) : List (Nat × Nat) :=
  (hs.filter fun h => h.dest < 2304 && synced m h.src h.plane).foldl
    (fun a h => if a.contains (h.src, h.plane) then a else a ++ [(h.src, h.plane)]) []

/-- The sources that hold three frame buffers (R41, R42, R44). -/
def bufSources (m : Mach) (hs : List Hold) : List Nat :=
  let a := hs.foldl (fun a h => if synced m h.src h.plane && !a.contains h.src then a ++ [h.src] else a) []
  let b := m.xb.fbRet.foldl (fun a x => if a.contains x.1 then a else a ++ [x.1]) a
  let auto (s : Nat) : Bool := (List.range 16).any (synced m s)
  (m.is_.srcs.filter fun x => (x.2.warm || !x.2.warmOff.isEmpty) && auto x.1 && !b.contains x.1).foldl (fun a x => a ++ [x.1]) b

/-- Frame buffers held by admission. -/
def fbHeld (m : Mach) (hs : List Hold) : Nat := 3 * (bufSources m hs).length

/-- Frame buffers owned by a compositor's freeze-frames, until their return (R240). -/
def iceOf (c : Cmp) : Nat := c.com.frozen.length + c.thaw.length

/-- Frame buffers owned by freeze-frames, and the lowest-numbered compositor that owns one. -/
def iceTotal (m : Mach) : Nat := m.cmp.cmps.foldl (fun a x => a + iceOf x.2) 0
def iceOwner (m : Mach) : Option Nat := (tkeys (fun c => iceOf c != 0) m.cmp.cmps).head?

/-- Free read feeds and free frame buffers (R86). -/
def feedsFree (m : Mach) (hs : List Hold) : Nat := 2048 - (feedPairs m hs).length
def fbFree (m : Mach) (hs : List Hold) : Nat := 4096 - fbHeld m hs - iceTotal m

/-- A shortage of frame buffers (step 4 of R40). -/
def fbShort (m : Mach) (index : Nat) : CRes :=
  match iceOwner m with
  | some k => .refuse sConflict { index, okind := 5, oid := k, res := 1, free := fbFree m m.xb.holds }
  | none => .refuse sCapacity { index, res := 1, free := fbFree m m.xb.holds }

/-- The capacity step for holds in order (R40, R57): the first hold, with its index, at which a count is exceeded; read
feeds before frame buffers. -/
def capStep (m : Mach) : List Hold → List (Nat × Hold) → Option CRes
  | _, [] => none
  | hs, (i, h) :: rest =>
    let hs' := hs ++ [h]
    if 2048 < (feedPairs m hs').length ∧ (feedPairs m hs).length < (feedPairs m hs').length then
      some (.refuse sCapacity { index := i, res := 2, free := feedsFree m m.xb.holds })
    else if 4096 < fbHeld m hs' + iceTotal m ∧ fbHeld m hs < fbHeld m hs' then some (fbShort m i)
    else capStep m hs' rest

/-- Give every pair that newly needs one the lowest-numbered free read feed (R39), its counters at 0 (R109). -/
def assignFeeds (m : Mach) : Mach :=
  (feedPairs m m.xb.holds).foldl (fun m sp =>
    if m.is_.feeds.any fun x => x.2.valid && x.2.src == sp.1 && x.2.plane == sp.2 then m
    else match (List.range 2048).find? fun f => !(tget {} m.is_.feeds f).valid with
      | some f =>
        let onAir := m.xb.air.any fun x => x.2.src == sp.1 && x.2.plane == sp.2
        let e : Feed := { valid := true, src := sp.1, plane := sp.2, since := if onAir then 0 else target m sp.2 }
        { m with is_ := { m.is_ with feeds := tset m.is_.feeds f e } }
      | none => m) m

/-- The feed of a pair, if it holds one. -/
def feedOf (m : Mach) (s p : Nat) : Option Nat :=
  (m.is_.feeds.find? fun x => x.2.valid && x.2.src == s && x.2.plane == p).map (·.1)

/-- Return the read feeds that no hold needs any more (R41). -/
def dropFeeds (m : Mach) : Mach :=
  let need := feedPairs m m.xb.holds
  let keep (_ : Nat) (f : Feed) : Feed := if f.valid && !need.contains (f.src, f.plane) then {} else f
  { m with is_ := { m.is_ with feeds := tmap keep m.is_.feeds } }

/-- A route leaves: its holds that have no end yet end at a switch point (R41). -/
def endHolds (hs : List Hold) (d p t : Nat) : List Hold :=
  hs.map fun h => if h.dest = d ∧ h.out = none then { h with out := some (p, t) } else h

/-- Put an effect on a plane's switch point. -/
def pend (m : Mach) (ep p t : Nat) (e : Eff) : Mach :=
  { m with xb := { m.xb with pend := m.xb.pend ++ [{ epoch := ep, plane := p, target := t, eff := e }] } }

/-- A destination has a binding to a plane that waits for its switch point (R45). -/
def pendingOn (m : Mach) (p d : Nat) : Bool :=
  m.xb.pend.any fun e => match e.eff with
    | .bind x q _ _ => x == d && q == p
    | _ => false

/-- The same effect on every plane at its own switch point (R103). -/
def pendAll (m : Mach) (ep : Nat) (e : Eff) : Mach := (List.range 16).foldl (fun m p => pend m ep p (target m p) e) m

/-- A ROUTE_ON_AIR report to come (R55). -/
def report (m : Mach) (ep ses p t : Nat) (dests : List Nat) : Mach :=
  { m with xb := { m.xb with airing := m.xb.airing ++ [{ epoch := ep, ses, plane := p, target := t, dests }] } }

/-! ### Paths and route-table entries (R36, R42, R74, R81) -/

/-- The path by which a source reaches a plane's destinations: 0 black and silence, 1 direct feed, 2 read feed. -/
def pathOf (m : Mach) (s p : Nat) : Nat :=
  if s < 2304 then
    let x := pair m s p
    match x.cls with
    | 1 => 0
    | 3 => if !x.sync && x.sticky then 2 else 1
    | _ => if x.sync then 0 else 2
  else if isCmp s then (if (cmpr m (s - 2304)).com.plane = p then 1 else 2)
  else if isGen s then 1 else 0

/-- The route-table entry of what a destination carries (R74). -/
def rtEntry (m : Mach) (a : Air) : RtEntry :=
  let feed := match pathOf m a.src a.plane with
    | 1 => a.src
    | 2 => if a.cold then 8191 else ((feedOf m a.src a.plane).map (2400 + ·)).getD 8191
    | _ => 8191
  { valid := decide (a.src < 2400), plane := a.plane, feed }

/-- The session that holds an expert load of a plane (R61); with `me`, one other than that session. -/
def loadedBy (m : Mach) (p : Nat) (me : Option Nat) : Option Nat :=
  (m.xb.loads.find? fun l => l.plane == p && some l.ses != me).map (·.ses)

/-! ### Channel numbering (R249, R250) -/

/-- The domain rate in Hz, and sample periods in a block. -/
def fs (m : Mach) : Nat := if m.aud.rate = 0 then 48000 else 96000
def blockLen (m : Mach) : Nat := if m.aud.rate = 0 then 16 else 32

/-- Channels in each space. -/
def chanCount (m : Mach) : Nat := if m.aud.rate = 0 then 65536 else 32768

/-- A base or a size of the table of R250, halved at 96 kHz. -/
def atRate (m : Mach) (n : Nat) : Nat := if m.aud.rate = 0 then n else n / 2

/-- Base and size of a source's channel group; the none source has no channels. -/
def srcGroup (m : Mach) (s : Nat) : Nat × Nat :=
  if s < 1152 then (atRate m (32 * s), atRate m 32)
  else if s < 2304 then (atRate m (36864 + 16 * (s - 1152)), atRate m 16)
  else if s < 2336 then (atRate m (55296 + 16 * (s - 2304)), atRate m 16)
  else if s < 2400 then (atRate m (55808 + 16 * (s - 2336)), atRate m 16)
  else (0, 0)

/-- Base and size of a destination's audio channel group. -/
def destGroup (m : Mach) (d : Nat) : Nat × Nat :=
  if d < 1152 then (atRate m (32 * d), atRate m 32) else (atRate m (36864 + 16 * (d - 1152)), atRate m 16)

/-- Base and size of an audio port's input and output groups. -/
def portIn (m : Mach) (n : Nat) : Nat × Nat := (atRate m (56832 + 32 * n), atRate m 32)
def portOut (m : Mach) (n : Nat) : Nat × Nat := (atRate m (55296 + 32 * n), atRate m 32)

/-- The source whose group holds an input channel. -/
def chanSource (m : Mach) (ch : Nat) : Option Nat :=
  if ch < atRate m 36864 then some (ch / atRate m 32)
  else if ch < atRate m 55296 then some (1152 + (ch - atRate m 36864) / atRate m 16)
  else if ch < atRate m 55808 then some (2304 + (ch - atRate m 55296) / atRate m 16)
  else if ch < atRate m 56832 then some (2336 + (ch - atRate m 55808) / atRate m 16)
  else none

/-- The destination whose group holds an output channel. -/
def chanDest (m : Mach) (o : Nat) : Option Nat :=
  if o < atRate m 36864 then some (o / atRate m 32)
  else if o < atRate m 55296 then some (1152 + (o - atRate m 36864) / atRate m 16)
  else none

/-- The layouts behind the latest one whose switch point has come, and that one: what was committed before it is past. -/
def latchFrom (m : Mach) : List (Nat × Nat × Layout) → Option Layout × List (Nat × Nat × Layout)
  | [] => (none, [])
  | x :: rest =>
    match latchFrom m rest with
    | (some l, r) => (some l, r)
    | (none, _) => if x.2.1 < (plane m x.1).nextSw then (some x.2.2, rest) else (none, x :: rest)

/-- A compositor's layout in force at this instant (R223): the latest whose switch point has come, on its plane. -/
def latchLayout (m : Mach) (c : Cmp) : Layout × List (Nat × Nat × Layout) :=
  let r := latchFrom m c.pend
  (r.1.getD c.lat.layout, r.2)

/-- The plane a compositor is on at this instant. -/
def cmpPlane (m : Mach) (k : Nat) : Nat := (latchLayout m (cmpr m k)).1.plane

/-- The cluster of an output channel, and its core of the 128 (R257). -/
def cluster (m : Mach) (o : Nat) : Nat := o / atRate m 4096
def coreOf (m : Mach) (o : Nat) : Nat := o / atRate m 512

/-- The session whose open AUD_BANK_LOAD has written a position of one of the output channels from `o` on (R277). -/
def mixLoader (m : Mach) (o n : Nat) : Option Nat :=
  (m.aud.loads.find? fun l => l.written.any fun x => decide (32 * o ≤ x.1) && decide (x.1 < 32 * (o + n))).map (·.ses)

end Sys2Proof.Machine
end

