-- ==== Sys2Proof/Machine/Routes.lean ====
section
/-! DEFINITION. The route, plane, source and destination commands (R46 to R62, R66 to R68, R103, R104, R431, R432). -/
namespace Sys2Proof.Machine

/-- A CRes that ends with the epoch alone. -/
def CRes.done (m : Mach) : CRes := .commit m []

/-! ### Takes (R40, R47 to R50) -/

/-- Audio source a take gives, if it names audio: at a PASS destination the audio goes with the video (R49). -/
def TakeRec.audio (t : TakeRec) : Option Nat :=
  match t.mode with
  | 0 => some t.src
  | 2 => some t.src
  | 3 => some t.asrc
  | _ => none

/-- Video source a take gives, if it names video. -/
def TakeRec.video (t : TakeRec) : Option Nat := if t.mode = 2 then none else some t.src

/-- A source a take may name for a destination's plane: in range, its slot there, a generator on its own plane (R9, R32,
R36). -/
def takeSrcOk (m : Mach) (p s : Nat) : Bool :=
  (decide (s < 2400) || s == 4095) && slotExists m s && (!isGen s || (gen m (s - 2336)).plane == p)

/-- Step 1 of R40 for one take. -/
def takeArgOk (m : Mach) (t : TakeRec) : Bool :=
  let p := (dest m t.dest).plane
  decide (t.dest < 2304) && t.rsvd == 0 && takeSrcOk m p t.src &&
    (if t.mode = 3 then takeSrcOk m p t.asrc else t.asrc == 0) &&
    ((dest m t.dest).amode == 0 || t.mode == 0)

/-- A take names a destination again for what an earlier one named (R48). -/
def repeats (earlier : List TakeRec) (t : TakeRec) : Bool :=
  earlier.any fun u => u.dest == t.dest && ((u.video.isSome && t.video.isSome) || (u.audio.isSome && t.audio.isSome))

/-- The index of the first take that fails step 1. -/
def badTake (m : Mach) : List TakeRec → List TakeRec → Option Nat
  | _, [] => none
  | seen, t :: ts => if takeArgOk m t && !repeats seen t then badTake m (seen ++ [t]) ts else some seen.length

/-- Step 2 of R40: the first take that a protection or an open load of another session forbids (R46, R61). -/
def ownedTake (m : Mach) (me : Option Nat) (ts : List TakeRec) : Option CRes :=
  ts.zipIdx.findSome? fun x =>
    let d := dest m x.1.dest
    match d.prot with
    | some s => if some s = me then none else some (.refuse sOwner { index := x.2, okind := 1, oid := s })
    | none => none

/-- The first take whose plane an expert load holds (R61); `me` is the session of the load whose own swap this is. -/
def lockedTake (m : Mach) (me : Option Nat) (ts : List TakeRec) : Option CRes :=
  ts.zipIdx.findSome? fun x =>
    (loadedBy m (dest m x.1.dest).plane me).map fun s => .refuse sConflict { index := x.2, okind := 1, oid := s }

/-- The first take with audio to an EMBED destination whose channel group an open mix load has written (R277). -/
def mixLocked (m : Mach) (ts : List TakeRec) : Option CRes :=
  ts.zipIdx.findSome? fun x =>
    if x.1.audio.isSome ∧ (dest m x.1.dest).amode = 0 then
      (mixLoader m (destGroup m x.1.dest).1 (destGroup m x.1.dest).2).map fun s =>
        .refuse sConflict { index := x.2, okind := 1, oid := s }
    else none

/-- What a take's route will hold, once it is committed. -/
def takeHold (m : Mach) (t : TakeRec) : Hold := { dest := t.dest, src := t.src, plane := (dest m t.dest).plane }

/-- Commit one take: the destination's committed state, its holds, and the effect at its plane's switch point. -/
def putTake (ep : Nat) (m : Mach) (t : TakeRec) : Mach :=
  let p := (dest m t.dest).plane
  let k := target m p
  let m := setDest m t.dest fun d =>
    { d with src := t.video.getD d.src, vswc := if t.video.isSome then some k else d.vswc,
             asrc := t.audio.getD d.asrc, aswc := if t.audio.isSome then some k else d.aswc }
  let m := if t.video.isSome then
      { m with xb := { m.xb with holds := endHolds m.xb.holds t.dest p k ++ [takeHold m t] } } else m
  pend m ep p k (.route t.dest t.video t.audio t.ramp)

/-- The mask of planes a list of destinations touches, and of those whose next cut-off has passed (R58). -/
def planeMask (m : Mach) (ds : List Nat) : Nat :=
  mask ((List.range 16).map fun p => ds.any fun d => (dest m d).plane == p)
def lateMask (m : Mach) (ds : List Nat) : Nat :=
  mask ((List.range 16).map fun p => (plane m p).cut && ds.any fun d => (dest m d).plane == p)

/-- Reports to come, one for each plane the change set names a destination on (R55). -/
def reports (m : Mach) (ep : Nat) (ses : Nat) (ds : List Nat) : Mach :=
  (List.range 16).foldl (fun m p =>
    let on := ds.filter fun d => (dest m d).plane == p
    if on.isEmpty then m else report m ep ses p (target m p) on) m

/-- Commit a list of takes as one change set: the four steps of R40, in order, then all of them together. -/
def commitTakes (c : CCtx) (swapper : Option Nat) (ts : List TakeRec) (expected : Nat) (m : Mach) : CRes :=
  match badTake m [] ts with
  | some i => .refuse sArg { index := i }
  | none =>
    match ownedTake m c.ses ts with
    | some r => r
    | none =>
      match (lockedTake m swapper ts).or (mixLocked m ts) with
      | some r => r
      | none =>
        if expected ≠ 0 ∧ expected ≠ m.xb.epoch then .refuse sStale { value := m.xb.epoch }
        else
          let hs := ts.zipIdx.filterMap fun x => if x.1.video.isSome then some (x.2, takeHold m x.1) else none
          match capStep m m.xb.holds hs with
          | some r => r
          | none =>
            let ds := ts.map (·.dest)
            let items := [.instant m.dt.t, .h (planeMask m ds), .h (lateMask m ds)]
            let m' := ts.foldl (putTake c.ep) m
            .commit (assignFeeds (reports m' c.ep (c.ses.getD 0) ds)) items

/-- TAKE (R47). -/
def commitTake (c : CCtx) (rec expected : Nat) (m : Mach) : CRes := commitTakes c none [takeRec rec] expected m

/-- SALVO (R57, R58): the takes are the copied list. -/
def commitSalvo (c : CCtx) (count rsvd expected : Nat) (m : Mach) : CRes :=
  if count < 1 ∨ 4096 < count ∨ rsvd ≠ 0 then .arg else commitTakes c none (takeRecs count c.data) expected m

/-! ### Queries (R23, R24, R60) -/

/-- The destinations' committed state at an epoch: the current one, or one of the 255 before it. -/
def destsAt (m : Mach) (ep : Nat) : Option (Tab Dest) :=
  if ep = m.xb.epoch then some m.xb.dests
  else if ep + 255 < m.xb.epoch then none
  else (m.xb.history.find? fun r => r.epoch == ep).map (·.dests)

/-- A switch point count still lies in the future on a plane. -/
def future (m : Mach) (p t : Nat) : Bool := decide ((plane m p).nextSw ≤ t)

/-- The 16-byte record of a destination (R60). -/
def routeRecord (m : Mach) (d : Nat) (x : Dest) : List Byte :=
  le 8 (d * 2 ^ 52 + x.src * 2 ^ 40 + x.asrc * 2 ^ 28 + x.plane * 2 ^ 24 + x.amode * 2 ^ 23
      + b2n (x.vswc.any (future m x.plane)) * 2 ^ 22 + b2n (x.aswc.any (future m x.plane)) * 2 ^ 21
      + b2n x.prot.isSome * 2 ^ 20 + x.prot.getD 0 * 2 ^ 14)
    ++ le 8 (x.vswc.getD 0 % 2 ^ 32 * 2 ^ 32 + x.aswc.getD 0 % 2 ^ 32)

/-- ROUTE_QUERY (R60). -/
def askRouteQuery (ses epoch first count off : Nat) (m : Mach) : QRes :=
  if !destRangeOk first count then .arg
  else
    let ep := if epoch = 0 then m.xb.epoch else epoch
    if m.xb.epoch < ep then .arg
    else match destsAt m ep with
      | none => .refuse sStale { value := m.xb.epoch }
      | some ds =>
        let bs := (span first count).foldr (fun d a => routeRecord m d (tget {} ds d) ++ a) []
        .answer (putSalvo m ses off bs) sOk [.q ep, .i count]

/-! ### Protection (R46, R68) -/

/-- A session other than `me` protects a destination of the range. -/
def protector (m : Mach) (me : Option Nat) (first count : Nat) : Option Nat :=
  (span first count).findSome? fun d => match (dest m d).prot with
    | some s => if some s = me then none else some s
    | none => none

/-- An open load holds a plane of the range's destinations (R61): its own session's other change sets are refused too. -/
def rangeLocked (m : Mach) (first count : Nat) : Option Nat :=
  (span first count).findSome? fun d => loadedBy m (dest m d).plane none

/-- Protection of a range. -/
def setProt (m : Mach) (first count : Nat) (o : Option Nat) : Mach :=
  (span first count).foldl (fun m d => setDest m d fun x => { x with prot := o }) m

/-- PROTECT (R46). -/
def commitProtect (c : CCtx) (first count rel : Nat) (m : Mach) : CRes :=
  if !destRangeOk first count ∨ 1 < rel then .arg
  else match protector m c.ses first count with
    | some s => .refuse sOwner { okind := 1, oid := s }
    | none =>
      match rangeLocked m first count with
      | some s => .conflict 1 s
      | none => .done (setProt m first count (if rel = 0 then c.ses else none))

/-- FORCE_RELEASE (R46). -/
def commitForceRelease (first count : Nat) (m : Mach) : CRes :=
  if !destRangeOk first count then .arg
  else match rangeLocked m first count with
    | some s => .conflict 1 s
    | none => .done (setProt m first count none)

/-! ### Expert loads (R61, R62) -/

/-- The entries of a load must be FOLLOW takes of the plane's destinations; the index of the first that is not. -/
def badEntry (m : Mach) (p : Nat) (ts : List TakeRec) : Option Nat :=
  ts.zipIdx.findSome? fun x =>
    if takeArgOk m x.1 && x.1.mode == 0 && (dest m x.1.dest).plane == p then none else some x.2

/-- The load of a plane that a session holds. -/
def loadOf (m : Mach) (p s : Nat) : Option BankLoad := m.xb.loads.find? fun l => l.plane == p && l.ses == s

/-- Write entries into a session's load and into the plane's background bank (R61, R74). Of entries that name one destination,
in one command or in several, the last stands (Assumption 17). -/
def putEntries (m : Mach) (p s : Nat) (ds : List Byte) (n : Nat) : Mach :=
  let ws := (List.range n).map fun i => fld ds (8 * i) 8
  let bg := ws.foldl (fun t w => tset t (takeRec w).dest (rtEntry m { plane := p, src := (takeRec w).src })) m.xb.bg
  { m with xb := { m.xb with bg, loads := m.xb.loads.map fun l => if l.plane = p ∧ l.ses = s then
      { l with entries := ws.foldl (fun t w => tset t (takeRec w).dest w) l.entries } else l } }

/-- The load's entries as bytes, as a BANK_SWAP's journal entry holds them. -/
def loadBytes (l : BankLoad) : List Byte := l.entries.flatMap fun x => le 8 x.2

/-- A BANK_SWAP of the plane has been accepted and waits: it closes the load (R62). -/
def swapWaits (m : Mach) (p : Nat) : Bool := m.ctl.journal.any fun e => e.st == 0 && e.cmd == .bankSwap p

/-- A session's open loads of the planes that `p` holds of are abandoned (R61, R418). A swap that waits for one is left
without its load. -/
def abandonBanks (m : Mach) (ses : Nat) (p : Nat → Bool) : Mach :=
  let gone := (m.xb.loads.filter fun l => l.ses == ses && p l.plane).map (·.plane)
  let m := { m with xb := { m.xb with loads := m.xb.loads.filter fun l => !(l.ses == ses && p l.plane) } }
  let m := gone.foldl (fun m q => setPlane m q fun x => { x with ready := false }) m
  recordReady m fun c => match c with
    | .bankSwap q => gone.contains q
    | _ => false

/-- BANK_LOAD (R61): 0 open and write, 1 write only, 2 abandon. -/
def askBankLoad (ses plane act count off : Nat) (m : Mach) : QRes :=
  let data := salvo m ses off (8 * count)
  let ts := takeRecs count data
  if 15 < plane ∨ 2 < act then .arg
  else match loadedBy m plane (some ses) with
    | some s => .conflict 1 s
    | none =>
      if act = 2 then
        if (loadOf m plane ses).isSome then .answer (abandonBanks m ses fun p => p == plane) sOk []
        else .conflict 0 0
      else if act = 0 ∧ (loadOf m plane ses).isSome then .conflict 1 ses
      else if act = 1 ∧ ((loadOf m plane ses).isNone ∨ swapWaits m plane) then .conflict 0 0
      else match badEntry m plane ts with
        | some i => .refuse sArg { index := i }
        | none =>
          match ownedTake m (some ses) ts with
          | some (.refuse st r) => .refuse st r
          | _ =>
            let m := if act = 0 then
                setPlane { m with xb := { m.xb with loads := m.xb.loads ++ [{ plane, ses }] } } plane
                  fun x => { x with ready := false } else m
            .answer (putEntries m plane ses data count) sOk []

/-- BANK_SWAP (R62): commits the loaded routes once the bank is whole. A claimant, which holds no load, commits those that the
journal entry holds (R26, R56). -/
def commitBankSwap (c : CCtx) (p : Nat) (m : Mach) : CRes :=
  if 15 < p then .arg
  else match loadedBy m p c.ses with
    | some s => .conflict 1 s
    | none =>
      match m.xb.loads.find? fun l => l.plane == p with
      | none => if c.replay then go (takeRecs (c.data.length / 8) c.data) else .conflict 0 0
      | some l => if !(plane m p).ready then .wait m else go (l.entries.map fun x => takeRec x.2)
where
  /-- The routes are committed as one change set; the load is closed. -/
  go (ts : List TakeRec) : CRes :=
    match commitTakes c c.ses ts 0 m with
    | .commit m' _ =>
      .commit { m' with xb := { m'.xb with loads := m'.xb.loads.filter fun l => l.plane != p } } [.w (target m p % 2 ^ 32)]
    | r => r

/-! ### Planes (R15, R16, R19, R431) -/

/-- A compositor is bound to a plane: by its committed layout, by one that waits for its switch point, or by the one it runs
from. -/
def cmpBoundTo (c : Cmp) (p : Nat) : Bool := c.com.plane == p || c.lat.layout.plane == p || c.pend.any fun x => x.1 == p

/-- What is bound to a plane, committed or still on it until a switch point, in the order of R19. -/
def boundTo (m : Mach) (p : Nat) : Option (Nat × Nat) :=
  match lowDest fun d => (dest m d).plane == p || (air m d).plane == p || pendingOn m p d with
  | some d => some (2, d)
  | none =>
    match (List.range 32).find? fun k => cmpBoundTo (cmpr m k) p with
    | some k => some (5, k)
    | none => ((List.range 64).find? fun g => (gen m g).plane == p || (genNow m g).plane == p).map fun g => (21, g)

/-- PLANE_CFG (R15, R16, R19): the new timing's first switch point comes more than one frame later, so a switch line and a
cut-off committed before are in force from it. -/
def commitPlaneCfg (p raster scan rate phLines phSamples : Nat) (m : Mach) : CRes :=
  let f : Fmt := { raster, scan, rate }
  let x := plane m p
  if 15 < p ∨ !fmtOk f ∨ totalLines f ≤ phLines ∨ totalSamples f ≤ phSamples ∨ !swLineOk f x.swLine ∨
      !cutoffOk f x.cutoff then .arg
  else if x.fmt = f ∧ x.phLines = phLines ∧ x.phSamples = phSamples then .done m
  else match boundTo m p with
    | some (k, o) => .conflict k o
    | none => .done (setPlane m p fun x =>
        { x with fmt := f, phLines, phSamples, cut := false, staging := false, swLineNow := x.swLine, cutoffNow := x.cutoff,
                 applyAt := min x.applyAt x.nextSw })

/-- PLANE_SWITCH (R15, R16): in force from the first switch point more than one frame after the commit. -/
def commitPlaneSwitch (p line cutoff : Nat) (m : Mach) : CRes :=
  if 15 < p ∨ !swLineOk (plane m p).fmt line ∨ !cutoffOk (plane m p).fmt cutoff then .arg
  else .done (setPlane m p fun x => { x with swLine := line, cutoff, applyAt := x.nextSw + 1 })

/-- PLANE_STATUS (R431). -/
def askPlaneStatus (p : Nat) (m : Mach) : QRes :=
  if 15 < p then .arg
  else
    let x := plane m p
    let bound := ((List.range 2304).filter fun d => (dest m d).plane == p).length
    .answer m sOk
      [.q m.xb.epoch, .b p, .b x.fmt.raster, .b x.fmt.scan, .b x.fmt.rate, .h x.phLines, .h x.phSamples,
       .h (swLineOf x.fmt x.swLine), .b (b2n (x.swLine == 0)), .b 0, .i x.cutoff, .w (swcnt m p), .h bound,
       .h (swLineOf x.fmt x.swLineNow), .i x.cutoffNow, .w (x.applyAt % 2 ^ 32), .raw 1 (le 8 0)]

/-! ### Destinations and generators (R35, R45, R49, R432) -/

/-- Rebind one destination (R45). One that is bound to the plane already keeps its switch counts, and at the switch point
nothing changes on air but the epoch it carries; it counts in the change set's report (Assumption 19). -/
def putBind (ep p : Nat) (m : Mach) (d : Nat) : Mach :=
  let x := dest m d
  let k := target m p
  let m := if x.plane = p then m else
    { m with xb := { m.xb with holds := endHolds m.xb.holds d p k ++ [{ dest := d, src := x.src, plane := p }] } }
  let m := setDest m d fun y => if y.plane = p then y else { y with plane := p, vswc := some k, aswc := some k }
  pend m ep p k (.bind d p x.src x.asrc)

/-- DEST_BIND (R45). -/
def commitDestBind (c : CCtx) (first count p : Nat) (m : Mach) : CRes :=
  if !destRangeOk first count ∨ 15 < p then .arg
  else match rangeLocked m first count with
    | some s => .conflict 1 s
    | none =>
      let badGen (s : Nat) : Bool := isGen s && (gen m (s - 2336)).plane != p
      match (span first count).findSome? fun d =>
        if badGen (dest m d).src then some ((dest m d).src - 2336)
        else if badGen (dest m d).asrc then some ((dest m d).asrc - 2336) else none with
      | some g => .conflict 21 g
      | none =>
        let hs := (span first count).filterMap fun d =>
          if (dest m d).plane = p then none else some (0xFFFF, ({ dest := d, src := (dest m d).src, plane := p } : Hold))
        match capStep m m.xb.holds hs with
        | some r => r
        | none =>
          let m' := (span first count).foldl (putBind c.ep p) m
          .done (assignFeeds (report m' c.ep (c.ses.getD 0) p (target m p) (span first count)))

/-- DEST_AUDIO (R49). -/
def commitDestAudio (c : CCtx) (first count mode : Nat) (m : Mach) : CRes :=
  if !destRangeOk first count ∨ 1 < mode ∨ (mode = 1 ∧ 1152 < first + count) then .arg
  else match rangeLocked m first count with
    | some s => .conflict 1 s
    | none =>
      let m' := (span first count).foldl (fun m d =>
        let p := (dest m d).plane
        pend (setDest m d fun x => { x with amode := mode }) c.ep p (target m p) (.amode d mode)) m
      .done (reports m' c.ep (c.ses.getD 0) (span first count))

/-- The lowest-numbered compositor with an enabled window on a source. -/
def windowOn (m : Mach) (s : Nat) : Option Nat :=
  (List.range 32).find? fun k => (cmpr m k).com.wins.any fun w => w.2.src == s

/-- GEN_CFG (R35). -/
def commitGenCfg (c : CCtx) (g p pattern audio y cb cr : Nat) (m : Mach) : CRes :=
  if 63 < g ∨ (15 < p ∧ p ≠ 255) ∨ 3 < pattern ∨ 1 < audio ∨ 1023 < y ∨ 1023 < cb ∨ 1023 < cr then .arg
  else
    let q := if p = 255 then (gen m g).plane else p
    let v : Gen := { plane := q, pattern, tone := audio == 1, y, cb, cr }
    let go := CRes.done (pend { m with xb := { m.xb with gens := tset m.xb.gens g v } } c.ep q (target m q) (.gen g v))
    if q = (gen m g).plane then go
    else match lowDest fun d => (dest m d).src == 2336 + g || (dest m d).asrc == 2336 + g with
      | some d => .conflict 2 d
      | none =>
        match windowOn m (2336 + g) with
        | some k => .conflict 5 k
        | none => go

/-! ### Source input commands (R42, R44, R78, R92, R103, R104) -/

/-- Planes on which a source has a route: a committed destination or a window. -/
def routedOn (m : Mach) (s p : Nat) : Bool :=
  m.xb.dests.any (fun x => x.2.src == s && x.2.plane == p) ||
    m.cmp.cmps.any fun x => x.2.com.plane == p && x.2.com.wins.any fun w => w.2.src == s

/-- SRC_MODE (R42). -/
def commitSrcMode (c : CCtx) (s mode flags hold : Nat) (m : Mach) : CRes :=
  if 2303 < s ∨ 1 < mode ∨ 1 < flags ∨ 255 < hold then .arg
  else match (List.range 16).find? fun p => mode == 1 && routedOn m s p &&
      ((pair m s p).cls == 2 || (pair m s p).cls == 0) with
    | some p => .refuse sArg { okind := 4, oid := p }
    | none =>
      let m1 := setSrc m s fun x => { x with mode, sticky := flags == 1, lossHold := hold }
      let mine := m.xb.holds.filter fun h => h.src == s
      let m2 := if (srcOf m s).mode = 1 ∧ mode = 0 then m1 else m
      match (if mode = 0 then capStep m2 (m.xb.holds.filter fun h => h.src != s) (mine.map fun h => (0xFFFF, h)) else none) with
      | some r => r
      | none => .done (assignFeeds (pendAll m1 c.ep (.srcMode s mode flags hold)))

/-- SRC_WARM (R44). -/
def commitSrcWarm (c : CCtx) (s on : Nat) (m : Mach) : CRes :=
  if 2303 < s ∨ 1 < on ∨ (srcOf m s).mode = 1 then .arg
  else
    let off (x : Src) : List Nat := if on = 1 then [] else if x.warm then List.range 16 else x.warmOff
    let m1 := setSrc m s fun x => { x with warm := on == 1, warmOff := off x }
    if 4096 < fbHeld m1 m1.xb.holds + iceTotal m1 ∧ fbHeld m m.xb.holds < fbHeld m1 m1.xb.holds then fbShort m 0xFFFF
    else .done (pendAll m1 c.ep (.srcWarm s (on == 1)))

/-- A source's group, whole. -/
def setGroup (g : List Nat) (m : Mach) (s : Nat) : Mach :=
  setSrc m s fun x => { x with group := g, gbroken := false, gcount := 0 }

/-- SRC_GROUP (R92). -/
def commitSrcGroup (c : CCtx) (size a b d e : Nat) (m : Mach) : CRes :=
  if size = 0 then
    let g := (srcOf m a).group
    if 2303 < a ∨ g.isEmpty ∨ (srcOf m a).mode = 1 then .arg
    else
      let m1 := g.foldl (setGroup []) m
      let m1 := g.foldl (fun m s => endCond m s 0x17) m1
      .done (pendAll m1 c.ep (.srcGroup g false))
  else
    let ms := if size = 2 then [a, b] else [a, b, d, e]
    let f := (srcOf m a).fmt
    if (size ≠ 2 ∧ size ≠ 4) ∨ (size = 2 ∧ (d ≠ 4095 ∨ e ≠ 4095)) ∨ !ms.Nodup ∨
        ms.any (fun s => decide (2303 < s) || (srcOf m s).mode == 1 || !(srcOf m s).group.isEmpty || (srcOf m s).fmt != f)
    then .arg
    else
      let g := ms.mergeSort
      let m1 := g.foldl (setGroup g) m
      .done (pendAll m1 c.ep (.srcGroup g true))

/-- SRC_WINDOW (R78). -/
def commitSrcWindow (c : CCtx) (s w qc : Nat) (m : Mach) : CRes :=
  if 2303 < s ∨ (w ≠ 0 ∧ (w < 2 ∨ 80 < w)) ∨ qc < 4 ∨ 64 < qc then .arg
  else .done (pendAll (setSrc m s fun x => { x with wSet := w, qSet := qc }) c.ep (.srcWindow s w qc))

/-- IS_SRC_STAT (R107). -/
def srcStat (m : Mach) (s : Nat) : Nat :=
  mask ((List.range 16).map fun p => (pair m s p).cls == 3) * 2 ^ 16 + b2n (srcOf m s).gbroken * 4
    + b2n ((bufSources m m.xb.holds).contains s) * 2 + b2n (srcOf m s).present

/-- IS_SRC_FMT (R107). -/
def srcFmtWord (f : SrcFmt) : Nat :=
  f.scan * 2 ^ 30 + f.rate * 2 ^ 26 + f.rclass * 2 ^ 24 + f.samples % 4096 * 2 ^ 12 + f.lines % 4096

/-- IS_SRC_FMT of a source: unknown while it is not present. -/
def srcFmtReg (m : Mach) (s : Nat) : Nat := srcFmtWord (if (srcOf m s).present then (srcOf m s).fmt else {})

/-- SRC_STATUS (R104). -/
def askSrcStatus (s : Nat) (m : Mach) : QRes :=
  if 2303 < s then .arg
  else .answer m sOk [.w (srcStat m s), .w (srcFmtReg m s),
    .w ((List.range 16).foldl (fun a p => a + (pair m s p).cls * 4 ^ p) 0)]

end Sys2Proof.Machine
end

