-- ==== Sys2Proof/Machine/Sdi.lean ====
section
/-! DEFINITION. The serial line of SMPTE: ancillary packets, the payload identifier, embedded audio, and the line with its
timing references and CRC words (R34, R95, R100, R101, R194, R261, R263). The layouts are the standards' (Assumption 9). -/
namespace Sys2Proof.Machine

/-! ### Ancillary packets (SMPTE ST 291-1) -/

/-- Parity of the low `n` bits. -/
def oddBits (n v : Nat) : Bool := (members n v).length % 2 == 1

/-- A user data word: eight bits, even parity in bit 8 and its complement in bit 9. -/
def udw (v : Nat) : Nat := let b := v % 256; if oddBits 8 b then b + 256 else b + 512

/-- Nine bits of payload, bit 9 the complement of bit 8. -/
def nine (v : Nat) : Nat := let b := v % 512; if 256 ≤ b then b else b + 512

/-- The checksum word: the low nine bits summed. -/
def ancSum (ws : List Nat) : Nat := nine (ws.foldl (fun a w => a + w % 512) 0)

/-- A packet from DID, SDID or DBN, and user words: DID to checksum. -/
def ancPacket (did sdid : Nat) (us : List Nat) : List Nat :=
  let ws := [udw did, udw sdid, udw us.length] ++ us
  ws ++ [ancSum ws]

/-- User words of a packet. -/
def ancUser (a : Anc) : List Nat := (a.words.drop 3).take (lget 0 a.words 2 % 256)

/-- DID and SDID of a packet. -/
def ancDid (a : Anc) : Nat := lget 0 a.words 0 % 256
def ancSdid (a : Anc) : Nat := lget 0 a.words 1 % 256

/-- A packet of ST 299-1 or ST 299-2 by its DID. -/
def isAudioAnc (a : Anc) : Bool :=
  let did := ancDid a
  (decide (0xE0 ≤ did) && decide (did ≤ 0xE7)) || (decide (0xA0 ≤ did) && decide (did ≤ 0xA7))

/-! ### The payload identifier (SMPTE ST 352) -/

/-- Picture rate code of ST 352 for an IS_SRC_FMT rate. -/
def pidRate (r : Nat) : Nat := lget 0 [2, 3, 5, 6, 7, 4, 8, 9, 10, 11] r

/-- Version byte of a format's interface. -/
def pidVersion (f : Fmt) : Nat :=
  match f.raster with
  | 0 => 0x84
  | 1 => if fmtClass f = 1 then 0x89 else 0x85
  | _ => if fmtClass f = 3 then 0xCE else 0xC0

/-- Scan byte: bit 7 progressive transport, bit 6 progressive picture, bits 3 to 0 the picture rate. -/
def pidScan (f : Fmt) : Nat := (if f.scan = 0 then 0xC0 else if f.scan = 2 then 0x40 else 0) + pidRate f.rate

/-- The payload identifier packet of a format. -/
def pidPacket (f : Fmt) : List Nat :=
  ancPacket 0x41 0x01 [udw (pidVersion f), udw (pidScan f), udw (if f.raster = 1 then 0x80 else 0), udw 1]

/-- Lines that carry the payload identifier. -/
def pidLines (f : Fmt) : List Nat := if f.scan = 0 then [10] else [10, 572]

/-- The packet is a payload identifier; its scan byte. -/
def pidOf (as : List Anc) : Option Nat :=
  (as.find? fun a => ancDid a == 0x41 && ancSdid a == 1).map fun a => lget 0 (ancUser a) 1 % 256

/-! ### Embedded audio (SMPTE ST 299-1, ST 299-2) -/

/-- DID of the data and of the control packet of audio group `g` (0 to 7). -/
def audioDid (g : Nat) : Nat := lget 0 [0xE7, 0xE6, 0xE5, 0xE4, 0xA7, 0xA6, 0xA5, 0xA4] g
def audioCtlDid (g : Nat) : Nat := lget 0 [0xE3, 0xE2, 0xE1, 0xE0, 0xA3, 0xA2, 0xA1, 0xA0] g

/-- One embedded sample: the AES3 bits V, U, C and the block-start flag Z. -/
structure Subframe where
  x : Int := 0
  v : Bool := false
  u : Bool := false
  c : Bool := false
  z : Bool := false
  deriving DecidableEq, Repr

/-- The four data words of a channel: Z and the sample from bit 3 up, V, U, C and even parity at the top. -/
def subframeWords (s : Subframe) : List Nat :=
  let n := b2n s.z * 8 + toBits 24 s.x * 16 + b2n s.v * 2 ^ 28 + b2n s.u * 2 ^ 29 + b2n s.c * 2 ^ 30
  let n := n + b2n (oddBits 27 (n / 16)) * 2 ^ 31
  [udw n, udw (n / 2 ^ 8), udw (n / 2 ^ 16), udw (n / 2 ^ 24)]

/-- Read a channel's four words. -/
def subframeOf (ws : List Nat) : Subframe :=
  let n := (ws.take 4).reverse.foldl (fun a w => 256 * a + w % 256) 0
  { x := ofBits 24 (n / 16), v := bit n 28, u := bit n 29, c := bit n 30, z := bit n 3 }

/-- One word into the six error-correction words, bit lane by bit lane: BCH(31,25), x⁶ + x⁵ + x³ + x² + x + 1. -/
def bchWord (ecc : List Nat) (w : Nat) : List Nat :=
  let fb := (lget 0 ecc 5 ^^^ w) % 256
  [fb, lget 0 ecc 0 ^^^ fb, lget 0 ecc 1 ^^^ fb, lget 0 ecc 2 ^^^ fb, lget 0 ecc 3, lget 0 ecc 4 ^^^ fb]

/-- The error-correction words of an audio data packet, over its 24 words from the data flag. -/
def audioEcc (ws : List Nat) : List Nat := (([0, 0x3FF, 0x3FF] ++ ws).foldl bchWord [0, 0, 0, 0, 0, 0]).map udw

/-- The audio data packet of a group: data block number, audio clock phase, four channels. -/
def audioPacket (g dbn clk : Nat) (ch : List Subframe) : List Nat :=
  let us := [udw clk, udw (clk / 256 % 16 + clk / 4096 % 2 * 32)] ++ (ch.take 4).flatMap subframeWords
  let head := [udw (audioDid g), udw dbn, udw 24]
  ancPacket (audioDid g) dbn (us ++ audioEcc (head ++ us))

/-- A delay word triple of the control packet: 26 bits above its valid flag (R263). -/
def delayWords (d : Nat) : List Nat := (List.range 3).map fun i => nine ((1 + 2 * d) / 2 ^ (9 * i))

/-- The audio control packet of a group (R263): rate, active channels and the two delay words. -/
def audioControl (g frame rate96 delay : Nat) : List Nat :=
  ancPacket (audioCtlDid g) 0
    ([nine frame, udw (if rate96 = 0 then 0 else 8), udw 15] ++ delayWords delay ++ delayWords delay ++ [udw 0, udw 0])

/-- What an audio data packet carries: its group, audio clock phase with the multiplex position flag above it, and four
channels. -/
def audioOf (a : Anc) : Option (Nat × Nat × List Subframe) :=
  match (List.range 8).find? fun g => audioDid g == ancDid a with
  | none => none
  | some g =>
    let us := ancUser a
    if us.length < 18 then none
    else
      let clk := lget 0 us 0 % 256 + lget 0 us 1 % 16 * 256 + lget 0 us 1 / 32 % 2 * 4096 + lget 0 us 1 / 16 % 2 * 8192
      some (g, clk, (List.range 4).map fun k => subframeOf (us.drop (2 + 4 * k)))

/-! ### The serial line (SMPTE ST 292-1, ST 424) -/

/-- Words between the first one after EAV and the first of SAV, both streams. -/
def blankWords (f : Fmt) : Nat := 2 * (totalSamples f - activeSamples f) - 16

/-- The field of a line is the second. -/
def secondField (f : Fmt) (line : Nat) : Bool := f.scan != 0 && decide (563 < line)

/-- The fourth word of a timing reference: field, blanking, EAV, and their protection bits. -/
def xyz (fl v h : Bool) : Nat :=
  let p := b2n (v != h) * 8 + b2n (fl != h) * 4 + b2n (fl != v) * 2 + b2n ((fl != v) != h)
  512 + b2n fl * 256 + b2n v * 128 + b2n h * 64 + p * 4

/-- A timing reference on both streams. -/
def timing (w : Nat) : List Nat := [0x3FF, 0x3FF, 0, 0, 0, 0, w, w]

/-- Two line number words. -/
def lineWords (n : Nat) : List Nat := [nine (n % 128 * 4), nine (n / 128 % 16 * 4)]

/-- One word into the 18-bit line CRC, least significant bit first: x¹⁸ + x⁵ + x⁴ + 1. -/
def crc18 (c w : Nat) : Nat :=
  (List.range 10).foldl (fun c i => let fb := (c + w / 2 ^ i) % 2; (c / 2) ^^^ (if fb = 1 then 0x23000 else 0)) c

/-- Two CRC words. -/
def crcWords (c : Nat) : List Nat := [nine c, nine (c / 512)]

/-- One of the two multiplexed streams: 0 chroma, 1 luma. -/
def streamOf (k : Nat) (ws : List Nat) : List Nat := (ws.zipIdx.filter fun x => x.2 % 2 == k).map (·.1)

/-- Put packets into a line's blanking words: a packet takes alternate words from its position (Assumption 9). -/
def putAncs (ws : List Nat) (as : List Anc) : List Nat :=
  as.foldl (fun ws a =>
    let p := [0, 0x3FF, 0x3FF] ++ a.words
    ws.zipIdx.map fun x => if a.pos ≤ x.2 ∧ (x.2 - a.pos) % 2 = 0 ∧ (x.2 - a.pos) / 2 < p.length then lget x.1 p ((x.2 - a.pos) / 2) else x.1) ws

/-- A serial line: EAV, line number, CRC over what went before, blanking with its packets, SAV, active words; `before` is
the line before's active words, whose CRC this line carries. Both timing references, the line number and the CRC words are
made here (R95). -/
def serialLine (f : Fmt) (line : Nat) (before : List Nat) (l : LineData) : List Nat :=
  let fl := secondField f line
  let act := (lineRow (totalLines f) (activeLines f) f.scan line).isSome
  let n := blankWords f
  let eav := timing (xyz fl (!act) true)
  let ln := (lineWords line).flatMap fun w => [w, w]
  let crc (k : Nat) : List Nat := crcWords ((streamOf k (before ++ eav ++ ln)).foldl crc18 0)
  let mux := ((crc 0).zip (crc 1)).flatMap fun x => [x.1, x.2]
  let body := putAncs ((List.range (n - 8)).map blackWord ++ timing (xyz fl (!act) false) ++
    (if l.words.isEmpty then blackLine (2 * activeSamples f) else l.words)) (l.anc.map fun a => { a with pos := a.pos - 8 })
  eav ++ ln ++ mux ++ body

/-- Packets of a line found in one stream: each data flag begins one; positions are indices in the line's words. -/
def findAncs (k : Nat) : Nat → Nat → List Nat → List Anc
  | 0, _, _ => []
  | fuel + 1, i, ws => match ws with
    | 0 :: 0x3FF :: 0x3FF :: r =>
      let n := lget 0 r 2 % 256 + 4
      if r.length < n then []
      else { pos := 2 * i + k, words := r.take n } :: findAncs k fuel (i + 3 + n) (r.drop n)
    | _ :: r => findAncs k fuel (i + 1) r
    | [] => []

/-- A serial line begins with a valid EAV. -/
def eavOk (ws : List Nat) : Bool := ws.take 6 == [0x3FF, 0x3FF, 0, 0, 0, 0] && bit (lget 0 ws 6) 6

/-- Read a serial line: its active words and its packets, positions counted from the first word after EAV. -/
def lineBody (f : Fmt) (line : Nat) (ws : List Nat) : LineData :=
  let r := ws.drop 8
  let act := (lineRow (totalLines f) (activeLines f) f.scan line).isSome
  let video := r.drop (blankWords f + 8)
  let area := if act then r.take (blankWords f) else r
  let found (k : Nat) : List Anc := let s := streamOf k area; findAncs k s.length 0 s
  { words := if act then video else [], anc := (found 0 ++ found 1).mergeSort fun a b => decide (a.pos ≤ b.pos) }

/-! ### The serial stream in datagrams (SMPTE ST 2022-6) -/

/-- Bits of the serial stream in a datagram (R194). -/
def dgramBits : Nat := 11008

/-- Bits of a serial line. -/
def lineBits (f : Fmt) : Nat := 20 * totalSamples f

/-- `n` words of a frame's serial stream from word `lo` on, each with whether the datagrams that carry it are there. -/
def streamWords (ds : Nat → Option (List Byte)) (lo n : Nat) : List (Nat × Bool) :=
  let i0 := 10 * lo / dgramBits
  let k := (10 * (lo + n) - 1) / dgramBits - i0 + 1
  let v := (List.range k).foldl (fun a i => a * 2 ^ dgramBits + beNat (padTo 0 1376 ((ds (i0 + i)).getD []))) 0
  (List.range n).map fun j =>
    let b := 10 * (lo + j) - dgramBits * i0
    (v / 2 ^ (dgramBits * k - b - 10) % 1024, (ds (i0 + b / dgramBits)).isSome && (ds (i0 + (b + 9) / dgramBits)).isSome)

/-- The payload header of a datagram: frame count, and the format in the standard's codes. -/
def hbrmtHead (f : Fmt) (frames : Nat) : List Byte :=
  let frame := if f.raster = 0 then 0x30 else lget 0x21 [0x21, 0x20, 0x22] f.scan
  let rate := lget 0x10 [0x1B, 0x1A, 0x18, 0x17, 0x16, 0x15, 0x14, 0x12, 0x11, 0x10] f.rate
  be 4 (2 ^ 27 + frames % 256 * 2 ^ 16) ++ be 4 (frame * 2 ^ 20 + rate * 2 ^ 12 + 2 ^ 8)

end Sys2Proof.Machine
end

