-- ==== Sys2Proof/Machine/Inputs.lean ====
section
/-! DEFINITION. The input stages: lines, frames, classes, read decisions, loss and concealment (chapter 03). -/
namespace Sys2Proof.Machine

/-! ### The mode and the group in force (R103) -/

/-- A source is AUTO while its mode in force towards any plane is (Assumption 20). -/
def autoSrc (m : Mach) (s : Nat) : Bool := (List.range 16).any fun p => !(pair m s p).sync

/-- The group of a source: the first in force towards any plane. -/
def groupNow (m : Mach) (s : Nat) : List Nat :=
  (((List.range 16).map fun p => (pair m s p).grp).find? fun g => !g.isEmpty).getD []

/-! ### Windows (R77, R78) -/

/-- Lmin of a source in ns (R64, R77). -/
def leadMin (m : Mach) (s : Nat) : Nat :=
  if 1152 ≤ s then 5352 else lget 5032 [5032, 6272, 5432, 5032] (tget {} m.wl.rx (s / 8)).mode

/-- W of a rate class in µs (R78). -/
def classW (c : Nat) : Nat := lget 80 [80, 40, 20, 10] c

/-- W in use of a source towards a plane, in ns. -/
def windowNs (m : Mach) (s p : Nat) : Nat :=
  let w := (pair m s p).wSet
  1000 * (if w = 0 then classW (srcOf m s).fmt.rclass else min w (classW (srcOf m s).fmt.rclass))

/-- A lead lies in the capture window; in the inner window (R78). -/
def inCapture (m : Mach) (s p : Nat) (l : Int) : Bool :=
  decide ((leadMin m s : Int) ≤ l) && decide (l ≤ (leadMin m s + windowNs m s p : Nat))
def inInner (m : Mach) (s p : Nat) (l : Int) : Bool :=
  let g := windowNs m s p / 10
  decide ((leadMin m s + g : Nat) ≤ l) && decide (l ≤ ((leadMin m s + windowNs m s p - g : Nat) : Int))

/-! ### Classes (R79, R80) -/

/-- A class change caused now takes effect at the first switch point whose cut-off lies ahead (R80). -/
def setDue (m : Mach) (s p c : Nat) : Mach :=
  let k := target m p
  setPair m s p fun x => { x with due := (x.due.filter fun d => d.2 != k) ++ [(c, k)] }

/-- The class a pair will have once every change caused so far is in effect. -/
def SrcPlane.next (x : SrcPlane) : Nat := (x.due.getLast?.map (·.1)).getD x.cls

/-- A source's format is the plane's (R79). -/
def sameFmt (f : SrcFmt) (g : Fmt) : Bool :=
  f.total == totalLines g && f.lines == activeLines g && f.samples == activeSamples g && f.scan == g.scan &&
    f.rclass == fmtClass g && f.rate == g.rate

/-- The mean of the latest frame periods lies within 1,100 ppm of the plane's (R79). -/
def periodOk (ps : List Nat) (g : Fmt) : Bool :=
  let n := ps.length
  let sum := ps.foldl (· + ·) 0
  let want := framePs g * n
  n == 0 || decide ((if sum < want then want - sum else sum - want) * 1000000 ≤ 1100 * want)

/-- The class a present source has towards a plane when it is not synchronous (R79). -/
def plainClass (m : Mach) (s p : Nat) : Nat :=
  let x := srcOf m s
  if sameFmt x.fmt (plane m p).fmt && (x.periods.length < 16 || periodOk x.periods (plane m p).fmt) then 2 else 1

/-! ### Frame numbers and buffers (R84, R85) -/

/-- How far a frame number lies ahead of another, and that it is the newer: numbers wrap at 2³² (R107). -/
def ahead (a b : Nat) : Nat := (a + 2 ^ 32 - b % 2 ^ 32) % 2 ^ 32
def newer (a b : Nat) : Bool := decide (0 < ahead a b) && decide (ahead a b < 2 ^ 31)

/-- Frames dropped between the last frame read and frame `n` (R88). -/
def dropsFrom (last n : Nat) : Nat := if newer n last then ahead n last - 1 else 0

/-- The newest complete frame: its buffer. -/
def newest (x : Src) (ok : FrameBuf → Bool := fun _ => true) : Option Nat :=
  (x.bufs.zipIdx.foldl (fun a b => if b.1.st == 2 && ok b.1 then match a with
    | none => some b
    | some c => if newer b.1.num c.1.num ∨ (c.1.num = b.1.num ∧ c.1.at_ < b.1.at_) then some b else some c
    else a) (none : Option (FrameBuf × Nat))).map (·.2)

/-- The buffer a feed is reading: the one chosen before until line 1 of the next frame (R85, R90). -/
def Feed.reading (f : Feed) (now : Nat) : Option Nat := if now < f.prevUntil then f.prev else f.buf

/-- A buffer is being read by a feed of the source (R85). -/
def beingRead (m : Mach) (s i : Nat) : Bool :=
  m.is_.feeds.any fun f => f.2.valid && f.2.src == s &&
    (f.2.buf == some i || (f.2.prev == some i && decide (m.now < f.2.prevUntil)))

/-- The buffer the writer takes: neither being read nor holding the newest complete frame, the older frame first (R85). A
frame whose last line has arrived counts as the newest. -/
def writerBuf (m : Mach) (s : Nat) : Option Nat :=
  let x := srcOf m s
  (x.bufs.zipIdx.foldl (fun a b =>
    if beingRead m s b.2 || x.ended.or (newest x) == some b.2 then a else match a with
    | none => some b
    | some c => if c.1.st ≠ 0 ∧ (b.1.st = 0 ∨ newer c.1.num b.1.num) then some b else some c)
    (none : Option (FrameBuf × Nat))).map (·.2)

/-- A line that ends or follows the active picture of an interlaced frame's first field (R224). -/
def SrcFmt.fieldDone (f : SrcFmt) (line : Nat) : Bool := f.scan == 1 && decide (rowLine f.total 1 (f.lines - 2) ≤ line)

/-- A frame begins: the writer takes a buffer, or skips the frame (R85). -/
def beginFrame (m : Mach) (s : Nat) (gnum : Nat) : Mach :=
  let m := setSrc m s fun x =>
    { x with frame := if x.ever then (x.frame + 1) % 2 ^ 32 else x.frame, cur := none, ended := x.cur }
  if !autoSrc m s ∨ !(bufSources m m.xb.holds).contains s then m
  else match writerBuf m s with
    | none => setSrcCnt m s fun c => { c with wrSkip := sat c.wrSkip 1 }
    | some i => setSrc m s fun x =>
        { x with cur := some i, bufs := lmod x.bufs i fun _ => { st := 1, num := x.frame, fmt := x.fmt, gnum } }

/-- Sizes of R84: the picture region, and the ancillary region behind the descriptor. -/
def pictureSize : Nat := 20 * 2 ^ 20
def ancSize : Nat := 4 * 2 ^ 20 - 64

/-- The raster lines of a format's picture region in its order: the first field's lines first (R84). -/
def storeOrder (f : SrcFmt) : List Nat :=
  let rows := List.range f.lines
  (if f.scan = 0 then rows else rows.filter (· % 2 = 0) ++ rows.filter (· % 2 = 1)).map (rowLine f.total f.scan)

/-- One entry of the ancillary region: line number, horizontal position, length and words (R84, R101). -/
def ancEntry (line : Nat) (a : Anc) : List Byte := le 2 line ++ le 2 a.pos ++ le 2 a.words.length ++ a.words.flatMap (le 2)

/-- The packets of a line for which the ancillary region has room, and the number it has none for (R101). -/
def fitAncs (line : Nat) (len : Nat) (as : List Anc) : Nat × List Anc × Nat :=
  as.foldl (fun r a =>
    let n := (ancEntry line a).length
    if ancSize < r.1 + n then (r.1, r.2.1, r.2.2 + 1) else (r.1 + n, r.2.1 ++ [a], r.2.2)) (len, [], 0)

/-- The frame descriptor (R84): frame number, format, completion instant, concealment and poison flags. -/
def FrameBuf.descriptor (b : FrameBuf) : List Byte :=
  padTo 0 64 (le 4 b.num ++ le 4 (srcFmtWord b.fmt) ++ le 12 b.at_ ++ le 1 (b2n b.concealed + 2 * b2n (!b.bad.isEmpty)))

/-- A byte of a frame buffer (R84): the samples packed without gaps from bit 0 up, the descriptor, the packets. -/
def FrameBuf.byteAt (b : FrameBuf) (off : Nat) : Byte :=
  if off < pictureSize then
    let n := 2 * b.fmt.samples
    let word (w : Nat) : Nat :=
      lget 0 (tget {} b.lines (lget 0 (storeOrder b.fmt) (w / n))).words (w % n)
    let w := 8 * off / 10
    BitVec.ofNat 8 ((word w + 1024 * word (w + 1)) / 2 ^ (8 * off % 10))
  else if off < pictureSize + 64 then lget 0 b.descriptor (off - pictureSize)
  else lget 0 (b.lines.flatMap fun l => l.2.anc.flatMap (ancEntry l.1)) (off - pictureSize - 64)

/-- The words that the 64-byte unit at an offset of the picture region holds, line by line: raster line, first word and
count (R84, R370). -/
def unitSpan (f : SrcFmt) (off : Nat) : List (Nat × Nat × Nat) :=
  let n := 2 * f.samples
  let first := 8 * (off / 64 * 64) / 10
  let stop := min ((8 * (off / 64 * 64 + 64) + 9) / 10) (n * f.lines)
  ((List.range f.lines).zip (storeOrder f)).filterMap fun x =>
    let a := max first (n * x.1)
    let z := min stop (n * x.1 + n)
    if a < z then some (x.2, a - n * x.1, z - a) else none

/-! ### Concealment (R93 to R95) -/

/-- Replace the words of a hole by those of another line. -/
def patch (ws by_ : List Nat) (hole : Nat × Nat) : List Nat :=
  ws.zipIdx.map fun x => if hole.1 ≤ x.2 ∧ x.2 < hole.1 + hole.2 then lget (blackWord x.2) by_ x.2 else x.1

/-- Some of a hole's samples were found poisoned in a buffer. -/
def FrameBuf.badAt (b : FrameBuf) (line : Nat) (hole : Nat × Nat) : Bool :=
  b.bad.any fun x => x.1 == line && decide (x.2.1 < hole.1 + hole.2) && decide (hole.1 < x.2.1 + x.2.2)

/-- What replaces a missing segment (R93): the same line of the newest complete frame for an AUTO source whose read comes
unpoisoned, else the preceding active line of the field, else black. -/
def substitute (m : Mach) (s line : Nat) (hole : Nat × Nat) : List Nat :=
  let x := srcOf m s
  let prev := if (lineRow x.fmt.total x.fmt.lines x.fmt.scan (line - 1)).isSome then (tget {} x.seen (line - 1)).words else []
  match (if autoSrc m s then newest x (fun b => b.fmt == x.fmt) else none) with
  | some i =>
    let b : FrameBuf := lget {} x.bufs i
    if b.badAt line hole then prev else (tget { words := prev } b.lines line).words
  | none => prev

/-- Count one concealed segment and raise its fault (R93). -/
def noteConceal (m : Mach) (s : Nat) : Mach := raise (setSrcCnt m s fun c => { c with concLink := sat c.concLink 1 }) s 0x15 0

/-- Conceal the holes of a line, each a segment (R93). -/
def concealHoles (m : Mach) (s line : Nat) (ws : List Nat) : List (Nat × Nat) → Mach × List Nat
  | [] => (m, ws)
  | h :: hs => concealHoles (noteConceal m s) s line (patch ws (substitute m s line h) h) hs

/-! ### A line arrives (R77, R80, R82, R83, R92) -/

/-- The leads of a line in ns towards the sixteen planes: the interval from its arrival to the plane instant of its number
in the plane frame that begins at or after the arrival of its frame's line 1 (R77). -/
def leadsOf (m : Mach) (s line arrival : Nat) : List Int :=
  (List.range 16).map fun p => (leadInstant (plane m p) line (srcOf m s).line1T - arrival) / nsU

/-- A pair of an input stage is SYNCHRONOUS and a line with this lead misses its plane instant. -/
def misses (m : Mach) (s p : Nat) (lead : Int) : Bool := (pair m s p).cls == 3 && decide (lead < leadMin m s)

/-- One plane's measurement of a line's lead: the inner window, a line that missed, and a breach of a SYNCHRONOUS pair. An
AUTO pair's missed line is a concealed segment (R82). -/
def measure (m : Mach) (s line : Nat) (m' : Mach) (pl : Nat × Int) : Mach :=
  let p := pl.1
  let x := pair m' s p
  let late := misses m' s p pl.2
  let m' := setPair m' s p fun x =>
    { x with insideWas := if line = 1 then x.inside else x.insideWas,
             inside := (x.inside || line == 1) && inInner m s p pl.2, leadNs := if line = 1 then pl.2.toNat else x.leadNs,
             leads := if line = 1 then (pl.2.toNat :: x.leads).take 17 else x.leads,
             late := x.late.filter (· != line) ++ (if late then [line] else []) }
  if x.cls = 3 then
    let m' := if late then
        let m' := setSrcCnt m' s fun c => { c with lateLine := sat c.lateLine 1 }
        if x.sync then m' else noteConceal m' s
      else m'
    if inCapture m s p pl.2 then m'
    else if x.next = 3 then
      let m' := setDue (setPair m' s p fun x => { x with qcount := 0, inside := false, breached := x.sync }) s p 2
      if x.sync then raise m' s 0x14 1 else m'
    else m'
  else m'

/-- W of a source in ticks, as the group's arrivals are held against: by the setting in force towards TP_0 (Assumption 20). -/
def groupW (m : Mach) (s : Nat) : Nat := windowNs m s 0 / 2

/-- Two instants lie within a source's W of each other, in ticks. -/
def within (m : Mach) (s a b : Nat) : Bool := decide ((if a < b then b - a else a - b) ≤ groupW m s)

/-- A member's line 1 has fallen outside W of the lead's: neither came within W of the other, and neither still can (R92). -/
def fellOut (m : Mach) (l g : Nat) : Bool :=
  let a := (srcOf m l).line1At
  let b := (srcOf m g).line1At
  !within m l a b && decide (max a b + groupW m l < m.now)

/-- A line of a member has arrived: the group breaks once a member's line 1 has fallen outside W of the lead's, and
re-forms after 16 group frames in line, counted at the lead's line 1 (R92). -/
def checkGroup (m : Mach) (s line : Nat) : Mach :=
  let g := groupNow m s
  match g.head? with
  | none => m
  | some l =>
    let x := srcOf m l
    let all (m : Mach) (f : Src → Src) : Mach := g.foldl (fun m k => setSrc m k f) m
    if !x.gbroken then
      if g.any (fellOut m l) then raise (all m fun y => { y with gbroken := true, gcount := 0 }) l 0x17 1 else m
    else if s ≠ l ∨ line ≠ 1 then m
    else
      let fine := g.all fun k => within m l (srcOf m k).line1At x.prev1At || within m l (srcOf m k).prev1At x.prev1At
      if !fine then setSrc m l fun y => { y with gcount := 0 }
      else if x.gcount + 1 < 16 then setSrc m l fun y => { y with gcount := y.gcount + 1 }
      else endCond (all m fun y => { y with gbroken := false, gcount := 0 }) l 0x17

/-- The group frame a member's line 1 belongs to. -/
def groupFrame (m : Mach) (s at_ : Nat) : Nat :=
  let x := srcOf m s
  match (groupNow m s).head? with
  | none => (x.frame + b2n x.ever) % 2 ^ 32
  | some l =>
    if l = s then (x.frame + b2n x.ever) % 2 ^ 32
    else if within m l at_ (srcOf m l).line1At then (srcOf m l).frame
    else ((srcOf m l).frame + 1) % 2 ^ 32

/-- The line that arrives: the one given, or the oldest waiting: a whole record of the source's WL slot (R122), a line
that the ingress port's context has released (R196). -/
def takeLine (m : Mach) (s : Nat) (content : Option LineIn) : Option (LineIn × Mach) :=
  match content with
  | some l => some (l, m)
  | none =>
    if 1152 ≤ s then
      let i : Ingress := tget {} m.flw.ports (s - 1152)
      match i.lines with
      | [] => none
      | l :: ls => some (l, { m with flw := { m.flw with ports := tset m.flw.ports (s - 1152) { i with lines := ls } } })
    else
      let r : WlRx := tget {} m.wl.rx (s / 8)
      let q : RxSlot := tget {} r.slots (s % 8)
      match q.done with
      | [] => none
      | l :: ls =>
        let r' : WlRx := { r with slots := tset r.slots (s % 8) { q with done := ls } }
        some (l, { m with wl := { m.wl with rx := tset m.wl.rx (s / 8) r' } })

/-- Lines that the 16 KiB line-alignment buffer holds, the newest first in claim, without those whose last plane instant is
more than the longest egress past: a line is read at its output's release (R63, R78). -/
def labKeep (now : Nat) (lab : Tab LabLine) : Tab LabLine :=
  let byAge := lab.mergeSort fun a b => decide (b.2.at_ ≤ a.2.at_)
  let kept := (byAge.foldl (fun (a : Nat × List Nat) l =>
    let n := a.1 + 10 * l.2.data.words.length
    if 8 * 16384 < n then a else (n, a.2 ++ [l.1])) (0, [])).2
  lab.filter fun l => kept.contains l.1 && decide (now ≤ l.2.until_ + 8000 * nsU)

/-- The line is valid (R97): it carries the active word count of the source's format. -/
def validLine (f : SrcFmt) (l : LineIn) : Bool :=
  l.words.length == (if (lineRow f.total f.lines f.scan l.line).isSome then 2 * f.samples else 0)

/-- The picture rate the input stage takes apart of an audio packet's clock phase: words in a second of one stream. -/
def clockOf (f : SrcFmt) : Nat :=
  let g : Fmt := { raster := if f.total = 750 then 0 else if f.total = 1125 then 1 else 2, scan := f.scan, rate := f.rate }
  totalSamples g * totalLines g * rateNum f.rate / rateDen f.rate

/-- De-embed a line's audio packets: each data packet is one sample of its group of four channels, stamped with the line
reference instant and the packet's clock phase (R100): the phase counts from the line before, or with the multiplex position
flag from the line before that (Assumption 9). Packets of one phase make one sample frame. The flags of a channel are C and
Z. -/
def deembedLine (f : SrcFmt) (groups ref : Nat) (as : List Anc) : List (Nat × List Int × List Nat) :=
  let ps := (as.filterMap audioOf).filter fun p => decide (p.1 < groups)
  let clks := (ps.map (·.2.1)).eraseDups
  let line := secU * rateDen f.rate / (max 1 (rateNum f.rate) * max 1 f.total)
  clks.map fun k =>
    let cell (i : Nat) : Option Subframe :=
      (ps.find? fun p => p.2.1 == k && p.1 == i / 4).bind fun p => p.2.2[i % 4]?
    let n := 4 * ((ps.filter fun p => p.2.1 == k).foldl (fun a p => max a (p.1 + 1)) 0)
    (ref + k % 8192 * secU / max 1 (clockOf f) - (k / 8192 + 1) * line,
     (List.range n).map fun i => ((cell i).map (·.x)).getD 0,
     (List.range n).map fun i => ((cell i).map fun c => b2n c.c + 2 * b2n c.z).getD 0)

/-- ST 299 groups of four channels that an input stage de-embeds: 16 channels at 1.5G and 3G, 32 at 6G and 12G; none of an
ST 2110 flow (R100). -/
def audioGroups (m : Mach) (s : Nat) : Nat :=
  if s < 1152 then (if (srcOf m s).fmt.rclass < 2 then 4 else 8)
  else match (tget {} m.flw.ports (s - 1152) : Ingress).cur with
    | some c => if (tget {} m.flw.ctxs c : Ctx).d.typ = 4 then 4 else 0
    | none => 0

/-- A line joins the alignment buffer, the de-embedder (to which lost packets are a gap, R95), the lines compositors take in, and the frame in progress, whose ancillary region may
have no room for some of its packets (R78, R93, R101). -/
def storeLine (m : Mach) (s : Nat) (l : LineIn) (ws : List Nat) (at_ until_ : Nat) : Mach :=
  let x := srcOf m s
  let data : LineData := { words := ws, anc := l.anc }
  let (len, kept, lost) := match x.cur with
    | some i => fitAncs l.line (lget ({} : FrameBuf) x.bufs i).ancLen l.anc
    | none => (0, l.anc, 0)
  let m := setSrcCnt m s fun c => { c with ancDrop := sat c.ancDrop (l.ancLost + lost) }
  setSrc m s fun x => { x with
    lab := labKeep m.dt.t (tset x.lab l.line { data, at_, until_ }), seen := tset x.seen l.line data,
    pid := (pidOf l.anc).or x.pid, validAt := if validLine x.fmt l then m.now else x.validAt,
    audioQ := x.audioQ ++ (if 0 < l.ancLost ∧ 0 < audioGroups m s then [(at_, [], [])] else []) ++
      deembedLine x.fmt (audioGroups m s) at_ l.anc,
    bufs := match x.cur with
      | some i => lmod x.bufs i fun b => { b with lines := tset b.lines l.line { words := ws, anc := kept }, ancLen := len,
                                                  fieldAt := b.fieldAt.or (if b.fmt.fieldDone l.line then some at_ else none)
                                                  concealed := b.concealed || !l.holes.isEmpty }
      | none => x.bufs }

/-- IS_LINE_ARRIVAL (R77). -/
def lineArrival (s : Nat) (content : Option LineIn) (m : Mach) : Mach :=
  match takeLine m s content with
  | none => m
  | some (l, m) =>
    let t := l.at_.getD m.dt.t
    let tick := m.now - (m.dt.t - t) / (2 * nsU)
    let m := if l.line = 1 then
        let g := groupFrame m s tick
        beginFrame (setSrc m s fun x => { x with prev1At := x.line1At, line1At := tick, line1T := t }) s g
      else m
    let m := checkGroup m s l.line
    let leads := leadsOf m s l.line t
    let m := (leads.zipIdx.map fun x => (x.2, x.1)).foldl (measure m s l.line) m
    let stay := (leads.zipIdx.filter fun x => (pair m s x.2).cls == 3).foldl (fun a x => max a x.1) 0
    let (m, ws) := concealHoles m s l.line l.words l.holes
    storeLine m s l ws t (t + (stay * nsU).toNat)

/-! ### Loss, presence and return (R76, R97 to R99) -/

/-- A source has a committed destination or a window anywhere. -/
def routed (m : Mach) (s : Nat) : Bool := (List.range 16).any (routedOn m s)

/-- The active lines of an interrupted frame that never arrived (R98). -/
def missingLines (b : FrameBuf) (f : SrcFmt) : List Nat :=
  (List.range (f.total + 1)).filter fun l => (lineRow f.total f.lines f.scan l).isSome && (tget? l b.lines).isNone

/-- The lines of an interrupted frame that never arrived are concealed, each as a segment (R93, R98): the same line of the
newest complete frame, else the preceding active line of the field, else black. -/
def concealRest (m : Mach) (s i : Nat) : Mach :=
  let f := (srcOf m s).fmt
  let whole := (0, 2 * f.samples)
  let fill (m : Mach) (l : Nat) : Mach :=
    let ws := patch (blackLine (2 * f.samples)) (substitute m s l whole) whole
    setSrc (noteConceal m s) s fun x => { x with
      seen := tset x.seen l { words := ws }
      bufs := lmod x.bufs i fun b => { b with lines := tset b.lines l { words := ws }, concealed := true } }
  (missingLines (lget ({} : FrameBuf) (srcOf m s).bufs i) f).foldl fill m

/-- A present source is lost (R97): every pair becomes ABSENT at its next switch point; the fault's class depends on whether
the source is routed. `last` is the number of the last frame of the presence that ends. -/
def loseSource (m : Mach) (s last : Nat) : Mach :=
  let m := (List.range 16).foldl (fun m p => setDue (setPair m s p fun x => { x with qcount := 0, inside := false }) s p 0) m
  let m := setSrcCnt m s fun c => { c with loss := sat c.loss 1 }
  let m := setSrc m s fun x => { x with present := false, lostNum := some last, lastSig := none, periods := [] }
  let quiet (g : Nat) (a : AGroup) : AGroup := if g = s then { a with err := 0 } else a
  raise { m with aud := { m.aud with groups := tmap quiet m.aud.groups } } s 0x16 (b2n (routed m s))

/-- The flow of an ingress port takes its AUTO offset anew when it returns after a loss (R197). -/
def rebaseFlow (m : Mach) (s : Nat) : Mach :=
  match (tget {} m.flw.ports (s - 1152) : Ingress).cur with
  | some c => if 1152 ≤ s then { m with flw := { m.flw with ctxs := tmod {} m.flw.ctxs c fun x => { x with based := false } } } else m
  | none => m

/-- A loss of signal: the interrupted frame is concealed and counts as complete (R98). -/
def sourceLost (s : Nat) (m : Mach) : Mach :=
  if !(srcOf m s).present then m
  else
    let m := rebaseFlow m s
    let m := match (srcOf m s).cur with
      | some i => setSrc (concealRest m s i) s fun x => { x with
          cur := none, ended := none, bufs := lmod x.bufs i fun b => { b with st := 2, at_ := m.dt.t } }
      | none => setSrc m s fun x => { x with ended := none }
    loseSource m s (srcOf m s).frame

/-- No valid line for 8 expected line periods, the last instant included (R6, R97). -/
def noLines (m : Mach) (s : Nat) : Bool :=
  let x := srcOf m s
  decide (8 * 500000000 * rateDen x.fmt.rate < (m.now - x.validAt) * x.fmt.total * rateNum x.fmt.rate)

/-- IS_SOURCE_LOST (R97): no valid line has arrived for 8 consecutive expected line periods. -/
def signalLost (s : Nat) (m : Mach) : Mach := if noLines m s then sourceLost s m else m

/-- The frame after the one that completes has begun: its line 1 came less than the 20 µs from last line to completion
before (R87). -/
def begun (m : Mach) (x : Src) : Bool := x.line1At != 0 && decide (m.now < x.line1At + 20 * usT)

/-- The rate of the IS_SRC_FMT list nearest to a frame period in ps (R76). -/
def nearestRate (ps : Nat) : Nat :=
  let err (r : Nat) : Nat := let a := ps * rateNum r; let b := 1000000000000 * rateDen r; if a < b then b - a else a - b
  (List.range 10).foldl (fun a r => if err r * rateNum a < err a * rateNum r then r else a) 0

/-- The format a measured frame stands for (R76): of two fields, PsF where the payload identifier shows a progressive
picture, else interlaced. -/
def FrameShape.fmt (h : FrameShape) (pid : Option Nat) : SrcFmt :=
  { total := h.total, lines := h.lines, samples := h.samples, rclass := h.rclass, rate := nearestRate h.period,
    scan := if !h.fields then 0 else if pid.any (fun v => bit v 6 && !bit v 7) then 2 else 1 }

/-- A source becomes present at the completion of the second agreeing frame (R76, R79), which is frame 0 the first time, so
that a frame begun since is frame 1 (R85). Frames count for qualification (R80) from the first whose line 1 then arrives. -/
def becomePresent (m : Mach) (s : Nat) (f : SrcFmt) : Mach :=
  let m := setSrc m s fun x =>
    if x.ever then { x with present := true, fmt := f, validAt := m.now }
    else
      let n := b2n (begun m x)
      { x with present := true, fmt := f, frame := n, ever := true, validAt := m.now,
               bufs := match x.cur with
                 | some i => lmod x.bufs i fun b => { b with num := n }
                 | none => x.bufs }
  let m := (List.range 16).foldl (fun m p => setDue (setPair m s p fun x => { x with inside := false }) s p (plainClass m s p)) m
  endCond m s 0x16

/-- One plane's class after a whole frame: mismatch, or qualification (R79, R80). -/
def judge (s : Nat) (m : Mach) (p : Nat) : Mach :=
  let x := pair m s p
  let c := plainClass m s p
  if c = 1 then if x.next = 1 then m else setDue (setPair m s p fun x => { x with qcount := 0 }) s p 1
  else
    let next := begun m (srcOf m s)
    let q := if (if next then x.insideWas else x.inside) then min 64 (x.qcount + 1) else 0
    let ls := (if next then x.leads.drop 1 else x.leads).take 16
    let m := setPair m s p fun x => { x with qcount := q }
    if x.next = 1 ∨ x.next = 0 then setDue m s p 2
    else if x.next = 2 ∧ x.qSet ≤ q then
      setDue (setPair m s p fun x => { x with qual := ls.foldl (· + ·) 0 * nsU / max 1 ls.length }) s p 3
    else m

/-- IS_FRAME_COMPLETE (R76, R80, R87, R99). -/
def frameComplete (s : Nat) (shape : FrameShape) (m : Mach) : Mach :=
  let f := shape.fmt (srcOf m s).pid
  let m := setSrc m s fun x =>
    let next := begun m x
    let first := if next then x.prev1At else x.line1At
    { x with
      pid := none, periods := (shape.period :: x.periods).take 16, kTicks := ((m.now - first) :: x.kTicks).take 16,
      cur := if next then x.cur else none, ended := none,
      bufs := match (if next then x.ended else x.cur) with
        | some i => lmod x.bufs i fun b => { b with st := 2, at_ := m.dt.t, fmt := f }
        | none => x.bufs }
  let x := srcOf m s
  let again (m : Mach) : Mach := setSrc m s fun x => { x with lastSig := some f, periods := [shape.period] }
  if x.present then
    if f = x.fmt then (List.range 16).foldl (judge s) m
    else again (loseSource m s ((x.frame + 2 ^ 32 - 1 - b2n (begun m x)) % 2 ^ 32))
  else if x.lastSig = some f then becomePresent m s f
  else again m

/-! ### Read decisions (R87 to R92, R98) -/

/-- A group frame is complete at every member (R92). -/
def groupWhole (m : Mach) (g : List Nat) (n : Nat) : Bool :=
  g.all fun s => (srcOf m s).bufs.any fun b => b.st == 2 && b.gnum == n

/-- A buffer of a source holds a frame in the source's present format (R99). -/
def inFormat (x : Src) (s : Nat) (b : FrameBuf) : Bool := decide (2304 ≤ s) || b.fmt == x.fmt

/-- The group frame that the lead member's feed on a plane has chosen at this instant, else would choose (R92). -/
def groupChoice (m : Mach) (l p : Nat) (g : List Nat) : Option Nat :=
  let x := srcOf m l
  let chosen := (m.is_.feeds.find? fun f => f.2.valid && f.2.src == l && f.2.plane == p && f.2.prevUntil == m.now + 50 * usT).bind (·.2.buf)
  (chosen.or (newest x fun b => inFormat x l b && groupWhole m g b.gnum)).map fun i => (lget {} x.bufs i).gnum

/-- The buffer a feed reads at a decision: the newest complete frame; while a group is in force and unbroken, the member
frame of the group frame that the lead member's feed chooses. -/
def chooseBuf (m : Mach) (s p : Nat) : Option Nat :=
  let x := srcOf m s
  let g := (pair m s p).grp
  match g.head? with
  | none => newest x (inFormat x s)
  | some l =>
    if x.gbroken then newest x (inFormat x s)
    else (groupChoice m l p g).bind fun n => newest x fun b => inFormat x s b && b.gnum == n

/-- Loss repeats are still due: LOSS_HOLD frames of the plane, or for ever (R98). -/
def holding (x : SrcPlane) (run : Nat) : Bool := x.lossHold == 255 || decide (run < x.lossHold)

/-- What is repeated of a lost source: the newest complete frame of the presence that was lost (R98, R99). -/
def lostBuf (x : Src) : Option Nat := newest x fun b => x.lostNum.any fun n => !newer b.num n

/-- A feed reads a buffer at a decision: its first counts nothing, the same frame again is a repeat, and frames passed over
are drops (R88, R91). -/
def Feed.take (f : Feed) (b n : Nat) : Feed :=
  if !f.started then { f with started := true, buf := some b, last := n }
  else if n = f.last then { f with buf := some b, repeats := sat f.repeats 1 }
  else { f with buf := some b, last := n, drops := sat f.drops (dropsFrom f.last n) }

/-- IS_READ_DECISION (R88, R91, R98). A pair that is ABSENT keeps to the presence that was lost, for the loss hold. -/
def readDecision (i : Nat) (m : Mach) : Mach :=
  let f := tget {} m.is_.feeds i
  if !f.valid ∨ (plane m f.plane).nextSw < f.since then m
  else
    let x := srcOf m f.src
    let pr := pair m f.src f.plane
    let absent := decide (f.src < 2304) && pr.cls == 0
    let run := if absent then f.lossRun + 1 else 0
    let pick :=
      if !absent then chooseBuf m f.src f.plane
      else if f.started && holding pr f.lossRun then lostBuf x else none
    let next : Feed := match pick with
      | none => { f with buf := none }
      | some b => f.take b (lget {} x.bufs b).num
    let g : Feed := { next with prev := f.buf, prevUntil := m.now + 50 * usT, torn := [], lossRun := min run 255 }
    { m with is_ := { m.is_ with feeds := tset m.is_.feeds i g } }

/-- FRAME_BUFFER_RETURN (R41): the buffers of a source's outgoing route return. -/
def bufferReturn (s p : Nat) (m : Mach) : Mach :=
  let m := { m with xb := { m.xb with fbRet := m.xb.fbRet.erase (s, p) } }
  if (bufSources m m.xb.holds).contains s then m
  else setSrc m s fun x => { x with bufs := [{}, {}, {}], cur := none }

/-! ### The meanings -/

/-- IS_LINE_ARRIVAL (R77). -/
def execIsLineArrival (src : Nat) (content : Option LineIn) (s : State) := runIf (src < 2304) (lineArrival src content) s
/-- IS_FRAME_COMPLETE (R87). -/
def execIsFrameComplete (src : Nat) (shape : FrameShape) (s : State) := runIf (src < 2304) (frameComplete src shape) s
/-- IS_READ_DECISION (R88). -/
def execIsReadDecision (feed : Nat) (s : State) := runIf (feed < 2048) (readDecision feed) s
/-- IS_SOURCE_LOST (R97). -/
def execIsSourceLost (src : Nat) (s : State) := runIf (src < 2304) (signalLost src) s
/-- FRAME_BUFFER_RETURN (R41). -/
def execFrameBufferReturn (src plane : Nat) (s : State) := runIf (src < 2400 && plane < 16) (bufferReturn src plane) s

end Sys2Proof.Machine
end

