-- ==== Sys2Proof/Machine/Audio.lean ====
section
/-! DEFINITION. The audio domain: the grid, input groups, the mix table, Shrew arithmetic, alignment, history, kernels,
the background bank and the audio commands (chapter 09). -/
namespace Sys2Proof.Machine

/-! ### The grid (R249) -/

/-- Grid instant of an index, in units of 2⁻³² ns. -/
def gridAt (m : Mach) (n : Nat) : Nat := n * secU / fs m

/-- The first index at or after an instant, and the index nearest it, halves up. -/
def indexFrom (m : Mach) (t : Nat) : Nat := (t * fs m + secU - 1) / secU
def indexNear (m : Mach) (t : Nat) : Nat := (2 * t * fs m + secU) / (2 * secU)

/-- Samples in an age, rounding half up. -/
def samplesOf (m : Mach) (t : Nat) : Nat := (2 * t * fs m + secU) / (2 * secU)

/-- The block of an instant, and the first block boundary at least 1 ms later (R20, R280). -/
def blockAt (t : Nat) : Nat := t * 3000 / secU
def blockAfter (m : Mach) : Nat := ((m.dt.t + secU / 1000) * 3000 + secU - 1) / secU

/-- Grid error of a frame at an index, in units of 2⁻³² ns over the domain rate (R253). -/
def gridErr (m : Mach) (n stamp : Nat) : Int := (n * secU : Nat) - (stamp * fs m : Nat)

/-! ### Input channels (R251, R252, R255, R268) -/

/-- Ring length of an input channel. -/
def ringOf (m : Mach) (ch : Nat) : Nat := tget (fs m) m.aud.len ch

/-- The containers of a channel. -/
def ring (m : Mach) (ch : Nat) : Tab Nat := tget [] m.aud.rings ch

/-- A container: a sample, with its NONPCM and MISS flags (R268). -/
def container (nonpcm miss : Bool) (x : Int) : Nat := b2n nonpcm * 2 ^ 25 + b2n miss * 2 ^ 24 + toBits 24 x

/-- A container of a stripe whose memory was lost: every tap reads it as missing (R379). -/
def lostContainer : Nat := 2 ^ 26

/-- Write one container; a length change takes effect where the write pointer wraps (R269). -/
def putRing (m : Mach) (n : Nat) (nonpcm miss : Bool) (cx : Nat × Int) : Mach :=
  let ch := cx.1
  let len := ringOf m ch
  let a := m.aud
  let (ls, nx) := match tget? ch a.lenNext with
    | some l => if n % len = 0 then (tset a.len ch l, tdel a.lenNext ch) else (a.len, a.lenNext)
    | none => (a.len, a.lenNext)
  let keep := (ring m ch).filter fun x => decide (n < x.1 + len)
  { m with aud := { a with rings := tset a.rings ch (tset keep n (container nonpcm miss cx.2)), len := ls, lenNext := nx } }

/-- Base and size of an input group's channels: a source, 2400 on a port, 3000 on an IP audio context (R190). -/
def groupChans (m : Mach) (g : Nat) : Nat × Nat :=
  if g < 2400 then srcGroup m g
  else if g < 3000 then portIn m (g - 2400)
  else
    let d := (tget {} m.flw.ctxs (g - 3000)).d
    if d.bind = 2 then
      let (b, n) := srcGroup m (1152 + d.port)
      (b + d.chan, min d.nch (n - d.chan))
    else (d.chan, d.nch)

def group (m : Mach) (g : Nat) : AGroup := tget {} m.aud.groups g
def setGrp (m : Mach) (g : Nat) (f : AGroup → AGroup) : Mach :=
  { m with aud := { m.aud with groups := tmod {} m.aud.groups g f } }

/-- The non-audio bit of the channel status of a channel's pair (R256). -/
def nonAudio (a : AGroup) (k : Nat) : Bool := bit (lget 0 a.status (k / 2 * 2)) 1

/-- One channel-status bit of a channel, C in bit 0 and the block start Z in bit 1: the block so far, and the block where it
is whole (R256). -/
def statusBit (b : Nat × Nat) (cell : Nat) : (Nat × Nat) × Option Nat :=
  if bit cell 1 then ((cell % 2, 1), none)
  else if b.2 = 0 then ((0, 0), none)
  else if b.2 = 191 then ((0, 0), some (b.1 + cell % 2 * 2 ^ 191))
  else ((b.1 + cell % 2 * 2 ^ b.2, b.2 + 1), none)

/-- A group's channel status as a frame brings it (R256). -/
def noteStatus (m : Mach) (g : Nat) (cells : List Nat) : Mach :=
  if cells.isEmpty then m
  else setGrp m g fun a =>
    let steps := cells.zipIdx.map fun x => statusBit (lget (0, 0) a.block x.2) x.1
    { a with block := steps.map (·.1), status := steps.zipIdx.map fun x => x.1.2.getD (lget 0 a.status x.2) }

/-- Missing frame `k`: the ramp down to 0 over eight frames (R255). -/
def rampDown (s : Int) (k : Nat) : Int := if k < 8 then (s * (7 - k) + 4) / 8 else 0

/-- The `k`-th written frame after a gap (R255). -/
def rampUp (s : Int) (k : Nat) : Int := if k < 8 then (s * (k + 1) + 4) / 8 else s

/-- Write one sample on each of a group's channels. -/
def putGroup (m : Mach) (g n : Nat) (miss : Bool) (xs : List Int) : Mach :=
  let (base, size) := groupChans m g
  let a := group m g
  ((xs.take size).zipIdx).foldl (fun m x => putRing m n (nonAudio a x.2) miss (base + x.2, x.1)) m

/-- Fill one missing index of a group (R255). -/
def fillOne (m : Mach) (g n : Nat) : Mach :=
  let a := group m g
  let xs := a.last.zipIdx.map fun x => if nonAudio a x.2 then 0 else rampDown x.1 a.gap
  let m := putGroup m g n true xs
  let m := setGrp m g fun a => { a with gap := a.gap + 1, up := 0, next := some (n + 1) }
  { m with audCnt := { m.audCnt with gap := sat m.audCnt.gap 1 } }

/-- Fill a group's missing indices up to `stop`, at most `k` of them. -/
def fillTo (g stop : Nat) : Nat → Mach → Mach
  | 0, m => m
  | k + 1, m => match (group m g).next with
    | some n => if n < stop then fillTo g stop k (fillOne m g n) else m
    | none => m

/-- Write a frame at an index, ramping up after a gap (R255). -/
def putFrame (m : Mach) (g n : Nat) (xs : List Int) : Mach :=
  let a := group m g
  let m := putGroup m g n false (xs.zipIdx.map fun x => if nonAudio a x.2 then x.1 else rampUp x.1 a.up)
  setGrp m g fun a => { a with gap := 0, up := a.up + 1, next := some (n + 1), last := xs, resync := false }

/-- The index of a group's next frame: the one after the last, or after a gap the one nearest the stamp (R252). -/
def nextIndex (m : Mach) (g stamp : Nat) : Nat :=
  let a := group m g
  match a.next with
  | some n => if a.gap = 0 then (if a.resync then max n (indexNear m stamp) else n) else indexNear m stamp
  | none => indexNear m stamp

/-- The index lies in a block whose successor has begun, or was filled (R252). -/
def tooLate (m : Mach) (g n : Nat) : Bool :=
  decide ((n / blockLen m + 1) * secU ≤ m.dt.t * 3000) || (group m g).next.any fun k => decide (n < k)

/-- Place a frame on the grid (R252): late frames are discarded; missing indices before it are filled. -/
def placeFrame (m : Mach) (g n : Nat) (xs : List Int) : Mach :=
  if tooLate m g n then { m with audCnt := { m.audCnt with late := sat m.audCnt.late 1 } }
  else putFrame (fillTo g n (n + 1) m) g n xs

/-- The frame begins a block of a group that has not acted in it (R253). -/
def atBlock (m : Mach) (g n : Nat) : Bool := n % blockLen m == 0 && (group m g).lastBlock != n / blockLen m + 1

/-- A SLIP group's frame: the check once per block, with one frame dropped or repeated (R253). -/
def slipFrame (m : Mach) (g stamp : Nat) (xs : List Int) : Mach :=
  let n := nextIndex m g stamp
  let e := gridErr m n stamp
  let last := (group m g).last
  let started := (group m g).gap = 0
  if atBlock m g n && !tooLate m g n then
    let m := setGrp m g fun a => { a with lastBlock := n / blockLen m + 1, err := e / fs m }
    if started ∧ (secU : Int) ≤ 2 * e then { m with audCnt := { m.audCnt with slipDrop := sat m.audCnt.slipDrop 1 } }
    else if started ∧ 2 * e ≤ -(secU : Int) then
      let m := { m with audCnt := { m.audCnt with slipIns := sat m.audCnt.slipIns 1 } }
      placeFrame (putFrame m g n last) g (n + 1) xs
    else placeFrame m g n xs
  else placeFrame m g n xs

/-- A frame of free values, one for each channel: what a conversion kernel computes (R254, Assumption 5). -/
def converted (m : Mach) (k : Nat) : List Int × Mach :=
  ((List.range k).map fun i => ofBits 24 (toBits 24 (Config.convertSample (m.free + i))), { m with free := m.free + k })

/-- The conversion kernel writes every grid index up to that of `stop`, at most `k` of them (R254). -/
def convertTo (g width stop : Nat) : Nat → Mach → Mach
  | 0, m => m
  | k + 1, m =>
    let n := (group m g).next.getD stop
    if stop < n then m
    else
      let (xs, m) := converted m width
      convertTo g width stop k (placeFrame (setGrp m g fun a => { a with next := some n }) g n xs)

/-- The measured rate of a group in mHz over the latest 1 s, newest stamp first (R282). -/
def rateOf (stamps : List Nat) : Nat :=
  match stamps, stamps.getLast? with
  | a :: _ :: _, some b => if b < a then (stamps.length - 1) * 1000 * secU / (a - b) else 0
  | _, _ => 0

/-- Note a frame's stamp. -/
def noteStamp (m : Mach) (g stamp : Nat) : Mach :=
  setGrp m g fun a =>
    let s := stamp :: a.stamps.filter fun x => decide (stamp < x + secU)
    { a with stamps := s, rate := rateOf s }

/-- A rate differs from the domain rate by more than `ppm`. -/
def offRate (m : Mach) (mHz ppm : Nat) : Bool :=
  let f := fs m * 1000
  decide (f * ppm < (if mHz < f then f - mHz else mHz - f) * 1000000)

/-- A SLIP group's rate has gone beyond 2,000 ppm, or come back (R254). -/
def checkRate (m : Mach) (g : Nat) : Mach :=
  let a := group m g
  let bad := !a.convert && a.rate != 0 && offRate m a.rate 2000
  if bad = a.mismatch then m
  else
    let m := setGrp m g fun a => { a with mismatch := bad }
    if bad then raise m g 0x50 1 else endCond m g 0x50

/-- A de-embedded frame (R251 to R254): stamp, samples, and the C and Z bits of its channels. One without samples stands for
packets that were lost (R95). -/
def deembed (g : Nat) (f : Nat × List Int × List Nat) (m : Mach) : Mach :=
  let (stamp, xs, cells) := f
  if xs.isEmpty then setGrp m g fun a => { a with resync := true, block := [] }
  else
    let m := checkRate (noteStatus (noteStamp m g stamp) g cells) g
    let a := group m g
    if a.convert then
      let t := stamp + secU / 1000
      convertTo g xs.length (t * fs m / secU) (2 * blockLen m) m
    else slipFrame m g stamp (if a.mismatch then xs.map fun _ => 0 else xs)

/-- The oldest frame that a source's de-embedder has taken from its lines enters the domain (R100, R252). -/
def deembedNext (g : Nat) (m : Mach) : Mach :=
  match (srcOf m g).audioQ with
  | [] => m
  | f :: rest => deembed g f (setSrc m g fun x => { x with audioQ := rest })

/-! ### Generators (R251) -/

/-- The first quarter of the tone's period at 96 kHz: round(838,861 × sin(2πj/96)), halves away from zero. -/
def toneTable : List Int :=
  [0, 54864, 109493, 163654, 217113, 269643, 321018, 371019, 419431, 466046, 510666, 553099, 593164, 630689, 665513,
   697487, 726475, 752352, 775007, 794343, 810278, 822743, 831684, 837065, 838861]

/-- The tone at step `j` of 96. -/
def toneAt (j : Nat) : Int :=
  let k := j % 96
  if k ≤ 24 then lget 0 toneTable k
  else if k ≤ 48 then lget 0 toneTable (48 - k)
  else if k ≤ 72 then -(lget 0 toneTable (k - 48))
  else -(lget 0 toneTable (96 - k))

/-- A generator's sample at an index: the tone or silence in force there (R35, R251). -/
def genSample (m : Mach) (g n : Nat) : Int :=
  match (tget [] m.aud.tones g).find? fun x => decide (x.1 ≤ n) with
  | some (_, true) => toneAt (if m.aud.rate = 0 then 2 * n else n)
  | _ => 0

/-! ### Alignment (R264, R265) -/

/-- Mean interval from line 1 to completion of a source's frames: K, in units of 2⁻³² ns. A compositor's frame completes
20 µs after its last line (R87). -/
def kOf (m : Mach) (s : Nat) : Nat :=
  if isCmp s then
    let f := (plane m (cmpPlane m (s - 2304))).fmt
    (framePs f - framePs f / totalLines f + 20000000) * nsU / 1000
  else
    let ks := (srcOf m s).kTicks
    if ks.isEmpty then 0 else ks.foldl (· + ·) 0 * 2 * nsU / ks.length

/-- Mean frame period of a source, in units of 2⁻³² ns. -/
def periodOf (m : Mach) (s : Nat) : Nat :=
  if isCmp s then framePs (plane m (cmpPlane m (s - 2304))).fmt * nsU / 1000
  else
    let ps := (srcOf m s).periods
    if ps.isEmpty then 0 else ps.foldl (· + ·) 0 * nsU / (1000 * ps.length)

/-- A source is handled asynchronously towards a plane. -/
def asyncTo (m : Mach) (s p : Nat) : Bool :=
  if s < 2304 then (pair m s p).cls == 2 && !(pair m s p).sync else isCmp s && cmpPlane m (s - 2304) != p

/-- The centre of the synchroniser's range: K + 50 µs + F / 2. -/
def syncAge (m : Mach) (s : Nat) : Nat := kOf m s + 50000 * nsU + periodOf m s / 2

/-- Ψ where the pair's class gives one (R264). -/
def psiNow (m : Mach) (s p : Nat) : Option Nat :=
  if asyncTo m s p then some (syncAge m s)
  else if 2304 ≤ s then some 0
  else if (pair m s p).cls = 3 then some (pair m s p).qual
  else none

/-- Ψ, with the last value the pair had (R264). -/
def psi (m : Mach) (s p : Nat) : Nat := (psiNow m s p).getD (tget 0 m.aud.psi (16 * s + p))

/-- From line 1 of a compositor's plane to its switch line. -/
def toSwitchLine (f : Fmt) (l : Nat) : Nat := framePs f * (l - 1) / totalLines f * nsU / 1000

/-- Ψw, the window age of a source in a compositor (R264). -/
def windowAge (m : Mach) (k s : Nat) : Nat :=
  let p := cmpPlane m k
  let f := (plane m p).fmt
  let fc := framePs f * nsU / 1000
  if 2304 ≤ s then fc
  else if (pair m s p).cls = 3 then (pair m s p).qual + fc
  else syncAge m s + fc - toSwitchLine f (swLineOf f (plane m p).swLineNow)

/-- Egress latency of a destination in ns (R63). -/
def egressNs (m : Mach) (d : Nat) : Nat :=
  if d < 1152 then lget 160 [160, 400, 240, 160] (tget {} m.wl.rx (d / 8)).mode
  else if m.flw.ctxs.any fun x => 2 ≤ x.2.st && x.2.d.dir == 1 && x.2.d.typ == 4 && x.2.d.port == d - 1152 then 1000 else 8000

def adest (m : Mach) (d : Nat) : ADest := tget {} m.aud.dests d
def setAdest (m : Mach) (d : Nat) (f : ADest → ADest) : Mach :=
  { m with aud := { m.aud with dests := tmod {} m.aud.dests d f } }

/-- Λ (R265), in units of 2⁻³² ns. -/
def lambda (m : Mach) (d s : Nat) : Nat :=
  psi m s (air m d).plane + egressNs m d * nsU + (adest m d).user * 1000 * nsU

/-! ### The mix table (R257 to R260, R277) -/

/-- The fields of a tap entry (R258). -/
def tapV (w : Nat) : Bool := bit w 63
def tapSat (w : Nat) : Bool := bit w 62
def tapIch (w : Nat) : Nat := bits w 61 46
def tapGain (w : Nat) : Int := ofBits 24 (bits w 45 22)
def tapDelay (w : Nat) : Nat := bits w 21 5

/-- A unity tap. -/
def unityTap (ich delay : Nat) : Nat := 2 ^ 63 + ich % 2 ^ 16 * 2 ^ 46 + 0x100000 * 2 ^ 22 + delay % 2 ^ 17 * 2 ^ 5

/-- A tap entry the module accepts (R258). -/
def tapOk (m : Mach) (w : Nat) : Bool :=
  bits w 4 0 == 0 && (!tapV w || (decide (tapIch w < chanCount m) && decide (tapDelay w + 48 ≤ ringOf m (tapIch w))))

def tap (m : Mach) (o slot : Nat) : Nat := tget 0 m.aud.taps (32 * o + slot)

/-- Store a tap entry; a slot without a tap is not listed. -/
def setTap (m : Mach) (o slot w : Nat) : Mach :=
  { m with aud := { m.aud with taps := if tapV w then tset m.aud.taps (32 * o + slot) w else tdel m.aud.taps (32 * o + slot) } }

/-- The source and window age that a compositor's channel group carries: AUDWIN's, none for silence (R241). -/
def audNow (m : Mach) (k : Nat) : Option (Nat × Nat) :=
  let l := (cmpr m k).lat.layout
  if l.frozen.contains l.audwin then none
  else (tget? l.audwin l.wins).map fun w => (w.src, windowAge m k w.src)

/-- A compositor's channel group takes another source from this instant on, as a crossfade of 64 samples (R241). -/
def noteAudwin (m : Mach) (k : Nat) (before : Option (Nat × Nat)) : Mach :=
  if before.map (·.1) = (audNow m k).map (·.1) then m
  else { m with aud := { m.aud with cmpFades := tset m.aud.cmpFades k { old := before, start := indexFrom m m.dt.t } } }

/-- The delay a conversion group's taps are spared (R254). -/
def spared (m : Mach) (ich : Nat) : Nat :=
  match chanSource m ich with
  | some s => if (group m s).convert then (if m.aud.rate = 0 then 48 else 96) else 0
  | none => 0

/-- The sample of an input channel at an index (R258): 0 where nothing was written, a free value where the ring has
wrapped past the index (Assumption 5). -/
def inputAt (m : Mach) (ch n : Nat) : Int :=
  match chanSource m ch with
  | some s =>
    if isGen s then genSample m (s - 2336) n
    else match tget? n (ring m ch) with
      | some c => ofBits 24 c
      | none =>
        let newest := ((ring m ch).getLast?.map (·.1)).getD 0
        if n + ringOf m ch ≤ newest then ofBits 24 (Config.unstated (m.free + n)) else 0
  | none => match tget? n (ring m ch) with
    | some c => ofBits 24 c
    | none => 0

/-- The sample of a channel for output index `o` at a delay (R258): a compositor group's channel is that of AUDWIN's
source, older by the window's age. -/
def readAt (m : Mach) : Nat → Nat → Nat → Nat → Int
  | 0, _, _, _ => 0
  | f + 1, ich, delay, o =>
    let plain := if delay - spared m ich ≤ o then inputAt m ich (o - (delay - spared m ich)) else 0
    match chanSource m ich with
    | none => plain
    | some s =>
      if !isCmp s then plain
      else
        let c := ich - (srcGroup m s).1
        let via : Option (Nat × Nat) → Int
          | none => 0
          | some (t, age) => if c < (srcGroup m t).2 then readAt m f ((srcGroup m t).1 + c) (delay + samplesOf m age) o else 0
        let x := via (audNow m (s - 2304))
        match tget? (s - 2304) m.aud.cmpFades with
        | some cf =>
          if cf.start ≤ o ∧ o < cf.start + 64 then
            let w : Nat := (o - cf.start + 1) * 2 ^ 20 / 64
            (via cf.old * (2 ^ 20 - w : Int) + x * w + 2 ^ 19) / 2 ^ 20
          else x
        | none => x

/-- The sample a tap takes for output index `o` (R258). -/
def tapSample (m : Mach) (w o : Nat) : Int := readAt m 33 (tapIch w) (tapDelay w) o

/-- The read of slot `slot`'s tap `w` for an output index was poisoned (R270), or its stripe was lost (R379). Slot 32 is the
fade tap. -/
def poisoned (m : Mach) (o slot w idx : Nat) : Bool :=
  let back := tapDelay w - spared m (tapIch w)
  m.aud.poison.contains (64 * o + slot, idx) ||
    (decide (back ≤ idx) && tget? (idx - back) (ring m (tapIch w)) == some lostContainer)

/-- Poisoned indices in a row that end at `idx`, at most eight. -/
def poisonRun (m : Mach) (o slot w idx : Nat) : Nat :=
  (((List.range 9).takeWhile fun k => decide (k ≤ idx) && poisoned m o slot w (idx - k)).length)

/-- The sample of a slot's tap, with poisoned reads treated as missing samples of that tap alone (R255, R270). -/
def slotSample (m : Mach) (o slot w idx : Nat) : Int :=
  if m.aud.poison.isEmpty && m.mem.pcs.all (fun x => x.2.spare.isNone) then tapSample m w idx
  else
    let k := poisonRun m o slot w idx
    if 0 < k then rampDown (tapSample m w (idx - k)) (k - 1)
    else match (List.range 8).find? fun j => decide (j + 1 ≤ idx) && poisoned m o slot w (idx - j - 1) with
      | some j => rampUp (tapSample m w idx) j
      | none => tapSample m w idx

/-- Clamp to a two's-complement width. -/
def clamp (w : Nat) (x : Int) : Int := max (-(2 ^ (w - 1) : Int)) (min (2 ^ (w - 1) - 1 : Int) x)

/-- The ramp weight at sample `k` of `n` (R260, R280). -/
def rampW (k n : Nat) : Nat := (k + 1) * 2 ^ 20 / n

/-- The gain of a slot at an index, along its ramp (R280). -/
def gainAt (m : Mach) (ch slot idx : Nat) : Int :=
  let g := tapGain (tap m ch slot)
  match m.aud.ramps.find? fun r => r.chan == ch && r.slot == slot with
  | some r =>
    if idx < r.start + r.len then
      let w := rampW (idx - r.start) r.len
      (r.old * (2 ^ 20 - w : Int) + g * w + 2 ^ 19) / 2 ^ 20
    else g
  | none => g

/-- One multiply-accumulate (R259). -/
def macc (acc s g : Int) (satd : Bool) : Int := if satd then clamp 44 (acc + s * g) else acc + s * g

/-- The accumulator over the 32 slots (R259). -/
def mixAcc (m : Mach) (ch idx : Nat) : Int :=
  (List.range 32).foldl (fun acc k =>
    let w := tap m ch k
    if tapV w then macc acc (slotSample m ch k w idx) (gainAt m ch k idx) (tapSat w) else acc) 0

/-- The fade tap's accumulator. -/
def fadeAcc (m : Mach) (ch w idx : Nat) : Int := if tapV w then macc 0 (slotSample m ch 32 w idx) (tapGain w) (tapSat w) else 0

/-- The blended accumulator of an index (R260). -/
def blend (m : Mach) (ch idx : Nat) : Int :=
  match tget? ch m.aud.fades with
  | some f =>
    if f.start ≤ idx ∧ idx < f.start + f.len then
      let w := rampW (idx - f.start) f.len
      (mixAcc m ch idx * (2 ^ 20 - w : Int) + fadeAcc m ch f.tap idx * w + 2 ^ 19) / 2 ^ 20
    else mixAcc m ch idx
  | none => mixAcc m ch idx

/-- A destination carries silence: its audio source is MISMATCHED towards its plane, or a SYNC source that is not
SYNCHRONOUS, or ABSENT with no frame held on its read feed (R81, R98). -/
def silent (m : Mach) (d : Nat) : Bool :=
  let a := air m d
  let p := pair m a.asrc a.plane
  let held := (feedOf m a.asrc a.plane).any fun f => (tget {} m.is_.feeds f).buf.isSome
  a.amode == 0 && decide (a.asrc < 2304) && (p.cls == 1 || (p.sync && p.cls != 3) || (p.cls == 0 && !held))

/-- A crossfade ends (R260): the fade tap moves to slot 0, the other slots become invalid, and what waited for the end
starts there. -/
def endFade (m : Mach) (ch : Nat) (f : Fade) : Mach :=
  let stop := f.start + f.len
  let m := (List.range 32).foldl (fun m k => setTap m ch k (if k = 0 then f.tap else 0)) m
  let late (t : Timed) : Timed :=
    { t with start := if t.chan = ch then t.start.map (max stop) else t.start }
  { m with aud := { m.aud with fades := tdel m.aud.fades ch, timed := m.aud.timed.map late,
                               ramps := m.aud.ramps.filter fun r => r.chan != ch } }

/-- A timed change takes effect (R277, R280): a fade starts; a slot cuts, or ramps its gain. -/
def applyTimed (m : Mach) (t : Timed) (start : Nat) : Mach :=
  match t.slot with
  | none => { m with aud := { m.aud with fades := tset m.aud.fades t.chan { tap := t.tap, start, len := t.len } } }
  | some k =>
    let old := tap m t.chan k
    let rest := m.aud.ramps.filter fun r => !(r.chan == t.chan && r.slot == k)
    let same := tapV old && tapV t.tap && tapIch old == tapIch t.tap && tapDelay old == tapDelay t.tap
    let r : Ramp := { chan := t.chan, slot := k, old := gainAt m t.chan k start, start, len := t.len }
    setTap { m with aud := { m.aud with ramps := if same then rest ++ [r] else rest } } t.chan k t.tap

/-- The earliest timed change of a channel that is due at an index; of equals a crossfade comes first, since a slot change
whose first index falls while it runs waits for its end (R260, R280). -/
def dueTimed (m : Mach) (ch idx : Nat) : Option (Timed × Nat × Nat) :=
  m.aud.timed.zipIdx.foldl (fun a x =>
    match x.1.start with
    | some st =>
      if x.1.chan == ch && decide (st ≤ idx) then
        match a with
        | none => some (x.1, st, x.2)
        | some y => if st < y.2.1 ∨ (st = y.2.1 ∧ x.1.slot = none ∧ y.1.slot ≠ none) then some (x.1, st, x.2) else a
      else a
    | none => a) none

/-- Bring a channel's table up to an index: crossfades that have ended, then changes that are due, at most `k` of them. -/
def settle (ch idx : Nat) : Nat → Mach → Mach
  | 0, m => m
  | k + 1, m =>
    match tget? ch m.aud.fades with
    | some f => if f.start + f.len ≤ idx then settle ch idx k (endFade m ch f) else m
    | none =>
      match dueTimed m ch idx with
      | some (t, st, i) =>
        settle ch idx k (applyTimed { m with aud := { m.aud with timed := m.aud.timed.eraseIdx i } } t st)
      | none => m

/-- The final conversion (R259): rounded to 24 bits, and whether it was clipped. -/
def finalY (acc : Int) : Int × Bool :=
  let y := (acc + 2 ^ 19) / 2 ^ 20
  (clamp 24 y, clamp 24 y != y)

/-- L16 value of a sample (R259). -/
def l16 (y : Int) : Int := clamp 16 ((y + 128) / 256)

/-- A channel's metering kernel runs: on, its cluster not shed (R274), and no overrun in this tick (R28). -/
def metering (m : Mach) (ch : Nat) : Bool :=
  (tget {} m.aud.meters ch).on && decide (cluster m ch + m.aud.shedClusters < 16) && !m.aud.stopped.contains (coreOf m ch)

/-- The metering kernel takes one sample; a block's values stand once all its samples are in (R273). -/
def meterTake (m : Mach) (ch idx : Nat) (y : Int) : Mach :=
  if !metering m ch then m
  else
    let x : Meter := tget {} m.aud.meters ch
    let x := if idx % blockLen m = 0 then { x with accPeak := 0, accSq := 0, n := 0 } else x
    let x := { x with accPeak := max x.accPeak y.natAbs, accSq := x.accSq + y.natAbs * y.natAbs, n := x.n + 1 }
    let x := if x.n = blockLen m then { x with peak := x.accPeak, ms := x.accSq / (x.n * 2 ^ 14) } else x
    { m with aud := { m.aud with meters := tset m.aud.meters ch x } }

/-- A port's ring length change takes effect where its write pointer wraps (R299). -/
def portWrap (m : Mach) (ch idx : Nat) : Mach :=
  let base := atRate m 55296
  if base ≤ ch ∧ ch < base + atRate m 1024 ∧ (ch - base) % atRate m 32 = 0 then
    let p : Apt := tget {} m.apt.ports ((ch - base) / atRate m 32)
    match p.nPend with
    | some n => if idx % p.n = 0 then
        { m with apt := { m.apt with ports := tset m.apt.ports ((ch - base) / atRate m 32) { p with n, nPend := none } } } else m
    | none => m
  else m

/-- Output samples kept of each channel: the longest port ring and a block (R296). -/
def outKeep : Nat := 4128

/-- A jump of device time silences an index: down to 0 over the 64 indices that end at the jump, up again over 64 (R355). -/
def jumpRamp (m : Mach) (idx : Nat) (y : Int) : Int :=
  let y := match m.dt.reqs.find? fun r => r.kind != 0 with
    | some r =>
      let e := indexFrom m r.at_
      if e ≤ idx + 64 ∧ idx < e then (y * (e - 1 - idx : Nat) + 32) / 64 else y
    | none => y
  match m.aud.jumpTo with
  | some j => if j ≤ idx ∧ idx < j + 64 then (y * (idx - j + 1 : Nat) + 32) / 64 else y
  | none => y

/-- One output index of a channel (R257 to R260, R273): its taps, its crossfade, the final conversion. -/
def outputSample (ch idx : Nat) (m : Mach) : Mach :=
  let m := settle ch idx (2 * m.aud.timed.length + 2) m
  let (y, clip) := if (chanDest m ch).any (silent m) then (0, false) else finalY (blend m ch idx)
  let y := jumpRamp m idx y
  let old := (tget [] m.aud.outs ch).filter fun x => decide (idx < x.1 + outKeep)
  let m := { m with
    free := m.free + idx + 1,
    audCnt := { m.audCnt with clip := sat m.audCnt.clip (b2n clip) },
    aud := { m.aud with outs := tset m.aud.outs ch (tset old idx y) } }
  portWrap (meterTake m ch idx y) ch idx

/-! ### Takes and rewrites (R50, R256, R260, R266) -/

/-- The channel-status block of an input channel (R256, R263): what the group that writes it keeps; of a compositor's
channel, that of AUDWIN's source. -/
def statusOf (m : Mach) : Nat → Nat → Nat
  | 0, _ => 0
  | f + 1, ich =>
    match (chanSource m ich).filter isCmp with
    | some s =>
      match audNow m (s - 2304) with
      | some (t, _) =>
        let c := ich - (srcGroup m s).1
        if c < (srcGroup m t).2 then statusOf m f ((srcGroup m t).1 + c) else 0
      | none => 0
    | none =>
      let writes (g : Nat × AGroup) : Bool :=
        let (b, n) := groupChans m g.1
        decide (b ≤ ich) && decide (ich < b + n) && !g.2.status.isEmpty
      match m.aud.groups.find? writes with
      | some g => lget 0 g.2.status (ich - (groupChans m g.1).1)
      | none => 0

/-- Either pair of a channel's crossfade is non-audio: the change cuts (R256). -/
def cutsAudio (m : Mach) (o s k : Nat) : Bool :=
  let cut (ich : Nat) : Bool := bit (statusOf m 33 (ich / 2 * 2)) 1
  let old := tap m o 0
  (tapV old && cut (tapIch old)) || (decide (k < (srcGroup m s).2) && cut ((srcGroup m s).1 + k))

/-- Put a fade on a channel's change list; another for the same first index gives way (R25). -/
def putTimed (m : Mach) (t : Timed) : Mach :=
  { m with aud := { m.aud with timed :=
      (m.aud.timed.filter fun u => !(u.chan == t.chan && u.slot == none && t.slot == none && u.start == t.start)) ++ [t] } }

/-- Set a destination group's taps to a source's group, channel for channel, as a crossfade of `len` samples (R50). -/
def fadeGroup (m : Mach) (ep ses d s len start : Nat) : Mach :=
  let (ob, on) := destGroup m d
  let (ib, size) := srcGroup m s
  let lam := lambda m d s
  let delay := samplesOf m lam
  let m := (List.range on).foldl (fun m k =>
    let w := if k < size then unityTap (ib + k) delay else 0
    putTimed m { epoch := ep, ses, chan := ob + k, slot := none, tap := w, start := some start,
                 len := if cutsAudio m (ob + k) s k then 1 else len }) m
  setAdest m d fun x => { x with lambda := lam, delay, block := start / blockLen m, k := kOf m s }

/-- First output index at or after a destination's delayed switch point, for a switch point now (R18, R21). -/
def delayedStart (m : Mach) (d : Nat) : Nat := indexFrom m (m.dt.t + egressNs m d * nsU)

/-- Rewrite the taps of a destination group with the delay now due (R266). -/
def rewriteGroup (m : Mach) (ep d start : Nat) : Mach :=
  let a := air m d
  if a.amode = 0 ∧ a.asrc < 2400 then fadeGroup m ep 255 d a.asrc 64 start else m

/-- K has moved by more than half a sample period since a destination's taps were written (R266). -/
def kMoved (m : Mach) (d : Nat) : Bool :=
  let a := air m d
  let k := kOf m a.asrc
  let u := (adest m d).k
  a.amode == 0 && asyncTo m a.asrc a.plane && decide (secU < 2 * fs m * (if k < u then u - k else k - u))

/-- Timed slot changes anchored to a switch point get their first index at it (R280). -/
def anchorTimed (m : Mach) (p k : Nat) : Mach :=
  let i := indexFrom m m.dt.t
  let f (t : Timed) : Timed := if t.start = none ∧ t.plane = p ∧ t.target ≤ k then { t with start := some i } else t
  { m with aud := { m.aud with timed := m.aud.timed.map f } }

/-! ### Kernels and the pool (R268, R271) -/

/-- Cycles of a conversion kernel and of a metering kernel, per channel and tick. -/
def convCost (m : Mach) : Nat := if m.aud.rate = 0 then 432 else 864
def meterCost (m : Mach) : Nat := if m.aud.rate = 0 then 24 else 48

/-- Slots a port drives, and the channels of its conversion kernels (R292). -/
def drivenSlots (c : AptCfg) : Nat := if c.trislot then min c.nout c.s else c.s
def portKernels (m : Mach) (c : AptCfg) : Nat := min c.s (atRate m 32) + drivenSlots c

/-- Cycles reserved for kernels on a core. -/
def kres (m : Mach) (y : Nat) : Nat :=
  m.aud.groups.foldl (fun a x => a + if x.2.convert ∧ x.2.core = y then (srcGroup m x.1).2 * convCost m else 0) 0
  + m.aud.meters.foldl (fun a x => a + if x.2.on ∧ coreOf m x.1 = y then meterCost m else 0) 0
  + m.apt.ports.foldl (fun a x => a + if x.2.cfg.enable ∧ x.2.cfg.conv ∧ x.2.core = y then
      portKernels m x.2.cfg * convCost m else 0) 0

/-- The core with the most free kernel cycles, the lowest-numbered of equals, and how many it has. -/
def bestCore (m : Mach) : Nat × Nat :=
  (List.range 128).foldl (fun a y => if a.2 < 36336 - kres m y then (y, 36336 - kres m y) else a) (0, 36336 - kres m 0)

/-- A refusal for Shrew cycles (R271). -/
def cyclesShort (m : Mach) (index : Nat := 0xFFFF) : CRes :=
  .refuse sCapacity { index, res := 10, free := (bestCore m).2 }

/-- Containers of a port's ring (R296). -/
def portPool (m : Mach) (p : Apt) : Nat := if p.cfg.enable then max p.n (p.nPend.getD 0) * atRate m 32 else 0

/-- Free containers of the audio delay pool (R268). -/
def poolFree (m : Mach) : Nat :=
  let rest := (m.aud.len.filter fun x => (tget? x.1 m.aud.lenNext).isNone).foldl (fun a x => a + x.2) 0
  let next := m.aud.lenNext.foldl (fun a x => a + max x.2 (ringOf m x.1)) 0
  let listed := m.aud.len.length + (m.aud.lenNext.filter fun x => (tget? x.1 m.aud.len).isNone).length
  3221225472 - (rest + next + (chanCount m - listed) * fs m) - m.apt.ports.foldl (fun a x => a + portPool m x.2) 0

/-- A refusal for the audio delay pool. -/
def poolShort (m : Mach) : CRes := .refuse sCapacity { res := 11, free := poolFree m }

/-! ### Commands (R279 to R282) -/

/-- A 16-byte mix record (R279): channel, slot, reserved bytes, tap entry. -/
structure MixRec where
  chan : Nat
  slot : Nat
  rsvd : Nat
  tap : Nat
  deriving DecidableEq, Repr

def mixRecs (n : Nat) (d : List Byte) : List MixRec :=
  (List.range n).map fun i => { chan := fld d (16 * i) 2, slot := fld d (16 * i + 2) 1, rsvd := fld d (16 * i + 3) 5,
                                tap := fld d (16 * i + 8) 8 }

/-- The first record that is out of range, names a pair again or holds a refused entry; `ok` limits the channel. -/
def badMix (m : Mach) (ok : Nat → Bool) : List (Nat × Nat) → List MixRec → Option Nat
  | _, [] => none
  | seen, r :: rs =>
    if decide (r.chan < chanCount m) && ok r.chan && decide (r.slot < 32) && r.rsvd == 0 && tapOk m r.tap &&
        !seen.contains (r.chan, r.slot) then badMix m ok (seen ++ [(r.chan, r.slot)]) rs
    else some seen.length

/-- AUD_MIX (R280). -/
def commitAudMix (c : CCtx) (count ramp anchor : Nat) (m : Mach) : CRes :=
  let rs := mixRecs count c.data
  if count < 1 ∨ 4096 < count ∨ 63 < ramp ∨ (15 < anchor ∧ anchor ≠ 255) then .arg
  else match badMix m (fun _ => true) [] rs with
    | some i => .refuse sArg { index := i }
    | none =>
      match rs.zipIdx.findSome? fun x => (mixLoader m x.1.chan 1).map fun s => (x.2, s) with
      | some (i, s) => .refuse sConflict { index := i, okind := 1, oid := s }
      | none =>
        let start := if anchor = 255 then some (blockAfter m * blockLen m) else none
        .done (rs.foldl (fun m r => putTimed m
          { epoch := c.ep, ses := c.ses.getD 255, chan := r.chan, slot := some r.slot, tap := r.tap, len := ramp + 1, start,
            plane := anchor, target := target m anchor }) m)

/-- A source whose group de-embeds: serial, or an IP ingress port whose committed context is ST 2022-6. -/
def deembeds (m : Mach) (s : Nat) : Bool :=
  decide (s < 1152) || (decide (s < 2304) &&
    ((tget {} m.flw.ports (s - 1152)).com.any fun k => (tget {} m.flw.ctxs k).d.typ == 4))

/-- AUD_GROUP (R254, R271). -/
def commitAudGroup (s mode : Nat) (m : Mach) : CRes :=
  if !deembeds m s ∨ 1 < mode then .arg
  else if mode = b2n (group m s).convert then .done m
  else if mode = 0 then .done (setGrp m s fun a => { a with convert := false })
  else
    let (y, free) := bestCore m
    if free < (srcGroup m s).2 * convCost m then cyclesShort m
    else .done (endCond (setGrp m s fun a => { a with convert := true, core := y, mismatch := false }) s 0x50)

/-- AUD_OFFSET (R265, R266): from the first block boundary at least 1 ms after the commit. -/
def commitAudOffset (c : CCtx) (d us : Nat) (m : Mach) : CRes :=
  if 2303 < d ∨ 500000 < us then .arg
  else match (loadedBy m (dest m d).plane none).or
      (if (dest m d).amode = 0 then mixLoader m (destGroup m d).1 (destGroup m d).2 else none) with
    | some s => .conflict 1 s
    | none => .done (rewriteGroup (setAdest m d fun x => { x with user := us }) c.ep d (blockAfter m * blockLen m))

/-- The largest delay any tap, in force or to come, reads a channel with; and the lowest output channel that needs more
than `len` of it (R269). -/
def needsMore (m : Mach) (ch len : Nat) : Option Nat :=
  let tooFar (w : Nat) : Bool := tapV w && tapIch w == ch && decide (len < tapDelay w + 48)
  let a := (m.aud.taps.filter fun x => tooFar x.2).map fun x => x.1 / 32
  let b := (m.aud.timed.filter fun t => tooFar t.tap).map (·.chan)
  let d := (m.aud.fades.filter fun x => tooFar x.2.tap).map (·.1)
  (a ++ b ++ d).foldl (fun r o => match r with
    | none => some o
    | some q => some (min q o)) none

/-- AUD_HISTORY (R268, R269). -/
def commitAudHistory (first count len : Nat) (m : Mach) : CRes :=
  let lo := if m.aud.rate = 0 then 1536 else 3072
  let hi := if m.aud.rate = 0 then 480000 else 960000
  if count < 1 ∨ chanCount m < first + count ∨ len < lo ∨ hi < len then .arg
  else match ((span first count).filterMap fun ch => needsMore m ch len).min? with
    | some o => .conflict 12 o
    | none =>
      let m' := { m with aud := { m.aud with lenNext := (span first count).foldl (fun t ch =>
        if ringOf m ch = len then tdel t ch else tset t ch len) m.aud.lenNext } }
      let need := (span first count).foldl (fun a ch => a + (max len (ringOf m ch) -
        max (ringOf m ch) (tget 0 m.aud.lenNext ch))) 0
      if poolFree m < need then poolShort m else .done m'

/-- AUD_METER on and off (R271, R273). -/
def commitAudMeter (first count op : Nat) (m : Mach) : CRes :=
  if count < 1 ∨ chanCount m < first + count ∨ 1 < op then .arg
  else
    let m' := { m with aud := { m.aud with meters := (span first count).foldl (fun t ch =>
      tmod {} t ch fun x => { x with on := op == 1 }) m.aud.meters } }
    if op = 1 ∧ (List.range 128).any (fun y => decide (36336 < kres m' y)) then cyclesShort m else .done m'

/-- AUD_METER read (R273, R279). -/
def askAudMeter (ses first count off : Nat) (m : Mach) : QRes :=
  if count < 1 ∨ chanCount m < first + count then .arg
  else
    let bs := (span first count).foldr (fun ch a =>
      let x : Meter := tget {} m.aud.meters ch
      le 4 x.peak ++ le 4 x.ms ++ a) []
    .answer (putSalvo m ses off bs) sOk []

/-- The shortfall of a conversion group (R254, R282): what its shortest tap lacks. -/
def shortfall (m : Mach) (s : Nat) : Nat :=
  if !(group m s).convert then 0
  else
    let k := if m.aud.rate = 0 then 48 else 96
    (m.aud.taps.filter fun x => tapV x.2 && chanSource m (tapIch x.2) == some s).foldl
      (fun a x => max a (k - tapDelay x.2)) 0

/-- AUD_STATUS (R282). -/
def askAudStatus (kind index : Nat) (m : Mach) : QRes :=
  if kind = 0 ∧ index < 2400 then
    let a := group m index
    let live := a.stamps.filter fun t => decide (m.dt.t < t + secU)
    .answer m sOk [.b (b2n a.convert), .w (if live.isEmpty then 0 else rateOf live), .i (a.err / nsU),
      .w (kOf m index / nsU), .w (shortfall m index)]
  else if kind = 1 ∧ index < 2304 then
    let d := adest m index
    .answer m sOk [.w (d.lambda / nsU), .w (d.delay - spared m (srcGroup m (air m index).asrc).1), .w d.user, .q d.block]
  else .arg

/-- The session that committed a pending timed change of a channel (R277): one on the change list, or a take that waits
for its switch point. -/
def timedBy (m : Mach) (ch : Nat) : Option Nat :=
  match m.aud.timed.find? fun t => t.chan == ch with
  | some t => some t.ses
  | none =>
    match chanDest m ch with
    | none => none
    | some d =>
      (m.xb.pend.find? fun e => match e.eff with
        | .route x _ a _ => x == d && a.isSome
        | _ => false).map fun e => ((m.xb.airing.find? fun r => r.epoch == e.epoch).map (·.ses)).getD 255

/-- The load's records as bytes, as an AUD_BANK_SWAP's journal entry holds them (R279). -/
def mixBytes (l : MixLoad) : List Byte :=
  l.written.flatMap fun x => le 2 (x.1 / 32) ++ le 1 (x.1 % 32) ++ le 5 0 ++ le 8 x.2

/-- Write records into a session's load. -/
def putMix (m : Mach) (x ses : Nat) (rs : List MixRec) : Mach :=
  let f (l : MixLoad) : MixLoad :=
    if l.cluster = x ∧ l.ses = ses then
      { l with written := rs.foldl (fun t r => tset t (32 * r.chan + r.slot) r.tap) l.written } else l
  { m with aud := { m.aud with loads := m.aud.loads.map f } }

/-- A session's open loads of the clusters that `p` holds of are abandoned (R275, R418). A swap that waits for one is left
without its load. -/
def abandonMixes (m : Mach) (ses : Nat) (p : Nat → Bool) : Mach :=
  let gone := (m.aud.loads.filter fun l => l.ses == ses && p l.cluster).map (·.cluster)
  let ready := gone.foldl (fun r x => if bit r x then r - 2 ^ x else r) m.aud.ready
  let m := { m with aud := { m.aud with loads := m.aud.loads.filter fun l => !(l.ses == ses && p l.cluster), ready } }
  recordReady m fun c => match c with
    | .audBankSwap k => gone.any (bit k)
    | _ => false

/-- AUD_BANK_LOAD (R275 to R277): 0 open and write, 1 write, 2 abandon. -/
def askAudBankLoad (ses x act count off : Nat) (m : Mach) : QRes :=
  let rs := mixRecs count (salvo m ses off (16 * count))
  let open_ := m.aud.loads.find? fun l => l.cluster == x
  if 15 < x ∨ 2 < act ∨ 4096 < count then .arg
  else match open_ with
    | some l =>
      if l.ses ≠ ses ∨ act = 0 then .conflict 1 l.ses
      else if act = 2 then
        .answer (abandonMixes m ses fun y => y == x) sOk []
      else write rs m
    | none => if act = 0 then write rs { m with aud := { m.aud with loads := m.aud.loads ++ [{ cluster := x, ses }] } }
      else .conflict 0 0
where
  write (rs : List MixRec) (m : Mach) : QRes :=
    match badMix m (fun o => cluster m o == x) [] rs with
    | some i => .refuse sArg { index := i }
    | none =>
      match rs.zipIdx.findSome? fun r => (timedBy m r.1.chan).map fun s => (r.2, s) with
      | some (i, s) => .refuse sConflict { index := i, okind := 1, oid := s }
      | none => .answer (putMix m x ses rs) sOk []

/-- AUD_BANK_SWAP (R278). A claimant, which holds no load, puts in force what the journal entry of a committed swap holds (R56). -/
def commitAudBankSwap (c : CCtx) (mask_ : Nat) (m : Mach) : CRes :=
  let xs := members 16 mask_
  if mask_ = 0 then .arg
  else match xs.findSome? fun x => (m.aud.loads.find? fun l => l.cluster == x && some l.ses != c.ses).map (·.ses) with
    | some s => .conflict 1 s
    | none =>
      let open_ := xs.all fun x => m.aud.loads.any fun l => l.cluster == x
      if !open_ ∧ !c.replay then .conflict 0 0
      else if !open_ ∨ xs.all fun x => bit m.aud.ready x then
        let taps := (mixRecs (c.data.length / 16) c.data).foldl (fun t r => tset t (32 * r.chan + r.slot) r.tap) []
        let b : BlockChange := { epoch := c.ep, ses := c.ses.getD 255, hseq := c.hseq, swap := mask_, rate := none, taps }
        .commit { m with aud := { m.aud with blockChg := m.aud.blockChg ++ [b] } } [.q (blockAt m.dt.t + 1)]
      else .wait m

/-- AUD_RATE (R281). -/
def commitAudRate (c : CCtx) (rate : Nat) (m : Mach) : CRes :=
  if 1 < rate then .arg
  else match m.aud.taps.head? with
    | some x => .conflict 12 (x.1 / 32)
    | none =>
      match (tkeys (fun (x : Ctx) => decide (2 ≤ x.st) && (x.d.typ == 1 || x.d.typ == 2)) m.flw.ctxs).head? with
      | some k => .conflict 6 k
      | none =>
        match (tkeys (fun (p : Apt) => p.cfg.enable) m.apt.ports).head? with
        | some n => .conflict 13 n
        | none => .done { m with aud := { m.aud with blockChg := m.aud.blockChg ++
            [{ epoch := c.ep, ses := c.ses.getD 255, hseq := c.hseq, swap := 0, rate := some rate }] } }

/-! ### Block boundaries (R20, R278, R281) -/

/-- A swapped cluster takes the written entries of the bank, as a cut; its change list stands (R277, R278). -/
def swapCluster (taps : Tab Nat) (m : Mach) (x : Nat) : Mach :=
  let mine := taps.filter fun e => cluster m (e.1 / 32) == x
  let more := (m.aud.loads.filter fun l => l.cluster == x).flatMap (·.written)
  let m := (mine ++ more).foldl (fun m e => setTap m (e.1 / 32) (e.1 % 32) e.2) m
  { m with aud := { m.aud with loads := m.aud.loads.filter fun l => l.cluster != x,
                               bankFg := m.aud.bankFg ^^^ 2 ^ x,
                               ready := if bit m.aud.ready x then m.aud.ready - 2 ^ x else m.aud.ready } }

/-- One committed change at a block boundary, with AUD_SWAP_DONE for a swap. -/
def blockChange (m : Mach) (b : BlockChange) : Mach :=
  let m := (members 16 b.swap).foldl (swapCluster b.taps) m
  let m := match b.rate with
    | some r =>
      let fresh_ (_ : Nat) (a : AGroup) : AGroup := { convert := a.convert, core := a.core }
      let toRate (n : Nat) : Nat := if r = m.aud.rate then n else if r = 1 then 2 * n else n / 2
      let tones := tmap (fun _ (l : List (Nat × Bool)) => l.map fun x => (toRate x.1, x.2)) m.aud.tones
      { m with aud := { m.aud with rate := r, len := [], lenNext := [], rings := [], outs := [], fades := [], ramps := [],
                                   timed := [], groups := tmap fresh_ m.aud.groups, tones, cmpFades := [], poison := [],
                                   jumpTo := none } }
    | none => m
  if b.swap = 0 then m else event m 0x0012 3 (le 8 b.epoch ++ le 8 m.aud.block ++ le 2 b.swap) (some b.ses)

/-- Every running group fills what it has missed up to a block's start (R255). Ports fill their own. -/
def fillGroups (m : Mach) : Mach :=
  let stop := m.aud.block * blockLen m
  (m.aud.groups.map (·.1)).foldl (fun m g =>
    if 2400 ≤ g ∧ g < 3000 then m else fillTo g stop (2 * blockLen m) m) m

/-- An audio block begins, apart from the ports (R20). -/
def audioBlock (m : Mach) : Mach :=
  let m := { m with aud := { m.aud with block := blockAt m.dt.t } }
  let m := fillGroups m
  let bs := m.aud.blockChg
  bs.foldl blockChange { m with aud := { m.aud with blockChg := [] } }

/-- A cluster's catch-up copier at a tick boundary: 16,384 positions, from the first boundary after the load opens
(R276). -/
def copyTick (m : Mach) : Mach :=
  let f (l : MixLoad) : MixLoad := { l with begun := true, copied := min 131072 (l.copied + 16384) }
  { m with aud := { m.aud with loads := m.aud.loads.map f } }

/-- AUD_BANK_WHOLE (R276, R278): the copier has covered every position. -/
def bankWhole (x : Nat) (m : Mach) : Mach :=
  if m.aud.loads.any fun l => l.cluster == x && decide (131072 ≤ l.copied) then
    { m with aud := { m.aud with ready := if bit m.aud.ready x then m.aud.ready else m.aud.ready + 2 ^ x } }
  else m

/-! ### Shedding (R274) -/

/-- The case is over +105 °C; it has stayed below +100 °C for 1 s (R242, R525). -/
def caseHot (m : Mach) : Bool := decide (105 * 128 < m.flt.caseTemp)
def caseCool (m : Mach) : Bool := m.flt.coolSince.any fun t => decide (t + 1000 * msT ≤ m.now)

/-- 100 ms have passed since a compositor or a cluster's metering was last shed or restored; the next may follow 100 ms from
now (R242, R274). -/
def shedDue (m : Mach) : Bool := decide (m.cmp.stepAt ≤ m.now)
def shedNext (m : Mach) : Mach := { m with cmp := { m.cmp with stepAt := m.now + 100 * msT } }

/-- Every compositor is shed (R242). -/
def allShed (m : Mach) : Bool := (List.range 32).all fun k => (cmpr m k).shed

/-- METERS_SHED: the metering of the next cluster, from SHC_15 down. -/
def metersShed (m : Mach) : Mach :=
  if allShed m && caseHot m && shedDue m && decide (m.aud.shedClusters < 16) then
    let x := 15 - m.aud.shedClusters
    let m := shedNext m
    raise { m with aud := { m.aud with shedClusters := m.aud.shedClusters + 1 } } (0xC70 + x) 0x51 1
  else m

/-- Restore the metering of the lowest-numbered shed cluster. -/
def metersRestore (m : Mach) : Mach :=
  if m.aud.shedClusters = 0 then m
  else endCond { m with aud := { m.aud with shedClusters := m.aud.shedClusters - 1 } }
    (0xC70 + (16 - m.aud.shedClusters)) 0x51

/-! ### The meanings -/

/-- A waiting AUD_BANK_SWAP whose named banks are all whole commits (R278). -/
def mixReady (m : Mach) : Mach :=
  recordReady m fun c => match c with
    | .audBankSwap mask_ => (members 16 mask_).all fun x => bit m.aud.ready x
    | _ => false

/-- AUD_BANK_WHOLE (R278). -/
def execAudBankWhole (cluster : Nat) (s : State) := runIf (cluster < 16) (fun m => mixReady (bankWhole cluster m)) s
/-- METERS_SHED (R274). -/
def execMetersShed (s : State) := run metersShed s

end Sys2Proof.Machine
end

