-- ==== Sys2Proof/Machine/AudioPorts.lean ====
section
/-! DEFINITION. The serial audio ports (chapter 10), and the input frames and blocks of the audio domain, which the ports
share. -/
namespace Sys2Proof.Machine

def apt (m : Mach) (n : Nat) : Apt := tget {} m.apt.ports n
def setApt (m : Mach) (n : Nat) (f : Apt → Apt) : Mach := { m with apt := { m.apt with ports := tmod {} m.apt.ports n f } }
def setAptCnt (m : Mach) (n : Nat) (f : AptCnt → AptCnt) : Mach := { m with apt := { m.apt with cnts := tmod {} m.apt.cnts n f } }

/-- Source ID of a port (R516), and its input group's number. -/
def aptSrc (n : Nat) : Nat := 0xC80 + n
def aptGroup (n : Nat) : Nat := 2400 + n

/-! ### Rates and states (R290, R291) -/

/-- Frame rates of the nominal codes, in Hz. -/
def nominalHz : List Nat := [0, 32000, 44100, 48000, 88200, 96000]

/-- Frame rate in mHz that the latest 64 valid frames give; 0 before there are so many. -/
def coarseRate (p : Apt) : Nat :=
  let sum := p.coarse.foldl (· + ·) 0
  if p.coarse.length < 64 ∨ sum = 0 then 0 else 64000 * secU / sum

/-- The nominal rate within ±1 % of a rate in mHz; 0 for none. -/
def nominalOf (mHz : Nat) : Nat :=
  ((List.range 6).find? fun k =>
    let f := lget 0 nominalHz k * 1000
    decide (k ≠ 0) && decide ((if mHz < f then f - mHz else mHz - f) * 100 ≤ f)).getD 0

/-- The rate in force: the fine rate, or the coarse rate before the first fine measurement. -/
def rateNow (p : Apt) : Nat := if p.fine = 0 then coarseRate p else p.fine

/-- The supported set (R291): a ratio from 0.5 to 2.0, within the BCLK limit. -/
def supported (m : Mach) (p : Apt) : Bool :=
  let f := lget 0 nominalHz p.nominal
  decide (p.nominal ≠ 0) && decide (fs m ≤ 2 * f) && decide (f ≤ 2 * fs m) && decide (p.cfg.s * p.cfg.w * f ≤ 49152000)

/-- SLIP applies: the nominal rate is the domain rate and the rate lies within `ppm` of it. -/
def slipOk (m : Mach) (p : Apt) (ppm : Nat) : Bool :=
  lget 0 nominalHz p.nominal == fs m && !offRate m (rateNow p) ppm

/-- The state of a measured port (R291), with the return limit when it comes from CONVERT or MUTED. -/
def runState (m : Mach) (p : Apt) : Nat :=
  let back := p.st == 4 || p.st == 5
  if slipOk m p (if back then 1500 else 2000) && (!back || p.within.any fun t => decide (t + secU ≤ m.dt.t)) then 3
  else if p.cfg.conv && supported m p then 4
  else 5

/-- The rate event (R290). -/
def rateEvent (m : Mach) (n : Nat) : Mach :=
  let p := apt m n
  event m 0x0040 3 (le 1 n ++ le 1 p.st ++ le 1 p.nominal ++ le 1 0 ++ le 4 p.fine)

/-- Faults of MUTED (R291): the rate outside the slip range, or not supported. -/
def mutedFaults (m : Mach) (n : Nat) : Mach :=
  let p := apt m n
  if p.st = 5 then
    if supported m p && lget 0 nominalHz p.nominal == fs m then raise m (aptSrc n) 0x50 1
    else raise m (aptSrc n) 0x54 1
  else endCond (endCond m (aptSrc n) 0x50) (aptSrc n) 0x54

/-- Enter a state, with its event (R290). -/
def enter (m : Mach) (n st : Nat) : Mach :=
  if (apt m n).st = st then m else rateEvent (setApt m n fun p => { p with st }) n

/-- The module drives SDOUT (R301). -/
def drives (m : Mach) (p : Apt) : Bool := p.cfg.enable && speaks m && (p.st == 2 || p.st == 3 || p.st == 4 || p.st == 5)

/-! ### Clock loss and return (R297, R298, R300) -/

/-- The input group ramps down over 64 indices, if its frames are in use; buffered frames go first (R297). -/
def startDown (m : Mach) (n : Nat) : Mach :=
  setApt m n fun p => { p with down := if p.st = 3 ∨ p.st = 4 then 64 else p.down, rampIn := 0, rampOut := 0 }

/-- The clock is declared lost (R297). -/
def clockLost (m : Mach) (n : Nat) : Mach :=
  let m := event m 0x0041 3 (le 1 n ++ le 1 0)
  let m := setAptCnt m n fun c => { c with clkLost := sat c.clkLost 1 }
  let m := raise m (aptSrc n) 0x55 1
  let m := startDown m n
  enter (setApt m n fun p => { p with coarse := [], win := [], fine := 0, nominal := 0, within := none, clkLost := true,
                                      glitches := 0, hasEdge := false }) n 1

/-- Four expected frame periods in units of 2⁻³² ns, while a period is known (R297). -/
def lossTime (p : Apt) : Option Nat := if rateNow p = 0 then none else some (4 * 1000 * secU / rateNow p)

/-- APT_CLOCK_LOST (R297): no active edge within 4 expected periods; an edge in the cycle of the expiry counts (R6). -/
def aptClockLost (n : Nat) (m : Mach) : Mach :=
  let p := apt m n
  if p.cfg.enable && p.hasEdge && (lossTime p).any fun t => decide (p.lastEdge + t < m.dt.t) then clockLost m n else m

/-! ### The output ring (R295) -/

/-- Q, the target occupancy, and L, the ring latency. -/
def ringQ (m : Mach) (outLat : Nat) : Nat := ((outLat * 3 - 2000) * fs m * 2 + 3000000) / 6000000
def ringL (m : Mach) (outLat : Nat) : Nat := ringQ m outLat + 2

/-- Latencies in force, in µs: 1.000 ms more in CONVERT (R292). -/
def inLatNow (p : Apt) : Nat := p.cfg.inLat + if p.st = 4 then 1000 else 0
def outLatNow (p : Apt) : Nat := p.cfg.outLat + if p.st = 4 then 1000 else 0

/-- Units of 2⁻³² ns in `us` microseconds. -/
def usU (us : Nat) : Nat := us * 1000 * nsU

/-- The sample a port's channel drives at an index. -/
def outAt (m : Mach) (n k idx : Nat) : Int := tget 0 (tget [] m.aud.outs ((portOut m n).1 + k)) idx

/-- A sample in its slot: the first M of W bits, the others 0 (R287). -/
def slotWord (c : AptCfg) (y : Int) : Nat := (if c.m = 16 then toBits 16 (l16 y) else toBits 24 y) * 2 ^ (c.w - c.m)

/-- The slots of the frame that carries an index (R287), ramped up (R298). In CONVERT the kernel's values are free. -/
def outFrame (m : Mach) (n idx : Nat) : List Nat × Mach :=
  let p := apt m n
  let slots := drivenSlots p.cfg
  let (raw, m) := if p.st = 4 then converted m slots else ((List.range slots).map fun k => outAt m n k idx, m)
  (raw.zipIdx.map fun x =>
    let y : Int := if (portOut m n).2 ≤ x.2 then 0 else x.1
    slotWord p.cfg (if p.rampOut < 64 then (y * (p.rampOut + 1) + 32) / 64 else y), m)

/-- An index was not in the ring by its delivery: a channel that the domain has been computing lacks it (R31, R262). -/
def outLate (m : Mach) (n idx : Nat) : Bool :=
  decide (gridAt m idx + secU / 1500 < m.dt.t) &&
  (List.range (min (drivenSlots (apt m n).cfg) (portOut m n).2)).any fun k =>
    ((tget [] m.aud.outs ((portOut m n).1 + k)).getLast?).any fun x => decide (x.1 < idx)

/-- Drive one frame at an edge: the reader's check at a port block, then the next index (R295). An index that is late gives
way to the frame before it (R31). -/
def driveFrame (m : Mach) (n : Nat) : Mach :=
  let p := apt m n
  let te := m.dt.t
  let lat := usU (outLatNow p)
  if p.st ≠ 3 ∧ p.st ≠ 4 then setApt m n fun p => { p with lastOut := List.replicate (drivenSlots p.cfg) 0 }
  else
    let idx := if p.rampOut = 0 then indexNear m (te - lat) else p.readIdx
    let eo : Int := (te : Int) - (gridAt m idx + lat : Nat)
    let ts := secU / fs m
    let late := p.pblock && p.rampOut != 0 && decide ((ts : Int) ≤ 2 * eo)
    let early := p.pblock && p.rampOut != 0 && decide (2 * eo ≤ -(ts : Int))
    let m := setApt m n fun p => { p with eo := if p.pblock then eo else p.eo, pblock := false }
    if early then
      setAptCnt (setApt m n fun p => { p with lastOut := p.prevOut }) n fun c => { c with outIns := sat c.outIns 1 }
    else
      let idx := if late then idx + 1 else idx
      let m := if late then setAptCnt m n fun c => { c with outDrop := sat c.outDrop 1 } else m
      let gone := outLate m n idx
      let m := if gone then raise { m with xb := { m.xb with lateSeg := sat m.xb.lateSeg 1 } } (aptSrc n) 0x18 1 else m
      let (f, m) := if gone then ((apt m n).prevOut, m) else outFrame m n idx
      setApt m n fun p => { p with lastOut := f, prevOut := f, readIdx := idx + 1, rampOut := min 64 (p.rampOut + 1) }

/-! ### Edges (R289 to R293) -/

/-- A port's samples of one frame (R287): the first M bits of each slot's W, a 16-bit word extended with zeros; slots beyond
the group are discarded. -/
def inFrame (m : Mach) (n : Nat) (slots : List Nat) : List Int :=
  let c := (apt m n).cfg
  (slots.take (min c.s (portIn m n).2)).map fun w =>
    if c.m = 16 then ofBits 16 (w / 2 ^ (c.w - 16)) * 256 else ofBits 24 (w / 2 ^ (c.w - 24))

/-- A glitch (R289). -/
def glitch (n : Nat) (m : Mach) : Mach :=
  let m := setAptCnt m n fun c => { c with glitch := sat c.glitch 1 }
  let m := raise m (aptSrc n) 0x52 0
  let m := setApt m n fun p => { p with glitches := p.glitches + 1, readIdx := p.readIdx + 1 }
  if (apt m n).glitches = 16 then
    raise (enter (setApt m n fun p => { p with coarse := [], rampIn := 0, rampOut := 0 }) n 5) (aptSrc n) 0x53 1
  else m

/-- A port returns to use: clock-restored event, and both ramps start (R298). -/
def restored (m : Mach) (n : Nat) : Mach :=
  let p := apt m n
  let m := if p.clkLost then endCond (event m 0x0041 3 (le 1 n ++ le 1 1)) (aptSrc n) 0x55 else m
  setApt m n fun p => { p with clkLost := false, down := 0, rampIn := 0, rampOut := 0 }

/-- The nominal rate has changed (R290, R298): counted, reported, and measured again. -/
def newNominal (m : Mach) (n k : Nat) : Mach :=
  let first := (apt m n).nominal == 0
  let m := setAptCnt m n fun c => { c with rateEvt := sat c.rateEvt 1 }
  let m := setApt m n fun p => { p with nominal := k }
  if first then rateEvent m n
  else rateEvent (setApt (startDown m n) n fun p => { p with st := 2, coarse := [], win := [], fine := 0 }) n

/-- The state after a valid edge (R291). -/
def judgePort (m : Mach) (n : Nat) : Mach :=
  let p := apt m n
  if p.st = 1 then enter m n 2
  else if coarseRate p = 0 then (if p.st = 5 then enter m n 2 else m)
  else
    let k := nominalOf (coarseRate p)
    let m := if k = p.nominal then m else newNominal m n k
    let p := apt m n
    if p.st = 2 ∧ coarseRate p = 0 then m
    else
      let m := setApt m n fun p => { p with within := if slipOk m p 1500 then some (p.within.getD m.dt.t) else none }
      let st := runState m (apt m n)
      let crossed := decide (4 ≤ p.st) && p.within.isSome != (apt m n).within.isSome
      if st = p.st then (if crossed then rateEvent m n else m)
      else
        let m := if p.st = 5 then setApt m n fun p => { p with inBuf := [] } else m
        let m := if p.st = 2 ∨ p.st = 5 then restored m n else m
        mutedFaults (enter m n st) n

/-- APT_FSYNC_EDGE (R289): an active edge `bclks` after the one before, with the slots of the frame it ends. -/
def fsyncEdge (n bclks : Nat) (slots : List Nat) (m : Mach) : Mach :=
  let p := apt m n
  if !p.cfg.enable then setApt m n fun p => { p with drive := false }
  else
    let te := m.dt.t
    let valid := p.hasEdge && bclks == p.cfg.s * p.cfg.w
    let had := p.hasEdge
    let last := p.lastEdge
    let m := setApt m n fun p => { p with hasEdge := true, lastEdge := te, drive := drives m p,
                                          rampOut := if p.drive then p.rampOut else 0 }
    if !had then m
    else if !valid then glitch n m
    else
      let m := if 16 ≤ p.glitches then endCond m (aptSrc n) 0x53 else m
      let m := setApt m n fun p => { p with glitches := 0, coarse := ((te - last) :: p.coarse).take 64, edges := p.edges + 1 }
      let m := judgePort m n
      let p := apt m n
      let m := if p.st = 3 ∨ p.st = 4 ∨ p.st = 5 then
          let f := (te + usU p.cfg.inLat, inFrame m n slots)
          setApt m n fun p => { p with inBuf := if p.inBuf.length < 512 then p.inBuf ++ [f] else p.inBuf }
        else m
      if (apt m n).drive then driveFrame m n else m

/-! ### Port input frames (R293, R294, R297, R298) -/

/-- The fine rate over the latest second, at a port block (R290). -/
def noteBlock (m : Mach) (n idx stamp : Nat) : Mach :=
  setApt m n fun p =>
    let te := stamp - usU p.cfg.inLat
    let w := (p.edges, te) :: p.win
    let keep := w.filter fun x => decide (te ≤ x.2 + secU + secU / 1000)
    let fine := match keep.find? fun x => decide (x.2 + secU ≤ te) with
      | some x => (p.edges - x.1) * 1000 * secU / (te - x.2)
      | none => p.fine
    { p with win := keep, fine, blkIdx := idx, blkAt := stamp, pblock := true }

/-- One of the port's ramps (R297, R298). -/
def ramp64 (s : Int) (k : Nat) : Int := if k < 64 then (s * (k + 1) + 32) / 64 else s
def fall64 (s : Int) (k : Nat) : Int := if k < 64 then (s * (63 - k) + 32) / 64 else 0

/-- Write a frame of a port's group with its ramp, and go to the next index. -/
def portWrite (m : Mach) (n idx : Nat) (miss : Bool) (xs : List Int) : Mach :=
  let p := apt m n
  let up := (group m (aptGroup n)).up
  let ys := if 0 < p.down then xs.map fun s => fall64 s (64 - p.down)
    else if p.rampIn < 64 then xs.map fun s => ramp64 s p.rampIn else xs.map fun s => rampUp s up
  let m := putGroup m (aptGroup n) idx miss ys
  let m := setGrp m (aptGroup n) fun a => { a with gap := 0, up := a.up + 1, next := some (idx + 1), last := xs }
  setApt m n fun p => { p with down := p.down - 1, rampIn := if 0 < p.down then p.rampIn else min 64 (p.rampIn + 1) }

/-- A port has fallen silent: 0 with MISS at an index (R291, R297). -/
def portZero (m : Mach) (n idx : Nat) : Mach :=
  let m := putGroup m (aptGroup n) idx true ((group m (aptGroup n)).last.map fun _ => 0)
  setGrp m (aptGroup n) fun a => { a with gap := a.gap + 1, next := some (idx + 1) }

/-- Fill a port's indices before that of a frame written after a gap: 0 before the port's return, R255 while it runs. -/
def portGap (n idx : Nat) : Nat → Mach → Mach
  | 0, m => m
  | k + 1, m => match (group m (aptGroup n)).next with
    | some i =>
      if i < idx then portGap n idx k (if (apt m n).rampIn = 0 then portZero m n i else fillOne m (aptGroup n) i) else m
    | none => m

/-- A frame that a MUTED port does not use still begins a port block, so that the rate goes on being measured (R290,
R291). -/
def mutedBlock (m : Mach) (n stamp : Nat) : Mach :=
  let g := aptGroup n
  let idx := indexNear m stamp
  if (apt m n).st = 5 ∧ atBlock m g idx then
    setGrp (noteBlock m n idx stamp) g fun a => { a with lastBlock := idx / blockLen m + 1 }
  else m

/-- The oldest frame of a port's buffer goes to its index (R293), with the check of a port block (R294). The buffer holds it
until its stamp. -/
def portFrame (n : Nat) (m : Mach) : Mach :=
  let p := apt m n
  match p.inBuf with
  | [] => m
  | (stamp, xs) :: rest =>
    if m.dt.t < stamp then m else
    let g := aptGroup n
    let m := setApt m n fun p => { p with inBuf := rest }
    if p.st ≠ 3 ∧ p.st ≠ 4 ∧ p.down = 0 then mutedBlock m n stamp
    else
    let conv := p.st == 4
    let stamp' := if conv then stamp + secU / 1000 else stamp
    let (xs, m) := if conv then converted m xs.length else (xs, m)
    let idx := nextIndex m g stamp'
    if tooLate m g idx then { m with audCnt := { m.audCnt with late := sat m.audCnt.late 1 } }
    else
    let m := portGap n idx (2 * blockLen m) m
    if !conv && atBlock m g idx then
      let e := gridErr m idx stamp
      let m := setGrp m g fun a => { a with lastBlock := idx / blockLen m + 1 }
      let m := setApt (noteBlock m n idx stamp) n fun p => { p with e := e / fs m }
      if (secU : Int) ≤ 2 * e ∧ p.rampIn ≠ 0 then setAptCnt m n fun c => { c with inDrop := sat c.inDrop 1 }
      else if 2 * e ≤ -(secU : Int) ∧ p.rampIn ≠ 0 then
        let m := setAptCnt m n fun c => { c with inIns := sat c.inIns 1 }
        portWrite (portWrite m n idx false (group m g).last) n (idx + 1) false xs
      else portWrite m n idx false xs
    else
      let m := if atBlock m g idx then setGrp (noteBlock m n idx stamp) g fun a => { a with lastBlock := idx / blockLen m + 1 } else m
      portWrite m n idx false xs

/-- At a block boundary a port writes the indices it has not: the ramp down's repeats, then zeros, in WAIT, MEASURE and
MUTED; the fill of R255 while frames are used. -/
def portFill (n stop : Nat) : Nat → Mach → Mach
  | 0, m => m
  | k + 1, m =>
    let p := apt m n
    match (group m (aptGroup n)).next with
    | none => m
    | some i =>
      if stop ≤ i then m
      else if 0 < p.down then
        match p.inBuf with
        | _ :: _ => portFill n stop k (portFrame n m)
        | [] => portFill n stop k (portWrite m n i false (group m (aptGroup n)).last)
      else if p.st = 3 ∨ p.st = 4 then portFill n stop k (fillOne m (aptGroup n) i)
      else portFill n stop k (portZero m n i)

/-- Every port at a block boundary. A port that is MUTED from the start writes zeros from this block on (R291). -/
def fillPorts (m : Mach) : Mach :=
  let stop := m.aud.block * blockLen m
  (m.apt.ports.map (·.1)).foldl (fun m n =>
    let m := if (apt m n).st = 5 ∧ (group m (aptGroup n)).next = none then
        setGrp m (aptGroup n) fun a => { a with next := some (stop - blockLen m), last := List.replicate (min (apt m n).cfg.s (portIn m n).2) 0 }
      else m
    portFill n stop (2 * blockLen m) m) m

/-! ### Commands (R299 to R303) -/

/-- The fields of APT_CFG as a configuration. -/
def aptCfgOf (format s w m_ flags nout inLat outLat : Nat) : AptCfg :=
  { format, s, w, m := m_, enable := bit flags 0, fspol := bit flags 1, bclkEdge := bit flags 2, tdmdly := bit flags 3,
    conv := bit flags 4, trislot := bit flags 5, nout, inLat, outLat }

/-- The ranges of R286, R302 and R303. -/
def aptCfgOk (m : Mach) (n : Nat) (c : AptCfg) : Bool :=
  decide (c.format ≤ 2) && decide (2 ≤ c.s) && decide (c.s ≤ 32) && (c.format == 2 || c.s == 2)
    && (c.w == 16 || c.w == 24 || c.w == 32) && (c.m == 16 || c.m == 24) && decide (c.m ≤ c.w) && decide (c.nout ≤ 32)
    && decide (250 ≤ c.inLat) && decide (c.inLat ≤ 5000) && decide (750 ≤ c.outLat)
    && decide (ringL m c.outLat ≤ (apt m n).n)

/-- The fields whose change on an enabled port is a clock loss followed by a return (R300). -/
def retimed (a b : AptCfg) : Bool :=
  a.format != b.format || a.s != b.s || a.w != b.w || a.m != b.m || a.fspol != b.fspol || a.bclkEdge != b.bclkEdge
    || a.tdmdly != b.tdmdly || a.conv != b.conv || a.inLat != b.inLat || a.outLat != b.outLat

/-- Disable a port (R300): the input ramps down, SDOUT goes to high impedance at the next frame, ring and kernels are
freed. -/
def disablePort (m : Mach) (n : Nat) (c : AptCfg) : Mach :=
  let m := startDown (setApt m n fun p => { p with cfg := c, hasEdge := false, coarse := [], win := [], fine := 0,
                                                    nominal := 0, glitches := 0, clkLost := false }) n
  let m := [0x50, 0x53, 0x54, 0x55].foldl (fun m k => endCond m (aptSrc n) k) m
  enter m n 0

/-- APT_CFG (R286, R300, R303). -/
def commitAptCfg (n format s w m_ flags nout inLat outLat : Nat) (m : Mach) : CRes :=
  let c := aptCfgOf format s w m_ flags nout inLat outLat
  let p := apt m n
  if 31 < n ∨ 63 < flags ∨ !aptCfgOk m n c then .arg
  else if !c.enable then .done (if p.cfg.enable then disablePort m n c else setApt m n fun p => { p with cfg := c })
  else
    let off := setApt m n fun p => { p with cfg := { p.cfg with enable := false } }
    let (y, free) := bestCore off
    let keep := p.cfg.enable && p.cfg.conv && c.conv && decide (portKernels m c = portKernels m p.cfg)
    if c.conv ∧ !keep ∧ free < portKernels m c * convCost m then cyclesShort m
    else if !p.cfg.enable ∧ poolFree m < p.n * atRate m 32 then poolShort m
    else
      let m' := setApt m n fun p => { p with cfg := c, core := if keep then p.core else y }
      if !p.cfg.enable then .done (enter (setApt m' n fun p => { p with rampIn := 0, rampOut := 0, down := 0 }) n 1)
      else if retimed p.cfg c then .done (clockLost m' n)
      else .done m'

/-- APT_RING (R296, R299). -/
def commitAptRing (n len : Nat) (m : Mach) : CRes :=
  let p := apt m n
  if 31 < n ∨ len < 64 ∨ 4096 < len then .arg
  else if len < ringL m p.cfg.outLat then .refuse sArg { value := ringL m p.cfg.outLat }
  else if !p.cfg.enable then .done (setApt m n fun p => { p with n := len, nPend := none })
  else
    let need := (max len p.n - max p.n (p.nPend.getD 0)) * atRate m 32
    if poolFree m < need then poolShort m
    else .done (setApt m n fun p => { p with nPend := if len = p.n then none else some len })

/-- A ramp is in progress. -/
def ramping (p : Apt) : Bool :=
  decide (0 < p.down) || ((p.st == 3 || p.st == 4) && (decide (p.rampIn < 64) || decide (p.rampOut < 64)))

/-- APT_STAT (R305). -/
def aptStat (p : Apt) : Nat := p.st * 2 ^ 29 + p.nominal * 2 ^ 26 + b2n p.drive * 2 ^ 25 + b2n (ramping p) * 2 ^ 24

/-- APT_STATUS (R303). -/
def askAptStatus (n : Nat) (m : Mach) : QRes :=
  if 31 < n then .arg
  else
    let p := apt m n
    .answer m sOk [.w (aptStat p), .w p.fine, .w (inLatNow p), .w (outLatNow p), .w (ringL m p.cfg.outLat),
      .q p.blkIdx, .instant p.blkAt, .i (p.e / nsU), .i (p.eo / nsU)]

/-! ### Input frames and blocks of the whole domain -/

/-- AUDIO_INPUT_FRAME (R252): the oldest frame of a source's de-embedder, or of a port's buffer. -/
def inputFrame (g : Nat) (m : Mach) : Mach := if g < 2304 then deembedNext g m else portFrame (g - 2400) m

/-- AUDIO_BLOCK (R20): ports and groups fill what they missed, then the committed changes of the boundary. -/
def wholeBlock (m : Mach) : Mach :=
  let m := { m with aud := { m.aud with block := blockAt m.dt.t } }
  audioBlock (fillPorts m)

/-! ### The meanings -/

/-- AUDIO_INPUT_FRAME (R252). -/
def execAudioInputFrame (group : Nat) (s : State) := runIf (group < 2304 || (2400 ≤ group && group < 2432)) (inputFrame group) s
/-- APT_FSYNC_EDGE (R289). -/
def execAptFsyncEdge (port bclks : Nat) (slots : List Nat) (s : State) := runIf (port < 32) (fsyncEdge port bclks slots) s
/-- APT_CLOCK_LOST (R297). -/
def execAptClockLost (port : Nat) (s : State) := runIf (port < 32) (aptClockLost port) s

end Sys2Proof.Machine
end

