-- ==== Sys2Proof/Machine/Embed.lean ====
section
/-! DEFINITION. The embedder: output samples as AES3 subframes and as ST 299 packets (R49, R263). -/
namespace Sys2Proof.Machine

/-! ### Channel status (R263) -/

/-- Generated channel status: professional use, linear PCM, the domain rate, 24-bit words (AES3, Assumption 9). -/
def madeStatus (m : Mach) : Nat := 0x2C * 2 ^ 16 + (if m.aud.rate = 0 then 0x81 else 0x01 + 0x10 * 2 ^ 32)

/-- The one valid tap that feeds an output channel, where it has unity gain: its input channel. -/
def unityFeed (m : Mach) (o : Nat) : Option Nat :=
  match (List.range 32).filterMap fun k => if tapV (tap m o k) then some (tap m o k) else none with
  | [w] => if tapGain w = 0x100000 then some (tapIch w) else none
  | _ => none

/-- The channel-status block of an output channel: its input's in a transparent pair, else generated. -/
def outStatus (m : Mach) (o : Nat) : Nat :=
  match unityFeed m (o / 2 * 2), unityFeed m (o / 2 * 2 + 1) with
  | some a, some b => if a / 2 = b / 2 ∧ a ≠ b then statusOf m 33 (if o % 2 = 0 then a else b) else madeStatus m
  | _, _ => madeStatus m

/-- An output sample as a subframe: blocks start at multiples of 192, validity and user bits are 0. -/
def outSubframe (m : Mach) (o idx : Nat) : Subframe :=
  { x := tget 0 (tget [] m.aud.outs o) idx, c := bit (outStatus m o) (idx % 192), z := idx % 192 == 0 }

/-! ### Packets on a line -/

/-- Add packets behind those of a line, in its chroma stream (0) or luma stream (1). -/
def appendAncs (k : Nat) (as : List Anc) (ps : List (List Nat)) : List Anc :=
  ps.foldl (fun as p =>
    let after := (as.filter fun a => a.pos % 2 == k).foldl (fun x a => max x (a.pos + 2 * (3 + a.words.length))) (8 + k)
    as ++ [{ pos := after, words := p }]) as

/-- The latest output index delivered by now (R262). -/
def delivered (m : Mach) : Nat := (m.dt.t - secU / 1500) * fs m / secU

/-- Lines that carry the audio control packets: the second after the standard's switch line of each field (Assumption 9). -/
def controlLine (fmt : Fmt) (line : Nat) : Bool := line == 9 || (fmt.scan != 0 && line == 571)

/-- An EMBED destination's line (R263): the samples delivered since the line before as data packets, and the control packets
of a field. `emb` is the first index not yet embedded; answers the next. -/
def embedLine (m : Mach) (d line : Nat) (emb : Option Nat) (l : LineData) : LineData × Option Nat :=
  let fmt := (plane m (air m d).plane).fmt
  let (base, size) := destGroup m d
  let groups := min (if fmtClass fmt < 2 then 4 else 8) (size / 4)
  let last := delivered m
  let first := max (emb.getD last) (last + 1 - 8)
  let clock := totalSamples fmt * totalLines fmt * rateNum fmt.rate / rateDen fmt.rate
  let before := m.dt.t - secU * rateDen fmt.rate / (rateNum fmt.rate * totalLines fmt)
  let data := (span first (last + 1 - first)).flatMap fun i =>
    let clk := (gridAt m i + secU / 1500 - before) * clock / secU
    (List.range groups).map fun g => audioPacket g (i % 255 + 1) clk ((List.range 4).map fun k => outSubframe m (base + 4 * g + k) i)
  let ctl := if controlLine fmt line then (List.range groups).map fun g => audioControl g 0 m.aud.rate (if m.aud.rate = 0 then 32 else 64)
    else []
  ({ l with anc := appendAncs 1 (appendAncs 0 l.anc data) ctl }, some (last + 1))

end Sys2Proof.Machine
end

