-- ==== Sys2Proof/Machine/Ethernet.lean ====
section
/-! DEFINITION. Ethernet ports, MACs, wake patterns and the headers of the packets the module sends (chapter 06). -/
namespace Sys2Proof.Machine

def mac (m : Mach) (k : Nat) : Mac := tget {} m.eth.macs k
def setMac (m : Mach) (k : Nat) (f : Mac → Mac) : Mach := { m with eth := { m.eth with macs := tmod {} m.eth.macs k f } }
def setMacCnt (m : Mach) (k : Nat) (f : MacCnt → MacCnt) : Mach :=
  { m with eth := { m.eth with cnts := tmod {} m.eth.cnts k f } }

/-- A serial lane, 0 to 223. -/
def lane (m : Mach) (k : Nat) : Lane := tget {} m.ln.lanes k
def setLane (m : Mach) (k : Nat) (f : Lane → Lane) : Mach := { m with ln := { m.ln with lanes := tmod {} m.ln.lanes k f } }

/-! ### Splits (R170, R171) -/

/-- Rate in Gbit/s of logical lane `i`'s MAC in a split mode; 0 where the mode creates none. -/
def splitRate (mode i : Nat) : Nat :=
  match mode, i with
  | 0, 0 => 400
  | 1, 0 => 200
  | 1, 2 => 200
  | 2, _ => 100
  | 3, 0 => 200
  | 3, 2 => 100
  | 3, 3 => 100
  | _, _ => 0

/-- A MAC's rate in Gbit/s, 0 for a MAC that does not exist. -/
def macRate (m : Mach) (k : Nat) : Nat := if k < 64 then splitRate (tget 0 m.eth.split (k / 4)) (k % 4) else 0
def macExists (m : Mach) (k : Nat) : Bool := macRate m k != 0

/-- The MAC that an Ethernet lane belongs to, by the logical lane it carries (R151, R170). -/
def macOfLane (m : Mach) (k : Nat) : Nat :=
  let p := (k - 144) / 4
  let i := (lane m k).phys % 4
  4 * p + (((List.range (i + 1)).filter fun j => splitRate (tget 0 m.eth.split p) j != 0).getLast?.getD 0)

/-- The fitted lanes that carry a MAC's logical lanes. -/
def macLanes (m : Mach) (k : Nat) : List Nat :=
  (span (144 + k / 4 * 4) 4).filter fun j => (lane m j).fitted && macOfLane m j == k

/-- Every logical lane of a MAC has a lane for which `p` holds. -/
def allLanes (m : Mach) (k : Nat) (p : Lane → Bool) : Bool :=
  ((macLanes m k).filter fun j => p (lane m j)).length * 100 == macRate m k

/-- The lowest-numbered context with a descriptor on a MAC for which `p` holds. -/
def ctxOnMac (m : Mach) (p : Nat → Bool) : Option Nat :=
  (tkeys (fun (c : Ctx) => decide (1 ≤ c.st) && p c.d.mac) m.flw.ctxs).head?

/-- Post a link event (R173). -/
def linkEvent (m : Mach) (k : Nat) : Mach :=
  let x := mac m k
  event m 0x0020 1 (le 1 k ++ le 1 (b2n x.link) ++ le 1 (b2n x.lfault + 2 * b2n x.rfault))

/-- A MAC's link can be up (R173): every lane locked and none looped, alignment-marker lock, no fault for 10 ms. -/
def linkReady (m : Mach) (k : Nat) : Bool :=
  let x := mac m k
  macExists m k && allLanes m k (fun l => l.lock && l.loop == 0) && x.align && !x.lfault && !x.rfault
    && decide (max x.faultAt m.sys.resetAt + 10 * msT ≤ m.now)

/-- The link goes up or down: an event, and at a loss under a bound context the fault (R173). -/
def setLink (k : Nat) (up : Bool) (m : Mach) : Mach :=
  if (mac m k).link = up then m
  else
    let m := linkEvent (setMac m k fun x => { x with link := up }) k
    if up then endCond m (0xBF0 + k) 0x30
    else if (ctxOnMac m (· == k)).isSome then raise m (0xBF0 + k) 0x30 1 else m

/-- ETH_LINK_CHANGE (R173): what the PCS reports; the link comes up only while the rule's conditions hold. -/
def linkChange (k : Nat) (up align lfault rfault : Bool) (m : Mach) : Mach :=
  if !macExists m k then m
  else
    let x := mac m k
    let faultAt := if x.lfault || x.rfault || lfault || rfault then m.now else x.faultAt
    let m := setMac m k fun x => { x with align, lfault, rfault, faultAt }
    setLink k (up && linkReady m k) m

/-- The PCS of a MAC stops: no alignment, no fault, nothing in its buffers. -/
def stopMac (k : Nat) (m : Mach) : Mach :=
  setLink k false (setMac m k fun x => { x with align := false, lfault := false, rfault := false, rxq := [], txq := [] })

/-- A MAC goes down at a split change; its counters clear where the change creates or removes it. -/
def dropMac (old new k : Nat) (m : Mach) : Mach :=
  let m := stopMac k m
  let m := if splitRate new (k % 4) = 0 then endCond m (0xBF0 + k) 0x30 else m
  if (splitRate old (k % 4) == 0) != (splitRate new (k % 4) == 0) then
    { m with eth := { m.eth with cnts := tdel m.eth.cnts k } } else m

/-- A port takes a split mode (R171). -/
def newSplit (port mode : Nat) (m : Mach) : Mach :=
  let m := (span (4 * port) 4).foldl (fun m k => dropMac (tget 0 m.eth.split port) mode k m) m
  { m with eth := { m.eth with split := tset m.eth.split port mode } }

/-- ETH_PORT_SPLIT (R171, R183). -/
def commitEthPortSplit (port mode : Nat) (m : Mach) : CRes :=
  let old := tget 0 m.eth.split port
  if 15 < port ∨ 3 < mode then .arg
  else if mode = old then .commit m []
  else match ctxOnMac m fun k => k / 4 == port with
    | some c => .conflict 6 c
    | none =>
      match (m.eth.wake.find? fun x => x.2.on && x.2.mac / 4 == port && splitRate mode (x.2.mac % 4) != 100).map (·.1) with
      | some w => .conflict 11 w
      | none =>
        .commit (newSplit port mode m) []

/-- ETH_MAC_CFG (R174, R184): the address has its first transmitted byte first. -/
def commitEthMacCfg (k addr maxFrame : Nat) (m : Mach) : CRes :=
  if !macExists m k ∨ bit addr 40 ∨ maxFrame < 1518 ∨ 9216 < maxFrame then .arg
  else .commit (setMac m k fun x => { x with addr, maxFrame }) []

/-! ### Wake patterns (R181 to R183) -/

/-- Enabled matchers on a MAC. -/
def matchersOn (m : Mach) (k : Nat) : List Nat := tkeys (fun (w : Matcher) => w.on && w.mac == k) m.eth.wake

/-- The listed cost of the Den configuration in mA (R497). -/
def denCost (m : Mach) : Nat :=
  let on := m.eth.wake.filter fun x => x.2.on
  520 + 240 * (b2n m.pr.cfg.keepA + b2n m.pr.cfg.keepB) + 210 * ((on.map fun x => x.2.mac).eraseDups).length + 15 * on.length

/-- The refusal of a configuration above the always-on limit: the bundle configured first for Den, or the matcher
enabled first (R183). -/
def overDen (m : Mach) : CRes :=
  let kept := m.pr.keepOrder.filter fun b => if b = 0 then m.pr.cfg.keepA else m.pr.cfg.keepB
  match kept.head? with
  | some b => .conflict 10 b
  | none => .conflict 11 (m.eth.wakeOrder.head?.getD 0)

/-- The cost rises above 1.3 A and no expert has lifted the check (R183, R497). -/
def tooCostly (m m' : Mach) : Bool := decide (denCost m < denCost m') && decide (1300 < denCost m') && !m.pwr.limchk

/-- WAKE_PATTERN (R181, R183). -/
def commitWakePattern (w on k check mask_ : Nat) (m : Mach) : CRes :=
  if 7 < w ∨ 1 < on ∨ !macExists m k ∨ mask_ = 0 then .arg
  else if on = 0 then
    .commit { m with eth := { m.eth with wake := tmod {} m.eth.wake w fun x => { x with on := false },
                                         wakeOrder := m.eth.wakeOrder.filter (· != w) } } []
  else if macRate m k ≠ 100 then .arg
  else
    let order := if m.eth.wakeOrder.contains w then m.eth.wakeOrder else m.eth.wakeOrder ++ [w]
    let m' := { m with eth := { m.eth with wake := tset m.eth.wake w { on := true, mac := k, check, mask := mask_ },
                                           wakeOrder := order } }
    if tooCostly m m' then overDen m else .commit m' []

/-- A frame, FCS included, matches a pattern (R181). -/
def wakeMatch (w : Matcher) (frame : List Byte) : Bool :=
  let on := members 128 w.mask
  let need := (on.getLast?.getD 0) + 1
  decide (need ≤ frame.length) && (crc32c (on.map fun i => lget 0 frame i)).toNat == w.check

/-! ### Registers read by commands (R186) -/

/-- ETH_MAC_STAT. RATE is 0 until the MAC's lanes drive, as its reset value says (Assumption 51). -/
def macStat (m : Mach) (k : Nat) : Nat :=
  let x := mac m k
  let rate := if !allLanes m k (·.ready) then 0 else match macRate m k with
    | 100 => 1
    | 200 => 2
    | 400 => 3
    | _ => 0
  b2n (macExists m k) * 2 ^ 31 + b2n x.link * 2 ^ 30 + b2n x.align * 2 ^ 29 + b2n x.lfault * 2 ^ 28 + b2n x.rfault * 2 ^ 27
    + rate * 2 ^ 25 + mask ((List.range 8).map fun w => (matchersOn m k).contains w) * 2 ^ 8

/-- ETH_STATUS (R184). -/
def askEthStatus (k : Nat) (m : Mach) : QRes := if !macExists m k then .arg else .answer m sOk [.w (macStat m k)]

/-! ### Checks and headers (R177, R179) -/

/-- One bit and one byte of the Ethernet FCS register. -/
def fcsBit (c : BitVec 32) : BitVec 32 := if c.getLsbD 0 then (c >>> 1) ^^^ 0xEDB88320#32 else c >>> 1
def fcsByte (c : BitVec 32) (b : Byte) : BitVec 32 :=
  fcsBit (fcsBit (fcsBit (fcsBit (fcsBit (fcsBit (fcsBit (fcsBit (c ^^^ b.setWidth 32))))))))

/-- The FCS of IEEE 802.3 Clause 4, in transmission order. -/
def fcs (bs : List Byte) : List Byte := le 4 ((bs.foldl fcsByte 0xFFFFFFFF#32) ^^^ 0xFFFFFFFF#32).toNat

/-- The one's-complement sum of 16-bit words. -/
def sum16 : List Byte → Nat
  | [] => 0
  | [a] => a.toNat * 256
  | a :: b :: r => a.toNat * 256 + b.toNat + sum16 r

/-- Fold carries in. -/
def fold16 (n : Nat) : Nat := let a := n % 65536 + n / 65536; let b := a % 65536 + a / 65536; b % 65536 + b / 65536

/-- The Internet checksum of bytes, with a sum carried in. -/
def checksum (bs : List Byte) (start : Nat := 0) : Nat := 65535 - fold16 (start + sum16 bs)

/-- An IPv4 header without options (R177, R179); the identification is a free value (Assumption 5). -/
def ip4Header (id tos ttl proto len : Nat) (src dst : List Byte) (options : List Byte := []) : List Byte :=
  let words := 5 + options.length / 4
  let h (c : Nat) := [BitVec.ofNat 8 (0x40 + words), BitVec.ofNat 8 tos] ++ be 2 (4 * words + len) ++ be 2 id ++ be 2 0
    ++ be 1 ttl ++ be 1 proto ++ be 2 c ++ src.take 4 ++ dst.take 4 ++ options
  h (checksum (h 0))

/-- An IPv6 header. -/
def ip6Header (tos hop next len : Nat) (src dst : List Byte) : List Byte :=
  be 4 (6 * 2 ^ 28 + tos * 2 ^ 20) ++ be 2 len ++ be 1 next ++ be 1 hop ++ src ++ dst

/-- The pseudo-header sum of UDP and ICMPv6. -/
def pseudo (src dst : List Byte) (proto len : Nat) : Nat := sum16 src + sum16 dst + proto + len

/-- A UDP datagram; `check` asks for the checksum, which is never sent as 0 (R179). -/
def udp (src dst : List Byte) (sport dport : Nat) (check : Bool) (payload : List Byte) : List Byte :=
  let len := 8 + payload.length
  let h (c : Nat) := be 2 sport ++ be 2 dport ++ be 2 len ++ be 2 c
  let c := checksum (h 0 ++ payload) (pseudo src dst 17 len)
  h (if check then (if c = 0 then 0xFFFF else c) else 0) ++ payload

/-- The Ethernet address of a multicast group (RFC 1112, RFC 2464). -/
def groupMac (v6 : Bool) (addr : List Byte) : Nat :=
  if v6 then 0x3333 * 2 ^ 32 + beNat (addr.drop 12) else 0x01005E * 2 ^ 24 + beNat (addr.take 4) % 2 ^ 23

/-- A group address. -/
def isGroup (v6 : Bool) (addr : List Byte) : Bool :=
  let b := (lget 0 addr 0).toNat
  if v6 then b == 0xFF else decide (224 ≤ b) && decide (b ≤ 239)

/-- An Ethernet frame without its FCS, padded to 60 bytes; `tag` is the TCI of an IEEE 802.1Q tag. -/
def ethFrame (dst src : Nat) (tag : Option Nat) (etype : Nat) (payload : List Byte) : List Byte :=
  let t := match tag with
    | some tci => be 2 0x8100 ++ be 2 tci
    | none => []
  let f := be 6 dst ++ be 6 src ++ t ++ be 2 etype ++ payload
  f ++ List.replicate (60 - f.length) 0

/-- What a MAC's transmitter sends. -/
inductive MacOut where
  | off
  | remoteFault
  | idle
  | frames
  deriving DecidableEq, Repr

/-- The state of a MAC's transmitter (R173, R174, R182): it answers a local fault with remote fault and a remote fault with
idle; frames leave only on a link that is up, from an address, outside Den. -/
def macOut (m : Mach) (k : Nat) : MacOut :=
  let x := mac m k
  if !macExists m k then .off
  else if x.lfault then .remoteFault
  else if x.rfault then .idle
  else if x.link ∧ x.addr ≠ 0 ∧ m.pwr.st ≠ 2 then .frames
  else if allLanes m k (·.ready) then .idle
  else .off

/-- A MAC may send frames. -/
def macSends (m : Mach) (k : Nat) : Bool := macOut m k == .frames

/-- Put a frame in a MAC's release buffer; `speak`: only a module at ROLE 8 or 15 sends it (R206). -/
def queueFrame (m : Mach) (k : Nat) (ctx : Option Nat) (seq : Nat) (frame : List Byte) (speak : Bool := false) : Mach :=
  setMac m k fun x => { x with txq := x.txq ++ [{ ctx, seq, frame, speak }] }

/-- ETH_PACKET_RELEASE (R31, R179, R180): the oldest packet leaves at its release instant, if it is complete. -/
def packetRelease (k : Nat) (complete : Bool) (m : Mach) : Mach :=
  match (mac m k).txq with
  | [] => m
  | p :: rest =>
    let m := setMac m k fun x => { x with txq := rest }
    if !complete then raise (setMacCnt m k fun c => { c with txLate := sat64 c.txLate 1 }) (0xBF0 + k) 0x18 1
    else if !macSends m k ∨ (p.speak ∧ !speaks m) then m
    else
      let f := p.frame ++ fcs p.frame
      let m := setMacCnt (setMac m k fun x => { x with sent := f }) k fun c =>
        { c with txFrames := sat64 c.txFrames 1, txBytes := sat64 c.txBytes f.length }
      match p.ctx with
      | some c =>
        { m with flw := { m.flw with
            ctxs := tmod {} m.flw.ctxs c fun x => { x with seq := p.seq },
            cnts := tmod {} m.flw.cnts c fun x => { x with pkts := sat x.pkts 1 } } }
      | none => m

/-! ### The meanings -/

/-- ETH_LINK_CHANGE (R173). -/
def execEthLinkChange (mac : Nat) (up align lfault rfault : Bool) (s : State) :=
  runIf (mac < 64) (linkChange mac up align lfault rfault) s
/-- ETH_PACKET_RELEASE (R180). -/
def execEthPacketRelease (mac : Nat) (complete : Bool) (s : State) := runIf (mac < 64) (packetRelease mac complete) s

end Sys2Proof.Machine
end

