-- ==== Sys2Proof/Machine/Pictures.lean ====
section
/-! DEFINITION. Pictures line by line: generators, black, the scaler, blending and dither (R34, R35, R229 to
R234). -/
namespace Sys2Proof.Machine

/-! ### Generators (R34, R35) -/

/-- 75 % bars, left to right: luma, Cb and Cr (Assumption 9). -/
def bars : List (Nat × Nat × Nat) :=
  [(721, 512, 512), (674, 176, 543), (581, 589, 176), (534, 253, 207), (251, 771, 817), (204, 435, 848), (111, 848, 481),
   (64, 512, 512)]

/-- One word of a flat colour, in the order Cb, Y, Cr, Y. -/
def colourWord (y cb cr i : Nat) : Nat := if i % 4 = 0 then cb else if i % 4 = 2 then cr else y

/-- One word of a generator's active line of `w` samples (R35). -/
def genWord (g : Gen) (w i : Nat) : Nat :=
  match g.pattern with
  | 1 => colourWord g.y g.cb g.cr i
  | 2 =>
    let x := i / 4 * 2
    let (y, cb, cr) := lget (64, 512, 512) bars ((if i % 2 = 0 then x else i / 2) * 8 / w)
    colourWord y cb cr i
  | 3 => if i % 2 = 0 then 512 else 64 + (876 * (i / 2) * 2 + (w - 1)) / (2 * (w - 1))
  | _ => blackWord i

/-- A generator's active line. -/
def genLine (g : Gen) (w : Nat) : List Nat := (List.range (2 * w)).map (genWord g w)

/-! ### The scaler (R230 to R232) -/

/-- A component's sample of a row in 12 bits: component 0 luma, 1 Cb, 2 Cr; chroma positions on the chroma grid. -/
def Image.at_ (im : Image) (c x y : Nat) : Nat :=
  let i := if c = 0 then 2 * x + 1 else if c = 1 then 4 * x else 4 * x + 2
  4 * lget (blackWord i) (tget [] im.rows y) i

/-- Δ (R230). -/
def stepOf (crop dst : Nat) : Nat := (2 * 2 ^ 24 * crop + dst) / (2 * dst)

/-- n and φ of a position given in quarters of 2⁻²⁴ (R230). -/
def phaseOf (p4 : Int) : Int × Nat :=
  let n := p4 / 2 ^ 26
  let f := ((p4 % 2 ^ 26 + 2 ^ 19) / 2 ^ 20).toNat
  if f = 64 then (n + 1, 0) else (n, f)

/-- Luma or line position and chroma position, in quarters of 2⁻²⁴; `half` adds half a field line (R224). -/
def lumaPos (d x : Nat) (half : Bool) : Int := 4 * (x * d : Nat) + 2 * ((d : Int) - 2 ^ 24) + (if half then 2 ^ 25 else 0)
def chromaPos (d j : Nat) : Int := 4 * (j * d : Nat) + ((d : Int) - 2 ^ 24)

/-- The set in use on an axis: the automatic choice by Δ, or the loaded set (R232). -/
def setOf (named d : Nat) : Nat :=
  if named ≠ 0 then named else if d ≤ 2 ^ 24 then 0 else if d ≤ 2 ^ 25 then 1 else if d ≤ 2 ^ 26 then 2 else 3

/-- One coefficient. The built-in sets are free values whose taps sum to 1,024, the residue on the centre tap
(Assumption 5). -/
def coef (sets : Tab (List Int)) (s : Nat) (vertical : Bool) (phase k : Nat) : Int :=
  let taps := if vertical then 6 else 8
  let mid := taps / 2 - 1 + b2n (decide (32 < phase))
  if 4 ≤ s then lget 0 (tget [] sets s) ((if vertical then 512 else 0) + phase * taps + k)
  else
    let raw (i : Nat) : Int := ofBits 12 (toBits 12 (Config.scalerCoef s vertical phase i))
    if k ≠ mid then raw k
    else 1024 - ((List.range taps).filter (· != mid)).foldl (fun a i => a + raw i) 0

/-- An index inside both the crop and the picture. -/
def nearest (i : Int) (lo hi : Nat) : Nat := (max (lo : Int) (min (hi : Int) i)).toNat

/-- The crop's first and last index inside a picture of `size`. -/
def cropSpan (start len size : Nat) : Nat × Nat :=
  let lo := min start (size - 1)
  (lo, max lo (min (start + len) size - 1))

/-- Round, shift and clip a filter sum (R231). -/
def filterOut (h : Int) : Nat := (max 0 (min 4095 ((h + 512) / 2 ^ 10))).toNat

/-- The horizontal pass at one output position of one input row (R231). -/
def hpass (sets : Tab (List Int)) (w : Win) (im : Image) (c x row : Nat) : Nat :=
  let d := stepOf w.cropW w.dstW
  let s := setOf w.hset d
  let (lo, hi) := if c = 0 then cropSpan w.cropX w.cropW im.width else cropSpan (w.cropX / 2) (w.cropW / 2) (im.width / 2)
  let base : Int := if c = 0 then w.cropX else w.cropX / 2
  let (n, f) := phaseOf (if c = 0 then lumaPos d x false else chromaPos d x)
  if d = 2 ^ 24 ∧ s = 0 ∧ f = 0 then im.at_ c (nearest (base + n) lo hi) row
  else filterOut ((List.range 8).foldl (fun a k =>
    a + coef sets s false f k * (im.at_ c (nearest (base + n - 3 + k) lo hi) row : Int)) 0)

/-- One scaled 12-bit sample of a window: horizontal passes of six lines, then the vertical pass (R231). A field image
has half the lines. -/
def scaled (sets : Tab (List Int)) (w : Win) (im : Image) (field second : Bool) (c x y : Nat) : Nat :=
  let cropH := if field then (w.cropH + 1) / 2 else w.cropH
  let cropY := if field then w.cropY / 2 else w.cropY
  let d := stepOf cropH w.dstH
  let s := setOf w.vset d
  let (lo, hi) := cropSpan cropY cropH im.height
  let (n, f) := phaseOf (lumaPos d y second)
  if d = 2 ^ 24 ∧ s = 0 ∧ f = 0 then hpass sets w im c x (nearest (cropY + n) lo hi)
  else filterOut ((List.range 6).foldl (fun a k =>
    a + coef sets s true f k * (hpass sets w im c x (nearest (cropY + n - 2 + k) lo hi) : Int)) 0)

/-! ### Blending and dither (R229, R234) -/

/-- Component and position of word `i` of a line: luma at every sample, chroma at even ones. -/
def wordComp (i : Nat) : Nat := if i % 4 = 0 then 1 else if i % 4 = 2 then 2 else 0
def wordSample (i : Nat) : Nat := if i % 2 = 0 then i / 4 * 2 else i / 2

/-- One 10-bit colour word of a packed colour, Y in [29:20], Cb in [19:10], Cr in [9:0]. -/
def packedWord (col i : Nat) : Nat := colourWord (bits col 29 20) (bits col 19 10) (bits col 9 0) i

/-- The rotation of the dither matrix by output frame (R234). -/
def ditherShift (frame : Nat) : Nat × Nat := lget (0, 0) [(0, 0), (2, 2), (0, 2), (2, 0)] (frame % 4)

def ditherMatrix : List Nat := [0, 8, 2, 10, 12, 4, 14, 6, 3, 11, 1, 9, 15, 7, 13, 5]

/-- One output word of a 12-bit sample (R234). -/
def dithered (mode frame c x y s : Nat) : Nat :=
  let v :=
    if mode = 0 then min ((s + 2) / 4) 1023
    else
      let dep := 12 - 2 * mode
      let k := 12 - dep
      let (a, b) := ditherShift frame
      let x' := (x + a) % 4
      let y' := (y + b) % 4
      let luma := lget 0 ditherMatrix (4 * y' + x')
      let t := if c = 0 then luma else if c = 1 then lget 0 ditherMatrix (4 * x' + y') else 15 - luma
      min ((s + t * 2 ^ k / 16) / 2 ^ k) (2 ^ dep - 1) * 2 ^ (10 - dep)
  max 4 (min 1019 v)

end Sys2Proof.Machine
end

