-- ==== Sys2Proof/Machine/Flows.lean ====
section
/-! DEFINITION. Flow contexts: descriptors, admission, playout, merge, joins, ingress ports and send flows (chapter 07). -/
namespace Sys2Proof.Machine

def ctx (m : Mach) (c : Nat) : Ctx := tget {} m.flw.ctxs c
def setCtx (m : Mach) (c : Nat) (f : Ctx → Ctx) : Mach := { m with flw := { m.flw with ctxs := tmod {} m.flw.ctxs c f } }
def setCtxCnt (m : Mach) (c : Nat) (f : CtxCnt → CtxCnt) : Mach := { m with flw := { m.flw with cnts := tmod {} m.flw.cnts c f } }
def ingress (m : Mach) (p : Nat) : Ingress := tget {} m.flw.ports p
def setIngress (m : Mach) (p : Nat) (f : Ingress → Ingress) : Mach :=
  { m with flw := { m.flw with ports := tmod {} m.flw.ports p f } }

/-- Fault source of the contexts on a context's MAC (R516). -/
def ctxSrc (m : Mach) (c : Nat) : Nat := 0xC30 + (ctx m c).d.mac

/-! ### Descriptors (R189, R190) -/

/-- The descriptor of 128 bytes (R189). -/
def descOf (d : List Byte) : Desc :=
  { typ := fld d 0 1, dir := fld d 1 1, mac := fld d 2 1, flags := fld d 3 1, tci := fld d 4 2, dscp := fld d 6 1,
    ttl := fld d 7 1, daddr := sub d 8 16, saddr := sub d 24 16, dport := fld d 40 2, sport := fld d 42 2,
    ssrc := fld d 44 4, pt := fld d 48 1, bind := fld d 49 1, port := fld d 50 2, chan := fld d 52 4, nch := fld d 56 1,
    afmt := fld d 57 1, partner := fld d 58 2, offset := fld d 60 4, mwin := fld d 64 4, payload := fld d 68 2,
    anchor := fld d 70 1, depth := fld d 71 1, joinWait := fld d 72 4, width := fld d 76 2, height := fld d 78 2,
    fmt := fld d 80 1, rest := fld d 81 47 }

def Desc.v6 (d : Desc) : Bool := bit d.flags 0
def Desc.tagged (d : Desc) : Bool := bit d.flags 1
def Desc.video (d : Desc) : Bool := d.typ == 0 || d.typ == 4
def Desc.auto (d : Desc) : Bool := bit d.flags 5 && d.video && d.dir == 0
def Desc.bpm (d : Desc) : Bool := bit d.flags 6
def Desc.audio (d : Desc) : Bool := d.typ == 1 || d.typ == 2

/-- RTP clock rate (R195; 27 MHz for ST 2022-6, Assumption 12), audio rate in Hz, samples in a packet, bytes of a sample on
the wire. -/
def Desc.rate (d : Desc) : Nat := if d.afmt % 4 = 0 then 48000 else 96000
def Desc.clock (d : Desc) : Nat := if d.audio then d.rate else if d.typ = 4 then 27000000 else 90000
def Desc.perPacket (d : Desc) : Nat := d.rate * lget 125000 [125000, 250000, 333333, 1000000] (bits d.afmt 6 4) / 1000000000 +
  (if bits d.afmt 6 4 = 2 then 1 else 0)
def Desc.sampleBytes (d : Desc) : Nat := if d.typ = 2 then 4 else if bits d.afmt 3 2 = 1 then 2 else 3

/-- Bytes of headers before the RTP payload, FCS included. -/
def Desc.headBytes (d : Desc) : Nat :=
  14 + (if d.tagged then 4 else 0) + (if d.v6 then 40 else 20) + 8 + 12 + (if d.typ = 0 ∨ d.typ = 3 ∨ d.typ = 4 then 8 else 0) + 4

/-- RTP payload bytes of a context's largest packet; 1,200 for a received -20 flow (Assumption 12). -/
def Desc.bodyBytes (d : Desc) : Nat :=
  if d.audio then d.perPacket * d.nch * d.sampleBytes
  else if d.typ = 0 then (if d.dir = 1 then d.payload else 1200)
  else if d.typ = 4 then 1376 else 0

/-- The plane format of an egress port as committed, and the one on air (R214). -/
def egressFmt (m : Mach) (q : Nat) : Fmt := (plane m (dest m (1152 + q)).plane).fmt
def airFmt (m : Mach) (q : Nat) : Fmt := (plane m (air m (1152 + q)).plane).fmt

/-- A twin: a send context that names its primary (R204). -/
def Desc.twin (d : Desc) : Bool := d.dir == 1 && d.partner != 0xFFFF

/-- The descriptor by which a context sends (R204): a twin has its primary's binding and essence, and its own addresses. -/
def Desc.eff (m : Mach) (d : Desc) : Desc :=
  if !d.twin then d
  else
    let p := (ctx m d.partner).d
    { p with mac := d.mac, flags := d.flags % 8 + p.flags / 8 * 8, tci := d.tci, dscp := d.dscp, ttl := d.ttl, daddr := d.daddr,
             dport := d.dport, sport := d.sport, partner := d.partner }

/-- The format of a receive context as a plane format: -20 by its size, 2022-6 as its anchor plane's. -/
def Desc.rxFmt (m : Mach) (d : Desc) : Fmt :=
  if d.typ = 0 then
    { raster := if d.height ≤ 720 then 0 else if d.height ≤ 1080 then 1 else 2, scan := bits d.fmt 7 6, rate := d.fmt % 16 }
  else (plane m d.anchor).fmt

/-- An address field of 16 bytes is an IPv4 address with 12 zeros behind it, where the context is IPv4. -/
def addrOk (v6 : Bool) (a : List Byte) : Bool := v6 || (a.drop 4).all (· == 0)

/-- The BIND a kind must have (R190). -/
def bindOk (d : Desc) : Bool :=
  if d.video then d.bind == b2n (d.dir == 1) else if d.audio then d.bind == 2 || d.bind == 3 else d.bind == 1

/-- Channels inside the group or the space (R190); received ones in free channels or a serial group (R191). -/
def chansOk (m : Mach) (d : Desc) : Bool :=
  let group := atRate m 16
  if d.bind = 2 then decide (d.chan + d.nch ≤ group)
  else if d.dir = 1 then decide (d.chan + d.nch ≤ chanCount m)
  else decide (d.chan + d.nch ≤ chanCount m) && (decide (d.chan < atRate m 36864) || decide (atRate m 57856 ≤ d.chan))

/-- The playout offset's range (R197, R199, R202). -/
def offsetOk (d : Desc) (paired : Bool) : Bool :=
  (if d.video then decide (100000 ≤ d.offset) else if d.audio then decide (125000 ≤ d.offset) else true)
    && (decide (d.offset ≤ 100000000) || d.typ == 3)
    && (!paired || (decide (100 ≤ d.mwin) && decide (d.mwin ≤ 50000) && decide (d.mwin * 1000 + 100000 ≤ d.offset)))

/-- A context names, or is named by, another: its partner or twin. -/
def namedBy (m : Mach) (c : Nat) : Option Nat :=
  (tkeys (fun (x : Ctx) => decide (1 ≤ x.st) && x.d.partner == c) m.flw.ctxs).head?

/-- Two contexts may be a pair, or primary and twin (R202, R204). -/
def fits (a d : Desc) : Bool :=
  a.dir == d.dir && a.typ == d.typ &&
    (if d.dir = 1 then a.mac != d.mac
     else a.nch == d.nch && a.afmt == d.afmt && a.width == d.width && a.height == d.height && a.fmt == d.fmt)

/-- The partner a descriptor may name, and what it may be while another names its context (R202, R204): a context that feeds
a port, or is to, is no partner (Assumption 12). -/
def partnerOk (m : Mach) (c : Nat) (d : Desc) : Bool :=
  (namedBy m c).all (fun n => d.partner == 0xFFFF && fits (ctx m n).d d) &&
    (d.partner == 0xFFFF ||
      (let p := ctx m d.partner
       decide (d.partner < 16384) && d.partner != c && decide (1 ≤ p.st) && decide (p.st ≤ 2) && p.d.partner == 0xFFFF
         && (namedBy m d.partner).all (· == c) && fits p.d d))

/-- The essence fields of R194. -/
def essenceOk (m : Mach) (d : Desc) : Bool :=
  if d.audio then
    decide (1 ≤ d.nch) && decide (d.nch ≤ 64) && decide (d.afmt % 4 ≤ 1) && decide (bits d.afmt 3 2 ≤ 1) && decide (d.afmt < 64)
      && (d.typ == 1 || (d.nch % 2 == 0 && (bits d.afmt 6 4 == 0 || bits d.afmt 6 4 == 3)))
  else if d.typ = 0 then
    if d.dir = 1 then
      if d.bpm then d.payload % 180 == 0 && decide (180 ≤ d.payload) && decide (d.payload ≤ 1260)
      else d.payload % 5 == 0 && decide (240 ≤ d.payload) && decide (d.payload ≤ 1400)
    else
      decide (d.depth ≤ 2) && d.width % 2 == 0 && decide (2 ≤ d.width) && decide (d.width ≤ 3840) && decide (1 ≤ d.height)
        && decide (d.height ≤ 2160) && decide (bits d.fmt 7 6 ≤ 2) && decide (d.fmt % 16 ≤ 9) && bits d.fmt 5 4 == 0
  else if d.typ = 4 then decide (fmtClass (if d.dir = 1 then egressFmt m d.port else d.rxFmt m) ≤ 1) else true

/-- A descriptor the module accepts (R189 to R204). -/
def descOk (m : Mach) (c : Nat) (d : Desc) : Bool :=
  decide (d.typ ≤ 4) && decide (d.dir ≤ 1) && macExists m d.mac && decide (d.flags < 128) && !bit d.tci 12 && decide (d.dscp < 64)
    && (d.dir == 0 || decide (1 ≤ d.ttl)) && addrOk d.v6 d.daddr && addrOk d.v6 d.saddr && d.rest == 0
    && (if d.dir = 1 then d.saddr.all (· == 0) else d.sport == 0) && decide (96 ≤ d.pt) && decide (d.pt ≤ 127)
    && partnerOk m c d
    && (d.twin || (bindOk d && decide (d.port ≤ 1151) && (!d.audio || chansOk m d) && essenceOk m d))
    && (d.dir == 1 || !d.video || (decide (d.anchor ≤ 15) && decide (10 ≤ d.joinWait) && decide (d.joinWait ≤ 10000)))
    && (d.dir == 1 || offsetOk d (d.partner != 0xFFFF))
    && (let e := d.eff m
        decide (e.headBytes + (if e.dir = 0 ∧ e.typ = 0 then 0 else e.bodyBytes) ≤ (mac m d.mac).maxFrame))

/-- Two receive descriptors match the same frames (R191). -/
def sameMatch (a b : Desc) : Bool :=
  a.mac == b.mac && a.tagged == b.tagged && (!a.tagged || a.tci % 4096 == b.tci % 4096) && a.v6 == b.v6
    && a.daddr == b.daddr && a.dport == b.dport && bit a.flags 3 == bit b.flags 3 && bit a.flags 4 == bit b.flags 4
    && (!bit a.flags 4 || a.saddr == b.saddr) && (!bit a.flags 3 || a.ssrc == b.ssrc)

/-- First channel of a receive audio descriptor in the input space. -/
def rxChan (m : Mach) (d : Desc) : Nat := if d.bind = 2 then (srcGroup m (1152 + d.port)).1 + d.chan else d.chan

/-- The owner a receive descriptor collides with (R191): a context with its match fields, or the owner of its channels. -/
def rxConflict (m : Mach) (c : Nat) (d : Desc) : Option CRes :=
  let others := m.flw.ctxs.filter fun x => x.1 != c && decide (1 ≤ x.2.st) && x.2.d.dir == 0
  match others.find? fun x => sameMatch x.2.d d with
  | some x => some (.conflict 6 x.1)
  | none =>
    if !d.audio ∨ (namedBy m c).isSome then none
    else
      let lo := rxChan m d
      let overlaps (e : Desc) : Bool := decide (rxChan m e < lo + d.nch) && decide (lo < rxChan m e + e.nch)
      match others.find? fun x => x.2.d.audio && x.1 != d.partner && (namedBy m x.1).isNone && overlaps x.2.d with
      | some x => some (.conflict 6 x.1)
      | none =>
        match chanSource m lo with
        | some s => if s < 1152 ∨ (s < 2304 ∧ deembeds m s) then some (.conflict 3 s) else none
        | none => none

/-! ### Rates and granules (R215, R216) -/

/-- Wire bytes of a packet with `n` payload bytes. -/
def Desc.wire (d : Desc) (n : Nat) : Nat := d.headBytes + n + 20

/-- A context's rate in units of 1/1000 bit/s (R216). -/
def rateMb (m : Mach) (c : Nat) : Nat :=
  let d := (ctx m c).d.eff m
  let f := if d.dir = 1 then egressFmt m d.port else d.rxFmt m
  if d.audio then 8000 * d.wire d.bodyBytes * d.rate / d.perPacket
  else if d.typ = 3 then 8000 * d.wire 0 * rateNum f.rate * 2 / rateDen f.rate
  else if d.typ = 4 then
    let bytes := totalSamples f * totalLines f * 20 / 8
    8000 * d.wire 1376 * ((bytes + 1375) / 1376) * rateNum f.rate / rateDen f.rate
  else if d.dir = 1 then
    let line := activeSamples f * 5 / 2
    8000 * d.wire d.payload * ((line + d.payload - 1) / d.payload) * totalLines f * totalSamples f * rateNum f.rate
      / (activeSamples f * rateDen f.rate)
  else
    let line := d.width * lget 20 [20, 16, 24] d.depth / 8
    8000 * d.wire 1200 * ((line + 1199) / 1200) * (if bits d.fmt 7 6 = 1 then d.height / 2 * 2 else d.height) * rateNum f.rate
      / rateDen f.rate

/-- A context's rate in Mbit/s, rounded down. -/
def rateMbit (m : Mach) (c : Nat) : Nat := rateMb m c / 1000000000

/-- The playout offset that admission counts (R216). -/
def playoutNs (m : Mach) (d : Desc) : Nat := d.offset + if d.auto then framePs { rate := (d.rxFmt m).rate } / 1000 else 0

/-- Granules a receive context holds (R216): the naming context's offset governs a pair (R202). -/
def granules (m : Mach) (c : Nat) : Nat :=
  let x := ctx m c
  if x.st < 2 ∨ x.d.dir = 1 then 0
  else
    let g := (ctx m ((namedBy m c).getD c)).d
    let ns := playoutNs m g + (if g.partner = 0xFFFF then 0 else g.mwin * 1000) + 1000000
    max 2 ((rateMb m c * ns + 8 * 65536 * 1000 * 1000000000 - 1) / (8 * 65536 * 1000 * 1000000000))

/-- Contexts enabled in a direction on a MAC. -/
def enabledOn (m : Mach) (k dir : Nat) : List Nat := tkeys (fun (x : Ctx) => decide (2 ≤ x.st) && x.d.dir == dir && x.d.mac == k) m.flw.ctxs

/-- Sums in units of 1/1000 bit/s, and the limit of 0.99 times the MAC rate. -/
def rateSum (m : Mach) (k dir : Nat) : Nat := (enabledOn m k dir).foldl (fun a c => a + rateMb m c) 0
def rateLimit (m : Mach) (k : Nat) : Nat := macRate m k * 990000000 * 1000

/-- Packetisers in use on an egress port; depacketisers and granules in use. -/
def packetisers (m : Mach) (q : Nat) : Nat :=
  (tkeys (fun (x : Ctx) => decide (2 ≤ x.st) && x.d.dir == 1 && x.d.video && !x.d.twin && x.d.port == q) m.flw.ctxs).length
def depacketisers (m : Mach) : Nat := (tkeys (fun (x : Ctx) => decide (2 ≤ x.st) && x.d.dir == 0 && x.d.video) m.flw.ctxs).length
def granulesUsed (m : Mach) : Nat := (m.flw.ctxs.map fun x => granules m x.1).foldl (· + ·) 0

/-- The first limit of R215 that a change set from `m` to `m'` breaks. -/
def flowShort (m m' : Mach) : Option CRes :=
  let overRate (dir k : Nat) : Bool := decide (rateLimit m' k < rateSum m' k dir) && decide (rateSum m k dir < rateSum m' k dir)
  let free (dir k : Nat) : Nat := (rateLimit m k - rateSum m k dir) / 1000000000
  match (List.range 64).find? (overRate 1) with
  | some k => some (.refuse sCapacity { res := 3, okind := 8, oid := k, free := free 1 k })
  | none =>
    match (List.range 64).find? (overRate 0) with
    | some k => some (.refuse sCapacity { res := 4, okind := 8, oid := k, free := free 0 k })
    | none =>
      match (List.range 1152).find? fun q => decide (2 < packetisers m' q) && decide (packetisers m q < packetisers m' q) with
      | some q => some (.refuse sCapacity { res := 5, okind := 2, oid := 1152 + q, free := 2 - packetisers m q })
      | none =>
        if 2304 < depacketisers m' then some (.refuse sCapacity { res := 6, free := 2304 - depacketisers m })
        else if 262144 < granulesUsed m' then some (.refuse sCapacity { res := 7, free := 262144 - granulesUsed m })
        else none

/-! ### Interfaces (R192) -/

def iface (m : Mach) (k : Nat) : Iface := tget {} m.flw.ifs k

/-- The MAC has an interface of an IP version. -/
def hasIface (m : Mach) (k : Nat) (v6 : Bool) : Bool :=
  if v6 then (iface m k).ip6.any (· != 0) else (iface m k).ip4.any (· != 0)

/-- Modified EUI-64 link-local address of a MAC. -/
def linkLocal (m : Mach) (k : Nat) : List Byte :=
  let a := be 6 (mac m k).addr
  [0xFE#8, 0x80#8, 0, 0, 0, 0, 0, 0] ++ (match a with
    | x :: r => (x ^^^ 0x02#8) :: r.take 2
    | [] => []) ++ [0xFF#8, 0xFE#8] ++ a.drop 3

/-- Source address of what a MAC sends. -/
def srcAddr (m : Mach) (k : Nat) (v6 : Bool) : List Byte := if v6 then (iface m k).ip6 else (iface m k).ip4

/-- Two addresses share a prefix. -/
def samePrefix (n : Nat) (a b : List Byte) : Bool :=
  let w := 8 * a.length
  beNat a / 2 ^ (w - n) == beNat b / 2 ^ (w - n)

/-- The next hop of a unicast destination: itself on the interface's prefix, else the gateway. -/
def nextHop (m : Mach) (d : Desc) : List Byte :=
  let i := iface m d.mac
  if d.v6 then (if samePrefix i.pre6 i.ip6 d.daddr then d.daddr else i.gw6)
  else (if samePrefix i.pre4 i.ip4 (d.daddr.take 4) then d.daddr.take 4 else i.gw4)

/-- The Ethernet address a send context sends to, once resolved. -/
def hopMac (m : Mach) (d : Desc) : Option Nat :=
  if isGroup d.v6 d.daddr then some (groupMac d.v6 d.daddr)
  else (m.flw.hops.find? fun h => h.mac == d.mac && h.ip == nextHop m d).map (·.eth)

/-- Enabled unicast send contexts of a MAC, and those of them whose next hop is unresolved. -/
def unicastSenders (m : Mach) (k : Nat) : List Nat := (enabledOn m k 1).filter fun c => !isGroup (ctx m c).d.v6 (ctx m c).d.daddr
def unresolved (m : Mach) (k : Nat) : List Nat := (unicastSenders m k).filter fun c => (hopMac m (ctx m c).d).isNone

/-- An ARP packet (RFC 826). -/
def arpBytes (op sha : Nat) (spa : List Byte) (tha : Nat) (tpa : List Byte) : List Byte :=
  be 2 1 ++ be 2 0x0800 ++ be 1 6 ++ be 1 4 ++ be 2 op ++ be 6 sha ++ spa ++ be 6 tha ++ tpa

/-- Send an ARP packet. -/
def sendArp (k : Nat) (tci : Option Nat) (dst op tha : Nat) (tpa : List Byte) (m : Mach) : Mach :=
  let a := (mac m k).addr
  if !macSends m k then m
  else queueFrame m k none 0 (ethFrame dst a tci 0x0806 (arpBytes op a (iface m k).ip4 tha tpa)) true

/-- Send an ICMPv6 message of neighbour discovery, with hop limit 255. -/
def sendIcmp6 (k : Nat) (tci : Option Nat) (edst : Nat) (src dst : List Byte) (msg : List Byte) (m : Mach) : Mach :=
  if !macSends m k then m
  else
    let c := checksum msg (pseudo src dst 58 msg.length)
    let body := msg.take 2 ++ be 2 c ++ msg.drop 4
    queueFrame m k none 0 (ethFrame edst (mac m k).addr tci 0x86DD (ip6Header 0 255 58 body.length src dst ++ body)) true

/-- Solicited-node group of an address. -/
def solicited (a : List Byte) : List Byte :=
  [0xFF#8, 0x02#8] ++ List.replicate 9 0 ++ [1#8, 0xFF#8] ++ a.drop 13

/-- A neighbour solicitation (RFC 4861 Section 4.3). -/
def solicit (k : Nat) (target : List Byte) (m : Mach) : List Byte :=
  be 1 135 ++ be 1 0 ++ be 2 0 ++ be 4 0 ++ target ++ be 1 1 ++ be 1 1 ++ be 6 (mac m k).addr

/-- Ask for the next hops of send contexts on a MAC, each once (R192, R206). -/
def askHops (k : Nat) (cs : List Nat) (m : Mach) : Mach :=
  if !speaks m then m
  else
    let hops := (cs.map fun c => ((ctx m c).d.v6, (if (ctx m c).d.tagged then some (ctx m c).d.tci else none), nextHop m (ctx m c).d)).eraseDups
    hops.foldl (fun m h =>
      if !hasIface m k h.1 then m
      else if h.1 then sendIcmp6 k h.2.1 (groupMac true (solicited h.2.2)) (iface m k).ip6 (solicited h.2.2) (solicit k h.2.2 m) m
      else sendArp k h.2.1 (2 ^ 48 - 1) 1 0 h.2.2 m) m

/-- What a change makes of a MAC's next hops (R192): a context that now lacks its own raises the fault and has it asked for;
the condition ends once none lacks it. -/
def settleHops (before : Mach) (k : Nat) (m : Mach) : Mach :=
  let now := unresolved m k
  let new := now.filter fun c => !(unresolved before k).contains c
  let m := askHops k new (new.foldl (fun m c => raise m (0xC30 + k) 0x31 1 c) m)
  if now.isEmpty then endCond m (0xC30 + k) 0x31 else m

/-! ### Reports (R205) -/

/-- The filter a membership asks for: none for EXCLUDE of nothing, or INCLUDE of sources. -/
def Member.filter (x : Member) : Option (List (List Byte)) :=
  if x.ctxs.any fun c => c.2.isNone then none else some (x.ctxs.filterMap (·.2)).eraseDups

/-- The records of a state change (RFC 3376): types 3 to 6. -/
def changeRecs (old new : Option (List (List Byte))) : List (Nat × List (List Byte)) :=
  match old, new with
  | none, none => []
  | some _, none => [(4, [])]
  | none, some s => [(3, s)]
  | some a, some b =>
    (if (b.filter fun x => !a.contains x).isEmpty then [] else [(5, b.filter fun x => !a.contains x)]) ++
    (if (a.filter fun x => !b.contains x).isEmpty then [] else [(6, a.filter fun x => !b.contains x)])

/-- The record of the current state: types 1 and 2. -/
def currentRecs (x : Member) : List (Nat × List (List Byte)) :=
  match x.filter with
  | none => [(2, [])]
  | some s => [(1, s)]

/-- A group record. -/
def recBytes (v6 : Bool) (addr : List Byte) (r : Nat × List (List Byte)) : List Byte :=
  let a (x : List Byte) := if v6 then x else x.take 4
  be 1 r.1 ++ be 1 0 ++ be 2 r.2.length ++ a addr ++ r.2.flatMap a

/-- Records that leave a group, rather than join it or change its sources. -/
def leaves (x : Member) (recs : List (Nat × List (List Byte))) : Bool :=
  recs.any fun r => (r.1 == 3 && r.2.isEmpty) || (r.1 == 6 && x.filter.all fun s => s.all r.2.contains)

/-- A MAC is in a host compatibility mode: an older query was heard in the last 260 s (R205; RFC 3376 Section 8.12 and
RFC 3810 Section 9.12 with their default intervals). -/
def olderMode (m : Mach) (heard : Tab Nat) (k : Nat) : Bool := (tget? k heard).any fun t => decide (m.now < t + 260000 * msT)

/-- Send a report with records on a MAC (R205): IGMPv3 or MLDv2, or IGMPv2 or MLDv1 in compatibility mode. A module at ROLE 0
or 4 uses the unspecified address. -/
def sendReport (m : Mach) (x : Member) (recs : List (Nat × List (List Byte))) : Mach :=
  if recs.isEmpty ∨ !macSends m x.mac ∨ (claiming m ∧ m.pr.withhold) then m
  else
    let quiet := m.pr.role == 0 || m.pr.role == 4
    let src := if quiet then List.replicate (if x.v6 then 16 else 4) 0 else if x.v6 then linkLocal m x.mac else (iface m x.mac).ip4
    let tag := if x.tci < 65536 then some x.tci else none
    let (id, m) := fresh m
    let id := Config.unstated id % 65536
    let rb := recs.flatMap (recBytes x.v6 x.addr)
    if x.v6 then
      let v1 := olderMode m m.flw.mld1 x.mac
      let leave := leaves x recs
      let dst := if v1 then (if leave then [0xFF#8, 0x02#8] ++ List.replicate 13 0 ++ [2#8] else x.addr)
        else [0xFF#8, 0x02#8] ++ List.replicate 13 0 ++ [0x16#8]
      let icmp (c : Nat) := if v1 then be 1 (if leave then 132 else 131) ++ be 1 0 ++ be 2 c ++ be 4 0 ++ x.addr
        else be 1 143 ++ be 1 0 ++ be 2 c ++ be 2 0 ++ be 2 recs.length ++ rb
      let body := icmp (checksum (icmp 0) (pseudo src dst 58 (icmp 0).length))
      let hop := be 1 58 ++ be 1 0 ++ be 2 0x0502 ++ be 2 0 ++ be 2 0x0100
      queueFrame m x.mac none 0 (ethFrame (groupMac true dst) (mac m x.mac).addr tag 0x86DD
        (ip6Header 0xC0 1 0 (hop.length + body.length) src dst ++ hop ++ body))
    else if olderMode m m.flw.v2 x.mac then
      let leave := leaves x recs
      let dst := if leave then [224#8, 0#8, 0#8, 2#8] else x.addr.take 4
      let msg (c : Nat) := be 1 (if leave then 0x17 else 0x16) ++ be 1 0 ++ be 2 c ++ x.addr.take 4
      queueFrame m x.mac none 0 (ethFrame (groupMac false dst) (mac m x.mac).addr tag 0x0800
        (ip4Header id 0xC0 1 2 8 src dst [0x94#8, 4#8, 0#8, 0#8] ++ msg (checksum (msg 0))))
    else
      let dst := [224#8, 0#8, 0#8, 22#8]
      let msg (c : Nat) := be 1 0x22 ++ be 1 0 ++ be 2 c ++ be 2 0 ++ be 2 recs.length ++ rb
      queueFrame m x.mac none 0 (ethFrame (groupMac false dst) (mac m x.mac).addr tag 0x0800
        (ip4Header id 0xC0 1 2 (msg 0).length src dst [0x94#8, 4#8, 0#8, 0#8] ++ msg (checksum (msg 0))))

/-- The membership a receive context uses. -/
def memberIs (d : Desc) (x : Member) : Bool :=
  x.mac == d.mac && x.v6 == d.v6 && x.addr == d.daddr && (if d.tagged then x.tci % 4096 == d.tci % 4096 && x.tci != 65536 else x.tci == 65536)

/-- Change the contexts of a membership, with its state-change report and the repetition due (R205). -/
def changeMember (m : Mach) (d : Desc) (f : List (Nat × Option (List Byte)) → List (Nat × Option (List Byte))) : Mach :=
  let blank : Member := { mac := d.mac, tci := if d.tagged then d.tci else 65536, v6 := d.v6, addr := d.daddr }
  let old := (m.flw.members.find? (memberIs d)).getD blank
  let new := { old with ctxs := f old.ctxs }
  let recs := changeRecs old.filter new.filter
  let new := { new with again := if recs.isEmpty then old.again else recs }
  let m := { m with flw := { m.flw with members := (m.flw.members.filter fun x => !memberIs d x) ++ [new] } }
  sendReport m new recs

/-- Join and leave (R205): groups only. -/
def joinCtx (m : Mach) (c : Nat) : Mach :=
  let d := (ctx m c).d
  if isGroup d.v6 d.daddr then
    changeMember m d fun l => (l.filter fun x => x.1 != c) ++ [(c, if bit d.flags 4 then some d.saddr else none)]
  else m
def leaveCtx (m : Mach) (c : Nat) : Mach :=
  let d := (ctx m c).d
  if isGroup d.v6 d.daddr then changeMember m d fun l => l.filter fun x => x.1 != c else m

/-- STATE_CHANGE_REPORT_REPEAT (R205): the latest change is reported once more. -/
def reportRepeat (k : Nat) (addr : List Byte) (m : Mach) : Mach :=
  (m.flw.members.filter fun x => x.mac == k && x.addr == addr && !x.again.isEmpty).foldl (fun m x =>
    let m := sendReport m x x.again
    let done (y : Member) : Option Member :=
      if y.mac = x.mac ∧ y.addr = x.addr ∧ y.tci = x.tci then (if y.ctxs.isEmpty then none else some { y with again := [] }) else some y
    { m with flw := { m.flw with members := m.flw.members.filterMap done } }) m

/-- The records that answer a query: of the current state, or of the sources asked about. -/
def answerRecs (x : Member) : List (Nat × List (List Byte)) :=
  match x.query, x.filter with
  | some (s :: ss), none => [(1, s :: ss)]
  | some (s :: ss), some a => let both := a.filter (s :: ss).contains; if both.isEmpty then [] else [(1, both)]
  | _, _ => currentRecs x

/-- QUERY_RESPONSE (R205): the waiting answers of a MAC. -/
def queryResponse (k : Nat) (m : Mach) : Mach :=
  let due := m.flw.members.filter fun x => x.mac == k && x.query.isSome
  let m := due.foldl (fun m x => if x.ctxs.isEmpty then m else sendReport m x (answerRecs x)) m
  { m with flw := { m.flw with members := m.flw.members.map fun x => if x.mac = k then { x with query := none } else x } }

/-! ### States (R188, R202, R204, R214) -/

/-- A context and the one it is paired with: both are enabled and disabled together. -/
def pairOf (m : Mach) (c : Nat) : List Nat :=
  let d := (ctx m c).d
  c :: ((if d.partner = 0xFFFF then [] else [d.partner]) ++ (namedBy m c).toList)

/-- The context whose fields govern a pair (R202). -/
def primary (m : Mach) (c : Nat) : Nat := if (ctx m c).d.dir = 0 then (namedBy m c).getD c else c

/-- When a send context's start or stop takes effect: a switch point of its port's plane, or a packet boundary at least
1 ms later (R214). -/
def sendAt (m : Mach) (d : Desc) (on : Bool) : Nat × Nat × Bool :=
  if d.bind = 3 then
    let n := indexFrom m (m.dt.t + secU / 1000)
    (16, (n + d.perPacket - 1) / d.perPacket * d.perPacket, on)
  else
    let p := (dest m (1152 + d.port)).plane
    (p, target m p, on)

/-- Enable one context. -/
def enableOne (m : Mach) (c : Nat) : Mach :=
  let x := ctx m c
  if x.st ≠ 1 then m
  else
    let start := if x.d.dir = 1 then some (sendAt m (x.d.eff m) true) else none
    let n := setCtx m c fun x => { x with
      st := 2, buf := [], kept := [], based := false, rebase := false, offset := if x.d.auto then 0 else x.d.offset, slip := 0,
      nextTs := none, lateRun := 0, inserting := false, dropping := false, lateSum := 0, lateN := 0, pathUp := false,
      pathLost := false, lastPkt := m.dt.t, moved := false, seq := if x.d.dir = 0 then 0 else x.seq, out := [], ancQ := [],
      bits := (0, 0), startAt := start }
    if x.d.dir = 0 then joinCtx n c else settleHops m x.d.mac n

/-- Disable one context. -/
def disableOne (m : Mach) (c : Nat) : Mach :=
  let x := ctx m c
  if x.st < 2 then m
  else
    let stop := if x.d.dir = 1 ∧ x.live then some (sendAt m (x.d.eff m) false) else none
    let n := setCtx m c fun x => { x with st := 1, port := 4095, buf := [], kept := [], pathUp := false, pathLost := false, startAt := stop }
    let n := if x.pathLost then endCond n (ctxSrc n c) 0x32 else n
    if x.d.dir = 0 then leaveCtx n c else settleHops m x.d.mac n

/-- Enable a context with its pair, or the refusal. -/
def enableCtx (before m : Mach) (c : Nat) : CRes :=
  let cs := pairOf m c
  if cs.any fun k => (ctx m k).d.dir == 1 && !hasIface m (ctx m k).d.mac (ctx m k).d.v6 then .arg
  else
    let m' := cs.foldl enableOne m
    match flowShort before m' with
    | some r => r
    | none => .commit m' []

/-- FLOW_DEFINE (R189 to R204, R214, R218). -/
def commitFlowDefine (cc : CCtx) (c op : Nat) (m : Mach) : CRes :=
  let x := ctx m c
  let d := descOf cc.data
  if 16383 < c ∨ 4 < op then .arg
  else if op ≤ 1 then
    if 2 ≤ x.st then .conflict 6 c
    else if !descOk m c d then .arg
    else match (if d.dir = 0 then rxConflict m c d else none) with
      | some r => r
      | none =>
        let m' := { m with flw := { m.flw with ctxs := tset m.flw.ctxs c { st := 1, d },
                                               cnts := if x.st = 0 then tdel m.flw.cnts c else m.flw.cnts } }
        if op = 0 ∧ (pairOf m' c).all (fun k => (ctx m' k).st ≤ 1) then .commit m' [] else enableCtx m m' c
  else if x.st = 0 then .arg
  else if op = 2 then (if 2 ≤ x.st then .commit m [] else enableCtx m m c)
  else
    match (pairOf m c).find? fun k => decide (3 ≤ (ctx m k).st) with
    | some k => .conflict 7 (ctx m k).port
    | none =>
      if op = 3 then .commit ((pairOf m c).foldl disableOne m) []
      else match (namedBy m c).or (if x.d.dir = 0 ∧ x.d.partner ≠ 0xFFFF then some x.d.partner else none) with
        | some k => .conflict 6 k
        | none =>
          let m := disableOne m c
          .commit { m with flw := { m.flw with ctxs := tdel m.flw.ctxs c } } []

/-- FLOW_IF (R192, R217). -/
def commitFlowIf (c : CCtx) (k : Nat) (m : Mach) : CRes :=
  let d := c.data
  let i : Iface := { ip4 := sub d 0 4, pre4 := fld d 4 1, gw4 := sub d 8 4, ip6 := sub d 16 16, pre6 := fld d 32 1,
                     gw6 := sub d 40 16 }
  let rsvd := sub d 5 3 ++ sub d 12 4 ++ sub d 33 7 ++ sub d 56 8
  if !macExists m k ∨ 32 < i.pre4 ∨ 128 < i.pre6 ∨ rsvd.any (· != 0) then .arg
  else .commit (settleHops m k { m with flw := { m.flw with ifs := tset m.flw.ifs k i } }) []

/-- FLOW_OFFSET (R197, R199, R218). -/
def commitFlowOffset (c auto off : Nat) (m : Mach) : CRes :=
  let x := ctx m c
  let flags := (if x.d.auto then x.d.flags - 32 else x.d.flags) + 32 * auto
  let d : Desc := { x.d with flags, offset := off }
  if 16383 < c ∨ 1 < auto ∨ x.st = 0 ∨ x.d.dir = 1 ∨ (auto = 1 ∧ !x.d.video) ∨ !offsetOk d (x.d.partner != 0xFFFF) then .arg
  else
    let m' := setCtx m c fun x => { x with d, moved := decide (2 ≤ x.st) }
    match flowShort m m' with
    | some r => r
    | none => .commit m' []

/-! ### Ingress ports (R207 to R210) -/

/-- A context leaves a port: DEFINED with its groups left, or ENABLED and unbound (R209). -/
def release (keep : Bool) (m : Mach) (c : Nat) : Mach :=
  if keep then setCtx m c fun x => { x with st := 2, port := 4095 }
  else (pairOf m c).foldl disableOne (setCtx m c fun x => { x with st := 2, port := 4095 })

/-- FLOW_PORT (R207, R209, R218). -/
def commitFlowPort (cc : CCtx) (c p flags : Nat) (m : Mach) : CRes :=
  let x := ctx m c
  let port := ingress m p
  if 1151 < p ∨ 1 < flags then .arg
  else
    let keep := flags == 1
    let dropWaiting (m : Mach) : Mach :=
      match port.swap with
      | some s => match s.ctx with
        | some b => if b = c then m else release keep m b
        | none => m
      | none => m
    if c = 0xFFFF then
      match port.cur with
      | none => .commit (setIngress (dropWaiting m) p fun i => { i with swap := none, com := none }) []
      | some a =>
        let pl := (ctx m a).d.anchor
        let s : SwapTo := { ctx := none, plane := pl, target := target m pl, epoch := cc.ep, ses := cc.ses.getD 255, keep,
                            tick := m.now }
        .commit (setIngress (dropWaiting m) p fun i => { i with swap := some s, com := none }) []
    else if 16383 < c ∨ x.st = 0 ∨ x.d.dir = 1 ∨ !x.d.video ∨ (namedBy m c).isSome then .arg
    else if 3 ≤ x.st ∧ x.port ≠ p then .conflict 7 x.port
    else if port.com = some c then .commit m []
    else
      let audio := if x.d.typ = 4 then
          (tkeys (fun (y : Ctx) => decide (1 ≤ y.st) && y.d.dir == 0 && y.d.audio && y.d.bind == 2 && y.d.port == p) m.flw.ctxs).head?
        else none
      match audio with
      | some k => .conflict 6 k
      | none =>
        let m' := (pairOf m c).foldl enableOne m
        match flowShort m m' with
        | some r => r
        | none =>
          let m' := dropWaiting m'
          match port.cur with
          | none =>
            let m' := setCtx m' c fun y => { y with st := 3, port := p }
            .commit (setIngress m' p fun i => { i with cur := some c, swap := none, com := some c }) []
          | some a =>
            if a = c then .commit (setIngress m' p fun i => { i with swap := none, com := some c }) []
            else
              let pl := x.d.anchor
              let s : SwapTo := { ctx := some c, plane := pl, target := target m pl, epoch := cc.ep, ses := cc.ses.getD 255,
                                  keep, tick := m.now }
              let m' := setCtx m' c fun y => { y with st := 4, port := p }
              .commit (setIngress m' p fun i => { i with swap := some s, com := some c }) []

/-! ### Media time and playout (R195 to R198) -/

/-- The media instant of an RTP timestamp nearest an instant, in units of 2⁻³² ns (R195). -/
def mediaAt (r ts near : Nat) : Nat :=
  let n := near * r / secU
  let k := (n + 2 ^ 31 - ts) / 2 ^ 32
  (ts + k * 2 ^ 32) * secU / r

/-- Line period of a receive context in units of 2⁻³² ns. -/
def lineTime (m : Mach) (d : Desc) : Nat := let f := d.rxFmt m; framePs f * nsU / (1000 * totalLines f)

/-- Release instant of a raster line of a frame (R196). -/
def lineRelease (m : Mach) (c ts line : Nat) : Nat :=
  let x := ctx m c
  mediaAt x.d.clock ts m.dt.t + (line - 1) * lineTime m x.d + x.offset * nsU

/-- Δ in ns (R197): the plane instant of line 1 of the anchor plane's frame less the frame's media instant, modulo the anchor
plane's frame period. -/
def measureDelta (m : Mach) (d : Desc) (ts : Nat) : Nat :=
  let p := plane m d.anchor
  let f : Int := (framePs p.fmt / 1000 : Nat)
  ((((instantFrom p 1 m.dt.t - (mediaAt d.clock ts m.dt.t : Nat)) / (nsU : Nat)) % f).toNat)

/-- OFFSET under AUTO (R197): Δ + m × F − (Lmin + W/2), no less than the minimum. -/
def autoOffset (m : Mach) (d : Desc) (ts : Nat) : Nat :=
  let delta := measureDelta m d ts
  let f := framePs (plane m d.anchor).fmt / 1000
  let sub := 5352 + 1000 * classW (fmtClass (d.rxFmt m)) / 2
  let k := (d.offset + sub + f - 1 - delta) / f
  delta + k * f - sub

/-- One sample row data segment of a -20 packet: row, second field, sample offset, bytes. -/
structure Srd where
  row : Nat
  field : Bool
  off : Nat
  data : List Byte
  deriving DecidableEq, Repr

/-- The segments of a -20 payload (after the extended sequence number); none where a header is cut short. -/
def srds (p : List Byte) : Option (List Srd) :=
  let rec heads (p : List Byte) : Nat → Option (List (Nat × Nat × Nat) × List Byte)
    | 0 => none
    | k + 1 =>
      if p.length < 6 then none
      else
        let h := (beNat (p.take 2), beNat (sub p 2 2), beNat (sub p 4 2))
        if bit h.2.2 15 then (heads (p.drop 6) k).map fun r => (h :: r.1, r.2) else some ([h], p.drop 6)
  match heads (p.drop 2) 4 with
  | none => none
  | some (hs, body) =>
    if body.length < (hs.map (·.1)).foldl (· + ·) 0 then none
    else some (hs.foldl (fun (a : List Srd × List Byte) h =>
      (a.1 ++ [{ row := h.2.1 % 2 ^ 15, field := bit h.2.1 15, off := h.2.2 % 2 ^ 15, data := a.2.take h.1 }], a.2.drop h.1))
      ([], body)).1

/-- The raster line of a segment's row (R196). -/
def srdLine (m : Mach) (d : Desc) (s : Srd) : Nat :=
  let f := d.rxFmt m
  let scan := bits d.fmt 7 6
  if scan = 0 then rowLine (totalLines f) 0 s.row
  else if scan = 1 then (if s.field then 584 + s.row else 21 + s.row)
  else rowLine (totalLines f) 2 (2 * s.row + b2n s.field)

/-- The words of packed samples at a depth, as 10-bit words (R194). -/
def unpack (depth : Nat) (bs : List Byte) : List Nat :=
  let w := lget 10 [10, 8, 12] depth
  let n := 8 * bs.length / w
  let v := beNat bs
  (List.range n).map fun i =>
    let x := v / 2 ^ (8 * bs.length - w * (i + 1)) % 2 ^ w
    if w = 8 then x * 4 else if w = 12 then min 1019 ((x + 2) / 4) else x

/-- The segment fields fit the format (R193): row, field, and offset and length against WIDTH. -/
def srdOk (d : Desc) (s : Srd) : Bool :=
  let rows := if bits d.fmt 7 6 = 0 then d.height else d.height / 2
  let w := 2 * lget 10 [10, 8, 12] d.depth
  decide (s.row < rows) && (!s.field || bits d.fmt 7 6 != 0) && decide (s.off < d.width) && 8 * s.data.length % (2 * w) == 0
    && decide (s.off + 8 * s.data.length / w ≤ d.width)

/-- An RTP packet's fixed header (RFC 3550) with its payload. -/
structure Rtp where
  version : Nat
  marker : Bool
  pt : Nat
  seq : Nat
  ts : Nat
  ssrc : Nat
  body : List Byte
  deriving DecidableEq, Repr

/-- The header of a packet; the extension and the padding that it declares are passed over. -/
def rtpOf (b : List Byte) : Rtp :=
  let v := beNat (b.take 1)
  let r := b.drop (12 + 4 * (v % 16))
  let r := if bit v 4 then r.drop (4 + 4 * beNat (sub r 2 2)) else r
  let r := if bit v 5 then r.take (r.length - beNat (r.drop (r.length - 1))) else r
  { version := bits v 7 6, marker := bit (beNat (sub b 1 1)) 7, pt := beNat (sub b 1 1) % 128, seq := beNat (sub b 2 2),
    ts := beNat (sub b 4 4), ssrc := beNat (sub b 8 4), body := r }

/-- The extended sequence number: from the payload of a -20 packet, else the nearest to the latest. -/
def extSeq (d : Desc) (last : Nat) (r : Rtp) : Nat :=
  if d.typ = 0 then beNat (r.body.take 2) * 65536 + r.seq
  else
    let base := last / 65536 * 65536 + r.seq
    if last + 32768 < base ∧ 65536 ≤ base then base - 65536 else if base + 32768 < last then base + 65536 else base

/-- The latest packet with the marker bit before a sequence number. -/
def markerBefore (ks : List Kept) (seq : Nat) : Option Kept :=
  (ks.filter fun k => k.marker && decide (k.seq < seq)).foldl (fun b k => match b with
    | some y => if y.seq < k.seq then some k else some y
    | none => some k) none

/-- The place of a 2022-6 datagram in its frame: the marker bit ends a frame. -/
def dgramAt (ks : List Kept) (seq : Nat) : Option Nat := (markerBefore ks seq).map fun k => seq - (k.seq + 1)

/-- The raster line of a bit of a frame's serial stream. -/
def bitLine (f : Fmt) (b : Nat) : Nat := min (totalLines f) (b / lineBits f + 1)

/-- The first and the last raster line a packet carries. -/
def firstLine (m : Mach) (c seq : Nat) (body : List Byte) : Nat :=
  let d := (ctx m c).d
  if d.typ = 0 then
    match srds body with
    | some (s :: _) => srdLine m d s
    | _ => 1
  else match dgramAt (ctx m c).kept seq with
    | some i => bitLine (d.rxFmt m) (dgramBits * i)
    | none => 1
def lastLine (m : Mach) (c seq : Nat) (body : List Byte) : Nat :=
  let d := (ctx m c).d
  if d.typ = 0 then (((srds body).getD []).map (srdLine m d)).max?.getD 1
  else match dgramAt (ctx m c).kept seq with
    | some i => bitLine (d.rxFmt m) (dgramBits * (i + 1) - 1)
    | none => totalLines (d.rxFmt m)

/-- The packet passes a context's own checks (R193). -/
def rtpOk (d : Desc) (r : Rtp) : Bool :=
  r.version == 2 && r.pt == d.pt && (d.typ != 0 || (srds r.body).any fun l => l.all (srdOk d))

/-- Prune the memory of kept packets to 250 ms; those that one member alone delivered count against the other (R202). -/
def pruneKept (m : Mach) (p : Nat) : Mach :=
  let x := ctx m p
  let old := x.kept.filter fun k => decide (k.at_ + secU / 4 < m.dt.t)
  let cs := pairOf m p
  let m := setCtx m p fun x => { x with kept := x.kept.filter fun k => decide (m.dt.t ≤ k.at_ + secU / 4) }
  if cs.length < 2 then m
  else old.foldl (fun m k =>
    if k.both then m
    else (cs.filter (· != k.who)).foldl (fun m c => setCtxCnt m c fun n => { n with pathMiss := sat n.pathMiss 1 }) m) m

/-- A path of a pair delivers again (R203). -/
def pathBack (m : Mach) (c : Nat) : Mach :=
  let lost := (ctx m c).pathLost
  let m := setCtx m c fun x => { x with pathUp := true, pathLost := false, lastPkt := m.dt.t }
  if lost then raise (endCond m (ctxSrc m c) 0x32) (ctxSrc m c) 0x33 0 c else m

/-- A frame of an ingress port has left the playout (R201). -/
def frameGone (m : Mach) (p ts : Nat) : Bool := (ingress m p).lastTs.any fun l => decide ((l + 2 ^ 32 - ts) % 2 ^ 32 < 2 ^ 31)

/-- A packet for a receive context that is enabled (R193, R196, R198, R201, R202). -/
def rxPacket (c : Nat) (r : Rtp) (m : Mach) : Mach :=
  let own := (ctx m c).d
  if !rtpOk { own with typ := (ctx m (primary m c)).d.typ } r then setCtxCnt m c fun n => { n with discard := sat n.discard 1 }
  else
    let m := setCtxCnt (pathBack m c) c fun n => { n with pkts := sat n.pkts 1 }
    let p := primary m c
    let m := pruneKept m p
    let x := ctx m p
    let d := x.d
    let seq := extSeq d ((x.kept.head?.map (·.seq)).getD r.seq) r
    match x.kept.find? fun k => k.seq == seq with
    | some k =>
      let m := setCtxCnt m c fun n => { n with dup := sat n.dup 1,
                                               pathLate := sat n.pathLate (b2n (decide (k.at_ + d.mwin * 1000 * nsU < m.dt.t))) }
      setCtx m p fun x => { x with kept := x.kept.map fun k => if k.seq = seq ∧ k.who ≠ c then { k with both := true } else k }
    | none =>
      let field := d.typ == 0 && ((srds r.body).getD []).any (·.field)
      let k : Kept := { seq, at_ := m.dt.t, who := c, ts := r.ts, marker := r.marker, field }
      let opens := x.kept.all fun y => y.ts != r.ts
      let m := setCtx m p fun x => { x with kept := k :: x.kept }
      let line := firstLine m p seq r.body
      let late := d.video && (x.based || !d.auto) && decide (lineRelease m p r.ts line < m.dt.t)
      let leads := opens && !field
      let held := x.buf.foldl (fun a b => a + b.data.length) 0
      let full := decide (granules m p * 65536 < held + r.body.length)
      if d.typ = 3 ∧ frameGone m d.port r.ts then setCtxCnt m p fun n => { n with discard := sat n.discard 1 }
      else if late then
        let m := setCtxCnt m p fun n => { n with late := sat n.late 1 }
        if leads then
          setCtx m p fun x => { x with lateRun := x.lateRun + 1, rebase := x.rebase || (d.auto && decide (2 ≤ x.lateRun + 1)) }
        else m
      else if full then
        if d.video && d.auto then setCtx m p fun x => { x with rebase := true }
        else setCtxCnt m p fun n => { n with late := sat n.late 1 }
      else
        let pk : RxPkt := { seq, ts := r.ts, marker := r.marker, at_ := m.dt.t, data := r.body }
        let before := x.buf.takeWhile fun b => decide (b.seq < seq)
        setCtx m p fun x => { x with
          buf := before ++ [pk] ++ x.buf.drop before.length,
          lateRun := if leads then 0 else x.lateRun,
          lateSum := x.lateSum + ((m.dt.t : Int) - mediaAt d.clock r.ts m.dt.t) / nsU, lateN := x.lateN + 1,
          nextTs := if d.audio ∧ x.nextTs.isNone then some r.ts else x.nextTs }

/-- Every packet from one marker to the next has come: the marker before. -/
def wholeRun (ks : List Kept) (k : Kept) : Option Kept :=
  (markerBefore ks k.seq).filter fun j => (ks.filter fun y => decide (j.seq < y.seq) && decide (y.seq ≤ k.seq)).length == k.seq - j.seq

/-- A whole frame whose line-1 release lies before now has been received without a missing packet (R208): of an interlaced or
PsF flow both fields, each of which a marker ends. -/
def ready (m : Mach) (c : Nat) : Bool :=
  let ks := (ctx m c).kept
  let released (ts : Nat) : Bool := decide (lineRelease m c ts 1 < m.dt.t)
  ks.any fun k => k.marker && match wholeRun ks k with
    | none => false
    | some j =>
      if (ctx m c).d.typ = 0 ∧ bits (ctx m c).d.fmt 7 6 ≠ 0 then k.field && !j.field && (wholeRun ks j).isSome && released j.ts
      else released k.ts

/-! ### Ancillary flows (R201) -/

/-- `n` bits of bytes from a bit position. -/
def bitField (bs : List Byte) (pos n : Nat) : Nat := beNat bs / 2 ^ (8 * bs.length - pos - n) % 2 ^ n

/-- One ancillary packet of an RFC 8331 payload: line, horizontal offset and words, with the bits it takes. The count is the
low eight bits of the third word. -/
def ancAt (bs : List Byte) (pos : Nat) : (Nat × Nat × List Nat) × Nat :=
  let line := bitField bs (pos + 1) 11
  let hoff := bitField bs (pos + 12) 12
  let dc := bitField bs (pos + 54) 8
  let words := (List.range (dc + 4)).map fun i => bitField bs (pos + 32 + 10 * i) 10
  ((line, hoff, words), (32 + 10 * (dc + 4) + 31) / 32 * 32)

/-- The ancillary packets of a -40 payload. -/
def ancsOf (body : List Byte) : List (Nat × Nat × List Nat) :=
  let bs := body.drop 2
  let count := bitField bs 16 8
  ((List.range count).foldl (fun (a : List (Nat × Nat × List Nat) × Nat) _ =>
    if 8 * bs.length < a.2 + 72 then a
    else
      let (x, n) := ancAt bs a.2
      (a.1 ++ [x], a.2 + n)) ([], 48)).1

/-- Words free in a line's blanking for ancillary data. -/
def lineRoom (f : Fmt) : Nat := 2 * (totalSamples f - activeSamples f)

/-- A -40 context's ancillary packet for a frame: its context, arrival, line and offset asked for, and words. -/
structure AncIn where
  ctx : Nat
  at_ : Nat
  line : Nat
  hoff : Nat
  words : List Nat
  deriving DecidableEq, Repr

/-- The packets that a port's -40 contexts hold for the frame with a timestamp, in order of arrival. -/
def ancsIn (m : Mach) (p ts : Nat) : List AncIn :=
  let cs := tkeys (fun (x : Ctx) => decide (2 ≤ x.st) && x.d.dir == 0 && x.d.typ == 3 && x.d.port == p) m.flw.ctxs
  (cs.flatMap fun c => ((ctx m c).buf.filter fun b => b.ts == ts).flatMap fun b => (ancsOf b.data).map fun a =>
    ({ ctx := c, at_ := b.at_, line := a.1, hoff := a.2.1, words := a.2.2 } : AncIn)).mergeSort fun a b => decide (a.at_ ≤ b.at_)

/-- Place the packets of a frame in order of arrival (R201): each in its line, or, where it names none, in the first line after
the switch line that has room; never in a line that `gone` says was released before it came. What finds no line is given
with its context. -/
def placeAncs (f : Fmt) (swl : Nat) (gone : Nat → Nat → Bool) (as : List AncIn) : List (Nat × Anc) × List Nat :=
  as.foldl (fun (s : List (Nat × Anc) × List Nat) a =>
    let used (l : Nat) : Nat := ((s.1.filter fun x => x.1 == l).map fun x => x.2.words.length + 3).foldl (· + ·) 0
    let fit (l : Nat) : Bool := decide (used l + a.words.length + 3 ≤ lineRoom f) && !gone a.at_ l
    let line := if 0x7FE ≤ a.line then (span (swl + 1) (totalLines f - swl)).find? fit else if fit a.line then some a.line else none
    match line with
    | some l => (s.1 ++ [(l, { pos := if 0xFFC ≤ a.hoff then used l else a.hoff, words := a.words })], s.2)
    | none => (s.1, s.2 ++ [a.ctx])) ([], [])

/-- A frame has left the playout: what its -40 contexts hold for it goes, and what found no line counts (R201). -/
def dropAncs (m : Mach) (p ts : Nat) (lost : List Nat) : Mach :=
  let m := lost.foldl (fun m c => setCtxCnt m c fun n => { n with discard := sat n.discard 1 }) m
  let cs := tkeys (fun (x : Ctx) => decide (2 ≤ x.st) && x.d.dir == 0 && x.d.typ == 3 && x.d.port == p) m.flw.ctxs
  let m := cs.foldl (fun m c => setCtx m c fun x => { x with buf := x.buf.filter fun b => b.ts != ts }) m
  setIngress m p fun i => { i with lastTs := some ts }

/-! ### Releases (R196 to R200) -/

/-- The ranges of a line that no segment covers. -/
def gaps (n : Nat) (have_ : List (Nat × Nat)) : List (Nat × Nat) :=
  let r := have_.foldl (fun (a : List (Nat × Nat) × Nat) s => (if a.2 < s.1 then a.1 ++ [(a.2, s.1 - a.2)] else a.1, max a.2 (s.1 + s.2))) ([], 0)
  if r.2 < n then r.1 ++ [(r.2, n - r.2)] else r.1

/-- A raster line of a 2022-6 frame from its datagrams (R94, R95, R194): missing ones leave holes, and take with them the
ancillary packets that lie in them. A line whose EAV came and is none has no words. -/
def assembleStream (f : Fmt) (ds : Nat → Option (List Byte)) (line : Nat) : LineIn :=
  let ws := streamWords ds (2 * totalSamples f * (line - 1)) (2 * totalSamples f)
  let words := ws.map (·.1)
  let good (i : Nat) : Bool := (lget (0, false) ws i).2
  let b := lineBody f line words
  let whole (a : Anc) : Bool := (List.range (a.words.length + 3)).all fun i => good (8 + a.pos + 2 * i)
  let off := 2 * totalSamples f - b.words.length
  let have_ := ((List.range b.words.length).filter fun i => good (off + i)).map fun i => (i, 1)
  { line, words := if (List.range 7).all good ∧ !eavOk words then [] else b.words, anc := b.anc.filter whole,
    holes := gaps b.words.length have_, ancLost := (b.anc.filter fun a => !whole a).length }

/-- The words of a raster line from the packets of a -20 frame, with what is missing (R94, R196). -/
def assemble (m : Mach) (d : Desc) (ps : List RxPkt) (line : Nat) : List Nat × List (Nat × Nat) :=
  let f := d.rxFmt m
  match lineRow (totalLines f) d.height (bits d.fmt 7 6) line with
  | none => ([], [])
  | some _ =>
    let ss := (ps.flatMap fun p => ((srds p.data).getD []).filter fun s => srdLine m d s == line).mergeSort fun a b => decide (a.off ≤ b.off)
    let n := 2 * d.width
    let put (ws : List Nat) (s : Srd) : List Nat :=
      let u := unpack d.depth s.data
      ws.zipIdx.map fun x => if 2 * s.off ≤ x.2 ∧ x.2 < 2 * s.off + u.length then lget x.1 u (x.2 - 2 * s.off) else x.1
    (ss.foldl put (blackLine n), gaps n (ss.map fun s => (2 * s.off, (unpack d.depth s.data).length)))

/-- The offset at a release of line 1 (R197, R198, R218): one that FLOW_OFFSET gave, one chosen for a flow that has become
present, or one chosen again, which counts. -/
def settleOffset (m : Mach) (c ts : Nat) : Mach :=
  let x := ctx m c
  let d := x.d
  if !d.auto then setCtx m c fun x => { x with moved := false, offset := d.offset }
  else if x.based ∧ !x.rebase ∧ !x.moved then m
  else
    let m := setCtx m c fun x => { x with based := true, rebase := false, moved := false, lateRun := 0, offset := autoOffset m d ts }
    if x.rebase ∧ x.based ∧ !x.moved then
      raise (setCtxCnt m c fun n => { n with rebase := sat n.rebase 1 }) (ctxSrc m c) 0x34 0 c else m

/-- FLOW_LINE_RELEASE (R196, R197, R198). -/
def lineReleaseEv (c ts line : Nat) (m : Mach) : Mach :=
  let x := ctx m c
  let d := x.d
  if x.st < 2 ∨ d.dir = 1 ∨ !d.video ∨ (namedBy m c).isSome then m
  else
    let m := if line = 1 then settleOffset m c ts else m
    if m.dt.t < lineRelease m c ts line then m
    else
      let x := ctx m c
      let mine := x.buf.filter fun b => b.ts == ts
      let f := d.rxFmt m
      let l : LineIn := if d.typ = 0 then (let (words, holes) := assemble m d mine line; { line, words, holes })
        else assembleStream f (fun i => (mine.find? fun b => dgramAt x.kept b.seq == some i).map fun b => b.data.drop 8) line
      let last (b : RxPkt) : Nat := lastLine m c b.seq b.data
      let gone := mine.filter fun b => decide (last b ≤ line)
      let top := (gone.map (·.seq)).max?
      let lost := match top with
        | some t => if x.seq = 0 then 0 else (t - x.seq) - gone.length
        | none => 0
      let m := setCtxCnt m c fun n => { n with lost := sat n.lost lost }
      let m := setCtx m c fun x => { x with buf := x.buf.filter fun b => !(b.ts == ts && decide (last b ≤ line)), seq := max x.seq (top.getD 0) }
      if x.st = 3 ∧ x.port ≠ 4095 then
        let released (t n : Nat) : Bool := decide (lineRelease m c ts n < t)
        let (ancs, lost) := placeAncs f (swLineOf f (plane m d.anchor).swLine) released (ancsIn m x.port ts)
        let anc := l.anc ++ (ancs.filter fun a => a.1 == line).map (·.2)
        let m := if line = totalLines f then dropAncs m x.port ts lost else m
        setIngress m x.port fun i => { i with lines := i.lines ++ [{ l with anc, at_ := some (lineRelease m c ts line) }] }
      else m

/-- The first swap release of a change lies at or after S − Lmin − W (R207). -/
def swapDue (m : Mach) (i : Ingress) (s : SwapTo) : Bool :=
  let x := plane m s.plane
  let w := match s.ctx.or i.cur with
    | some c => classW (fmtClass ((ctx m c).d.rxFmt m))
    | none => 0
  decide (s.target < x.nextSw) || decide (switchInstant x s.target m.dt.t ≤ (m.dt.t + (5352 + 1000 * w) * nsU : Nat))

/-- The timestamp of the newest frame whose last packet a context has received. -/
def newestTs (m : Mach) (c : Nat) : Nat := (((ctx m c).kept.find? (·.marker)).map (·.ts)).getD 0

/-- FLOW_SWAP_RELEASE (R207 to R210): line SL is released from the port. -/
def swapRelease (p : Nat) (m : Mach) : Mach :=
  let i := ingress m p
  match i.swap with
  | none => m
  | some s =>
    if !swapDue m i s then m else
    let done (m : Mach) (late : Bool) : Mach :=
      let body := le 8 s.epoch ++ le 2 p ++ le 1 (b2n late) ++ le 1 s.plane ++ le 4 ((plane m s.plane).nextSw % 2 ^ 32)
      event m 0x0011 0 body (some s.ses)
    match s.ctx with
    | none =>
      let m := match i.cur with
        | some a => release s.keep m a
        | none => m
      done (sourceLost (1152 + p) (setIngress m p fun i => { i with cur := none, swap := none, lines := [], lastTs := none })) s.late
    | some b =>
      let overdue := decide (s.tick + (ctx m b).d.joinWait * msT < m.now)
      let m := if (ctx m b).d.auto ∧ !(ctx m b).based then
          setCtx m b fun x => { x with based := true, offset := autoOffset m x.d (newestTs m b) } else m
      if ready m b ∨ overdue then
        let m := match i.cur with
          | some a => release s.keep m a
          | none => m
        let m := setCtx m b fun x => { x with st := 3, port := p }
        done (setIngress m p fun i => { i with cur := some b, swap := none, lastTs := none }) s.late
      else
        let m := setIngress m p fun i => { i with swap := some { s with late := true } }
        if s.late then m else raise m (1152 + p) 0x35 0

/-- The sample frame of a timestamp, if a packet that holds it has arrived. -/
def sampleAt (m : Mach) (c ts : Nat) : Option (List Int) :=
  let x := ctx m c
  let d := x.d
  let size := d.nch * d.sampleBytes
  (x.buf.find? fun b => decide ((ts + 2 ^ 32 - b.ts) % 2 ^ 32 * size + size ≤ b.data.length)).map fun b =>
    let at_ := (ts + 2 ^ 32 - b.ts) % 2 ^ 32 * size
    (List.range d.nch).map fun k =>
      let raw := beNat (sub b.data (at_ + k * d.sampleBytes) d.sampleBytes)
      if d.sampleBytes = 2 then ofBits 16 raw * 256 else ofBits 24 raw

/-- The C and block-start bits of an AES3 frame of a timestamp (R256): subframe flags 0, 0, B, F, P, C, U, V from the top
(Assumption 9). -/
def cellsAt (m : Mach) (c ts : Nat) : List Nat :=
  let x := ctx m c
  let d := x.d
  let size := d.nch * 4
  match x.buf.find? fun b => decide ((ts + 2 ^ 32 - b.ts) % 2 ^ 32 * size + size ≤ b.data.length) with
  | some b => if d.typ ≠ 2 then [] else
      (List.range d.nch).map fun k =>
        let n := fld b.data ((ts + 2 ^ 32 - b.ts) % 2 ^ 32 * size + 4 * k) 1
        n / 4 % 2 + n / 32 % 2 * 2
  | none => []

/-- Bytes of a context's packets that wait, and of its granules. -/
def heldBytes (x : Ctx) : Nat := x.buf.foldl (fun a b => a + b.data.length) 0

/-- A context's granules are no more than half full (R200). -/
def halfFull (m : Mach) (c : Nat) : Bool := decide (2 * heldBytes (ctx m c) ≤ granules m c * 65536)

/-- FLOW_AUDIO_RELEASE (R199, R200): the next sample frame goes to the audio domain, or is missing. -/
def audioRelease (c : Nat) (m : Mach) : Mach :=
  let x := ctx m c
  let d := x.d
  match x.nextTs with
  | none => m
  | some ts =>
    let at_ : Int := (mediaAt d.clock ts m.dt.t + x.offset * nsU : Nat) + x.slip * (secU / d.rate : Nat)
    if x.st < 2 ∨ !d.audio ∨ d.dir = 1 ∨ (m.dt.t : Int) < at_ then m
    else
      let g := 3000 + c
      let n := nextIndex m g at_.toNat
      let starts := atBlock m g n
      let m := if starts then setGrp m g fun a => { a with lastBlock := n / blockLen m + 1 } else m
      let m := if starts then setCtx m c fun x => { x with
          offset := if x.moved then x.d.offset else x.offset, moved := false,
          dropping := x.dropping && !halfFull m c } else m
      let x := ctx m c
      if starts ∧ x.inserting ∧ (group m g).gap = 0 then
        let m := setCtxCnt m c fun k => { k with ins := sat k.ins 1 }
        setCtx (placeFrame m g n (group m g).last) c fun x => { x with slip := x.slip + 1 }
      else
        let next (m : Mach) : Mach := setCtx m c fun x => { x with
          nextTs := some ((ts + 1) % 2 ^ 32),
          buf := x.buf.filter fun b => decide ((ts + 1 + 2 ^ 32 - b.ts) % 2 ^ 32 * d.nch * d.sampleBytes < b.data.length) ||
                                      decide (2 ^ 31 ≤ (ts + 1 + 2 ^ 32 - b.ts) % 2 ^ 32) }
        if starts ∧ x.dropping then
          next (setCtx (setCtxCnt m c fun k => { k with drop := sat k.drop 1 }) c fun x => { x with slip := x.slip - 1 })
        else match sampleAt m c ts with
          | some xs => next (placeFrame (noteStatus m g (cellsAt m c ts)) g n xs)
          | none =>
            let m := setCtxCnt m c fun k => { k with lost := sat k.lost 1 }
            next (if (group m g).next.isSome then fillTo g (n + 1) (n + 2) m else m)

/-- FLOW_LATENESS_CHECK (R200): the mean lateness over 1 s. -/
def latenessCheck (c : Nat) (m : Mach) : Mach :=
  let x := ctx m c
  if x.lateN = 0 ∨ !x.d.audio then m
  else
    let mean := x.lateSum / x.lateN
    let held := heldBytes x
    let cap := granules m c * 65536
    let inserting := if (x.offset : Int) - 125000 < mean then true else if mean < (x.offset : Int) / 2 then false else x.inserting
    let dropping := if mean < 0 ∧ 3 * cap < 4 * held then true else if 2 * held ≤ cap then false else x.dropping
    setCtx m c fun x => { x with inserting, dropping, lateSum := 0, lateN := 0 }

/-- PROTECTION_PATH_LOST (R6, R203): one path of a pair has delivered nothing for 100 ms. -/
def pathLost (c : Nat) (m : Mach) : Mach :=
  let x := ctx m c
  if 2 ≤ x.st ∧ x.d.dir = 0 ∧ 1 < (pairOf m c).length ∧ !x.pathLost ∧ x.lastPkt + secU / 10 < m.dt.t then
    raise (setCtx m c fun x => { x with pathUp := false, pathLost := true }) (ctxSrc m c) 0x32 1 c
  else m

/-! ### Send flows (R204, R206, R211 to R214) -/

/-- The RTP packet of a context: header with its SSRC and payload type. -/
def rtpBytes (d : Desc) (marker : Bool) (seq ts : Nat) (body : List Byte) : List Byte :=
  be 1 0x80 ++ be 1 (b2n marker * 128 + d.pt) ++ be 2 seq ++ be 4 ts ++ be 4 d.ssrc ++ body

/-- Queue one packet of a send context from its MAC with its addresses; nothing below ROLE 8, without a next hop or
without an interface (R192, R206). `d` names addresses, `rtp` the RTP packet. -/
def sendFrom (m : Mach) (c seq : Nat) (rtp : List Byte) : Mach :=
  let d := (ctx m c).d
  match hopMac m d with
  | none => m
  | some dst =>
    if !speaks m ∨ !hasIface m d.mac d.v6 ∨ (mac m d.mac).addr = 0 ∨ !(mac m d.mac).link then m
    else
      let (id, m) := fresh m
      let src := srcAddr m d.mac d.v6
      let da := if d.v6 then d.daddr else d.daddr.take 4
      let u := udp src da d.sport d.dport (d.v6 || bit d.flags 2) rtp
      let ip := if d.v6 then ip6Header (d.dscp * 4) d.ttl 17 u.length src da
        else ip4Header (Config.unstated id % 65536) (d.dscp * 4) d.ttl 17 u.length src da
      queueFrame m d.mac (some c) seq (ethFrame dst (mac m d.mac).addr (if d.tagged then some d.tci else none)
        (if d.v6 then 0x86DD else 0x0800) (ip ++ u)) true

/-- Send one packet of a context and its twin's copy (R204); the sequence number runs on. -/
def sendPacket (m : Mach) (c : Nat) (marker : Bool) (ts : Nat) (body : Nat → List Byte) : Mach :=
  let x := ctx m c
  let seq := x.outTs % 2 ^ 32
  let rtp := rtpBytes x.d marker seq ts (body seq)
  let m := setCtx m c fun x => { x with outTs := (x.outTs + 1) % 2 ^ 32 }
  let m := sendFrom m c seq rtp
  match namedBy m c with
  | some t => if (ctx m t).live then sendFrom m t seq rtp else m
  | none => m

/-- Contexts that send from an egress port, of a type. -/
def sendersOn (m : Mach) (q typ : Nat) : List Nat :=
  tkeys (fun (x : Ctx) => x.live && x.d.dir == 1 && !x.d.twin && x.d.typ == typ && x.d.port == q) m.flw.ctxs

/-- Pack words of 10 bits. -/
def pack10 (ws : List Nat) : List Byte := be (ws.length * 10 / 8) (ws.foldl (fun a w => a * 1024 + w % 1024) 0)

/-- The -20 packets of an active line (R194, R211, R212): one line per packet. -/
def sendLine (m : Mach) (c ts row : Nat) (field lastLine : Bool) (ws : List Nat) : Mach :=
  let d := (ctx m c).d
  let per := d.payload * 8 / 10 / 2 * 2
  let n := (ws.length + per - 1) / per
  (List.range n).foldl (fun m i =>
    let part := (ws.drop (i * per)).take per
    let data := pack10 part
    sendPacket m c (lastLine && i + 1 == n) ts fun seq =>
      be 2 (seq / 65536) ++ be 2 data.length ++ be 2 (b2n field * 2 ^ 15 + row) ++ be 2 (i * per / 2) ++ data) m

/-- The RFC 8331 body of ancillary packets with their lines (R212). -/
def ancBody (as : List (Nat × Anc)) : List Byte :=
  as.flatMap fun (line, a) =>
    let n := 32 + 10 * a.words.length
    let v := a.words.foldl (fun v w => v * 1024 + w % 1024) ((line % 2048 * 4096 + a.pos % 4096) * 256)
    let padded := (n + 31) / 32 * 32
    be (padded / 8) (v * 2 ^ (padded - n))

/-- A -40 context sends the packets it has gathered; F is 0 for a progressive or PsF frame, 2 for the first field of an
interlaced one and 3 for the second. -/
def flushAncs (m : Mach) (c ts fbits : Nat) (marker : Bool) : Mach :=
  let as := (ctx m c).ancQ
  let b := ancBody as
  sendPacket (setCtx m c fun x => { x with ancQ := [] }) c marker ts fun seq =>
    be 2 (seq / 65536) ++ be 2 b.length ++ be 1 as.length ++ be 3 (fbits * 2 ^ 22) ++ b

/-- A -40 context takes a line's packets, as many to a packet as MAXFRAME lets it hold (R212); ST 299 packets are not among
them. -/
def sendAncs (m : Mach) (c ts line : Nat) (f : Fmt) (as : List Anc) : Mach :=
  let fbits := if f.scan = 1 then (if line ≤ 563 then 2 else 3) else 0
  let m := as.foldl (fun m a =>
    let x := ctx m c
    let more := x.ancQ ++ [(line, a)]
    let full := decide ((mac m x.d.mac).maxFrame < x.d.headBytes + (ancBody more).length) || decide (255 < more.length)
    let m := if full ∧ x.ancQ ≠ [] then flushAncs m c ts fbits false else m
    setCtx m c fun x => { x with ancQ := x.ancQ ++ [(line, a)] }) m
  if line = totalLines f ∨ (f.scan = 1 ∧ line = 563) then flushAncs m c ts fbits true else m

/-- A 2022-6 context takes a serial line into its datagrams; the frame's last is filled with zeros and has the marker bit
(R194, R213). -/
def sendStream (m : Mach) (c ts line : Nat) (f : Fmt) (ws : List Nat) : Mach :=
  let x := ctx m c
  let (n0, v0) := if line = 1 then (0, 0) else x.bits
  let last := decide (line = totalLines f)
  let n := n0 + 10 * ws.length
  let v := ws.foldl (fun a w => 1024 * a + w % 1024) v0
  let k := if last then (n + dgramBits - 1) / dgramBits else n / dgramBits
  let (n, v) := if last then (dgramBits * k, v * 2 ^ (dgramBits * k - n)) else (n, v)
  let m := setCtx m c fun x => { x with bits := (n - dgramBits * k, v % 2 ^ (n - dgramBits * k)),
                                        frames := if line = 1 then x.frames + 1 else x.frames }
  (List.range k).foldl (fun m i => sendPacket m c (last && i + 1 == k) ts fun _ =>
    hbrmtHead f (ctx m c).frames ++ be 1376 (v / 2 ^ (n - dgramBits * (i + 1)))) m

/-- The timestamp of an egress port's frame at a clock rate (R211): the instant at which its line 1 leaves the crossbar. -/
def frameTs (m : Mach) (q r : Nat) : Nat := ((instantTo (plane m (air m (1152 + q)).plane) 1 m.dt.t * r) / (secU : Nat)).toNat % 2 ^ 32

/-- An egress port's line leaves the crossbar output: its -20, -40 and 2022-6 contexts send what it carries (R211, R212,
R213). `before` is the active words of the line before. -/
def egressLine (m : Mach) (q line : Nat) (before ws : List Nat) (ancs : List Anc) : Mach :=
  let f := airFmt m q
  let ts := frameTs m q 90000
  let m := match lineRow (totalLines f) (activeLines f) f.scan line with
    | none => m
    | some r =>
      let row := if f.scan = 0 then r else r / 2
      let last := r + 1 = activeLines f ∨ (f.scan = 1 ∧ r + 2 = activeLines f)
      (sendersOn m q 0).foldl (fun m c => sendLine m c ts row (f.scan != 0 && r % 2 == 1) (decide last) ws) m
  let as := ancs.filter fun a => !isAudioAnc a
  let m := (sendersOn m q 3).foldl (fun m c => sendAncs m c ts line f as) m
  let cs := sendersOn m q 4
  if cs.isEmpty then m
  else
    let serial := serialLine f line before { words := ws, anc := ancs }
    cs.foldl (fun m c => sendStream m c (frameTs m q 27000000) line f serial) m

/-- First output channel of a send audio context. -/
def txChan (m : Mach) (d : Desc) : Nat := if d.bind = 2 then (destGroup m (1152 + d.port)).1 + d.chan else d.chan

/-- The flags of a -31 subframe: block start, first subframe of its frame, parity, channel status (R263, Assumption 9). -/
def subframeFlags (s : Subframe) (first : Bool) : Nat :=
  b2n s.z * 32 + b2n first * 16 + b2n (oddBits 24 (toBits 24 s.x) != s.c) * 8 + b2n s.c * 4

/-- One sample on the wire (R194, R263): channel `k` of a send context at an output index. -/
def wireSample (m : Mach) (d : Desc) (k idx : Nat) : List Byte :=
  let s := outSubframe m (txChan m d + k) idx
  if d.typ = 2 then be 1 (subframeFlags s (k % 2 == 0)) ++ be 3 (toBits 24 s.x)
  else if d.sampleBytes = 2 then be 2 (toBits 16 (l16 s.x)) else be 3 (toBits 24 s.x)

/-- An output sample has been delivered: the contexts whose last channel it is take the sample frame, and send each
packet as it fills (R211, R212). -/
def audioSend (ch idx : Nat) (m : Mach) : Mach :=
  let cs := tkeys (fun (x : Ctx) => decide (1 ≤ x.st) && x.d.dir == 1 && x.d.audio && !x.d.twin &&
    txChan m x.d + x.d.nch == ch + 1) m.flw.ctxs
  cs.foldl (fun m c =>
    let x := ctx m c
    let d := x.d
    let turn := match x.startAt with
      | some (p, n, on) => if p = 16 ∧ n ≤ idx then some on else none
      | none => none
    let m := match turn with
      | some on => (pairOf m c).foldl (fun m k => setCtx m k fun y => { y with live := on, startAt := none, out := [] }) m
      | none => m
    let x := ctx m c
    if !x.live then m
    else
      let frame := (List.range d.nch).flatMap fun k => wireSample m d k idx
      let out := if idx % d.perPacket = 0 then frame else x.out ++ frame
      let m := setCtx m c fun x => { x with out }
      if idx % d.perPacket + 1 = d.perPacket ∧ out.length = d.perPacket * d.nch * d.sampleBytes then
        sendPacket m c false ((idx + 1 - d.perPacket) % 2 ^ 32) fun _ => out
      else m) m

/-- Contexts of egress ports start or stop at their plane's switch point (R214). -/
def flowSwitch (m : Mach) (p k : Nat) : Mach :=
  let due (x : Ctx) : Bool := x.startAt.any fun s => s.1 == p && decide (s.2.1 ≤ k)
  (tkeys due m.flw.ctxs).foldl (fun m c =>
    setCtx m c fun x => { x with live := (x.startAt.map (·.2.2)).getD x.live, startAt := none, out := [], ancQ := [], bits := (0, 0) }) m

/-- AUDIO_OUTPUT_SAMPLE (R257 to R262): the Shrew core computes the sample and its consumers take it. -/
def outputAndSend (ch idx : Nat) (m : Mach) : Mach := audioSend ch idx (outputSample ch idx m)

/-- A plane change that a 2022-6 sender of an egress port cannot follow (R214): the lowest such context. -/
def stuck2022 (m : Mach) (first count p : Nat) : Option Nat :=
  if fmtClass (plane m p).fmt ≤ 1 then none
  else (tkeys (fun (x : Ctx) => decide (1 ≤ x.st) && x.d.dir == 1 && x.d.typ == 4 && !x.d.twin &&
    decide (first ≤ 1152 + x.d.port) && decide (1152 + x.d.port < first + count)) m.flw.ctxs).head?

/-! ### Status (R218 to R220) -/

/-- FLW_CTX_STAT. -/
def ctxStat (m : Mach) (c : Nat) : Nat :=
  let x := ctx m c
  if x.st = 0 then 4095
  else
    let up := x.pathUp && decide (m.dt.t ≤ x.lastPkt + secU / 10)
    x.st * 2 ^ 29 + x.d.typ * 2 ^ 26 + x.d.dir * 2 ^ 25 + b2n (decide (1 < (pairOf m c).length)) * 2 ^ 24 + b2n up * 2 ^ 23
      + b2n (x.d.dir == 0 && x.d.video && ready m c) * 2 ^ 22 + x.d.mac * 2 ^ 16 + x.port

/-- FLW_CTX_RATE: the admitted rate while enabled. -/
def ctxRate (m : Mach) (c : Nat) : Nat := if 2 ≤ (ctx m c).st then rateMbit m c % 2 ^ 20 else 0

/-- TROFFSET of a -20 sender in ns (R212): from line 1's crossbar output to the first bit of its first packet. -/
def troffset (m : Mach) (c : Nat) : Nat :=
  let d := (ctx m c).d.eff m
  if d.dir = 1 ∧ d.typ = 0 ∧ 2 ≤ (ctx m c).st then
    let f := airFmt m d.port
    let per := d.payload * 8 / 10 / 2
    let line := framePs f / totalLines f
    ((rowLine (totalLines f) f.scan 0 - 1) * line + (totalSamples f - activeSamples f + per) * line / totalSamples f + 8000000) / 1000
  else 0

/-- FLOW_STATUS. -/
def askFlowStatus (c : Nat) (m : Mach) : QRes :=
  if 16383 < c then .arg
  else .answer m sOk [.w (ctxStat m c), .w (ctx m c).offset, .w (ctxRate m c), .w (troffset m c)]

/-- Rates of a MAC in Mbit/s: sum rounded up, limit rounded down. -/
def macRateMbit (m : Mach) (k dir : Nat) : Nat := (rateSum m k dir + 999999999) / 1000000000

/-- FLOW_CAPACITY: send sum and limit, receive sum and limit, free granules, free depacketisers, and the free
packetisers of the egress ports that send from the MAC. -/
def askFlowCapacity (k : Nat) (m : Mach) : QRes :=
  if !macExists m k then .arg
  else
    let qs := (List.range 1152).filter fun q => (enabledOn m k 1).any fun c => (ctx m c).d.port == q
    .answer m sOk [.w (macRateMbit m k 1), .w (rateLimit m k / 1000000000), .w (macRateMbit m k 0),
      .w (rateLimit m k / 1000000000), .w (262144 - granulesUsed m), .w (2304 - depacketisers m),
      .w (qs.foldl (fun a q => a + (2 - packetisers m q)) 0)]

/-! ### The meanings -/

/-- FLOW_LINE_RELEASE (R196). -/
def execFlowLineRelease (ctx ts line : Nat) (s : State) := runIf (ctx < 16384) (lineReleaseEv ctx ts line) s
/-- FLOW_AUDIO_RELEASE (R199). -/
def execFlowAudioRelease (ctx : Nat) (s : State) := runIf (ctx < 16384) (audioRelease ctx) s
/-- FLOW_LATENESS_CHECK (R200). -/
def execFlowLatenessCheck (ctx : Nat) (s : State) := runIf (ctx < 16384) (latenessCheck ctx) s
/-- PROTECTION_PATH_LOST (R203). -/
def execProtectionPathLost (ctx : Nat) (s : State) := runIf (ctx < 16384) (pathLost ctx) s
/-- FLOW_SWAP_RELEASE (R207). -/
def execFlowSwapRelease (port : Nat) (s : State) := runIf (port < 1152) (swapRelease port) s
/-- STATE_CHANGE_REPORT_REPEAT (R205). -/
def execStateChangeReportRepeat (mac : Nat) (group : List Byte) (s : State) := runIf (mac < 64) (reportRepeat mac group) s
/-- QUERY_RESPONSE (R205). -/
def execQueryResponse (mac : Nat) (s : State) := runIf (mac < 64) (queryResponse mac) s
/-- AUDIO_OUTPUT_SAMPLE (R259). -/
def execAudioOutputSample (chan index : Nat) (s : State) := runIf (chan < 65536) (outputAndSend chan index) s

end Sys2Proof.Machine
end

