-- ==== Sys2Proof/Machine/Compositors.lean ====
section
/-! DEFINITION. The compositors: admission of layouts, composition, guarded regions, freezes, shedding (chapter 08). -/
namespace Sys2Proof.Machine

def cmpSrc (k : Nat) : Nat := 2304 + k
def setCmpCnt (m : Mach) (k : Nat) (f : CmpCnt → CmpCnt) : Mach := { m with cmp := { m.cmp with cnts := tmod {} m.cmp.cnts k f } }

/-- The destination number under which a window's hold stands. -/
def winHold (k w : Nat) : Nat := 4096 + 64 * k + w

/-! ### Rates and engines (R230, R233) -/

/-- Lines a window reads of each frame, and its areas. -/
def Win.readLines (w : Win) : Nat := if w.ilace then (w.cropH + 1) / 2 else w.cropH
def Win.inArea (w : Win) : Nat := w.cropW * w.readLines
def Win.outArea (w : Win) : Nat := w.dstW * w.dstH

/-- The window needs a scaler engine (R230). -/
def Win.isScaled (w : Win) : Bool := w.ilace || w.cropW != w.dstW || w.cropH != w.dstH

/-- Samples a frame become samples a second within a limit in Mpixel/s. -/
def rateFits (f : Fmt) (area mpx : Nat) : Bool := decide (area * rateNum f.rate ≤ mpx * 1000000 * rateDen f.rate)

/-- Whole Mpixel/s of samples a frame. -/
def mpxOf (f : Fmt) (area : Nat) : Nat := area * rateNum f.rate / (rateDen f.rate * 1000000)

/-- The same rounded up, so that what is left of a limit is rounded down. -/
def mpxUp (f : Fmt) (area : Nat) : Nat :=
  (area * rateNum f.rate + (rateDen f.rate * 1000000 - 1)) / (rateDen f.rate * 1000000)

/-- Samples a frame that a layout reads. -/
def readArea (l : Layout) : Nat := l.wins.foldl (fun a x => a + x.2.inArea) 0

/-- Scaled windows in placement order: descending input rate, then ascending number (R233). -/
def placeOrder (l : Layout) : List (Nat × Win) :=
  (l.wins.filter fun x => x.2.isScaled).mergeSort fun a b =>
    decide (b.2.inArea < a.2.inArea) || (a.2.inArea == b.2.inArea && decide (a.1 ≤ b.1))

/-- Place windows on engines: the placements, or the window that fits none. -/
def place (f : Fmt) : List (Nat × Win) → List (Nat × Nat) → Tab Nat → Tab Nat ⊕ Nat
  | [], _, pl => .inl pl
  | (i, w) :: rest, loads, pl =>
    match loads.findIdx? fun e => rateFits f (e.1 + w.inArea) 1200 && rateFits f (e.2 + w.outArea) 600 with
    | some k => place f rest (lmod loads k fun e => (e.1 + w.inArea, e.2 + w.outArea)) (tset pl i k)
    | none => .inr i

/-- Input area a layout's placed windows load an engine with. -/
def engineArea (l : Layout) (e : Nat) : Nat := l.wins.foldl (fun a x => if x.2.engine = some e then a + x.2.inArea else a) 0

/-- The layout with its engines placed, or the refusal of R233; `recs` are the windows the change set names, in order,
`old` the layout before it and `f0` its format. The free counts are those before the change set (R57). -/
def admitRates (f0 f : Fmt) (old : Layout) (recs : List (Nat × Option Win)) (l : Layout) : Layout ⊕ CRes :=
  if !rateFits f (readArea l) 2400 then
    let step (a : Tab Win × Option Nat) (x : (Nat × Option Win) × Nat) : Tab Win × Option Nat :=
      let t := match x.1.2 with
        | some w => tset a.1 x.1.1 w
        | none => tdel a.1 x.1.1
      (t, a.2.or (if rateFits f (readArea { old with wins := t }) 2400 then none else some x.2))
    let index := (recs.zipIdx.foldl step (old.wins, none)).2.getD 0xFFFF
    .inr (.refuse sCapacity { index, res := 8, free := 2400 - mpxUp f0 (readArea old) })
  else match place f (placeOrder l) (List.replicate 16 (0, 0)) [] with
    | .inl pl => .inl { l with wins := tmap (fun i w => { w with engine := tget? i pl }) l.wins }
    | .inr i =>
      let low := (((List.range 16).map (engineArea old)).min?).getD 0
      .inr (.refuse sCapacity { index := (recs.findIdx? fun x => x.1 == i).getD 0xFFFF, res := 9, free := 1200 - mpxUp f0 low })

/-! ### Records (R227, R228, R235) -/

/-- The fields of a window record. -/
def winOf (d : List Byte) : Win :=
  { src := fld d 2 2, cropX := fld d 4 2, cropY := fld d 6 2, cropW := fld d 8 2, cropH := fld d 10 2, dstX := fld d 12 2,
    dstY := fld d 14 2, dstW := fld d 16 2, dstH := fld d 18 2, layer := fld d 20 1, border := fld d 21 1,
    alpha := fld d 22 2, bcolour := fld d 24 4, hset := fld d 28 1, vset := fld d 29 1 }

/-- A coefficient set may be named: automatic, or loaded (R228). -/
def setOk (l : Layout) (s : Nat) : Bool := s == 0 || (decide (4 ≤ s) && decide (s ≤ 7) && (tget? s l.sets).isSome)

/-- The window fits a plane's picture and takes an allowed source (R225, R228). -/
def winOnPlane (m : Mach) (k p : Nat) (w : Win) : Bool :=
  let f := (plane m p).fmt
  decide (w.dstX + w.dstW ≤ activeSamples f) && decide (w.dstY + w.dstH ≤ activeLines f)
    && (!isGen w.src || (gen m (w.src - 2336)).plane == p)
    && (!isCmp w.src || (decide (w.src - 2304 < k) && (cmpr m (w.src - 2304)).com.plane == p))

/-- A window record's own fields (R227, R228). -/
def winFieldsOk (l : Layout) (w : Win) : Bool :=
  decide (w.src < 2400) && w.cropX % 2 == 0 && w.cropW % 2 == 0 && decide (2 ≤ w.cropW) && decide (w.cropW ≤ 3840)
    && decide (1 ≤ w.cropH) && decide (w.cropH ≤ 2160) && w.dstX % 2 == 0 && w.dstW % 2 == 0 && decide (2 ≤ w.dstW)
    && decide (1 ≤ w.dstH) && decide (w.layer ≤ 7) && decide (w.border ≤ 15) && decide (w.alpha ≤ 1024)
    && decide (w.bcolour < 2 ^ 30) && decide (w.dstW ≤ 16 * w.cropW) && decide (w.cropW ≤ 8 * w.dstW)
    && decide (w.dstH ≤ 16 * w.cropH) && decide (w.cropH ≤ 8 * w.dstH) && setOk l w.hset && setOk l w.vset

/-- One record of CMP_LAYOUT: its window, and what replaces it; none where it is refused. -/
def winRecord (m : Mach) (k : Nat) (l : Layout) (d : List Byte) : Option (Nat × Option Win) :=
  let i := fld d 0 1
  let flags := fld d 1 1
  if 63 < i ∨ 1 < flags then none
  else if flags = 0 then some (i, none)
  else
    let w := winOf d
    if winFieldsOk l w && winOnPlane m k l.plane w && fld d 30 2 == 0 then some (i, some w) else none

/-- The records of a change set, each naming a window once; or the index of the first that is refused. -/
def winRecords (m : Mach) (k : Nat) (l : Layout) : List (List Byte) → List (Nat × Option Win) → Nat ⊕ List (Nat × Option Win)
  | [], acc => .inr acc
  | d :: ds, acc =>
    match winRecord m k l d with
    | some r => if acc.any fun x => x.1 == r.1 then .inl acc.length else winRecords m k l ds (acc ++ [r])
    | none => .inl acc.length

/-- The source is interlaced as it is admitted (R230). -/
def srcInterlaced (m : Mach) (s : Nat) : Bool := decide (s < 2304) && (srcOf m s).present && (srcOf m s).fmt.scan == 1

/-- A window as it is admitted: its source's scan as it stands now (R230). -/
def markWin (m : Mach) (w : Win) : Win := { w with ilace := srcInterlaced m w.src }

/-- A layout as it is admitted (R230). -/
def markScan (m : Mach) (l : Layout) : Layout := { l with wins := tmap (fun _ w => markWin m w) l.wins }

/-- Put a committed layout on its plane's next switch point. -/
def putLayout (m : Mach) (k : Nat) (l : Layout) : Mach :=
  setCmp m k fun c => { c with com := l, pend := c.pend ++ [(l.plane, target m l.plane, l)] }

/-- A window's hold as a route of its source (R224). -/
def holdOf (k p i s : Nat) : Hold := { dest := winHold k i, src := s, plane := p }

/-- CMP_LAYOUT (R225 to R233). A record ends its window's freeze (R240). -/
def commitCmpLayout (c : CCtx) (k count : Nat) (m : Mach) : CRes :=
  if 31 < k ∨ count < 1 ∨ 64 < count then .arg
  else
    let l := (cmpr m k).com
    match winRecords m k l ((List.range count).map fun i => sub c.data (32 * i) 32) [] with
    | .inl i => .refuse sArg { index := i }
    | .inr rs =>
      let names (i : Nat) : Bool := rs.any fun r => r.1 == i
      let wins := rs.foldl (fun t r => match r.2 with
        | some w => tset t r.1 w
        | none => tdel t r.1) l.wins
      let l' := markScan m { l with wins, frozen := l.frozen.filter fun i => !names i }
      let marked := rs.map fun r => (r.1, r.2.map (markWin m))
      match admitRates (plane m l.plane).fmt (plane m l.plane).fmt l marked l' with
      | .inr r => r
      | .inl l' =>
        let t := target m l.plane
        let kept (r : Nat × Option Win) : Bool :=
          match r.2, tget? r.1 l.wins with
          | some w, some o => w.src == o.src && !l.frozen.contains r.1
          | _, _ => false
        let gone := m.xb.holds.map fun h =>
          if h.out = none ∧ rs.any fun r => winHold k r.1 == h.dest && !kept r then { h with out := some (l.plane, t) } else h
        let new := rs.zipIdx.filterMap fun x => match x.1.2 with
          | some w => if kept x.1 then none else some (x.2, holdOf k l.plane x.1.1 w.src)
          | none => none
        match capStep m m.xb.holds new with
        | some r => r
        | none =>
          let m := { m with xb := { m.xb with holds := gone ++ new.map (·.2) } }
          let m := setCmp m k fun c => { c with thaw := c.thaw ++ l.frozen.filter names }
          .done (putLayout m k l')

/-- The fields of a region record; none where it is refused (R235). -/
def regionRecord (f : Fmt) (ep : Nat) (d : List Byte) : Option (Nat × Option Region) :=
  let i := fld d 0 1
  let flags := fld d 1 1
  if 15 < i ∨ 7 < flags then none
  else if !bit flags 0 then some (i, none)
  else
    let n := fld d 3 1
    let r : Region := {
      cls := b2n (bit flags 1) + 1, learn := bit flags 2, mframes := if fld d 2 1 = 0 then 3 else fld d 2 1,
      sigs := (List.range n).map fun k => fld d (12 + 4 * k) 4,
      x := fld d 4 2, y := fld d 6 2, w := fld d 8 2, h := fld d 10 2, epoch := ep }
    if decide (n ≤ 4) && r.x % 2 == 0 && r.w % 2 == 0 && decide (2 ≤ r.w) && decide (1 ≤ r.h)
        && decide (r.x + r.w ≤ activeSamples f) && decide (r.y + r.h ≤ activeLines f) && fld d 28 4 == 0
        && (if r.learn then n == 0 else n != 0) then some (i, some r) else none

def regionRecords (f : Fmt) (ep : Nat) : List (List Byte) → List (Nat × Option Region) → Nat ⊕ List (Nat × Option Region)
  | [], acc => .inr acc
  | d :: ds, acc =>
    match regionRecord f ep d with
    | some r => if acc.any fun x => x.1 == r.1 then .inl acc.length else regionRecords f ep ds (acc ++ [r])
    | none => .inl acc.length

/-- CMP_GUARD (R235). -/
def commitCmpGuard (c : CCtx) (k count : Nat) (m : Mach) : CRes :=
  if 31 < k ∨ count < 1 ∨ 16 < count then .arg
  else
    let l := (cmpr m k).com
    match regionRecords (plane m l.plane).fmt c.ep ((List.range count).map fun i => sub c.data (32 * i) 32) [] with
    | .inl i => .refuse sArg { index := i }
    | .inr rs =>
      let regions := rs.foldl (fun t r => match r.2 with
        | some w => tset t r.1 w
        | none => tdel t r.1) l.regions
      .done (putLayout m k { l with regions })

/-! ### Binding (R222) -/

/-- A refused rebinding: the destination, reading compositor or read compositor that stands in the way. -/
def bindConflict (m : Mach) (k : Nat) : Option CRes :=
  match lowDest fun d => (dest m d).src == cmpSrc k || (dest m d).asrc == cmpSrc k with
  | some d => some (.conflict 2 d)
  | none =>
    match windowOn m (cmpSrc k) with
    | some j => some (.conflict 5 j)
    | none =>
      (((cmpr m k).com.wins.find? fun w => isCmp w.2.src).map fun w => .conflict 5 (w.2.src - 2304))

/-- The first window or region that a new plane makes invalid (R222). -/
def badOnPlane (m : Mach) (k p : Nat) (l : Layout) : Option Nat :=
  match l.wins.find? fun x => !winOnPlane m k p x.2 with
  | some x => some x.1
  | none =>
    let f := (plane m p).fmt
    (l.regions.find? fun x => decide (activeSamples f < x.2.x + x.2.w) || decide (activeLines f < x.2.y + x.2.h)).map
      fun x => 64 + x.1

/-- CMP_BIND (R222). -/
def commitCmpBind (k p dither audwin back : Nat) (m : Mach) : CRes :=
  if 31 < k ∨ (15 < p ∧ p ≠ 255) ∨ 3 < dither ∨ (63 < audwin ∧ audwin ≠ 127) ∨ 2 ^ 30 ≤ back then .arg
  else
    let l := (cmpr m k).com
    let l' := { l with dither, audwin, back }
    if p ≠ 255 ∧ (plane m p).fmt.scan ≠ 0 then .arg
    else if p = 255 ∨ p = l.plane then .done (putLayout m k l')
    else match bindConflict m k with
      | some r => r
      | none =>
        match badOnPlane m k p l with
        | some i => .refuse sArg { index := i }
        | none =>
          match admitRates (plane m l.plane).fmt (plane m p).fmt l [] { l' with plane := p } with
          | .inr r => r
          | .inl l' =>
            let live := l.wins.filter fun x => !l.frozen.contains x.1
            match capStep m m.xb.holds (live.map fun x => (0xFFFF, holdOf k p x.1 x.2.src)) with
            | some r => r
            | none =>
              let t := target m p
              let own (h : Hold) : Bool := decide (winHold k 0 ≤ h.dest) && decide (h.dest < winHold (k + 1) 0)
              let gone := m.xb.holds.map fun h => if own h ∧ h.out = none then { h with out := some (p, t) } else h
              let m := { m with xb := { m.xb with holds := gone ++ live.map fun x => holdOf k p x.1 x.2.src } }
              .done (putLayout m k l')

/-! ### Freezes and coefficients (R232, R240) -/

/-- CMP_FREEZE (R240). -/
def commitCmpFreeze (k w op : Nat) (m : Mach) : CRes :=
  let c := cmpr m k
  let l := c.com
  match tget? w l.wins with
  | none => .arg
  | some x =>
    if 31 < k ∨ 1 < op then .arg
    else if (op = 1) = (l.frozen.contains w) then .done m
    else if op = 1 then
      if fbFree m m.xb.holds = 0 then
        match ((bufSources m m.xb.holds).mergeSort).head? with
        | some s => .conflict 3 s
        | none => .refuse sCapacity { res := 1, free := 0 }
      else
        let gone := endHolds m.xb.holds (winHold k w) l.plane (target m l.plane)
        .done (putLayout { m with xb := { m.xb with holds := gone } } k { l with frozen := l.frozen ++ [w] })
    else
      match capStep m m.xb.holds [(0xFFFF, holdOf k l.plane w x.src)] with
      | some r => r
      | none =>
        let m := { m with xb := { m.xb with holds := m.xb.holds ++ [holdOf k l.plane w x.src] } }
        let m := setCmp m k fun c => { c with thaw := c.thaw ++ [w] }
        .done (putLayout m k { l with frozen := l.frozen.filter (· != w) })

/-- The first `n` little-endian 16-bit fields. -/
def halfWords : Nat → List Byte → List Nat
  | 0, _ => []
  | n + 1, d => fld d 0 2 :: halfWords n (d.drop 2)

/-- The coefficients of a loaded set: 512 horizontal, then 384 vertical. -/
def coefWords (d : List Byte) : List Nat := halfWords 896 d

/-- A word is a sign extension of a 12-bit value (R232). -/
def signExtended (w : Nat) : Bool := decide (w < 2 ^ 11) || (decide (2 ^ 16 - 2 ^ 11 ≤ w) && decide (w < 2 ^ 16))

/-- Every phase's taps sum to 1,024 (R232). -/
def phasesOk (cs : List Int) : Bool :=
  let sum (o n : Nat) : Int := ((cs.drop o).take n).foldl (· + ·) 0
  ((List.range 64).all fun p => sum (8 * p) 8 == 1024) && ((List.range 64).all fun p => sum (512 + 6 * p) 6 == 1024)

/-- CMP_COEF (R232). -/
def commitCmpCoef (c : CCtx) (k s : Nat) (m : Mach) : CRes :=
  let ws := coefWords c.data
  let cs := ws.map (ofBits 16)
  if 31 < k ∨ s < 4 ∨ 7 < s ∨ !ws.all signExtended ∨ !phasesOk cs then .arg
  else
    let l := (cmpr m k).com
    .done (putLayout m k { l with sets := tset l.sets s cs })

/-! ### Composition (R223 to R231) -/

/-- Something was whole at 50 µs before the layout instant (R224). -/
def wholeThen (m : Mach) (at_ : Nat) : Bool := decide (at_ + 50000 * nsU ≤ m.dt.t)

/-- The newest complete frame at 50 µs before the layout instant (R224). -/
def windowBuf (m : Mach) (s : Nat) : Option Nat :=
  newest (srcOf m s) fun b => inFormat (srcOf m s) s b && wholeThen m b.at_

/-- Lines of a frame buffer by active row; for an interlaced frame those of one field. -/
def bufRows (b : FrameBuf) (scan : Nat) (second : Bool) : Tab (List Nat) :=
  b.lines.filterMap fun x =>
    match lineRow b.fmt.total b.fmt.lines scan x.1 with
    | none => none
    | some r =>
      if b.fmt.scan ≠ 1 then some (r, x.2.words)
      else if (r % 2 == 1) = second then some (r / 2, x.2.words) else none

/-- A frame buffer as a picture: the whole frame, or the newest complete field; `later` says that the first field of a later
frame may be it. -/
def bufPic (m : Mach) (x : Src) (b : FrameBuf) (later : Bool) : Pic :=
  let first := x.bufs.find? fun w => later && w.fmt == b.fmt && newer w.num b.num && w.fieldAt.any (wholeThen m)
  let rows (b : FrameBuf) (second : Bool) : Tab (List Nat) :=
    let rs := bufRows b b.fmt.scan second
    rs.mergeSort fun p q => decide (p.1 ≤ q.1)
  if b.fmt.scan ≠ 1 then .rows (rows b false) b.fmt.samples b.fmt.lines 0
  else match first with
    | some w => .rows (rows w false) b.fmt.samples (b.fmt.lines / 2) 1
    | none => .rows (rows b true) b.fmt.samples (b.fmt.lines / 2) 2

/-- What a window of CMP_`k` reads in the frame now latched (R224, R225), with its repeats, drops and cold faults. -/
def choosePic (k p i : Nat) (m : Mach) (w : Win) : Mach × Pic :=
  let s := w.src
  if isGen s then (m, .gen (s - 2336))
  else if isCmp s then (m, .cmp (s - 2304))
  else
    let pr := pair m s p
    if pr.cls = 3 then (setCmp m k fun c => { c with lossRun := tdel c.lossRun i }, .sync s)
    else if pr.sync then (m, .black)
    else
      let run := tget 0 (cmpr m k).lossRun i
      match (if pr.cls = 0 then (if holding pr run then lostBuf (srcOf m s) else none) else windowBuf m s) with
      | none =>
        let cold := pr.cls != 0 && !(cmpr m k).coldNow.contains i
        let m := if cold then
            setCmpCnt (raise (setCmp m k fun c => { c with coldNow := c.coldNow ++ [i] }) (cmpSrc k) 0x40 0) k
              fun c => { c with coldWin := sat c.coldWin 1 }
          else m
        (m, .black)
      | some b =>
        let buf := lget {} (srcOf m s).bufs b
        let last := tget? i (cmpr m k).lastRead
        let rep := b2n (last == some buf.num)
        let drop := match last with
          | some n => dropsFrom n buf.num
          | none => 0
        let m := setCmpCnt m k fun c => { c with winRepeat := sat c.winRepeat rep, winDrop := sat c.winDrop drop }
        (setCmp m k fun c => { c with lastRead := tset c.lastRead i buf.num, coldNow := c.coldNow.filter (· != i),
                                      lossRun := if pr.cls = 0 then tset c.lossRun i (run + 1) else tdel c.lossRun i },
         bufPic m (srcOf m s) buf (pr.cls != 0))

/-- One 12-bit sample of a window at a word of its output line (R229, R231): the border, else the picture. -/
def winSample (sets : Tab (List Int)) (w : Win) (im : Option (Image × Nat)) (i y : Nat) : Nat :=
  let x := wordSample i - w.dstX
  let yy := y - w.dstY
  let edge := decide (x < w.border) || decide (w.dstW ≤ x + w.border) || decide (yy < w.border) || decide (w.dstH ≤ yy + w.border)
  if edge then 4 * packedWord w.bcolour i
  else match im with
    | none => 4 * blackWord i
    | some (im, field) =>
      let c := wordComp i
      scaled sets w im (field != 0) (field == 2 && w.isScaled) c (if c = 0 then x else x / 2) yy

/-- Blend one window over a sample (R229). -/
def blendOver (a win below : Nat) : Nat := (a * win + (1024 - a) * below + 512) / 1024

/-- Windows from the bottom up (R229). -/
def stackOrder (l : Layout) : List (Nat × Win) :=
  l.wins.mergeSort fun a b => decide (a.2.layer < b.2.layer) || (a.2.layer == b.2.layer && decide (a.1 ≤ b.1))

/-- The words of one composed line (R229, R234). -/
def composeLine (f : CmpOut) (y : Nat) : List Nat :=
  (List.range (2 * activeSamples f.fmt)).map fun i =>
    let s := f.ims.foldl (fun below x =>
      let w := x.1
      if w.dstX ≤ wordSample i ∧ wordSample i < w.dstX + w.dstW ∧ w.dstY ≤ y ∧ y < w.dstY + w.dstH then
        blendOver w.alpha (winSample f.layout.sets w x.2 i y) below
      else below) (4 * packedWord f.layout.back i)
    dithered f.layout.dither f.frame (wordComp i) (wordSample i) y s

/-- The row whose words a row of a complete frame carries: itself, or the nearest one above that was not late; none where
every row above was late too (R226). -/
def CmpOut.shown (f : CmpOut) : Nat → Option Nat
  | 0 => if f.late.contains 0 then none else some 0
  | y + 1 => if f.late.contains (y + 1) then f.shown y else some (y + 1)

/-- One line of a complete frame: its words, and black where nothing precedes a late line. None before the first frame
and outside the picture. -/
def CmpOut.line (f : CmpOut) (y : Nat) : Option (List Nat) :=
  if !f.made ∨ activeLines f.fmt ≤ y then none
  else match f.shown y with
    | some r => some (composeLine f r)
    | none => some (blackLine (2 * activeSamples f.fmt))

/-- Every line of a complete frame by active row. -/
def CmpOut.lines (f : CmpOut) : Tab (List Nat) :=
  (List.range (activeLines f.fmt)).filterMap fun y => (f.line y).map fun ws => (y, ws)

/-- The complete frame a window reads of a compositor while output frame `count` is composed: the newest of the output
store that is not later than the frame before it (R225). -/
def storeRead (c : Cmp) (count : Nat) : CmpOut := if c.out.count < count then c.out else c.prev

/-- A picture as rows, as it stands once output frame `count` is composed. -/
def picImage (m : Mach) (f : Fmt) (count : Nat) : Pic → Option (Image × Nat)
  | .black => none
  | .rows rows w h field => some ({ width := w, height := h, rows }, field)
  | .sync s =>
    let x := srcOf m s
    some ({ width := x.fmt.samples, height := x.fmt.lines,
            rows := (x.seen.filterMap fun l => (lineRow x.fmt.total x.fmt.lines x.fmt.scan l.1).map fun r => (r, l.2.words)).mergeSort
              fun p q => decide (p.1 ≤ q.1) }, 0)
  | .gen g =>
    let l := genLine (genNow m g) (activeSamples f)
    some ({ width := activeSamples f, height := activeLines f, rows := (List.range (activeLines f)).map fun r => (r, l) }, 0)
  | .cmp k =>
    let o := storeRead (cmpr m k) count
    some ({ width := activeSamples o.fmt, height := activeLines o.fmt, rows := o.lines }, 0)

/-- The image of a picture that does not change while it is read. -/
def solid (m : Mach) (f : CmpFrame) (p : Pic) : Pic :=
  match picImage m f.fmt f.count p with
  | none => .black
  | some (im, field) => .rows im.rows im.width im.height field

/-- Finish the frame in composition: its pictures as they now stand, and the lines that were late. -/
def finish (m : Mach) (k : Nat) (late : List Nat) : Mach :=
  let c := cmpr m k
  let f := c.lat
  let ims := (stackOrder f.layout).map fun x => (x.2, picImage m f.fmt f.count (tget .black f.pics x.1))
  let out : CmpOut := { made := true, layout := f.layout, fmt := f.fmt, count := f.count, ims, frame := c.frames, late }
  setCmp m k fun c => { c with prev := c.out, out, ice := tmap (fun _ p => solid m f p) c.ice }

/-- A compositor's output frame begins: while it holds frame buffers the writer takes one of them for it (R36, R85). -/
def beginStore (m : Mach) (k : Nat) : Mach :=
  let s := cmpSrc k
  let m := setSrc m s fun x => { x with cur := none }
  if !(bufSources m m.xb.holds).contains s then m
  else
    let m := setSrc m s fun x => { x with present := true, frame := (x.frame + 1) % 2 ^ 32 }
    match writerBuf m s with
    | none => m
    | some i => setSrc m s fun x => { x with cur := some i, bufs := lmod x.bufs i fun _ => { st := 1, num := x.frame } }

/-- A compositor's finished frame stands complete in the buffer that was taken when it began (R36, R43, R85). -/
def storeFrame (m : Mach) (k : Nat) : Mach :=
  let s := cmpSrc k
  match (srcOf m s).cur with
  | none => m
  | some i =>
    let o := (cmpr m k).out
    let f := o.fmt
    let fmt : SrcFmt := { total := totalLines f, lines := activeLines f, samples := activeSamples f, scan := f.scan,
                          rclass := fmtClass f, rate := f.rate }
    let ls : Tab LineData := o.lines.map fun x => (rowLine (totalLines f) f.scan x.1, { words := x.2 })
    setSrc m s fun x => { x with
      fmt, cur := none
      bufs := lmod x.bufs i fun b => { b with st := 2, fmt, lines := ls.mergeSort fun a b => decide (a.1 ≤ b.1), at_ := m.dt.t } }

/-! ### Guarded regions (R236 to R239) -/

/-- The signature of a rectangle of a frame (R236). -/
def signature (f : CmpOut) (r : Region) : Nat :=
  let words := (List.range r.h).flatMap fun y => (((f.line (r.y + y)).getD []).drop (2 * r.x)).take (2 * r.w)
  (crc32c (words.flatMap fun w => [BitVec.ofNat 8 (w / 256), BitVec.ofNat 8 w])).toNat

/-- Check one region of the finished frame. Answers the machine and whether it failed to match. -/
def checkRegion (k : Nat) (a : Mach × Bool) (x : Nat × Region) : Mach × Bool :=
  let m := a.1
  let c := cmpr m k
  let r := x.2
  let i := x.1
  let sig := signature c.out r
  let g0 : Guard := tget {} c.guards i
  let g : Guard := if g0.epoch = r.epoch then g0 else { epoch := r.epoch, bad := g0.bad }
  let m := setCmp m k fun c => { c with sigs := tset c.sigs i sig }
  let put (m : Mach) (g : Guard) : Mach := setCmp m k fun c => { c with guards := tset c.guards i g }
  let evt (m : Mach) (kind : Nat) : Mach :=
    event m 0x0030 2 (le 1 k ++ le 1 i ++ le 1 kind ++ le 1 0 ++ le 4 c.frames ++ le 4 sig)
  if r.learn ∧ g.learned = none then
    (event (put m { g with learned := some sig }) 0x0031 2 (le 1 k ++ le 1 i ++ le 2 0 ++ le 4 sig), a.2)
  else
    let ok := if r.learn then g.learned == some sig else r.sigs.contains sig
    if ok then
      let g := { g with miss := 0, hit := g.hit + 1 }
      if g.bad ∧ r.mframes ≤ g.hit then (evt (put m { g with bad := false }) 1, a.2) else (put m g, a.2)
    else
      let g := { g with miss := g.miss + 1, hit := 0 }
      if !g.bad ∧ r.mframes ≤ g.miss then (evt (raise (put m { g with bad := true }) (cmpSrc k) 0x42 r.cls i) 0, true)
      else (put m g, true)

/-- Check every enabled region of the finished frame (R236 to R238). -/
def checkRegions (m : Mach) (k : Nat) : Mach :=
  let (m, fail) := (cmpr m k).out.layout.regions.foldl (checkRegion k) (m, false)
  if fail then setCmpCnt m k fun c => { c with guardFail := sat c.guardFail 1 } else m

/-! ### The layout instant (R223) -/


/-- A compositor that is not shed: finish the frame, check it, latch the next and choose what its windows read. One that was
shed until now has no frame to finish: its last one stands (R242). -/
def compose (k : Nat) (late : List Nat) (m : Mach) : Mach :=
  let m := storeFrame (if (cmpr m k).idle then m else checkRegions (finish m k late) k) k
  let c := cmpr m k
  let (l, rest) := latchLayout m c
  let old := c.lat.layout
  let ends (w : Nat) : Bool := (old.frozen.contains w && !l.frozen.contains w) || rest.any fun x => !x.2.2.frozen.contains w
  let thaw := c.thaw.filter ends
  let f : CmpFrame := { layout := l, fmt := (plane m l.plane).fmt, count := (plane m l.plane).nextSw }
  let (m, pics) := l.wins.foldl (fun (a : Mach × Tab Pic) x =>
    match (if l.frozen.contains x.1 then tget? x.1 c.ice else none) with
    | some p => (a.1, tset a.2 x.1 p)
    | none =>
      let (m, p) := choosePic k l.plane x.1 a.1 x.2
      (m, tset a.2 x.1 p)) (m, [])
  let ice := l.frozen.filterMap fun w => (tget? w pics).map fun p => (w, p)
  let before := audNow m k
  let m := setCmp m k fun c => { c with lat := { f with pics }, pend := rest, thaw, frames := (c.frames + 1) % 2 ^ 32, idle := false,
                                        guards := c.guards.filter fun g => (tget? g.1 l.regions).isSome,
                                        ice := ice.mergeSort fun a b => decide (a.1 ≤ b.1) }
  noteAudwin (beginStore m k) k before

/-- CMP_LAYOUT_INSTANT (R223, R226, R242): `late` are the active lines of the finished frame that were not complete when
they were due. A shed compositor sends its last frame again. -/
def layoutInstant (k : Nat) (late : List Nat) (m : Mach) : Mach :=
  let c := cmpr m k
  let p := (latchLayout m c).1.plane
  if c.lat.count = (plane m p).nextSw ∧ c.lat.layout.plane = p then m
  else if c.shed then
    let m := setCmp m k fun c =>
      { c with lat := { c.lat with count := (plane m p).nextSw }, frames := (c.frames + 1) % 2 ^ 32, idle := true }
    beginStore (storeFrame m k) k
  else
    let m := late.foldl (fun m _ => raise (setCmpCnt m k fun c => { c with lateLine := sat c.lateLine 1 }) (cmpSrc k) 0x41 1) m
    compose k late m

/-- A poisoned input line: the scaler takes the preceding line, or black for the first (R226). -/
def poisonWindow (k w row : Nat) (m : Mach) : Mach :=
  let fix : Pic → Pic
    | .rows rows wd h field =>
      .rows (tset rows row (if row = 0 then blackLine (2 * wd) else tget (blackLine (2 * wd)) rows (row - 1))) wd h field
    | p => p
  let m := setCmpCnt m k fun c => { c with poison := sat c.poison 1 }
  setCmp m k fun c => { c with lat := { c.lat with pics := tmap (fun i p => if i = w then fix p else p) c.lat.pics } }

/-! ### Status (R245, R247) -/

/-- Scaler engines in use. -/
def enginesUsed (l : Layout) : Nat := ((l.wins.filterMap fun x => x.2.engine).eraseDups).length

/-- CMP_STAT, CMP_RATE and CMP_GUARD_STAT (R247). -/
def cmpStat (c : Cmp) : Nat :=
  let l := c.lat.layout
  b2n c.shed * 2 ^ 31 + l.plane * 2 ^ 26 + l.dither * 2 ^ 24 + l.wins.length * 2 ^ 17 + enginesUsed l * 2 ^ 12 + l.audwin * 2 ^ 5
def cmpRate (c : Cmp) : Nat := mpxOf c.lat.fmt (readArea c.lat.layout)
def guardStat (c : Cmp) : Nat :=
  let rs := c.lat.layout.regions
  mask ((List.range 16).map fun i => (tget? i rs).isSome && (tget {} c.guards i).bad) * 2 ^ 16
    + mask ((List.range 16).map fun i => (tget? i rs).isSome)

/-- CMP_STATUS (R245). -/
def askCmpStatus (ses k off : Nat) (m : Mach) : QRes :=
  if 31 < k then .arg
  else
    let c := cmpr m k
    let bs := (List.range 16).flatMap fun i => le 4 (tget 0 c.sigs i)
    .answer (putSalvo m ses off bs) sOk [.w (cmpStat c), .w (cmpRate c), .w (guardStat c)]

/-! ### Shedding (R242) -/


/-- A region's mismatch count restarts (R239). -/
def restartGuards (m : Mach) (k : Nat) : Mach :=
  setCmp m k fun c => { c with guards := tmap (fun _ g => { g with miss := 0, hit := 0 }) c.guards }


/-- COMPOSITOR_SHED: the highest-numbered compositor that is not shed. -/
def shedOne (m : Mach) : Mach :=
  if !(caseHot m && shedDue m) then m
  else match ((List.range 32).reverse.find? fun k => !(cmpr m k).shed) with
    | none => m
    | some k => raise (restartGuards (setCmp (shedNext m) k fun c => { c with shed := true }) k) (cmpSrc k) 0x43 1

/-- COMPOSITOR_RESTORE: the lowest-numbered shed compositor, and the metering of one cluster beside it (R274). -/
def restoreOne (m : Mach) : Mach :=
  if !(caseCool m && shedDue m) then m
  else
    let m := shedNext (metersRestore m)
    match (List.range 32).find? fun k => (cmpr m k).shed with
    | none => m
    | some k => endCond (restartGuards (setCmp m k fun c => { c with shed := false }) k) (cmpSrc k) 0x43

/-! ### The meanings -/

/-- CMP_LAYOUT_INSTANT (R223). -/
def execCmpLayoutInstant (m : Nat) (lateLines : List Nat) (s : State) := runIf (m < 32) (layoutInstant m lateLines) s
/-- COMPOSITOR_SHED (R242). -/
def execCompositorShed (s : State) := run shedOne s
/-- COMPOSITOR_RESTORE (R242). -/
def execCompositorRestore (s : State) := run restoreOne s

end Sys2Proof.Machine
end

