-- ==== Sys2Proof/Machine/Snapshots.lean ====
section
/-! DEFINITION. Fault messages, thermal limits, fault and snapshot commands and their events (chapter 18, R515 to R534). -/
namespace Sys2Proof.Machine

/-! ### Messages from raisers (R515 to R522, R525) -/

/-- A fault source the table of R516 lists. -/
def faultSource (s : Nat) : Bool :=
  decide (s ≤ 0xC9F) || within_ s 0xCA0 0xCD3 || within_ s 0xD00 0xD52 || within_ s 0xD60 0xD63 || within_ s 0xD80 0xDC0 ||
    s == 0xDD0 || within_ s 0xDE0 0xDE3 || s == 0xDF0 || s == 0xE00 || s == 0xE10 || s == 0xE20 || s == 0xE30 || s == 0xE40
where
  /-- A number lies in a range. -/
  within_ (x lo hi : Nat) : Bool := decide (lo ≤ x) && decide (x ≤ hi)

/-- FAULT_MESSAGE (R515, R518, R522): a raiser's message, or the end of its condition. Its SEQ is the source's own count. -/
def faultMessage (msg : Nat) (ended : Bool) (m : Mach) : Mach :=
  let src := bits msg 63 52
  let kind := bits msg 51 44
  if ended then endCond m src kind else raise m src kind (bits msg 43 40) (bits msg 31 0)

/-- The message names a source the module has and a class. -/
def messageOk (msg : Nat) : Bool := faultSource (bits msg 63 52) && decide (bits msg 43 40 ≤ 3)

/-- FAULT_RECORD_EXPIRY (R522): ESCT after the latest message of a C0 Event record. -/
def recordExpiry (src kind : Nat) (m : Mach) : Mach :=
  match recIdx m src kind with
  | some i =>
    let r := lget { src, kind, msg := 0, first := 0, latest := 0, base := 0 } m.flt.recs i
    if expires r ∧ r.latest + m.flt.esct * 1000000 * nsU ≤ m.dt.t then clearRec m i else m
  | none => m

/-- THERMAL_POLL (R525): raw readings in 1/128 °C, from which the sensor offsets are subtracted (R560). -/
def thermalPoll (caseRaw : Int) (raws : List Int) (m : Mach) : Mach :=
  let caseTemp := caseRaw - sensorOffset m 0
  let junctions := raws.zipIdx.map fun x => x.1 - (if x.2 < 16 then sensorOffset m (10 + 2 * x.2) else 0)
  let cool := if caseTemp < 100 * 128 then some (m.flt.coolSince.getD m.now) else none
  let m := { m with flt := { m.flt with caseTemp, coolSince := cool } }
  let m := if 105 * 128 < caseTemp ∧ !m.flt.hot then
      raise { m with flt := { m.flt with hot := true } } 0xE00 0xB0 1 (toBits 32 caseTemp)
    else if m.flt.hot ∧ caseCool m then endCond { m with flt := { m.flt with hot := false } } 0xE00 0xB0
    else m
  match junctions.find? fun j => decide (125 * 128 ≤ j) with
  | some j => raise m 0xE00 0xB1 3 (toBits 32 j)
  | none => m

/-! ### Triggers (R526 to R529) -/

/-- SNAP_TRIG_EDGE (R527, R360): a rising edge, `high` ns high. -/
def trigEdge (high : Nat) (m : Mach) : Mach :=
  if bit m.snp.enables 0 && decide (20 ≤ high) && !m.dt.pps then (snapTrigger m 0).1 else m

/-- A match unit fires (R359, R527): unit 0 is the snapshot trigger's, once or every PERIOD ms. -/
def matchFire (u : Nat) (m : Mach) : Mach :=
  let x : MatchUnit := tget {} m.dt.units u
  if !x.on ∨ m.dt.t < x.at_ then m
  else
    let p := x.period * 1000000 * nsU
    let y := if x.period = 0 then { x with on := false } else { x with at_ := x.at_ + ((m.dt.t - x.at_) / p + 1) * p }
    let m := { m with dt := { m.dt with units := tset m.dt.units u y } }
    if u = 0 ∧ bit m.snp.enables 2 then (snapTrigger m 2).1 else m

/-- Every match unit whose instant has come: a step that skips instants fires them (R354). -/
def matchAll (m : Mach) : Mach := (List.range 8).foldl (fun m u => matchFire u m) m

/-- SNAPSHOT_COPY_COMPLETE (R528). -/
def copyComplete (m : Mach) : Mach :=
  match m.snp.busy with
  | some k => { m with snp := { m.snp with busy := none, slots := lmod m.snp.slots k fun x => { x with st := 2 } } }
  | none => m

/-- The per-frame trigger at a TP_0 switch point: every DIV-th (R527). -/
def frameTrigger (m : Mach) : Mach :=
  if !bit m.snp.enables 4 then m
  else
    let n := m.snp.frames + 1
    let m := { m with snp := { m.snp with frames := n } }
    if n % m.snp.div = 0 then (snapTrigger m 4).1 else m

/-! ### Commands (R530 to R532) -/

/-- Records of a class and above, in ascending SRC and then KIND. -/
def listed (m : Mach) (cls : Nat) : List FaultRec :=
  (m.flt.recs.filter fun r => decide (cls ≤ r.cls)).mergeSort fun a b => decide (256 * a.src + a.kind ≤ 256 * b.src + b.kind)

/-- One record of FLT_LIST (R531). -/
def FaultRec.bytes (r : FaultRec) : List Byte :=
  le 8 r.msg.toNat ++ le 1 r.cls ++ le 1 (b2n (holdsCond r) + 2 * b2n r.escalated + 4 * b2n r.overflow) ++ le 2 0 ++ le 4 r.count
    ++ le 4 (secOf r.first) ++ le 4 (nsOf r.first) ++ le 4 (secOf r.latest) ++ le 4 (nsOf r.latest)

/-- FLT_LIST (R531, R532). -/
def askFltList (n cls off : Nat) (m : Mach) : QRes :=
  if 3 < cls then .arg
  else
    let rs := listed m cls
    let fit := rs.take ((65536 - off) / 32)
    .answer (putSalvo m n off (fit.map FaultRec.bytes).flatten) sOk [.w fit.length, .w rs.length]

/-- The records a FLT_CLEAR names. -/
def named (src kind : Nat) (r : FaultRec) : Bool := (src == 0xFFFF || r.src == src) && (kind == 0xFF || r.kind == kind)

/-- Clear the records that a FLT_CLEAR names and may clear, at most `k` of them; how many. -/
def clearNamed (src kind : Nat) : Nat → Mach → Mach × Nat
  | 0, m => (m, 0)
  | k + 1, m => match m.flt.recs.findIdx? fun r => named src kind r && clearable r with
    | some i =>
      let (m, n) := clearNamed src kind k (clearRec m i)
      (m, n + 1)
    | none => (m, 0)

/-- FLT_CLEAR (R522, R532). -/
def askFltClear (src kind : Nat) (m : Mach) : QRes :=
  let stay := (m.flt.recs.filter fun r => named src kind r && (holdsCond r || r.cls == 3)).length
  let (m, n) := clearNamed src kind (m.flt.recs.length + 1) m
  .answer m sOk [.w n, .w stay]

/-- FLT_CFG (R521, R523, R530). -/
def commitFltCfg (escn esct fnclass budget : Nat) (m : Mach) : CRes :=
  if escn < 2 ∨ 64 < escn ∨ esct < 10 ∨ 60000 < esct ∨ fnclass = 0 ∨ 3 < fnclass ∨ budget = 0 ∨ 64 < budget then .arg
  else .done { m with flt := { m.flt with escn, esct, fnclass, budget } }

/-- SNP_TRIGGER (R527, R532). -/
def askSnpTrigger (m : Mach) : QRes :=
  if !bit m.snp.enables 1 then .conflict 16 0
  else match snapTrigger m 1 with
    | (m, some id) => .answer m sDone [.w id]
    | (m, none) => .answer m sFaulted [.raw 1 ({} : Ref).bytes]

/-- SNP_CFG (R527, R530, R532). -/
def commitSnpCfg (enables sclass src kind div msec mns period : Nat) (m : Mach) : CRes :=
  if 31 < enables ∨ 3 < sclass ∨ div = 0 ∨ 2 ^ 48 ≤ msec ∨ 1000000000 ≤ mns then .arg
  else if bit enables 0 ∧ m.dt.pps then .conflict 17 0
  else
    let unit : MatchUnit := { on := bit enables 2, at_ := msec * secU + mns * nsU, period }
    let frames := if bit m.snp.enables 4 then m.snp.frames else 0
    .done { m with snp := { m.snp with enables, sclass, src, kind, div, matchSec := msec, matchNs := mns, period, frames }
                   dt := { m.dt with units := tset m.dt.units 0 unit } }

/-- One directory entry of SNP_LIST (R531). -/
def SnapSlot.bytes (x : SnapSlot × Nat) : List Byte :=
  let s := x.1
  padTo 0 64 (le 4 s.id ++ le 1 x.2 ++ le 1 (if s.st = 2 ∧ (s.held ∨ s.grave) then 3 else s.st) ++ le 2 s.mask ++ le 8 s.epoch
    ++ (Item.instant s.instant).bytes ++ le 4 s.swcnt ++ le 4 0 ++ le 8 s.msg.toNat)

/-- SNP_LIST (R531). -/
def askSnpList (n off : Nat) (m : Mach) : QRes :=
  .answer (putSalvo m n off (m.snp.slots.zipIdx.map SnapSlot.bytes).flatten) sOk []

/-- SNP_HOLD (R529, R532): at most eight holds beside those of C3. -/
def askSnpHold (k hold : Nat) (m : Mach) : QRes :=
  let s := lget {} m.snp.slots k
  if 15 < k ∨ 1 < hold then .arg
  else if hold = 1 ∧ !s.held ∧ 8 ≤ (m.snp.slots.filter (·.held)).length then .conflict 16 0
  else .answer { m with snp := { m.snp with slots := lmod m.snp.slots k fun x => { x with held := hold == 1 } } } sOk []

/-- FLT_INJECT (R522, R532). -/
def askFltInject (msg : Nat) (m : Mach) : QRes :=
  if 2 < bits msg 43 40 then .arg
  else .answer (takeFault m (bits msg 63 52) (bits msg 51 44) (bits msg 43 40) (bits msg 31 0) false true) sOk []

/-! ### The events -/

/-- FAULT_MESSAGE (R518). -/
def execFaultMessage (msg : BitVec 64) (ended : Bool) := runIf (messageOk msg.toNat) (faultMessage msg.toNat ended)
/-- FAULT_RECORD_EXPIRY (R522). -/
def execFaultRecordExpiry (src kind : Nat) := run (recordExpiry src kind)
/-- THERMAL_POLL (R525). -/
def execThermalPoll (caseTemp : Int) (junctions : List Int) := run (thermalPoll caseTemp junctions)
/-- SNAPSHOT_COPY_COMPLETE (R528). -/
def execSnapshotCopyComplete := run copyComplete
/-- SNAP_TRIG_EDGE (R527). -/
def execSnapTrigEdge (high : Nat) := run (trigEdge high)
/-- DT_MATCH (R359). -/
def execDtMatch (unit : Nat) := runIf (unit < 8) (matchFire unit)

end Sys2Proof.Machine
end

