-- ==== Sys2Proof/Machine/Timing.lean ====
section
/-! DEFINITION. References, the selector, the DPLL, holdover, APLLs and clock outputs (chapter 11, R307 to R347). -/
namespace Sys2Proof.Machine

def cand (m : Mach) (c : Nat) : Cand := tget {} m.tmg.cands c
def setCand (m : Mach) (c : Nat) (f : Cand → Cand) : Mach :=
  { m with tmg := { m.tmg with cands := tmod {} m.tmg.cands c f } }
def dpll (m : Mach) (f : Dpll → Dpll) : Mach := { m with tmg := { m.tmg with dpll := f m.tmg.dpll } }
def apll (m : Mach) (a : Nat) : Apll := tget {} m.tmg.aplls a
def setApll (m : Mach) (a : Nat) (f : Apll → Apll) : Mach :=
  { m with tmg := { m.tmg with aplls := tmod {} m.tmg.aplls a f } }
def clkOut (m : Mach) (k : Nat) : ClkOut := tget {} m.tmg.outs k
def setOut (m : Mach) (k : Nat) (f : ClkOut → ClkOut) : Mach :=
  { m with tmg := { m.tmg with outs := tmod {} m.tmg.outs k f } }

/-! ### Link references (R133, R134, R311) -/

/-- The latest record of the (lane, REFID) a link reference is bound to. -/
def linkRec (m : Mach) (c : Nat) : Option RefRec :=
  match tget? (c - 4) m.tmg.lrefs with
  | some (lane, id) => tget? (16 * lane + id) m.wl.refs
  | none => none

/-- The oldest record of a link reference whose event is to come, and the records without it. -/
def linkNext (m : Mach) (c : Nat) : Option (RefRec × Mach) :=
  match tget? (c - 4) m.tmg.lrefs with
  | none => none
  | some (lane, id) =>
    let mine (r : RefRec) : Bool := r.lane == lane && r.refid == id
    (m.wl.refQ.find? mine).map fun r => (r, { m with wl := { m.wl with refQ := m.wl.refQ.eraseP mine } })

/-! ### Periods and rates (R308, R309) -/

/-- A candidate's event period in ns, as a fraction; none where it has none. -/
def candPeriod (m : Mach) (c : Nat) : Option (Nat × Nat) :=
  let x := (cand m c).cfg
  if c = 12 then some (125000000, 1)
  else if c = 13 then some (250000, 1)
  else if c < 4 then
    match x.kind with
    | 1 => some (1000000000, 1)
    | 2 => some (100, 1)
    | 3 => some (x.num, x.den)
    | 4 => some (x.den * 1000000000, x.num)
    | _ => none
  else (linkRec m c).map fun r => if r.kind = 2 then (1000000000, 1) else (r.pnum, r.pden)

/-- The phase-detector rate in mHz, as a fraction: clocks are divided to 1 MHz or less (R309). -/
def pdRate (m : Mach) (c : Nat) : Nat × Nat :=
  match candPeriod m c with
  | none => (0, 1)
  | some (n, d) =>
    let k := if (c < 4 ∧ ((cand m c).cfg.kind = 2 ∨ (cand m c).cfg.kind = 4)) ∨ (3 < c ∧ c < 12) then
        max 1 ((d * 1000 + n - 1) / n) else 1
    (1000000000000 * d, n * k)

/-- The candidate's events mark instants, whose expected instants R326 defines. -/
def marksInstants (m : Mach) (c : Nat) : Bool :=
  if 12 ≤ c then true
  else if c < 4 then (cand m c).cfg.kind == 1 || (cand m c).cfg.kind == 3
  else (linkRec m c).any fun r => r.kind == 1 || r.kind == 2

/-- The bandwidths of R323 in mHz. -/
def bandwidths : List Nat :=
  [1, 3, 10, 30, 100, 300, 1000, 3000, 10000, 30000, 100000, 300000, 1000000, 3000000, 4000000]

/-- The bandwidth code in force (R323): the configured one, lowered to a twentieth of the phase-detector rate. -/
def bwInForce (m : Mach) : Nat :=
  let d := m.tmg.dpll
  let code := if d.st = 0 ∨ d.st = 1 then d.lp.acq else d.lp.track
  if d.sel = 15 then code
  else
    let (n, k) := pdRate m d.sel
    min code (((List.range 15).filter fun i => decide (20 * lget 0 bandwidths i * k ≤ n)).foldl max 0)

/-! ### Temperature and holdover (R327 to R331) -/

/-- c(T) at a temperature in 1/128 °C: linear between points 5 °C apart from −40 °C, held outside (R331). -/
def oscOffset (m : Mach) (t : Int) : Int :=
  if m.tmg.osc.isEmpty then 0
  else
    let p := t + 40 * 128
    if p ≤ 0 then lget 0 m.tmg.osc 0
    else if 150 * 128 ≤ p then lget 0 m.tmg.osc 30
    else
      let i := (p / 640).toNat
      let a := lget 0 m.tmg.osc i
      a + (lget 0 m.tmg.osc (i + 1) - a) * (p % 640) / 640

/-- The control value of the compensated XO. -/
def xoControl (m : Mach) : Int := -oscOffset m m.tmg.dpll.temp

/-- A fraction in units of 10⁻¹² in units of 2⁻⁴⁰. -/
def toU (x : Int) : Int := x * (2 ^ 40 : Int) / 1000000000000

/-- The clamp of R314: within HARD of the selected candidate, or of the last selected one. -/
def clampU (m : Mach) (u : Int) : Int :=
  let d := m.tmg.dpll
  let c := if d.sel = 15 then d.lastSel else d.sel
  if c = 15 then u
  else
    let h := toU (1000 * ((cand m c).cfg.hard : Int))
    max (xoControl m - h) (min (xoControl m + h) u)

/-- The flagged samples no later than the mark, the latest HWIN of them, newest first (R329). -/
def trusted (d : Dpll) : List HistSample := (d.hist.filter fun x => x.flag && decide (x.at_ ≤ d.mark)).take d.lp.hwin

/-- Least-squares slope of a list of means in 2⁻⁴⁰ per day, or 0 with less than 6 h of flagged samples (R329). -/
def ageing (m : Mach) : Int :=
  let d := m.tmg.dpll
  let ps := d.means.filter fun x => decide (m.now ≤ x.2.1 + d.lp.learn * 3600 * 500000000)
  let n : Int := (ps.length : Nat)
  let ts := ps.map fun x => ((x.2.1 / msT : Nat) : Int)
  let s := (ps.map fun x => x.1).sum
  let st := ts.sum
  let stw := ((ps.zip ts).map fun x => x.1.1 * x.2).sum
  let stt := (ts.map fun t => t * t).sum
  let den := n * stt - st * st
  if ((ps.map fun x => x.2.2).sum : Nat) < 21600 ∨ den = 0 then 0 else (n * stw - st * s) * 86400000 / den

/-- The holdover value for now (R330), or the one last used, or the compensated XO's. -/
def holdoverValue (m : Mach) : Int :=
  let d := m.tmg.dpll
  let ss := trusted d
  if ss.isEmpty then d.holdVal.getD (xoControl m)
  else
    let n : Int := (ss.length : Nat)
    let mean := (ss.map fun x => x.w).sum / n
    let tc := (ss.map fun x => ((x.at_ : Nat) : Int)).sum / n
    clampU m (mean + d.ageing * ((m.now : Int) - tc) / 43200000000000 + xoControl m)

/-! ### The last-good mark (R328) -/

/-- The mark moves to now less GUARD. -/
def advanceMark (m : Mach) : Mach :=
  dpll m fun d => { d with mark := m.now - d.lp.guard * msT, markT := m.dt.t - d.lp.guard * 1000000 * nsU }

/-- The DPLL is LOCKED on a QUALIFIED candidate. -/
def trusting (m : Mach) : Bool := m.tmg.dpll.st == 2 && (cand m m.tmg.dpll.sel).st == 4

/-- The mark freezes at this instant. -/
def freezeMark (m : Mach) : Mach :=
  let m := if trusting m && !m.tmg.dpll.markFrozen then advanceMark m else m
  dpll m fun d => { d with markFrozen := true, markClear := none }

/-- None of the conditions that freeze the mark holds. -/
def markOk (m : Mach) : Bool :=
  let c := cand m m.tmg.dpll.sel
  m.tmg.dpll.sel != 15 && c.present && !c.soft && !c.hard && !c.slope && !m.tmg.dpll.lockLost

/-- The mark advances, or waits for WTR after its conditions have cleared. -/
def moveMark (m : Mach) : Mach :=
  let d := m.tmg.dpll
  let wait := (cand m d.sel).cfg.wtr * 500000000
  let m := if !d.markFrozen then m
    else if !markOk m then dpll m fun d => { d with markClear := none }
    else match d.markClear with
      | none => dpll m fun d => { d with markClear := some m.now, markFrozen := decide (wait ≠ 0) }
      | some t => if t + wait ≤ m.now then dpll m fun d => { d with markFrozen := false, markClear := none } else m
  if trusting m && !m.tmg.dpll.markFrozen then advanceMark m else m

/-! ### Quality and events -/

/-- The received QL: the pin's or QLFIX, the record's, the class map's byte, the partner's output (R308). -/
def resetClassMap (k : Nat) : Nat :=
  match k with
  | 6 => 1 | 7 => 2 | 13 => 3 | 14 => 4 | 52 => 6 | 58 => 7 | 140 => 8 | 150 => 9 | 160 => 10 | 165 => 11 | 187 => 6
  | 193 => 7 | 248 => 13 | _ => 15

/-- The clockClass map's byte (R312). -/
def classQl (m : Mach) (k : Nat) : Nat :=
  if m.tmg.classMap.isEmpty then resetClassMap k else (lget 15 m.tmg.classMap k).toNat

/-- The port in SLAVE (R361). -/
def slavePort (m : Mach) : Option Nat := (tkeys (fun p : PtpPort => p.st == 3) m.dt.ptp.ports).head?

/-- QLRX of a candidate: candidates 12 and 13 take theirs from PTP and from the partner's heartbeat. -/
def receivedQl (m : Mach) (c : Nat) : Nat :=
  if c = 12 then
    match slavePort m with
    | some p => classQl m ((((tget {} m.dt.ptp.ports p).best).map (·.cls)).getD 255)
    | none => 15
  else if c = 13 then (m.pr.beat.map (·.qlout)).getD 15
  else (cand m c).qlrx

/-- The effective QL of a candidate in a state (R315). -/
def effectiveQl (m : Mach) (c : Nat) : Nat :=
  let x := cand m c
  let own := c < 4 ∧ x.cfg.qlsrc = false
  if x.stale ∧ ¬own then 15
  else min 15 ((if own then x.cfg.qlfix else receivedQl m c) + (if x.st = 5 then 2 else 0) + b2n (x.hold && !decide own))

/-- The output QL (R332). -/
def outputQl (m : Mach) : Nat :=
  let d := m.tmg.dpll
  match d.st with
  | 0 => d.freeql
  | 1 => if d.acqHold then (cand m d.sel).qleff else d.freeql
  | 4 => max d.holdql (if d.lastSel = 15 then 0 else (cand m d.lastSel).qleff)
  | _ => (cand m d.sel).qleff

/-- One TIMING event (R428). -/
def timingEvt (m : Mach) (c cause : Nat) : Mach :=
  event m 0x0050 4 (le 1 c ++ le 1 (if c = 255 then 0 else (cand m c).st) ++ le 1 m.tmg.dpll.st ++ le 1 m.tmg.dpll.sel
    ++ le 1 m.tmg.dpll.qlout ++ le 1 cause)

/-- Run a change of the timing block and post an event for each change of candidate state, DPLL state, selection and
output QL (R343). -/
def timed (f : Mach → Mach) (m : Mach) : Mach :=
  let n := f m
  let n := dpll n fun d => { d with qlout := outputQl n }
  let o := m.tmg.dpll
  let n := (List.range 14).foldl (fun n c => if (cand m c).st = (cand n c).st then n else timingEvt n c 0) n
  let n := if o.st = n.tmg.dpll.st then n else timingEvt n 255 1
  let n := if o.sel = n.tmg.dpll.sel then n else timingEvt n 255 2
  if o.qlout = n.tmg.dpll.qlout then n else timingEvt n 255 3

/-! ### Measurement (R308 to R316) -/

/-- A link reference is bound, its lane is UP, and a record has come within 2 s (R311). -/
def linkLive (m : Mach) (c : Nat) : Bool :=
  (linkRec m c).any fun r => (tget {} m.wl.rx r.lane).st == 5 && decide (m.now ≤ r.came + 2000 * msT)

/-- The candidate can have events: its pin has a KIND, its link lives, PTP or the partner leads (R308). -/
def canHaveEvents (m : Mach) (c : Nat) : Bool :=
  if c < 4 then (cand m c).cfg.kind != 0
  else if c < 12 then linkLive m c
  else if c = 12 then m.dt.ptp.servo == 2 && (slavePort m).isSome
  else m.pr.beat.isSome && !m.pr.ploss && xlUp m

/-- A candidate's event is stamped (R308, R309, R134): `at_` in units of 2⁻³² ns, for a link reference the instant at
which position SPOS began at the module's ball; `phase` against system timing in ns. -/
def refEvent (c : Nat) (at_ : Nat) (phase : Int) (m : Mach) : Mach :=
  if 4 ≤ c ∧ c < 12 then
    match linkNext m c with
    | none => m
    | some (r, m) =>
      let m := setCand m c fun x => { x with qlrx := r.ql, stale := r.stale, hold := r.cardHold }
      if !(r.present && canHaveEvents m c) then m
      else setCand m c fun x => { x with present := true, lastEvent := m.now, stamp := r.at_, phase }
  else if !canHaveEvents m c then m
  else
    let stamp := stampOf at_ - (if c < 4 then (cand m c).cfg.delay * (nsU : Nat) / 1000 else 0)
    setCand m c fun x => { x with present := true, lastEvent := m.now, stamp, phase }

/-- One bit and one byte of the CRC-8 of R310. -/
def crc8Bit (c : Nat) : Nat := if c % 256 < 128 then c % 256 * 2 else (c % 256 * 2 % 256) ^^^ 7
def crc8Byte (c : Nat) (b : Byte) : Nat :=
  crc8Bit (crc8Bit (crc8Bit (crc8Bit (crc8Bit (crc8Bit (crc8Bit (crc8Bit (c ^^^ b.toNat))))))))
/-- CRC-8, polynomial 0x07, initial value 0 (R310). -/
def crc8 (bs : List Byte) : Nat := bs.foldl crc8Byte 0

/-- A quality message on QL_IN (R310). `gap`: more than two byte times passed inside it. -/
def qlMessage (c : Nat) (bytes : List Byte) (gap : Bool) (m : Mach) : Mach :=
  if gap ∨ bytes.length ≠ 4 ∨ fld bytes 0 1 ≠ 0x51 ∨ crc8 (bytes.take 3) ≠ fld bytes 3 1 then
    setCand m c fun x => { x with qlErr := sat x.qlErr 1 }
  else setCand m c fun x => { x with qlrx := fld bytes 1 1 / 16, hold := bit (fld bytes 2 1) 0, lastQl := m.now, stale := false }

/-- No valid message within QLTIMEOUT of 5 s (R310). -/
def qlTimeout (c : Nat) (m : Mach) : Mach :=
  if (cand m c).lastQl + 2500000000 < m.now then setCand m c fun x => { x with stale := true } else m

/-- Least-squares slope in ps/s, which is 10⁻¹², of phases in ps at instants in ns (R313); 0 for fewer than two instants. -/
def slopeOf (ps : List (Nat × Int)) : Int :=
  let t0 : Int := ((ps.getLast?).map fun p => (p.1 : Int)).getD 0
  let n : Int := (ps.length : Nat)
  let st := (ps.map fun p => (p.1 : Int) - t0).sum
  let sp := (ps.map fun p => p.2).sum
  let stp := (ps.map fun p => ((p.1 : Int) - t0) * p.2).sum
  let stt := (ps.map fun p => ((p.1 : Int) - t0) * ((p.1 : Int) - t0)).sum
  let den := n * stt - st * st
  if den = 0 then 0 else (n * stp - st * sp) * 1000000000 / den

/-- The phases no older than `span` ns before the newest. -/
def latestPhases (span : Nat) (ps : List (Nat × Int)) : List (Nat × Int) :=
  let t := ((ps.head?).map (·.1)).getD 0
  ps.filter fun p => decide (t ≤ p.1 + span)

/-- The phase-slope excursion: the slope over the latest 1 s less the frequency offset; 0 where that second has one event
(R313). -/
def excursionOf (ps : List (Nat × Int)) (foff : Int) : Int :=
  let l := latestPhases 1000000000 ps
  if l.length < 2 then 0 else slopeOf l - foff

/-- A second's event phases against the compensated XO, oldest first, each its instant in ns and its phase in ps: the
frequency offset over 10 s, the excursion, and the limits they cross (R313, R314). -/
def measureCand (c : Nat) (events : List (Nat × Int)) (m : Mach) : Mach :=
  let x := cand m c
  if !x.present then m
  else
    let phases := latestPhases 10000000000 (events.reverse ++ x.phases)
    let foff := slopeOf phases
    let excursion := excursionOf phases foff
    let soft := decide ((x.cfg.soft : Int) * 1000 < foff.natAbs)
    let hard := decide ((x.cfg.hard : Int) * 1000 < foff.natAbs)
    let slope := decide ((x.cfg.slope : Int) * 1000 < excursion.natAbs)
    let m' := setCand m c fun x => { x with
      phases, foff, soft, hard, slope, softCnt := sat x.softCnt (b2n (soft && !x.soft)),
      hardCnt := sat x.hardCnt (b2n (hard && !x.hard)), slopeCnt := sat x.slopeCnt (b2n slope),
      waitEnd := if (x.st = 2 ∨ x.st = 3) ∧ slope then some (m.now + (if x.st = 2 then 1 else x.cfg.wtr) * 500000000)
        else x.waitEnd }
    if m.tmg.dpll.sel = c ∧ ((soft && !x.soft) ∨ (hard && !x.hard) ∨ slope) then
      let f := freezeMark m
      { m' with tmg := { m'.tmg with dpll := f.tmg.dpll } }
    else m'

/-- No event for LOSSN expected periods, the last instant included, or what R311 says of a link reference (R6, R314). -/
def candAbsent (c : Nat) (m : Mach) : Mach :=
  let x := cand m c
  let silent := match candPeriod m c with
    | some (n, d) => decide (x.cfg.lossn * n < (m.now - x.lastEvent) * 2 * d)
    | none => true
  if x.present && (silent || !canHaveEvents m c) then
    let m := if m.tmg.dpll.sel = c then freezeMark m else m
    setCand m c fun x => { x with present := false, soft := false, hard := false, slope := false, phases := [] }
  else m

/-! ### Candidate states (R316, R317) -/

/-- The candidate has a KIND or a binding; candidates 12 and 13 always have theirs. -/
def configured (m : Mach) (c : Nat) : Bool :=
  if c < 4 then (cand m c).cfg.kind != 0 else if c < 12 then (tget? (c - 4) m.tmg.lrefs).isSome else true

/-- One candidate's state at an evaluation cycle. -/
def candStep (m : Mach) (c : Nat) : Cand :=
  let x := cand m c
  let s := 500000000
  if !configured m c then { x with st := 0, present := false, waitEnd := none }
  else if !x.present then
    { x with st := 1, waitEnd := none, loss := sat x.loss (b2n (x.st != 0 && x.st != 1)) }
  else match x.st with
    | 0 => { x with st := 1 }
    | 1 => if x.ever then { x with st := 3, waitEnd := some (m.now + x.cfg.wtr * s) }
           else { x with st := 2, waitEnd := some (m.now + s) }
    | 6 => if x.hard then x else { x with st := 3, waitEnd := some (m.now + x.cfg.wtr * s) }
    | 4 => if x.hard ∨ x.slope then { x with st := 6, waitEnd := none } else if x.soft then { x with st := 5, waitEnd := none }
           else x
    | 5 =>
      if x.hard ∨ x.slope then { x with st := 6, waitEnd := none }
      else if x.soft then { x with waitEnd := none }
      else match x.waitEnd with
        | none => if x.cfg.wtr = 0 then { x with st := 4 } else { x with waitEnd := some (m.now + x.cfg.wtr * s) }
        | some t => if t ≤ m.now then { x with st := 4, waitEnd := none } else x
    | _ =>
      if x.hard then { x with waitEnd := some (m.now + (if x.st = 2 then 1 else x.cfg.wtr) * s) }
      else if !x.slope && x.waitEnd.all (fun t => decide (t ≤ m.now)) then
        { x with st := if x.soft then 5 else 4, waitEnd := none, ever := true }
      else x

/-- Every candidate's state and effective QL. -/
def candStates (m : Mach) : Mach :=
  (List.range 14).foldl (fun m c =>
    let m := setCand m c fun _ => candStep m c
    setCand m c fun x => { x with qlrx := receivedQl m c, qleff := effectiveQl m c }) m

/-- QUALIFIED or DEGRADED with an effective QL below 15 (R315, R317). -/
def usable (m : Mach) (c : Nat) : Bool := ((cand m c).st == 4 || (cand m c).st == 5) && decide ((cand m c).qleff < 15)

/-- Selectable: usable with a priority (R317). -/
def selectable (m : Mach) (c : Nat) : Bool := usable m c && (cand m c).cfg.prio != 0

/-! ### The selector (R318 to R321) and the DPLL's states (R322 to R326, R330) -/

/-- PAIRFOLLOW is in force (R320). -/
def pairFollowing (m : Mach) : Bool := m.tmg.dpll.pairFollow && !claiming m

/-- Lowest effective QL, then lowest priority number, then lowest candidate number (R318). -/
def bestCand (m : Mach) : Option Nat :=
  (List.range 14).foldl (fun a c =>
    if !selectable m c then a
    else match a with
      | none => some c
      | some b =>
        if (cand m c).qleff < (cand m b).qleff ∨
            ((cand m c).qleff = (cand m b).qleff ∧ (cand m c).cfg.prio < (cand m b).cfg.prio) then some c else a) none

/-- The candidate that AUTO mode wants: the selected one stays under the cases of R319. -/
def autoChoice (m : Mach) : Option Nat :=
  let d := m.tmg.dpll
  if d.sel = 15 ∨ !selectable m d.sel then bestCand m
  else match bestCand m with
    | none => none
    | some b =>
      if (cand m b).qleff < (cand m d.sel).qleff ∨ (d.revert ∧ (cand m b).cfg.prio < (cand m d.sel).cfg.prio) then some b
      else some d.sel

/-- The candidate the selector wants (R318, R320). -/
def choice (m : Mach) : Option Nat :=
  let d := m.tmg.dpll
  if pairFollowing m then (if usable m 13 then some 13 else none)
  else match d.mode with
    | 0 => autoChoice m
    | 1 => if selectable m d.forced then some d.forced else none
    | _ => none

/-- Leave holdover: its conditions end (R522). -/
def endHoldover (m : Mach) : Mach := endCond (endCond m 0xCAE 0x62) 0xCAE 0x61

/-- Enter HOLDOVER (R322, R330). -/
def enterHoldover (m : Mach) : Mach :=
  let d := m.tmg.dpll
  let none_ := (trusted d).isEmpty && d.holdVal.isNone
  let m := dpll m fun d => { d with st := 4, lastSel := if d.sel = 15 then d.lastSel else d.sel, sel := 15,
                                    holdAt := m.now, holdU := d.u, lock := false, okRun := 0, badRun := 0 }
  let m := if none_ then raise m 0xCAE 0x61 1 else m
  raise m 0xCAE 0x62 1

/-- Enter FREERUN (R322). -/
def enterFreerun (m : Mach) : Mach :=
  endHoldover (dpll m fun d => { d with st := 0, lastSel := if d.sel = 15 then d.lastSel else d.sel, sel := 15,
                                        u := xoControl m, lock := false, okRun := 0, badRun := 0, buildout := 0 })

/-- A phase in ps taken modulo a period, in (−½, +½] of it. -/
def wrapHalf (x p : Int) : Int :=
  if p ≤ 0 then x
  else
    let r := x % p
    if p < 2 * r then r - p else r

/-- The phase-detector period in ps. -/
def pdPeriod (m : Mach) (c : Nat) : Int :=
  let (n, k) := pdRate m c
  if n = 0 then 0 else (1000000000000000 * k / n : Nat)

/-- Follow a candidate: ACQUIRE from FREERUN, else a transition with Φ0 captured (R322, R324). -/
def follow (c : Nat) (m : Mach) : Mach :=
  let d := m.tmg.dpll
  let m := setCand m c fun x => { x with selCnt := sat x.selCnt 1 }
  if d.st = 0 then
    dpll m fun d => { d with st := 1, sel := c, acqHold := false, lock := false, okRun := 0, badRun := 0 }
  else
    endHoldover (dpll m fun d => { d with st := 3, sel := c, acqHold := true, lock := false, okRun := 0, badRun := 0,
                                          lockLost := false, transU := d.u, transEnd := m.now + d.lp.tt * msT,
                                          phi0 := wrapHalf (1000 * (cand m c).phase) (pdPeriod m c) })

/-- The selector's choice takes effect (R318 to R320). While a transition runs only the loss or the disqualification of
its candidate acts (R324). -/
def select (m : Mach) : Mach :=
  let d := m.tmg.dpll
  if d.st = 3 then
    if (cand m d.sel).st = 6 ∨ (cand m d.sel).st ≤ 1 then enterHoldover m else m
  else if d.mode = 3 ∧ !pairFollowing m then (if d.st = 0 then m else enterFreerun m)
  else match choice m with
    | some c => if c = d.sel then m else follow c m
    | none =>
      if d.st = 4 then m
      else if d.st = 0 ∧ (d.mode ≠ 2 ∨ pairFollowing m) ∧ (trusted d).isEmpty ∧ d.holdVal.isNone then m
      else enterHoldover m

/-- *u* that a candidate's frequency offset requires (R324). -/
def candU (m : Mach) (c : Nat) : Int := clampU m (toU (cand m c).foff + xoControl m)

/-- *u* between two values, a number of ticks out of a number of ticks along. -/
def ramp (a b : Int) (k n : Nat) : Int := if n = 0 then b else a + (b - a) * (min k n : Nat) / (n : Int)

/-- *u* between phase cycles: the compensated XO, the ramp of a transition, the holdover value and its entry ramp, or
unchanged; and the removal of the build-out at ALSLEW (R322, R324, R326, R330). -/
def controlStep (m : Mach) : Mach :=
  let d := m.tmg.dpll
  let tt := d.lp.tt * msT
  let u := match d.st with
    | 0 => xoControl m
    | 3 => ramp d.transU (candU m d.sel) (tt - (d.transEnd - m.now)) tt
    | 4 => ramp d.holdU (d.holdVal.getD (xoControl m)) (m.now - d.holdAt) tt
    | _ => d.u
  let aligned := (d.st = 1 ∨ d.st = 2) ∧ d.sel ≠ 15 ∧ (cand m d.sel).cfg.align ∧ marksInstants m d.sel
  let b := if aligned then
      (if (d.buildout.natAbs : Int) ≤ d.lp.alslew then 0 else if 0 < d.buildout then d.buildout - d.lp.alslew
       else d.buildout + d.lp.alslew)
    else d.buildout
  dpll m fun d => { d with u, buildout := b }

/-- Apply one selector command (R321, R342). -/
def applyTiming (m : Mach) (x : Cmd × List Byte) : Mach :=
  match x.1 with
  | .tmgRefCfg c kind prio flags num den wtr soft hard slope lossn delay =>
    let old := (cand m c).cfg
    let k := if c < 4 then kind else 0
    let cfg : RefCfg := { kind := k, prio, qlfix := flags % 16, qlsrc := bit flags 4, edge := bit flags 5,
                          align := bit flags 6, num, den, wtr, soft, hard, slope, lossn, delay }
    let m' := setCand m c fun y => { y with cfg }
    if old.kind = k ∧ old.num = num ∧ old.den = den then m'
    else
      let m' := if m'.tmg.dpll.sel = c then freezeMark m' else m'
      setCand m' c fun y => { y with
        present := false, st := if y.st = 0 then 0 else 1, loss := sat y.loss (b2n (y.st != 0 && y.st != 1)),
        soft := false, hard := false, slope := false, waitEnd := none }
  | .tmgLrefBind l lane id =>
    let m := if tget? l m.tmg.lrefs = some (lane, id) then m else setCand m (4 + l) fun y => { y with present := false }
    { m with tmg := { m.tmg with lrefs := if lane = 255 then tdel m.tmg.lrefs l else tset m.tmg.lrefs l (lane, id) } }
  | .tmgSelCfg mode forced flags holdql freeql =>
    dpll m fun d => { d with mode, forced, revert := bit flags 0, pairFollow := bit flags 1, holdql, freeql }
  | .tmgClassMap _ => { m with tmg := { m.tmg with classMap := x.2 } }
  | .tmgLoopCfg track acq tt w n alslew guard hwin learn =>
    dpll m fun d => { d with lp := { track, acq, tt, w, n, alslew, guard, hwin, learn } }
  | _ => m

/-- The commands committed since the previous cycle take effect; with `wait` those of the selector wait for a transition's
end (R321). -/
def applyQueued (wait : Bool) (m : Mach) : Mach :=
  let isSel (x : Cmd × List Byte) : Bool := match x.1 with
    | .tmgSelCfg _ _ _ _ _ => true
    | _ => false
  let now := m.tmg.dpll.queued.filter fun x => !(wait && isSel x)
  let later := m.tmg.dpll.queued.filter fun x => wait && isSel x
  now.foldl applyTiming (dpll m fun d => { d with queued := later })

/-- INCR from the control value, with the remainder carried, within ±100 ppm (R349, R350). -/
def clampIncr (i : Int) : Nat := (max 0x1FFF2E48F (min 0x2000D1B71 i)).toNat
def incrStep (m : Mach) : Mach :=
  if claiming m ∧ m.dt.mode = 1 ∧ (slavePort m).isSome ∧ m.dt.ptp.servo ≠ 0 then m
  else
    let t := m.tmg.dpll.u + m.dt.rem
    { m with dt := { m.dt with incr := clampIncr (0x200000000 + t / 128), rem := t % 128 } }

/-- One evaluation cycle (R321). -/
def evaluation (m : Mach) : Mach :=
  let late := m.tmg.dpll.st == 3
  incrStep (timed (fun m => moveMark (applyQueued (late || m.tmg.dpll.st == 3) (controlStep (select (candStates m))))) m)

/-- The transition ends: the build-out is Φ0 plus the phase gained over the ramp; then a move that became due (R319, R324). -/
def transitionEnd (m : Mach) : Mach :=
  let d := m.tmg.dpll
  if d.st ≠ 3 ∨ m.now < d.transEnd then m
  else
    timed (fun m =>
      let ux := candU m d.sel
      let gain := (ux - d.transU) * ((d.lp.tt : Nat) : Int) * 1000000000 / (2 * (2 ^ 40 : Int))
      let m := dpll m fun d => { d with st := if d.lp.n ≤ d.okRun then 2 else 1, lock := decide (d.lp.n ≤ d.okRun), u := ux,
                                        buildout := wrapHalf (d.phi0 + gain) (pdPeriod m d.sel) }
      applyQueued false (select m)) m

/-- One phase-detector cycle with this error in ps (R325). *u* follows the candidate by a filter the spec does not give:
a free value within the clamp of R314. -/
def phaseCycle (err : Int) (m : Mach) : Mach :=
  let d := m.tmg.dpll
  if d.st = 0 ∨ d.st = 4 then m
  else
    timed (fun m =>
      let w : Int := (d.lp.w : Int) * 1000
      let inside := decide ((err.natAbs : Int) ≤ w)
      let ok := if inside then d.okRun + 1 else 0
      let bad := if inside then 0 else d.badRun + 1
      let met := decide (d.lp.n ≤ ok)
      let lost := (decide (d.lp.n ≤ bad) || decide (10 * w < err.natAbs)) && decide (d.lockAt / msT ≠ m.now / msT)
      let lock := if d.lock then !lost else met
      let m := dpll m fun d => { d with err, okRun := ok, badRun := bad, lock,
                                        lockAt := if lock && !d.lock then m.now else d.lockAt }
      let m := if d.st = 1 ∧ lock then
          endCond (dpll m fun d => { d with st := 2, acqHold := true, lockLost := false }) 0xCAE 0x60
        else if d.st = 2 ∧ !lock then
          raise (dpll (freezeMark m) fun d => { d with st := 1, lockLost := true, okRun := 0 }) 0xCAE 0x60 1
        else m
      if d.st = 3 then m
      else
        let (k, m) := fresh m
        dpll m fun d => { d with u := clampU m (Config.dpllControl k) }) m

/-- One second of a first-order filter with a time constant of 10 s: 1 − e^(−1/10) of the way (R327). -/
def filterTemp (f t : Int) : Int := f + (t * 2 ^ 16 - f) * 951626 / 10000000

/-- Each second: the control value is recorded with the package sensor's temperature `t` in 1/128 °C, filtered, and the
holdover value is computed again (R327 to R331). -/
def holdoverSample (t : Int) (m : Mach) : Mach :=
  let tempF := if m.tmg.dpll.samples = 0 then t * 2 ^ 16 else filterTemp m.tmg.dpll.tempF t
  let temp := (tempF + 2 ^ 15) / 2 ^ 16
  let m := dpll m fun d => { d with temp, tempF }
  let m := moveMark m
  let d := m.tmg.dpll
  let x : HistSample := { u := d.u, w := d.u + oscOffset m temp, at_ := m.now, flag := d.st == 2 }
  let hist := (x :: d.hist).take 3600
  let minute := (hist.take 60).filter (·.flag)
  let n : Int := (minute.length : Nat)
  let means := if (d.samples + 1) % 60 = 0 ∧ minute ≠ [] then
      ((minute.map fun y => y.w).sum / n, (minute.map fun y => y.at_).sum / minute.length, minute.length) :: d.means
    else d.means
  let m := dpll m fun d => { d with hist, samples := d.samples + 1, means := means.take (60 * d.lp.learn) }
  let m := dpll m fun d => { d with ageing := ageing m }
  if d.st = 4 then
    let v := holdoverValue m
    dpll m fun d => { d with holdVal := some v, u := ramp d.holdU v (m.now - d.holdAt) (d.lp.tt * msT) }
  else m

/-! ### APLLs and clock outputs (R333 to R340) -/

/-- An APLL achieves lock (R334). In Den the APLLs are off (R340). -/
def apllLock (a : Nat) (m : Mach) : Mach :=
  if m.pwr.st = 2 ∨ (apll m a).lock then m
  else endCond (setApll m a fun x => { x with lock := true, lockAt := m.now }) (0xCB0 + a) 0x63

/-- An APLL loses lock or input: its outputs switch to the bypass clock (R334). -/
def apllBypass (a : Nat) (m : Mach) : Mach :=
  let x := apll m a
  let m := setApll m a fun x => { x with lock := false }
  if x.bypass then m
  else raise (setApll m a fun x => { x with bypass := true, byp := sat x.byp 1 }) (0xCB0 + a) 0x63 1

/-- Locked for 100 ms, an APLL's outputs leave the bypass clock (R334). -/
def apllReturn (a : Nat) (m : Mach) : Mach :=
  let x := apll m a
  if x.lock ∧ x.lockAt + 100 * msT ≤ m.now then setApll m a fun x => { x with bypass := false } else m

/-- A granted output enables no sooner than 10 µs after gaining its grant (R338). -/
def grantEnable (k : Nat) (m : Mach) : Mach :=
  let o := clkOut m k
  if o.paired ∧ o.grant ∧ o.src ≠ 0 ∧ o.grantAt + 5000 ≤ m.now ∧ m.pwr.st ≠ 2 then setOut m k fun o => { o with drive := true }
  else m

/-- The level of a clock output's pin at a device time in 2⁻³² ns; none while it is high impedance (R335, R336, R339). A
clock's phase against system timing is a free value (Assumption 5). -/
def clkLevel (m : Mach) (k : Nat) (at_ : Int) : Option Bool :=
  let o := clkOut m k
  let t := at_ - o.outdly * (nsU : Nat) / 1000
  let since (start : Int) : Bool := decide (t - start < (o.width * nsU : Nat))
  let high :=
    if o.wclk then decide (2 * (t * fs m % (secU : Int)) < (secU : Int))
    else match o.src with
      | 1 =>
        let a := apll m o.apll
        let n := t * (25000000 * (a.mint * a.mden + a.mnum) : Nat) / (a.mden * secU : Nat) + Config.unstated k
        decide (n % (o.d : Int) < ((o.d + 1) / 2 : Nat))
      | 2 => since (t / (secU : Int) * secU)
      | _ => since (instantTo (plane m o.plane) 1 t)
  if o.drive then some (high != (o.invert && !o.wclk)) else none

/-- A level's highest clock in Hz (R337). -/
def levelMax (level : Nat) : Nat := lget 0 [750000000, 250000000, 750000000, 200000000, 750000000] level

/-- *f*A of a ratio divided by *d* lies at or below a level's limit (R333, R337). -/
def clockFits (mint mnum mden d level : Nat) : Bool :=
  decide (25000000 * (mint * mden + mnum) ≤ levelMax level * mden * d)

/-! ### Commands (R341 to R343) -/

/-- Queue a selector command for the next evaluation cycle (R321). -/
def queueTiming (m : Mach) (x : Cmd) (data : List Byte) : CRes :=
  .done (dpll m fun d => { d with queued := d.queued ++ [(x, data)] })

/-- A value lies in a range. -/
def inRange (x lo hi : Nat) : Bool := decide (lo ≤ x) && decide (x ≤ hi)

/-- TMG_REF_CFG (R309, R314, R342). -/
def commitTmgRefCfg (cd kind prio flags num den wtr soft hard slope lossn : Nat) (delay : Int) (m : Mach) : CRes :=
  let kindOk := decide (4 ≤ cd) ||
    (decide (kind ≤ 4) && (kind != 3 || num != 0) &&
      (kind != 4 || (decide (1000 * den ≤ num) && decide (num ≤ 750000000 * den))))
  if decide (cd ≤ 13) && kindOk && decide (prio ≤ 15) && decide (flags < 128) && inRange den 1 65535 && decide (wtr ≤ 3600) &&
      inRange soft 10 50000 && inRange hard 20 100000 && decide (soft < hard) && inRange slope 1 50000 && inRange lossn 2 16 then
    queueTiming m (.tmgRefCfg cd kind prio flags num den wtr soft hard slope lossn delay) []
  else .arg

/-- TMG_LREF_BIND (R311). -/
def commitTmgLrefBind (l lane id : Nat) (m : Mach) : CRes :=
  if 7 < l ∨ (143 < lane ∧ lane ≠ 255) ∨ 15 < id then .arg else queueTiming m (.tmgLrefBind l lane id) []

/-- TMG_SEL_CFG (R318). -/
def commitTmgSelCfg (mode forced flags holdql freeql : Nat) (m : Mach) : CRes :=
  if 3 < mode ∨ 13 < forced ∨ 3 < flags ∨ 15 < holdql ∨ 15 < freeql then .arg
  else queueTiming m (.tmgSelCfg mode forced flags holdql freeql) []

/-- TMG_CLASS_MAP (R312): no byte above 15. -/
def commitTmgClassMap (c : CCtx) (off : Nat) (m : Mach) : CRes :=
  if c.data.any fun b => decide (15 < b.toNat) then .arg else queueTiming m (.tmgClassMap off) c.data

/-- TMG_LOOP_CFG (R323 to R329). -/
def commitTmgLoopCfg (track acq tt w n alslew guard hwin learn : Nat) (m : Mach) : CRes :=
  if decide (track ≤ 14) && decide (acq ≤ 14) && inRange tt 100 60000 && inRange w 1 10000 && inRange n 4 1024 &&
      inRange alslew 1 10000 && decide (guard ≤ 10000) && inRange hwin 1 3600 && inRange learn 1 720 then
    queueTiming m (.tmgLoopCfg track acq tt w n alslew guard hwin learn) []
  else .arg

/-- The outputs that an APLL's clock feeds. -/
def fedBy (m : Mach) (a : Nat) : List (Nat × ClkOut) := m.tmg.outs.filter fun x => x.2.apll == a && (x.2.src != 0 || x.2.wclk)

/-- TMG_APLL_CFG (R333, R343). -/
def commitTmgApllCfg (a mint mnum mden : Nat) (m : Mach) : CRes :=
  let x := apll m a
  let same := x.mint = mint ∧ x.mnum = mnum ∧ x.mden = mden
  if 7 < a ∨ !inRange mint 20 60 ∨ !inRange mden 1 16777215 ∨ mden ≤ mnum ∨ (mint = 60 ∧ mnum ≠ 0) then .arg
  else if (fedBy m a).any fun o => o.2.src == 1 && !clockFits mint mnum mden o.2.d o.2.level then .arg
  else if same then .done m
  else match (fedBy m a).find? fun o => o.2.paired && o.2.grant with
    | some o => .conflict 14 o.1
    | none => .done (setApll m a fun x => { x with mint, mnum, mden, lock := false, bypass := true,
                                                   byp := sat x.byp (b2n !x.bypass) })

/-- TMG_CLKOUT_CFG (R335 to R339). -/
def commitTmgClkoutCfg (k src a level d plane flags width : Nat) (outdly : Int) (m : Mach) : CRes :=
  let x := apll m a
  let paired := bit flags 0
  if 11 < k ∨ 3 < src ∨ 7 < a ∨ 4 < level ∨ 7 < flags ∨ (src = 1 ∧ !inRange d 1 16777215) ∨ (src = 3 ∧ 15 < plane) ∨
      (2 ≤ src ∧ width < 2) ∨ (src = 1 ∧ !clockFits x.mint x.mnum x.mden d level) ∨ (paired ∧ (level = 2 ∨ level = 4)) then .arg
  else if src ≠ 0 ∧ (clkOut m k).wclk then .conflict 15 k
  else
    let o := clkOut m k
    let keep := o.paired && paired
    let drive := if paired then keep && o.drive && src != 0 else src != 0 && m.pwr.st != 2
    let p : ClkOut := { src, apll := a, level, d := d % 2 ^ 24, plane := plane % 16, paired, invert := bit flags 1,
                        noff := bit flags 2, width, outdly, grant := keep && o.grant, grantAt := o.grantAt, drive }
    .done (settleGrants (setOut m k fun o => if o.wclk then { o with src := 0 } else p))

/-- TMG_WCLK_CFG (R339). -/
def commitTmgWclkCfg (k op a level : Nat) (outdly : Int) (m : Mach) : CRes :=
  if 11 < k ∨ 1 < op ∨ 7 < a ∨ 4 < level then .arg
  else if op = 0 then
    .done (if (clkOut m k).wclk then setOut m k fun o => { o with wclk := false, drive := false } else m)
  else if (clkOut m k).src ≠ 0 then .conflict 14 k
  else .done (setOut m k fun o => { o with wclk := true, apll := a, level, outdly, paired := false, grant := false,
                                           drive := m.pwr.st != 2 })

/-- TMG_SEL_STAT (R344). -/
def tmgSelStat (m : Mach) : Nat :=
  let d := m.tmg.dpll
  d.st * 2 ^ 29 + d.mode * 2 ^ 27 + b2n (!(trusted d).isEmpty) * 2 ^ 26 + b2n (pairFollowing m) * 2 ^ 25 + d.sel * 2 ^ 21
    + d.qlout * 2 ^ 17 + bwInForce m * 2 ^ 13 + b2n d.lock * 2 ^ 12

/-- Whole seconds left of a wait, rounded up. -/
def waitLeft (m : Mach) (x : Cand) : Nat :=
  if x.st = 2 ∨ x.st = 3 then ((x.waitEnd.getD 0 - m.now) + 499999999) / 500000000 % 65536 else 0

/-- TMG_REF_STAT and TMG_REF_CFG (R345). -/
def tmgRefStat (m : Mach) (c : Nat) : Nat :=
  let x := cand m c
  x.st * 2 ^ 29 + x.qlrx * 2 ^ 25 + x.qleff * 2 ^ 21 + b2n x.stale * 2 ^ 20 + b2n x.soft * 2 ^ 19 + b2n x.hard * 2 ^ 18
    + b2n x.slope * 2 ^ 17 + b2n (m.tmg.dpll.sel == c) * 2 ^ 16 + waitLeft m x
def tmgRefCfgWord (m : Mach) (c : Nat) : Nat :=
  let x := (cand m c).cfg
  x.kind * 2 ^ 28 + x.prio * 2 ^ 24 + x.qlfix * 2 ^ 20 + b2n x.qlsrc * 2 ^ 19 + b2n x.edge * 2 ^ 18 + b2n x.align * 2 ^ 17

/-- TMG_STATUS (R343). -/
def askTmgStatus (c : Nat) (m : Mach) : QRes :=
  if 13 < c ∧ c ≠ 255 then .arg
  else .answer m sOk ([.w (tmgSelStat m), .i m.tmg.dpll.u, .i (holdoverValue m), .i (m.tmg.dpll.buildout / 1000)] ++
    if c = 255 then [] else [.w (tmgRefStat m c), .i (cand m c).foff, .i (cand m c).phase])

/-! ### The events -/

/-- REF_EVENT (R308). -/
def execRefEvent (cand : Nat) (at_ : Nat) (phase : Int) := runIf (cand ≤ 13) (timed (refEvent cand at_ phase))
/-- QL_MESSAGE (R310). -/
def execQlMessage (cand : Nat) (bytes : List Byte) (gap : Bool) := runIf (cand ≤ 3) (qlMessage cand bytes gap)
/-- QL_TIMEOUT (R310). -/
def execQlTimeout (cand : Nat) := runIf (cand ≤ 3) (qlTimeout cand)
/-- CANDIDATE_MEASUREMENT (R313). -/
def execCandidateMeasurement (cand : Nat) (events : List (Nat × Int)) := runIf (cand ≤ 13) (measureCand cand events)
/-- CANDIDATE_ABSENT (R314). -/
def execCandidateAbsent (cand : Nat) := runIf (cand ≤ 13) (candAbsent cand)
/-- SELECTOR_EVALUATION (R321). -/
def execSelectorEvaluation := run evaluation
/-- TRANSITION_END (R324). -/
def execTransitionEnd := run transitionEnd
/-- DPLL_PHASE_CYCLE (R325). -/
def execDpllPhaseCycle (err : Int) := run (phaseCycle err)
/-- HOLDOVER_SAMPLE (R327). -/
def execHoldoverSample (temp : Int) := run (holdoverSample temp)
/-- APLL_LOCK (R334). -/
def execApllLock (apll : Nat) := runIf (apll ≤ 7) (apllLock apll)
/-- APLL_BYPASS (R334). -/
def execApllBypass (apll : Nat) := runIf (apll ≤ 7) (apllBypass apll)
/-- APLL_BYPASS_RETURN (R334). -/
def execApllBypassReturn (apll : Nat) := runIf (apll ≤ 7) (apllReturn apll)
/-- CLKOUT_GRANT_ENABLE (R338). -/
def execClkoutGrantEnable (out : Nat) := runIf (out ≤ 11) (grantEnable out)

end Sys2Proof.Machine
end

