-- ==== Sys2Proof/Machine/DeviceTime.lean ====
section
/-! DEFINITION. Device time: the counter, steps and jumps, the SNAP_TRIG pin's owner, and the device-time commands
(chapter 12, R348 to R360, R365 to R367). -/
namespace Sys2Proof.Machine

/-- Seconds are 48 bits (R348). -/
def dtSpan : Nat := 2 ^ 48 * secU

/-- DT_TICK (R349): `n` ticks of 2 ns, each adding INCR. -/
def dtTick (n : Nat) (m : Mach) : Mach :=
  { m with now := m.now + n, dt := { m.dt with t := (m.dt.t + n * m.dt.incr) % dtSpan } }

/-! ### Steps and jumps (R352 to R355) -/

/-- The first budget tick boundary at least 1 ms after an instant that is no block boundary (R353). -/
def stepBoundary (t : Nat) : Nat :=
  let n := ((t + secU / 1000) * 8000 + secU - 1) / secU
  let n := if n % 8 = 0 then n + 1 else n
  (n * secU + 7999) / 8000

/-- The kind of a change: 0 step, 1 jump, 2 set (R352). -/
def stepKind (m : Mach) (delta : Int) : Nat :=
  if !m.dt.valid then 2 else if delta.natAbs ≤ m.dt.steplim * nsU then 0 else 1

/-- Ask for a change (R352, R353): a set waits for the next tick, a step or a jump for its boundary. -/
def askStep (m : Mach) (delta : Int) (who : Option (Nat × Nat)) (jseq : Nat) : Mach :=
  let kind := stepKind m delta
  let at_ := if kind = 2 then m.dt.t + m.dt.incr else stepBoundary m.dt.t
  { m with dt := { m.dt with reqs := m.dt.reqs ++ [{ delta, kind, at_, ses := who, jseq }] } }

/-- A number of `w` bits nearest a signed value. -/
def satS (w : Nat) (x : Int) : Int := clamp w x

/-- The audio effects of a jump (R355): indices follow the new time; input groups, ports and IP audio start again. -/
def jumpAudio (m : Mach) : Mach :=
  let grp (_ : Nat) (a : AGroup) : AGroup := { a with next := none, gap := 8, up := 0 }
  let apt (_ : Nat) (p : Apt) : Apt := { p with rampIn := 0, rampOut := 0, down := 0, inBuf := [] }
  let ctx (_ : Nat) (x : Ctx) : Ctx := if x.d.audio && x.d.dir == 0 then { x with nextTs := none, slip := 0 } else x
  { m with aud := { m.aud with groups := tmap grp m.aud.groups, jumpTo := some (indexFrom m m.dt.t) }
           apt := { m.apt with ports := tmap apt m.apt.ports }
           flw := { m.flw with ctxs := tmap ctx m.flw.ctxs } }

/-- Apply one change of device time (R353 to R355). -/
def applyStep (r : StepReq) (m : Mach) : Mach :=
  let t : Int := (m.dt.t : Int) + r.delta
  let ns : Int := r.delta / (nsU : Nat)
  let m := { m with dt := { m.dt with t := (t % (dtSpan : Nat)).toNat } }
  let ps : Int := r.delta * 1000 / (nsU : Nat)
  let m := setCand m 12 fun x => { x with phase := x.phase + ns, phases := x.phases.map fun p => (p.1, p.2 + ps) }
  let m := if m.tmg.dpll.sel = 12 then dpll m fun d => { d with buildout := d.buildout + ps, phi0 := d.phi0 + ps } else m
  let m := if r.kind = 2 then { m with dt := { m.dt with valid := true } }
    else { m with dt := { m.dt with lastStep := satS 32 ns, steps := sat m.dt.steps 1 } }
  let m := matchAll m
  let m := if r.kind = 0 then m else jumpAudio m
  let m := event m 0x0051 4 (le 8 (toBits 64 ns) ++ le 1 r.kind)
  let m := if r.kind = 1 then raise { m with dt := { m.dt with jump := true } } 0xCAF 0x64 1 else m
  match r.ses with
  | some _ => conclude m r.jseq 3 sDone (layout [.instant r.at_, .b r.kind])
  | none => m

/-- DT_STEP_APPLY (R353): the oldest request whose instant has come. -/
def stepApply (m : Mach) : Mach :=
  match m.dt.reqs.find? fun r => decide (r.at_ ≤ m.dt.t) with
  | none => m
  | some r => applyStep r { m with dt := { m.dt with reqs := m.dt.reqs.erase r } }

/-- δ of a DT_STEP in ns. -/
def stepNs (sec ns : Int) : Int := sec * 1000000000 + ns

/-- A DT_STEP's refusal, if any (R352, R366). -/
def stepRefused (m : Mach) (sec ns : Int) (flags : Nat) : Option (Nat × Ref) :=
  let d := stepNs sec ns
  if 1 < flags ∨ 999999999 < ns.natAbs then some (sArg, { value := d })
  else match (if m.dt.mode = 1 then slavePort m else none) with
    | some p => some (sConflict, { okind := 20, oid := p, value := d })
    | none => if m.dt.valid ∧ flags = 0 ∧ m.dt.steplim < d.natAbs then some (sArg, { value := d }) else none

/-- A DT_STEP that has been journalled, or is committed from the journal, is refused or asks for its change (R352,
R353). -/
def requestStep (m : Mach) (sec ns : Int) (flags : Nat) (who : Nat × Nat) (jseq : Nat) : Mach :=
  match stepRefused m sec ns flags with
  | some (st, ref) => conclude m jseq 2 st ref.bytes
  | none => setEntry (askStep m (stepNs sec ns * (nsU : Nat)) (some who) jseq) jseq fun e => { e with asked := true }

/-! ### Commands (R366) -/

/-- DT_CFG (R350, R366). -/
def commitDtCfg (mode steplim : Nat) (m : Mach) : CRes :=
  if 1 < mode ∨ 10000 < steplim then .arg else .done { m with dt := { m.dt with mode, steplim } }

/-- DT_PIN_CFG (R360). -/
def commitDtPinCfg (mode : Nat) (m : Mach) : CRes :=
  if 1 < mode then .arg
  else if mode = 1 ∧ bit m.snp.enables 0 then .conflict 16 0
  else .done { m with dt := { m.dt with pps := mode == 1 } }

/-- DT_STAT (R367). -/
def dtStat (m : Mach) : Nat :=
  let p := slavePort m
  b2n m.dt.valid * 2 ^ 31 + m.dt.mode * 2 ^ 30 + b2n m.dt.jump * 2 ^ 29 + b2n m.dt.ptp.slewing * 2 ^ 28
    + b2n (!claiming m && partnerHere m) * 2 ^ 27 + m.dt.ptp.servo * 2 ^ 25 + p.getD 15 * 2 ^ 21 + b2n p.isSome * 2 ^ 20 + b2n m.dt.pps * 2 ^ 19

/-- The offset of a port in ns, and its MPD in ps, as registers show them. -/
def offsetNs (p : PtpPort) : Int := satS 32 (p.offset / 1000)

/-- DT_STATUS (R366). -/
def askDtStatus (m : Mach) : QRes :=
  let ports := (List.range 16).flatMap fun k =>
    let p : PtpPort := tget {} m.dt.ptp.ports k
    if p.mac.isSome then [Item.b k, .b p.st, .i (offsetNs p), .w (toBits 32 p.mpd)] else []
  .answer m sOk ([.w (dtStat m), .instant m.dt.t, .q m.dt.incr, .i m.dt.lastStep] ++ ports)

/-- A write to DT_STAT with the JUMP bit set clears it (R4, R367). -/
def jumpClear (value : Nat) (m : Mach) : Mach := if bit value 29 then { m with dt := { m.dt with jump := false } } else m

/-- DT_TICK (R349). -/
def execDtTick (n : Nat) := run (dtTick n)
/-- DT_STEP_APPLY (R353). -/
def execDtStepApply := run stepApply

end Sys2Proof.Machine
end

