-- ==== Sys2Proof/Machine/MemPorts.lean ====
section
/-! DEFINITION. The memory controller's ports: budgets, targets, waiting requests and the order in which they are served
(R28, R373 to R376). -/
namespace Sys2Proof.Machine

def memPort (m : Mach) (p : Nat) : MemPort := tget {} m.mem.ports p
def setMemPort (m : Mach) (p : Nat) (f : MemPort → MemPort) : Mach :=
  { m with mem := { m.mem with ports := tmod {} m.mem.ports p f } }

/-! ### Budgets (R28, R373) -/

/-- Default budget in units of 64 KiB, and target in µs (R373). -/
def defaultBudget (m : Mach) (p : Nat) : Nat :=
  if p < 4 then 832 else if p < 8 then 1280 else if p < 12 then 96 else if p = 12 then 160
  else if p < 77 then 25 * macRate m (p - 13) / 100
  else lget 0 [1600, 32, 800, 64, 64, 64] (p - 77)
def portTarget (p : Nat) : Nat :=
  if p < 4 then 40 else if p < 8 then 12 else if p < 12 then 16 else if p = 12 then 8 else if p < 77 then 20
  else lget 0 [8, 100, 50, 500, 4, 2000] (p - 77)

/-- The budget in force, and the one committed for the next tick (R389). -/
def portBudget (m : Mach) (p : Nat) : Nat := (memPort m p).force.getD (defaultBudget m p)
def nextBudget (m : Mach) (p : Nat) : Nat := (memPort m p).budget.getD (defaultBudget m p)

/-- The port has spent its budget: its requests wait for the next tick (R28, R374). -/
def portHeld (m : Mach) (p : Nat) : Bool := decide (65536 * portBudget m p ≤ (memPort m p).spent)

/-- A port's request is served. -/
def spend (p bytes : Nat) (m : Mach) : Mach := setMemPort m p fun x => { x with spent := x.spent + bytes }

/-- Budgets attributed to a stack, in quarters of a unit (R376). -/
def stackSum (m : Mach) (s : Nat) : Nat :=
  ((List.range 83).map fun p => if p < 12 then (if p % 4 = s then 4 * nextBudget m p else 0) else nextBudget m p).foldl (· + ·) 0

/-! ### The scheduler (R374) -/

/-- Urgency of a request of a port that has waited `e` ticks. -/
def urgency (p e : Nat) : Nat :=
  let t := usT * portTarget p
  if 2 * e < t then 0 else if 4 * e < 3 * t then 1 else if 10 * e < 9 * t then 2 else 3

/-- Request `a` is served ahead of request `b` that was chosen so far: the higher urgency; an open row's among urgency 0,
where `open_` says that the scheduler prefers it; the shorter target; the older. -/
def servedBefore (now : Nat) (open_ : MemReq → Bool) (a b : MemReq) : Bool :=
  let ua := urgency a.port (now - a.at_)
  let ub := urgency b.port (now - b.at_)
  if ua ≠ ub then ub < ua
  else if ua = 0 ∧ open_ a ≠ open_ b then open_ a
  else if portTarget a.port ≠ portTarget b.port then portTarget a.port < portTarget b.port
  else a.at_ < b.at_

/-- A pseudo-channel's scheduler stands still: MEM_FREEZE (R383). -/
def frozenPc (m : Mach) (n : Nat) : Bool := (tget {} m.mem.pcs n : Pc).st == 3

/-- The request that the schedulers serve next: the first in order among those whose port has budget and whose pseudo-channel
is not frozen. -/
def nextReq (m : Mach) (open_ : MemReq → Bool) : Option MemReq :=
  (m.mem.reqs.filter fun r => !portHeld m r.port && !frozenPc m r.pos).foldl (fun b r => match b with
    | some y => if servedBefore m.now open_ r y then some r else some y
    | none => some r) none

/-- A request is issued. -/
def issueReq (r : MemReq) (m : Mach) : Mach := { m with mem := { m.mem with reqs := m.mem.reqs ++ [r] } }

end Sys2Proof.Machine
end

