-- ==== Sys2Proof/Machine/Ptp.lean ====
section
/-! DEFINITION. PTP: ports, the best-master choice, messages and the servo (chapter 12, R356 to R358, R361 to R364). -/
namespace Sys2Proof.Machine

def pport (m : Mach) (p : Nat) : PtpPort := tget {} m.dt.ptp.ports p
def setPtp (m : Mach) (f : Ptp → Ptp) : Mach := { m with dt := { m.dt with ptp := f m.dt.ptp } }
def setPport (m : Mach) (p : Nat) (f : PtpPort → PtpPort) : Mach :=
  setPtp m fun x => { x with ports := tmod {} x.ports p f }

/-- The enabled ports, in order. -/
def pports (m : Mach) : List Nat := (List.range 16).filter fun p => (pport m p).mac.isSome

/-- The clockIdentity (R362): as set, else the EUI-64 of the MAC of the lowest-numbered port. -/
def clockIdent (m : Mach) : Nat :=
  if m.dt.ptp.ident ≠ 0 then m.dt.ptp.ident
  else match (pports m).head? with
    | some p =>
      let a := (mac m ((pport m p).mac.getD 0)).addr
      a / 2 ^ 24 * 2 ^ 40 + 0xFFFE * 2 ^ 24 + a % 2 ^ 24
    | none => 0

/-- What the module announces of itself (R362). -/
def ownClock (m : Mach) : Announce :=
  let x := m.dt.ptp
  { prio1 := x.prio1, cls := lget 255 x.classOut m.tmg.dpll.qlout,
    acc := if m.tmg.dpll.st = 2 ∨ m.tmg.dpll.st = 3 then 0x21 else 0xFE, var := 0xFFFF, prio2 := x.prio2, gm := clockIdent m,
    steps := 0, sender := clockIdent m, portNo := 0, utc := x.utc, flags := x.flags % 4 }

/-! ### The best master (IEEE 1588-2019 Clause 9.3, R361) -/

/-- One list of numbers before another. -/
def lexLt : List Nat → List Nat → Bool
  | a :: r, b :: s => decide (a < b) || (a == b && lexLt r s)
  | [], _ :: _ => true
  | _, [] => false

/-- The dataset comparison: by topology for one grandmaster, else by its quality. -/
def betterClock (a b : Announce) : Bool :=
  if a.gm = b.gm then lexLt [a.steps, a.sender, a.portNo] [b.steps, b.sender, b.portNo]
  else lexLt [a.prio1, a.cls, a.acc, a.var, a.prio2, a.gm] [b.prio1, b.cls, b.acc, b.var, b.prio2, b.gm]

/-- Ticks of an interval of 2 to the `l` seconds. -/
def logTicks (l : Int) : Nat := if 0 ≤ l then 500000000 * 2 ^ l.toNat else 500000000 / 2 ^ (-l).toNat

/-- The best foreign master of a port: two Announces within four intervals qualify it. -/
def bestForeign (p : PtpPort) : Option Announce :=
  p.foreign.foldl (fun a f =>
    if !(f.prev.any fun t => decide (f.last ≤ t + 4 * logTicks p.logAnn)) then a
    else match a with
      | none => some f.ann
      | some b => if betterClock f.ann b then some f.ann else a) none

/-- The best master over all ports, with its port. -/
def bestMaster (m : Mach) : Option (Nat × Announce) :=
  (pports m).foldl (fun a p => match (pport m p).best, a with
    | none, a => a
    | some x, none => some (p, x)
    | some x, some b => if betterClock x b.2 then some (p, x) else some b) none

/-- The state that the decision gives a port: 3 stands for SLAVE, whether calibrated or not. -/
def decided (m : Mach) (p : Nat) : Nat :=
  let d0 := ownClock m
  let er := (pport m p).best
  if d0.cls ≤ 127 then (if er.all fun x => betterClock d0 x then 4 else 5)
  else match bestMaster m with
    | none => 4
    | some (q, eb) =>
      if betterClock d0 eb then 4
      else if q = p then 3
      else if er.any fun x => x.gm == eb.gm then 5
      else 4

/-- The servo's state follows the port in SLAVE (R364). -/
def servoPort (before m : Mach) : Mach :=
  let reset (x : Ptp) (s : Nat) : Ptp := { x with servo := s, slewing := false, farRun := 0, nearRun := 0, outRun := 0 }
  match slavePort before, slavePort m with
  | _, none => setPtp m fun x => reset x 0
  | none, some _ => setPtp m fun x => reset x 1
  | some a, some b => if a = b then m else setPtp m fun x => reset x 1

/-- Every port takes the state that the decision gives it; `now`: a LISTENING port that has heard no master does not wait
for its timeout (R361, R363). Below ROLE 8 every port stays LISTENING. -/
def bmca (now : Nat → Bool) (m : Mach) : Mach :=
  let n := (pports m).foldl (fun n p => setPport n p fun x =>
    if !claiming m then { x with st := 1 }
    else
      let d := decided m p
      let st := if d = 4 then
          (if bit x.flags 1 then 1 else if x.st = 1 ∧ x.best.isNone ∧ !now p then 1 else 4)
        else if d = 3 then (if x.st = 3 then 3 else 2)
        else d
      { x with st := if st = 5 ∧ bit x.flags 1 then 1 else st }) m
  servoPort m n

/-! ### Messages (R358, R361 to R363) -/

/-- A PTP header (IEEE 1588-2019 Clause 13.3) with the body behind it. -/
def ptpMsg (m : Mach) (p typ : Nat) (flags seq : Nat) (corr : Nat) (ctrl log : Nat) (body : List Byte) : List Byte :=
  be 1 typ ++ be 1 2 ++ be 2 (34 + body.length) ++ be 1 m.dt.ptp.domain ++ be 1 0 ++ be 2 flags ++ be 8 corr ++ be 4 0
    ++ be 8 (clockIdent m) ++ be 2 (p + 1) ++ be 2 seq ++ be 1 ctrl ++ be 1 log ++ body

/-- A PTP timestamp of ten bytes, and what it leaves out as a correction in units of 2⁻¹⁶ ns. -/
def ptpStamp (ps : Int) : List Byte := be 6 (ps / 1000000000000).toNat ++ be 4 (ps / 1000 % 1000000000).toNat
def subNs (ps : Int) : Nat := (ps % 1000 * 65536 / 1000).toNat

/-- The group of a port's IP version (R361). -/
def ptpGroup (v6 : Bool) : List Byte :=
  if v6 then [0xFF#8, 0x0E#8] ++ List.replicate 12 0 ++ [0x01#8, 0x81#8] else [224#8, 0#8, 1#8, 129#8]

/-- Send one message from a port: event messages to port 319 with DSCP 46, general ones to port 320 (R361). `back` answers
one sender alone. Identification and TTL are free values. -/
def sendPtp (m : Mach) (p : Nat) (event : Bool) (back : Option (Nat × List Byte)) (b : List Byte) : Mach :=
  let x := pport m p
  let k := x.mac.getD 0
  let v6 := bit x.flags 0
  let (f, m) := fresh m
  let dst := (back.map (·.2)).getD (ptpGroup v6)
  let emac := (back.map (·.1)).getD (groupMac v6 dst)
  let src := srcAddr m k v6
  let port := if event then 319 else 320
  let tos := if event then 46 * 4 else 0
  let d := udp src dst port port true b
  let ttl := Config.unstated f % 255 + 1
  let ip := if v6 then ip6Header tos ttl 17 d.length src dst ++ d
    else ip4Header (Config.unstated f / 256 % 65536) tos ttl 17 d.length src dst ++ d
  let m := if event then setPport m p fun x => { x with txEvt := sat x.txEvt 1 } else m
  queueFrame m k none 0 (ethFrame emac (mac m k).addr none (if v6 then 0x86DD else 0x0800) ip)

/-- A logarithmic interval as the header's byte. -/
def logByte (l : Int) : Nat := toBits 8 l

/-- The body of an Announce (R362): a boundary clock passes on the grandmaster and the UTC values it receives. -/
def announceBody (m : Mach) : List Byte :=
  let own := ownClock m
  let a := match (slavePort m).bind fun p => (pport m p).best with
    | some b => { own with prio1 := b.prio1, prio2 := b.prio2, gm := b.gm, steps := b.steps + 1, utc := b.utc }
    | none => own
  let ts := if m.tmg.dpll.st = 0 ∨ m.tmg.dpll.st = 4 then 0xA0 else m.dt.ptp.timesrc
  List.replicate 10 0 ++ be 2 a.utc ++ be 1 0 ++ be 1 a.prio1 ++ be 1 a.cls ++ be 1 a.acc ++ be 2 a.var ++ be 1 a.prio2
    ++ be 8 a.gm ++ be 2 a.steps ++ be 1 ts

/-- Leap flags an Announce carries. -/
def leapFlags (m : Mach) : Nat :=
  match (slavePort m).bind fun p => (pport m p).best with
  | some b => b.flags % 4
  | none => m.dt.ptp.flags % 4

/-- PTP_MESSAGE_SEND (R357, R358, R362): kind 0 Sync, 1 Delay_Req, 11 Announce, 13 Management; `stamp` is the instant of
release in ps of device time. -/
def ptpSend (p kind : Nat) (stamp : Int) (m : Mach) : Mach :=
  let x := pport m p
  if !speaks m ∨ x.mac.isNone ∨ !macSends m (x.mac.getD 0) then m
  else if kind = 1 then
    if x.st ≠ 2 ∧ x.st ≠ 3 then m
    else
      let t := stampPs stamp + x.txdly
      let m := setPport m p fun x => { x with t3 := t, seqReq := (x.seqReq + 1) % 65536 }
      let corr := (t * 65536 / 1000 % (2 ^ 64 : Int)).toNat
      sendPtp m p true (if bit x.flags 2 then x.peer else none) (ptpMsg m p 1 (if bit x.flags 2 then 0x0400 else 0) ((x.seqReq + 1) % 65536) corr 1 0x7F
        (List.replicate 10 0))
  else if x.st ≠ 4 then m
  else match kind with
    | 0 =>
      let t := stampPs stamp + x.txdly
      let seq := (x.seqSync + 1) % 65536
      let m := setPport m p fun x => { x with seqSync := seq }
      if bit m.dt.ptp.flags 2 then
        let m := sendPtp m p true none (ptpMsg m p 0 0x0200 seq 0 0 (logByte x.logSync) (List.replicate 10 0))
        sendPtp m p false none (ptpMsg m p 8 0 seq (subNs t) 2 (logByte x.logSync) (ptpStamp t))
      else sendPtp m p true none (ptpMsg m p 0 0 seq (subNs t) 0 (logByte x.logSync) (ptpStamp t))
    | 11 =>
      let seq := (x.seqAnn + 1) % 65536
      let m := setPport m p fun x => { x with seqAnn := seq }
      sendPtp m p false none (ptpMsg m p 11 (0x0C + leapFlags m) seq 0 5 (logByte x.logAnn) (announceBody m))
    | 13 =>
      let seq := (x.seqMgmt + 1) % 65536
      let (f, m) := fresh (setPport m p fun x => { x with seqMgmt := seq })
      sendPtp m p false none (ptpMsg m p 13 0 seq 0 4 0x7F (be 8 (2 ^ 64 - 1) ++ be 2 0xFFFF ++ Config.managementData f))
    | _ => m

/-! ### The servo (R352, R356, R364) -/

/-- INCR units of a rate in ns/s. -/
def slewUnits (ns : Nat) : Int := ((ns * 2 ^ 33 + 500000000) / 1000000000 : Nat)

/-- The servo steers INCR: mode PTP, a port in SLAVE, the module claims (R350). -/
def steers (m : Mach) : Bool := claiming m && m.dt.mode == 1 && (slavePort m).isSome

/-- The servo's state over consecutive Syncs (R364); offsets in ps. -/
def servoState (off : Int) (m : Mach) : Mach :=
  let a := off.natAbs
  setPtp m fun x =>
    let near := if a < 100000 then x.nearRun + 1 else 0
    let out := if 1000000 < a then x.outRun + 1 else 0
    let far := if x.stepThr * 1000 < a then x.farRun + 1 else 0
    let st := if x.servo = 2 ∧ 4 ≤ out then 1 else if x.servo = 1 ∧ 16 ≤ near then 2 else x.servo
    { x with nearRun := near, outRun := out, farRun := far, servo := st }

/-- What the servo does at a Sync in mode PTP: it asks for a step once four Syncs lie beyond STEPTHR, slews where the step
is refused, and otherwise steers by a loop whose filter the spec does not give: a free value (R356, R364). -/
def servoAct (off : Int) (m : Mach) : Mach :=
  let x := m.dt.ptp
  if !steers m then m
  else if x.slewing then
    if off.natAbs < 100000 then
      let (f, m) := fresh (setPtp m fun x => { x with slewing := false })
      { m with dt := { m.dt with incr := clampIncr (Config.servoIncr f) } }
    else m
  else if 4 ≤ x.farRun then
    let m := setPtp m fun x => { x with farRun := 0 }
    let delta := -off * (nsU : Nat) / 1000
    if m.dt.valid ∧ m.dt.steplim * nsU < delta.natAbs then
      let m := raise m 0xCAF 0x65 1
      let s := slewUnits x.slew
      let incr := clampIncr ((m.dt.incr : Int) + if 0 < off then -s else s)
      setPtp { m with dt := { m.dt with stepRef := sat m.dt.stepRef 1, incr } } fun x =>
        { x with slewing := true, servo := 1, nearRun := 0, outRun := 0 }
    else askStep m delta none 0
  else
    let (f, m) := fresh m
    { m with dt := { m.dt with incr := clampIncr (Config.servoIncr f) } }

/-- Mean path delay over the latest 16 exchanges, less the asymmetry (R364). -/
def meanDelay (p : PtpPort) : Int := if p.trips.isEmpty then p.mpd else p.trips.sum / (p.trips.length : Nat) - p.asym

/-- A Sync with its t1, corrections included, has come from the master (R363, R364). -/
def syncDone (p : Nat) (t1 t2 : Int) (m : Mach) : Mach :=
  let m := setPport m p fun x => { x with t1, t2, t2t1 := t2 - t1, offset := t2 - t1 - x.mpd, waitFup := false }
  let before := m
  let m := if claiming m ∧ (pport m p).st = 2 then setPport m p fun x => { x with st := 3 } else m
  let m := servoPort before m
  if (pport m p).st = 3 then servoAct (pport m p).offset (servoState (pport m p).offset m) else m

/-! ### Reception (R357, R361, R363) -/

/-- A port's master: the sender of the best Announce. -/
def fromMaster (x : PtpPort) (sender portNo : Nat) : Bool := x.best.any fun b => b.sender == sender && b.portNo == portNo

/-- A timestamp of ten bytes in ps. -/
def readStamp (b : List Byte) : Int := (beNat (sub b 0 6) * 1000000000000 + beNat (sub b 6 4) * 1000 : Nat)

/-- A correction field in ps. -/
def readCorr (b : List Byte) : Int := ofBits 64 (beNat b) * 1000 / 65536

/-- An Announce is heard: at most 16 masters are remembered, the latest first. -/
def heard (x : PtpPort) (a : Announce) (now : Nat) : PtpPort :=
  let old := x.foreign.find? fun f => f.ann.sender == a.sender && f.ann.portNo == a.portNo
  let f : Foreign := { ann := a, last := now, prev := old.map (·.last) }
  let x := { x with foreign := (f :: x.foreign.filter fun g => !(g.ann.sender == a.sender && g.ann.portNo == a.portNo)).take 16 }
  { x with best := bestForeign x }

/-- Least length of each message. -/
def ptpLen (typ : Nat) : Nat :=
  match typ with
  | 9 => 54
  | 11 => 64
  | 13 => 54
  | _ => 44

/-- A PTP message for a MAC (R357, R361): `sent` is the sender's Ethernet and IP address, `mine` that the message came to the
module's own address, so that the answer goes to that sender alone; `stamp` the ingress stamp in ps. -/
def ptpReceive (k : Nat) (v6 : Bool) (sent : Nat × List Byte) (mine : Bool) (stamp : Int) (b : List Byte) (m : Mach) : Mach :=
  match (pports m).find? fun p => (pport m p).mac == some k && bit (pport m p).flags 0 == v6 with
  | none => setMacCnt m k fun c => { c with unmatched := sat64 c.unmatched 1 }
  | some p =>
    let typ := (lget 0 b 0).toNat % 16
    let len := beNat (sub b 2 2)
    let from_ := if mine then some sent else none
    if (lget 0 b 1).toNat % 16 ≠ 2 ∨ (lget 0 b 4).toNat ≠ m.dt.ptp.domain ∨ len < ptpLen typ ∨ b.length < len then
      setPport m p fun x => { x with bad := sat x.bad 1 }
    else
      let m := if typ < 4 then setPport m p fun x => { x with rxEvt := sat x.rxEvt 1 } else m
      let x := pport m p
      let sender := beNat (sub b 20 8)
      let portNo := beNat (sub b 28 2)
      let seq := beNat (sub b 30 2)
      let flags := beNat (sub b 6 2)
      let corr := readCorr (sub b 8 8)
      let t := stampPs stamp - x.rxdly
      match typ with
      | 0 =>
        if !fromMaster x sender portNo ∨ x.st = 4 ∨ x.st = 5 then m
        else
        let m := setPport m p fun x => { x with peer := some sent }
        if bit flags 9 then
          setPport m p fun x => { x with t2 := t, corr, syncSeq := seq, waitFup := true, syncFrom := sender }
        else syncDone p (readStamp (sub b 34 10) + corr) t m
      | 8 =>
        if x.waitFup ∧ x.syncSeq = seq ∧ fromMaster x sender portNo then
          syncDone p (readStamp (sub b 34 10) + corr + x.corr) x.t2 m
        else m
      | 1 =>
        if x.st ≠ 4 ∨ !speaks m then m
        else sendPtp m p false from_ (ptpMsg m p 9 0 seq (beNat (sub b 8 8)) 3 (logByte x.logDelay) (ptpStamp t ++ sub b 20 10))
      | 9 =>
        if (x.st = 2 ∨ x.st = 3) ∧ beNat (sub b 44 8) = clockIdent m ∧ beNat (sub b 52 2) = p + 1 ∧ seq = x.seqReq then
          let t4 := readStamp (sub b 34 10) - corr
          setPport m p fun x =>
            let x := { x with trips := ((x.t2t1 + (t4 - x.t3)) / 2 :: x.trips).take 16 }
            { x with mpd := meanDelay x }
        else m
      | 11 =>
        let a : Announce := { prio1 := (lget 0 b 47).toNat, cls := (lget 0 b 48).toNat, acc := (lget 0 b 49).toNat,
                              var := beNat (sub b 50 2), prio2 := (lget 0 b 52).toNat, gm := beNat (sub b 53 8),
                              steps := beNat (sub b 61 2), sender, portNo, utc := beNat (sub b 44 2), flags := flags % 4 }
        if sender = clockIdent m ∨ 255 ≤ a.steps then m
        else bmca (fun _ => false) (setPport m p fun x =>
          let x := heard x a m.now
          if fromMaster x sender portNo then { x with peer := some sent } else x)
      | 13 =>
        if (lget 0 b 46).toNat % 16 = 0 ∧ speaks m then
          let (f, m) := fresh m
          sendPtp m p false from_ (ptpMsg m p 13 0 seq 0 4 0x7F
            (sub b 20 10 ++ be 1 0 ++ be 1 0 ++ be 1 2 ++ be 1 0 ++ Config.managementData f))
        else m
      | _ => m

/-- ANNOUNCE_RECEIPT_TIMEOUT (R361): no Announce from the port's master for announceReceiptTimeout intervals. -/
def announceTimeout (p : Nat) (m : Mach) : Mach :=
  let x := pport m p
  if x.mac.isNone then m
  else
    let m := setPport m p fun x => { x with annTo := sat x.annTo 1, foreign := [], best := none }
    bmca (fun q => q == p) m

/-! ### Commands (R361, R365, R366) -/

/-- PTP_CFG (R362). -/
def commitPtpCfg (domain prio1 prio2 timesrc utc flags ident classOut : Nat) (m : Mach) : CRes :=
  if 127 < domain ∨ 7 < flags then .arg
  else
    let table := (le 16 classOut).map BitVec.toNat
    .done (bmca (fun _ => false) (setPtp m fun x => { x with domain, prio1, prio2, timesrc, utc, flags, ident, classOut := table }))

/-- PTP_PORT_CFG (R361, R366). -/
def commitPtpPortCfg (p k flags : Nat) (logSync logAnn : Int) (annTimeout : Nat) (logDelay rxdly txdly asym : Int)
    (m : Mach) : CRes :=
  if 15 < p ∨ (63 < k ∧ k ≠ 255) ∨ 7 < flags then .arg
  else if k = 255 then
    .done (servoPort m (setPport m p fun x => { x with mac := none, st := 0, foreign := [], best := none }))
  else if !macExists m k ∨ logSync < -7 ∨ -1 < logSync ∨ logAnn < -3 ∨ 1 < logAnn ∨ annTimeout < 2 ∨ 10 < annTimeout ∨ logDelay < logSync ∨
      logSync + 5 < logDelay ∨ !hasIface m k (bit flags 0) ∨ (pports m).any (fun q => q != p && (pport m q).mac == some k) then .arg
  else
    let n := setPport m p fun x =>
      let x := { x with flags, logSync, logAnn, annTimeout, logDelay, rxdly, txdly, asym }
      if x.mac = some k then x else { x with mac := some k, st := 1, foreign := [], best := none, trips := [] }
    .done (servoPort m n)

/-- PTP_SERVO_CFG (R356, R364). -/
def commitPtpServoCfg (sbw stepThr slew : Nat) (m : Mach) : CRes :=
  if sbw < 2 ∨ 6 < sbw ∨ stepThr < 100 ∨ m.dt.steplim < stepThr ∨ slew = 0 ∨ 100000 < slew then .arg
  else .done (setPtp m fun x => { x with sbw, stepThr, slew })

/-- The role has reached 8 or 15: every port takes its state at once (R363). -/
def ptpResume (m : Mach) : Mach := bmca (fun _ => true) m

/-- PTP_MESSAGE_SEND (R358). -/
def execPtpMessageSend (port kind : Nat) (x : PtpMeas) := runIf (port < 16) (ptpSend port kind x.stamp)
/-- ANNOUNCE_RECEIPT_TIMEOUT (R361). -/
def execAnnounceReceiptTimeout (port : Nat) := runIf (port < 16) (announceTimeout port)

end Sys2Proof.Machine
end

