-- ==== Sys2Proof/Machine/Wake.lean ====
section
/-! DEFINITION. POWER events and wake events (R499, R502, R505, R511). -/
namespace Sys2Proof.Machine

/-- The body of a POWER event (R511). -/
def powerBody (m : Mach) (cause : Nat) : List Byte :=
  le 1 cause ++ le 1 m.pwr.st ++ le 1 m.pwr.phase ++ le 1 m.pwr.cause ++ le 4 m.pwr.rbFail ++ le 4 (denCost m) ++ le 4 0
    ++ (Item.instant m.dt.t).bytes

/-- A POWER event. -/
def powerEvt (m : Mach) (cause : Nat) : Mach := event m 0x0081 7 (powerBody m cause)

/-- A wake cause's place in the table of R502, the highest first. -/
def wakeRank (cause : Nat) : Nat :=
  match cause with
  | 1 => 0
  | 2 => 1
  | 5 => 2
  | 4 => 3
  | _ => 4

/-- The governing one of several wake causes (R502). -/
def topCause (c : Nat) (cs : List Nat) : Nat := cs.foldl (fun a b => if wakeRank b < wakeRank a then b else a) c

/-- Wake step W1 begins (R503): the domains are switched on. -/
def beginWake (m : Mach) (cause : Nat) : Mach :=
  let pwr := { m.pwr with st := 4, phase := 9, cause, events := [], retried := false, claiming := cause == 1, wakeAt := m.now,
                          stepAt := m.now, lowPower := false }
  powerEvt { m with pwr, pr := { m.pr with st := 1 } } 3

/-- A wake event (R499, R502, R505): in DEN it begins the wake, during Den entry it waits for the abort point, during a
wake it changes the outcome alone. Awake, it is none. -/
def wakeEvent (cause : Nat) (m : Mach) : Mach :=
  if grave m then m
  else match m.pwr.st with
  | 2 => if m.pwr.wakeFail ∧ cause = 3 then m else beginWake m cause
  | 3 =>
    if m.pwr.events.contains cause then m
    else
      let governs := m.pwr.events.all fun c => decide (wakeRank cause < wakeRank c)
      { m with pwr := { m.pwr with events := m.pwr.events ++ [cause], eventAt := if governs then m.now else m.pwr.eventAt } }
  | 4 => { m with pwr := { m.pwr with cause := topCause m.pwr.cause [cause], claiming := m.pwr.claiming || cause == 1 } }
  | _ => m

/-- A wake cause of R502. -/
def wakeCause (cause : Nat) : Bool := decide (1 ≤ cause) && decide (cause ≤ 5)

end Sys2Proof.Machine
end

