-- ==== Sys2Proof/Machine/Network.lean ====
section
/-! DEFINITION. The receive path of the MACs, ARP and neighbour discovery, group queries (R172 to R178, R182, R192, R193,
R205, R206). -/
namespace Sys2Proof.Machine

/-- Add to one MAC's counters. -/
def discardFrame (k : Nat) (f : MacCnt → MacCnt) (m : Mach) : Mach := setMacCnt m k f
def unmatched (k : Nat) (m : Mach) : Mach := discardFrame k (fun c => { c with unmatched := sat64 c.unmatched 1 }) m

/-- A frame taken apart: destination, source, tag, type, payload without FCS. -/
structure Frame where
  dst : Nat
  src : Nat
  tci : Option Nat
  etype : Nat
  body : List Byte
  deriving DecidableEq, Repr

/-- The fields of a frame; at most one tag (R172). -/
def frameOf (f : List Byte) : Frame :=
  let b := f.take (f.length - 4)
  let e := beNat (sub b 12 2)
  if e = 0x8100 then
    { dst := beNat (b.take 6), src := beNat (sub b 6 6), tci := some (beNat (sub b 14 2)), etype := beNat (sub b 16 2), body := b.drop 18 }
  else { dst := beNat (b.take 6), src := beNat (sub b 6 6), tci := none, etype := e, body := b.drop 14 }

/-- The tag's VLAN is a membership's. -/
def sameVlan (tci : Option Nat) (t : Nat) : Bool :=
  match tci with
  | none => t == 65536
  | some v => t != 65536 && t % 4096 == v % 4096


/-- Addresses of the MAC's interfaces of a version. -/
def ownAddrs (m : Mach) (k : Nat) (v6 : Bool) : List (List Byte) :=
  if !hasIface m k v6 then [] else if v6 then [(iface m k).ip6, linkLocal m k] else [(iface m k).ip4]

/-- PTP runs on the MAC with this IP version. -/
def ptpOn (m : Mach) (k : Nat) (v6 : Bool) : Bool :=
  (pports m).any fun p => (pport m p).mac == some k && bit (pport m p).flags 0 == v6

/-- Groups that hosts of IGMP, MLD and neighbour discovery are in by their RFCs: all systems, all nodes, and the
solicited-node groups of the MAC's addresses (R175, R205; Assumption 51). -/
def hostGroups (m : Mach) (k : Nat) : List Nat :=
  (if hasIface m k false then [0x01005E000001] else []) ++
    (if hasIface m k true then 0x333300000001 :: (ownAddrs m k true).map fun a => groupMac true (solicited a) else [])

/-- The MAC accepts a destination address (R174): its own and broadcast once it has one, and the groups it has joined. -/
def accepts (m : Mach) (k dst : Nat) : Bool :=
  ((mac m k).addr != 0 && (dst == (mac m k).addr || dst == 2 ^ 48 - 1))
    || (m.flw.members.any fun x => x.mac == k && !x.ctxs.isEmpty && groupMac x.v6 x.addr == dst)
    || [false, true].any (fun v => ptpOn m k v && groupMac v (ptpGroup v) == dst)
    || (hostGroups m k).contains dst

/-! ### IP (R177) -/

/-- An IP packet taken apart. -/
structure Ip where
  v6 : Bool
  src : List Byte
  dst : List Byte
  proto : Nat
  /-- Came behind a hop-by-hop header. -/
  hop : Bool
  data : List Byte
  deriving DecidableEq, Repr

/-- An IPv4 packet that passes the checks of R177. -/
def ip4Of (b : List Byte) : Option Ip :=
  let len := beNat (sub b 2 2)
  if lget 0 b 0 = 0x45#8 ∧ 20 ≤ len ∧ len ≤ b.length ∧ checksum (b.take 20) = 0 ∧ beNat (sub b 6 2) % 2 ^ 14 = 0 then
    some { v6 := false, src := sub b 12 4, dst := sub b 16 4, proto := beNat (sub b 9 1), hop := false, data := (b.take len).drop 20 }
  else none

/-- The options of a hop-by-hop header hold a router alert for MLD (RFC 2711). -/
def routerAlert : Nat → List Byte → Bool
  | 0, _ => false
  | n + 1, o =>
    if o.isEmpty then false
    else if o.take 1 = [0#8] then routerAlert n (o.drop 1)
    else if o.take 4 = [5#8, 2#8, 0#8, 0#8] then true
    else routerAlert n (o.drop (2 + beNat (sub o 1 1)))

/-- The extension headers of IPv6, hop-by-hop apart. -/
def extHeaders : List Nat := [43, 44, 50, 51, 60, 135, 139, 140]

/-- An IPv6 packet that passes them: a header of another protocol is no extension header. -/
def ip6Of (b : List Byte) : Option Ip :=
  let len := beNat (sub b 4 2)
  let next := beNat (sub b 6 1)
  let p := (b.take (40 + len)).drop 40
  let mk (proto : Nat) (hop : Bool) (data : List Byte) : Ip := { v6 := true, src := sub b 8 16, dst := sub b 24 16, proto, hop, data }
  if beNat (b.take 1) / 16 ≠ 6 ∨ b.length < 40 + len then none
  else if next = 0 then
    let skip := 8 * (beNat (sub p 1 1) + 1)
    if beNat (p.take 1) = 58 ∧ skip ≤ p.length ∧ routerAlert skip (sub p 2 (skip - 2)) then some (mk 58 true (p.drop skip)) else none
  else if extHeaders.contains next then none
  else some (mk next false p)

/-- The UDP checksum holds (R177): zero is accepted over IPv4 alone. -/
def udpOk (x : Ip) : Bool :=
  let len := beNat (sub x.data 4 2)
  let d := x.data.take len
  decide (8 ≤ len) && decide (len ≤ x.data.length) &&
    (if beNat (sub d 6 2) = 0 then !x.v6 else checksum d (pseudo x.src x.dst 17 len) == 0)

/-- The payload of a UDP datagram. -/
def udpBody (x : Ip) : List Byte := (x.data.take (beNat (sub x.data 4 2))).drop 8

/-! ### Next hops (R192) -/


/-- An answer resolves a next hop that a context on the MAC uses; the fault ends once every context's is resolved. -/
def learn (k : Nat) (ip : List Byte) (eth : Nat) (m : Mach) : Mach :=
  let uses := m.flw.ctxs.any fun x => decide (1 ≤ x.2.st) && x.2.d.dir == 1 && x.2.d.mac == k && !isGroup x.2.d.v6 x.2.d.daddr &&
    nextHop m x.2.d == ip
  if !uses then m
  else
    let hops := (m.flw.hops.filter fun h => !(h.mac == k && h.ip == ip)) ++ [{ mac := k, ip, eth }]
    settleHops m k { m with flw := { m.flw with hops } }

/-- A neighbour advertisement (RFC 4861 Section 4.4): flags as bits 31 to 29. -/
def advert (k flags : Nat) (target : List Byte) (m : Mach) : List Byte :=
  be 1 136 ++ be 1 0 ++ be 2 0 ++ be 4 (flags * 2 ^ 29) ++ target ++ be 1 2 ++ be 1 1 ++ be 6 (mac m k).addr


/-- An ARP packet arrives: a request for the interface address is answered by a module that speaks; a reply resolves. -/
def arpIn (k : Nat) (f : Frame) (m : Mach) : Mach :=
  let b := f.body
  let sha := beNat (sub b 8 6)
  let spa := sub b 14 4
  if b.take 6 ≠ be 2 1 ++ be 2 0x0800 ++ [6#8, 4#8] ∨ b.length < 28 then m
  else if beNat (sub b 6 2) = 1 then
    if speaks m ∧ hasIface m k false ∧ sub b 24 4 = (iface m k).ip4 then sendArp k f.tci sha 2 sha spa m else m
  else if beNat (sub b 6 2) = 2 then learn k spa sha m
  else m

/-- The link-layer address option of a type in neighbour-discovery options. -/
def llOption (typ : Nat) : Nat → List Byte → Option Nat
  | 0, _ => none
  | n + 1, o =>
    let len := 8 * beNat (sub o 1 1)
    if o.length < 8 ∨ len = 0 then none
    else if beNat (o.take 1) = typ then some (beNat (sub o 2 6)) else llOption typ n (o.drop len)

/-- A neighbour solicitation or advertisement arrives (RFC 4861). -/
def neighbourIn (k : Nat) (f : Frame) (x : Ip) (m : Mach) : Mach :=
  let target := sub x.data 8 16
  if beNat (x.data.take 1) = 135 then
    if speaks m ∧ (ownAddrs m k true).contains target then
      let unspec := x.src.all (· == 0)
      let dst := if unspec then [0xFF#8, 2#8] ++ List.replicate 13 0 ++ [1#8] else x.src
      let edst := if unspec then groupMac true dst else (llOption 1 8 (x.data.drop 24)).getD f.src
      sendIcmp6 k f.tci edst target dst (advert k (if unspec then 1 else 3) target m) m
    else m
  else match llOption 2 8 (x.data.drop 24) with
    | some e => learn k target e m
    | none => m

/-- NEXT_HOP_REFRESH (R192): every next hop of the MAC's enabled unicast send contexts is asked for. -/
def refreshHops (k : Nat) (m : Mach) : Mach := askHops k (unicastSenders m k) m

/-! ### Queries (R205) -/

/-- Sources asked about, with those of a query that waits already: none stands for all. -/
def askedFor (old : Option (List (List Byte))) (srcs : List (List Byte)) : List (List Byte) :=
  match old with
  | some [] => []
  | some o => if srcs.isEmpty then [] else (o ++ srcs).eraseDups
  | none => srcs

/-- A query marks the memberships it asks about on its MAC and VLAN; `group` none asks about all, `srcs` about sources alone. -/
def queried (k : Nat) (v6 : Bool) (tci : Option Nat) (group : Option (List Byte)) (srcs : List (List Byte)) (m : Mach) : Mach :=
  let hit (x : Member) : Bool := x.mac == k && x.v6 == v6 && sameVlan tci x.tci && group.all fun g => x.addr.take g.length == g
  { m with flw := { m.flw with members := m.flw.members.map fun x => if hit x then { x with query := some (askedFor x.query srcs) } else x } }

/-- `n` addresses of `w` bytes, in fields of 16. -/
def addrList (w n : Nat) (b : List Byte) : List (List Byte) := (List.range n).map fun i => padTo 0 16 (sub b (w * i) w)

/-- An IGMP message (RFC 3376): queries of version 3, and of version 2, which switches the MAC to host compatibility mode;
version 1 is not supported. -/
def igmpIn (k : Nat) (tci : Option Nat) (d : List Byte) (m : Mach) : Mach :=
  let group := if sub d 4 4 = [0, 0, 0, 0] then none else some (sub d 4 4)
  if checksum d ≠ 0 ∨ beNat (d.take 1) ≠ 0x11 then m
  else if 12 ≤ d.length then queried k false tci group (addrList 4 (beNat (sub d 10 2)) (d.drop 12)) m
  else if d.length = 8 ∧ lget 0 d 1 ≠ 0 then
    queried k false tci group [] { m with flw := { m.flw with v2 := tset m.flw.v2 k m.now } }
  else m

/-- An MLD query (RFC 3810): one of version 1 switches the MAC to host compatibility mode. -/
def mldIn (k : Nat) (tci : Option Nat) (d : List Byte) (m : Mach) : Mach :=
  let g := sub d 8 16
  let group := if g.all (· == 0) then none else some g
  if 28 ≤ d.length then queried k true tci group (addrList 16 (beNat (sub d 26 2)) (d.drop 28)) m
  else if d.length = 24 then queried k true tci group [] { m with flw := { m.flw with mld1 := tset m.flw.mld1 k m.now } }
  else m

/-! ### Dispatch (R175, R193) -/

/-- The receive contexts whose match fields a datagram has (R193). -/
def matching (m : Mach) (k : Nat) (tci : Option Nat) (x : Ip) (dport : Nat) (r : Rtp) : List Nat :=
  tkeys (fun (c : Ctx) =>
    let d := c.d
    decide (1 ≤ c.st) && d.dir == 0 && d.mac == k && sameVlan tci (if d.tagged then d.tci else 65536) && d.v6 == x.v6
      && d.daddr.take x.dst.length == x.dst && d.dport == dport && (!bit d.flags 4 || d.saddr.take x.src.length == x.src)
      && (!bit d.flags 3 || d.ssrc == r.ssrc)) m.flw.ctxs

/-- A frame is handed on. -/
def handed (k n : Nat) (m : Mach) : Mach :=
  setMacCnt m k fun c => { c with rxFrames := sat64 c.rxFrames 1, rxBytes := sat64 c.rxBytes n }

/-- A UDP datagram (R175, R193): PTP, else the lowest-numbered enabled context that matches. -/
def udpIn (k : Nat) (n : Nat) (f : Frame) (x : Ip) (stamp : Int) (m : Mach) : Mach :=
  let dport := beNat (sub x.data 2 2)
  let mine := (ownAddrs m k x.v6).contains x.dst
  if (dport = 319 ∨ dport = 320) ∧ ptpOn m k x.v6 ∧ (mine ∨ x.dst = ptpGroup x.v6) then
    ptpReceive k x.v6 (f.src, x.src) mine stamp (udpBody x) (handed k n m)
  else
    let r := rtpOf (udpBody x)
    match (matching m k f.tci x dport r).find? fun c => decide (2 ≤ (ctx m c).st) with
    | some c => rxPacket c (if (udpBody x).length < 12 then { r with version := 0 } else r) (handed k n m)
    | none => unmatched k m

/-- An IP packet. -/
def ipIn (k n : Nat) (f : Frame) (stamp : Int) (m : Mach) : Mach :=
  match (if f.etype = 0x0800 then ip4Of f.body else ip6Of f.body) with
  | none => discardFrame k (fun c => { c with ipErr := sat64 c.ipErr 1 }) m
  | some x =>
    if x.proto = 17 then
      if udpOk x then udpIn k n f x stamp m else discardFrame k (fun c => { c with udpErr := sat64 c.udpErr 1 }) m
    else if x.proto = 2 ∧ !x.v6 then igmpIn k f.tci x.data (handed k n m)
    else if x.proto = 58 ∧ x.v6 then
      let typ := beNat (x.data.take 1)
      let ok := checksum x.data (pseudo x.src x.dst 58 x.data.length) == 0
      if typ = 135 ∨ typ = 136 then if ok && !x.hop then neighbourIn k f x (handed k n m) else handed k n m
      else if typ = 130 then if ok then mldIn k f.tci x.data (handed k n m) else handed k n m
      else if typ = 131 ∨ typ = 132 ∨ typ = 143 ∨ typ = 133 ∨ typ = 134 ∨ typ = 137 then handed k n m
      else unmatched k m
    else unmatched k m

/-- A frame leaves the receive buffer for one of the places of R175. -/
def handOn (k : Nat) (x : RxFrame) (m : Mach) : Mach :=
  let n := x.frame.length
  let f := frameOf x.frame
  if f.etype = 0x0800 ∨ f.etype = 0x86DD then ipIn k n f x.stamp m
  else if f.etype = 0x0806 then arpIn k f (handed k n m)
  else unmatched k m

/-- The receive buffer drains, unless the MAC's memory port is held at its budget (R28, R176): no frame comes in faster than
the line rate at which frames drain. -/
def drainRx (k : Nat) : List RxFrame → Mach → Mach
  | [], m => setMac m k fun y => { y with rxq := [] }
  | x :: xs, m =>
    if portHeld m (13 + k) then setMac m k fun y => { y with rxq := x :: xs }
    else drainRx k xs (handOn k x (spend (13 + k) x.frame.length m))

/-- Bytes of a MAC's receive buffer, and those in use (R175). -/
def rxSize (m : Mach) (k : Nat) : Nat := 524288 * (macRate m k / 100)
def rxFill (x : Mac) : Nat := (x.rxq.map fun f => f.frame.length).foldl (· + ·) 0

/-- The checks of R178 in their order; what passes them waits in the buffer, and drains. -/
def receiveFrame (k : Nat) (frame : List Byte) (pcsErr : Bool) (stamp : Int) (m : Mach) : Mach :=
  let n := frame.length
  let f := frameOf frame
  if rxSize m k < rxFill (mac m k) + n then
    discardFrame k (fun c => { c with ovfFrames := sat64 c.ovfFrames 1, ovfBytes := sat64 c.ovfBytes n }) m
  else if pcsErr then discardFrame k (fun c => { c with pcsErr := sat64 c.pcsErr 1 }) m
  else if fcs (frame.take (n - 4)) ≠ frame.drop (n - 4) then discardFrame k (fun c => { c with fcsErr := sat64 c.fcsErr 1 }) m
  else if n < 64 then discardFrame k (fun c => { c with runt := sat64 c.runt 1 }) m
  else if (mac m k).maxFrame < n then discardFrame k (fun c => { c with oversize := sat64 c.oversize 1 }) m
  else if !accepts m k f.dst then discardFrame k (fun c => { c with filtered := sat64 c.filtered 1 }) m
  else if f.etype = 0x8808 then discardFrame k (fun c => { c with pause := sat64 c.pause 1 }) m
  else drainRx k ((mac m k).rxq ++ [{ frame := frame, stamp := stamp }]) m

/-- The matchers of a MAC that a frame matches (R181): its FCS is correct. -/
def matched (m : Mach) (k : Nat) (frame : List Byte) : List Nat :=
  if fcs (frame.take (frame.length - 4)) ≠ frame.drop (frame.length - 4) then []
  else (matchersOn m k).filter fun w => wakeMatch (tget {} m.eth.wake w) frame

/-- A match is counted, and posted except in Den (R182). -/
def noteMatches (k : Nat) (ws : List Nat) (m : Mach) : Mach :=
  ws.foldl (fun m w =>
    let m := setMacCnt m k fun c => { c with wakeMatch := sat64 c.wakeMatch 1 }
    if m.pwr.st = 2 then m else event m 0x0021 1 (le 1 w ++ le 1 k)) m

/-- ETH_FRAME_RECEIVE (R173 to R178, R182). In Den a frame is neither sent nor kept. -/
def frameReceive (k : Nat) (frame : List Byte) (pcsErr : Bool) (stamp : Int) (m : Mach) : Mach :=
  if !macExists m k ∨ !(mac m k).link then m
  else
    let ws := matched m k frame
    let m := noteMatches k ws m
    if m.pwr.st = 2 then (if ws.isEmpty then m else wakeEvent 4 m)
    else if m.pwr.st = 3 ∧ !ws.isEmpty then wakeEvent 4 m
    else receiveFrame k frame pcsErr stamp m

/-- The module begins to speak for the pair (R206): gratuitous ARP, unsolicited advertisements, a report for every group. -/
def announce (m : Mach) : Mach :=
  let m := (List.range 64).foldl (fun m k =>
    let m := if hasIface m k false then sendArp k none (2 ^ 48 - 1) 1 0 (iface m k).ip4 m else m
    let all := [0xFF#8, 2#8] ++ List.replicate 13 0 ++ [1#8]
    (ownAddrs m k true).foldl (fun m a => sendIcmp6 k none (groupMac true all) a all (advert k 1 a m) m) m) m
  m.flw.members.foldl (fun m x => if x.ctxs.isEmpty then m else sendReport m x (changeRecs (some []) x.filter)) m

/-- ETH_FRAME_RECEIVE (R175). -/
def execEthFrameReceive (mac : Nat) (frame : List Byte) (pcsErr : Bool) (x : PtpMeas) :=
  runIf (mac < 64) (frameReceive mac frame pcsErr x.stamp)
/-- NEXT_HOP_REFRESH (R192). -/
def execNextHopRefresh (mac : Nat) := runIf (mac < 64) (refreshHops mac)

end Sys2Proof.Machine
end

