-- ==== Sys2Proof/Machine/Claims.lean ====
section
/-! DEFINITION. Demotion by a foreign echo and echo confirmation (R465, R466). -/
namespace Sys2Proof.Machine

/-- Receive side and transmit side of a link lane: WL lanes 0 to 143, XL_A 144 to 151, XL_B 152 to 159. -/
def rx (m : Mach) (l : Nat) : WlRx := tget {} m.wl.rx l
def setRx (m : Mach) (l : Nat) (f : WlRx → WlRx) : Mach := { m with wl := { m.wl with rx := tmod {} m.wl.rx l f } }
def tx (m : Mach) (l : Nat) : WlTx := tget {} m.wl.tx l
def setTx (m : Mach) (l : Nat) (f : WlTx → WlTx) : Mach := { m with wl := { m.wl with tx := tmod {} m.wl.tx l f } }
def setWlCnt (m : Mach) (l : Nat) (f : WlCnt → WlCnt) : Mach := { m with wl := { m.wl with cnts := tmod {} m.wl.cnts l f } }

/-- WL lanes in UP. -/
def upLanes (m : Mach) : List Nat := (tkeys (fun (r : WlRx) => r.st == 5) m.wl.rx).filter (· < 144)

/-- A claiming module with an UP WL lane that reports FOREIGN demotes itself (R465). -/
def foreignDemotion (m : Mach) : Mach :=
  if claiming m ∧ (upLanes m).any fun l => (rx m l).foreign then
    let m := setRole m 4
    let m := { m with pr := { m.pr with split := true, cnt := { m.pr.cnt with demote := sat m.pr.cnt.demote 1 } } }
    pairEvt (raise m 0xDE0 0x93 2) 4
  else m

/-- What was withheld after heartbeat loss is released: the grant, SDOUT, frames (R466). -/
def echoConfirmed (m : Mach) : Mach :=
  announce (settleGrants { m with pr := { m.pr with withhold := false, echoOk := true } })

/-- Echo confirmation (R466): eight good blocks echo the module's SLOT on an UP WL lane, with FOREIGN on none. -/
def echoCheck (m : Mach) : Mach :=
  if claiming m ∧ m.pr.withhold ∧ (upLanes m).any (fun l => decide (8 ≤ (rx m l).echoRun)) ∧
      (upLanes m).all (fun l => !(rx m l).foreign) then echoConfirmed m else m

/-- ECHO_CONFIRM_TIMEOUT (R466): no WL lane is UP 100 ms after the heartbeat loss. -/
def echoTimeout (m : Mach) : Mach :=
  if claiming m ∧ m.pr.withhold ∧ m.pr.plossAt + 100 * msT ≤ m.now ∧ (upLanes m).isEmpty then echoConfirmed m else m

/-- ECHO_CONFIRM_TIMEOUT (R466). -/
def execEchoConfirmTimeout := run echoTimeout

end Sys2Proof.Machine
end

