-- ==== Sys2Proof/Machine/Fec.lean ====
section
/-! DEFINITION. Line coding and frames of Wainar Link: the Reed–Solomon code, the scrambler, the line levels, the frame
overhead and the bits of a block (R113, R114, R116). -/
namespace Sys2Proof.Machine

/-! ### GF(2¹⁰) of IEEE 802.3 Clause 91: x¹⁰ + x³ + 1 -/

/-- Multiply by α. -/
def gfDouble (a : Nat) : Nat := if a < 512 then 2 * a else (2 * a - 1024) ^^^ 9

/-- Product of two elements. -/
def gfMul (a b : Nat) : Nat :=
  ((List.range 10).foldl (fun (r : Nat × Nat) i => (if bit b i then r.1 ^^^ r.2 else r.1, gfDouble r.2)) (0, a)).1

/-- α to a power, and the inverse of an element: its 1,022nd power. -/
def gfAlpha : Nat → Nat
  | 0 => 1
  | n + 1 => gfDouble (gfAlpha n)
def gfInv (a : Nat) : Nat :=
  ((List.range 9).foldl (fun (r : Nat × Nat) _ => let s := gfMul r.2 r.2; (gfMul r.1 s, s)) (1, a)).1

/-- Sum of products of two lists, element by element. -/
def gfDot (xs ys : List Nat) : Nat := (xs.zip ys).foldl (fun a x => a ^^^ gfMul x.1 x.2) 0

/-- Value of a polynomial, lowest coefficient first. -/
def gfEval (p : List Nat) (x : Nat) : Nat := p.foldr (fun c a => gfMul a x ^^^ c) 0

/-! ### RS(544,514) -/

/-- Coefficients of the generator below its leading one, highest first: the product of x − αʲ for j from 0 to 29. -/
def rsGen : List Nat :=
  ((List.range 30).foldl (fun (p : List Nat) j =>
    let a := gfAlpha j
    (p.zip (0 :: p)).map (fun (x : Nat × Nat) => x.1 ^^^ gfMul a x.2) ++ [gfMul a (p.getLast?.getD 0)]) [1]).drop 1

/-- The 30 parity symbols of a message. -/
def rsParity (msg : List Nat) : List Nat :=
  let g := rsGen
  msg.foldl (fun (r : List Nat) c =>
    let f := lget 0 r 0 ^^^ c
    List.zipWith (fun a b => a ^^^ gfMul f b) (r.drop 1 ++ [0]) g) (List.replicate 30 0)

/-- The 30 syndromes of a word. -/
def rsSyndromes (w : List Nat) : List Nat :=
  (List.range 30).map fun j => let a := gfAlpha j; w.foldl (fun s c => gfMul s a ^^^ c) 0

/-- State of the search for the error locator: the locator and the one before, its degree, the shift, the discrepancy. -/
structure Locator where
  c : List Nat := [1]
  b : List Nat := [1]
  deg : Nat := 0
  shift : Nat := 1
  last : Nat := 1

/-- One step of Berlekamp and Massey at syndrome `n`. -/
def Locator.next (s : List Nat) (l : Locator) (n : Nat) : Locator :=
  let d := gfDot (l.c.take (l.deg + 1)) ((s.take (n + 1)).reverse)
  if d = 0 then { l with shift := l.shift + 1 }
  else
    let k := gfMul d (gfInv l.last)
    let q := List.replicate l.shift 0 ++ l.b.map (gfMul k)
    let len := max l.c.length q.length
    let c := ((padTo 0 len l.c).zip (padTo 0 len q)).map fun x => x.1 ^^^ x.2
    if 2 * l.deg ≤ n then { c, b := l.c, deg := n + 1 - l.deg, shift := 1, last := d } else { l with c, shift := l.shift + 1 }

/-- The error locator of 30 syndromes. -/
def locatorOf (s : List Nat) : Locator := (List.range 30).foldl (Locator.next s) {}

/-- Correct a word of 544 symbols in error at no more than 15 places: the word, and whether symbols were changed; none where
the decoder cannot correct it (R113, R115). -/
def rsDecode (w : List Nat) : Option (List Nat × Bool) :=
  let s := rsSyndromes w
  if s.all (· == 0) then some (w, false)
  else
    let l := locatorOf s
    let om := (List.range 30).map fun i => gfDot (l.c.take (i + 1)) ((s.take (i + 1)).reverse)
    let der := (l.c.drop 1).zipIdx.map fun x => if x.2 % 2 = 0 then x.1 else 0
    let fix := w.zipIdx.map fun x =>
      let loc := gfAlpha (543 - x.2)
      let inv := gfInv loc
      if gfEval l.c inv = 0 then x.1 ^^^ gfMul loc (gfMul (gfEval om inv) (gfInv (gfEval der inv))) else x.1
    if l.deg ≤ 15 ∧ (rsSyndromes fix).all (· == 0) then some (fix, true) else none

/-! ### Bits, symbols and levels -/

/-- The lowest `n` symbols of `w` bits of a number, the first the most significant. -/
def symbols (w n v : Nat) : List Nat := (List.range n).map fun i => v / 2 ^ (w * (n - 1 - i)) % 2 ^ w

/-- The number that symbols of `w` bits spell. -/
def ofSymbols (w : Nat) (ss : List Nat) : Nat := ss.foldl (fun a s => a * 2 ^ w + s % 2 ^ w) 0

/-- PAM4 level of two bits, and back: 00, 01, 11, 10 from the lowest level up; NRZ has the bit itself (R113). -/
def pam4 (b : Nat) : Nat := lget 0 [0, 1, 3, 2] b

/-- The line symbols of the bits of a frame in a mode, and the bits of a frame's symbols. -/
def levelsOf (mode v : Nat) : List Nat := if mode = 3 then (symbols 2 13600 v).map pam4 else symbols 1 27200 v
def bitsOf (mode : Nat) (ls : List Nat) : Nat := if mode = 3 then ofSymbols 2 (ls.map pam4) else ofSymbols 1 ls

/-! ### The scrambler x⁵⁸ + x³⁹ + 1 -/

/-- Descramble `n` bits after 58 earlier line bits. -/
def descramble (hist n v : Nat) : Nat :=
  let s := hist % 2 ^ 58 * 2 ^ n + v % 2 ^ n
  (s ^^^ s / 2 ^ 39 ^^^ s / 2 ^ 58) % 2 ^ n

/-- Scramble `k` runs of 39 bits, the first the most significant of `n` bits: the line bits, and the latest 58 of them. -/
def scrambleRuns (v : Nat) : Nat → Nat → Nat → Nat → Nat × Nat
  | 0, _, hist, out => (out, hist)
  | k + 1, n, hist, out =>
    let w := min 39 n
    let d := v / 2 ^ (n - w) % 2 ^ w
    let s := (d ^^^ hist / 2 ^ (39 - w) ^^^ hist / 2 ^ (58 - w)) % 2 ^ w
    scrambleRuns v k (n - w) ((hist * 2 ^ w + s) % 2 ^ 58) (out * 2 ^ w + s)

/-- Scramble `n` bits. -/
def scramble (hist n v : Nat) : Nat × Nat := scrambleRuns v (n / 39 + 1) n hist 0

/-- Frame time of a mode in device-time units: 27,200 bits at its line rate; and the block time, a sixth of it (R110). -/
def frameU (mode : Nat) : Nat := 27200 * 10 ^ 6 * 2 ^ 32 / lget 25781250 [25781250, 25781250, 53125000, 106250000] mode
def tbU (mode : Nat) : Nat := frameU mode / 6

/-! ### Blocks (R116) -/

/-- The 520 bytes that a block's CRC covers, in transmission order. -/
def blockBytes (hdr : BitVec 64) (payload : BitVec 4096) : List Byte := be 8 hdr.toNat ++ be 512 payload.toNat

/-- The 4,192 bits of a block: its CRC goes lowest byte first. -/
def blockBits (hdr : BitVec 64) (payload : BitVec 4096) : Nat :=
  hdr.toNat * 2 ^ 4128 + payload.toNat * 2 ^ 32 + beNat (le 4 (crc32c (blockBytes hdr payload)).toNat)


/-- Take a block's bits apart. -/
def RxBlock.ofBits (v : Nat) (cwOk : Bool) : RxBlock :=
  { hdr := BitVec.ofNat 64 (v / 2 ^ 4128), payload := BitVec.ofNat 4096 (v / 2 ^ 32),
    crc := BitVec.ofNat 32 (leNat (be 4 (v % 2 ^ 32))), cwOk }

/-- The block passes its check. -/
def RxBlock.ok (b : RxBlock) : Bool := b.cwOk && crc32c (blockBytes b.hdr b.payload) == b.crc

/-! ### Frames (R114) -/

/-- The frame alignment word. -/
def fawWord : Nat := 0x5741494E41523031


/-- Its 484 bits, and back. -/
def Overhead.bits (o : Overhead) : Nat :=
  o.fseq % 4096 * 2 ^ 472 + o.cpos % 128 * 2 ^ 465 + o.mode % 4 * 2 ^ 463 + o.lane % 256 * 2 ^ 455 + o.slotId % 256 * 2 ^ 447
def Overhead.ofBits (v : Nat) : Overhead :=
  { fseq := Machine.bits v 483 472, cpos := Machine.bits v 471 465, mode := Machine.bits v 464 463, lane := Machine.bits v 462 455,
    slotId := Machine.bits v 454 447 }

/-- The 27,200 line bits of a frame from its overhead and six blocks, and the scrambler after it. -/
def frameBits (o : Overhead) (blocks : List Nat) (hist : Nat) : Nat × Nat :=
  let (s, hist) := scramble hist 25636 (o.bits * 2 ^ 25152 + ofSymbols 4192 blocks)
  let msg := fawWord * 2 ^ 25636 + s
  let words := (symbols 5140 5 msg).map fun v => let ss := symbols 10 514 v; ofSymbols 10 (ss ++ rsParity ss)
  (ofSymbols 5440 words, hist)

/-- Bits of the alignment word that a frame's line bits have wrong. -/
def fawDiff (line : Nat) : Nat := (members 64 (line / 2 ^ 27136 ^^^ fawWord)).length

/-- A decoded frame: its overhead unless its codeword is lost, its six blocks, the codewords corrected and not, the
descrambler after it. -/
structure FrameRx where
  ovh : Option Overhead
  blocks : List RxBlock
  corrected : Nat
  uncorrectable : Nat
  hist : Nat

/-- Decode a frame's line bits. -/
def decodeFrame (hist line : Nat) : FrameRx :=
  let cws := (symbols 5440 5 line).map fun v => let ss := symbols 10 544 v; (ss, rsDecode ss)
  let ok := cws.map fun x => x.2.isSome
  let msg := ofSymbols 5140 (cws.map fun x => ofSymbols 10 (((x.2.map (·.1)).getD x.1).take 514))
  let s := msg % 2 ^ 25636
  let v := descramble hist 25636 s
  let held (k : Nat) : Bool := (List.range 5).all fun c =>
    lget true ok c || decide (548 + 4192 * (k + 1) ≤ 5140 * c) || decide (5140 * (c + 1) ≤ 548 + 4192 * k)
  { ovh := if lget true ok 0 then some (Overhead.ofBits (v / 2 ^ 25152)) else none,
    blocks := (symbols 4192 6 v).zipIdx.map fun x => RxBlock.ofBits x.1 (held x.2),
    corrected := (cws.filter fun x => x.2.any (·.2)).length, uncorrectable := (ok.filter (!·)).length, hist := s % 2 ^ 58 }

end Sys2Proof.Machine
end

