-- ==== Sys2Proof/Machine/WainarLink.lean ====
section
/-! DEFINITION. Wainar Link: alignment, blocks, re-sends, slot word streams, reference descriptors, service messages, lane
bring-up and loss (chapter 04), and the same on the lanes of XL (R461). -/
namespace Sys2Proof.Machine

/-! ### Lanes and modes (R110, R142, R461) -/

/-- The link lane is one of XL. -/
def onXl (l : Nat) : Bool := decide (144 ≤ l)

/-- The serial lane that carries a link lane: WL lanes follow the ball, XL lanes their PHYS (R147, R153). -/
def serialOf (m : Mach) (l : Nat) : Nat :=
  if l < 144 then l
  else
    let first := 208 + (l - 144) / 8 * 8
    ((span first 8).find? fun k => (tget {} m.ln.lanes k : Lane).fitted && (tget {} m.ln.lanes k : Lane).phys == (l - 144) % 8).getD
      (first + (l - 144) % 8)



/-- Slots and calendar length of a mode. -/
def modeSlots (mode : Nat) : Nat := lget 2 [2, 2, 4, 8] mode
def modeCal (mode : Nat) : Nat := 12 * modeSlots mode

/-- The slot that owns a calendar position; none for a shared one. XL has no calendar (R119, R461). -/
def ownerOf (l mode cal : Nat) : Option Nat :=
  if onXl l || cal % 12 == 11 then none else some ((cal - cal / 12) % modeSlots mode)

/-- The next lower mode that a WL lane's board entry allows, the highest after the lowest (R142). -/
def nextMode (flags mode : Nat) : Nat :=
  let allowed := [3, 2, 1].filter fun k => bit flags (k + 2)
  (allowed.find? (· < mode)).getD (allowed.head?.getD 3)

/-- The highest mode that a lane's entry allows; XL lanes run WL-100 alone. -/
def firstMode (m : Mach) (l : Nat) : Nat := if onXl l then 3 else nextMode (lane m l).flags 0

/-- Service rate code of a mode (R148, R168), and the rate set that serves it. -/
def modeRate (mode : Nat) : Nat := mode + 2
def rateSetOf (rate : Nat) : Nat := if rate = 5 then 0 else if rate = 4 then 1 else 2

/-! ### Loss (R143) -/

/-- A lane is declared down: SEARCH in the same mode, every slot idle, the replay buffer emptied. -/
def laneDown (m : Mach) (l : Nat) : Mach :=
  let r := rx m l
  let was := r.st
  let m := setRx m l fun r =>
    { r with st := 1, fawRun := 0, fawMiss := 0, good := 0, bad := 0, modeAt := m.now, dvalid := false, trips := [], forRun := 0,
             ownRun := 0, echoRun := 0, held := [], blocks := [], sched := [], ident := false, identMsg := none,
             slots := tmap (fun _ q => { q with quiet := 64, expect := none, words := [], holes := [], errored := false }) r.slots }
  let m := setTx m l fun t => { t with replay := [], nacks := [], resends := [] }
  let m := setWlCnt m l fun c => { c with alignLoss := sat c.alignLoss 1 }
  let m := if onXl l then settleGrants m
    else if was = 5 then (span (8 * l) 8).foldl (fun m s => if (srcOf m s).present then sourceLost s m else m) m
    else m
  raise m (if onXl l then 0xB10 + serialOf m l else 0xA80 + l) 0x22 1

/-- WL_LANE_DOWN (R143): alignment is lost, or 64 consecutive positions held no block that passed. -/
def wlDown (l : Nat) (m : Mach) : Mach :=
  let r := rx m l
  if 2 ≤ r.st ∧ (4 ≤ r.fawMiss ∨ 64 ≤ r.bad) then laneDown m l else m

/-- The lane's recovery loop has lost lock, or the lane has been looped or re-timed: the receiver falls out (R156, R158). -/
def lockGone (m : Mach) (l : Nat) : Mach := if 2 ≤ (rx m l).st then laneDown m l else m

/-! ### Bring-up (R142) -/

/-- Queue a service message on a lane. -/
def queueSvc (m : Mach) (l cls msg : Nat) (bytes : List Byte) : Mach :=
  setTx m l fun t => { t with svc := t.svc ++ [{ cls, msg, bytes }] }

/-- A MSG number for a message of the module's. -/
def newMsg (m : Mach) : Nat × Mach :=
  let (f, m) := fresh m
  ((Config.serviceMsg f).toNat % 4096, m)

/-- The module's own transmitter on an XL lane is idle in Den, but for lane 0 of a bundle (R461, R484). -/
def txIdle (m : Mach) (l : Nat) : Bool := onXl l && (l - 144) % 8 != 0 && m.pwr.st == 2

/-- Enter UP: the link-down and mismatch conditions end. -/
def laneUp (m : Mach) (l : Nat) : Mach :=
  let src := if onXl l then 0xB10 + serialOf m l else 0xA80 + l
  let m := endCond (setRx m l fun r => { r with st := 5, forRun := 0, ownRun := 0, echoRun := 0 }) src 0x22
  if onXl l then settleGrants m else endCond m src 0x21

/-- The card agrees with the board table (R142): the card lane index of identify and of the frames, and the mode. -/
def cardAgrees (m : Mach) (l : Nat) : Bool :=
  let r := rx m l
  let c := (lane m l).clane
  (c == 255 || (r.clane == c && r.farLane == c)) && r.farMode == r.mode && bit (lane m l).flags (r.mode + 2)

/-- The transitions of R142 that have come due. -/
def advance (m : Mach) (l : Nat) : Mach :=
  let r := rx m l
  if r.st = 2 ∧ 16 ≤ r.good then
    let m := setRx m l fun r => { r with st := 3 }
    if onXl l then m
    else
      let (msg, m) := newMsg m
      queueSvc (setRx m l fun r => { r with identMsg := some msg }) l 4 msg []
  else if r.st = 3 ∧ onXl l then
    if r.dvalid then laneUp m l
    else
      let z := rx m (144 + (l - 144) / 8 * 8)
      if txIdle m l ∧ z.dvalid then laneUp (setRx m l fun r => { r with dvalid := true, delay := z.delay }) l else m
  else if r.st = 3 ∧ r.dvalid ∧ r.ident ∧ bit r.modes (r.mode - 1) then
    let m := setRx m l fun r => { r with st := 4 }
    if cardAgrees m l then laneUp m l else raise m (0xA80 + l) 0x21 1
  else if r.st = 4 ∧ cardAgrees m l then laneUp m l
  else m

/-- The lane is in a loopback: its receiver treats it as not locked (R158). -/
def looped (m : Mach) (l : Nat) : Bool := (lane m (serialOf m l)).loop != 0

/-- The positions of a frame and their blocks (R119). -/
def framePositions (mode fseq cpos at_ : Nat) : List RxPos :=
  (List.range 6).map fun k => { pos := (fseq + k) % 4096, cal := (cpos + k) % modeCal mode, at_ := at_ + k * tbU mode }

/-- Inversion on a lane (R153): PAM4 levels 0, 1, 2, 3 become 3, 2, 1, 0. -/
def turned (inv : Bool) (mode : Nat) (ls : List Nat) : List Nat := if inv then ls.map ((if mode = 3 then 3 else 1) - ·) else ls

/-- What drives a lane's transmit balls. -/
inductive BallOut where
  | idle
  | own
  | pattern
  | received
  deriving DecidableEq, Repr

/-- A lane's transmit balls (R158, R160): electrical idle in NES, but for KEEP_TX, and in NEP; the received data in FE. -/
def ballOut (x : Lane) : BallOut :=
  if !x.ready then .idle
  else match x.loop with
  | 0 => if x.gen then .pattern else .own
  | 1 => if !x.keepTx then .idle else if x.gen then .pattern else .own
  | 2 => .idle
  | _ => .received

/-- WL_FRAME_RECEIVE (R113 to R115): in SEARCH the alignment word alone counts; from ALIGN on the frame is decoded, and its
blocks wait for their checks. A lane looped far-end sends what it receives (R158). -/
def frameIn (l : Nat) (f : WlFrame) (m : Mach) : Mach :=
  let r := rx m l
  let x := lane m (serialOf m l)
  let levels := turned (bit x.flags 1) r.mode f.levels
  let line := bitsOf r.mode levels
  let ok := decide (fawDiff line ≤ 6)
  if looped m l then
    if ballOut x = .received then setTx m l fun t => { t with ball := turned (bit x.flags 0) r.mode levels } else m
  else if r.st = 0 then m
  else if r.st = 1 then
    let run := if ok then r.fawRun + 1 else 0
    setRx m l fun r => { r with fawRun := run, fawMiss := 0, good := 0, bad := 0, st := if 3 ≤ run then 2 else 1,
                                scr := line / 2 ^ 300 % 2 ^ 58, blocks := [], sched := [] }
  else
    let d := decodeFrame r.scr line
    let m := setWlCnt m l fun c => { c with cwCorr := sat c.cwCorr d.corrected, cwUncorr := sat c.cwUncorr d.uncorrectable }
    let m := setTx m l fun t => { t with cwCorr := (t.cwCorr + d.corrected) % 2 ^ 32, cwUnc := (t.cwUnc + d.uncorrectable) % 2 ^ 32 }
    let m := setRx m l fun r => match d.ovh with
      | none => { r with fseq := (r.fseq + 6) % 4096, cpos := (r.cpos + 6) % modeCal r.mode }
      | some o => { r with fseq := o.fseq, cpos := o.cpos, farLane := o.lane, slotId := o.slotId, farMode := o.mode }
    let ps := framePositions r.mode (rx m l).fseq (rx m l).cpos f.at_
    advance (setRx m l fun r => { r with
      fawMiss := if ok then 0 else r.fawMiss + 1, frameAt := f.at_, scr := d.hist, sched := r.sched ++ ps,
      blocks := r.blocks ++ (ps.zip d.blocks).map fun x => { at_ := x.1, blk := x.2 } }) l

/-- WL_MODE_TRY_TIMEOUT (R6, R142, R143): 2 ms in a mode without reaching UP; a card that disagrees keeps the lane in IDENT. -/
def modeTimeout (l : Nat) (m : Mach) : Mach :=
  let r := rx m l
  if r.st = 0 ∨ 4 ≤ r.st ∨ m.now ≤ r.modeAt + 2 * msT ∨ onXl l then m
  else
    let mode := nextMode (lane m l).flags r.mode
    let m := setRx m l fun r =>
      { r with st := 1, mode, modeAt := m.now, fawRun := 0, fawMiss := 0, good := 0, bad := 0, dvalid := false, trips := [], held := [],
               blocks := [], sched := [], ident := false, identMsg := none }
    if mode = r.mode then m
    else
      let m := setTx m l fun t => { t with frame := [], cal := 0 }
      setLane m l fun x => { x with toRate := some (modeRate mode), lock := false }

/-! ### Receiving blocks (R116 to R118, R127 to R129, R137, R141) -/

/-- Fields of a block header (R117). -/
structure Hd where
  seq : Nat
  typ : Nat
  claim : Nat
  nack : Option Nat
  resend : Bool
  rxUp : Bool
  deriving DecidableEq, Repr

def hdOf (h : BitVec 64) : Hd :=
  let n := h.toNat
  { seq := bits n 63 52, typ := bits n 51 48, claim := bits n 47 16, nack := if bit n 15 then some (bits n 14 3) else none,
    resend := bit n 2, rxUp := bit n 1 }

def Hd.word (h : Hd) : BitVec 64 :=
  BitVec.ofNat 64 (h.seq % 4096 * 2 ^ 52 + h.typ % 16 * 2 ^ 48 + h.claim % 2 ^ 32 * 2 ^ 16 + b2n h.nack.isSome * 2 ^ 15
    + h.nack.getD 0 % 4096 * 2 ^ 3 + b2n h.resend * 4 + b2n h.rxUp * 2)

/-- Types that carry something on a lane (R118, R461). -/
def typeKnown (l typ : Nat) : Bool := if onXl l then typ == 0 || (decide (4 ≤ typ) && decide (typ ≤ 7)) else decide (typ ≤ 3)

/-- Queued re-sends that will take owned positions, from a calendar position on. -/
def ownedAhead (l mode cal n : Nat) : Nat :=
  ((List.range n).filter fun i => (ownerOf l mode ((cal + i) % modeCal mode)).isSome).length

/-- A NACK that passed its check (R129, R130). -/
def takeNack (l pos : Nat) (m : Mach) : Mach :=
  let t := tx m l
  let m := setWlCnt m l fun c => { c with nackRx := sat c.nackRx 1 }
  match t.replay.find? fun b => b.pos == pos with
  | none => setWlCnt m l fun c => { c with nackStale := sat c.nackStale 1 }
  | some b =>
    if b.resend ∨ b.served then setWlCnt m l fun c => { c with nackStale := sat c.nackStale 1 }
    else if 2 < t.disp + ownedAhead l (rx m l).mode t.cal (t.resends.length + 1) then
      setWlCnt m l fun c => { c with resendSkip := sat c.resendSkip 1 }
    else setTx m l fun t => { t with resends := t.resends ++ [pos],
                                     replay := t.replay.map fun b => if b.pos = pos then { b with served := true } else b }

/-- FOREIGN (R141) and the run of own echoes (R466), from a good upstream block's echo. -/
def echoIn (m : Mach) (l claim : Nat) : Mach :=
  let own := m.pr.slotId % 256
  let away := claim / 2 ^ 28 != 0 && claim % 256 != own
  let home := claim == 0 || claim % 256 == own
  setRx m l fun r =>
    let forRun := if away then r.forRun + 1 else 0
    let ownRun := if home then r.ownRun + 1 else 0
    { r with forRun, ownRun, echoRun := if claim != 0 && claim % 256 == own then r.echoRun + 1 else 0,
             foreign := if 8 ≤ forRun then true else if 8 ≤ ownRun then false else r.foreign }

/-- The round trip in ps that an idle-echo measures (R137): its arrival less the start of position ESEQ at the module's ball
less EOFF; none once that start is forgotten. -/
def tripOf (m : Mach) (l at_ : Nat) (payload : BitVec 4096) : Option Nat :=
  let p := payload.toNat
  ((tx m l).starts.find? fun x => x.1 == bits p 4095 4084).map fun x =>
    ((at_ - x.2) - bits p 4083 4068 * tbU (rx m l).mode / 65536) * 1000 / nsU

/-- A round trip in ps: the delay is half the mean of the last 64 (R137). -/
def tripIn (m : Mach) (l trip : Nat) : Mach :=
  setRx m l fun r =>
    let trips := (trip :: r.trips).take 64
    let full := trips.length == 64
    { r with trips, dvalid := r.dvalid || full, delay := if full then trips.foldl (· + ·) 0 / 128 else r.delay }

/-- The block that is checked: the one given, or the oldest received. -/
def takeBlock (m : Mach) (l : Nat) : Option WlBlock → Option (WlBlock × Mach)
  | some b => some (b, m)
  | none => match (rx m l).blocks with
    | [] => none
    | b :: bs => some (b, setRx m l fun r => { r with blocks := bs })

/-- WL_BLOCK_RECEIVE (R116 to R118, R127 to R129, R137, R141, R142). The receiver acts on no field of a block that fails,
but never answers a re-send with a NACK (R128). A failed block breaks the runs of R141 and R466 (Assumption 47). A copy
that comes after its position's release is of no use (R127). -/
def blockIn (l : Nat) (c : Option WlBlock) (m : Mach) : Mach :=
  let r := rx m l
  if r.st < 2 ∨ looped m l then m
  else match takeBlock m l c with
  | none => m
  | some (b, m) =>
    let h := hdOf b.blk.hdr
    if !b.blk.ok then
      let m := setWlCnt m l fun c => { c with chkFail := sat c.chkFail (b2n !h.resend) }
      let m := setRx m l fun r => { r with good := 0, bad := r.bad + 1, forRun := 0, ownRun := 0, echoRun := 0 }
      if r.st = 5 ∧ !h.resend ∧ !txIdle m l then setTx m l fun t => { t with nacks := t.nacks ++ [b.at_.pos] } else m
    else
      let m := setRx m l fun r => { r with good := r.good + 1, bad := 0, farUp := h.rxUp, echo := BitVec.ofNat 32 h.claim }
      let m := match h.nack with
        | some p => if r.st = 5 then takeNack l p m else m
        | none => m
      let m := if typeKnown l h.typ then m else setWlCnt m l fun c => { c with badType := sat c.badType 1 }
      let m := match (if h.typ = 0 then tripOf m l b.at_.at_ b.blk.payload else none) with
        | some t => tripIn m l t
        | none => m
      let m := if r.st = 5 ∧ !onXl l then echoIn m l h.claim else m
      let m := if 3 ≤ r.st ∧ (rx m l).sched.any (fun p => p.pos == h.seq) then
          setRx m l fun r => if r.held.any fun b => b.pos == h.seq && b.good.isSome then r
            else { r with held := (r.held.filter fun b => b.pos != h.seq) ++
                                  [{ pos := h.seq, good := some (b.blk.hdr, b.blk.payload), resent := h.resend }] }
        else m
      let m := advance m l
      if onXl l then settleGrants m else echoCheck (foreignDemotion m)

/-! ### The slot word stream (R121, R122, R132) -/

/-- Words of 10 bits, first word first. -/
def wordsOf (n v : Nat) : List Nat := (List.range n).map fun i => v / 2 ^ (10 * (n - 1 - i)) % 1024

/-- Some word of a range is missing. -/
def torn (holes : List (Nat × Nat)) (a n : Nat) : Bool := holes.any fun h => decide (h.1 < a + n) && decide (a < h.1 + h.2)

/-- The next entry of an ancillary area whose data flag came whole, from word `a` on. -/
def nextEntry (ws : List Nat) (holes : List (Nat × Nat)) (b : Nat) : Nat → Nat → Option Nat
  | 0, _ => none
  | fuel + 1, a =>
    if b < a + 9 then none
    else if !torn holes a 8 && (ws.drop (a + 2)).take 3 == [0, 0x3FF, 0x3FF] then some a
    else nextEntry ws holes b fuel (a + 1)

/-- The ancillary packets of a record's area, which words `a` to `b` hold, from the DID on; those with missing words are
deleted and counted, a torn header as one packet up to the next whole data flag (R95, R121, Assumption 21). -/
def ancArea (ws : List Nat) (holes : List (Nat × Nat)) (b : Nat) : Nat → Nat → List Anc × Nat
  | 0, _ => ([], 0)
  | fuel + 1, a =>
    if b < a + 9 then ([], 0)
    else if torn holes a 8 then
      match nextEntry ws holes b ws.length (a + 1) with
      | some a' => let (rest, lost) := ancArea ws holes b fuel a'; (rest, lost + 1)
      | none => ([], 1)
    else
      let n := 7 + lget 0 ws (a + 7) % 256
      let (rest, lost) := ancArea ws holes b fuel (a + 2 + n)
      if torn holes a (2 + n) then (rest, lost + 1)
      else ({ pos := lget 0 ws a % 16 * 1024 + lget 0 ws (a + 1) % 1024, words := (ws.drop (a + 5)).take (n - 3) } :: rest, lost)

/-- A whole record taken apart: its active words, which are its last, its packets, what is missing (R121). -/
def recordLine (line active at_ : Nat) (ws : List Nat) (holes : List (Nat × Nat)) : LineIn :=
  let a := ws.length - active
  let (anc, ancLost) := ancArea ws holes a ws.length 2
  let cut := holes.filterMap fun h =>
    let s := max h.1 a
    if h.1 + h.2 ≤ s then none else some (s - a, h.1 + h.2 - s)
  { line, words := ws.drop a, anc, holes := cut, ancLost, at_ := some at_ }

/-- The raster that a source's records follow: the format its frames last had. -/
def rasterOf (m : Mach) (s : Nat) : SrcFmt := ((srcOf m s).lastSig).getD (srcOf m s).fmt

/-- Active words of a raster line. -/
def activeWords (f : SrcFmt) (line : Nat) : Nat :=
  match lineRow f.total f.lines f.scan line with
  | some _ => 2 * f.samples
  | none => 0

/-- The record in progress lacks its first two words: its length is not known from them (R132). -/
def RxSlot.blind (q : RxSlot) : Bool := torn q.holes 0 2

/-- Words of the record in progress, once its first two have come whole. -/
def recordLen (f : SrcFmt) (q : RxSlot) : Option Nat :=
  if q.words.length < 2 ∨ q.blind then none
  else some (2 + (lget 0 q.words 0 % 16 * 1024 + lget 0 q.words 1 % 1024) + activeWords f q.line)

/-- The record is complete: it waits for the input stage, and the next line's begins. -/
def closeRecord (f : SrcFmt) (q : RxSlot) : RxSlot :=
  { q with done := q.done ++ [recordLine q.line (activeWords f q.line) q.at_ q.words q.holes], words := [], holes := [],
           line := if q.line < f.total then q.line + 1 else 1 }

/-- Words join the record in progress, each record closing as it fills; `at_` is the start of the position that brought
them, the arrival of every line that begins among them (R125). A record of unknown length takes them all. -/
def feedWords (f : SrcFmt) (at_ : Nat) : Nat → RxSlot → List Nat → RxSlot
  | 0, q, _ => q
  | _, q, [] => q
  | fuel + 1, q, w :: ws =>
    let q := if q.words.isEmpty then { q with at_ } else q
    if q.blind then { q with words := q.words ++ w :: ws }
    else match recordLen f q with
      | none =>
        let q := { q with words := q.words ++ [w] }
        feedWords f at_ fuel (if recordLen f q = some 2 then closeRecord f q else q) ws
      | some n =>
        let need := n - q.words.length
        if ws.length + 1 < need then { q with words := q.words ++ w :: ws }
        else feedWords f at_ fuel (closeRecord f { q with words := q.words ++ (w :: ws).take need }) ((w :: ws).drop need)

/-- Fill the record in progress with missing words up to a length. -/
def RxSlot.fill (q : RxSlot) (n at_ : Nat) : RxSlot :=
  if n ≤ q.words.length then q
  else { q with words := q.words ++ List.replicate (n - q.words.length) 0, holes := q.holes ++ [(q.words.length, n - q.words.length)],
                at_ := if q.words.isEmpty then at_ else q.at_ }

/-- The stream goes on at the line and offset of the next good block: what lies between is missing (R132). A record of
unknown length whose stream came whole ends where the next line's offset shows that it does. -/
def skipTo (f : SrcFmt) (line off at_ : Nat) : Nat → RxSlot → RxSlot
  | 0, q => q
  | fuel + 1, q =>
    if q.line = line ∧ q.words.length ≤ off then q.fill off at_
    else
      let next := if q.line < f.total then q.line + 1 else 1
      let k := q.words.length - off
      if q.blind ∧ !q.errored ∧ next = line ∧ activeWords f q.line + 2 ≤ k then
        { closeRecord f { q with words := q.words.take k } with words := q.words.drop k, at_ }
      else
        let n := (recordLen f q).getD (max q.words.length (2 + activeWords f q.line))
        skipTo f line off at_ fuel (closeRecord f (q.fill n at_))

/-- A good stream block of an upstream slot, from a position that began at `at_` (R111, R121, R122, R125, R132). -/
def streamIn (l slot at_ : Nat) (payload : BitVec 4096) (m : Mach) : Mach :=
  let p := payload.toNat
  let s := 8 * l + slot
  let r := rx m l
  let rclass := bits p 4054 4053
  if rclass = 3 ∧ r.mode = 1 then
    raise (setRx m l fun r => { r with segOver := if bit r.segOver slot then r.segOver else r.segOver + 2 ^ slot,
                                       slots := tmod {} r.slots slot fun q => { q with quiet := 0 } }) s 0x20 1
  else
    let f := rasterOf m s
    let line := bits p 4090 4078
    let off := bits p 4077 4064
    let count := min 400 (bits p 4063 4055)
    let ws := (wordsOf 400 (p % 2 ^ 4000)).take count
    let m := if bit r.segOver slot then endCond (setRx m l fun r => { r with segOver := r.segOver - 2 ^ slot }) s 0x20 else m
    setRx m l fun r => { r with slots := tmod {} r.slots slot fun q =>
      let q := { q with quiet := 0, rclass }
      if f.total = 0 then { q with expect := some (line, off + count), errored := false }
      else
        let q := if q.expect.isNone then ({ q with line, words := [], holes := [] } : RxSlot).fill off at_
          else skipTo f line off at_ (f.total + 1) q
        let q := feedWords f at_ (2 * count + 2) q ws
        { q with expect := some (q.line, q.words.length), errored := false } }

/-! ### Reference descriptors (R133, R134) -/

/-- One record of 256 bits, received in a position: its event lies SOFF after the start of SPOS at the module's ball, less
the one-way delay (R134). -/
def refOf (m : Mach) (l : Nat) (p : RxPos) (v : Nat) : RefRec :=
  let spos := bits v 167 156
  let soff := bits v 155 140
  let tb := tbU (rx m l).mode
  { lane := l, refid := bits v 251 248, kind := bits v 255 252, ql := bits v 247 244, present := bit v 243, cardHold := bit v 242,
    stale := bit v 241, pnum := bits v 239 208, pden := bits v 207 200, event := bits v 199 168, spos, soff, came := m.now,
    at_ := stampOf <| (p.at_ : Int) - ((p.pos + 4096 - spos) % 4096 * tb + (rx m l).delay * nsU / 1000 : Nat) + (soff * tb / 65536 : Nat) }

/-- The records of a good block join those whose events are to come; where a block that may have held a record of the
reference was lost since its last one, the events between were lost with it (R134, Assumption 21). -/
def refsIn (l : Nat) (p : RxPos) (payload : BitVec 4096) (m : Mach) : Mach :=
  (List.range 16).foldl (fun m i =>
    let r := refOf m l p (payload.toNat / 2 ^ (256 * (15 - i)) % 2 ^ 256)
    if r.kind = 0 then m
    else
      let key := 16 * l + r.refid
      let gap := match tget? key m.wl.refs with
        | some o => if o.hurt then (r.event + 2 ^ 32 - o.event) % 2 ^ 32 - 1 else 0
        | none => 0
      let m := setWlCnt m l fun c => { c with refDrop := sat c.refDrop (if gap < 2 ^ 31 then gap else 0) }
      { m with wl := { m.wl with refs := tset m.wl.refs key r, refQ := (m.wl.refQ ++ [r]).drop (m.wl.refQ.length + 1 - 1024) } }) m

/-- A block that may have held reference records is lost. -/
def refsLost (l : Nat) (m : Mach) : Mach :=
  { m with wl := { m.wl with refs := tmap (fun k r => if k / 16 = l then { r with hurt := true } else r) m.wl.refs } }

/-! ### Service messages (R135, R136, R433, R434) -/

/-- An identify response (R136). -/
def identIn (l : Nat) (b : List Byte) (m : Mach) : Mach :=
  if b.length < 32 then m
  else advance (setRx m l fun r => { r with ident := true, identMsg := none, maker := beNat (b.take 2), ctype := beNat (sub b 2 2),
                                            modes := beNat (sub b 4 1) % 8, lanes := beNat (sub b 5 1), clane := beNat (sub b 6 1) }) l

/-- The response that a waiting SVC_SEND asked for: written to its region, the command answers DONE (R433). -/
def svcAnswer (w : SvcWait) (b : List Byte) (timeout : Bool) (m : Mach) : Mach :=
  let m := { m with ctl := { m.ctl with svc := m.ctl.svc.filter fun x => !(x.ses == w.ses && x.hseq == w.hseq) } }
  let m := putSalvo m w.ses w.off (b.take w.max)
  postFinal m w.ses 0x0340 w.hseq sDone (layout [.w b.length, .b (b2n timeout + 2 * b2n (decide (w.max < b.length)))]) 1

/-- A message that no one asked for (R434). -/
def svcDrop (m : Mach) (l : Nat) : Mach := setWlCnt m l fun c => { c with svcDrop := sat c.svcDrop 1 }

/-- A whole message has arrived on a lane. -/
def svcMessage (l cls msg : Nat) (b : List Byte) (m : Mach) : Mach :=
  match cls with
  | 2 =>
    if (rx m l).identMsg = some msg then identIn l b m
    else match m.ctl.svc.find? fun w => w.lane == l && w.msg == msg with
      | some w => if live m w.ses then svcAnswer w b false m else svcDrop m l
      | none => svcDrop m l
  | 3 =>
    event m 0x0070 6 (le 1 l ++ le 1 (b2n (decide (40 < b.length))) ++ le 2 msg ++ le 4 b.length ++ b.take 40)
  | _ => m

/-- A fragment arrives: in order it joins its message, out of order the message is discarded, once for all its fragments
(R135). -/
def svcIn (l : Nat) (payload : BitVec 4096) (m : Mach) : Mach :=
  let p := payload.toNat
  let h := p / 2 ^ 4032
  let cls := bits h 63 60
  let msg := bits h 59 48
  let frag := bits h 47 40
  let len := min 504 (bits h 31 23)
  let data := (be 504 (p % 2 ^ 4032)).take len
  if 4 < cls then m
  else
    let q : SvcRx := tget {} (rx m l).svc cls
    let set (m : Mach) (q : SvcRx) : Mach := setRx m l fun r => { r with svc := tset r.svc cls q }
    let last := bit h 39
    let next := q.busy && q.msg == msg && q.frag == frag
    let m := if q.busy && !next then svcDrop (set m {}) l else m
    if next ∨ frag = 0 then
      let bytes := (if next then q.bytes else []) ++ data
      if last then svcMessage l cls msg bytes (set m {})
      else set m { msg, frag := frag + 1, busy := true, bytes }
    else
      let known := q.dead == some msg || (q.busy && q.msg == msg)
      set (if known || q.busy then m else svcDrop m l) { dead := if last then none else some msg }

/-! ### Release (R127, R132) -/

/-- The release instant of a position has come: its scheduled end plus 6.75 block times (R127). -/
def releaseDue (m : Mach) (l : Nat) (p : RxPos) : Bool := decide (4 * p.at_ + 31 * tbU (rx m l).mode < 4 * (m.dt.t + 2 * nsU))

/-- WL_BLOCK_RELEASE: the oldest position's block is delivered good, errored or absent at its release instant. -/
def blockRelease (l : Nat) (m : Mach) : Mach :=
  let r := rx m l
  match r.sched with
  | [] => m
  | p :: ps =>
    if r.st < 3 ∨ !releaseDue m l p then m
    else
      let found := r.held.find? fun b => b.pos == p.pos
      let m := setRx m l fun r => { r with sched := ps, held := r.held.filter fun b => b.pos != p.pos }
      let owner := ownerOf l r.mode p.cal
      let noStream (m : Mach) : Mach := match owner with
        | some k => setRx m l fun r => { r with slots := tmod {} r.slots k fun q => { q with quiet := min 64 (q.quiet + 1) } }
        | none => m
      match found.bind fun b => b.good.map fun g => (b.resent, g) with
      | some (resent, hdr, payload) =>
        let m := if resent then setWlCnt m l fun c => { c with resendOk := sat c.resendOk 1 } else m
        if onXl l then m
        else match (hdOf hdr).typ with
          | 1 =>
            let k := bits payload.toNat 4095 4093
            if r.st = 5 ∧ k < modeSlots r.mode then streamIn l k p.at_ payload m else noStream m
          | 2 => noStream (refsIn l p payload m)
          | 3 => noStream (svcIn l payload m)
          | _ => noStream m
      | none =>
        match owner with
        | none => refsLost l m
        | some k =>
          let m := setWlCnt m l fun c => { c with blkErr := sat c.blkErr 1 }
          let m := setTx m l fun t => { t with blkErr := (t.blkErr + 1) % 2 ^ 32 }
          noStream (setRx m l fun r => { r with slots := tmod {} r.slots k fun q => { q with errored := true } })

/-- WL_SLOT_IDLE (R126): 64 owned positions without a stream block, or a lane that is not UP; idle counts for R97. -/
def slotIdle (l k : Nat) (m : Mach) : Mach :=
  let r := rx m l
  let q : RxSlot := tget {} r.slots k
  if r.st = 5 ∧ q.quiet < 64 then m
  else sourceLost (8 * l + k) (setRx m l fun r => { r with slots := tmod {} r.slots k fun q => { q with expect := none, words := [], holes := [] } })

/-! ### Sending (R119, R120, R122, R124, R129, R130, R135, R137, R138) -/

/-- The claim word a block carries: ROLE 0 on WL while a drill's self-test runs (R138, R483). -/
def sentClaim (m : Mach) (l : Nat) : Nat := if m.pr.drilling && !onXl l then claimWordAs m 0 else claimWord m

/-- The latest position whose start has been received when a block begins at `at_`, and the interval since in units of
*T*b / 65,536 (R137). -/
def echoPos (m : Mach) (l at_ : Nat) : Nat × Nat :=
  let r := rx m l
  let tb := max 1 (tbU r.mode)
  let k := min 5 ((at_ - r.frameAt) / tb)
  ((r.fseq + k) % 4096, (at_ - r.frameAt - k * tb) * 65536 / tb)

/-- An idle-echo payload of a block that begins at `at_` (R137). -/
def idlePayload (m : Mach) (l at_ : Nat) : BitVec 4096 :=
  let t := tx m l
  let (eseq, eoff) := echoPos m l at_
  BitVec.ofNat 4096 (eseq % 4096 * 2 ^ 4084 + eoff % 65536 * 2 ^ 4068 + (rx m l).st * 2 ^ 4064 + t.cwCorr % 2 ^ 32 * 2 ^ 4032
    + t.cwUnc % 2 ^ 32 * 2 ^ 4000 + t.blkErr % 2 ^ 32 * 2 ^ 3968)

/-- Drop the records that `n` words from the stream's head complete. -/
def dropRecs : Nat → Nat → List TxRec → Nat × List TxRec
  | off, n, [] => (off + n, [])
  | off, n, x :: xs => if x.len - off ≤ n then dropRecs 0 (n - (x.len - off)) xs else (off + n, x :: xs)

/-- Line of the first record that starts within `n` words of the head, if one does. -/
def startsIn (off n : Nat) (recs : List TxRec) : List TxRec :=
  (recs.foldl (fun (a : Nat × List TxRec) x => (a.1 + x.len, if off ≤ a.1 ∧ a.1 < off + n then a.2 ++ [x] else a.2)) (0, [])).2

/-- TOFF: a line's slot instant less the start of its block's position, in units of *T*b / 1,024 (R124). -/
def toffOf (mode at_ : Nat) (x : TxRec) : Int := (x.instant - at_) * 1024 / (max 1 (tbU mode) : Nat)

/-- A slot's next stream block, scheduled in a position that begins at `at_`: its payload, and the slot after it (R122,
R124). -/
def streamOut (mode k : Nat) (q : TxSlot) (at_ : Nat) : BitVec 4096 × TxSlot :=
  let n := min 400 q.words.length
  let first := q.recs.head?.getD { line := 1, len := 0, frame := q.frame }
  let starts := startsIn q.offset n q.recs
  let ws := q.words.take n
  let body := ws.foldl (fun a w => a * 1024 + w % 1024) 0 * 2 ^ (10 * (400 - n))
  let (off, recs) := dropRecs q.offset n q.recs
  (BitVec.ofNat 4096 (k % 8 * 2 ^ 4093 + b2n (starts.any fun x => x.line == 1) * 2 ^ 4092 + first.line % 2 ^ 13 * 2 ^ 4078
      + q.offset % 2 ^ 14 * 2 ^ 4064 + n * 2 ^ 4055 + q.rclass % 4 * 2 ^ 4053 + first.frame % 65536 * 2 ^ 4032
      + ((starts.head?.map fun x => toBits 16 (toffOf mode at_ x)).getD 0) * 2 ^ 4016 + body),
    { q with words := q.words.drop n, offset := off, recs })

/-- The block that the calendar schedules in an owned position (R120). Words of a 12G stream never leave on a lane in
WL-25 (R111). -/
def scheduled (m : Mach) (l k at_ : Nat) : (Nat × BitVec 4096) × Mach :=
  let q : TxSlot := tget {} (tx m l).slots k
  let mode := (rx m l).mode
  if mode = 1 ∧ q.rclass = 3 then
    ((0, idlePayload m l at_), setTx m l fun t => { t with slots := tset t.slots k { frame := q.frame, rclass := 3 } })
  else if q.words.isEmpty ∨ 3 ≤ m.pwr.st then ((0, idlePayload m l at_), m)
  else
    let (p, q) := streamOut mode k q at_
    ((1, p), setTx m l fun t => { t with slots := tset t.slots k q })

/-- The next fragment of pending service, if any (R135). -/
def svcOut (m : Mach) (l : Nat) : Option (BitVec 4096 × Mach) :=
  match (tx m l).svc with
  | [] => none
  | x :: xs =>
    let data := x.bytes.take 504
    let rest := x.bytes.drop 504
    let last := rest.isEmpty
    let head := x.cls % 16 * 2 ^ 60 + x.msg % 4096 * 2 ^ 48 + x.frag % 256 * 2 ^ 40 + b2n last * 2 ^ 39 + data.length * 2 ^ 23
    let p := BitVec.ofNat 4096 (head * 2 ^ 4032 + beNat (padTo 0 504 data))
    some (p, setTx m l fun t => { t with svc := if last then xs else { x with frag := x.frag + 1, bytes := rest } :: xs })

/-- The block of a position joins the frame being sent; the sixth completes it: overhead, scrambler, code (R113, R114). What
reaches the balls is as R153 and R158 give. -/
def frameOut (m : Mach) (l : Nat) (hdr : BitVec 64) (payload : BitVec 4096) (t : WlTx) : WlTx :=
  let ovh : Overhead := if t.frame.isEmpty then
      { fseq := t.pos, cpos := if onXl l then 0 else t.cal, mode := (rx m l).mode, lane := if onXl l then (l - 144) % 8 else l,
        slotId := m.sys.slotId }
    else t.ovh
  let frame := t.frame ++ [blockBits hdr payload]
  if frame.length < 6 then { t with ovh, frame }
  else
    let (sent, scr) := frameBits ovh frame t.scr
    let x := lane m (serialOf m l)
    let ball := match ballOut x with
      | .own => turned (bit x.flags 0 && x.loop == 0) (rx m l).mode (levelsOf (rx m l).mode sent)
      | .received => t.ball
      | _ => []
    { t with ovh, frame := [], sent, scr, ball }

/-- A block leaves in the position that begins at `at_`: header completed, kept for re-sending, the position advanced. Its
claim is the one that stood at the position before, at least one block time old (R138). -/
def emit (l at_ seq typ : Nat) (payload : BitVec 4096) (resend : Bool) (m : Mach) : Mach :=
  let t := tx m l
  let nack := t.nacks.head?
  let hdr := ({ seq, typ, claim := t.claim, nack, resend, rxUp := (rx m l).st == 5 } : Hd).word
  let m := setWlCnt m l fun c => { c with nackTx := sat c.nackTx (b2n nack.isSome), resendTx := sat c.resendTx (b2n resend) }
  setTx m l fun t => { frameOut m l hdr payload t with
    pos := (t.pos + 1) % 4096, cal := (t.cal + 1) % modeCal (rx m l).mode, nacks := t.nacks.drop 1, lastHdr := hdr, lastPay := payload,
    claim := sentClaim m l, starts := ((t.pos, at_) :: t.starts).take 256,
    replay := ({ pos := t.pos, hdr, payload, resend } :: t.replay).take 16 }

/-- The lane's transmitter runs. -/
def transmits (m : Mach) (l : Nat) : Bool := (lane m (serialOf m l)).ready && !txIdle m l

/-- The oldest late block goes out; an idle-echo is measured anew, and numbered by the position it first goes out in (R120). -/
def sendLate (m : Mach) (l at_ : Nat) (extra : List (BitVec 64 × BitVec 4096)) (disp : Nat) : Mach :=
  match (tx m l).late ++ extra with
  | [] => m
  | (h, p) :: rest =>
    let m := setTx m l fun t => { t with late := rest, disp }
    if (hdOf h).typ = 0 then emit l at_ (tx m l).pos 0 (idlePayload m l at_) false m
    else emit l at_ (hdOf h).seq (hdOf h).typ p false m

/-- The payload of a heartbeat block (R462). -/
def beatPayload (x : Beat) : BitVec 4096 :=
  BitVec.ofNat 4096 (x.claim % 2 ^ 32 * 2 ^ 4064 + x.st % 16 * 2 ^ 4060 + x.qlout % 16 * 2 ^ 4056 + b2n x.tvalid * 2 ^ 4055
    + b2n x.fit * 2 ^ 4054 + b2n x.stale * 2 ^ 4053 + b2n x.wakeFail * 2 ^ 4052 + x.t / secU % 2 ^ 48 * 2 ^ 4000
    + x.t % secU / nsU * 2 ^ 3970 + x.epoch % 2 ^ 64 * 2 ^ 3904 + x.jseq % 2 ^ 64 * 2 ^ 3840 + x.save % 2 ^ 32 * 2 ^ 3808
    + x.rxA % 256 * 2 ^ 3800 + x.rxB % 256 * 2 ^ 3792)

/-- WL_POSITION_TRANSMIT (R120, R129, R130, R142, R462): exactly one block leaves in the position that begins at `at_`. A
shared position carries service from SYNC on. A heartbeat that waits goes first, its time the position's start. -/
def positionOut (l at_ : Nat) (m : Mach) : Mach :=
  if !transmits m l then m
  else if (tx m l).beatDue then
    emit l at_ (tx m l).pos 4 (beatPayload { m.pr.sent with t := at_ }) false (setTx m l fun t => { t with beatDue := false })
  else
    let t := tx m l
    let owner := ownerOf l (rx m l).mode t.cal
    let block (typ : Nat) (p : BitVec 4096) : BitVec 64 × BitVec 4096 :=
      (({ seq := t.pos, typ, claim := 0, nack := none, resend := false, rxUp := false } : Hd).word, p)
    match t.resends with
    | p :: ps =>
      let m := setTx m l fun t => { t with resends := ps }
      let m := match owner with
        | some k =>
          let ((typ, pay), m) := scheduled m l k at_
          setTx m l fun t => { t with late := t.late ++ [block typ pay], disp := t.disp + 1 }
        | none => m
      match t.replay.find? fun b => b.pos == p with
      | some b => emit l at_ (hdOf b.hdr).seq (hdOf b.hdr).typ b.payload true m
      | none => emit l at_ t.pos 0 (idlePayload m l at_) false m
    | [] =>
      match owner with
      | some k =>
        let ((typ, pay), m) := scheduled m l k at_
        sendLate m l at_ [block typ pay] t.disp
      | none =>
        if 0 < t.disp then sendLate m l at_ [] (t.disp - 1)
        else match (if (rx m l).st < 3 then none else svcOut m l) with
          | some (p, m) => emit l at_ t.pos 3 p false m
          | none => emit l at_ t.pos 0 (idlePayload m l at_) false m

/-! ### SVC_SEND (R433) -/

/-- SVC_SEND: a read or control message of 1 to 129,024 bytes (R135). -/
def askSvcSend (n hseq l cls len off roff rmax timeout : Nat) (m : Mach) : QRes :=
  if 143 < l ∨ 1 < cls ∨ len = 0 ∨ 129024 < len ∨ timeout = 0 ∨ 10000 < timeout then .arg
  else
    let (msg, m) := newMsg m
    let w : SvcWait := { ses := n, hseq, lane := l, msg, deadline := m.now + timeout * msT, off := roff, max := rmax }
    .accept (queueSvc { m with ctl := { m.ctl with svc := m.ctl.svc ++ [w] } } l cls msg (salvo m n off len))

/-- SVC_SEND_TIMEOUT (R6, R433). -/
def svcTimeout (n hseq : Nat) (m : Mach) : Mach :=
  match m.ctl.svc.find? fun w => w.ses == n && w.hseq == hseq with
  | some w => if w.deadline < m.now then svcAnswer w [] true m else m
  | none => m

/-- WL_FRAME_RECEIVE (R115). -/
def execWlFrameReceive (lane : Nat) (f : WlFrame) := runIf (lane < 160) (frameIn lane f)
/-- WL_BLOCK_RECEIVE (R116). -/
def execWlBlockReceive (lane : Nat) (block : Option WlBlock) := runIf (lane < 160) (blockIn lane block)
/-- WL_POSITION_TRANSMIT (R120). -/
def execWlPositionTransmit (lane at_ : Nat) := runIf (lane < 160) (positionOut lane at_)
/-- WL_BLOCK_RELEASE (R127). -/
def execWlBlockRelease (lane : Nat) := runIf (lane < 160) (blockRelease lane)
/-- WL_SLOT_IDLE (R126). -/
def execWlSlotIdle (lane slot : Nat) := runIf (lane < 144 && slot < 8) (slotIdle lane slot)
/-- WL_LANE_DOWN (R143). -/
def execWlLaneDown (lane : Nat) := runIf (lane < 160) (wlDown lane)

/-- SVC_SEND_TIMEOUT (R433). -/
def execSvcSendTimeout (ses hseq : Nat) := runIf (ses < 64) (svcTimeout ses hseq)

end Sys2Proof.Machine
end

