-- ==== Sys2Proof/Machine/Lanes.lean ====
section
/-! DEFINITION. Serial lanes: the board table, bring-up, loopbacks, test patterns, eye scans (chapter 05). -/
namespace Sys2Proof.Machine

/-! ### Which block a lane serves (R147, R153) -/

/-- The link lane a serial lane carries, if any. -/
def linkOf (m : Mach) (k : Nat) : Option Nat :=
  if k < 144 then some k else if k < 208 then none else some (144 + (k - 208) / 8 * 8 + (lane m k).phys % 8)


/-- The lane carries service traffic (R160). -/
def inService (x : Lane) : Bool := x.ready && x.loop == 0

/-- Fault source of a lane. -/
def laneSrc (k : Nat) : Nat := 0xB10 + k

/-! ### The board table (R150 to R152) -/

def sbyte (b : Byte) : Int := ofBits 8 b.toNat

/-- A rate set in range: taps, codes, offsets, the reserved byte, and the sum of the transmit taps (R151). -/
def rateSetOk (s : List Byte) : Bool :=
  let taps := (s.take 5).map sbyte
  let signed := ((s.drop 8).take 11).map sbyte
  s.length == 20 && taps.all (fun t => decide (-127 ≤ t)) && decide ((taps.map Int.natAbs).foldl (· + ·) 0 ≤ 127)
    && decide (fld s 5 1 ≤ 31) && decide (fld s 6 1 ≤ 15) && decide (fld s 7 1 ≤ 63)
    && signed.all (fun t => decide (-63 ≤ t) && decide (t ≤ 63)) && fld s 19 1 == 0

/-- A board table that the module can use: MAGIC, VERSION, COUNT, ESIZE and CRC (R150). -/
def boardOk (b : List Byte) : Bool :=
  b.length == 14404 && fld b 0 4 == 0x4C4E5442 && fld b 4 2 == 1 && fld b 6 2 == 224 && fld b 8 2 == 64
    && (crc32c (b.take 14400)).toNat == fld b 14400 4

/-- The entry of a lane. -/
def boardEntry (b : List Byte) (k : Nat) : List Byte := sub b (64 + 64 * k) 64

/-- An entry's own checks (R152). -/
def entryOk (k : Nat) (e : List Byte) : Bool :=
  let phys := fld e 0 1
  let flags := fld e 1 1
  decide (flags < 64) && fld e 3 1 == 0 && [4, 24, 44].all (fun o => rateSetOk (sub e o 20))
    && (if k < 144 then phys == 0 && bits flags 5 3 != 0 else if k < 208 then decide (phys ≤ 3) else decide (phys ≤ 7))

/-- The lanes of a lane's port or bundle; a WL lane stands alone. -/
def groupLanes (k : Nat) : List Nat :=
  if k < 144 then [k] else if k < 208 then span (144 + (k - 144) / 4 * 4) 4 else span (208 + (k - 208) / 8 * 8) 8

/-- A lane held down: its entry is out of range, or two fitted lanes of its port or bundle have one PHYS (R152). -/
def heldDown (b : List Byte) (k : Nat) : Bool :=
  let fitted (j : Nat) : Bool := bit (fld (boardEntry b j) 1 1) 2
  let ps := ((groupLanes k).filter fitted).map fun j => fld (boardEntry b j) 0 1
  fitted k && (!entryOk k (boardEntry b k) || ps.eraseDups.length != ps.length)

/-- The module loads a board table: every lane takes its entry, and an invalid one its fault (R152). -/
def loadBoard (b : List Byte) (m : Mach) : Mach :=
  (List.range 224).foldl (fun m k =>
    let e := boardEntry b k
    let flags := fld e 1 1
    let sets := [4, 24, 44].map fun o => sub e o 20
    let err := heldDown b k
    let m := setLane m k fun _ => { fitted := bit flags 2, flags, clane := fld e 2 1, phys := fld e 0 1, tblErr := err,
                                    next := sets, now := sets, table := sets }
    if err then raise m (laneSrc k) 0x23 1 else m) m

/-! ### Bring-up (R154 to R157) -/

/-- A rate takes effect: its set's values are those given last (R155, R166). -/
def takeRate (x : Lane) (rate : Nat) : Lane := { x with rate, set := rateSetOf rate, now := x.next, toRate := none }

/-- LANE_READY (R154, R142): a fitted lane that is not held down becomes ready at its first rate, and its link lane's
receiver begins to search. -/
def laneReady (k : Nat) (m : Mach) : Mach :=
  let x := lane m k
  if !x.fitted ∨ x.tblErr ∨ x.ready then m
  else match linkOf m k with
    | none => setLane m k fun x => { takeRate x 5 with ready := true }
    | some l =>
      let mode := firstMode m l
      let m := setLane m k fun x => { takeRate x (modeRate mode) with ready := true }
      setRx m l fun r => { r with st := 1, mode, modeAt := m.now, fawRun := 0, fawMiss := 0 }

/-- The checker aligns itself within 1 µs of lock (R160): at which instant is a free value. -/
def alignChecker (k : Nat) (m : Mach) : Mach :=
  if !(lane m k).chk then m
  else
    let (seed, m) := fresh m
    setLane m k fun x => { x with prbsAt := m.now + Config.unstated seed % (usT + 1) }

/-- LANE_LOCK (R154, R156): a ready lane's recovery loop holds phase. -/
def laneLock (k : Nat) (m : Mach) : Mach :=
  let x := lane m k
  if x.ready ∧ x.toRate.isNone ∧ !x.lock then alignChecker k (setLane m k fun x => { x with lock := true, sig := true }) else m

/-- The lane's protocol block learns that lock is gone (R156): a MAC's link is no longer up (R173). -/
def protocolLost (m : Mach) (k : Nat) : Mach :=
  match linkOf m k with
  | some l => lockGone m l
  | none => setLink (macOfLane m k) false m

/-! ### Eye scans (R161 to R163) -/

def Scan.cols (s : Scan) : Nat := 64 / s.sp
def Scan.rows (s : Scan) : Nat := 128 / s.sv
def Scan.points (s : Scan) : Nat := s.cols * s.rows

/-- Contiguous points around index `i` of a line of counts that do not exceed the threshold; 0 where `i` itself does. -/
def openRun (thr : Nat) (cs : List Nat) (i : Nat) : Nat :=
  if thr < lget 0 cs i then 0
  else ((cs.take i).reverse.takeWhile (· ≤ thr)).length + 1 + ((cs.drop (i + 1)).takeWhile (· ≤ thr)).length

/-- WIDTH in phase steps and HEIGHT in voltage steps (R163). -/
def Scan.eyeSize (s : Scan) (counts : List Nat) : Nat × Nat :=
  let r0 := 64 / s.sv - 1
  let c0 := 32 / s.sp
  let row := (counts.drop (r0 * s.cols)).take s.cols
  let col := (List.range s.rows).map fun r => lget 0 counts (r * s.cols + c0)
  (min 255 (s.sp * openRun s.thr row c0), min 255 (s.sv * openRun s.thr col r0))

/-- The result of a scan: header and counts (R163). -/
def Scan.result (s : Scan) (status rate measured : Nat) (counts : List Nat) : List Byte :=
  let (w, h) := s.eyeSize counts
  le 4 s.id ++ le 1 status ++ le 1 s.eye ++ le 1 s.k ++ le 1 s.sp ++ le 1 s.sv ++ le 1 w ++ le 1 h ++ le 1 rate
    ++ le 6 (secOf s.at_) ++ le 4 (nsOf s.at_) ++ le 2 s.thr ++ le 4 measured ++ List.replicate 36 0 ++ counts.flatMap (le 4)

/-- A scan ends: its result is written and DONE posted with the status. -/
def endScan (m : Mach) (s : Scan) (status measured : Nat) (counts : List Nat) : Mach :=
  let m := { m with ln := { m.ln with scans := m.ln.scans.filter fun x => x.id != s.id } }
  if !live m s.ses then m
  else postFinal (putSalvo m s.ses s.off (s.result status (lane m s.lane).rate measured counts)) s.ses 0x0D21 s.hseq sDone
    (layout [.b status]) 1

/-- A scan ends before it is over: 1 LOST, 2 ABORTED (R162). What was measured so far is open; the rest reads all ones. -/
def cutScan (m : Mach) (s : Scan) (status : Nat) : Mach :=
  let n := Config.unstated m.free % s.points
  let counts := (List.range s.points).map fun i => if i < n then Config.unstated (m.free + 1 + i) % (2 ^ s.k + 1) else 0xFFFFFFFF
  endScan { m with free := m.free + 1 + s.points } s status n counts

/-- The scans of lanes for which `p` holds end early. -/
def cutScans (m : Mach) (status : Nat) (p : Scan → Bool) : Mach := (m.ln.scans.filter p).foldl (fun m s => cutScan m s status) m

/-- EYE_SCAN_COMPLETE (R163): one error count for each point. -/
def scanComplete (k : Nat) (counts : List Nat) (m : Mach) : Mach :=
  match m.ln.scans.find? fun s => s.lane == k with
  | none => m
  | some s =>
    let cs := padTo 0 s.points (counts.map fun c => min c (2 ^ s.k))
    let (w, h) := s.eyeSize cs
    endScan (setLane m k fun x => { x with width := w, height := h, eye := s.eye, eyeDone := sat x.eyeDone 1 }) s 0 s.points cs

/-- The scans of lanes that have lost lock end LOST (R162). -/
def cutUnlocked (m : Mach) : Mach := cutScans m 1 fun s => !(lane m s.lane).lock

/-- EYE_SCAN (R161, R162, R165). A lane without lock ends its scan LOST at once, with no point measured (Assumption 22). -/
def askEyeScan (n hseq k eye kk sp sv thr off : Nat) (m : Mach) : QRes :=
  let x := lane m k
  let strides := [1, 2, 4, 8]
  let s : Scan := { id := m.ln.scanId, lane := k, ses := n, hseq, eye, k := kk, sp, sv, thr, off, at_ := m.dt.t }
  if 223 < k ∨ kk < 10 ∨ 30 < kk ∨ !strides.contains sp ∨ !strides.contains sv  ∨
      (if x.rate = 5 then eye = 0 ∨ 3 < eye else eye ≠ 0) then .arg
  else match m.ln.scans.find? fun y => y.lane == k with
    | some y => .conflict 1 y.ses
    | none =>
      if x.loop ≠ 0 then .conflict 1 x.loopSes
      else if 16 ≤ m.ln.scans.length then .refuse sCapacity { res := 13, free := 0 }
      else
        let m := { m with ln := { m.ln with scanId := (m.ln.scanId + 1) % 2 ^ 32 } }
        if x.lock then .accept { m with ln := { m.ln with scans := m.ln.scans ++ [s] } } [.w s.id]
        else .both (putSalvo m n off (s.result 1 x.rate 0 (List.replicate s.points 0xFFFFFFFF))) sDone [.b 1] [.w s.id]

/-! ### Loss of lock, rate changes (R155, R156) -/

/-- LANE_LOCK_LOSS (R156, R162): the loop has left lock, or the signal its threshold; `sig` says whether it still holds. -/
def lockLoss (k : Nat) (sig : Bool) (m : Mach) : Mach :=
  let was := (lane m k).lock
  let m := setLane m k fun x => { x with sig, lock := false, lockLoss := sat x.lockLoss (b2n was) }
  if was then protocolLost (cutUnlocked m) k else m

/-- LANE_RATE_CHANGE_DONE (R155): the new rate's transmitter drives; the lane calibrates nothing and has yet to lock. -/
def rateDone (k : Nat) (m : Mach) : Mach :=
  match (lane m k).toRate with
  | some r => cutUnlocked (setLane m k fun x => { takeRate x r with lock := false })
  | none => m

/-! ### Registers (R168) and commands (R159, R160, R165, R166) -/

/-- LN_STAT. -/
def lnStat (m : Mach) (k : Nat) : Nat :=
  let x := lane m k
  b2n x.ready * 2 ^ 31 + b2n x.lock * 2 ^ 30 + b2n x.sig * 2 ^ 29 + x.rate % 8 * 2 ^ 26 + x.loop % 4 * 2 ^ 24 + b2n x.fitted * 2 ^ 23
    + b2n (bit x.flags 0 && x.loop != 1) * 2 ^ 22 + b2n (bit x.flags 1 && x.loop != 1) * 2 ^ 21
    + b2n (m.ln.scans.any fun s => s.lane == k) * 2 ^ 20
    + b2n (x.gen || x.chk) * 2 ^ 19 + b2n (x.now != x.table) * 2 ^ 18 + b2n x.tblErr * 2 ^ 17 + x.phys % 8 * 4 + x.set % 4

/-- LN_EYE. -/
def lnEye (m : Mach) (k : Nat) : Nat := let x := lane m k; x.width % 256 * 2 ^ 24 + x.height % 256 * 2 ^ 16 + x.eye % 4 * 2 ^ 14

def askLaneStatus (k : Nat) (m : Mach) : QRes := if 223 < k then .arg else .answer m sOk [.w (lnStat m k), .w (lnEye m k)]

/-- The rate at which a lane carries service traffic (R148). -/
def serviceRate (m : Mach) (k : Nat) : Nat :=
  match linkOf m k with
  | some l => modeRate (rx m l).mode
  | none => 5

/-- A loopback ends (R159): the lane goes back to its service rate, and has yet to lock. -/
def endLoop (k : Nat) (m : Mach) : Mach :=
  if (lane m k).loop = 0 then m
  else
    let service := serviceRate m k
    endCond (setLane m k fun x => { x with loop := 0, keepTx := false, loopSes := 255, lock := false,
                                           toRate := if x.rate = service then none else some service }) (laneSrc k) 0x24

/-- LANE_LOOP (R158, R159). -/
def askLaneLoop (n k mode flags : Nat) (m : Mach) : QRes :=
  if 223 < k ∨ 3 < mode ∨ 1 < flags then .arg
  else match m.ln.scans.find? fun s => s.lane == k with
    | some s => .conflict 1 s.ses
    | none =>
      if 208 ≤ k ∧ bundleUp m ((k - 208) / 8) then .conflict 18 0
      else match (if 144 ≤ k ∧ k < 208 then ctxOnMac m (· == macOfLane m k) else none) with
        | some c => .conflict 6 c
        | none =>
          if mode = 0 then .answer (endLoop k m) sOk []
          else
            let m := setLane m k fun x => { x with loop := mode, keepTx := mode == 1 && flags == 1, loopSes := n }
            let m := match linkOf m k with
              | some l => setTx m l fun t => { t with ball := [] }
              | none => m
            .answer (raise (protocolLost m k) (laneSrc k) 0x24 0) sOk []

/-- LANE_PRBS (R160). -/
def askLanePrbs (k pattern on rate : Nat) (m : Mach) : QRes :=
  let x := lane m k
  let r := if rate = 0 then x.rate else rate
  if 223 < k ∨ 8 < pattern ∨ 3 < on ∨ 5 < rate ∨ (pattern ≠ 0 ∧ (decide (r = 5) != decide (6 ≤ pattern))) then .arg
  else if inService x ∧ ((pattern ≠ 0 ∧ bit on 0) ∨ (rate ≠ 0 ∧ rate ≠ x.rate)) then .conflict 19 k
  else
    let m := setLane m k fun x =>
      { x with pattern, gen := pattern != 0 && bit on 0, chk := pattern != 0 && bit on 1,
               toRate := if rate = 0 ∨ rate = x.rate then x.toRate else some rate }
    .answer (alignChecker k m) sOk []

/-- LANE_EQ_SET (R166). -/
def askLaneEqSet (k set flags vals : Nat) (m : Mach) : QRes :=
  let v := le 20 vals
  if 223 < k ∨ 2 < set ∨ 1 < flags ∨ !rateSetOk v then .arg
  else
    let m := setLane m k fun x => { x with next := lmod x.next set fun _ => v }
    if flags = 0 then .answer m sOk []
    else
      let m := setLane m k fun x => { x with now := lmod x.now set fun _ => v, lock := false }
      .answer (protocolLost (cutUnlocked m) k) sOk []

/-- Den entry phase P1 ends loopbacks, patterns and scans (R159, R162, R498). -/
def endTests (m : Mach) : Mach :=
  let m := (List.range 224).foldl (fun m k => endLoop k m) (cutScans m 2 fun _ => true)
  { m with ln := { m.ln with lanes := tmap (fun k x => { x with
      gen := false, chk := false, pattern := 0,
      toRate := if x.ready ∧ x.toRate.getD x.rate ≠ serviceRate m k then some (serviceRate m k) else x.toRate }) m.ln.lanes } }

/-- LANE_READY (R154). -/
def execLaneReady (lane : Nat) := runIf (lane < 224) (laneReady lane)
/-- LANE_LOCK (R154). -/
def execLaneLock (lane : Nat) := runIf (lane < 224) (laneLock lane)
/-- LANE_LOCK_LOSS (R156). -/
def execLaneLockLoss (lane : Nat) (sig : Bool) := runIf (lane < 224) (lockLoss lane sig)
/-- WL_MODE_TRY_TIMEOUT (R142, R162): the lane loses lock where its rate changes. -/
def execWlModeTryTimeout (lane : Nat) := runIf (lane < 160) fun m => cutUnlocked (modeTimeout lane m)
/-- LANE_RATE_CHANGE_DONE (R155). -/
def execLaneRateChangeDone (lane : Nat) := runIf (lane < 224) (rateDone lane)
/-- EYE_SCAN_COMPLETE (R163). -/
def execEyeScanComplete (lane : Nat) (counts : List Nat) := runIf (lane < 224) (scanComplete lane counts)

end Sys2Proof.Machine
end

