-- ==== Sys2Proof/Machine/MemoryStacks.lean ====
section
/-! DEFINITION. The memory stacks and their controller: placement, copies, quarantine and remap, poisoned data, refresh,
traffic, delay verification (chapter 13). -/
namespace Sys2Proof.Machine

def pc (m : Mach) (n : Nat) : Pc := tget {} m.mem.pcs n
def setPc (m : Mach) (n : Nat) (f : Pc → Pc) : Mach := { m with mem := { m.mem with pcs := tmod {} m.mem.pcs n f } }
def stack (m : Mach) (s : Nat) : Stack := tget {} m.mem.stks s
def setStack (m : Mach) (s : Nat) (f : Stack → Stack) : Mach := { m with mem := { m.mem with stks := tmod {} m.mem.stks s f } }


/-- Fault source of a pseudo-channel's stack (R516). -/
def stackSrc (n : Nat) : Nat := 0xD60 + n / 32

/-! ### Placement (R371) -/

/-- Bases of the pools from the first pool's address (R449). -/
def playoutBase : Nat := 0x1800000000
def audioBase : Nat := 0x1C00000000
def systemBase : Nat := 0x1F00000000

/-- Pseudo-channel of a pool byte, by its offset from the first pool's address. Linear addresses in the audio pool are
read as R371's stripes (Assumption 30). -/
def pcOf (o : Nat) : Nat :=
  if o < playoutBase then
    let i := o / (24 * 2 ^ 20)
    i / 1024 * 32 + i % 1024 / 256 * 8 + o % (24 * 2 ^ 20) / 2048 % 8
  else if o < audioBase then (o - playoutBase) / 65536 % 128
  else if o < systemBase then (o - audioBase) / (3 * 2 ^ 30) * 32 + (o - audioBase) % (3 * 2 ^ 30) / 256 % 32
  else (o - systemBase) / 2 ^ 30 * 32 + (o - systemBase) / 2048 % 32

/-- Pseudo-channel of an audio container: its channel's stack, its stripe of 64 (R371). -/
def pcOfTap (ch idx : Nat) : Nat := ch % 4 * 32 + idx / 64 % 32

/-! ### The two copies of the system area (R372) -/

/-- The other copy of a system address: stacks 0 and 1 hold the copy that is read, stacks 2 and 3 its duplicate
(Assumption 30). -/
def otherCopy (x : Nat) : Nat := if x < systemBase + 2 ^ 31 then x + 2 ^ 31 else x - 2 ^ 31

/-- A read of a pool address returns poisoned data: its position is out of service until its remap (R378), or its unit holds
the poison pattern (R384). -/
def poisonedAt (m : Mach) (x : Nat) : Bool := (pc m (pcOf x)).st == 2 || m.mem.bad.contains (x / 64)

/-- The unit of a system address is rewritten from the other copy (R372). -/
def repairUnit (x : Nat) (m : Mach) : Mach :=
  let u := x / 64 * 64
  { m with mem := { m.mem with pool := mput m.mem.pool u (mbytes m.mem.pool (otherCopy u) 64), bad := m.mem.bad.filter (· != x / 64) } }

/-! ### Quarantine and remap (R377 to R380) -/

/-- Spares of a stack that are free, the lower-numbered first. -/
def freeSpares (x : Stack) : List Nat :=
  (if x.sp0.isNone && !x.sp0Bad then [0] else []) ++ (if x.sp1.isNone && !x.sp1Bad then [1] else [])

/-- A spare takes a position: the pools' shares on it are lost (R378, R379). Which buffers and granules lie there is the
module's own placement, which the spec leaves open: free values. System data comes back from the other copy. -/
def takeSpare (n k : Nat) (m : Mach) : Mach :=
  let s := n / 32
  let m := setStack m s fun x => if k = 0 then { x with sp0 := some n } else { x with sp1 := some n }
  let m := setPc m n fun x => { x with st := 0, spare := some k, quarAt := none, alerts := 0, written := [] }
  let seed := m.free
  let gone (a b : Nat) : Bool := Config.unstated (seed + 65536 * a + b) % 16 == 0
  let srcs := tmap (fun i (x : Src) => { x with bufs := x.bufs.zipIdx.map fun b =>
    (if b.1.st = 2 && gone i b.2 then { b.1 with st := 0, lines := [] } else b.1 : FrameBuf) }) m.is_.srcs
  let ctxs := tmap (fun i (x : Ctx) => { x with buf := x.buf.filter fun b => !gone (4096 + i) (b.seq % 65536) }) m.flw.ctxs
  let rings := tmap (fun ch (r : Tab Nat) => r.map fun x => if pcOfTap ch x.1 = n then (x.1, lostContainer) else x) m.aud.rings
  let cmps := tmap (fun i (c : Cmp) => if c.out.made then
    { c with out := { c.out with late := c.out.late ++ (List.range 2200).filter (gone (8192 + i)) } } else c) m.cmp.cmps
  let here (x : Nat) : Bool := pcOf x == n
  let kept := m.mem.pool.filter fun x => !here x.1
  let copies := m.mem.pool.filterMap fun x => if systemBase ≤ x.1 ∧ here (otherCopy x.1) then some (otherCopy x.1, x.2) else none
  { m with is_ := { m.is_ with srcs }, flw := { m.flw with ctxs }, aud := { m.aud with rings }, cmp := { m.cmp with cmps },
           mem := { m.mem with pool := copies.foldl (fun t x => mput t x.1 [x.2]) kept, bad := m.mem.bad.filter fun u => !here (64 * u) },
           free := seed + 65536 * 20480 }

/-- A position is quarantined (R378, R380): in Den, or past phase P1 of its entry, the remap follows at once. -/
def quarantine (n : Nat) (m : Mach) : Mach :=
  let s := n / 32
  let served := (pc m n).spare
  let m := match served with
    | some 0 => setStack m s fun x => { x with sp0 := none, sp0Bad := true }
    | some _ => setStack m s fun x => { x with sp1 := none, sp1Bad := true }
    | none => m
  let m := setPc m n fun x => { x with st := 2, quar := true, spare := none, alerts := 0, quarAt := some m.now, frozen := none }
  let m := raise m (stackSrc n) 0x72 2 n
  match (freeSpares (stack m s)).head? with
  | none => raise m (stackSrc n) 0x73 3 n
  | some k => if m.pwr.st = 2 ∨ (3 ≤ m.pwr.st ∧ m.pwr.phase ≠ 1) then takeSpare n k m else m

/-- MEM_PARITY_ALERT (R377, R378): a replay of 1.5 µs that ended without an alert has set the count back. -/
def parityAlert (n : Nat) (m : Mach) : Mach :=
  let x := pc m n
  if x.st = 2 then m
  else
    let alerts := if x.alertAt + 750 < m.now then 1 else x.alerts + 1
    let m := setPc m n fun x => { x with alerts, alertAt := m.now, parity := sat x.parity 1 }
    let m := raise m (stackSrc n) 0x71 0 n
    if 3 ≤ alerts then quarantine n m else m

/-- MEM_REMAP (R378): the remap instant lies at least 1 ms after the quarantine. -/
def memRemap (n : Nat) (m : Mach) : Mach :=
  match (pc m n).quarAt, (freeSpares (stack m (n / 32))).head? with
  | some q, some k => if (pc m n).st = 2 ∧ q + msT ≤ m.now then takeSpare n k m else m
  | _, _ => m

/-! ### Poisoned data (R381, R382, R384) -/

/-- A command issued to a pseudo-channel enters its retry buffer (R377). -/
def issued (n addr : Nat) (m : Mach) : Mach := setPc m n fun x => { x with retry := ((false, addr, m.now) :: x.retry).take 64 }

/-- The first finding on an armed pseudo-channel is captured (R382): kind 0 read, 1 scrub. Which bank and row an address
has is not stated: free values. -/
def freezeCapture (n port addr kind : Nat) (m : Mach) : Mach :=
  if !(pc m n).armed then m
  else
    setPc m n fun x =>
      { x with armed := false, capAddr := Config.dramUnit addr % 2 ^ 24 * 64, capPort := port, capKind := kind, capId := 0, capAt := m.dt.t,
               capBank := Config.dramRow addr / 2 ^ 14 % 32, capRow := Config.dramRow addr % 2 ^ 14 }

/-- What the consumer of a poisoned read does (R96, R226, R270, R372, R381). -/
def poisonUse (n addr : Nat) (m : Mach) : PoisonUse → Mach
  | .feed i off =>
    let f := tget {} m.is_.feeds i
    match f.reading m.now with
    | some b =>
      if !f.valid then m
      else
        let spans := unitSpan (lget {} (srcOf m f.src).bufs b).fmt off
        setSrcCnt { m with is_ := { m.is_ with feeds := tmod {} m.is_.feeds i fun f => { f with torn := (f.torn ++ spans).eraseDups } } }
          f.src fun c => { c with concPoison := sat c.concPoison 1 }
    | none => m
  | .conceal s off =>
    match newest (srcOf m s) with
    | some i => setSrc m s fun x => { x with bufs := lmod x.bufs i fun b => { b with bad := (b.bad ++ unitSpan b.fmt off).eraseDups } }
    | none => m
  | .window k w row => poisonWindow k w row m
  | .tap ch slot idx =>
    { m with aud := { m.aud with poison := (64 * ch + slot, idx) :: m.aud.poison.filter fun x => idx < x.2 + 65536 },
             audCnt := { m.audCnt with poison := sat m.audCnt.poison 1 } }
  | .playout c seq =>
    { setCtx m c fun x => { x with buf := x.buf.filter fun b => b.seq != seq } with
      mem := { m.mem with playoutPoison := sat m.mem.playoutPoison 1 } }
  | .system both => if both || poisonedAt m (otherCopy addr) then raise m (stackSrc n) 0x75 2 n else repairUnit addr m
  | .other => m

/-- MEM_POISONED_READ (R381). -/
def poisonedRead (n port addr : Nat) (u : PoisonUse) (m : Mach) : Mach :=
  let m := setPc (issued n addr m) n fun x => { x with ue := sat x.ue 1 }
  poisonUse n addr (freezeCapture n port addr 0 (raise m (stackSrc n) 0x74 1 n)) u

/-- PATROL_SCRUB (R384): outcome 0 clean, 1 corrected, 2 uncorrectable, after which the unit holds the poison pattern. -/
def patrolScrub (n addr outcome : Nat) (m : Mach) : Mach :=
  if (pc m n).st = 2 then m
  else
    let m := issued n addr { m with mem := { m.mem with scrubPc := n, scrubUnit := addr % 2 ^ 30 / 64 } }
    if outcome = 0 then m
    else
      let bad := if outcome = 1 ∨ m.mem.bad.contains (addr / 64) then m.mem.bad else addr / 64 :: m.mem.bad
      freezeCapture n 82 addr 1 (setPc { m with mem := { m.mem with bad } } n fun x => { x with scrub := sat x.scrub 1 })

/-! ### Refresh (R386) -/

/-- A request of urgency 3 waits at a stack. -/
def urgentWaits (m : Mach) (s : Nat) : Bool :=
  m.mem.reqs.any fun r => r.pos / 32 == s && urgency r.port (m.now - r.at_) == 3

/-- MEM_REFRESH: the hottest die's temperature in 1/128 °C sets the period; a refresh may be postponed by at most 8 intervals,
while requests of urgency 3 wait. -/
def memRefresh (s : Nat) (raw : Int) (postpone : Bool) (m : Mach) : Mach :=
  let temp := raw - sensorOffset m (2 + 2 * s)
  let hot := decide (105 * 128 < temp)
  let was := (stack m s).hot
  let m := setStack m s fun x =>
    { x with temp := toBits 16 temp, rfsh := if temp < 85 * 128 then 0 else if temp < 95 * 128 then 1 else 2, hot,
             postponed := if postpone ∧ urgentWaits m s ∧ x.postponed < 8 then x.postponed + 1 else 0 }
  if hot ∧ !was then raise m (0xD60 + s) 0x77 1 else if was ∧ !hot then endCond m (0xD60 + s) 0x77 else m

/-! ### Verification (R385, R387) -/

/-- Positions that fail their verification run a delay search; those that fail it as well are quarantined, or, for a free
spare, never used. Positions 0 to 127 are pseudo-channels, 128 to 135 the spares of stacks 0 to 3. -/
def verifyMem (bad worse : List Nat) (m : Mach) : Mach :=
  (List.range 136).foldl (fun m n =>
    if worse.contains n then
      if n < 128 then
        if (pc m n).st = 2 then m
        else
          let m := quarantine n m
          match (freeSpares (stack m (n / 32))).head? with
          | some k => if (pc m n).st = 2 then takeSpare n k m else m
          | none => m
      else setStack m ((n - 128) / 2) fun x => if n % 2 = 0 then { x with sp0Bad := true } else { x with sp1Bad := true }
    else if bad.contains n then
      let s := if n < 128 then stackSrc n else 0xD60 + (n - 128) / 2
      raise (if n < 128 then setPc m n fun x => { x with searched := true } else m) s 0x76 1 (if n < 128 then n else 0)
    else m) m

/-- The stacks have left self-refresh (R387): no complete frame, no packet, no audio history, no output store survives. -/
def memoryExit (m : Mach) : Mach :=
  let blank (_ : Nat) (x : Src) : Src := { x with bufs := [{}, {}, {}], cur := none, lab := [], seen := [] }
  { m with is_ := { m.is_ with srcs := tmap blank m.is_.srcs },
           flw := { m.flw with ctxs := tmap (fun _ (x : Ctx) => { x with buf := [], kept := [] }) m.flw.ctxs },
           aud := { m.aud with rings := [], outs := [], poison := [] },
           cmp := { m.cmp with cmps := tmap (fun _ (c : Cmp) => { c with out := {}, lat := {}, ice := [] }) m.cmp.cmps },
           mem := { m.mem with awake := true, pool := m.mem.pool.filter fun x => systemBase ≤ x.1,
                               bad := m.mem.bad.filter fun u => systemBase ≤ 64 * u } }

/-! ### Budgets and traffic (R28, R373 to R376) -/


/-- MEM_PORT_CFG (R376, R389). -/
def commitMemPortCfg (p budget : Nat) (m : Mach) : CRes :=
  if 82 < p then .arg
  else
    let m' := { m with mem := { m.mem with ports := tmod {} m.mem.ports p fun x =>
      { x with budget := if budget = 0xFFFF then none else some budget } } }
    match (List.range 4).find? fun s => decide (14080 < stackSum m' s) && decide (stackSum m s < stackSum m' s) with
    | some s => .refuse sCapacity { res := 12, okind := 22, oid := s, free := (14080 - stackSum m s) / 4 }
    | none => .commit m' []

/-- A replay runs for at most 1.5 µs from its alert (R377). -/
def replaying (m : Mach) (x : Pc) : Bool := x.st == 0 && x.alerts != 0 && decide (m.now ≤ x.alertAt + 750)

/-- Every request completes within its port's target: every budget is at its default and no pseudo-channel replays (R375). -/
def calm (m : Mach) : Bool := (m.mem.ports.all fun x => x.2.force.isNone) && !m.mem.pcs.any fun x => replaying m x.2

/-- The requests of the tick that ends, one for each port: the spec states no amounts, no places and no instants, so they are free
values; where every budget is at its default they lie within the budgets and no older than their targets (R373, R375). -/
def tickDemand (m : Mach) : Mach :=
  let seed := m.free
  let reqs := (List.range 83).map fun p =>
    let v (i : Nat) : Nat := Config.unstated (seed + 4 * p + i)
    let oldest := if calm m then min 62500 (usT * portTarget p + 1) else 62500
    ({ port := p, pos := v 0 % 128, row := v 1, at_ := m.now - v 2 % oldest,
       bytes := if calm m then v 3 % (65536 * portBudget m p - (memPort m p).spent + 1) else v 3 } : MemReq)
  (reqs.filter (·.bytes != 0)).foldl (fun m r => issueReq r m) { m with free := seed + 332 }

/-- A request is served (R374, R375): how long it takes is a free value, at most its target in a calm controller; `act` is what
a bus master's request does. -/
def serveReq (act : Nat × Nat × Option Nat → Mach → Mach) (r : MemReq) (m : Mach) : Mach :=
  let (seed, m) := fresh m
  let t := usT * portTarget r.port
  let e := m.now - r.at_ + (if calm m then Config.unstated seed % (t - (m.now - r.at_) + 1) else Config.unstated seed)
  let late := decide (t < e)
  let m := spend r.port r.bytes (setPc m r.pos fun x => { x with openRow := some r.row })
  let m := setMemPort m r.port fun x => { x with urg3 := sat x.urg3 (b2n (urgency r.port e == 3)), late := sat x.late (b2n late) }
  let m := if late then raise m (0xD00 + r.port) 0x70 1 r.pos else m
  match r.act with
  | some a => act a m
  | none => m

/-- The schedulers serve what they can (R374); whether they prefer an open row is a free value. -/
def serveReqs (act : Nat × Nat × Option Nat → Mach → Mach) : Nat → Mach → Mach
  | 0, m => m
  | n + 1, m =>
    let (seed, m) := fresh m
    match nextReq m fun r => Config.unstated seed % 2 == 1 && (pc m r.pos).openRow == some r.row with
    | some r => serveReqs act n (serveReq act r { m with mem := { m.mem with reqs := m.mem.reqs.erase r } })
    | none => m

/-- The counts of the tick that ends, and every port's budget anew (R27, R389, R391). -/
def reloadPorts (m : Mach) : Mach :=
  let f (t : Tab MemPort) (p : Nat) : Tab MemPort :=
    let b := portBudget m p
    tmod {} t p fun x => { x with peak := max x.peak ((x.spent + 65535) / 65536), held := sat x.held (b2n (b != 0 && decide (65536 * b ≤ x.spent))),
                                  spent := 0, force := x.budget }
  { m with mem := { m.mem with ports := (List.range 83).foldl f m.mem.ports } }

/-- Reads that were corrected in the tick: free values (R370). -/
def correctedReads (m : Mach) : Mach :=
  let seed := m.free
  let pcs := (List.range 128).foldl (fun t n =>
    tmod {} t n fun (x : Pc) => { x with ce := sat x.ce (Config.unstated (seed + n)) }) m.mem.pcs
  { m with mem := { m.mem with pcs }, free := seed + 128 }

/-- A tick of the memory controller: what was asked is served while budgets last, and what waits begins the next tick. -/
def memTraffic (act : Nat × Nat × Option Nat → Mach → Mach) (m : Mach) : Mach :=
  let m := tickDemand m
  let m := reloadPorts (serveReqs act m.mem.reqs.length m)
  correctedReads (serveReqs act m.mem.reqs.length m)

/-! ### Registers and commands (R383, R389, R390, R392) -/

/-- MEM_STATE: running, draining from phase P2, in self-refresh from P4 to the end of W4. -/
def memState (m : Mach) : Nat :=
  match m.pwr.st with
  | 2 => 2
  | 3 => if m.pwr.phase ≤ 1 then 0 else if m.pwr.phase ≤ 3 then 1 else 2
  | 4 => if m.pwr.phase ≤ 12 then 2 else 0
  | _ => 0

def memQuar (m : Mach) (s : Nat) : Nat := mask ((List.range 32).map fun i => (pc m (32 * s + i)).quar)
def memSpare (m : Mach) (s : Nat) : Nat :=
  let x := stack m s
  let f (o : Option Nat) : Nat := match o with
    | some n => 2 ^ 15 + n % 32 * 2 ^ 8
    | none => 0
  f x.sp1 * 2 ^ 16 + f x.sp0

def pcStat (m : Mach) (n : Nat) : Nat :=
  let x := pc m n
  let st := if replaying m x then 1 else x.st
  st % 4 * 2 ^ 30 + b2n x.spare.isSome * 2 ^ 29 + x.spare.getD 0 % 2 * 2 ^ 28 + b2n x.searched * 2 ^ 27 + b2n x.armed * 2 ^ 26
    + (if replaying m x then x.alerts % 4 * 2 ^ 24 else 0)

/-- The capture registers of a position. -/
def capRegs (x : Pc) : List Nat :=
  [x.capAddr % 2 ^ 30, x.capPort % 128 * 2 ^ 25 + x.capKind % 4 * 2 ^ 23 + x.capBank % 32 * 2 ^ 18 + x.capRow % 2 ^ 14 * 2 ^ 4,
   x.capId % 2 ^ 32, secOf x.capAt % 2 ^ 32, nsOf x.capAt]

def askMemStatus (n : Nat) (m : Mach) : QRes :=
  if 127 < n ∧ n ≠ 255 then .arg
  else
    let block := memState m :: (List.range 4).map (memQuar m) ++ (List.range 4).map (memSpare m)
    .answer m sOk ((block ++ if n = 255 then [] else pcStat m n :: capRegs (pc m n)).map Item.w)

def askMemRearm (n : Nat) (m : Mach) : QRes :=
  if 127 < n ∧ n ≠ 255 then .arg
  else .answer ((if n = 255 then List.range 128 else [n]).foldl (fun m k => setPc m k fun x => { x with armed := true }) m) sOk []

/-- MEM_FREEZE (R383): the dump's contents are free values. -/
def askMemFreeze (ses n op off : Nat) (m : Mach) : QRes :=
  if 127 < n ∨ 1 < op ∨ (pc m n).st = 2 then .arg
  else if claiming m then .conflict 18 0
  else if op = 0 then .both (setPc m n fun x => { x with frozen := none, st := 0 }) sDone []
  else
    let seed := m.free
    let m := setPc { m with free := seed + 1 } n fun x => { x with frozen := some (ses, m.now), st := 3 }
    .both (putSalvo m ses off ((List.range 16384).map (Config.schedulerDump seed))) sDone []

/-- MEM_FREEZE_TIMEOUT (R383). -/
def freezeTimeout (n : Nat) (m : Mach) : Mach :=
  match (pc m n).frozen with
  | some (_, t) => if t + 100 * msT ≤ m.now then setPc m n fun x => { x with frozen := none, st := 0 } else m
  | none => m

/-- MEM_PARITY_ALERT (R377). -/
def execMemParityAlert (pc : Nat) := runIf (pc < 128) (parityAlert pc)
/-- MEM_REMAP (R379). -/
def execMemRemap (pc : Nat) := runIf (pc < 128) (memRemap pc)
/-- MEM_POISONED_READ (R381). -/
def execMemPoisonedRead (pc port addr : Nat) (u : PoisonUse) := runIf (pc < 128 && port < 83) (poisonedRead pc port addr u)
/-- PATROL_SCRUB (R384). -/
def execPatrolScrub (pc addr outcome : Nat) := runIf (pc < 128) (patrolScrub pc addr outcome)
/-- MEM_REFRESH (R386). -/
def execMemRefresh (stack : Nat) (temp : Int) (postpone : Bool) := runIf (stack < 4) (memRefresh stack temp postpone)
/-- MEM_FREEZE_TIMEOUT (R383). -/
def execMemFreezeTimeout (pc : Nat) := runIf (pc < 128) (freezeTimeout pc)

end Sys2Proof.Machine
end

