-- ==== Sys2Proof/Machine/Crypto.lean ====
section
/-! DEFINITION. SHA-384 and the check of an ECDSA P-384 signature, by which images are verified (R541, R542). The rules name
the two algorithms; their constants are FIPS 180-4's and FIPS 186-5's (PRESUMED, Assumption 43). -/
namespace Sys2Proof.Machine

/-! ### SHA-384 (FIPS 180-4) -/

/-- The first forty round constants of SHA-384. -/
def shaK1 : List (BitVec 64) :=
  [0x428A2F98D728AE22#64, 0x7137449123EF65CD#64, 0xB5C0FBCFEC4D3B2F#64, 0xE9B5DBA58189DBBC#64,
   0x3956C25BF348B538#64, 0x59F111F1B605D019#64, 0x923F82A4AF194F9B#64, 0xAB1C5ED5DA6D8118#64,
   0xD807AA98A3030242#64, 0x12835B0145706FBE#64, 0x243185BE4EE4B28C#64, 0x550C7DC3D5FFB4E2#64,
   0x72BE5D74F27B896F#64, 0x80DEB1FE3B1696B1#64, 0x9BDC06A725C71235#64, 0xC19BF174CF692694#64,
   0xE49B69C19EF14AD2#64, 0xEFBE4786384F25E3#64, 0x0FC19DC68B8CD5B5#64, 0x240CA1CC77AC9C65#64,
   0x2DE92C6F592B0275#64, 0x4A7484AA6EA6E483#64, 0x5CB0A9DCBD41FBD4#64, 0x76F988DA831153B5#64,
   0x983E5152EE66DFAB#64, 0xA831C66D2DB43210#64, 0xB00327C898FB213F#64, 0xBF597FC7BEEF0EE4#64,
   0xC6E00BF33DA88FC2#64, 0xD5A79147930AA725#64, 0x06CA6351E003826F#64, 0x142929670A0E6E70#64,
   0x27B70A8546D22FFC#64, 0x2E1B21385C26C926#64, 0x4D2C6DFC5AC42AED#64, 0x53380D139D95B3DF#64,
   0x650A73548BAF63DE#64, 0x766A0ABB3C77B2A8#64, 0x81C2C92E47EDAEE6#64, 0x92722C851482353B#64]

/-- The other forty. -/
def shaK2 : List (BitVec 64) :=
  [0xA2BFE8A14CF10364#64, 0xA81A664BBC423001#64, 0xC24B8B70D0F89791#64, 0xC76C51A30654BE30#64,
   0xD192E819D6EF5218#64, 0xD69906245565A910#64, 0xF40E35855771202A#64, 0x106AA07032BBD1B8#64,
   0x19A4C116B8D2D0C8#64, 0x1E376C085141AB53#64, 0x2748774CDF8EEB99#64, 0x34B0BCB5E19B48A8#64,
   0x391C0CB3C5C95A63#64, 0x4ED8AA4AE3418ACB#64, 0x5B9CCA4F7763E373#64, 0x682E6FF3D6B2B8A3#64,
   0x748F82EE5DEFB2FC#64, 0x78A5636F43172F60#64, 0x84C87814A1F0AB72#64, 0x8CC702081A6439EC#64,
   0x90BEFFFA23631E28#64, 0xA4506CEBDE82BDE9#64, 0xBEF9A3F7B2C67915#64, 0xC67178F2E372532B#64,
   0xCA273ECEEA26619C#64, 0xD186B8C721C0C207#64, 0xEADA7DD6CDE0EB1E#64, 0xF57D4F7FEE6ED178#64,
   0x06F067AA72176FBA#64, 0x0A637DC5A2C898A6#64, 0x113F9804BEF90DAE#64, 0x1B710B35131C471B#64,
   0x28DB77F523047D84#64, 0x32CAAB7B40C72493#64, 0x3C9EBE0A15C9BEBC#64, 0x431D67C49C100D4C#64,
   0x4CC5D4BECB3E42B6#64, 0x597F299CFC657E2A#64, 0x5FCB6FAB3AD6FAEC#64, 0x6C44198C4A475817#64]

/-- The eight working words. -/
structure Sha where
  a : BitVec 64
  b : BitVec 64
  c : BitVec 64
  d : BitVec 64
  e : BitVec 64
  f : BitVec 64
  g : BitVec 64
  h : BitVec 64
  deriving DecidableEq, Repr

/-- The initial hash value. -/
def shaInit : Sha :=
  ⟨0xCBBB9D5DC1059ED8#64, 0x629A292A367CD507#64, 0x9159015A3070DD17#64, 0x152FECD8F70E5939#64,
   0x67332667FFC00B31#64, 0x8EB44A8768581511#64, 0xDB0C2E0D64F98FA7#64, 0x47B5481DBEFA4FA4#64⟩

def Sha.add (x y : Sha) : Sha := ⟨x.a + y.a, x.b + y.b, x.c + y.c, x.d + y.d, x.e + y.e, x.f + y.f, x.g + y.g, x.h + y.h⟩

/-- Three rotations, or two and a shift, added without carry. -/
def sigma (x : BitVec 64) (i j k : Nat) : BitVec 64 := x.rotateRight i ^^^ x.rotateRight j ^^^ x.rotateRight k
def sigmaLow (x : BitVec 64) (i j k : Nat) : BitVec 64 := x.rotateRight i ^^^ x.rotateRight j ^^^ (x >>> k)

/-- One round: its constant and the first of the next sixteen words of the message schedule. -/
def shaRound (s : Sha × List (BitVec 64)) (k : BitVec 64) : Sha × List (BitVec 64) :=
  let (x, ws) := s
  let w (i : Nat) : BitVec 64 := lget 0 ws i
  let t1 := x.h + sigma x.e 14 18 41 + ((x.e &&& x.f) ^^^ (~~~x.e &&& x.g)) + k + w 0
  let t2 := sigma x.a 28 34 39 + ((x.a &&& x.b) ^^^ (x.a &&& x.c) ^^^ (x.b &&& x.c))
  (⟨t1 + t2, x.a, x.b, x.c, x.d + t1, x.e, x.f, x.g⟩,
    ws.drop 1 ++ [sigmaLow (w 14) 19 61 6 + w 9 + sigmaLow (w 1) 1 8 7 + w 0])

/-- One block of sixteen words. -/
def shaBlock (x : Sha) (ws : List (BitVec 64)) : Sha := x.add ((shaK1 ++ shaK2).foldl shaRound (x, ws)).1

/-- `n` blocks of 128 bytes each. -/
def shaBlocks : Nat → Sha → List Byte → Sha
  | 0, x, _ => x
  | n + 1, x, bs =>
    shaBlocks n (shaBlock x ((List.range 16).map fun i => BitVec.ofNat 64 (beNat ((bs.drop (8 * i)).take 8)))) (bs.drop 128)

/-- SHA-384 of a message of bytes. -/
def sha384 (bs : List Byte) : List Byte :=
  let n := (bs.length + 17 + 127) / 128
  let x := shaBlocks n shaInit (padTo 0 (128 * n - 16) (bs ++ [0x80#8]) ++ be 16 (8 * bs.length))
  [x.a, x.b, x.c, x.d, x.e, x.f].flatMap fun w => be 8 w.toNat

/-! ### P-384 (FIPS 186-5, SP 800-186) -/

def p384 : Nat := 2 ^ 384 - 2 ^ 128 - 2 ^ 96 + 2 ^ 32 - 1
/-- The order of the base point. -/
def p384Order : Nat := 0xFFFFFFFFFFFFFFFFFFFFFFFFFFFFFFFFFFFFFFFFFFFFFFFFC7634D81F4372DDF581A0DB248B0A77AECEC196ACCC52973
def p384B : Nat := 0xB3312FA7E23EE7E4988E056BE3F82D19181D9C6EFE8141120314088F5013875AC656398D8A2ED19D2A85C8EDD3EC2AEF
/-- The base point. -/
def p384Base : Nat × Nat :=
  (0xAA87CA22BE8B05378EB1C71EF320AD746E1D3B628BA79B9859F741E082542A385502F25DBF55296C3A545E3872760AB7,
   0x3617DE4A96262C6F5D9E98BF9292DC29F8F41DBD289A147CE9DA3113B5F0B8C00A60B1CE1D7E819D7A431D7C90EA0E5F)

/-- A power modulo a number, over the low `n` bits of the exponent. -/
def powMod (q : Nat) : Nat → Nat → Nat → Nat
  | 0, _, _ => 1 % q
  | n + 1, x, e => (if e % 2 = 1 then x else 1) * powMod q n (x * x % q) (e / 2) % q

/-- The inverse modulo a prime of 384 bits. -/
def invMod (q x : Nat) : Nat := powMod q 384 (x % q) (q - 2)

/-- A difference modulo `q` of two numbers below it. -/
def subMod (q x y : Nat) : Nat := (x + (q - y % q)) % q

/-- The sum of two points of the curve; none is the point at infinity. -/
def ecAdd (u v : Option (Nat × Nat)) : Option (Nat × Nat) :=
  match u, v with
  | none, _ => v
  | _, none => u
  | some (x, y), some (x', y') =>
    if x = x' ∧ (y + y') % p384 = 0 then none
    else
      let l := if x = x' then subMod p384 (3 * x * x) 3 * invMod p384 (2 * y) % p384
        else subMod p384 y' y * invMod p384 (subMod p384 x' x) % p384
      let z := subMod p384 (subMod p384 (l * l) x) x'
      some (z, subMod p384 (l * subMod p384 x z) y)

/-- A multiple of a point, over the low `n` bits of the factor. -/
def ecMul : Nat → Nat → Option (Nat × Nat) → Option (Nat × Nat)
  | 0, _, _ => none
  | n + 1, k, u => ecAdd (if k % 2 = 1 then u else none) (ecMul n (k / 2) (ecAdd u u))

def onCurve (q : Nat × Nat) : Bool :=
  decide (q.1 < p384) && decide (q.2 < p384) && q.2 * q.2 % p384 == (subMod p384 (q.1 * q.1 * q.1) (3 * q.1) + p384B) % p384

/-- ECDSA over P-384: the signature (`r`, `s`) of the hash `e` under the public key `q`. -/
def ecdsaOk (q : Nat × Nat) (r s e : Nat) : Bool :=
  let n := p384Order
  let w := invMod n s
  decide (1 ≤ r) && decide (r < n) && decide (1 ≤ s) && decide (s < n) && onCurve q &&
    match ecAdd (ecMul 384 (e * w % n) (some p384Base)) (ecMul 384 (r * w % n) (some q)) with
    | some x => x.1 % n == r
    | none => false

end Sys2Proof.Machine
end

