-- ==== Sys2Proof/Machine/Update.lean ====
section
/-! DEFINITION. Field update: slots, images, the service port's transfer, the update commands (chapter 19), and the identity
of R430. -/
namespace Sys2Proof.Machine

/-! ### Slots and images (R541, R543, R544) -/

/-- A flash slot: 0 A, 1 B. -/
def slot (m : Mach) (s : Nat) : Slot := if s = 0 then m.upd.slotA else m.upd.slotB
def setSlot (m : Mach) (s : Nat) (x : Slot) : Mach :=
  { m with upd := if s = 0 then { m.upd with slotA := x } else { m.upd with slotB := x } }
def setRec (m : Mach) (s : Nat) (f : SlotRec → SlotRec) : Mach := setSlot m s { slot m s with sr := f (slot m s).sr }

/-- Fields of an image's header and table (R541). -/
def imgNum (i : Mem) (o n : Nat) : Nat := leNat (mbytes i o n)
def imgSvn (i : Mem) : Nat := imgNum i 12 1
def imgSsf (i : Mem) : Nat := imgNum i 32 2
def imgSsfMin (i : Mem) : Nat := imgNum i 34 2
def imgRelease (i : Mem) : Nat := imgNum i 36 4
def imgVersion (i : Mem) (c : Nat) : Nat := imgNum i (66 + 64 * c) 2
def bodyStart (i : Mem) (c : Nat) : Nat := imgNum i (68 + 64 * c) 4
def bodyLen (i : Mem) (c : Nat) : Nat := imgNum i (72 + 64 * c) 4

/-- "TVX1152-4CE", padded with spaces to 16 bytes. -/
def partCode : List Byte :=
  [0x54, 0x56, 0x58, 0x31, 0x31, 0x35, 0x32, 0x2D, 0x34, 0x43, 0x45, 0x20, 0x20, 0x20, 0x20, 0x20]

/-- The code that the part reports: an engineering sample's is "TVX1152-4CE-ES" (R2). -/
def partName (m : Mach) : List Byte :=
  if m.sys.sample then partCode.take 11 ++ [0x2D, 0x45, 0x53, 0x20, 0x20] else partCode

/-- 96 MiB. -/
def imageMax : Nat := 96 * 2 ^ 20

/-- Check 1 of R542: the header and table are as R541 gives. -/
def headerOk (i : Mem) (len : Nat) : Bool :=
  imgNum i 0 4 == 0x49585654 && imgNum i 4 2 == 1 && imgNum i 6 2 == 6 && imgNum i 8 4 == len && len % 4096 == 0
    && decide (imgSvn i ≤ 128) && imgNum i 13 3 == 0 && mbytes i 16 16 == partCode && imgNum i 40 24 == 0
    && (List.range 6).all fun c =>
      imgNum i (64 + 64 * c) 1 == c && imgNum i (65 + 64 * c) 1 == 0 && bodyStart i c % 4096 == 0
        && decide (1 ≤ bodyLen i c) && imgNum i (76 + 64 * c) 4 == 0
        && decide ((if c = 0 then 4096 else bodyStart i (c - 1) + bodyLen i (c - 1)) ≤ bodyStart i c)
        && decide (bodyStart i c + bodyLen i c ≤ len - 256)

/-- Check 2 of R542: the public key is the one whose digest the fuse set named by KEYID holds. -/
def keyOk (m : Mach) (i : Mem) (len : Nat) : Bool := m.upd.keys[imgNum i (len - 256) 1]? == some (sha384 (mbytes i (len - 252) 97))

/-- Check 3: the signature verifies all but the signature block; its numbers and the key's coordinates are big-endian
(Assumption 43). -/
def signatureOk (i : Mem) (len : Nat) : Bool :=
  let num (o n : Nat) : Nat := beNat (mbytes i (len - 256 + o) n)
  num 4 1 == 4 && ecdsaOk (num 5 48, num 53 48) (num 104 48) (num 152 48) (beNat (sha384 (mbytes i 0 (len - 256))))

/-- Check 4: each component's DIGEST matches its body. -/
def digestsOk (i : Mem) : Bool :=
  (List.range 6).all fun c => mbytes i (80 + 64 * c) 48 == sha384 (mbytes i (bodyStart i c) (bodyLen i c))

/-- The first of checks 2 to 5 of R542 that an image fails, 0 for none. -/
def imageFault (m : Mach) (i : Mem) (len : Nat) : Nat :=
  if !keyOk m i len then 2
  else if !signatureOk i len then 3
  else if !digestsOk i then 4
  else if imgSvn i < m.upd.fcount then 5
  else 0

/-- The first check of R542 that an image fails, 0 for none. -/
def failingCheck (m : Mach) (i : Mem) (len : Nat) : Nat := if !headerOk i len then 1 else imageFault m i len

/-- A slot record's 64 bytes (R543). -/
def SlotRec.bytes (r : SlotRec) : List Byte :=
  if !r.valid then List.replicate 64 0xFF
  else
    let b := le 4 0x52544C53 ++ le 1 2 ++ le 1 r.trial ++ le 1 r.svn ++ le 1 0 ++ le 4 r.gen ++ le 4 r.release ++ le 4 r.imglen
      ++ List.replicate 40 0
    b ++ le 4 (crc32c b).toNat

/-- The record that 64 bytes of a flash device hold: one whose MAGIC, CRC or STATE is wrong is as erased. -/
def SlotRec.ofBytes (b : List Byte) : SlotRec :=
  if b.length = 64 ∧ fld b 0 4 = 0x52544C53 ∧ fld b 4 1 = 2 ∧ (crc32c (b.take 60)).toNat = fld b 60 4 then
    { valid := true, trial := fld b 5 1, svn := fld b 6 1, gen := fld b 8 4, release := fld b 12 4, imglen := fld b 16 4 }
  else {}

/-- The running image; nothing where no firmware runs. -/
def runImage (m : Mach) : Mem := if m.upd.running then (slot m m.upd.runSlot).image else []

/-! ### Saved-state formats (R546, R547) -/

/-- The ranges of two images overlap. -/
def rangesOverlap (lo hi lo' hi' : Nat) : Bool := decide (max lo lo' ≤ min hi hi')

/-- An image's formats overlap with those the partner's running image announces; a partner that has announced none bars
nothing. -/
def suits (m : Mach) (i : Mem) : Bool :=
  m.upd.partner.all fun p => rangesOverlap (imgSsfMin i) (imgSsf i) p.ssfmin p.ssf

/-- Saves may flow: the running images' formats are compatible. -/
def compatible (m : Mach) : Bool := suits m (runImage m)

/-- The format in use on XL; 0 for none. -/
def commonFormat (m : Mach) : Nat :=
  match m.upd.partner with
  | some p => if compatible m then min (imgSsf (runImage m)) p.ssf else 0
  | none => 0

/-! ### Registers (R553) -/

def xferState (m : Mach) : Nat := (m.upd.xfer.map (·.st)).getD 0
def updStat (m : Mach) : Nat :=
  m.upd.runSlot % 2 * 2 ^ 31 + (slot m m.upd.runSlot).sr.trial % 4 * 2 ^ 29 + xferState m % 8 * 2 ^ 26
    + (m.upd.xfer.map (·.slot)).getD 0 % 2 * 2 ^ 25 + b2n m.upd.svcOn * 2 ^ 24 + b2n m.upd.fallback * 2 ^ 23 + m.upd.fcount % 256
def updSlot (m : Mach) (s : Nat) : Nat :=
  let r := (slot m s).sr
  if r.valid then 2 ^ 31 + r.trial % 4 * 2 ^ 29 + r.svn % 256 * 2 ^ 21 + r.release / 65536 else 0
def updSsf (m : Mach) : Nat :=
  imgSsf (runImage m) % 256 * 2 ^ 24 + imgSsfMin (runImage m) % 256 * 2 ^ 16 + (m.upd.partner.map (·.ssf)).getD 0 % 256 * 2 ^ 8
    + commonFormat m % 256

/-! ### Identity (R430) -/

/-- The items of IDENTITY: the stepping is a free value of the part (Assumption 5). -/
def identity (m : Mach) : List Item :=
  [.raw 1 (partName m), .b (Config.stepping % 256), .b m.sys.slotId, .w (claimWord m), .q m.xb.epoch]
    ++ (List.range 6).map fun c => .h (imgVersion (runImage m) c)

def askIdentity (m : Mach) : QRes := .answer m sOk (identity m)

/-! ### Commands (R545, R547, R552) -/

def askUpdStatus (m : Mach) : QRes :=
  .answer m sOk [.w (updStat m), .w (updSlot m 0), .w (updSlot m 1), .w (updSsf m), .w ((m.upd.partner.map (·.release)).getD 0),
    .w ((m.upd.partner.map (·.svn)).getD 0)]

/-- A slot becomes the next to boot, untried (R544). -/
def activate (m : Mach) (s : Nat) : Mach :=
  setRec m s fun r => { r with gen := ((slot m (1 - s)).sr.gen + 1) % 2 ^ 32, trial := 1 }

/-- UPD_ACTIVATE (R544, R547, R552). -/
def askUpdActivate (s : Nat) (m : Mach) : QRes :=
  if 1 < s ∨ !(slot m s).sr.valid ∨ (m.upd.running ∧ s = m.upd.runSlot) then .arg
  else if xferState m = 3 ∧ m.upd.xfer.any fun x => x.slot == s then .conflict 0 0
  else if partnerHere m ∧ !suits m (slot m s).image then .conflict 18 0
  else .answer (activate m s) sDone []

/-- UPD_CONFIRM (R544). -/
def askUpdConfirm (m : Mach) : QRes :=
  .answer (if m.upd.running then setRec m m.upd.runSlot fun r => { r with trial := 0 } else m) sDone []

/-- UPD_RESTART is refused (R548). -/
def restartBarred (m : Mach) : Bool := claiming m || !partnerClaims m || m.pr.ploss

/-- Burn fuses one by one up to a count: each completed burn is reported, and one that fails to read back ends it (R545). -/
def burn : Nat → Nat → Mach → Mach
  | 0, _, m => m
  | k + 1, goal, m =>
    let n := m.upd.fcount + 1
    if goal < n then m
    else if m.upd.fuseStuck.any fun s => decide (s ≤ n) then raise m 0xE30 0xD4 2 m.upd.fcount
    else burn k goal (raise { m with upd := { m.upd with fcount := n } } 0xE30 0xD5 0 n)

/-- UPD_FUSE (R545). -/
def askUpdFuse (m : Mach) : QRes :=
  if !m.upd.running ∨ (slot m m.upd.runSlot).sr.trial ≠ 0 then .conflict 0 0
  else
    let m := burn 129 (imgSvn (runImage m)) m
    .answer m sDone [.w m.upd.fcount]

/-- A transfer ends unfinished (R538, R553). -/
def dropXfer (m : Mach) : Mach :=
  match m.upd.xfer with
  | some x => raise { m with upd := { m.upd with xfer := none, xferFail := sat m.upd.xferFail 1 } } 0xE30 0xD0 0 x.slot
  | none => m

/-- Transfers are enabled or disabled, and an open one abandoned (R552). -/
def setService (on : Bool) (m : Mach) : Mach :=
  let m := { m with upd := { m.upd with svcOn := on } }
  if on then m else dropXfer m

/-- UPD_SVC_CFG (R552). -/
def commitUpdSvcCfg (on : Nat) (m : Mach) : CRes := if 1 < on then .arg else .commit (setService (on == 1) m) []

/-! ### The service port (R535 to R540) -/

/-- The service port works in every state but DEN and OFF (R535). -/
def svcUp (m : Mach) : Bool := m.pwr.st != 2

/-- A reply's bytes (R537). -/
def SvcReply.bytes (r : SvcReply) : List Byte :=
  le 2 0x5653 ++ le 1 r.op ++ le 1 r.status ++ le 4 r.tag ++ le 4 r.offset ++ le 2 r.payload.length ++ le 2 0 ++ r.payload

/-- The framing of RFC 1055: END, the bytes with END and ESC escaped, END (R536). -/
def slip (bs : List Byte) : List Byte :=
  [0xC0#8] ++ (bs.flatMap fun b => if b = 0xC0#8 then [0xDB#8, 0xDC#8] else if b = 0xDB#8 then [0xDB#8, 0xDD#8] else [b]) ++ [0xC0#8]

/-- The bytes between two ENDs, unescaped. -/
def unslip : List Byte → List Byte
  | 0xDB#8 :: 0xDC#8 :: r => 0xC0#8 :: unslip r
  | 0xDB#8 :: 0xDD#8 :: r => 0xDB#8 :: unslip r
  | b :: r => b :: unslip r
  | [] => []

/-- A reply as it leaves: on SVC_UART with its CRC-32C and framed (R536). -/
def SvcReply.wire (r : SvcReply) : List Byte :=
  if r.client = 0 then slip (r.bytes ++ le 4 (crc32c r.bytes).toNat) else r.bytes

/-- Send a reply. -/
def reply (m : Mach) (c : SvcReq) (op status : Nat) (payload : List Byte := []) (offset : Nat := 0) : Mach :=
  let r : SvcReply := { client := c.client, op, status, tag := c.tag, offset, payload }
  { m with upd := { m.upd with reply := some r, wire := r.wire } }

/-- IDENT (R539). -/
def svcIdent (c : SvcReq) (m : Mach) : Mach :=
  reply m c 1 0 (layout (identity m ++ [.w (updStat m), .raw 1 (slot m 0).sr.bytes, .raw 1 (slot m 1).sr.bytes]))

/-- A request that names the transfer: the owner's is taken and starts the 60 s again, another client's is BUSY, and
without a transfer there is nothing to name. -/
def named_ (c : SvcReq) (op : Nat) (m : Mach) (f : Xfer → Mach → Mach) : Mach :=
  match m.upd.xfer with
  | none => reply m c op 8
  | some x =>
    if x.client ≠ c.client then reply m c op 1
    else f x { m with upd := { m.upd with xfer := some { x with lastAt := m.now } } }

/-- Change the transfer. -/
def setXfer (m : Mach) (f : Xfer → Xfer) : Mach := { m with upd := { m.upd with xfer := m.upd.xfer.map f } }

/-- The slot runs, or has been activated and not yet run (R540). -/
def inUse (m : Mach) (s : Nat) : Bool :=
  (m.upd.running && s == m.upd.runSlot) || ((slot m s).sr.valid && (slot m s).sr.trial == 1)

/-- OPEN (R538, R540). A repeat of the open transfer's OPEN changes nothing. -/
def svcOpen (c : SvcReq) (s len : Nat) (m : Mach) : Mach :=
  if !m.upd.svcOn then reply m c 2 8
  else match m.upd.xfer with
    | some x => if x.client = c.client ∧ x.slot = s ∧ x.len = len then reply (setXfer m fun x => { x with lastAt := m.now }) c 2 0
                else reply m c 2 1
    | none =>
      if 1 < s ∨ len = 0 ∨ imageMax < len ∨ len % 4096 ≠ 0 then reply m c 2 2
      else if inUse m s then reply m c 2 7
      else reply { m with upd := { m.upd with xfer := some { client := c.client, slot := s, len, lastAt := m.now } } } c 2 0

/-- Join a byte range to those received: rising and apart. -/
def addRange (a b : Nat) : List (Nat × Nat) → List (Nat × Nat)
  | [] => [(a, b)]
  | (x, y) :: r =>
    if b < x then (a, b) :: (x, y) :: r
    else if y < a then (x, y) :: addRange a b r
    else addRange (min a x) (max b y) r

/-- DATA (R539). It is not taken while a check or a write of the image runs. -/
def svcData (c : SvcReq) (data : List Byte) (m : Mach) : Mach :=
  named_ c 3 m fun x m =>
    let n := data.length
    if x.st = 3 ∨ x.asked ≠ [] then reply m c 3 1 [] c.offset
    else if 1408 < n ∨ x.len < c.offset + n ∨ (n % 64 ≠ 0 ∧ c.offset + n ≠ x.len) then reply m c 3 2 [] c.offset
    else
      let m := setXfer m fun x => { x with st := 1, staged := mput x.staged c.offset data,
                                           ranges := if n = 0 then x.ranges else addRange c.offset (c.offset + n) x.ranges }
      reply m c 3 0 [] c.offset

/-- VERIFY (R539, R542): answered when the checks finish. -/
def svcVerify (c : SvcReq) (m : Mach) : Mach :=
  named_ c 4 m fun x m => if x.st = 3 then reply m c 4 1 else setXfer m fun x => { x with asked := x.asked ++ [c] }

/-- STATUS of a VERIFY's reply by the check that fails (R540, R542). -/
def verifyStatus (k : Nat) : Nat := if k = 0 then 0 else if k = 1 ∨ k = 4 then 3 else if k = 5 then 4 else 5

/-- IMAGE_VERIFY_COMPLETE (R542): a failing check is reported, and each VERIFY that waits is answered. -/
def verified (m : Mach) : Mach :=
  match m.upd.xfer with
  | none => m
  | some x =>
    if x.asked = [] ∨ x.st = 3 then m
    else
      let k := failingCheck m x.staged x.len
      let m := setXfer m fun x => { x with asked := [], st := if k = 0 then 2 else 1 }
      let m := if k = 0 then m
        else raise { m with upd := { m.upd with xferFail := sat m.upd.xferFail 1 } } 0xE30 0xD1 0 x.slot
      x.asked.foldl (fun m c => reply m c 4 (verifyStatus k) (if k = 0 then [] else le 1 k)) m

/-- WRITE (R539, R544): the slot's record is erased first; answered when the slot record is written. -/
def svcWrite (c : SvcReq) (m : Mach) : Mach :=
  named_ c 5 m fun x m =>
    if x.st = 1 then reply m c 5 8
    else if x.st = 2 ∧ x.asked ≠ [] then reply m c 5 1
    else
      let m := if x.st = 3 then m else setRec m x.slot fun _ => {}
      setXfer m fun x => { x with st := 3, asked := x.asked ++ [c] }

/-- Programming of the transfer's image ends (R544). -/
def imageWritten (x : Xfer) (mismatch : Option Nat) (m : Mach) : Mach :=
  let answer (status : Nat) (payload : List Byte) (m : Mach) : Mach := x.asked.foldl (fun m c => reply m c 5 status payload) m
  match mismatch with
  | none =>
    let r : SlotRec := { valid := true, trial := 0, svn := imgSvn x.staged, gen := 0, release := imgRelease x.staged, imglen := x.len }
    let m := setSlot m x.slot { sr := r, image := x.staged }
    answer 0 (le 4 x.len) { m with upd := { m.upd with xfer := none, xferOk := sat m.upd.xferOk 1 } }
  | some o =>
    let m := setSlot m x.slot { sr := {}, image := x.staged }
    let m := setXfer { m with upd := { m.upd with flashErr := sat m.upd.flashErr 1 } } fun x => { x with st := 2, asked := [] }
    answer 6 [] (raise m 0xE30 0xD2 1 (x.slot + o / 256 % 2 ^ 24 * 256))

/-- The lowest byte not received. -/
def missing : List (Nat × Nat) → Nat
  | (0, b) :: _ => b
  | _ => 0

/-- STATUS (R539). -/
def svcStatus (c : SvcReq) (m : Mach) : Mach :=
  match m.upd.xfer with
  | none => reply m c 6 0 (layout [.b 0, .w 0, .w 0])
  | some _ => named_ c 6 m fun x m =>
      let n := x.ranges.foldl (fun a r => a + (r.2 - r.1)) 0
      reply m c 6 0 (layout [.b x.st, .w n, .w (missing x.ranges)])

/-- ABORT (R538, R539). -/
def svcAbort (c : SvcReq) (m : Mach) : Mach :=
  match m.upd.xfer with
  | none => reply m c 7 0
  | some _ => named_ c 7 m fun x m => if x.st = 3 then reply m c 7 1 else reply { m with upd := { m.upd with xfer := none } } c 7 0

/-- FAULTS (R539): records of R531 from an index, as many as a payload holds. -/
def svcFaults (c : SvcReq) (m : Mach) : Mach :=
  reply m c 0x10 0 ((((listed m 0).drop c.offset).take 44).map FaultRec.bytes).flatten c.offset

/-- SERVICE_TRANSFER_ABANDONED (R538). A check or a write in progress runs to its end. -/
def transferAbandoned (m : Mach) : Mach :=
  match m.upd.xfer with
  | some x => if x.lastAt + 60000 * msT < m.now ∧ x.asked = [] then dropXfer m else m
  | none => m

/-- The module's address on SVC (R535). -/
def svcAddr (m : Mach) : Nat := 0xA9FE4D00 + m.sys.slotId % 256

/-- A service message is discarded for its MAGIC, length or CRC. -/
def badMessage (m : Mach) : Mach := { m with upd := { m.upd with svcBad := sat m.upd.svcBad 1 } }

/-- A message is 16 bytes of header, then the payload that LEN counts (R537). -/
def serviceOk (bs : List Byte) : Bool := fld bs 0 2 == 0x5653 && decide (16 ≤ bs.length) && fld bs 12 2 == bs.length - 16

/-- Serve a request while the port works. -/
def serve (f : Mach → Mach) : State → Host.Outcome State Fault Refusal := run fun m => if svcUp m then f m else m

/-- IDENT (R539). -/
def execSvcIdent (c : SvcReq) := serve (svcIdent c)
/-- OPEN (R539). -/
def execSvcOpen (c : SvcReq) (slot len : Nat) := serve (svcOpen c slot len)
/-- DATA (R539). -/
def execSvcData (c : SvcReq) (data : List Byte) := serve (svcData c data)
/-- VERIFY (R542). -/
def execSvcVerify (c : SvcReq) := serve (svcVerify c)
/-- WRITE (R544). -/
def execSvcWrite (c : SvcReq) := serve (svcWrite c)
/-- STATUS (R539). -/
def execSvcStatus (c : SvcReq) := serve (svcStatus c)
/-- ABORT (R539). -/
def execSvcAbort (c : SvcReq) := serve (svcAbort c)
/-- FAULTS (R539). -/
def execSvcFaults (c : SvcReq) := serve (svcFaults c)
/-- SERVICE_TRANSFER_ABANDONED (R538). -/
def execServiceTransferAbandoned := run transferAbandoned
/-- IMAGE_VERIFY_COMPLETE (R542). -/
def execImageVerifyComplete := run verified

end Sys2Proof.Machine
end

