-- ==== Sys2Proof/Machine/Boot.lean ====
section
/-! DEFINITION. Resets, the boot phases, the calibration store and the board table (chapter 20). -/
namespace Sys2Proof.Machine

/-! ### Resets (R554) -/

/-- What every reset keeps: fuses, flash contents; the tick count and the free values' counter are the model's own. -/
def resetBlocks (m : Mach) (cause : Nat) : Blocks :=
  { now := m.now, free := m.free,
    upd := { slotA := m.upd.slotA, slotB := m.upd.slotB, fcount := m.upd.fcount, fuseStuck := m.upd.fuseStuck, keys := m.upd.keys },
    sys := { rstCause := cause, resetAt := m.now, phaseAt := m.now, calA := m.sys.calA, calB := m.sys.calB, btA := m.sys.btA,
             btB := m.sys.btB, sample := m.sys.sample } }

/-- A power-on reset (R554): 0 the rails have become good, 1 VIN_AUX was lost. -/
def powerOn (cause : Nat) (m : Mach) : Mach := { toBlocks := resetBlocks m cause }

/-- A restart (R554, R567): device time, fault records, the holdover history and the quarantine and spare state outlast it;
the records that stand until the next reset are dropped. -/
def restart (m : Mach) : Mach :=
  let b := resetBlocks m 2
  let recs := m.flt.recs.filter fun r => !(r.src == 0xE40 && (r.kind == 0xE4 || r.kind == 0xE6))
  let keep (_ : Nat) (p : Pc) : Pc := { quar := p.quar, st := if p.quar ∧ p.spare.isNone then 2 else 0, spare := p.spare }
  let spares (_ : Nat) (x : Stack) : Stack := { sp0 := x.sp0, sp1 := x.sp1, sp0Bad := x.sp0Bad, sp1Bad := x.sp1Bad }
  let d := m.tmg.dpll
  { toBlocks := { b with
      dt := { t := m.dt.t, valid := m.dt.valid },
      pwr := { rails := m.pwr.rails },
      flt := { recs, grave := recs.any fun r => r.cls == 3, caseTemp := m.flt.caseTemp, coolSince := m.flt.coolSince,
               hot := m.flt.hot },
      tmg := { dpll := { hist := d.hist, means := d.means, samples := d.samples, mark := d.mark, markT := d.markT,
                         temp := d.temp } },
      mem := { pcs := tmap keep m.mem.pcs, stks := tmap spares m.mem.stks } } }

/-! ### The calibration store (R560 to R563) -/

/-- Length of a store, and of its bytes under the CRC. -/
def calLen : Nat := 8964
def calBody : Nat := 8960

/-- A copy is valid (R561). -/
def calOk (b : List Byte) : Bool :=
  b.length == calLen && fld b 0 4 == 0x4C414354 && fld b 4 2 == 1 && (crc32c (b.take calBody)).toNat == fld b calBody 4

/-- Write bytes into a list at an offset. -/
def splice (b : List Byte) (o : Nat) (v : List Byte) : List Byte := b.take o ++ v ++ b.drop (o + v.length)

/-- The section of PRESENT that an offset of the store lies in. -/
def calSection (o : Nat) : Nat := if o < 8768 then 0 else if o < 8832 then 1 else 2

/-- An empty store, from which the first write forms one where none is in use. -/
def calBlank (m : Mach) : List Byte :=
  padTo 0 calBody (le 4 0x4C414354 ++ le 2 1 ++ le 6 0 ++ le 1 m.sys.xonom ++ le 3 0 ++ List.replicate 16 0x20)

/-- The new store of a write (R562). -/
def calNew (m : Mach) (ps : List (Nat × List Byte)) : List Byte :=
  let old := if m.sys.cal.isEmpty then calBlank m else m.sys.cal.take calBody
  let b := ps.foldl (fun b p => splice b p.1 p.2) old
  let ch := mask ((List.range 3).map fun i => ps.any fun p => calSection p.1 == i)
  let b := splice b 6 (le 1 (fld b 6 1 ||| ch) ++ le 1 (fld b 7 1 ||| ch) ++ le 4 (fld b 8 4 + 1))
  b ++ le 4 (crc32c b).toNat

/-- c(T) of R331 from the store in use. -/
def loadOsc (m : Mach) : Mach :=
  let osc := if calHas m 2 then (List.range 31).map fun k => ofBits 32 (calNum m (8836 + 4 * k) 4) else []
  { m with tmg := { m.tmg with osc } }

/-- The first waiting write begins, unless a service-port WRITE programs a device (R562). -/
def pumpCal (m : Mach) : Mach :=
  match m.sys.jobs with
  | j :: r =>
    if j.begun ∨ xferState m = 3 ∨ m.sys.phase ≠ 0 ∧ m.sys.phase ≤ 5 then m
    else
      let j := { j with begun := true, store := if j.only then j.store else calNew m j.patches }
      { m with sys := { m.sys with jobs := j :: r } }
  | [] => m

/-- A write has reached its last device: the store is in use, and the command is answered (R562, R569). A write that read
back wrong is answered FAULTED (Assumption 33). -/
def calDone (j : CalJob) (m : Mach) : Mach :=
  let m := { m with sys := { m.sys with jobs := m.sys.jobs.drop 1 } }
  let m := if j.only then m else loadOsc { m with sys := { m.sys with cal := j.store, calUsed := if m.sys.calUsed = 0 then 1 else m.sys.calUsed } }
  pumpCal (match j.ask with
    | some (n, hseq, op) =>
      if !live m n then m
      else if j.bad then postFinal m n op hseq sFaulted ({} : Ref).bytes 1
      else postFinal m n op hseq sDone (if op = 0x0D51 then layout [.w (fld j.store 8 4)] else []) 1
    | none => m)

/-- Programming of a calibration copy ends (R561, R562): a mismatching byte is a free value. -/
def calWritten (j : CalJob) (dev : Nat) (mismatch : Option Nat) (m : Mach) : Mach :=
  let (seed, m) := fresh m
  let b := match mismatch with
    | some o => splice j.store (o % calLen) (le 1 (Config.unstated seed % 256))
    | none => j.store
  let m := { m with sys := if dev = 0 then { m.sys with calA := b } else { m.sys with calB := b } }
  let m := match mismatch with
    | some o => raise m 0xE30 0xD2 1 (dev + (0x6100000 + o) / 256 % 2 ^ 24 * 256)
    | none => if j.only then raise m 0xE40 0xE0 0 else m
  let j := { j with bad := j.bad || mismatch.isSome }
  if dev = 0 ∧ !j.only then { m with sys := { m.sys with jobs := { j with dev := 1 } :: m.sys.jobs.drop 1 } } else calDone j m

/-- FLASH_WRITE_COMPLETE (R544, R562): the transfer's image or the calibration copy that the device was programmed with. -/
def flashWritten (dev : Nat) (mismatch : Option Nat) (m : Mach) : Mach :=
  match m.upd.xfer with
  | some x => if x.st = 3 ∧ x.slot = dev then pumpCal (imageWritten x mismatch m) else other m
  | none => other m
where
  /-- No image is being written to the device. -/
  other (m : Mach) : Mach := match m.sys.jobs with
    | j :: _ => if j.begun ∧ j.dev = dev then calWritten j dev mismatch m else m
    | [] => m

/-! ### Commands (R388, R389, R568, R569) -/

/-- Offset and length of a section: 0 is the header. -/
def calSpan (s : Nat) : Nat × Nat :=
  match s with
  | 0 => (0, 64)
  | 1 => (64, 8704)
  | 2 => (8768, 64)
  | _ => (8832, 128)

/-- CAL_READ (R569): the section in use, zeros where there is none. -/
def askCalRead (n s off : Nat) (m : Mach) : QRes :=
  let (o, k) := calSpan s
  if 3 < s then .arg
  else .answer (putSalvo m n off (padTo 0 k (sub m.sys.cal o k))) sOk [.w (calNum m 8 4)]

/-- A write of the store is taken (R562). -/
def queueCal (m : Mach) (j : CalJob) : Mach := pumpCal { m with sys := { m.sys with jobs := m.sys.jobs ++ [j] } }

/-- CAL_WRITE (R569). -/
def askCalWrite (n hseq s off : Nat) (m : Mach) : QRes :=
  let (o, k) := calSpan s
  if s = 0 ∨ 3 < s then .arg
  else
    let b := salvo m n off k
    if s = 3 ∧ fld b 0 4 ≠ 0 then .arg
    else .accept (queueCal m { ask := some (n, hseq, 0x0D51), patches := [(o, b)] })

/-- A delay record's place in the store (R560). -/
def delayAt (n : Nat) : Nat := 64 + 64 * (if n < 128 then n / 32 * 34 + n % 32 else (n - 128) / 2 * 34 + 32 + n % 2)

/-- MEM_CAL_SAVE (R385, R388): the delays in force of the positions that the mask selects. -/
def askMemCalSave (n hseq mask_ : Nat) (m : Mach) : QRes :=
  let ps := (members 128 mask_).map fun k => (delayAt k, padTo 0 64 (tget [] m.mem.delays k))
  .accept (queueCal m { ask := some (n, hseq, 0x0D44), patches := ps })

/-! ### Boot phases (R556 to R559, R561, R563, R564) -/

/-- The memory's delays are loaded and its positions verified (R385, R560): an absent section makes every position search,
and a search's result is a free value. -/
def loadMemory (bad worse : List Nat) (m : Mach) : Mach :=
  let bad := if calHas m 0 then bad else List.range 136
  let keep (n : Nat) : Bool := n < 128 && (pc m n).searched
  let delays := (List.range 136).foldl (fun t n =>
    if keep n then t else tset t n (sub m.sys.cal (delayAt n) 64)) m.mem.delays
  let m := verifyMem (bad.filter fun n => !keep n) worse { m with mem := { m.mem with delays } }
  bad.foldl (fun m n =>
    if worse.contains n then m
    else
      let (seed, m) := fresh m
      { m with mem := { m.mem with delays := tset m.mem.delays n (padTo 0 64 (le 18 (Config.unstated seed))) } }) m

/-- The copies and what follows (R561). -/
def useCal (m : Mach) : Mach :=
  let a := m.sys.calA
  let b := m.sys.calB
  let use (k : Nat) (c : List Byte) (m : Mach) : Mach := { m with sys := { m.sys with calUsed := k, cal := c } }
  let repair (dev : Nat) (c : List Byte) (m : Mach) : Mach :=
    { m with sys := { m.sys with jobs := m.sys.jobs ++ [{ store := c, dev, only := true }] } }
  loadOsc (match calOk a, calOk b with
    | true, true =>
      if a = b then use 1 a m
      else if fld a 8 4 < fld b 8 4 then repair 0 b (use 2 b m) else repair 1 a (use 1 a m)
    | true, false => repair 1 a (use 1 a m)
    | false, true => repair 0 b (use 2 b m)
    | false, false => raise (use 0 [] m) 0xE40 0xE1 1)

/-- TREV of a board table (R150). -/
def boardRev (b : List Byte) : Nat := fld b 16 4

/-- The board table (R564): the checks of R152 on the copies, then on the entries of the one in use. -/
def useBoard (m : Mach) : Mach :=
  let a := m.sys.btA
  let b := m.sys.btB
  let use (k : Nat) (c : List Byte) (m : Mach) : Mach := loadBoard c { m with sys := { m.sys with btUsed := k } }
  let m := { m with sys := { m.sys with btAOk := boardOk a, btBOk := boardOk b } }
  match boardOk a, boardOk b with
  | true, true =>
    if a = b then use 1 a m
    else raise (if boardRev a < boardRev b then use 2 b m else use 1 a m) 0xE40 0xE3 1
  | true, false => raise (use 1 a m) 0xE40 0xE2 1 1
  | false, true => raise (use 2 b m) 0xE40 0xE2 1 0
  | false, false => raise m 0xE40 0xE4 2

/-- A slot may be booted: valid, and not below the fuse count (R544, R545). -/
def bootable (m : Mach) (s : Nat) : Bool := (slot m s).sr.valid && decide (m.upd.fcount ≤ (slot m s).sr.svn)

/-- The slots in the order in which S4 tries them, and the slot passed over for its trial (R544, R557). -/
def bootOrder (m : Mach) : List Nat × Option Nat :=
  let first := if (slot m 0).sr.gen < (slot m 1).sr.gen then 1 else 0
  match bootable m first, bootable m (1 - first) with
  | true, true => if (slot m first).sr.trial = 2 then ([1 - first, first], some first) else ([first, 1 - first], none)
  | true, false => ([first], none)
  | false, true => ([1 - first], none)
  | false, false => ([], none)

/-- A new phase begins. -/
def toPhase (k : Nat) (m : Mach) : Mach := { m with sys := { m.sys with phase := k, phaseAt := m.now } }

/-- ROM service mode (R559): lanes idle, ROLE 0, no firmware. -/
def enterRom (m : Mach) : Mach :=
  let idle (_ : Nat) (x : Lane) : Lane := { x with ready := false, lock := false, sig := false, rate := 0, toRate := none }
  let m := { m with sys := { m.sys with romMode := true }, upd := { m.upd with running := false },
                    ln := { m.ln with lanes := tmap idle m.ln.lanes }, wl := {} }
  setRole (raise m 0xE40 0xE6 2) 0

/-- S4 (R557): the first image in order that passes checks 2 to 5 runs. -/
def chooseImage (m : Mach) : Mach :=
  let (order, passed) := bootOrder m
  let bad (s : Nat) : Bool := imageFault m (slot m s).image (slot m s).sr.imglen != 0
  let later := (match passed with
    | some s => [(0xE30, 0xD3, s)]
    | none => []) ++ (order.takeWhile bad).map fun s => (0xE40, 0xE5, s)
  match order.find? fun s => !bad s with
  | none => enterRom { m with sys := { m.sys with rejected := order } }
  | some s =>
    let m := if (slot m s).sr.trial = 1 then setRec m s fun r => { r with trial := 2 } else m
    let fallback := decide (later ≠ [])
    toPhase 5 { m with upd := { m.upd with runSlot := s, running := true, fallback },
                       sys := { m.sys with slot := s, later, rejected := order.takeWhile bad } }

/-- The voltages of good rails and the VAON current, averaged over 1 ms: measured outside the model, so free values (R512,
R513). -/
def sampleRails (m : Mach) : Mach :=
  let seed := m.free
  let rail (k : Nat) (x : Bool × Nat) : Bool × Nat := if x.1 then (true, Config.unstated (seed + k) % 2 ^ 16) else x
  { m with pwr := { m.pwr with rails := tmap rail m.pwr.rails, measured := Config.unstated (seed + 10) % 2 ^ 16 }, free := seed + 11 }

/-- The reset ends once every board rail is good; one found low before a restart stays so (R492, R493, R513). -/
def railsGood (m : Mach) : Mach :=
  sampleRails { m with pwr := { m.pwr with rails := (List.range 10).map fun k => (k, tget (true, 0) m.pwr.rails k) } }

/-- The nominal frequencies of the XO in Hz (R560). -/
def xoNominals : List Nat := [10000000, 12800000, 20000000, 25000000, 38880000, 40000000, 49152000, 54000000]

/-- The nearest nominal to a measured frequency (R563). -/
def nearestXo (hz : Nat) : Nat :=
  let off (k : Nat) : Nat := let x := lget 0 xoNominals k; max x hz - min x hz
  (List.range 8).foldl (fun a k => if off k < off a then k else a) 0

/-- S1 ends: slot ID latched, the XO measured, FAULT_N released (R523, R563). -/
def endS1 (f : BootFind) (m : Mach) : Mach :=
  let m := railsGood m
  toPhase 2 { m with sys := { m.sys with slotId := f.slotId % 256, xonom := nearestXo f.xo }, pr := { m.pr with slotId := f.slotId % 256 },
                     flt := { m.flt with passed := true } }

/-- A slot after what has been programmed into it from outside. -/
def Slot.programmed (x : Slot) (sr : Option (List Byte)) (image : Option Mem) : Slot :=
  { sr := (sr.map SlotRec.ofBytes).getD x.sr, image := image.getD x.image }

/-- S2 ends: what has been programmed into the flash devices from outside is read with the rest, and copies are chosen. -/
def endS2 (f : BootFind) (m : Mach) : Mach :=
  let m := { m with sys := { m.sys with calA := f.calA.getD m.sys.calA, calB := f.calB.getD m.sys.calB,
                                        btA := f.btA.getD m.sys.btA, btB := f.btB.getD m.sys.btB },
                    upd := { m.upd with slotA := m.upd.slotA.programmed f.recA f.imgA, slotB := m.upd.slotB.programmed f.recB f.imgB } }
  let m := useBoard (useCal m)
  toPhase 3 (if m.sys.calUsed ≠ 0 ∧ calNum m 12 1 ≠ m.sys.xonom then raise m 0xE40 0xE7 1 (calNum m 12 1) else m)

/-- Positions that fail their verification, and those that fail their search as well, from one list. -/
def failing (l : List Nat) : List Nat × List Nat :=
  (l.filter (· < 136), (l.filter fun n => 136 ≤ n && n < 272).map (· - 136))

/-- S3 ends: the memory is loaded and verified; after a restart quarantined positions stay as they are (R385, R556). -/
def endS3 (f : BootFind) (m : Mach) : Mach :=
  let (bad, worse) := failing f.badPos
  toPhase 4 (loadMemory bad worse m)

/-- S5 ends: SYS_REMAP is set, the firmware raises what start-up found, and copies are repaired; the protocols of S6 start. -/
def endS5 (m : Mach) : Mach :=
  let from_ (p : HbPath) : HbPath := { p with at_ := m.now }
  let m := { m with bus := { m.bus with remap := true },
                    pr := { m.pr with watching := true, pathA := from_ m.pr.pathA, pathB := from_ m.pr.pathB, pathPin := from_ m.pr.pathPin } }
  let m := m.sys.later.foldl (fun m x => raise m x.1 x.2.1 1 x.2.2) m
  pumpCal (toPhase 6 { m with sys := { m.sys with later := [] } })

/-- S6 ends: the DPLL has started (R558). -/
def endS6 (m : Mach) : Mach :=
  toPhase 7 (if m.sys.rstCause = 2 ∧ !(trusted m.tmg.dpll).isEmpty then enterHoldover m else enterFreerun m)

/-- The module is ready: SYS_READY (R566). -/
def settleReady (m : Mach) : Mach :=
  if m.sys.phase = 7 ∧ m.pr.fit ∧ (m.pr.role = 4 ∨ 8 ≤ m.pr.role) then
    { m with sys := { m.sys with phase := 0, readyMs := (m.now - m.sys.resetAt) / msT } }
  else m

/-- BOOT_PHASE_END (R556): the phase in progress ends; S7 ends when the module is ready. -/
def phaseEnd (f : BootFind) (m : Mach) : Mach :=
  if m.sys.romMode then m
  else match m.sys.phase with
    | 1 => endS1 f m
    | 2 => endS2 f m
    | 3 => endS3 f m
    | 4 => chooseImage m
    | 5 => endS5 m
    | 6 => endS6 m
    | 7 => settleReady m
    | _ => m

/-- The tick by which the phase in progress must end (R556): S4 reads the chosen image at 100 MB/s. -/
def phaseLimit (m : Mach) : Nat :=
  let r := m.sys.resetAt
  match m.sys.phase with
  | 1 => r + msT
  | 2 => r + 5 * msT
  | 3 => r + 7 * msT
  | 4 => r + 17 * msT + (((bootOrder m).1.head?.map fun s => (slot m s).sr.imglen).getD 0) * 5
  | _ => m.sys.phaseAt + 5 * msT

/-- BOOT_PHASE_OVERRUN (R6, R556): by more than 100 ms. S6 and S7 have no limit. -/
def phaseOverrun (m : Mach) : Mach :=
  if m.sys.romMode ∨ m.sys.phase = 0 ∨ 6 ≤ m.sys.phase ∨ m.now ≤ phaseLimit m + 100 * msT then m else enterRom m

/-- ACTIVATE (R539, R540, R559): taken only under the boot ROM; the module then restarts. -/
def svcActivate (c : SvcReq) (s : Nat) (m : Mach) : Mach :=
  if m.upd.running then reply m c 8 8
  else if 1 < s ∨ !(slot m s).sr.valid then reply m c 8 2
  else
    let m' := restart (activate m s)
    reply m' c 8 0

/-- ACTIVATE (R559). -/
def execSvcActivate (c : SvcReq) (slot : Nat) := serve (svcActivate c slot)
/-- POWER_ON_RESET (R554). -/
def execPowerOnReset (cause : Nat) := runIf (cause < 2) (powerOn cause)
/-- BOOT_PHASE_END (R556). -/
def execBootPhaseEnd (find : BootFind) := run (phaseEnd find)
/-- BOOT_PHASE_OVERRUN (R556). -/
def execBootPhaseOverrun := run phaseOverrun
/-- FLASH_WRITE_COMPLETE (R544). -/
def execFlashWriteComplete (dev : Nat) (mismatch : Option Nat) := runIf (dev < 2) (flashWritten dev mismatch)

end Sys2Proof.Machine
end

