-- ==== Sys2Proof/Machine/SwitchPoint.lean ====
section
/-! DEFINITION. The plane pipeline: cut-off, staging, the switch point, catch-up, reports (R41 to R45, R53 to R55, R79 to
R83, R266). -/
namespace Sys2Proof.Machine


/-- The destination's path waits for a first complete frame (R43): a source that is absent is no cold switch. -/
def coldPath (m : Mach) (s p : Nat) : Bool :=
  pathOf m s p == 2 && (decide (2304 ≤ s) || (pair m s p).cls != 0) &&
    !((feedOf m s p).any fun f => (tget {} m.is_.feeds f).started)


/-! ### The fixed set of a switch point (R17, R25) -/

/-- Effects due at a plane's switch point `k`, lower epochs first. -/
def dueEffs (m : Mach) (p k : Nat) : List Pend := m.xb.pend.filter fun e => e.plane == p && decide (e.target ≤ k)

/-- One effect on the routes that are on air, without its audio. A binding or an audio mode that a higher epoch has overtaken
gives way (R25), and so does a take of a plane that the destination has left, whose route the binding brought along. A binding
that moves the destination brings its audio in by a crossfade of 64 samples (R266). -/
def applyRoute (m : Mach) (e : Pend) : Mach :=
  match e.eff with
  | .route d v a ramp =>
    if (air m d).plane = e.plane then
      setAir m d fun x => { x with src := v.getD x.src, asrc := a.getD x.asrc, epoch := e.epoch,
                                   cold := if v.isSome then false else x.cold,
                                   fadeIn := if a.isSome then some (ramp + 1) else x.fadeIn }
    else m
  | .bind d p src asrc => setAir m d fun x =>
    if e.epoch < x.bindEp then x
    else if x.plane = p ∧ x.src = src ∧ x.asrc = asrc then { x with epoch := e.epoch, bindEp := e.epoch }
    else { x with plane := p, src, asrc, epoch := e.epoch, bindEp := e.epoch, cold := false,
                  fadeIn := if x.asrc = asrc ∧ 2400 ≤ asrc then none else some 64 }
  | .amode d mode => setAir m d fun x =>
    if e.epoch < x.modeEp then x else { x with amode := mode, epoch := e.epoch, modeEp := e.epoch }
  | _ => m

/-- A pair of a SYNC source is back in its window, or SYNC no more: the condition ends with the last such pair (R83). -/
def syncBack (m : Mach) (s p : Nat) : Mach :=
  if (pair m s p).breached then
    let m := setPair m s p fun x => { x with breached := false }
    if (List.range 16).any fun q => (pair m s q).breached then m else endCond m s 0x14
  else m

/-- A source whose frame buffers a change releases at a plane's switch point keeps them for one frame of the plane (R41). -/
def keepBufs (s p : Nat) (f : Mach → Mach) (m : Mach) : Mach :=
  let m' := f m
  if (bufSources m m.xb.holds).contains s && !(bufSources m' m'.xb.holds).contains s then
    { m' with xb := { m'.xb with fbRet := m'.xb.fbRet ++ [(s, p)] } }
  else m'

/-- One effect on sources, generators and groups (R35, R103). A generator's older setting gives way to a newer one (R25). -/
def applySource (m : Mach) (e : Pend) : Mach :=
  match e.eff with
  | .gen g v =>
    if e.epoch < tget 0 m.xb.gensEp g then m
    else
      let m := if (genNow m g).tone = v.tone then m else
        { m with aud := { m.aud with tones := tmod [] m.aud.tones g fun l => (indexFrom m m.dt.t, v.tone) :: l } }
      { m with xb := { m.xb with gensNow := tset m.xb.gensNow g v, gensEp := tset m.xb.gensEp g e.epoch } }
  | .srcMode s mode sticky hold =>
    let m := keepBufs s e.plane (fun m =>
      setPair m s e.plane fun x => { x with sync := mode == 1, sticky := sticky == 1, lossHold := hold }) m
    if mode = 0 then syncBack m s e.plane else m
  | .srcWarm s on =>
    if on then m
    else keepBufs s e.plane (fun m => setSrc m s fun x => { x with warmOff := x.warmOff.filter (· != e.plane) }) m
  | .srcGroup g form => g.foldl (fun m s => setPair m s e.plane fun x => { x with grp := if form then g else [] }) m
  | .srcWindow s w qc => setPair m s e.plane fun x => { x with wSet := w, qSet := qc }
  | _ => m

/-! ### Classes (R80, R82, R83) -/

/-- The class that takes effect for a pair at switch point `k`, if one does. -/
def SrcPlane.dueAt (x : SrcPlane) (k : Nat) : Option Nat := ((x.due.filter fun d => decide (d.2 ≤ k)).getLast?).map (·.1)

/-- A pair changes class at a switch point (R80 to R83): the age it had is kept for the audio (R264). -/
def changeClass (m : Mach) (s p c : Nat) : Mach :=
  let x := pair m s p
  let m := match psiNow m s p with
    | some t => { m with aud := { m.aud with psi := tset m.aud.psi (16 * s + p) t } }
    | none => m
  let m := setSrcCnt (setPair m s p fun x => { x with cls := c }) s fun n => { n with reclass := sat n.reclass 1 }
  let m := if !x.sync ∧ (x.cls = 2 ∧ c = 3 ∨ x.cls = 3 ∧ c = 2) then raise m s 0x13 0 else m
  let m := if !x.sync ∧ x.sticky ∧ x.cls = 2 ∧ c = 3 then m else
    if !x.sync ∧ x.cls = 2 ∧ c = 3 then
      match feedOf m s p with
      | some f => { m with is_ := { m.is_ with feeds := tmod {} m.is_.feeds f fun y =>
          if y.started then { y with drops := sat y.drops (dropsFrom y.last (srcOf m s).frame), last := (srcOf m s).frame } else y } }
      | none => m
    else m
  if c = 3 then syncBack m s p else m

/-- Every class change due at a plane's switch point; answers the sources whose class changed. -/
def classesAt (m : Mach) (p k : Nat) : Mach × List Nat :=
  m.is_.pairs.foldl (fun (a : Mach × List Nat) y =>
    if y.1 % 16 ≠ p then a
    else
      let s := y.1 / 16
      match y.2.dueAt k with
      | none => a
      | some c =>
        let m := setPair a.1 s p fun x => { x with due := x.due.filter fun d => !decide (d.2 ≤ k) }
        if c = y.2.cls then (m, a.2) else (changeClass m s p c, a.2 ++ [s])) (m, [])

/-! ### Destinations at the switch point (R43, R45, R50, R81, R266) -/

/-- Destination unit of a destination (R516). -/
def destSrc (d : Nat) : Nat := 0x960 + d / 8

/-- A destination carries a source that is MISMATCHED towards its plane (R81). -/
def mismatched (m : Mach) (d : Nat) : Bool := let a := air m d; decide (a.src < 2304) && (pair m a.src a.plane).cls == 1

/-- Raise or end *format mismatch* for one destination; a unit's condition ends with its last mismatched destination. -/
def noteMismatch (was : Nat → Bool) (m : Mach) (d : Nat) : Mach :=
  if mismatched m d then (if was d then m else raise m (destSrc d) 0x12 1 d)
  else if was d ∧ !((span (d / 8 * 8) 8).any (mismatched m)) then endCond m (destSrc d) 0x12
  else m

/-- The audio of a destination's take at its switch point (R50, R266): a crossfade, or the fade out of a cold switch. -/
def fadeTake (m : Mach) (d : Nat) (ses : Nat) : Mach :=
  let a := air m d
  match a.fadeIn with
  | none => m
  | some len =>
    let st := delayedStart m d
    if a.amode ≠ 0 then setAir m d fun x => { x with fadeIn := none }
    else if a.cold then fadeGroup m a.epoch ses d 4095 len st
    else setAir (fadeGroup m a.epoch ses d a.asrc len st) d fun x => { x with fadeIn := none }

/-- A destination whose video changed: cold if its path has no complete frame yet. Answers whether it switched cold. -/
def coldSwitch (m : Mach) (d : Nat) : Mach × Bool :=
  let a := air m d
  if coldPath m a.src a.plane then
    let m := setAir m d fun x => { x with cold := true }
    (raise { m with xb := { m.xb with coldSw := sat m.xb.coldSw 1 } } (destSrc d) 0x10 0 d, true)
  else (m, false)

/-- A cold destination's first complete frame has come: it switches, and its audio comes in (R43, R266). -/
def warmUp (m : Mach) (d : Nat) : Mach :=
  let a := air m d
  if a.cold ∧ !coldPath m a.src a.plane then fadeTake (setAir m d fun x => { x with cold := false }) d 255 else m

/-- The destinations that effects name, by what they change. -/
def videoDests (es : List Pend) : List Nat :=
  (es.filterMap fun e => match e.eff with
    | .route d (some _) _ _ => some d
    | _ => none).eraseDups
def audioDests (es : List Pend) : List Nat :=
  (es.filterMap fun e => match e.eff with
    | .route d _ (some _) _ => some d
    | _ => none).eraseDups
def boundDests (es : List Pend) : List Nat :=
  (es.filterMap fun e => match e.eff with
    | .bind d _ _ _ => some d
    | _ => none).eraseDups

/-- The session that committed an epoch, as its report names it. -/
def sesOf (m : Mach) (ep : Nat) : Nat := ((m.xb.airing.find? fun r => r.epoch == ep).map (·.ses)).getD 255

/-- Routes that leave the air return their read feeds at once and their frame buffers one frame later (R41). -/
def returnRoutes (m : Mach) (p k : Nat) : Mach :=
  let gone (h : Hold) : Bool := h.out.any fun o => o.1 == p && decide (o.2 ≤ k)
  let ret := ((m.xb.holds.filter fun h => gone h && synced m h.src h.plane).map fun h => (h.src, p)).eraseDups
  dropFeeds { m with xb := { m.xb with holds := m.xb.holds.filter fun h => !gone h,
                                       fbRet := m.xb.fbRet ++ ret.filter fun r => !m.xb.fbRet.contains r } }

/-- The reports of a switch point become due for posting (R55). -/
def reportAir (m : Mach) (p k cold : Nat) : Mach :=
  let due (r : Airing) : Bool := r.plane == p && decide (r.target ≤ k)
  let out (r : Airing) : OnAir :=
    { epoch := r.epoch, ses := r.ses, plane := p, swcnt := k % 2 ^ 32, cold,
      carried := (r.dests.eraseDups.filter fun d => (air m d).epoch == r.epoch).length }
  { m with xb := { m.xb with onAir := m.xb.onAir ++ (m.xb.airing.filter due).map out,
                             airing := m.xb.airing.filter fun r => !due r } }

/-! ### Cut-off and staging (R53, R54, R61) -/

/-- PLANE_CUTOFF (R17, R53): the switch point's set is fixed, and the changed entries are staged. -/
def planeCutoff (p : Nat) (m : Mach) : Mach :=
  let k := (plane m p).nextSw
  let es := dueEffs m p k
  let m1 := es.foldl applyRoute (classesAt m p k).1
  let ds := ((videoDests es) ++ (boundDests es) ++ (tkeys (fun (a : Air) => a.plane == p) m1.xb.air)).eraseDups.filter fun d =>
    (air m1 d).plane == p
  let bg := ds.foldl (fun (t : Tab RtEntry) d =>
    let e := rtEntry m1 (air m1 d)
    if e = rtEntry m (air m d) then t else tset t d e) m.xb.bg
  let staged := !es.isEmpty || m.is_.pairs.any fun y => y.1 % 16 == p && (y.2.dueAt k).isSome
  let m := { m with xb := { m.xb with bg } }
  setPlane m p fun x => { x with cut := true, staging := staged || x.staging, ready := x.ready && !staged }

/-- STAGING_COMPLETE (R53): the background bank is whole. -/
def stagingComplete (p us : Nat) (m : Mach) : Mach :=
  if !(plane m p).staging then m
  else setPlane { m with xb := { m.xb with stageMax := max m.xb.stageMax (min us 0xFFFFFFFF) } } p fun x =>
    { x with staging := false, ready := true }

/-- A BANK_SWAP of a plane that waits for the bank may now commit (R62). -/
def bankReady (m : Mach) (p : Nat) : Mach := recordReady m fun c => c == .bankSwap p

/-- A destination's entry has been written by the host in an open load of the plane (R61). -/
def loadedIn (m : Mach) (p d : Nat) : Bool := m.xb.loads.any fun l => l.plane == p && (tget? d l.entries).isSome

/-- CATCH_UP_COPY_COMPLETE (R53, R61): every entry not written by the host, and not staged since, is copied. -/
def catchUp (p : Nat) (m : Mach) : Mach :=
  let copied (d : Nat) : Bool := (air m d).plane == p && !loadedIn m p d
  let m := if (plane m p).cut then m else { m with xb := { m.xb with bg := m.xb.bg.filter fun x => !copied x.1 } }
  bankReady (setPlane m p fun x => { x with ready := true }) p

/-- The banks of a plane change places at its switch point (R53): the background holds what the foreground of `m0` held, until
the catch-up copy. -/
def flipBank (m0 : Mach) (p : Nat) (m : Mach) : Mach :=
  let mine (x : Mach) : List Nat := tkeys (fun (a : Air) => a.plane == p) x.xb.air
  let ds := (mine m0 ++ mine m).eraseDups.filter fun d => !loadedIn m p d
  let bg := ds.foldl (fun t d =>
    let e := rtEntry m0 (air m0 d)
    if e = rtEntry m (air m d) then tdel t d else tset t d e) m.xb.bg
  setPlane { m with xb := { m.xb with bg } } p fun x => { x with bankFg := !x.bankFg, ready := false }

/-! ### The switch point (R53) -/

/-- Staging is late (R54): the whole plane stays on its bank, and everything due moves to the next switch point, which is the
one that query answers then name for it (R24). -/
def holdPlane (p k : Nat) (m : Mach) : Mach :=
  let on (q t : Nat) : Nat := if q = p ∧ t ≤ k then k + 1 else t
  let waits (d : Nat) (audio : Bool) : Bool := m.xb.pend.any fun e => e.plane == p && decide (e.target ≤ k) &&
    match e.eff with
    | .route x v a _ => x == d && (if audio then a.isSome else v.isSome)
    | .bind x _ _ _ => x == d
    | _ => false
  let late (d : Nat) (x : Dest) : Dest :=
    if x.plane ≠ p then x
    else { x with vswc := if x.vswc = some k ∧ waits d false then some (k + 1) else x.vswc,
                  aswc := if x.aswc = some k ∧ waits d true then some (k + 1) else x.aswc }
  let m := { m with
    xb := { m.xb with pend := m.xb.pend.map fun e => { e with target := on e.plane e.target },
                      dests := tmap late m.xb.dests,
                      history := m.xb.history.map fun r => { r with dests := tmap late r.dests },
                      airing := m.xb.airing.map fun r => { r with target := on r.plane r.target },
                      holds := m.xb.holds.map fun h => { h with out := h.out.map fun o => (o.1, on o.1 o.2) } }
    is_ := { m.is_ with pairs := tmap (fun i (x : SrcPlane) =>
      if i % 16 = p then { x with due := x.due.map fun d => (d.1, on p d.2) } else x) m.is_.pairs }
    aud := { m.aud with timed := m.aud.timed.map fun t =>
      if t.start = none then { t with target := on t.plane t.target } else t } }
  raise m 0xE10 0x19 1 p

/-- The swap: classes, routes, sources, cold switches, audio, returns and reports, in that order. -/
def swapPlane (p k : Nat) (m : Mach) : Mach :=
  let m0 := m
  let es := dueEffs m p k
  let (m, changed) := classesAt m p k
  let m := es.foldl applySource (es.foldl applyRoute m)
  let m := { m with xb := { m.xb with pend := m.xb.pend.filter fun e => !(e.plane == p && decide (e.target ≤ k)) } }
  let moved := (boundDests es).filter fun d => (air m0 d).plane != p && (air m d).plane == p
  let m := moved.foldl (fun m d => raise m (destSrc d) 0x11 0 d) m
  let turned := (boundDests es).filter fun d => moved.contains d || (air m0 d).src != (air m d).src || (air m0 d).asrc != (air m d).asrc
  let vd := (videoDests es ++ turned).eraseDups.filter fun d => (air m d).plane == p
  let (m, cold) := vd.foldl (fun (a : Mach × Nat) d =>
    let (m, c) := coldSwitch a.1 d
    (m, a.2 + b2n c)) (m, 0)
  let ad := (audioDests es ++ turned).eraseDups.filter fun d => (air m d).plane == p
  let m := ad.foldl (fun m d => fadeTake m d (sesOf m (air m d).epoch)) m
  let mine := tkeys (fun (a : Air) => a.plane == p) m.xb.air
  let m := (mine.filter fun d => !vd.contains d).foldl warmUp m
  let m := (mine.filter fun d => !ad.contains d && !(air m d).cold && (air m d).amode == 0 &&
      ((changed.contains (air m d).asrc && (psiNow m (air m d).asrc p).isSome) || kMoved m d)).foldl
    (fun m d => rewriteGroup m m.xb.epoch d (delayedStart m d)) m
  let m := (mine ++ videoDests es ++ boundDests es).eraseDups.foldl (noteMismatch (mismatched m0)) m
  let m := reportAir (returnRoutes m p k) p k cold
  let m := flowSwitch (anchorTimed m p k) p k
  if es.isEmpty ∧ changed.isEmpty then m else flipBank m0 p m

/-- PLANE_SWITCH_POINT: the swap, unless staging is late, and the next switch point's count, line and cut-off (R15, R16,
R73). -/
def switchPoint (p : Nat) (m : Mach) : Mach :=
  let x := plane m p
  let k := x.nextSw
  let m := if x.staging then holdPlane p k m else swapPlane p k m
  setPlane m p fun x => { x with
    nextSw := k + 1, cut := false, swAt := some m.now,
    swLineNow := if x.applyAt ≤ k + 1 then x.swLine else x.swLineNow,
    cutoffNow := if x.applyAt ≤ k + 1 then x.cutoff else x.cutoffNow }

/-- ROUTE_ON_AIR (R55, R428): the reports of a plane's switch point are posted. -/
def postOnAir (p : Nat) (m : Mach) : Mach :=
  let rs := m.xb.onAir.filter fun r => r.plane == p
  let m := { m with xb := { m.xb with onAir := m.xb.onAir.filter fun r => r.plane != p } }
  rs.foldl (fun m r =>
    event m 0x0010 0 (le 8 r.epoch ++ le 1 r.plane ++ le 1 0 ++ le 2 r.cold ++ le 4 r.swcnt ++ le 2 r.carried)
      (if r.ses < 64 ∧ live m r.ses then some r.ses else none)) m

/-- PLANE_CUTOFF (R53). -/
def execPlaneCutoff (p : Nat) := runIf (p < 16) (planeCutoff p)
/-- STAGING_COMPLETE (R54). -/
def execStagingComplete (p us : Nat) := runIf (p < 16) (stagingComplete p us)
/-- CATCH_UP_COPY_COMPLETE (R61). -/
def execCatchUpCopyComplete (p : Nat) := runIf (p < 16) (catchUp p)
/-- ROUTE_ON_AIR (R55). -/
def execRouteOnAir (p : Nat) := runIf (p < 16) (postOnAir p)

end Sys2Proof.Machine
end

