-- ==== Sys2Proof/Machine/Outputs.lean ====
section
/-! DEFINITION. What a destination releases (R18, R31, R81, R90, R96, R111, R121, R122, R474). -/
namespace Sys2Proof.Machine

/-- The words of a feed's output line: poisoned samples give way to the same samples of the output line before in the
field, itself so mended, or to black in the first (R96). -/
def mendedWords (ls : Tab LineData) (torn : List (Nat × Nat × Nat)) (fmt : Fmt) : Nat → List Nat
  | 0 => []
  | line + 1 =>
    let ws := (tget {} ls (line + 1)).words
    match torn.filter fun x => x.1 == line + 1 with
    | [] => ws
    | hs =>
      let above := (lineRow (totalLines fmt) (activeLines fmt) fmt.scan line).isSome
      let by_ := if above then mendedWords ls torn fmt line else []
      hs.foldl (fun ws h => patch ws by_ h.2) ws

/-- A feed's raster line (R90, R96, R101). -/
def feedLine (m : Mach) (s : Nat) (f : Feed) (fmt : Fmt) (line : Nat) : LineData :=
  match f.reading m.now with
  | none => {}
  | some b =>
    let ls := (lget {} (srcOf m s).bufs b).lines
    { words := mendedWords ls f.torn fmt line, anc := (tget {} ls line).anc }

/-- The payload identifier on its lines (R34): its place in the line is the model's (Assumption 9). -/
def pidFor (fmt : Fmt) (line : Nat) : List Anc := if (pidLines fmt).contains line then [{ pos := 9, words := pidPacket fmt }] else []

/-- Black on an active line, the payload identifier on its own, nothing on any other (R34). -/
def blackFor (fmt : Fmt) (line : Nat) : LineData :=
  if (lineRow (totalLines fmt) (activeLines fmt) fmt.scan line).isSome then { words := blackLine (2 * activeSamples fmt) }
  else { anc := pidFor fmt line }

/-- The line-alignment buffer holds this line for the plane instant it now has: it arrived in time for that instant, less
than half a frame before (R78). -/
def inTime (m : Mach) (s p line : Nat) : Option LineData :=
  let x := plane m p
  (tget? line (srcOf m s).lab).bind fun l =>
    let lead := instantTo x line m.dt.t - l.at_
    if !(pair m s p).late.contains line && decide (0 ≤ lead) && decide (lead * 2 * rateNum x.fmt.rate < (secU * rateDen x.fmt.rate : Nat)) then
      some l.data else none

/-- A line of the direct feed of an input stage: the line itself; where it missed its plane instant, or has not arrived, its
substitute for an AUTO source (R82, R93), black for a SYNC source (R83). -/
def directLine (m : Mach) (s p : Nat) (fmt : Fmt) (line : Nat) : LineData :=
  match inTime m s p line with
  | some l => l
  | none =>
    if (lineRow (totalLines fmt) (activeLines fmt) fmt.scan line).isNone then {}
    else
      let whole := (0, 2 * activeSamples fmt)
      let black := blackLine (2 * activeSamples fmt)
      { words := if (pair m s p).sync then black else patch black (substitute m s line whole) whole }

/-- A line of what a destination carries (R81). -/
def lineOf (m : Mach) (d : Nat) (line : Nat) : LineData :=
  let a := air m d
  let fmt := (plane m a.plane).fmt
  let row := lineRow (totalLines fmt) (activeLines fmt) fmt.scan line
  let black := blackFor fmt line
  if a.cold then black
  else match pathOf m a.src a.plane with
    | 1 =>
      if a.src < 2304 then directLine m a.src a.plane fmt line
      else match row with
        | none => {}
        | some r =>
          if isCmp a.src then { words := ((cmpr m (a.src - 2304)).out.line r).getD black.words }
          else { words := genLine (genNow m (a.src - 2336)) (activeSamples fmt) }
    | 2 =>
      match feedOf m a.src a.plane with
      | some f =>
        let l := feedLine m a.src (tget {} m.is_.feeds f) fmt line
        if l.words.isEmpty then { black with anc := l.anc } else l
      | none => black
    | _ => black

/-- A destination's path holds content (R474): a complete frame, or a source inside the module, or the none source. -/
def hasContent (m : Mach) (d : Nat) : Bool :=
  let s := (air m d).src
  decide (2304 ≤ s) || (newest (srcOf m s)).isSome

/-- What a late segment shows (R31): the newest complete frame's line for an AUTO source, else the preceding line. -/
def concealLate (m : Mach) (d line : Nat) (l : LineData) : LineData :=
  let a := air m d
  let prev := (tget {} m.out d).words
  let from_ := if a.src < 2304 ∧ !(pair m a.src a.plane).sync then newest (srcOf m a.src) else none
  let by_ := match from_ with
    | some i => (tget { words := prev } (lget {} (srcOf m a.src).bufs i).lines line).words
    | none => prev
  { words := patch l.words by_ (0, l.words.length) }

/-- Ten-bit halves of a 14-bit number (R121). -/
def half10 (n : Nat) : List Nat := [n / 1024 % 16, n % 1024]

/-- A line record (R121): its ancillary entries in order of horizontal position, up to 8,701 words of them. -/
def record (l : LineData) : List Nat :=
  let as := l.anc.mergeSort fun a b => decide (a.pos ≤ b.pos)
  let area := as.foldl (fun ws a =>
    let e := half10 a.pos ++ [0, 0x3FF, 0x3FF] ++ a.words
    if 8701 < ws.length + e.length then ws else ws ++ e) []
  half10 area.length ++ area ++ l.words

/-- A serial destination's slot cannot carry its plane's rate class (R111). -/
def overRate (m : Mach) (d : Nat) : Bool :=
  decide (d < 1152) && (rx m (d / 8)).mode == 1 && fmtClass (plane m (air m d).plane).fmt == 3

/-- *Slot rate exceeds lane mode* for a destination, while it lasts (R111). -/
def noteRate (m : Mach) (d : Nat) : Mach :=
  if overRate m d then (if standing m (destSrc d) 0x20 then m else raise m (destSrc d) 0x20 1 d)
  else if (span (d / 8 * 8) 8).any (overRate m) then m
  else endCond m (destSrc d) 0x20

/-- The slot instant of a line (R63, R124): its plane instant plus the serial egress of the lane's mode. -/
def slotInstant (m : Mach) (d line : Nat) : Int :=
  instantTo (plane m (air m d).plane) line m.dt.t + lget 0 [400, 400, 240, 160] (rx m (d / 8)).mode * nsU

/-- A line joins its slot's word stream on the lane (R121, R122): only a slot that exists and a lane that transmits. -/
def queueLine (m : Mach) (d line : Nat) (l : LineData) : Mach :=
  let n := d / 8
  if overRate m d || !transmits m n || decide (modeSlots (rx m n).mode ≤ d % 8) then m
  else
    let ws := record l
    setTx m n fun t => { t with slots := tmod {} t.slots (d % 8) fun q =>
      let frame := if line = 1 then q.frame + 1 else q.frame
      { q with words := q.words ++ ws, recs := q.recs ++ [{ line, len := ws.length, frame, instant := slotInstant m d line }], frame,
               rclass := fmtClass (plane m (air m d).plane).fmt } }

/-- OUTPUT_RELEASE (R18, R31): a destination's line leaves at its release instant. A destination in EMBED mode carries
its group's audio and none of its source's (R50, R263). -/
def outputRelease (d line : Nat) (late : Bool) (m : Mach) : Mach :=
  let a := air m d
  if 2 ≤ m.pwr.st ∨ line = 0 ∨ totalLines (plane m a.plane).fmt < line then m
  else
    let old : OutLine := tget {} m.out d
    let idle := old.idle && !(line == 1 && hasContent m d)
    let l := lineOf m d line
    let l := if late then concealLate m d line l else l
    let (l, emb) := if a.amode = 0 then embedLine m d line old.emb { l with anc := l.anc.filter fun x => !isAudioAnc x } else (l, none)
    let m := if late then
        raise { m with xb := { m.xb with lateSeg := sat m.xb.lateSeg 1 } } (destSrc d) 0x18 1 d else m
    let o : OutLine :=
      { line, words := l.words, anc := l.anc, concealed := if late then [(0, l.words.length)] else [], late, idle, emb }
    let m := { m with out := tset m.out d o }
    let m := if d < 1152 ∧ line = 1 then noteRate m d else m
    if d < 1152 then (if idle then m else queueLine m d line l)
    else
      let m' := egressLine m (d - 1152) line old.words l.words l.anc
      if idle then { m with flw := m'.flw } else m'

/-- OUTPUT_RELEASE (R31). -/
def execOutputRelease (dest line : Nat) (late : Bool) := runIf (dest < 2304) (outputRelease dest line late)

end Sys2Proof.Machine
end

