-- ==== Sys2Proof/Machine/SessionCmds.lean ====
section
/-! DEFINITION. The session family: opening, closing, attaching, subscribing, grants, budgets, pending entries
(R413 to R421, R430). -/
namespace Sys2Proof.Machine

/-- A SESSION event (R428): 0 opened, 1 closed, 2 grant begun, 3 grant ended, 4 lease expired. -/
def sessionEvt (m : Mach) (n what : Nat) : Mach := event m 0x0090 8 (le 1 n ++ le 1 what)

/-- Control-processor time held by open sessions other than `n`, in µs per tick (R414). -/
def cpHeld (m : Mach) (n : Nat) : Nat := ((liveSessions m).filter (· != n)).foldl (fun a k => a + (ses m k).cpus) 0

/-- A lease starts again where the module claims (R417). -/
def startLease (m : Mach) (n : Nat) : Mach :=
  if claiming m ∧ ((ses m n).st = .opn ∨ (ses m n).st = .detached) then
    setSes m n fun x => { x with leaseEnd := some (m.now + x.lease * msT) }
  else m

/-- The refusal of R414. -/
def overCp (m : Mach) (n : Nat) : CRes := .refuse sCapacity { res := 14, free := 448 - cpHeld m n }

/-- IRQ_COUNT and IRQ_DELAY in range (R430). -/
def irqOk (count delay : Nat) : Bool := decide (1 ≤ count) && decide (count ≤ 64) && decide (delay ≤ 1000)

/-- SESSION_OPEN (R415, R417, R430): the attach key is a free value (Assumption 5). -/
def commitSessionOpen (c : CCtx) (name lease sub irqCount irqDelay : Nat) (m : Mach) : CRes :=
  match c.ses with
  | none => .arg
  | some n =>
    if (ses m n).st ≠ .opening then .conflict 1 n
    else if (lease ≠ 0 ∧ lease < 100) ∨ 60000 < lease ∨ 512 ≤ sub ∨ !irqOk irqCount irqDelay then .arg
    else if 448 < cpHeld m n + (ses m n).cpus then overCp m n
    else
      let key := Config.attachKey m.free
      let m := { m with free := m.free + 1 }
      let m := setSes m n fun x => { x with st := .opn, name, sub, irqCount, irqDelay, key,
                                            lease := if lease = 0 then 5000 else lease }
      let x := ses m n
      .commit (sessionEvt (startLease m n) n 0) [.h n, .q key.toNat, .w x.cmds, .w x.hare, .w x.cpus]

/-- A grant ends (R419). -/
def endGrant (m : Mach) (n : Nat) : Mach :=
  if expert (ses m n) then sessionEvt (setSes m n fun x => { x with grantEnd := none }) n 3 else m

/-- A session closes (R418). -/
def closeSession (m : Mach) (n what : Nat) : Mach :=
  let unown (s : Nat) : Nat := if s = n then 255 else s
  let m := abandonMixes (abandonBanks (endGrant m n) n fun _ => true) n fun _ => true
  let m := cutScans m 2 fun s => s.ses == n
  let m := (tkeys (fun (p : Pc) => p.frozen.any fun f => f.1 == n) m.mem.pcs).foldl
    (fun m k => setPc m k fun p => { p with frozen := none, st := 0 }) m
  let xb := { m.xb with
    dests := tmap (fun _ (d : Dest) => if d.prot = some n then { d with prot := none } else d) m.xb.dests
    airing := m.xb.airing.map fun a => { a with ses := unown a.ses }
    onAir := m.xb.onAir.map fun a => { a with ses := unown a.ses } }
  let flw := { m.flw with ports := tmap (fun _ (p : Ingress) =>
    { p with swap := p.swap.map fun s => { s with ses := unown s.ses } }) m.flw.ports }
  let ctl := { m.ctl with
    svc := m.ctl.svc.filter fun w => w.ses != n
    rung := m.ctl.rung.filter fun r => r.ses != n
    journal := m.ctl.journal.map fun e => if e.ses = n then { e with deaf := true, room := 0, held := [], unacked := false } else e
    windows := tset m.ctl.windows n {}
    sessions := tset m.ctl.sessions n {} }
  let drop (a : Option (Nat × Nat)) : Option (Nat × Nat) := a.filter fun x => x.1 != n
  let sys := { m.sys with jobs := m.sys.jobs.map fun j => { j with ask := j.ask.filter fun x => x.1 != n } }
  let pwr := { m.pwr with wakePartner := m.pwr.wakePartner.filter fun x => x.1 != n }
  sessionEvt { m with xb, flw, ctl, sys, pwr, pr := { m.pr with drillAsk := drop m.pr.drillAsk }} n what

/-- SESSION_CLOSE (R418, R430); an internal one is a lease expiry (R417). -/
def commitSessionClose (c : CCtx) (target : Nat) (m : Mach) : CRes :=
  let n := if target = 255 then c.ses.getD 255 else target
  if 63 < n then .arg
  else if (ses m n).st ≠ .opn ∧ (ses m n).st ≠ .detached then .conflict 1 n
  else .commit (closeSession m n (if c.ses.isNone then 4 else 1)) []

/-- SUBSCRIBE (R426, R430). -/
def commitSubscribe (c : CCtx) (sub irqCount irqDelay : Nat) (m : Mach) : CRes :=
  if 512 ≤ sub ∨ !irqOk irqCount irqDelay then .arg
  else .commit (setSes m (c.ses.getD 255) fun x => { x with sub, irqCount, irqDelay }) []

/-- Sessions that hold a grant, other than `n`. -/
def grants (m : Mach) (n : Nat) : Nat := ((liveSessions m).filter fun k => k != n && expert (ses m k)).length

/-- EXPERT_GRANT (R419, R430). The end of a grant by its lease is the internal change set that releases the session the
data name. -/
def commitExpertGrant (c : CCtx) (req lease : Nat) (m : Mach) : CRes :=
  let n := c.ses.getD (fld c.data 0 1)
  if 1 < req ∨ (req = 1 ∧ (lease = 0 ∨ 3600 < lease)) then .arg
  else if req = 0 then .commit (endGrant m n) []
  else if 4 ≤ grants m n then .refuse sCapacity { res := 15, free := 0 }
  else
    let m := setSes m n fun x => { x with grantEnd := some (m.now + lease * 1000 * msT) }
    .commit (sessionEvt (raise m (0xD80 + n) 0x81 0) n 2) []

/-- SESSION_BUDGET (R413, R414, R430). -/
def commitSessionBudget (target cmds hare cpus : Nat) (m : Mach) : CRes :=
  if 63 < target ∨ hare = 0 ∨ 32 < hare ∨ cpus = 0 ∨ 125 < cpus then .arg
  else if (ses m target).st ≠ .opn ∧ (ses m target).st ≠ .detached then .conflict 1 target
  else if 448 < cpHeld m target + cpus then overCp m target
  else .commit (setSes m target fun x => { x with cmds := if cmds = 0 then 256 else cmds, hare, cpus }) []

/-- A session's state as MBX_WIN_STAT gives it (R398). -/
def SesState.code : SesState → Nat
  | .free => 0
  | .opening => 1
  | .opn => 2
  | .detached => 3

/-- The highest HSEQ in a session's outcome cache. -/
def topHseq (x : Session) : Nat := x.cache.foldl (fun a c => max a c.hseq) 0

/-- SESSION_ATTACH (R415, R420, R430): the port that carries the command becomes the session's. -/
def askSessionAttach (n port key : Nat) (m : Mach) : QRes :=
  if (ses m n).key.toNat ≠ key then .refuse sOwner { okind := 1, oid := n }
  else
    let m := setSes m n fun x => { x with st := .opn, port }
    .answer m sOk [.q m.xb.epoch, .w (topHseq (ses m n)), .b (ses m n).st.code]

/-- One record of PENDING_QUERY (R430). -/
def pendingRec (e : JEntry) : List Byte :=
  le 8 e.jseq ++ le 4 e.hseq ++ le 2 e.cmd.opcode ++ le 1 e.ses ++ le 1 (b2n e.waiting) ++ le 8 0

/-- PENDING_QUERY (R430). -/
def askPendingQuery (n all max_ off : Nat) (m : Mach) : QRes :=
  if 1 < all then .arg
  else
    let es := ((openEntries m).filter fun e => all == 1 || e.ses == n).take max_
    .answer (putSalvo m n off (es.map pendingRec).flatten) sOk [.q m.xb.epoch, .w es.length]

/-! ### Allocation and the links (R396, R416) -/

/-- MBX_ALLOC_REQ_GO (R416, R437): vector 64 signals the answer. -/
def allocate (port : Nat) (m : Mach) : Mach :=
  let can := claiming m && !m.sys.romMode && m.sys.phase == 0
  let n? := if can then (List.range 64).find? fun n => (ses m n).st == .free else none
  let m := match n? with
    | some n => { m with ctl := { m.ctl with
        sessions := tset m.ctl.sessions n { st := .opening, port, openingAt := m.now }
        windows := tset m.ctl.windows n {}
        cnts := tset m.ctl.cnts n {} } }
    | none => m
  fireVector { m with ctl := { m.ctl with alloc := tset m.ctl.alloc port (true, n?.isSome, n?.getD 0) } } port 64

/-- HOST_LINK_DOWN (R396). A session still opening has nothing to return to, and its 1 s runs on. -/
def linkDown (port : Nat) (m : Mach) : Mach :=
  { m with ctl := { m.ctl with sessions := tmap (fun _ (x : Session) =>
      if x.st = .opn ∧ x.port = port then { x with st := .detached } else x) m.ctl.sessions } }

/-- SESSION_OPENING_TIMEOUT (R6, R415). -/
def openingTimeout (n : Nat) (m : Mach) : Mach :=
  if (ses m n).st = .opening ∧ (ses m n).openingAt + 1000 * msT < m.now then
    let rung := m.ctl.rung.filter fun r => r.ses != n
    { m with ctl := { m.ctl with sessions := tset m.ctl.sessions n {}, windows := tset m.ctl.windows n {}, rung } }
  else m

/-- LEASE_EXPIRY (R6, R417): the close is journalled as an internal change set. -/
def leaseExpiry (n : Nat) (m : Mach) : Mach :=
  match (ses m n).leaseEnd with
  | some t =>
    if claiming m ∧ t < m.now then
      journalPut (setSes m n fun x => { x with leaseEnd := none }) 2 255 0 0 (.sessionClose n) [] false 0
    else m
  | none => m

/-- EXPERT_GRANT_EXPIRY (R419): the end of the grant is journalled as an internal change set. -/
def grantExpiry (n : Nat) (m : Mach) : Mach :=
  match (ses m n).grantEnd with
  | some t => if claiming m ∧ t ≤ m.now then journalPut m 2 255 0 0 (.expertGrant 0 0) (le 1 n) false 0 else m
  | none => m

/-- IRQ_DELAY_EXPIRY (R395). -/
def irqDelay (n : Nat) (m : Mach) : Mach :=
  let x := ses m n
  if x.unsig ≠ 0 ∧ x.unsigAt + x.irqDelay * usT ≤ m.now then signal m n else m

/-- MBX_ALLOC_REQ_GO (R416). -/
def execMbxAllocReqGo (port : Nat) := runIf (port < 2) (allocate port)
/-- HOST_LINK_DOWN (R396). -/
def execHostLinkDown (port : Nat) := runIf (port < 2) (linkDown port)
/-- SESSION_OPENING_TIMEOUT (R415). -/
def execSessionOpeningTimeout (n : Nat) := runIf (n < 64) (openingTimeout n)
/-- LEASE_EXPIRY (R417). -/
def execLeaseExpiry (n : Nat) := runIf (n < 64) (leaseExpiry n)
/-- EXPERT_GRANT_EXPIRY (R419). -/
def execExpertGrantExpiry (n : Nat) := runIf (n < 64) (grantExpiry n)
/-- IRQ_DELAY_EXPIRY (R395). -/
def execIrqDelayExpiry (n : Nat) := runIf (n < 64) (irqDelay n)

end Sys2Proof.Machine
end

