-- ==== Sys2Proof/Machine/Commit.lean ====
section
/-! DEFINITION. The settings of the pair and of power, the start of a changeover, and the commit sequencer: each change set's
admission and commit under one epoch (R22, R40, R411, R480). -/
namespace Sys2Proof.Machine

/-! ### Pair and power settings (R484, R485, R509, R510) -/

/-- PAIR_CFG (R183, R484): bundles newly kept in Den follow those kept before. -/
def commitPairCfg (demote flags plane drill warmMax : Nat) (m : Mach) : CRes :=
  if 15 < demote ∨ 7 < flags ∨ 15 < plane ∨ 168 < drill ∨ warmMax = 0 ∨ 60 < warmMax then .arg
  else
    let keepA := bit flags 1
    let keepB := bit flags 2
    let keep (b : Nat) : Bool := if b = 0 then keepA else keepB
    let old := m.pr.keepOrder.filter keep
    let order := old ++ [0, 1].filter fun b => keep b && !old.contains b
    let cfg := { demote, denAuto := bit flags 0, keepA, keepB, plane, drill, warmMax : PairCfg }
    let m' := { m with pr := { m.pr with cfg, keepOrder := order } }
    if tooCostly m m' then overDen m else .done m'

/-- PWR_CFG (R509, R510). -/
def commitPwrCfg (hold flags : Nat) (m : Mach) : CRes :=
  if (hold ≠ 0 ∧ hold < 10) ∨ 3600 < hold ∨ 1 < flags then .arg
  else .done { m with pwr := { m.pwr with shadowHold := hold, limchk := flags == 1 } }

/-- A changeover may start (R485). -/
def canChange (m : Mach) : Bool :=
  partnerHere m && (m.pr.beat.getD {}).fit && xlUp m && m.pr.role == 8 && m.pr.chg.isNone

/-- The sequence of R480 starts: the active sends a wake message. -/
def startChange (m : Mach) (plane warmMax jseq : Nat) (byGrade : Bool) : Mach :=
  let chg : Changeover := { phase := 1, c := m.now, warmMax, plane, jseq, byGrade }
  xlSend { m with pr := { m.pr with chg := some chg } } (.wake true plane warmMax)

/-- PAIR_CHANGEOVER (R480, R485). -/
def commitPairChangeover (c : CCtx) (plane warmMax : Nat) (m : Mach) : CRes :=
  if (15 < plane ∧ plane ≠ 255) ∨ 60 < warmMax then .arg
  else if !canChange m then .conflict 18 0
  else .wait (startChange m (if plane = 255 then m.pr.cfg.plane else plane) (if warmMax = 0 then m.pr.cfg.warmMax else warmMax)
    c.jseq false)

/-! ### The commit of each change set -/

/-- Admission and commit of a change set (R40, R411); a command that is none is never journalled as one. -/
def commitCmd (c : CCtx) : Cmd → Mach → CRes
  | .take rec expected, m => commitTake c rec expected m
  | .salvo count rsvd _ expected, m => commitSalvo c count rsvd expected m
  | .protect first count rel, m => commitProtect c first count rel m
  | .forceRelease first count, m => commitForceRelease first count m
  | .bankSwap p, m => commitBankSwap c p m
  | .srcMode s mode flags hold, m => commitSrcMode c s mode flags hold m
  | .srcWarm s on, m => commitSrcWarm c s on m
  | .srcGroup size a b d e, m => commitSrcGroup c size a b d e m
  | .srcWindow s w q, m => commitSrcWindow c s w q m
  | .destBind first count p, m =>
    match stuck2022 m first count p with
    | some k => if destRangeOk first count && decide (p ≤ 15) && (rangeLocked m first count).isNone then .conflict 6 k
                else commitDestBind c first count p m
    | none => commitDestBind c first count p m
  | .destAudio first count mode, m => commitDestAudio c first count mode m
  | .genCfg g p pattern audio y cb cr, m => commitGenCfg c g p pattern audio y cb cr m
  | .planeCfg p raster scan rate l s, m => commitPlaneCfg p raster scan rate l s m
  | .planeSwitch p line cutoff, m => commitPlaneSwitch p line cutoff m
  | .sessionOpen name lease sub ic id, m => commitSessionOpen c name lease sub ic id m
  | .sessionClose n, m => commitSessionClose c n m
  | .subscribe sub ic id, m => commitSubscribe c sub ic id m
  | .expertGrant req lease, m => commitExpertGrant c req lease m
  | .sessionBudget n cmds hare cpus, m => commitSessionBudget n cmds hare cpus m
  | .fltCfg escn esct fnclass budget, m => commitFltCfg escn esct fnclass budget m
  | .snpCfg en sc src kind div ms mns p, m => commitSnpCfg en sc src kind div ms mns p m
  | .ethPortSplit p mode, m => commitEthPortSplit p mode m
  | .ethMacCfg k a f, m => commitEthMacCfg k a f m
  | .wakePattern w on k ck mk, m => commitWakePattern w on k ck mk m
  | .flowDefine x op _, m => commitFlowDefine c x op m
  | .flowPort x p flags, m => commitFlowPort c x p flags m
  | .flowIf k _, m => commitFlowIf c k m
  | .flowOffset x a o, m => commitFlowOffset x a o m
  | .cmpBind k p d a b, m => commitCmpBind k p d a b m
  | .cmpLayout k n _, m => commitCmpLayout c k n m
  | .cmpGuard k n _, m => commitCmpGuard c k n m
  | .cmpFreeze k w op, m => commitCmpFreeze k w op m
  | .cmpCoef k s _, m => commitCmpCoef c k s m
  | .audMix n r a _, m => commitAudMix c n r a m
  | .audGroup s mode, m => commitAudGroup s mode m
  | .audOffset d us, m => commitAudOffset c d us m
  | .audHistory first n len, m => commitAudHistory first n len m
  | .audMeter first n op _, m => commitAudMeter first n op m
  | .audBankSwap mk, m => commitAudBankSwap c mk m
  | .audRate r, m => commitAudRate c r m
  | .aptCfg n f s w mm fl no il ol, m => commitAptCfg n f s w mm fl no il ol m
  | .aptRing n len, m => commitAptRing n len m
  | .tmgRefCfg cd k p f nu de w so ha sl lo dl, m => commitTmgRefCfg cd k p f nu de w so ha sl lo dl m
  | .tmgLrefBind l n i, m => commitTmgLrefBind l n i m
  | .tmgSelCfg mo fo fl ho fr, m => commitTmgSelCfg mo fo fl ho fr m
  | .tmgApllCfg a i n d, m => commitTmgApllCfg a i n d m
  | .tmgClkoutCfg k s a l d p f w o, m => commitTmgClkoutCfg k s a l d p f w o m
  | .tmgWclkCfg k op a l o, m => commitTmgWclkCfg k op a l o m
  | .tmgClassMap off, m => commitTmgClassMap c off m
  | .tmgLoopCfg t a tt w n al g h l, m => commitTmgLoopCfg t a tt w n al g h l m
  | .dtCfg mo st, m => commitDtCfg mo st m
  | .ptpCfg d p1 p2 ts u f i co, m => commitPtpCfg d p1 p2 ts u f i co m
  | .ptpPortCfg p k f ls la at_ ld rx_ tx_ as_, m => commitPtpPortCfg p k f ls la at_ ld rx_ tx_ as_ m
  | .dtPinCfg mo, m => commitDtPinCfg mo m
  | .ptpServoCfg s st sl, m => commitPtpServoCfg s st sl m
  | .memPortCfg p b, m => commitMemPortCfg p b m
  | .pairChangeover p w, m => commitPairChangeover c p w m
  | .pairCfg d f p dr w, m => commitPairCfg d f p dr w m
  | .pwrCfg h f, m => commitPwrCfg h f m
  | .updSvcCfg on, m => commitUpdSvcCfg on m
  | .routeQuery .., _ | .bankLoad .., _ | .srcStatus .., _ | .svcSend .., _ | .planeStatus .., _ | .sessionAttach .., _
  | .pendingQuery .., _ | .identity, _ | .fltList .., _ | .fltClear .., _ | .snpTrigger, _ | .snpList .., _ | .snpRead .., _
  | .snpHold .., _ | .fltInject .., _ | .laneStatus .., _ | .eyeScan .., _ | .laneLoop .., _ | .lanePrbs .., _ | .laneEqSet .., _
  | .ethStatus .., _ | .flowStatus .., _ | .flowCapacity .., _ | .cmpStatus .., _ | .audStatus .., _ | .audBankLoad .., _
  | .aptStatus .., _ | .tmgStatus .., _ | .dtStep .., _ | .dtStatus, _ | .memStatus .., _ | .memRearm .., _ | .memFreeze .., _
  | .memCalSave .., _ | .pairStatus .., _ | .pairDrill, _ | .pairForce .., _ | .pwrStatus, _ | .pwrDen, _ | .pwrWakePartner, _
  | .updStatus, _ | .updActivate .., _ | .updConfirm, _ | .updRestart, _ | .updFuse, _ | .calRead .., _ | .calWrite .., _ => .arg

/-! ### The commit sequencer (R22, R40, R411) -/

/-- A new epoch is current: the committed destinations of the epoch before join the 255 kept for queries (R23). -/
def newEpoch (old m : Mach) (ep : Nat) : Mach :=
  { m with xb := { m.xb with epoch := ep, history := ({ epoch := old.xb.epoch, dests := old.xb.dests } :: m.xb.history).take 255 } }

/-- The salvo-area offset that a command names is a multiple of what its row of the family's table asks. -/
def regionAligned : Cmd → Bool
  | .salvo _ _ off _ => off % 8 == 0
  | .routeQuery _ _ _ off => off % 16 == 0
  | .eyeScan _ _ _ _ _ _ off => off % 64 == 0
  | .flowDefine _ op off => decide (2 ≤ op) || off % 8 == 0
  | .cmpLayout _ _ off | .cmpGuard _ _ off | .cmpStatus _ off | .cmpCoef _ _ off | .pendingQuery _ _ off => off % 8 == 0
  | .audMix _ _ _ off => off % 16 == 0
  | .audBankLoad _ act _ off => act == 2 || off % 16 == 0
  | .memFreeze _ op off => op == 0 || off % 64 == 0
  | .pairStatus _ off | .snpList off | .calRead _ off | .calWrite _ off => off % 64 == 0
  | .fltList _ off => off % 32 == 0
  | .snpRead _ _ _ off => off % 4 == 0
  | _ => true

/-- One open entry is admitted and committed, refused, or found to wait (R411). ACCEPTED precedes PENDING, so an entry
whose ACCEPTED is still held back stays open. -/
def commitEntry (m : Mach) (e : JEntry) : Mach :=
  let c : CCtx := { ses := if e.ses = 255 then none else some e.ses, ep := m.xb.epoch + 1, hseq := e.hseq, jseq := e.of, data := e.data, replay := e.replay }
  match (if regionAligned e.cmd then commitCmd c e.cmd m else .arg) with
  | .refuse st r => conclude m e.jseq 2 st r.bytes
  | .wait m' =>
    if e.unacked then m
    else postRoom (setEntry m' e.jseq fun x => { x with waiting := true }) e (mkResps e.cmd.opcode sPending 0 e.hseq e.of []) false
  | .commit m' items =>
    conclude (newEpoch m m' c.ep) e.jseq 1 sDone (layout (.q c.ep :: items)) c.ep

/-- The sequencer takes the entry: open, not waiting for its condition, and no DT_STEP, whose change stands asked. -/
def committable (e : JEntry) : Bool := e.st == 0 && !e.waiting && !e.asked

/-- CHANGE_SET_COMMIT (R411): the open entry of the lowest JSEQ. Only a claiming module commits (R420). -/
def commitNext (m : Mach) : Mach :=
  if !claiming m ∨ m.ctl.restarting then m
  else match m.ctl.journal.find? committable with
    | none => m
    | some e => match e.cmd with
      | .dtStep sec ns flags => requestStep m sec ns flags (e.ses, e.hseq) e.jseq
      | _ => commitEntry m e

end Sys2Proof.Machine
end

