-- ==== Sys2Proof/Machine/Saves.lean ====
section
/-! DEFINITION. The saved state: what an image holds, its records, and its restoring (R73, R467, R468, R471 to R475). -/
namespace Sys2Proof.Machine

/-! ### What is saved (R467, R471) -/

def savedSrc (x : Src) : Src :=
  { mode := x.mode, sticky := x.sticky, lossHold := x.lossHold, warm := x.warm, warmOff := x.warmOff, wSet := x.wSet,
    qSet := x.qSet, group := x.group, fmt := x.fmt }
def savedPair (x : SrcPlane) : SrcPlane :=
  { cls := x.cls, due := x.due, qual := x.qual, sync := x.sync, sticky := x.sticky, lossHold := x.lossHold, wSet := x.wSet,
    qSet := x.qSet, grp := x.grp }
def savedXbar (x : Xbar) : Xbar :=
  { planes := x.planes.map fun p => { p with staging := false, ready := false, bankFg := false, cut := false, swAt := none },
    epoch := x.epoch, dests := x.dests, air := tmap (fun _ a => { a with cold := false }) x.air, gens := x.gens,
    gensNow := x.gensNow, gensEp := x.gensEp, pend := x.pend, airing := x.airing, holds := x.holds }
def savedCtx (x : Ctx) : Ctx :=
  { x with pathUp := false, pathLost := false, lastPkt := 0, buf := [], kept := [], lateRun := 0, slip := 0, nextTs := none,
           inserting := false, dropping := false, lateSum := 0, lateN := 0, out := [] }
def savedMac (x : Mac) : Mac := { addr := x.addr, maxFrame := x.maxFrame }
def savedCmp (x : Cmp) : Cmp := { com := x.com, pend := x.pend, lat := { layout := x.lat.layout } }
def savedGroup (x : AGroup) : AGroup := { convert := x.convert, core := x.core }
def savedMeter (x : Meter) : Meter := { on := x.on }
def savedApt (x : Apt) : Apt := { cfg := x.cfg, n := x.n, nPend := x.nPend, core := x.core }
def savedPort (x : PtpPort) : PtpPort :=
  { mac := x.mac, flags := x.flags, logSync := x.logSync, logAnn := x.logAnn, annTimeout := x.annTimeout, logDelay := x.logDelay,
    rxdly := x.rxdly, txdly := x.txdly, asym := x.asym, mpd := x.mpd, seqSync := x.seqSync, seqAnn := x.seqAnn, seqReq := x.seqReq,
    seqMgmt := x.seqMgmt }
/-- A session: what is left of its expert grant stands for the grant's end. -/
def savedSes (now : Nat) (x : Session) : Session :=
  { x with st := if x.st = .opn then .detached else if x.st = .opening then .free else x.st, port := 0, leaseEnd := none,
           usedCmds := 0, usedHare := 0, usedCpu := 0, heldTick := false, unsig := 0, reserved := 0,
           grantEnd := x.grantEnd.map (· - now) }
/-- An ingress port: the age of a swap stands for its tick. -/
def savedIngress (now : Nat) (x : Ingress) : Ingress :=
  { x with lines := [], swap := x.swap.map fun s => { s with tick := now - s.tick } }

/-- The count of a plane's next switch point after this instant: one that the plane's timing places at the very instant, and
that has yet to come, is counted (R73). -/
def countAt (m : Mach) (x : Plane) : Nat :=
  x.nextSw + b2n (x.swAt != some m.now && decide (2 * nsU ≤ m.dt.t) && decide (0 < switchesIn x (m.dt.t - 2 * nsU : Nat) m.dt.t))

/-- The committed state with the runtime values latched (R468): the image of save `k`. -/
def savedOf (m : Mach) (k : Nat) : Saved :=
  { head := { epoch := m.xb.epoch, jseq := m.ctl.jnext - 1, save := k, swcnts := m.xb.planes.map (countAt m), instant := m.dt.t },
    routes := { xb := savedXbar m.xb, srcs := tmap (fun _ => savedSrc) m.is_.srcs, pairs := tmap (fun _ => savedPair) m.is_.pairs },
    flows := ({ flw := { ctxs := tmap (fun _ => savedCtx) m.flw.ctxs, ifs := m.flw.ifs, hops := m.flw.hops,
                         ports := tmap (fun _ => savedIngress m.now) m.flw.ports, members := m.flw.members },
                eth := { split := m.eth.split, macs := tmap (fun _ => savedMac) m.eth.macs, wake := m.eth.wake,
                         wakeOrder := m.eth.wakeOrder } } : SavedFlows),
    cmps := { cmps := tmap (fun _ => savedCmp) m.cmp.cmps },
    audio := ({ aud := { rate := m.aud.rate, len := m.aud.len, lenNext := m.aud.lenNext, groups := tmap (fun _ => savedGroup) m.aud.groups,
                         taps := m.aud.taps, fades := m.aud.fades, ramps := m.aud.ramps, timed := m.aud.timed, bankFg := m.aud.bankFg,
                         blockChg := m.aud.blockChg, meters := tmap (fun _ => savedMeter) m.aud.meters, dests := m.aud.dests,
                         psi := m.aud.psi, tones := m.aud.tones },
                apt := { ports := tmap (fun _ => savedApt) m.apt.ports } } : SavedAudio),
    timing := ({ tmg := { cands := tmap (fun _ (x : Cand) => { cfg := x.cfg }) m.tmg.cands, lrefs := m.tmg.lrefs,
                          classMap := m.tmg.classMap,
                          dpll := { mode := m.tmg.dpll.mode, forced := m.tmg.dpll.forced,
                                    revert := m.tmg.dpll.revert, pairFollow := m.tmg.dpll.pairFollow, holdql := m.tmg.dpll.holdql,
                                    freeql := m.tmg.dpll.freeql, lp := m.tmg.dpll.lp },
                          aplls := tmap (fun _ (x : Apll) => { mint := x.mint, mnum := x.mnum, mden := x.mden }) m.tmg.aplls,
                          outs := tmap (fun _ (x : ClkOut) => { x with drive := false, grant := false, grantAt := 0 }) m.tmg.outs },
                 dt := { mode := m.dt.mode, pps := m.dt.pps, steplim := m.dt.steplim,
                         ptp := { m.dt.ptp with ports := tmap (fun _ => savedPort) m.dt.ptp.ports, servo := 0, slewing := false,
                                                farRun := 0, nearRun := 0, outRun := 0 } } } : SavedTiming),
    sessions := { sessions := (tmap (fun _ => savedSes m.now) m.ctl.sessions).filter fun x => x.2.st != .free },
    settings := ({ ports := tmap (fun _ (x : MemPort) => { budget := x.budget }) m.mem.ports,
                   flt := { escn := m.flt.escn, esct := m.flt.esct, fnclass := m.flt.fnclass, budget := m.flt.budget },
                   snp := { enables := m.snp.enables, sclass := m.snp.sclass, src := m.snp.src, kind := m.snp.kind, div := m.snp.div,
                            matchSec := m.snp.matchSec, matchNs := m.snp.matchNs, period := m.snp.period },
                   pair := m.pr.cfg, keepOrder := m.pr.keepOrder } : SavedSettings),
    epochs := m.xb.history }

/-- The image's items as records (R467). -/
def Saved.recs (s : Saved) : List SavedRec :=
  [.head s.head, .routes s.routes, .flows s.flows, .cmps s.cmps, .audio s.audio, .timing s.timing, .sessions s.sessions,
   .settings s.settings, .epochs s.epochs]

/-- Put one record into an image. -/
def Saved.put (s : Saved) : SavedRec → Saved
  | .head x => { s with head := x }
  | .routes x => { s with routes := x }
  | .flows x => { s with flows := x }
  | .cmps x => { s with cmps := x }
  | .audio x => { s with audio := x }
  | .timing x => { s with timing := x }
  | .sessions x => { s with sessions := x }
  | .settings x => { s with settings := x }
  | .epochs x => { s with epochs := x }

/-- The records of a save that differ from the save before (R468). -/
def Saved.changes (old new : Saved) : List SavedRec := new.recs.filter fun r => !old.recs.contains r

/-- Slice `i` of 256: the model's slices follow the records (Assumption 31). -/
def Saved.slice (s : Saved) (i : Nat) : SavedRec := lget (.head s.head) s.recs (i % 256 * 9 / 256)

/-! ### Restoring (R73, R472 to R475) -/

/-- A plane from the image, its count brought up to the present (R73). -/
def restorePlane (m : Mach) (img : Saved) (p : Nat) : Plane :=
  let x := lget {} img.routes.xb.planes p
  let n := lget 0 img.head.swcnts p + (switchesIn x img.head.instant m.dt.t).toNat
  { x with nextSw := n, cut := cutAt x m.dt.t, bankFg := (plane m p).bankFg }

def restoreSrc (x img : Src) : Src :=
  { x with mode := img.mode, sticky := img.sticky, lossHold := img.lossHold, warm := img.warm, warmOff := img.warmOff,
           wSet := img.wSet, qSet := img.qSet, group := img.group, lastSig := if x.present then x.lastSig else some img.fmt }
def restorePair (x img : SrcPlane) : SrcPlane :=
  { x with cls := img.cls, due := img.due, qual := img.qual, sync := img.sync, sticky := img.sticky, lossHold := img.lossHold,
           wSet := img.wSet, qSet := img.qSet, grp := img.grp }

/-- Packets a -20 or 2022-6 context has sent in the first `l` lines of a frame (R212, R213). -/
def packetsTo (f : Fmt) (d : Desc) (l : Nat) : Nat :=
  if d.typ = 4 then
    let bits := l * (totalSamples f * 20)
    if l = totalLines f then (bits + dgramBits - 1) / dgramBits else bits / dgramBits
  else
    let per := d.payload * 8 / 10 / 2 * 2
    let n := (2 * activeSamples f + per - 1) / per
    n * ((List.range l).filter fun i => (lineRow (totalLines f) (activeLines f) f.scan (i + 1)).isSome).length

/-- Packets a send context would have sent between two instants (R475). -/
def packetsIn (m : Mach) (d : Desc) (t1 t2 : Int) : Nat :=
  let x := plane m (air m (1152 + d.port)).plane
  let f := x.fmt
  let o := x.phLines * totalSamples f + x.phSamples
  let frames := framesAt f o t2 - framesAt f o t1
  if d.audio then (t2.toNat * d.rate / secU) / max 1 d.perPacket - (t1.toNat * d.rate / secU) / max 1 d.perPacket
  else if d.typ = 3 then 2250 * frames.toNat
  else (frames * packetsTo f d (totalLines f) + packetsTo f d (lineAt f x t2) - packetsTo f d (lineAt f x t1)).toNat

/-- Sequence numbers continue as if the streams had never paused (R475): the packets since an instant are counted. -/
def advanceSeqs (m : Mach) (t1 : Nat) : Mach :=
  let f (_ : Nat) (x : Ctx) : Ctx :=
    if x.d.dir = 1 ∧ x.live then
      let n := packetsIn m x.d t1 m.dt.t
      { x with seq := (x.seq + n) % 2 ^ 32, outTs := (x.outTs + n) % 2 ^ 32 }
    else x
  { m with flw := { m.flw with ctxs := tmap f m.flw.ctxs, seqAt := m.dt.t } }

/-- Merge a table: the image's entries over what runs, by `f`; entries the image lacks go. -/
def overlay {α : Type} (d : α) (f : α → α → α) (now img : Tab α) : Tab α := img.map fun x => (x.1, f (tget d now x.1) x.2)

/-- Merge a table whose entries also run without being configured. -/
def overlayKeep {α : Type} (d : α) (f : α → α → α) (now img : Tab α) : Tab α :=
  img.foldl (fun t x => tset t x.1 (f (tget d t x.1) x.2)) (tmap (fun i a => if (tget? i img).isSome then a else f a d) now)

/-- Write an image into the blocks (W6, and each save applied in SHADOW): the saved settings replace the module's own, and
what R471 leaves out stays as it is. -/
def restore (img : Saved) (m : Mach) : Mach :=
  let r := img.routes.xb
  let xb := { m.xb with
    planes := (List.range 16).map (restorePlane m img), epoch := img.head.epoch, dests := r.dests,
    history := img.epochs, gens := r.gens, gensNow := r.gensNow, gensEp := r.gensEp, pend := r.pend, airing := r.airing,
    holds := r.holds,
    air := tmap (fun d a => { a with cold := (air m d).cold && (air m d).src == a.src && (air m d).plane == a.plane }) r.air,
    loads := [], bg := [] }
  let is_ := { m.is_ with srcs := overlayKeep {} restoreSrc m.is_.srcs img.routes.srcs,
                          pairs := overlayKeep {} restorePair m.is_.pairs img.routes.pairs }
  let m := { m with xb, is_ }
  let m := (List.range 16).foldl (fun m p =>
    let mode := tget 0 img.flows.eth.split p
    if mode = tget 0 m.eth.split p then m else newSplit p mode m) m
  let m := { m with
    flw := { m.flw with
      ctxs := overlay {} (fun (now i : Ctx) =>
        { i with pathUp := now.pathUp, pathLost := now.pathLost, lastPkt := now.lastPkt,
                 buf := now.buf, kept := now.kept, slip := now.slip, nextTs := now.nextTs, lateRun := now.lateRun }) m.flw.ctxs img.flows.flw.ctxs,
      ifs := img.flows.flw.ifs, hops := img.flows.flw.hops, members := img.flows.flw.members,
      ports := overlay {} (fun (now i : Ingress) =>
        { i with lines := now.lines, swap := i.swap.map fun (s : SwapTo) => { s with tick := m.now - s.tick } }) m.flw.ports img.flows.flw.ports },
    eth := { m.eth with
      wake := img.flows.eth.wake, wakeOrder := img.flows.eth.wakeOrder,
      macs := overlayKeep {} (fun (now i : Mac) => { now with addr := i.addr, maxFrame := i.maxFrame }) m.eth.macs img.flows.eth.macs },
    cmp := { m.cmp with cmps := overlay {} (fun (now i : Cmp) =>
      { now with com := i.com, pend := i.pend, lat := { now.lat with layout := i.lat.layout } }) m.cmp.cmps img.cmps.cmps } }
  let a := img.audio.aud
  let m := { m with
    aud := { m.aud with
      rate := a.rate, len := a.len, lenNext := a.lenNext, taps := a.taps, fades := a.fades, ramps := a.ramps, timed := a.timed,
      bankFg := a.bankFg, blockChg := a.blockChg, dests := a.dests, psi := a.psi, tones := a.tones, loads := [],
      groups := overlayKeep {} (fun (now i : AGroup) => { now with convert := i.convert, core := i.core }) m.aud.groups a.groups,
      meters := overlay {} (fun (now i : Meter) => { now with on := i.on }) m.aud.meters a.meters },
    apt := { m.apt with ports := overlayKeep {} (fun (now i : Apt) =>
      { now with cfg := i.cfg, n := i.n, nPend := i.nPend, core := i.core,
                 st := if !i.cfg.enable then 0 else if now.st = 0 then 1 else now.st }) m.apt.ports img.audio.apt.ports } }
  let t := img.timing.tmg
  let d := img.timing.dt
  let m := { m with
    tmg := { m.tmg with
      cands := overlayKeep {} (fun (now i : Cand) => { now with cfg := i.cfg }) m.tmg.cands t.cands,
      lrefs := t.lrefs, classMap := t.classMap,
      dpll := { m.tmg.dpll with mode := t.dpll.mode, forced := t.dpll.forced, revert := t.dpll.revert,
                                pairFollow := t.dpll.pairFollow, holdql := t.dpll.holdql, freeql := t.dpll.freeql, lp := t.dpll.lp },
      aplls := overlayKeep {} (fun (now i : Apll) => { now with mint := i.mint, mnum := i.mnum, mden := i.mden }) m.tmg.aplls t.aplls,
      outs := overlay {} (fun (now i : ClkOut) => { i with drive := now.drive && decide (now.src = i.src), grant := now.grant,
                                                           grantAt := now.grantAt }) m.tmg.outs t.outs }
    dt := { m.dt with
      mode := d.mode, pps := d.pps, steplim := d.steplim
      ptp := { d.ptp with ports := overlay {} (fun (now i : PtpPort) =>
        { now with mac := i.mac, flags := i.flags, logSync := i.logSync, logAnn := i.logAnn, annTimeout := i.annTimeout,
                   logDelay := i.logDelay, rxdly := i.rxdly, txdly := i.txdly, asym := i.asym, mpd := i.mpd, seqSync := i.seqSync,
                   seqAnn := i.seqAnn, seqReq := i.seqReq, seqMgmt := i.seqMgmt }) m.dt.ptp.ports d.ptp.ports } }
    ctl := { m.ctl with sessions := overlay {} (fun (now i : Session) =>
      let i := { i with grantEnd := i.grantEnd.map (m.now + ·) }
      if now.st = SesState.opn then { i with st := SesState.opn, port := now.port } else i) m.ctl.sessions img.sessions.sessions } }
  let s := img.settings
  let m := { m with
    mem := { m.mem with ports := overlayKeep {} (fun (now i : MemPort) => { now with budget := i.budget }) m.mem.ports s.ports }
    flt := { m.flt with escn := s.flt.escn, esct := s.flt.esct, fnclass := s.flt.fnclass, budget := s.flt.budget }
    snp := { m.snp with enables := s.snp.enables, sclass := s.snp.sclass, src := s.snp.src, kind := s.snp.kind, div := s.snp.div,
                        matchSec := s.snp.matchSec, matchNs := s.snp.matchNs, period := s.snp.period }
    pr := { m.pr with cfg := s.pair, keepOrder := s.keepOrder } }

  settleGrants (assignFeeds (dropFeeds (advanceSeqs m img.head.instant)))

end Sys2Proof.Machine
end

