-- ==== Sys2Proof/Machine/Den.lean ====
section
/-! DEFINITION. The health report, the drill's bounds, and the beginning of the Den entry sequence (R482, R483, R498). -/
namespace Sys2Proof.Machine

/-! ### Health report (R482) -/

/-- A heartbeat path is up. -/
def HbPath.up (p : HbPath) : Bool := p.ever && !p.lost

/-- The paths as they stand: XL_A, XL_B, pin. -/
def pathsUp (m : Mach) : Nat := mask [m.pr.pathA.up, m.pr.pathB.up, m.pr.pathPin.up]

/-- The drill word of R482 and PR_DRILL. -/
def drillWord (m : Mach) : Nat := m.pr.drillRes % 256 * 2 ^ 24 + m.pr.drillBlocks % 2 ^ 24

/-- The module's own report: 64 bytes. -/
def ownReport (m : Mach) : List Byte :=
  le 4 (claimWord m) ++ le 1 m.pr.st
    ++ le 1 (mask [m.pr.fit, m.pr.stale, m.pr.wakeFail, m.pr.split, m.pr.unprot, m.dt.valid, m.pr.role == 15])
    ++ le 1 (pathsUp m) ++ le 1 m.pr.cfg.demote ++ le 2 (countCls m 1) ++ le 2 (countCls m 2) ++ le 4 m.pwr.rbFail
    ++ le 8 m.pr.imgEpoch ++ le 4 m.pr.save ++ le 4 (drillWord m) ++ (Item.instant m.pr.drillInstant).bytes ++ List.replicate 16 0

/-- What the module knows of its partner's: the latest report, the latest heartbeat, or the paths alone. The heartbeat's
receive masks stand for the paths byte (Assumption 34). -/
def partnerReport (m : Mach) : List Byte :=
  match m.pr.report, m.pr.beat with
  | some r, _ => if m.pr.ploss then splice (splice r 4 (le 1 5)) 6 (le 1 (pathsUp m)) else r
  | none, some b =>
    padTo 0 64 (le 4 b.claim ++ le 1 (if m.pr.ploss then 5 else b.st)
      ++ le 1 (mask [b.fit, b.stale, b.wakeFail, false, false, b.tvalid])
      ++ le 1 (if m.pr.ploss then pathsUp m else mask [bit b.rxA 0, bit b.rxB 0]))
  | none, none => padTo 0 64 (le 4 0 ++ le 1 5 ++ le 1 0 ++ le 1 (pathsUp m))

/-- PAIR_STATUS (R485). -/
def askPairStatus (n which off : Nat) (m : Mach) : QRes :=
  if 1 < which then .arg
  else .answer (putSalvo m n off (if which = 0 then ownReport m else partnerReport m)) sOk []

/-- HEALTH_REPORT_SEND (R482, R546): the report, and the formats of the running image. -/
def sendReports (m : Mach) : Mach :=
  if m.sys.romMode ∨ !xlStarted m then m
  else
    let i := runImage m
    let m := xlSend m (.report (ownReport m))
    if m.upd.running then
      xlSend m (.formats { ssf := imgSsf i, ssfmin := imgSsfMin i, release := imgRelease i, svn := imgSvn i })
    else m

/-! ### Entering Den (R498) -/

/-- Reports for every group the contexts use: leaves, or joins again (R205). -/
def leaveGroups (m : Mach) : Mach :=
  m.flw.members.foldl (fun m x => if x.ctxs.isEmpty then m else sendReport m x (changeRecs x.filter (some []))) m
def joinGroups (m : Mach) : Mach :=
  m.flw.members.foldl (fun m x => if x.ctxs.isEmpty then m else sendReport m x (changeRecs (some []) x.filter)) m

/-- Input stages, contexts and compositors stop: no source is present and nothing is in progress. -/
def stopBlocks (m : Mach) : Mach :=
  let src (_ : Nat) (x : Src) : Src := { x with present := false, lastSig := some x.fmt, cur := none, lab := [], seen := [], audioQ := [] }
  let ctx (_ : Nat) (x : Ctx) : Ctx := { x with buf := [], kept := [], nextTs := none }
  { m with is_ := { m.is_ with srcs := tmap src m.is_.srcs, feeds := tmap (fun _ (f : Feed) => { f with started := false }) m.is_.feeds },
           flw := { m.flw with ctxs := tmap ctx m.flw.ctxs } }

/-- Den entry may begin: from SHADOW or DRILL at ROLE 4 or 0, never with a C3 fault (R498, R524). -/
def canEnter (m : Mach) : Bool :=
  !grave m && !claiming m && m.pwr.st == 1 && (m.pr.st == 2 || m.pr.st == 4) && m.sys.phase == 0 && !m.sys.romMode

/-- Phase P1 begins. -/
def beginEntry (m : Mach) : Mach :=
  if !canEnter m then m
  else
    let m := stopBlocks (leaveGroups (endTests m))
    powerEvt { m with pwr := { m.pwr with st := 3, phase := 1, before := (1, 2), events := [], holdFrom := none },
                      pr := { m.pr with st := 2, starting := false, formerAt := none } } 0

/-- The standby's first Den entry after its start (R498, R565): fit at ROLE 4 beside a claiming partner. -/
def firstEntry (m : Mach) : Mach :=
  if m.pr.starting ∧ m.pr.cfg.denAuto ∧ m.pr.fit ∧ m.pr.role = 4 ∧ partnerClaims m ∧ !m.pr.ploss ∧ m.pr.chg.isNone ∧ !m.pr.drilling
  then beginEntry m else m

/-- What is gated in Den: every lane but those kept, every MAC without a matcher; clock outputs float and APLLs unlock; host
links fall (R340, R490, R494). -/
def gateDomains (m : Mach) : Mach :=
  let macOn (k : Nat) : Bool := !(matchersOn m k).isEmpty
  let kept (l : Nat) : Bool :=
    (208 ≤ l && l < 216 && m.pr.cfg.keepA) || (216 ≤ l && l < 224 && m.pr.cfg.keepB) ||
      (144 ≤ l && l < 208 && (List.range 4).any fun w => macOn (4 * ((l - 144) / 4) + w))
  let keptRx (l : Nat) : Bool := (144 ≤ l && l < 152 && m.pr.cfg.keepA) || (152 ≤ l && m.pr.cfg.keepB)
  let detach (_ : Nat) (x : Session) : Session := if x.st = .opn then { x with st := .detached } else x
  let m := (List.range 64).foldl (fun m k => if macOn k then setMac m k fun x => { x with rxq := [], txq := [] } else stopMac k m) m
  { m with
    ln := { m.ln with lanes := tmap (fun l (x : Lane) =>
      if kept l then x else { x with ready := false, lock := false, sig := false, rate := 0, toRate := none }) m.ln.lanes }
    wl := { m.wl with rx := tmap (fun l (r : WlRx) => if keptRx l then r else { r with st := 0, good := 0, bad := 0 }) m.wl.rx,
                      tx := tmap (fun l (t : WlTx) => if keptRx l ∧ (l - 144) % 8 = 0 then t else { t with ball := [] }) m.wl.tx }
    tmg := { m.tmg with outs := tmap (fun _ (o : ClkOut) => { o with drive := false }) m.tmg.outs,
                        aplls := tmap (fun _ (a : Apll) => { a with lock := false }) m.tmg.aplls }
    ctl := { m.ctl with sessions := tmap detach m.ctl.sessions } }

/-! ### Drills (R483) -/

/-- A drill may start: fit, the partner claims, no changeover runs, the image is current. -/
def canDrill (m : Mach) : Bool :=
  m.pr.fit && m.pr.role == 4 && partnerClaims m && !m.pr.ploss && m.pr.chg.isNone && !m.pr.stale && !m.pr.drilling && !grave m

/-- The self-test begins. -/
def startDrill (m : Mach) : Mach := pairEvt { m with pr := { m.pr with st := 4, drilling := true } } 0

/-- Answer the PAIR_DRILL that waits. -/
def answerDrill (m : Mach) : Mach :=
  match m.pr.drillAsk with
  | some (n, hseq) =>
    let m := { m with pr := { m.pr with drillAsk := none } }
    if live m n then postFinal m n 0x0904 hseq sDone (layout [.b m.pr.drillRes, .w (m.pr.drillBlocks % 2 ^ 24)]) 1 else m
  | none => m

/-- A drill ends with a result, reported (R482, R486). -/
def endDrill (m : Mach) (res blocks : Nat) : Mach :=
  pairEvt (answerDrill { m with pr := { m.pr with drilling := false, st := 2, drillRes := res, drillBlocks := blocks,
                                                  drillInstant := m.dt.t, drillTick := m.now } }) 5

/-- A running drill is abandoned: a changeover or heartbeat loss (R483). -/
def dropDrill (m : Mach) : Mach := if m.pr.drilling then endDrill m 3 0 else m

/-- HEALTH_REPORT_SEND (R482). -/
def execHealthReportSend := run sendReports

end Sys2Proof.Machine
end

