-- ==== Sys2Proof/Machine/Takeover.lean ====
section
/-! DEFINITION. ROLE, the journal actions of a claimant, claims, and the changeover's end (R458, R459, R472, R474, R476, R479,
R480, R485). -/
namespace Sys2Proof.Machine

/-! ### ROLE without a claim (R458) -/

/-- The partner's heartbeat carries the module's own SLOT. -/
def slotClash (m : Mach) : Bool := partnerHere m && m.pr.beat.any fun b => b.claim % 256 == m.pr.slotId % 256

/-- ROLE of a module that does not claim. -/
def restRole (m : Mach) : Nat :=
  if grave m || !m.pr.fit || m.pwr.wakeFail || slotClash m || (m.pwr.st == 4 && m.pwr.claiming) then 0 else 4

/-- ROLE follows its conditions. -/
def settleRole (m : Mach) : Mach :=
  if claiming m then
    (if grave m then fallRole m else if slotClash m then fallRole { m with pr := { m.pr with clashRole := m.pr.role } } else m)
  else if m.pr.role = restRole m then m else setRole m (restRole m)

/-! ### The journal actions of R472 -/

/-- A plane as it stood, or will stand, at an instant of device time. -/
def planeAt (x : Plane) (now t : Nat) : Plane :=
  { x with nextSw := ((x.nextSw : Int) - switchesIn x t now).toNat, cut := cutAt x t }

/-- A plane after a change set of an earlier instant `t` is put in force: it counts as before, unless the change set gave it a new
timing, whose switch points count from the first one more than a frame after `t` (R19, R73). -/
def planeBack (was : Plane) (t now : Nat) (x : Plane) : Plane :=
  if x.fmt = was.fmt ∧ x.phLines = was.phLines ∧ x.phSamples = was.phSamples then { x with nextSw := was.nextSw, cut := was.cut }
  else
    let quiet := t + framePs x.fmt * nsU / 1000
    { x with nextSw := x.nextSw + (switchesIn x quiet now).toNat,
             cut := decide (0 < switchesIn x (max quiet now) (now + x.cutoffNow * 1000 * nsU)) }

/-- The entry's outcome is in the cache already. -/
def cached (m : Mach) (e : JEntry) : Bool := (ses m e.ses).cache.any fun c => c.jseq == e.of && !c.final.isEmpty

/-- The session's cache holds the entry, with its final response if there is one. -/
def cachePut (m : Mach) (e : JEntry) (rs : List Resp) : Mach :=
  if e.ses = 255 ∨ (ses m e.ses).st = .free ∨ !e.cmd.isChange then m
  else
    let m := if (ses m e.ses).cache.any fun c => c.jseq == e.of then m else cacheOpen m e.ses e.hseq e.of
    if rs.isEmpty then m else cacheFinal m e.ses e.of rs

/-- An entry committed after the image's save is put in force with its recorded epoch and commit instant; switch points that
have passed take effect at once. -/
def recommit (m : Mach) (e : JEntry) : Mach :=
  let c : CCtx := { ses := if e.ses = 255 then none else some e.ses, ep := e.epoch, hseq := e.hseq, jseq := e.of, data := e.data, replay := true }
  let now := m.dt.t
  let was := m.xb.planes
  let at_ : Mach := { m with dt := { m.dt with t := e.instant }, xb := { m.xb with planes := was.map fun x => planeAt x now e.instant } }
  let back (x : Mach) : Mach :=
    { x with dt := { x.dt with t := now },
             xb := { x.xb with planes := x.xb.planes.zipIdx.map fun p => planeBack (lget p.1 was p.2) e.instant now p.1 } }
  let done (items : List Item) : List Resp := mkResps e.cmd.opcode sDone 0 e.hseq e.of (layout (.q e.epoch :: items))
  let (m, rs) := match e.cmd, commitCmd c e.cmd at_ with
    | .pairChangeover p _, _ =>
      (newEpoch m m e.epoch, done [.instant e.instant, .b (if p = 255 then m.pr.cfg.plane else p)])
    | _, .commit m' items => (newEpoch m (back m') e.epoch, done items)
    | _, _ => (newEpoch m m e.epoch, done [])
  let m := (List.range 16).foldl (fun m p =>
    let k := (plane m p).nextSw
    if k ≠ 0 ∧ m.xb.pend.any fun x => x.plane == p && decide (x.target < k) then swapPlane p (k - 1) m else m) m
  cachePut m e rs

/-- A refusal recorded after the image's save: its response is cached. The journal records the status alone, so the rest
of the refusal block reads as for no owner. -/
def recache (m : Mach) (e : JEntry) : Mach := cachePut m e (mkResps e.cmd.opcode e.status 0 e.hseq e.of ({} : Ref).bytes)

/-- The saves since the image's: how far the image lags behind the partner's latest save (R470). -/
def saveLag (m : Mach) : Nat := ((m.pr.beat.map (·.save)).getD m.pr.save + 2 ^ 32 - m.pr.save) % 2 ^ 32

/-- The image is out of date (R470, R472): the module continues from the image epoch plus 2³². -/
def outOfDate (m : Mach) : Mach :=
  if 64 ≤ saveLag m ∧ saveLag m < 2 ^ 31 ∧ m.xb.epoch < m.pr.imgEpoch + 2 ^ 32 then raise { m with xb := { m.xb with epoch := m.pr.imgEpoch + 2 ^ 32 } } 0xDE0 0x96 2 else m

/-- An open entry of the journal copy is committed, exactly once, REPLAYED; a changeover it asked for is FAULTED, and so is
a swap of mix banks, whose load was the old claimant's (R278, R407). -/
def replayEntry (m : Mach) (j : Nat) : Mach :=
  match jentry? m j with
  | none => m
  | some e =>
    if e.st ≠ 0 then m
    else match e.cmd with
      | .pairChangeover _ _ | .audBankSwap _ => conclude m j 2 sFaulted ({} : Ref).bytes
      | .dtStep sec ns flags => requestStep m sec ns flags (e.ses, e.hseq) j
      | _ => commitEntry m e

/-- An entry of the copy as the claimant's own: nothing waits for the old claimant, and nothing more is posted for it. -/
def adopt (e : JEntry) : JEntry :=
  { e with unacked := false, held := [], room := 0, deaf := true, waiting := false, asked := false, savedIn := none, replay := e.st == 0 }

/-- The adopted entries in the journal's SRAM, from an offset on; and where the next begins (R422). -/
def placed : Nat → List JEntry → List JEntry × Nat
  | o, [] => ([], o)
  | o, e :: es => let r := placed ((o + e.size) % 2 ^ 20) es; ({ e with at_ := o } :: r.1, r.2)

/-- The journal actions (R472, R505): each entry at most once, in JSEQ order. `lossy`: after heartbeat loss. -/
def journalActions (lossy : Bool) (m : Mach) : Mach :=
  let own := (m.pr.jcopy.map adopt).mergeSort fun a b => decide (a.jseq ≤ b.jseq)
  let last := own.foldl (fun a e => max a e.jseq) (max m.pr.jrecv ((m.pr.img.map (·.head.jseq)).getD 0))
  let (own, jpos) := placed m.ctl.jpos own
  let m := { m with ctl := { m.ctl with journal := m.ctl.journal ++ own, jnext := max m.ctl.jnext (last + 1), jpos, restarting := false, quiesced := false },
                    pr := { m.pr with jcopy := [] } }
  let m := own.foldl (fun m e =>
    if e.st = 1 ∧ m.pr.imgEpoch < e.epoch then recommit m e
    else if (e.st = 2 ∨ e.st = 3) ∧ e.kind ≠ 2 ∧ !cached m e ∧ e.status ≠ sPending then recache m e else m) m
  let m := if lossy then outOfDate m else m
  let opens := own.filter fun e => e.st == 0
  let m := opens.foldl (fun m e => cachePut m e []) m
  opens.foldl (fun m e => replayEntry m e.jseq) m

/-! ### Claims -/

/-- The session table of a claimant (R417, R421): what is not attached here is DETACHED, and every lease starts again. -/
def claimSessions (m : Mach) : Mach :=
  (liveSessions m).foldl startLease m

/-- Destinations without content carry idle-echo, and egress ports send nothing, until their first frame with content
(R474). -/
def idleOuts (m : Mach) : Mach :=
  { m with out := (List.range 2304).foldl (fun t d => tmod {} t d fun o => { o with idle := !hasContent m d }) m.out }

/-- The module takes ROLE 8 or 15 (R206, R363, R417, R465, R466): what R466 lists is withheld after heartbeat loss, and where
start-up heard the pin alone. -/
def claimAs (m : Mach) (role : Nat) (planned : Bool) : Mach :=
  let was := claiming m
  let hold := m.pr.ploss || m.pr.lone == 2 && m.pr.beat.isNone
  let m := { m with pr := { m.pr with st := 3, split := false, chg := none, kept := [], formerAt := none, starting := false, clashRole := 0,
                                      withhold := hold, echoOk := false, plossAt := if m.pr.ploss then m.pr.plossAt else m.now,
                                      saveAcked := m.pr.save, recv := [], slices := [], wanted := [], stale := false,
                                      ownImage := false },
                    pwr := { m.pwr with st := 0, phase := 0, holdFrom := none } }
  let m := setRole m role
  if was then m
  else
    let m := ptpResume (claimSessions m)
    let m := if planned then m else idleOuts m
    if hold then m else announce m

/-- A claim after heartbeat loss (R476, R479). -/
def takeover (m : Mach) : Mach :=
  let m := claimAs (journalActions true m) 8 false
  pairEvt { m with pr := { m.pr with cnt := { m.pr.cnt with takeover := sat m.pr.cnt.takeover 1 } } } 2

/-- A slot ID clash that held a claim at ROLE 0 has ended: the module has claimed (R458), unless the partner has by now. -/
def resumeClaim (m : Mach) : Mach :=
  let r := m.pr.clashRole
  if r = 0 ∨ slotClash m then m
  else
    let m := { m with pr := { m.pr with clashRole := 0 } }
    if claiming m ∨ partnerClaims m ∨ m.pr.role ≠ 4 ∨ m.pr.st ≠ 2 then m else pairEvt (claimAs (journalActions false m) r false) 0

/-- The module may claim at heartbeat loss: fit, in SHADOW, and not demoted by a foreign echo (R465, R479). -/
def mayClaim (m : Mach) : Bool := m.pr.fit && m.pr.role == 4 && !m.pr.split && !grave m && m.sys.phase == 0

/-! ### The end of a changeover (R480, R485) -/

/-- The PAIR_CHANGEOVER that waits ends with a status. -/
def endAsked (m : Mach) (status : Nat) (r : Ref) : Mach :=
  match m.pr.chg with
  | some c => if c.jseq = 0 then m
    else match m.ctl.journal.find? fun e => e.of == c.jseq && e.waiting with
      | some e =>
        let j := m.ctl.jnext
        conclude (commitRecord m e.jseq) j 2 status r.bytes
      | none => m
  | none => m

/-- The changeover ends without a swap; the active tells the standby. -/
def dropChange (m : Mach) (status : Nat) (r : Ref) : Mach :=
  let m := endAsked m status r
  let m := if claiming m ∧ m.pr.chg.isSome then xlSend m .ended else m
  { m with pr := { m.pr with chg := none }, ctl := { m.ctl with quiesced := false } }

/-! ### Claims and handovers by grade (R459) -/

/-- GRADE in the partner's latest heartbeat. -/
def partnerGrade (m : Mach) : Nat := (m.pr.beat.map fun b => b.claim / 2 ^ 24 % 16).getD 0

/-- The conditions of a handover by grade (R459, R590). -/
def gradeLow (m : Mach) : Bool :=
  m.pr.role == 8 && decide (grade m < m.pr.cfg.demote) && roleHeard m && (m.pr.beat.any (·.fit))
    && decide (m.pr.cfg.demote ≤ partnerGrade m)

/-- A handover starts, or one that a condition no longer backs ends (R459). -/
def gradeCheck (m : Mach) : Mach :=
  match m.pr.chg with
  | some c => if c.byGrade ∧ !gradeLow m then dropChange m sConflict {} else m
  | none =>
    if gradeLow m ∧ canChange m ∧ m.pr.again ≤ m.now then startChange m m.pr.cfg.plane m.pr.cfg.warmMax 0 true else m

/-- The claim without command (R459, R565, R590), at a TP_0 switch point. -/
def claimCheck (m : Mach) : Mach :=
  let theirs := match m.pr.beat with
    | some b => if !roleHeard m then none else if b.claim / 2 ^ 28 < 8 then some (8 * 2 ^ 28 + b.claim % 2 ^ 28) else none
    | none => if m.pr.lone = 0 then none else some 0
  if m.pr.role = 4 ∧ m.pr.fit ∧ m.pwr.st = 1 ∧ !m.pr.drilling ∧ m.pr.chg.isNone ∧ m.pr.cfg.demote ≤ grade m ∧
      theirs.any fun w => decide (w < claimWordAs m 8) then
    pairEvt (claimAs (journalActions false m) 8 false) 0
  else m

/-! ### PAIR_FORCE (R485) -/

/-- A claim by command from SHADOW acts on the journal copy first. -/
def forceClaim (m : Mach) (role : Nat) : Mach :=
  if claiming m then setRole m role
  else pairEvt (claimAs (journalActions false (dropDrill m)) role false) 0

/-- PAIR_FORCE (R484, R485). -/
def askPairForce (op : Nat) (m : Mach) : QRes :=
  let r := m.pr.role
  if 3 < op then .arg
  else if op = 2 ∧ partnerClaims m ∧ !m.pr.ploss then .conflict 18 0
  else if (op = 1 ∨ op = 2) ∧ r = 0 then .conflict 18 0
  else
    let m := match op with
      | 0 => if r = 15 then setRole m 8 else m
      | 1 => if r = 15 then m else forceClaim (dropChange m sConflict { okind := 18 }) 15
      | 2 => if 8 ≤ r then m else forceClaim m 8
      | _ => if 8 ≤ r then pairEvt (setRole (dropChange m sConflict { okind := 18 }) 4) 0 else m
    .answer m sDone []

/-- PAIR_DRILL (R483, R485, R549). -/
def askPairDrill (n hseq : Nat) (m : Mach) : QRes :=
  if !canDrill m ∨ m.pr.st ≠ 2 then .conflict 18 0
  else .accept (startDrill { m with pr := { m.pr with drillAsk := some (n, hseq) } })

end Sys2Proof.Machine
end

