-- ==== Sys2Proof/Machine/Heartbeat.lean ====
section
/-! DEFINITION. Heartbeats, their paths and their loss; the messages of XL: journal mirror, saves, pair control (R351, R461 to
R464, R468 to R470, R480, R504, R546, R590). -/
namespace Sys2Proof.Machine

/-! ### Sending (R462, R463) -/

/-- The heartbeat of now. -/
def beatNow (m : Mach) : Beat :=
  { claim := claimWord m, st := m.pr.st, qlout := m.tmg.dpll.qlout, tvalid := m.dt.valid, fit := m.pr.fit, stale := m.pr.stale,
    wakeFail := m.pr.wakeFail, t := m.dt.t / nsU * nsU, epoch := heldEpoch m,
    jseq := if claiming m then m.ctl.jnext - 1 else m.pr.jrecv, save := m.pr.save, rxA := rxMask m 0, rxB := rxMask m 1 }

/-- HEARTBEAT_SEND (R462, R463, R559): blocks from boot phase S6 on, pulses in every state but a C3 fault and ROM service
mode. -/
def beatSend (m : Mach) : Mach :=
  if m.sys.romMode then m
  else
    let m := if grave m then m else { m with pr := { m.pr with pulses := m.pr.pulses + 1 } }
    if xlStarted m then
      let m := { m with pr := { m.pr with sent := beatNow m } }
      [144, 152].foldl (fun m l => setTx m l fun t => { t with beatDue := true }) m
    else m

/-! ### Paths (R464) -/

/-- The three paths: XL_A, XL_B, PAIR_HB_IN. -/
def path (m : Mach) (i : Nat) : HbPath :=
  match i with
  | 0 => m.pr.pathA
  | 1 => m.pr.pathB
  | _ => m.pr.pathPin
def setPath (m : Mach) (i : Nat) (f : HbPath → HbPath) : Mach :=
  { m with pr := match i with
    | 0 => { m.pr with pathA := f m.pr.pathA }
    | 1 => { m.pr with pathB := f m.pr.pathB }
    | _ => { m.pr with pathPin := f m.pr.pathPin } }

def allLost (m : Mach) : Bool := m.pr.pathA.lost && m.pr.pathB.lost && m.pr.pathPin.lost
def everHeard (m : Mach) : Bool := m.pr.pathA.ever || m.pr.pathB.ever || m.pr.pathPin.ever

/-- A *heartbeat path lost* condition begins or ends. -/
def pathFault (m : Mach) (i : Nat) : Mach := if standing m (0xDE1 + i) 0x91 then m else raise m (0xDE1 + i) 0x91 1
def pathClear (m : Mach) (i : Nat) : Mach := endCond m (0xDE1 + i) 0x91

/-- What heartbeat loss makes of the module's state: a claimant withholds and gives up a changeover; a standby wakes, or
claims from SHADOW (R466, R476, R479, R480, R505). -/
def onLoss (m : Mach) : Mach :=
  if claiming m then
    let m := dropChange m sFaulted {}
    settleGrants { m with pr := { m.pr with withhold := true, echoOk := false } }
  else
    let m := dropChange (dropDrill m) sFaulted {}
    if m.pwr.st = 1 then
      let m := settleRole m
      if mayClaim m then takeover m else m
    else settleRole (wakeEvent 1 m)

/-- The waiting PWR_WAKE_PARTNER commands end with a status (R510). -/
def answerWake (m : Mach) (status : Nat) : Mach :=
  let ws := m.pwr.wakePartner
  let m := { m with pwr := { m.pwr with wakePartner := [] } }
  ws.foldl (fun m w =>
    if live m w.1 then postFinal m w.1 0x0A03 w.2 status (if status = sDone then [] else ({} : Ref).bytes) 1 else m) m

/-- Heartbeat loss is declared (R464). -/
def declareLoss (m : Mach) (role0 : Bool) : Mach :=
  if m.pr.ploss then m
  else
    let m := { m with pr := { m.pr with ploss := true, plossRole0 := role0, plossAt := m.now, echoOk := false } }
    let m := raise ((List.range 3).foldl pathClear m) 0xDE0 0x92 2
    onLoss (settleGrants (answerWake (pairEvt m 1) sFaulted))

/-- Heartbeat loss ends (R464 to R466): paths still lost are reported, SPLIT clears, nothing is withheld. -/
def endLoss (m : Mach) : Mach :=
  let m := endCond { m with pr := { m.pr with ploss := false, plossRole0 := false, split := false } } 0xDE0 0x92
  let m := (List.range 3).foldl (fun m i => if (path m i).lost then pathFault m i else m) m
  let held := m.pr.withhold
  let m := settleGrants { m with pr := { m.pr with withhold := false } }
  settleRole (if held ∧ claiming m then announce m else m)

/-- 250 µs have passed on a path without a valid heartbeat, the last instant included (R6, R464). -/
def missDue (m : Mach) (i : Nat) : Bool := m.pr.watching && !m.sys.romMode && decide ((path m i).at_ + 250 * usT < m.now)

/-- One miss on a path. -/
def missPath (i : Nat) (m : Mach) : Mach :=
  if !missDue m i then m
  else
    let c := m.pr.cnt
    let cnt := match i with
      | 0 => { c with missA := sat c.missA 1 }
      | 1 => { c with missB := sat c.missB 1 }
      | _ => { c with missPin := sat c.missPin 1 }
    let m := setPath { m with pr := { m.pr with cnt } } i fun p =>
      { p with miss := min 16 (p.miss + 1), good := 0, at_ := p.at_ + 250 * usT }
    if (path m i).lost ∨ (path m i).miss < 16 then m
    else
      let m := setPath m i fun p => { p with lost := true }
      if allLost m ∧ everHeard m then declareLoss m false
      else if m.pr.ploss then m else pathFault m i

/-- One valid heartbeat on a path. -/
def goodPath (i : Nat) (m : Mach) : Mach :=
  let m := setPath m i fun p => { p with miss := 0, good := min 16 (p.good + 1), ever := true, at_ := m.now }
  if !(path m i).lost ∨ (path m i).good < 16 then m
  else
    let m := setPath m i fun p => { p with lost := false }
    if m.pr.ploss ∧ !m.pr.plossRole0 then endLoss m else pathClear m i

/-- HEARTBEAT_PULSE_IN (R464): a high pulse of 1 to 4 µs, its width in ns. -/
def pulseIn (width : Nat) (m : Mach) : Mach :=
  if !m.pr.watching ∨ m.sys.romMode ∨ width < 1000 ∨ 4000 < width then m else goodPath 2 m

/-! ### A heartbeat arrives -/

/-- Device time follows the partner's while the module does not claim (R351): its value at the heartbeat instant and the
measured delay of the bundle's lane 0. INCR stands at the rate of system timing (`incrStep`). -/
def followTime (b : Nat) (x : Beat) (m : Mach) : Mach :=
  let l := rx m (144 + 8 * b)
  if claiming m ∨ !l.dvalid then m
  else
    let t := x.t + l.delay * nsU / 1000
    { m with dt := { m.dt with t := t % dtSpan, valid := m.dt.valid || x.tvalid } }

/-- The conditions that a partner's heartbeat sets and ends: *slot ID clash*, *partner wake failed* (R458, R504). -/
def beatConds (x : Beat) (m : Mach) : Mach :=
  let clash := slotClash m
  let m := if clash ∧ !standing m 0xDE0 0x90 then raise m 0xDE0 0x90 2 (x.claim % 256)
    else if !clash ∧ standing m 0xDE0 0x90 then endCond m 0xDE0 0x90 else m
  if x.wakeFail ∧ !standing m 0xDE0 0x98 then answerWake (raise m 0xDE0 0x98 2) sFaulted
  else if !x.wakeFail ∧ standing m 0xDE0 0x98 then endCond m 0xDE0 0x98 else m

/-- Ask the claiming partner for the whole image (R470, R508, R565). -/
def askWhole (m : Mach) : Mach := xlSend m .wantWhole

/-- What a claiming partner means to this module: one that started from the state of R33 asks for its image, and an unfit one
to be re-seeded (R508, R565). -/
def seeClaimant (m : Mach) : Mach :=
  if claiming m then m
  else if m.pr.fit ∧ m.pr.ownImage then askWhole { m with pr := { m.pr with stale := true, ownImage := false } }
  else if !m.pr.fit ∧ m.pwr.reseed then askWhole m
  else m

/-- A heartbeat block that has passed its check (R464). -/
def beatIn (b : Nat) (x : Beat) (m : Mach) : Mach :=
  let prev := partnerRole m
  let role := x.claim / 2 ^ 28
  let m := goodPath b m
  let m := followTime b x { m with pr := { m.pr with beat := some x } }
  let m := resumeClaim (settleRole (settleGrants (beatConds x m)))
  let m := if role = 0 ∧ prev.any (fun r => decide (8 ≤ r)) then declareLoss m true
    else if m.pr.ploss ∧ m.pr.plossRole0 ∧ 4 ≤ role then endLoss m else m
  let m := if x.st = 2 ∧ !m.pwr.wakePartner.isEmpty then answerWake m sDone else m
  let m := if 8 ≤ role ∧ !prev.any (fun r => decide (8 ≤ r)) then seeClaimant m else m
  gradeCheck (firstEntry m)

/-! ### Saves (R468, R470) -/

/-- Save numbers count modulo 2³². -/
def saveAfter (a b : Nat) : Nat := (a + 2 ^ 32 - b % 2 ^ 32) % 2 ^ 32

/-- The latest save is taken at a TP_0 switch point of a claiming module (R468, R526). -/
def takeSave (k : Nat) (m : Mach) : Mach :=
  if claiming m then { m with pr := { m.pr with kept := ((k, savedOf m k) :: m.pr.kept).take 16 } } else m

/-- One kept save. -/
def keptSave (m : Mach) (k : Nat) : Option Saved := (m.pr.kept.find? fun x => x.1 == k).map (·.2)

/-- Send the changed records of save `k`, and one slice of the whole image in rotation. -/
def sendSave (k : Nat) (m : Mach) : Mach :=
  match keptSave m k with
  | none => m
  | some s =>
    let old := (keptSave m ((k + 2 ^ 32 - 1) % 2 ^ 32)).getD {}
    let m := (old.changes s).foldl (fun m r => xlSend m (.saveRec k r)) m
    xlSend m (.slice k (k % 256) (s.slice k))

/-- Send the whole image with the journal entries after its save (R470, R508). -/
def sendWhole (m : Mach) : Mach :=
  let k := ((m.pr.kept.head?).map (·.1)).getD m.pr.save
  let s := ((m.pr.kept.head?).map (·.2)).getD (savedOf m k)
  let js := m.ctl.journal.filter fun e => e.st == 0 || decide (s.head.epoch < e.epoch) || e.savedIn.any fun n => saveAfter n k != 0 && decide (saveAfter n k < 2 ^ 31)
  let m := xlSend m (.whole k s js)
  { m with pr := { m.pr with cnt := { m.pr.cnt with fullSync := sat m.pr.cnt.fullSync 1 } } }

/-- SAVE_SEND_COMPLETE (R468, R546): the save's records have been sent. -/
def saveSent (k : Nat) (m : Mach) : Mach :=
  if claiming m ∧ compatible m ∧ xlUp m ∧ (keptSave m k).isSome then
    let m := sendSave k m
    { m with pr := { m.pr with save := k } }
  else m

/-- Save `k` is missed: STALE, and it is asked for (R470). -/
def missSave (k : Nat) (m : Mach) : Mach :=
  if m.pr.wanted.contains k then m
  else
    let m := { m with pr := { m.pr with stale := true, renewed := 0, wanted := m.pr.wanted ++ [k],
                                        cnt := { m.pr.cnt with resendReq := sat m.pr.cnt.resendReq 1 } } }
    xlSend m (.resend k)

/-- The image is written into the blocks of a module in SHADOW; in DRILL, whose blocks are under test until it restores them
(R483), it sets the planes' counts alone; in Den, or entering it, it stays an image (R73, R498). -/
def follows (m : Mach) : Bool := m.pwr.st == 1 && !claiming m
def applyImage (m : Mach) : Mach :=
  match m.pr.img with
  | some i =>
    if !follows m then m
    else if m.pr.drilling then
      { m with xb := { m.xb with planes := m.xb.planes.zipIdx.map fun x =>
        { x.1 with nextSw := (restorePlane m i x.2).nextSw, cut := (restorePlane m i x.2).cut } } }
    else restore i m
  | none => m

/-- The image takes records, and its head names the save. Final entries that it records leave the journal copy. -/
def nameSave (k : Nat) (img : Saved) (m : Mach) : Mach :=
  let ep := img.head.epoch
  let news (e : JEntry) : Bool := e.st == 0 || (if e.epoch = 0 then decide (img.head.jseq < e.jseq) else decide (ep < e.epoch))
  { m with pr := { m.pr with img := some img, imgEpoch := ep, save := k, jcopy := m.pr.jcopy.filter news } }

/-- SAVE_APPLY (R468, R470): every record of save `k` has passed its check, or not. STALE ends once the whole image has been
applied again: the 256 slices of a rotation, none of whose saves was missed (Assumption 31). -/
def saveApply (k : Nat) (ok : Bool) (m : Mach) : Mach :=
  if claiming m ∨ m.sys.romMode ∨ !compatible m then m
  else if !ok then missSave k m
  else match m.pr.img with
    | none => m
    | some img =>
      let gap := if m.pr.wanted.contains k then 0 else saveAfter k ((m.pr.save + 1) % 2 ^ 32)
      let m := if gap = 0 ∨ 2 ^ 31 ≤ gap then m
        else (List.range (min gap 17)).foldl (fun m i => missSave ((m.pr.save + 1 + i) % 2 ^ 32) m) m
      let later := decide (saveAfter k m.pr.save < 2 ^ 31)
      let mine := (m.pr.recv.filter fun r => r.1 == k).map (·.2)
      let img' := if later then mine.foldl Saved.put img else img
      let sl := (m.pr.slices.filter fun r => r.1 == k).map (·.2)
      let off := if later then sl.filter fun r => !img'.recs.contains r else []
      let img' := off.foldl Saved.put img'
      let wanted := m.pr.wanted.filter (· != k)
      let renewed := if sl.isEmpty then m.pr.renewed else min 256 (m.pr.renewed + 1)
      let stale := m.pr.stale && (decide (renewed < 256) || !wanted.isEmpty)
      let m := { m with pr := { m.pr with recv := m.pr.recv.filter fun r => r.1 != k, slices := m.pr.slices.filter fun r => r.1 != k,
                                          wanted, stale, renewed, cnt := { m.pr.cnt with diverge := sat m.pr.cnt.diverge off.length } } }
      let m := off.foldl (fun m _ => raise m 0xDE0 0x94 1) m
      xlSend (applyImage (if later then nameSave k img' m else m)) (.saveAck k)

/-! ### The other messages -/

/-- A whole image arrives with the journal entries after its save (R470, R508). -/
def wholeIn (k : Nat) (img : Saved) (js : List JEntry) (m : Mach) : Mach :=
  if claiming m ∨ !compatible m then m
  else
    let copy := js ++ m.pr.jcopy.filter fun e => !js.any fun x => x.jseq == e.jseq
    let m := { m with pr := { m.pr with
      jcopy := copy,
      jrecv := copy.foldl (fun a e => max a e.jseq) (max m.pr.jrecv img.head.jseq), wanted := [], stale := false,
      recv := [], slices := [], ownImage := false, seeded := m.pr.seeded || !m.pr.fit,
      cnt := { m.pr.cnt with fullSync := sat m.pr.cnt.fullSync 1 } },
                      pwr := { m.pwr with signed := if m.pwr.st = 2 then m.pwr.signed ||| 0x1FFFFFF else m.pwr.signed } }
    xlSend (applyImage (nameSave k img m)) (.saveAck k)

/-- A journal entry, or a change of an entry's STATE, joins the copy and is acknowledged (R469). -/
def entryIn (e : JEntry) (m : Mach) : Mach :=
  if claiming m then m
  else
    let jcopy := (m.pr.jcopy.filter fun x => x.jseq != e.jseq) ++ [e]
    xlSend { m with pr := { m.pr with jcopy, jrecv := max m.pr.jrecv e.jseq } } (.jack e.jseq)
def stateIn (j st status epoch instant : Nat) (m : Mach) : Mach :=
  if claiming m then m
  else
    let f (e : JEntry) : JEntry := if e.jseq = j then { e with st, status, epoch, instant } else e
    xlSend { m with pr := { m.pr with jcopy := m.pr.jcopy.map f } } (.stateAck j)

/-- The partner has applied save `k` (R423, R469). -/
def saveAcked (k : Nat) (m : Mach) : Mach :=
  let m := { m with pr := { m.pr with saveAcked := k } }
  retire (if m.pr.unprot then endCond { m with pr := { m.pr with unprot := false } } 0xDE0 0x95 else m)

/-- A wake message (R480, R510): a standby that is awake abandons a drill for a changeover. -/
def wakeIn (changeover : Bool) (plane warmMax : Nat) (m : Mach) : Mach :=
  if claiming m then m
  else if changeover then
    let c : Changeover := { phase := 1, c := m.now, warmMax, plane }
    wakeEvent 2 (dropDrill { m with pr := { m.pr with chg := some c } })
  else wakeEvent 5 m

/-- The instant of the last line of a plane's first frame at or after a device time. -/
def lastLineAt (x : Plane) (t : Nat) : Nat := (instantFrom x (totalLines x.fmt) t).toNat

/-- The standby is READY: the active chooses X (R480). -/
def chooseX (m : Mach) : Mach :=
  match m.pr.chg with
  | some c =>
    if !claiming m ∨ c.phase ≠ 1 then m
    else
      let x := lastLineAt (plane m c.plane) (m.dt.t + 2000000 * nsU)
      xlSend { m with pr := { m.pr with chg := some { c with phase := 2, x := some x } } } (.chosen x)
  | none => m

/-- The active has ended the changeover before X: the standby returns to Den when DEN_AUTO is set (R459, R480). -/
def endedIn (m : Mach) : Mach :=
  if claiming m ∨ m.pr.chg.isNone then m
  else
    let m := { m with pr := { m.pr with chg := none } }
    if m.pr.cfg.denAuto then beginEntry m else m

/-- The standby takes X and acknowledges it; the active needs nothing more from the acknowledgement (R480). -/
def chosenIn (x : Nat) (m : Mach) : Mach :=
  match m.pr.chg with
  | some c => if claiming m then m else xlSend { m with pr := { m.pr with chg := some { c with phase := 2, x := some x } } } (.chosen x)
  | none => m

/-- The partner's health report; the event when it has changed (R482, R486). -/
def reportIn (b : List Byte) (m : Mach) : Mach :=
  if m.pr.report = some b then m else pairEvt { m with pr := { m.pr with report := some b } } 6

/-- The partner's formats (R546): while the ranges do not overlap no saves flow and a standby is not fit. -/
def formatsIn (p : PartnerImg) (m : Mach) : Mach :=
  let m := { m with upd := { m.upd with partner := some p } }
  let bad := standing m 0xE30 0xD6
  if !compatible m then
    let m := if bad then m else raise m 0xE30 0xD6 2 (p.ssf % 256 * 256 + p.ssfmin % 256)
    if claiming m then m
    else settleRole { m with pr := { m.pr with fit := false, seeded := false }, pwr := { m.pwr with reseed := true } }
  else
    let m := if bad then endCond m 0xE30 0xD6 else m
    if bad ∧ partnerClaims m then seeClaimant m else m

/-- What a message does that no earlier copy has brought. -/
def xlAct (b : Nat) (x : XlMsg) (m : Mach) : Mach :=
  match x with
    | .beat x => beatIn b x m
    | .journal e => entryIn e m
    | .jstate j st status epoch instant => stateIn j st status epoch instant m
    | .saveRec k r =>
      if claiming m ∨ m.pr.recv.contains (k, r) then m else { m with pr := { m.pr with recv := m.pr.recv ++ [(k, r)] } }
    | .slice k _ r =>
      if claiming m ∨ m.pr.slices.contains (k, r) then m else { m with pr := { m.pr with slices := m.pr.slices ++ [(k, r)] } }
    | .whole k img js => wholeIn k img js m
    | .jack j => if claiming m then entryAcked m j else m
    | .stateAck j => if claiming m then finalAcked m j else m
    | .saveAck k => if claiming m then saveAcked k m else m
    | .resend k => if !claiming m ∨ !compatible m then m else if (keptSave m k).isSome then sendSave k m else sendWhole m
    | .wantWhole => if claiming m ∧ compatible m then sendWhole m else m
    | .wake c p w => wakeIn c p w m
    | .ready => chooseX m
    | .chosen t => chosenIn t m
    | .ended => endedIn m
    | .report bs => reportIn bs m
    | .formats p => formatsIn p m

/-- The message is a heartbeat: both its copies count, each on its path (R464). -/
def XlMsg.isBeat : XlMsg → Bool
  | .beat _ => true
  | _ => false

/-- Messages whose copy may still come: a bundle that is not UP brings none (R461). -/
def copiesDue (m : Mach) : List (Nat × XlMsg) := m.pr.copies.filter fun c => bundleUp m (1 - c.1)

/-- XL_BLOCK_RECEIVE (R461): a block that passed its check on a bundle. The first copy acts, the other is discarded. -/
def xlIn (b : Nat) (x : XlMsg) (m : Mach) : Mach :=
  if m.sys.romMode ∨ !xlStarted m then m
  else if x.isBeat then xlAct b x m
  else
    let due := copiesDue m
    if due.contains (1 - b, x) then { m with pr := { m.pr with copies := due.erase (1 - b, x) } }
    else xlAct b x { m with pr := { m.pr with copies := due ++ (if bundleUp m (1 - b) then [(b, x)] else []) } }

/-- HEARTBEAT_SEND (R462). -/
def execHeartbeatSend := run beatSend
/-- HEARTBEAT_MISS (R464). -/
def execHeartbeatMiss (path : Nat) := runIf (path < 3) (missPath path)
/-- HEARTBEAT_PULSE_IN (R464). -/
def execHeartbeatPulseIn (width : Nat) := run (pulseIn width)
/-- XL_BLOCK_RECEIVE (R461). -/
def execXlBlockReceive (bundle : Nat) (x : XlMsg) := runIf (bundle < 2) (xlIn bundle x)
/-- SAVE_SEND_COMPLETE (R468). -/
def execSaveSendComplete (k : Nat) := run (saveSent k)
/-- SAVE_APPLY (R468). -/
def execSaveApply (k : Nat) (ok : Bool) := run (saveApply k ok)

end Sys2Proof.Machine
end

