-- ==== Sys2Proof/Machine/Power.lean ====
section
/-! DEFINITION. The changeover's instants, the phases of Den entry, the wake steps, brown-outs, re-seeding, drills, and the
power commands (chapters 16 and 17). -/
namespace Sys2Proof.Machine

/-! ### The changeover (R480, R481) -/

/-- Every source present on the active is present here with the same class, by the image. -/
def sourcesReady (m : Mach) (img : Saved) : Bool :=
  img.routes.pairs.all fun x => x.2.cls == 0 || decide (2304 ≤ x.1 / 16) ||
    ((srcOf m (x.1 / 16)).present && (pair m (x.1 / 16) (x.1 % 16)).cls == x.2.cls)

/-- Every AUTO source that holds frame buffers has a complete frame. -/
def buffersReady (m : Mach) : Bool :=
  (bufSources m (m.xb.holds)).all fun s => decide (2304 ≤ s) || (newest (srcOf m s)).isSome

/-- Every receive context bound to a port is ready (R208). -/
def flowsReady (m : Mach) : Bool := m.flw.ctxs.all fun x => x.2.st != 3 || x.2.d.dir != 0 || ready m x.1

/-- Every input history holds the largest DELAY among its taps plus 48 samples. -/
def historiesReady (m : Mach) : Bool :=
  m.aud.taps.all fun x => !tapV x.2 || (chanSource m (tapIch x.2)).any isGen ||
    decide (tapDelay x.2 + 48 ≤ (ring m (tapIch x.2)).length)

/-- The four conditions of READY (R480). -/
def standbyReady (m : Mach) : Bool :=
  m.pwr.st == 1 && m.pr.img.any fun i => sourcesReady m i && buffersReady m && flowsReady m && historiesReady m

/-- CHANGEOVER_READY: the standby that meets READY says so, and the active chooses X. -/
def changeReady (m : Mach) : Mach :=
  if claiming m then chooseX m
  else match m.pr.chg with
  | some c => if c.phase = 1 ∧ standbyReady m then xlSend m .ready else m
  | none => m

/-- CHANGEOVER_QUIESCE: at X − 1 ms the active stops taking ring entries. -/
def changeQuiesce (m : Mach) : Mach :=
  match m.pr.chg with
  | some c =>
    if claiming m ∧ c.phase = 2 ∧ c.x.any fun x => decide (x ≤ m.dt.t + 1000000 * nsU) then
      { m with pr := { m.pr with chg := some { c with phase := 3 } }, ctl := { m.ctl with quiesced := true } }
    else m
  | none => m

/-- The PAIR_CHANGEOVER of a changeover is committed at X, and its final response posted before the claim goes (R485). -/
def commitChange (c : Changeover) (x : Nat) (m : Mach) : Mach :=
  match m.ctl.journal.find? fun e => e.of == c.jseq && e.waiting with
  | some e =>
    let j := m.ctl.jnext
    let ep := m.xb.epoch + 1
    let m := newEpoch m (commitRecord m e.jseq) ep
    finalAcked (conclude m j 1 sDone (layout [.q ep, .instant x, .b c.plane]) ep) j
  | none => m

/-- CHANGEOVER_SWAP (R480): at X the active falls to ROLE 4, its own state the image that saves now reach; the standby acts
on the journal copy and claims. -/
def changeSwap (m : Mach) : Mach :=
  match m.pr.chg with
  | some c => match c.x with
    | some x =>
      if c.phase < 2 ∨ m.dt.t < x then m
      else if claiming m then
        let m := if c.jseq = 0 then m else commitChange c x m
        let k := m.pr.save
        let img := savedOf m k
        let m := setRole m 4
        let m := { m with pr := { m.pr with img := some img, ownImage := false, formerAt := some x, cnt :=
          { m.pr.cnt with changeover := sat m.pr.cnt.changeover 1, demote := sat m.pr.cnt.demote (b2n c.byGrade) } } }
        pairEvt (if c.byGrade then pairEvt m 4 else m) 3
      else if m.pr.fit ∧ m.pr.role = 4 ∧ m.pwr.st = 1 then
        let m := claimAs (journalActions false m) 8 true
        pairEvt { m with pr := { m.pr with cnt := { m.pr.cnt with changeover := sat m.pr.cnt.changeover 1 } } } 3
      else m
    | none => m
  | none => m

/-- CHANGEOVER_ABANDON (R459, R480, R485): READY was not reached by WARMMAX. -/
def changeAbandon (m : Mach) : Mach :=
  match m.pr.chg with
  | some c =>
    if c.phase ≠ 1 ∨ m.now ≤ c.c + c.warmMax * 1000 * msT then m
    else if claiming m then
      let m := dropChange m sConflict { okind := 18 }
      gradeCheck (if c.byGrade then { m with pr := { m.pr with again := m.now + c.warmMax * 1000 * msT } } else m)
    else
      let m := { m with pr := { m.pr with chg := none } }
      if m.pr.cfg.denAuto then beginEntry m else m
  | none => m

/-- CHANGEOVER_DEN_ENTRY (R480): one second after X. -/
def changeDen (m : Mach) : Mach :=
  match m.pr.formerAt with
  | some x =>
    if m.dt.t < x + secU ∨ claiming m then m
    else
      let m := { m with pr := { m.pr with formerAt := none } }
      if m.pr.cfg.denAuto ∧ m.pr.chg.isNone then beginEntry m else m
  | none => m

/-! ### Den entry (R498, R499) -/

/-- The conditions that start SHADOWHOLD (R506). -/
def holdConds (m : Mach) : Bool :=
  m.pwr.st == 1 && m.pr.st == 2 && (m.pwr.cause == 4 || m.pwr.cause == 5) && m.pr.cfg.denAuto && m.pr.chg.isNone &&
    !m.pr.drilling && m.ctl.sessions.all fun x => x.2.st != .opn

/-- SHADOWHOLD runs while its conditions hold together. -/
def settleHold (m : Mach) : Mach :=
  { m with pwr := { m.pwr with holdFrom := if holdConds m then some (m.pwr.holdFrom.getD m.now) else none } }

/-- A wake event acts on a module that stands in SHADOW. -/
def actAwake (cause : Nat) (m : Mach) : Mach :=
  match cause with
  | 1 => if m.pr.ploss ∧ mayClaim m then takeover m else m
  | 3 => if canDrill m then startDrill m else m
  | _ => m

/-- Abort point A*k* (R499): phases P*k* to P1 are undone, and the pending wake event acts;
SHADOWHOLD runs from that event. -/
def abortEntry (k : Nat) (m : Mach) : Mach :=
  let cause := match m.pwr.events with
    | c :: cs => topCause c cs
    | [] => 0
  let m := if 4 ≤ k then loadMemory [] [] (memoryExit m) else m
  let m := joinGroups { m with pwr := { m.pwr with st := m.pwr.before.1, cause, events := [], signed := 0,
                                                   abort := sat m.pwr.abort 1 },
                               pr := { m.pr with st := m.pwr.before.2 } }
  let m := applyImage m
  let m := powerEvt m 2
  let m := { m with pwr := { m.pwr with phase := 0, holdFrom := some m.pwr.eventAt } }
  settleHold (actAwake cause m)

/-- P5 ends: the module is in DEN (R496, R497, R507). -/
def enterDen (m : Mach) : Mach :=
  let cost := denCost m
  let m := if 1300 < cost then raise m 0xDF0 0xA1 1 cost else m
  let m := gateDomains m
  let m := { m with pwr := { m.pwr with st := 2, phase := 0, lowPower := true, brownStay := false, wakeFail := m.pwr.wakeFail,
                                        denEntry := sat m.pwr.denEntry 1 }, pr := { m.pr with st := 0 } }
  let m := pairEvt (powerEvt m 1) 0
  match m.pwr.events with
  | c :: cs => beginWake m (topCause c cs)
  | [] => m

/-- DEN_PHASE_END (R498, R499). -/
def denPhaseEnd (m : Mach) : Mach :=
  if m.pwr.st ≠ 3 then m
  else
    let k := m.pwr.phase
    if k ≤ 4 ∧ !m.pwr.events.isEmpty then abortEntry k m
    else match k with
      | 3 => { m with pwr := { m.pwr with phase := 4, signed := 2 ^ 32 - 1 } }
      | 4 => { m with pwr := { m.pwr with phase := 5 }, mem := { m.mem with awake := false } }
      | 5 => enterDen m
      | _ => { m with pwr := { m.pwr with phase := k + 1 } }

/-! ### Waking (R501 to R505) -/

/-- W3 (R501): banks that fail their check, those lost in this stay among them. -/
def checkBanks (bad : Nat) (m : Mach) : Mach :=
  let bad := (bad ||| (2 ^ 32 - 1 - m.pwr.signed)) % 2 ^ 32
  let m := { m with pwr := { m.pwr with rbFail := bad, rbErr := sat m.pwr.rbErr (members 32 bad).length } }
  let m := if bad = 0 then m else powerEvt m 7
  let m := if bad / 2 ^ 25 = 0 then m else raise m 0xDF0 0xA2 1 bad
  if bad % 2 ^ 25 = 0 then m
  else
    let m := raise m 0xDF0 0xA3 2 bad
    settleRole { m with pr := { m.pr with fit := false, seeded := false }, pwr := { m.pwr with reseed := true } }

/-- The wake is complete (R458, R502, R503): a claim after heartbeat loss, a drill, or SHADOW. -/
def wakeDone (m : Mach) : Mach :=
  let us := (m.now - m.pwr.wakeAt) / usT
  let claims := m.pwr.claiming
  let cause := m.pwr.cause
  let m := { m with pwr := { m.pwr with st := 1, wakeUs := us, wake := sat m.pwr.wake 1, wakeFail := false, claiming := false,
                                        retried := false, holdFrom := none, signed := 0 },
                    pr := { m.pr with st := 2, wakeFail := false } }
  let m := if m.pwr.reseed then m else advanceSeqs m m.flw.seqAt
  let m := settleRole (endCond (powerEvt m 5) 0xDF0 0xA4)
  let m := pairEvt { m with pwr := { m.pwr with phase := 0 } } 0
  if claims then (if mayClaim m then takeover m else m)
  else if cause = 3 ∧ m.pr.chg.isNone then (if canDrill m then startDrill m else m)
  else settleHold (if !m.pr.fit ∧ m.pwr.reseed ∧ partnerClaims m then askWhole m else m)

/-- W5's ready condition (R157): every fitted lane is ready, but for those held down (R152, Assumption 22). -/
def lanesReady (m : Mach) : Bool := m.ln.lanes.all fun x => !x.2.fitted || x.2.tblErr || x.2.ready

/-- WAKE_STEP_READY (R503): `bad` holds the banks that fail at W3, and at W4 the positions that fail their verification, a
position plus 136 where its search fails as well. -/
def stepReady (bad : Nat) (m : Mach) : Mach :=
  if m.pwr.st ≠ 4 then m
  else
    let m := { m with pwr := { m.pwr with retried := false } }
    let next (k : Nat) (m : Mach) : Mach := { m with pwr := { m.pwr with phase := k, stepAt := m.now } }
    match m.pwr.phase with
    | 9 => next 10 m
    | 10 => next 11 m
    | 11 => next 12 (checkBanks bad m)
    | 12 =>
      let (b, w) := failing (members 272 bad)
      next 13 (loadMemory b w (memoryExit m))
    | 13 => if lanesReady m then next 14 (joinGroups m) else m
    | 14 =>
      let m := match m.pr.img with
        | some i => if m.pwr.reseed then m else restore i m
        | none => m
      next 15 (if m.pwr.claiming ∧ m.pr.fit then journalActions true m else m)
    | 15 => wakeDone m
    | _ => m

/-- Timeout of a wake step from its start, in ticks (R503). -/
def stepLimit (phase : Nat) : Nat := usT * lget 0 [200, 1000, 1000, 2000, 5000, 12000, 1000] (phase - 9)

/-- WAKE_STEP_TIMEOUT (R6, R504): one retry; then the wake has failed and the module is in DEN again. -/
def stepTimeout (m : Mach) : Mach :=
  if m.pwr.st ≠ 4 ∨ m.now ≤ m.pwr.stepAt + stepLimit m.pwr.phase then m
  else if !m.pwr.retried then
    powerEvt { m with pwr := { m.pwr with retried := true, stepAt := m.now, retry := sat m.pwr.retry 1 } } 4
  else
    let step := m.pwr.phase - 8
    let m := gateDomains m
    let m := { m with pwr := { m.pwr with st := 2, wakeFail := true, lowPower := !m.pwr.brownStay, retried := false, claiming := false,
                                          wakeFails := sat m.pwr.wakeFails 1, signed := m.pwr.signed % 2 ^ 25 },
                      pr := { m.pr with st := 0, wakeFail := true }, mem := { m.mem with awake := false } }
    let m := powerEvt (settleRole (raise m 0xDF0 0xA4 2 step)) 6
    pairEvt { m with pwr := { m.pwr with phase := 0 } } 0

/-- SHADOWHOLD_EXPIRY (R506). -/
def holdExpiry (m : Mach) : Mach :=
  match m.pwr.holdFrom with
  | some t => if holdConds m ∧ m.pwr.shadowHold ≠ 0 ∧ t + m.pwr.shadowHold * 1000 * msT ≤ m.now then beginEntry m else m
  | none => m

/-! ### Supplies and re-seeding (R493, R507, R508) -/

/-- BROWN_OUT (R507): all retained state is lost; device time restarts at a value the spec does not give. -/
def brownOut (m : Mach) : Mach :=
  if m.pwr.st ≠ 2 then m
  else
    let (seed, m) := fresh m
    let m := { m with
      pwr := { m.pwr with lowPower := false, brownStay := true, brownout := sat m.pwr.brownout 1, signed := 0, reseed := true },
      dt := { m.dt with t := Config.unstated seed % dtSpan, valid := false },
      tmg := { m.tmg with dpll := { m.tmg.dpll with hist := [], means := [], samples := 0, mark := 0, markT := 0, holdVal := none } },
      pr := { m.pr with fit := false, stale := true, seeded := false, ownImage := false, img := none, jcopy := [], recv := [],
                        slices := [], wanted := [] } }
    let m := powerEvt (settleRole (raise m 0xDF0 0xA5 2)) 8
    if partnerClaims m then askWhole m else m

/-- SUPPLY_OUT_OF_RANGE (R493): a board rail other than VIN_AUX, with its voltage. -/
def supplyLow (rail mv : Nat) (m : Mach) : Mach :=
  raise { m with pwr := { m.pwr with rails := tset m.pwr.rails rail (false, mv) } } 0xDF0 0xA0 3 rail

/-- RESEED_COMPLETE (R508, R566): the whole image and the journal entries after it are applied. -/
def reseeded (m : Mach) : Mach :=
  if m.pr.fit ∨ !m.pwr.reseed ∨ !m.pr.seeded ∨ !compatible m then m
  else
    let m := { m with pr := { m.pr with fit := true, stale := false, seeded := false }, pwr := { m.pwr with reseed := false } }
    let m := settleRole (endCond (endCond m 0xDF0 0xA3) 0xDF0 0xA5)
    firstEntry (settleReady (powerEvt m 9))

/-! ### The pair decision (R565, R590) -/

/-- Sixteen periods have passed without a valid heartbeat on a path that has never carried one. -/
def HbPath.silent (p : HbPath) : Bool := !p.ever && decide (16 ≤ p.miss)

/-- The module takes the state of R33 as its image. -/
def takeOwn (lone : Nat) (m : Mach) : Mach :=
  settleReady (settleRole { m with pr := { m.pr with fit := true, ownImage := true, imgEpoch := 0, lone, st := 2 } })

/-- PAIR_DECISION (R565). Without a board table the module stays unfit (R564). -/
def pairDecision (m : Mach) : Mach :=
  if m.sys.phase ≠ 7 ∨ m.sys.romMode ∨ m.pr.fit ∨ m.pwr.reseed ∨ m.sys.btUsed = 0 then m
  else match partnerRole m with
    | some r =>
      if 8 ≤ r then askWhole { m with pwr := { m.pwr with reseed := true }, pr := { m.pr with st := 2 } }
      else if compatible m then takeOwn 0 m else m
    | none =>
      if m.pr.pathA.silent ∧ m.pr.pathB.silent then
        (if m.pr.pathPin.silent then takeOwn 1 m else if m.pr.pathPin.ever then takeOwn 2 m else m)
      else m

/-! ### Drills (R483) -/

/-- DRILL_TIMER: every DRILL hours in DEN. -/
def drillTimer (m : Mach) : Mach :=
  if m.pwr.st = 2 ∧ m.pr.cfg.drill ≠ 0 ∧ m.pr.drillTick + m.pr.cfg.drill * 3600 * 1000 * msT ≤ m.now ∧ canDrill m then wakeEvent 3 m
  else m

/-- DRILL_COMPLETE: the blocks are restored, the result reported, and the module returns to Den. -/
def drillComplete (blocks : Nat) (m : Mach) : Mach :=
  if !m.pr.drilling then m
  else
    let blocks := blocks % 2 ^ 24
    let m := match m.pr.img with
      | some i => restore i m
      | none => m
    let m := if blocks = 0 then m else raise m 0xDE0 0x97 2
    beginEntry (endDrill m (if blocks = 0 then 1 else 2) blocks)

/-! ### Registers and commands (R509, R510, R512) -/

def pwrStat (m : Mach) : Nat :=
  m.pwr.st % 8 * 2 ^ 29 + b2n m.pwr.lowPower * 2 ^ 28 + m.pwr.phase % 16 * 2 ^ 24 + m.pwr.cause % 16 * 2 ^ 20 + b2n m.pwr.reseed * 2 ^ 19
    + b2n m.pwr.limchk * 2 ^ 18 + b2n m.pwr.wakeFail * 2 ^ 17
def pwrAon (m : Mach) : Nat := denCost m % 2 ^ 16 * 2 ^ 16 + m.pwr.measured % 2 ^ 16

def askPwrStatus (m : Mach) : QRes := .answer m sOk [.w (pwrStat m), .w (pwrAon m), .w m.pwr.rbFail]

/-- PWR_DEN (R510, R524): DONE as P1 begins. -/
def askPwrDen (m : Mach) : QRes :=
  if grave m then .refuse sFaulted {}
  else if claiming m ∨ m.pr.chg.isSome then .conflict 18 0
  else
    let m := dropDrill m
    if canEnter m then .both (beginEntry m) sDone [] else .conflict 18 0

/-- PWR_WAKE_PARTNER (R510). -/
def askPwrWakePartner (n hseq : Nat) (m : Mach) : QRes :=
  if !claiming m ∨ !xlUp m ∨ !partnerHere m ∨ (m.pr.beat.map (·.st)).getD 5 ≠ 0 then .conflict 18 0
  else .accept (xlSend { m with pwr := { m.pwr with wakePartner := m.pwr.wakePartner ++ [(n, hseq)] } } (.wake false 0 0))

/-- CHANGEOVER_READY (R480). -/
def execChangeoverReady := run changeReady
/-- CHANGEOVER_QUIESCE (R480). -/
def execChangeoverQuiesce := run changeQuiesce
/-- CHANGEOVER_SWAP (R480). -/
def execChangeoverSwap := run changeSwap
/-- CHANGEOVER_ABANDON (R480). -/
def execChangeoverAbandon := run changeAbandon
/-- CHANGEOVER_DEN_ENTRY (R480). -/
def execChangeoverDenEntry := run changeDen
/-- WAKE_EVENT (R502). -/
def execWakeEvent (cause : Nat) := runIf (wakeCause cause) fun m => settleRole (wakeEvent cause m)
/-- DEN_PHASE_END (R498). -/
def execDenPhaseEnd := run denPhaseEnd
/-- WAKE_STEP_READY (R503). -/
def execWakeStepReady (bad : Nat) := run (stepReady bad)
/-- WAKE_STEP_TIMEOUT (R504). -/
def execWakeStepTimeout := run stepTimeout
/-- SHADOWHOLD_EXPIRY (R506). -/
def execShadowholdExpiry := run holdExpiry
/-- BROWN_OUT (R507). -/
def execBrownOut := run brownOut
/-- SUPPLY_OUT_OF_RANGE (R493). -/
def execSupplyOutOfRange (rail mv : Nat) := runIf (decide (1 ≤ rail) && decide (rail ≤ 7)) (supplyLow rail mv)
/-- RESEED_COMPLETE (R508). -/
def execReseedComplete := run reseeded
/-- PAIR_DECISION (R565). -/
def execPairDecision := run pairDecision
/-- DRILL_TIMER (R483). -/
def execDrillTimer := run drillTimer
/-- DRILL_COMPLETE (R483). -/
def execDrillComplete (failing : Nat) := run (drillComplete failing)

end Sys2Proof.Machine
end

