-- ==== Sys2Proof/Machine/Engine.lean ====
section
/-! DEFINITION. How a command is taken: doorbells, the order of the rings, the first checks, the journal, the answers
(R399 to R412, R420, R424). -/
namespace Sys2Proof.Machine

/-! ### What a command is (R66, R407, R410, R420) -/

/-- A command that only reads: it is answered whatever faults stand (R524). -/
def Cmd.query : Cmd → Bool
  | .routeQuery .. | .srcStatus .. | .planeStatus .. | .pendingQuery .. | .identity | .laneStatus .. | .ethStatus .. | .flowStatus ..
  | .flowCapacity .. | .cmpStatus .. | .audStatus .. | .aptStatus .. | .tmgStatus .. | .dtStatus | .memStatus .. | .pairStatus ..
  | .pwrStatus | .updStatus | .calRead .. => true
  | .audMeter _ _ op _ => op == 2
  | _ => false

/-- A field that needs an expert grant, or an expert command (R66, R410). -/
def needsExpert (n : Nat) : Cmd → Bool
  | .sessionClose t => t != 255 && t != n
  | .pwrCfg _ flags => bit flags 0
  | .dtStep _ _ flags => bit flags 0
  | c => c.level

/-- Fault sources of the block that a command concerns, as ranges (R410, R516). The families whose chapters list every
refusal of theirs (session, pair, power, fault and snapshot, update) name no block (Assumption 35). -/
def concerned (m : Mach) : Cmd → List (Nat × Nat)
  | .take .. | .salvo .. | .protect .. | .forceRelease .. | .bankLoad .. | .bankSwap .. | .destBind .. | .destAudio .. | .planeCfg ..
  | .planeSwitch .. => [(0xE10, 0xE10)]
  | .srcMode s .. | .srcWarm s .. | .srcWindow s .. | .audGroup s .. => [(s % 0x960, s % 0x960)]
  | .srcGroup size a b c d => ([a, b, c, d].take size).map fun s => (s % 0x960, s % 0x960)
  | .genCfg g .. => [(2336 + g % 64, 2336 + g % 64)]
  | .svcSend l .. => [(0xA80 + l % 144, 0xA80 + l % 144)]
  | .eyeScan l .. | .laneLoop l .. | .lanePrbs l .. | .laneEqSet l .. => [(0xB10 + l % 224, 0xB10 + l % 224)]
  | .ethPortSplit p _ => [(0xBF0 + p % 16 * 4, 0xBF3 + p % 16 * 4)]
  | .ethMacCfg k .. | .wakePattern _ _ k .. => [(0xBF0 + k % 64, 0xBF0 + k % 64)]
  | .flowDefine x .. | .flowPort x .. | .flowOffset x .. => let k := (ctx m x).d.mac % 64; [(0xC30 + k, 0xC30 + k)]
  | .flowIf k _ => [(0xC30 + k % 64, 0xC30 + k % 64)]
  | .cmpBind k .. | .cmpLayout k .. | .cmpGuard k .. | .cmpFreeze k .. | .cmpCoef k .. => [(2304 + k % 32, 2304 + k % 32)]
  | .audBankLoad x .. => [(0xC70 + x % 16, 0xC70 + x % 16)]
  | .audBankSwap mk => (members 16 mk).map fun x => (0xC70 + x, 0xC70 + x)
  | .audRate _ => [(0xC70, 0xC7F)]
  | .aptCfg n .. | .aptRing n _ => [(0xC80 + n % 32, 0xC80 + n % 32)]
  | .tmgRefCfg c .. => [(0xCA0 + c % 14, 0xCA0 + c % 14)]
  | .tmgSelCfg .. | .tmgLoopCfg .. => [(0xCAE, 0xCAE)]
  | .tmgApllCfg a .. => [(0xCB0 + a % 8, 0xCB0 + a % 8)]
  | .tmgClkoutCfg k .. | .tmgWclkCfg k .. => [(0xCB8 + k % 12, 0xCB8 + k % 12)]
  | .dtStep .. | .dtCfg .. | .dtPinCfg .. | .ptpCfg .. | .ptpServoCfg .. => [(0xCAF, 0xCAF)]
  | .ptpPortCfg k .. => [(0xCC4 + k % 16, 0xCC4 + k % 16)]
  | .memPortCfg p _ => [(0xD00 + p % 83, 0xD00 + p % 83)]
  | .memFreeze n .. => [(0xD60 + n / 32 % 4, 0xD60 + n / 32 % 4)]
  | _ => []

/-- A module at ROLE below 8 takes the command (R420): change sets, device-time steps, control messages and bank loads are
for the claimant. -/
def lowRole : Cmd → Bool
  | .dtStep .. | .bankLoad .. | .audBankLoad .. => false
  | .svcSend _ cls .. => cls == 0
  | c => !c.isChange

/-- The salvo-area data that a change set names: offset and length (R406). -/
def dataRegion : Cmd → Option (Nat × Nat)
  | .salvo count _ off _ => some (off, 8 * count)
  | .flowDefine _ op off => if op ≤ 1 then some (off, 128) else none
  | .flowIf _ off => some (off, 64)
  | .cmpLayout _ count off => some (off, 32 * count)
  | .cmpGuard _ count off => some (off, 32 * count)
  | .cmpCoef _ _ off => some (off, 1792)
  | .audMix count _ _ off => some (off, 16 * count)
  | .tmgClassMap off => some (off, 256)
  | _ => none

/-- The data and result regions that a command names in the salvo area: offset and length. FLT_LIST counts with its first
record (R406). -/
def regions (c : Cmd) : List (Nat × Nat) :=
  match c with
  | .routeQuery _ _ count off => [(off, 16 * count)]
  | .bankLoad _ act count off => if act ≤ 1 then [(off, 8 * count)] else []
  | .svcSend _ _ len off roff rmax _ => [(off, len), (roff, rmax)]
  | .eyeScan _ _ _ sp sv _ off => [(off, 64 + 4 * (64 / sp * (128 / sv)))]
  | .cmpStatus _ off => [(off, 64)]
  | .audMeter _ count op off => if op = 2 then [(off, 8 * count)] else []
  | .audBankLoad _ act count off => if act ≤ 1 then [(off, 16 * count)] else []
  | .memFreeze _ op off => if op = 1 then [(off, 16384)] else []
  | .pendingQuery _ n off => [(off, 24 * n)]
  | .pairStatus _ off => [(off, 64)]
  | .fltList _ off => [(off, 32)]
  | .snpList off => [(off, 1024)]
  | .snpRead _ _ len off => [(off, len)]
  | .calRead k off => [(off, (calSpan k).2)]
  | .calWrite k off => [(off, (calSpan k).2)]
  | c => (dataRegion c).toList

/-- No region that the command names extends past the salvo area (R406). -/
def regionOk (c : Cmd) : Bool := (regions c).all fun r => inSalvo r.1 r.2

/-- The data copied into the journal: what the command names in the salvo area, or the entries of the loads that it swaps in. -/
def copied (m : Mach) (n : Nat) (c : Cmd) : List Byte :=
  match c, dataRegion c with
  | .bankSwap p, _ => (m.xb.loads.filter fun l => l.plane == p).flatMap loadBytes
  | .audBankSwap mask_, _ => (m.aud.loads.filter fun l => bit mask_ l.cluster).flatMap mixBytes
  | _, some (off, len) => salvo m n off len
  | _, none => []

/-! ### Commands that are not journalled -/

/-- SNP_READ's window into a snapshot image (R528, R531); defined with the register map. -/
abbrev SnapReader := Mach → Nat → Nat → Nat → List Byte

/-- SNP_READ (R531). -/
def askSnpRead (rd : SnapReader) (n k ioff len off : Nat) (m : Mach) : QRes :=
  let s := lget {} m.snp.slots k
  if 15 < k ∨ s.st ≠ 2 ∨ ioff % 4 ≠ 0 ∨ len < 4 ∨ 65536 < len ∨ len % 4 ≠ 0 ∨ 0x800000 < ioff + len then .arg
  else .answer (putSalvo m n off (rd m k ioff len)) sDone []

/-- What a command that is not journalled does and answers. -/
def askCmd (rd : SnapReader) (n port hseq : Nat) : Cmd → Mach → QRes
  | .routeQuery ep first count off, m => askRouteQuery n ep first count off m
  | .bankLoad p act count off, m => askBankLoad n p act count off m
  | .srcStatus s, m => askSrcStatus s m
  | .svcSend l cls len off roff rmax t, m => askSvcSend n hseq l cls len off roff rmax t m
  | .planeStatus p, m => askPlaneStatus p m
  | .sessionAttach key, m => askSessionAttach n port key m
  | .pendingQuery all mx off, m => askPendingQuery n all mx off m
  | .identity, m => askIdentity m
  | .fltList cls off, m => askFltList n cls off m
  | .fltClear src kind, m => askFltClear src kind m
  | .snpTrigger, m => askSnpTrigger m
  | .snpList off, m => askSnpList n off m
  | .snpRead k io len off, m => askSnpRead rd n k io len off m
  | .snpHold k h, m => askSnpHold k h m
  | .fltInject msg, m => askFltInject msg m
  | .laneStatus l, m => askLaneStatus l m
  | .eyeScan l e k sp sv thr off, m => askEyeScan n hseq l e k sp sv thr off m
  | .laneLoop l mode flags, m => askLaneLoop n l mode flags m
  | .lanePrbs l p on rate, m => askLanePrbs l p on rate m
  | .laneEqSet l s f v, m => askLaneEqSet l s f v m
  | .ethStatus k, m => askEthStatus k m
  | .flowStatus x, m => askFlowStatus x m
  | .flowCapacity k, m => askFlowCapacity k m
  | .cmpStatus k off, m => askCmpStatus n k off m
  | .audMeter first count _ off, m => askAudMeter n first count off m
  | .audStatus kind i, m => askAudStatus kind i m
  | .audBankLoad x act count off, m => askAudBankLoad n x act count off m
  | .aptStatus p, m => askAptStatus p m
  | .tmgStatus c, m => askTmgStatus c m
  | .dtStatus, m => askDtStatus m
  | .memStatus k, m => askMemStatus k m
  | .memRearm k, m => askMemRearm k m
  | .memFreeze k op off, m => askMemFreeze n k op off m
  | .memCalSave mk, m => askMemCalSave n hseq mk m
  | .pairStatus w off, m => askPairStatus n w off m
  | .pairDrill, m => askPairDrill n hseq m
  | .pairForce op, m => askPairForce op m
  | .pwrStatus, m => askPwrStatus m
  | .pwrDen, m => askPwrDen m
  | .pwrWakePartner, m => askPwrWakePartner n hseq m
  | .updStatus, m => askUpdStatus m
  | .updActivate s, m => askUpdActivate s m
  | .updConfirm, m => askUpdConfirm m
  | .updRestart, m => if restartBarred m then .conflict 18 0 else .answer m sDone []
  | .updFuse, m => askUpdFuse m
  | .calRead s off, m => askCalRead n s off m
  | .calWrite s off, m => askCalWrite n hseq s off m
  | _, _ => .arg

/-- Response entries a command reserves (R401): three, and its continuation entries. -/
def roomFor (rd : SnapReader) (r : Rung) (m : Mach) : Nat :=
  match r.cmd with
  | some c => match askCmd rd r.ses r.port r.hseq c m with
    | .answer _ _ items => 2 + max 1 (((layout items).length + 47) / 48)
    | _ => 3
  | none => 3

/-! ### Taking an entry (R400, R410, R411, R417) -/

/-- The first refusal that applies (R406, R410, R420, R524). -/
def firstCheck (m : Mach) (r : Rung) : Option (Nat × Ref) :=
  let x := ses m r.ses
  match r.cmd with
  | none => some (sArg, {})
  | some c =>
    let stOk := match c with
      | .sessionOpen .. => x.st == .opening
      | .sessionAttach .. => x.st == .opn || x.st == .detached
      | _ => x.st == .opn
    if c.hare ≠ r.hare ∨ !regionOk c then some (sArg, {})
    else if !stOk then some (sConflict, { okind := 1, oid := r.ses })
    else if needsExpert r.ses c ∧ !expert x then some (sNotExpert, {})
    else if r.hare ∧ x.hare ≤ x.usedHare then some (sBudget, {})
    else if (grave m ∧ c.isChange) ∨ (!c.query ∧ (concerned m c).any fun b => blocked m b.1 b.2) then some (sFaulted, {})
    else if !claiming m ∧ !lowRole c then some (sConflict, { okind := 18 })
    else none

/-- The entry waits in its ring: a restart or a changeover holds every ring, its budget is spent, or there is no room for its
responses or in the journal (R401, R413, R423, R424, R480). -/
def waitsBudget (m : Mach) (r : Rung) : Bool :=
  let x := ses m r.ses
  !r.hare && (decide (x.cmds ≤ x.usedCmds) || decide (x.cpus ≤ x.usedCpu))
def waitsRoom (rd : SnapReader) (m : Mach) (r : Rung) : Bool :=
  decide (256 < ringLen (win m r.ses).respTail (win m r.ses).respHead + (ses m r.ses).reserved + roomFor rd r m)
def waitsJournal (m : Mach) (r : Rung) : Bool :=
  (firstCheck m r).isNone && r.cmd.any fun c => c.journalled && (c.isChange || !c.query) &&
    (!c.isChange || !(ses m r.ses).cache.any fun k => k.hseq == r.hseq) &&
    !journalRoom m (copied m r.ses c).length

/-- The ring's head passes the entry. -/
def passHead (m : Mach) (r : Rung) : Mach :=
  setWin m r.ses fun w => if r.hare then { w with hareHead := ringNext w.hareHead } else { w with cmdHead := ringNext w.cmdHead }

/-- A change set whose HSEQ is in the cache (R403): the cached final response again, or ACCEPTED while the original is open. One
that a claimant has taken over then posts here again. -/
def duplicate (r : Rung) (room : Nat) (k : CacheEntry) (m : Mach) : Mach :=
  let m := setCnt m r.ses fun c => { c with dup := sat c.dup 1 }
  let post (rs : List Resp) (m : Mach) : Mach := unreserve (putResps m r.ses r.hare rs) r.ses (room - rs.length)
  if !k.final.isEmpty then post (k.final.map fun x => { x with flags := x.flags ||| 1 }) m
  else
    let op := (r.cmd.map Cmd.opcode).getD r.opcode
    let acc := mkResps op sAccepted 1 r.hseq k.jseq []
    match m.ctl.journal.find? fun e => e.of == k.jseq && e.st == 0 with
    | some e =>
      if e.deaf then
        setEntry (putResps m r.ses r.hare acc) e.jseq fun e => { e with deaf := false, room := room - 1, hare := r.hare }
      else post acc m
    | none => post acc m

/-- A journalled command (R400, R411): a DT_STEP asks for its change as it is journalled (R353). -/
def takeJournalled (r : Rung) (c : Cmd) (room : Nat) (m : Mach) : Mach :=
  let j := m.ctl.jnext
  let put (m : Mach) : Mach := journalPut m 0 r.ses r.port r.hseq c (copied m r.ses c) r.hare room
  match c with
  | .dtStep sec ns flags => requestStep (put m) sec ns flags (r.ses, r.hseq) j
  | _ => cacheOpen (put m) r.ses r.hseq j

/-- A command that is not journalled is carried out and answered. -/
def takeAsked (rd : SnapReader) (r : Rung) (c : Cmd) (room : Nat) (m : Mach) : Mach :=
  let post (m : Mach) (st : Nat) (bs : List Byte) (room : Nat) : Mach := postFinal m r.ses c.opcode r.hseq st bs room
  let accept (m : Mach) (items : List Item) : Mach :=
    let m := setWin m r.ses fun w =>
      { w with unfinished := w.unfinished ++ [((w.cmdHead + 65535) % 65536, c.opcode, r.hseq)] }
    unreserve (putResps m r.ses r.hare (mkResps c.opcode sAccepted 0 r.hseq 0 (layout items))) r.ses (room - 2)
  match (if regionAligned c then askCmd rd r.ses r.port r.hseq c m else .arg) with
  | .refuse st ref => post m st ref.bytes room
  | .answer m st items =>
    let m := post m st (layout items) room
    if c = .updRestart then restart m else m
  | .accept m items => accept m items
  | .both m st items first => post (accept m first) st (layout items) 1

/-- Take one entry. -/
def takeOne (rd : SnapReader) (r : Rung) (m : Mach) : Mach :=
  let room := roomFor rd r m
  let check := firstCheck m r
  let m := setCnt (startLease m r.ses) r.ses fun c => { c with cmds := sat c.cmds 1 }
  let m := setSes m r.ses fun x =>
    { x with reserved := x.reserved + room, usedCmds := x.usedCmds + b2n (!r.hare),
             usedHare := x.usedHare + b2n (r.hare && decide (x.usedHare < x.hare)),
             usedCpu := if r.hare then x.usedCpu else x.usedCpu + Config.commandTime r.ses r.hseq m.now }
  let m := passHead m r
  match check, r.cmd with
  | some (st, ref), _ =>
    let m := if st = sBudget then setCnt m r.ses fun c => { c with hareRef := sat c.hareRef 1 } else m
    postFinal m r.ses r.opcode r.hseq st ref.bytes room r.hare
  | none, none => m
  | none, some c =>
    if c.journalled ∧ (c.isChange ∨ !c.query) then
      match (if c.isChange then (ses m r.ses).cache.find? fun k => k.hseq == r.hseq else none) with
      | some k => duplicate r room k m
      | none => takeJournalled r c room m
    else takeAsked rd r c room m

/-- The entry that is taken next (R409): Hare entries ahead of command-ring entries, each kind in the order of doorbells; `stuck`
are the rings whose first entry waits. -/
def nextRung (m : Mach) (stuck : List (Nat × Bool)) : Option Rung :=
  let free := m.ctl.rung.filter fun r => !stuck.contains (r.ses, r.hare)
  match free.find? (·.hare) with
  | some r => some r
  | none => free.head?

/-- An entry has found no journal room (R423). -/
def markWait (m : Mach) (r : Rung) : Mach :=
  { m with ctl := { m.ctl with rung := m.ctl.rung.map fun x => if x = r then { x with jwait := some (x.jwait.getD m.now) } else x } }

/-- Take entries until every ring is empty or waits. -/
def takeAll (rd : SnapReader) : Nat → List (Nat × Bool) → Mach → Mach
  | 0, _, m => m
  | k + 1, stuck, m =>
    match nextRung m stuck with
    | none => m
    | some r =>
      if waitsBudget m r then takeAll rd k ((r.ses, r.hare) :: stuck) (setSes m r.ses fun x => { x with heldTick := true })
      else if waitsRoom rd m r then takeAll rd k ((r.ses, r.hare) :: stuck) m
      else if waitsJournal m r then takeAll rd k ((r.ses, r.hare) :: stuck) (markWait m r)
      else takeAll rd k stuck (takeOne rd r { m with ctl := { m.ctl with rung := m.ctl.rung.erase r } })

/-- The rings are served (R409, R424, R480). *Journal full* ends once no entry waits for the journal (R423). -/
def engine (rd : SnapReader) (m : Mach) : Mach :=
  if m.ctl.restarting ∨ m.ctl.quiesced then m
  else
    let m := takeAll rd (2 * m.ctl.rung.length + 1) [] m
    if m.ctl.jfull ∧ !m.ctl.rung.any (waitsJournal m) then
      endCond { m with ctl := { m.ctl with jfull := false } } 0xDC0 0x83
    else m

/-! ### Doorbells and index writes (R398 to R401, R417) -/

/-- A write from the port is discarded: the session is attached to the other one (R401). -/
def foreign (m : Mach) (port n : Nat) : Bool := ((ses m n).st == .opn || (ses m n).st == .opening) && (ses m n).port != port

/-- Count a discarded write. -/
def discardWrite (m : Mach) (n : Nat) : Mach := setCnt m n fun c => { c with foreign := sat c.foreign 1 }

/-- An index write that is ignored (R399). -/
def badIndex (m : Mach) (n : Nat) : Mach := raise (setCnt m n fun c => { c with idxErr := sat c.idxErr 1 }) (0xD80 + n) 0x80 1

/-- Byte offset and size of the command ring or the Hare ring (R397). -/
def ringBase (hare : Bool) : Nat := if hare then 0x1C000 else 0x10000
def ringSize (hare : Bool) : Nat := if hare then 32 else 256

/-- The entry in a slot, as it is read when rung. -/
def readEntry (m : Mach) (port n : Nat) (hare : Bool) (i : Nat) : Rung :=
  let e := mbytes (win m n).ram (ringBase hare + i % ringSize hare * 64) 64
  { ses := n, port, hare, opcode := fld e 0 2, hseq := fld e 4 4, cmd := parseEntry e }

/-- A write of MBX_CMD_TAIL or MBX_HARE_TAIL: the doorbell of the entries it covers (R399). -/
def doorbell (hare : Bool) (port n tail : Nat) (m : Mach) : Mach :=
  if foreign m port n then discardWrite m n
  else if (ses m n).st = .free then m
  else
    let w := win m n
    let (old, head) := if hare then (w.hareTail, w.hareHead) else (w.cmdTail, w.headReg)
    let tail := tail % 65536
    let was := ringLen old head
    let len := ringLen tail head
    if ringSize hare < len ∨ len < was then badIndex m n
    else
      let new := (List.range (len - was)).map fun i => readEntry m port n hare (old + i)
      let m := setWin m n fun w => if hare then { w with hareTail := tail } else { w with cmdTail := tail }
      { m with ctl := { m.ctl with rung := m.ctl.rung ++ new } }

/-- A write of MBX_RESP_HEAD or MBX_EVT_HEAD (R399, R417, R427). -/
def headWrite (evt : Bool) (port n head : Nat) (m : Mach) : Mach :=
  if foreign m port n then discardWrite m n
  else if (ses m n).st = .free then m
  else
    let m := startLease m n
    let w := win m n
    let (tail, old) := if evt then (w.evtTail, w.evtHead) else (w.respTail, w.respHead)
    let head := head % 65536
    if ringLen tail old < ringLen tail head then badIndex m n
    else if evt then postLost (setWin m n fun w => { w with evtHead := head }) n
    else setWin m n fun w => { w with respHead := head }

/-- A host command: its entry is written in the slot at the tail of its ring, and the doorbell is rung (R399, R402). -/
def hostEntry (h : Hdr) (c : Cmd) (m : Mach) : Mach :=
  if foreign m h.port h.ses then discardWrite (discardWrite m h.ses) h.ses
  else if (ses m h.ses).st = .free then m
  else
    let w := win m h.ses
    let tail := if c.hare then w.hareTail else w.cmdTail
    let slot := ringBase c.hare + tail % ringSize c.hare * 64
    doorbell c.hare h.port h.ses (ringNext tail) (setWin m h.ses fun w => { w with ram := mput w.ram slot (c.entry h.hseq) })

/-! ### Watchdogs and the journal (R423, R424) -/

/-- WATCHDOG_EXPIRY: Owl restarts the firmware. -/
def watchdog (p : Nat) (m : Mach) : Mach := raise { m with ctl := { m.ctl with restarting := true } } 0xDC0 0x82 2 p

/-- FIRMWARE_RESTART_COMPLETE: every open entry is committed once, in JSEQ order, REPLAYED; entries whose condition has not
come wait on. -/
def restartDone (m : Mach) : Mach :=
  if !m.ctl.restarting then m
  else
    let es := m.ctl.journal.map fun e => if e.st = 0 then { e with replay := true } else e
    let m := { m with ctl := { m.ctl with restarting := false, journal := es } }
    (es.filter committable).foldl (fun m _ => commitNext m) m

/-- An entry of the session has waited over 10 ms for journal room (R423). -/
def waitedLong (m : Mach) (n : Nat) : Bool :=
  m.ctl.rung.any fun r => r.ses == n && r.jwait.any (fun t => decide (t + 10 * msT < m.now)) && waitsJournal m r

/-- JOURNAL_FULL (R423): an entry of the session has waited over 10 ms for journal room. -/
def journalFull (n : Nat) (m : Mach) : Mach :=
  if waitedLong m n ∧ !m.ctl.jfull then
    raise { m with ctl := { m.ctl with jfull := true } } 0xDC0 0x83 1
  else m

end Sys2Proof.Machine
end

