-- ==== Sys2Proof/Machine/Registers.lean ====
section
/-! DEFINITION. The register map: what every register of every block reads as, which registers clear when read, and which
latch a partner half (R4, R5, R69 to R75, R105 to R109 and the register rules of each chapter, R449, R450). -/
namespace Sys2Proof.Machine

/-- One register as a read finds it: its value; what clearing it does, where its field is RC; the partners that a read of it
latches, as offsets from its own address; whether it is itself such a partner, with its reset value. -/
structure RegAt where
  val : Nat := 0
  rc : Option (Mach → Mach) := none
  latches : List Nat := []
  half : Bool := false
  resetHalf : Nat := 0

def ro (v : Nat) : RegAt := { val := v }
def ctr (v : Nat) (f : Mach → Mach) : RegAt := { val := v, rc := some f }
def lowHalf (v : Nat) : RegAt := { val := v % 2 ^ 32, latches := [4] }
def topHalf (v : Nat) : RegAt := { val := v, half := true }

/-- A block's identity word: BLOCK, MAJOR 1, MINOR 0. -/
def blockId (b : Nat) : RegAt := ro (b * 2 ^ 16 + 0x100)

/-- The member and the offset within its set, in an array of register sets. -/
def inSets (o base stride count : Nat) : Option (Nat × Nat) :=
  if base ≤ o ∧ o < base + stride * count then some ((o - base) / stride, (o - base) % stride) else none

/-- A signed value as a 32-bit field. -/
def s32 (i : Int) : Nat := toBits 32 (satS 32 i)

/-! ### Counters -/

/-- Counters of an input stage (R108). -/
def srcCtr (m : Mach) (s : Nat) (o : Nat) : RegAt :=
  let c : SrcCnt := tget {} m.is_.cnts s
  let z (v : Nat) (f : SrcCnt → SrcCnt) : RegAt := ctr v fun m => setSrcCnt m s f
  match o with
  | 0x10 => z c.wrSkip fun c => { c with wrSkip := 0 }
  | 0x14 => z c.concLink fun c => { c with concLink := 0 }
  | 0x18 => z c.concPoison fun c => { c with concPoison := 0 }
  | 0x1C => z c.lateLine fun c => { c with lateLine := 0 }
  | 0x20 => z c.ancDrop fun c => { c with ancDrop := 0 }
  | 0x24 => z c.reclass fun c => { c with reclass := 0 }
  | 0x28 => z c.loss fun c => { c with loss := 0 }
  | _ => {}

/-- Counters of a WL lane (R146). -/
def wlCtr (m : Mach) (l : Nat) (o : Nat) : RegAt :=
  let c : WlCnt := tget {} m.wl.cnts l
  let z (v : Nat) (f : WlCnt → WlCnt) : RegAt := ctr v fun m => { m with wl := { m.wl with cnts := tmod {} m.wl.cnts l f } }
  match o with
  | 0x20 => z c.cwCorr fun c => { c with cwCorr := 0 }
  | 0x24 => z c.cwUncorr fun c => { c with cwUncorr := 0 }
  | 0x28 => z c.chkFail fun c => { c with chkFail := 0 }
  | 0x2C => z c.nackTx fun c => { c with nackTx := 0 }
  | 0x30 => z c.nackRx fun c => { c with nackRx := 0 }
  | 0x34 => z c.resendTx fun c => { c with resendTx := 0 }
  | 0x38 => z c.resendOk fun c => { c with resendOk := 0 }
  | 0x3C => z c.blkErr fun c => { c with blkErr := 0 }
  | 0x40 => z c.resendSkip fun c => { c with resendSkip := 0 }
  | 0x44 => z c.nackStale fun c => { c with nackStale := 0 }
  | 0x48 => z c.alignLoss fun c => { c with alignLoss := 0 }
  | 0x4C => z c.svcDrop fun c => { c with svcDrop := 0 }
  | 0x50 => z c.refDrop fun c => { c with refDrop := 0 }
  | 0x54 => z c.badType fun c => { c with badType := 0 }
  | _ => {}

/-- Counters of a serial lane (R169). -/
def lnCtr (m : Mach) (k : Nat) (o : Nat) : RegAt :=
  let c : Lane := lane m k
  let z (v : Nat) (f : Lane → Lane) : RegAt := ctr v fun m => setLane m k f
  match o with
  | 0x20 => z c.lockLoss fun c => { c with lockLoss := 0 }
  | 0x24 => z c.prbsErr fun c => { c with prbsErr := 0 }
  | 0x28 => z c.prbsBits fun c => { c with prbsBits := 0 }
  | 0x2C => z c.eyeDone fun c => { c with eyeDone := 0 }
  | _ => {}

/-- Counters of a flow context (R221). -/
def ctxCtr (m : Mach) (x : Nat) (o : Nat) : RegAt :=
  let c : CtxCnt := tget {} m.flw.cnts x
  let z (v : Nat) (f : CtxCnt → CtxCnt) : RegAt := ctr v fun m => { m with flw := { m.flw with cnts := tmod {} m.flw.cnts x f } }
  match o with
  | 0x20 => z c.pkts fun c => { c with pkts := 0 }
  | 0x24 => z c.discard fun c => { c with discard := 0 }
  | 0x28 => z c.late fun c => { c with late := 0 }
  | 0x2C => z c.lost fun c => { c with lost := 0 }
  | 0x30 => z c.dup fun c => { c with dup := 0 }
  | 0x34 => z c.pathLate fun c => { c with pathLate := 0 }
  | 0x38 => z c.pathMiss fun c => { c with pathMiss := 0 }
  | 0x3C => z c.rebase fun c => { c with rebase := 0 }
  | 0x40 => z c.ins fun c => { c with ins := 0 }
  | 0x44 => z c.drop fun c => { c with drop := 0 }
  | _ => {}

/-- Counters of a compositor (R248). -/
def cmpCtr (m : Mach) (k : Nat) (o : Nat) : RegAt :=
  let c : CmpCnt := tget {} m.cmp.cnts k
  let z (v : Nat) (f : CmpCnt → CmpCnt) : RegAt := ctr v fun m => setCmpCnt m k f
  match o with
  | 0x80 => z c.lateLine fun c => { c with lateLine := 0 }
  | 0x84 => z c.poison fun c => { c with poison := 0 }
  | 0x88 => z c.winRepeat fun c => { c with winRepeat := 0 }
  | 0x8C => z c.winDrop fun c => { c with winDrop := 0 }
  | 0x90 => z c.guardFail fun c => { c with guardFail := 0 }
  | 0x94 => z c.coldWin fun c => { c with coldWin := 0 }
  | _ => {}

/-- Counters of the audio domain (R284). -/
def audCtr (m : Mach) (o : Nat) : RegAt :=
  let c : AudCnt := m.audCnt
  let z (v : Nat) (f : AudCnt → AudCnt) : RegAt := ctr v fun m => { m with audCnt := f m.audCnt }
  match o with
  | 0x40 => z c.clip fun c => { c with clip := 0 }
  | 0x44 => z c.late fun c => { c with late := 0 }
  | 0x48 => z c.gap fun c => { c with gap := 0 }
  | 0x4C => z c.poison fun c => { c with poison := 0 }
  | 0x50 => z c.slipIns fun c => { c with slipIns := 0 }
  | 0x54 => z c.slipDrop fun c => { c with slipDrop := 0 }
  | _ => {}

/-- Counters of an audio port (R306). -/
def aptCtr (m : Mach) (n : Nat) (o : Nat) : RegAt :=
  let c : AptCnt := tget {} m.apt.cnts n
  let z (v : Nat) (f : AptCnt → AptCnt) : RegAt := ctr v fun m => { m with apt := { m.apt with cnts := tmod {} m.apt.cnts n f } }
  match o with
  | 0x40 => z c.glitch fun c => { c with glitch := 0 }
  | 0x44 => z c.inIns fun c => { c with inIns := 0 }
  | 0x48 => z c.inDrop fun c => { c with inDrop := 0 }
  | 0x4C => z c.outIns fun c => { c with outIns := 0 }
  | 0x50 => z c.outDrop fun c => { c with outDrop := 0 }
  | 0x54 => z c.clkLost fun c => { c with clkLost := 0 }
  | 0x58 => z c.rateEvt fun c => { c with rateEvt := 0 }
  | _ => {}

/-- Counters of a reference candidate (R346). -/
def candCtr (m : Mach) (k : Nat) (o : Nat) : RegAt :=
  let c : Cand := cand m k
  let z (v : Nat) (f : Cand → Cand) : RegAt := ctr v fun m => setCand m k f
  match o with
  | 0x20 => z c.loss fun c => { c with loss := 0 }
  | 0x24 => z c.softCnt fun c => { c with softCnt := 0 }
  | 0x28 => z c.hardCnt fun c => { c with hardCnt := 0 }
  | 0x2C => z c.slopeCnt fun c => { c with slopeCnt := 0 }
  | 0x30 => z c.qlErr fun c => { c with qlErr := 0 }
  | 0x34 => z c.selCnt fun c => { c with selCnt := 0 }
  | _ => {}

/-- Counters of a PTP port (R368). -/
def ppCtr (m : Mach) (k : Nat) (o : Nat) : RegAt :=
  let c : PtpPort := tget {} m.dt.ptp.ports k
  let z (v : Nat) (f : PtpPort → PtpPort) : RegAt := ctr v fun m => { m with dt := { m.dt with ptp := { m.dt.ptp with ports := tmod {} m.dt.ptp.ports k f } } }
  match o with
  | 0x20 => z c.rxEvt fun c => { c with rxEvt := 0 }
  | 0x24 => z c.txEvt fun c => { c with txEvt := 0 }
  | 0x28 => z c.annTo fun c => { c with annTo := 0 }
  | 0x2C => z c.bad fun c => { c with bad := 0 }
  | _ => {}

/-- Counters of a controller port (R391). -/
def memPortCtr (m : Mach) (p : Nat) (o : Nat) : RegAt :=
  let c : MemPort := memPort m p
  let z (v : Nat) (f : MemPort → MemPort) : RegAt := ctr v fun m => { m with mem := { m.mem with ports := tmod {} m.mem.ports p f } }
  match o with
  | 0x4 => z c.peak fun c => { c with peak := 0 }
  | 0x8 => z c.late fun c => { c with late := 0 }
  | 0xC => z c.held fun c => { c with held := 0 }
  | 0x10 => z c.urg3 fun c => { c with urg3 := 0 }
  | _ => {}

/-- Counters of a pseudo-channel position (R392). -/
def pcCtr (m : Mach) (n : Nat) (o : Nat) : RegAt :=
  let c : Pc := pc m n
  let z (v : Nat) (f : Pc → Pc) : RegAt := ctr v fun m => setPc m n f
  match o with
  | 0x20 => z c.ce fun c => { c with ce := 0 }
  | 0x24 => z c.ue fun c => { c with ue := 0 }
  | 0x28 => z c.parity fun c => { c with parity := 0 }
  | 0x2C => z c.scrub fun c => { c with scrub := 0 }
  | _ => {}

/-- Counters of a session (R437). -/
def sesCtr (m : Mach) (n : Nat) (o : Nat) : RegAt :=
  let c : SesCnt := tget {} m.ctl.cnts n
  let z (v : Nat) (f : SesCnt → SesCnt) : RegAt := ctr v fun m => setCnt m n f
  match o with
  | 0x20 => z c.cmds fun c => { c with cmds := 0 }
  | 0x24 => z c.held fun c => { c with held := 0 }
  | 0x28 => z c.hareRef fun c => { c with hareRef := 0 }
  | 0x2C => z c.dup fun c => { c with dup := 0 }
  | 0x30 => z c.evtLost fun c => { c with evtLost := 0 }
  | 0x34 => z c.idxErr fun c => { c with idxErr := 0 }
  | 0x38 => z c.foreign fun c => { c with foreign := 0 }
  | _ => {}

/-- Counters of the pair block (R488). -/
def pairCtr (m : Mach) (o : Nat) : RegAt :=
  let c : PairCnt := m.pr.cnt
  let z (v : Nat) (f : PairCnt → PairCnt) : RegAt := ctr v fun m => { m with pr := { m.pr with cnt := f m.pr.cnt } }
  match o with
  | 0x40 => z c.missA fun c => { c with missA := 0 }
  | 0x44 => z c.missB fun c => { c with missB := 0 }
  | 0x48 => z c.missPin fun c => { c with missPin := 0 }
  | 0x4C => z c.takeover fun c => { c with takeover := 0 }
  | 0x50 => z c.changeover fun c => { c with changeover := 0 }
  | 0x54 => z c.demote fun c => { c with demote := 0 }
  | 0x58 => z c.resendReq fun c => { c with resendReq := 0 }
  | 0x5C => z c.diverge fun c => { c with diverge := 0 }
  | 0x60 => z c.fullSync fun c => { c with fullSync := 0 }
  | _ => {}

/-- Counters of the power block (R514). -/
def pwrCtr (m : Mach) (o : Nat) : RegAt :=
  let c : Pwr := m.pwr
  let z (v : Nat) (f : Pwr → Pwr) : RegAt := ctr v fun m => { m with pwr := f m.pwr }
  match o with
  | 0x40 => z c.denEntry fun c => { c with denEntry := 0 }
  | 0x44 => z c.abort fun c => { c with abort := 0 }
  | 0x48 => z c.wake fun c => { c with wake := 0 }
  | 0x4C => z c.retry fun c => { c with retry := 0 }
  | 0x50 => z c.wakeFails fun c => { c with wakeFails := 0 }
  | 0x54 => z c.rbErr fun c => { c with rbErr := 0 }
  | 0x58 => z c.brownout fun c => { c with brownout := 0 }
  | _ => {}

/-- Counters of the fault collector (R533). -/
def fltCtr (m : Mach) (o : Nat) : RegAt :=
  let c : Flt := m.flt
  let z (v : Nat) (f : Flt → Flt) : RegAt := ctr v fun m => { m with flt := f m.flt }
  match o with
  | 0x40 => z c.raised fun c => { c with raised := 0 }
  | 0x44 => z c.suppressed fun c => { c with suppressed := 0 }
  | 0x48 => z c.escalations fun c => { c with escalations := 0 }
  | 0x4C => z c.cleared fun c => { c with cleared := 0 }
  | 0x50 => z c.tableFull fun c => { c with tableFull := 0 }
  | _ => {}

/-- Counters of the update block (R553). -/
def updCtr (m : Mach) (o : Nat) : RegAt :=
  let c : Upd := m.upd
  let z (v : Nat) (f : Upd → Upd) : RegAt := ctr v fun m => { m with upd := f m.upd }
  match o with
  | 0x40 => z c.xferOk fun c => { c with xferOk := 0 }
  | 0x44 => z c.xferFail fun c => { c with xferFail := 0 }
  | 0x48 => z c.flashErr fun c => { c with flashErr := 0 }
  | 0x4C => z c.svcBad fun c => { c with svcBad := 0 }
  | _ => {}

/-- Statistics of a MAC (R187): a read of LO latches HI and clears all 64 bits. -/
def macCtr (m : Mach) (k o : Nat) : RegAt :=
  let c : MacCnt := tget {} m.eth.cnts k
  let z (v : Nat) (f : MacCnt → MacCnt) : RegAt :=
    if o % 8 = 0 then { val := v % 2 ^ 32, rc := some fun m => setMacCnt m k f, latches := [4] } else { val := v / 2 ^ 32, half := true }
  match (o - 0x20) / 8 with
  | 0 => z c.rxFrames fun c => { c with rxFrames := 0 }
  | 1 => z c.rxBytes fun c => { c with rxBytes := 0 }
  | 2 => z c.pcsErr fun c => { c with pcsErr := 0 }
  | 3 => z c.fcsErr fun c => { c with fcsErr := 0 }
  | 4 => z c.runt fun c => { c with runt := 0 }
  | 5 => z c.oversize fun c => { c with oversize := 0 }
  | 6 => z c.ovfFrames fun c => { c with ovfFrames := 0 }
  | 7 => z c.ovfBytes fun c => { c with ovfBytes := 0 }
  | 8 => z c.filtered fun c => { c with filtered := 0 }
  | 9 => z c.pause fun c => { c with pause := 0 }
  | 10 => z c.ipErr fun c => { c with ipErr := 0 }
  | 11 => z c.udpErr fun c => { c with udpErr := 0 }
  | 12 => z c.unmatched fun c => { c with unmatched := 0 }
  | 13 => z c.txFrames fun c => { c with txFrames := 0 }
  | 14 => z c.txBytes fun c => { c with txBytes := 0 }
  | 15 => z c.txLate fun c => { c with txLate := 0 }
  | 16 => z c.fecCorr fun c => { c with fecCorr := 0 }
  | 17 => z c.fecUncorr fun c => { c with fecUncorr := 0 }
  | 18 => z c.wakeMatch fun c => { c with wakeMatch := 0 }
  | _ => {}

/-! ### The blocks -/

/-- SYS_ (R454, R570). -/
def sysReg (m : Mach) (o : Nat) : RegAt :=
  let s := m.sys
  match o with
  | 0x00 => blockId 0x5359
  | 0x20 => ro (b2n m.bus.remap)
  | 0x30 => ro (s.phase % 8 * 2 ^ 29 + b2n s.romMode * 2 ^ 28 + s.slot % 2 * 2 ^ 27 + s.rstCause % 4 * 2 ^ 25 + s.xonom % 8 * 2 ^ 22
      + s.slotId % 256)
  | 0x34 => ro (b2n (calOk s.calA) * 2 ^ 31 + b2n (calOk s.calB) * 2 ^ 30 + calNum m 6 1 % 8 * 2 ^ 27 + calNum m 7 1 % 8 * 2 ^ 24
      + b2n s.btAOk * 2 ^ 23 + b2n s.btBOk * 2 ^ 22 + b2n (s.btUsed == 2) * 2 ^ 21)
  | 0x38 => ro (s.readyMs % 2 ^ 32)
  | 0x3C => ro (calNum m 8 4)
  | _ => {}

/-- Targets that R449 and R450 name. -/
def isTarget (t : Nat) : Bool := t ≤ 8 || (16 ≤ t && t ≤ 36)

/-- The codes of one row of the reset access tables: control processors, Hare, sequencer, Owl, hosts, service, debug (R452). -/
def accRow (cp hare seq owl host svc dbg : Nat) : Nat :=
  cp * 0x55 + hare * 2 ^ 8 + seq * 2 ^ 10 + owl * 2 ^ 12 + host * 5 * 2 ^ 14 + svc * 2 ^ 18 + dbg * 2 ^ 20

/-- The reset access tables (R452). -/
def accReset (t : Nat) : Nat :=
  match t with
  | 0 => accRow 1 0 0 0 0 0 1
  | 1 => accRow 3 3 3 1 0 0 1
  | 2 => accRow 3 3 3 0 3 0 1
  | 3 => accRow 3 3 3 3 0 0 1
  | 4 => accRow 1 0 0 3 0 0 1
  | 5 | 6 | 7 => accRow 3 0 0 0 0 0 0
  | 8 => accRow 3 1 3 3 0 3 0
  | 16 | 17 => accRow 3 1 1 3 1 0 1
  | 18 | 19 | 34 | 35 => accRow 3 1 3 3 1 0 1
  | 20 => accRow 3 0 1 3 1 3 1
  | 30 | 31 | 32 => accRow 3 1 3 3 1 0 1
  | 33 => accRow 3 3 3 1 3 0 1
  | _ => if isTarget t then accRow 3 1 3 1 1 0 1 else 0

/-- The access table in force, as BUS_ACC_t holds it. -/
def acc (m : Mach) (t : Nat) : Nat := tget (accReset t) m.bus.acc t

/-- BUS_ (R455). -/
def busReg (m : Mach) (o : Nat) : RegAt :=
  let b := m.bus
  match o with
  | 0x00 => blockId 0x4255
  | 0x10 => ro (b2n b.lock)
  | 0x20 => ro (b.errAddr % 2 ^ 32)
  | 0x24 => ro (b.errAddr / 2 ^ 32 % 256)
  | 0x28 => ro (b2n b.errValid * 2 ^ 31 + b2n b.errWrite * 2 ^ 30 + b.errCase % 8 * 2 ^ 27 + b.errMaster % 16 * 2 ^ 23 + b.errTarget % 64 * 2 ^ 17)
  | 0x30 => ctr b.deny fun m => { m with bus := { m.bus with deny := 0 } }
  | 0x34 => ctr b.decode fun m => { m with bus := { m.bus with decode := 0 } }
  | 0x38 => ctr b.timeout fun m => { m with bus := { m.bus with timeout := 0 } }
  | _ => match inSets o 0x100 4 37 with
    | some (t, _) => ro (acc m t)
    | none => {}

/-- PWR_ (R512 to R514). -/
def pwrReg (m : Mach) (o : Nat) : RegAt :=
  match o with
  | 0x00 => blockId 0x5057
  | 0x10 => ro (pwrStat m)
  | 0x14 => ro (pwrAon m)
  | 0x18 => ro m.pwr.rbFail
  | 0x1C => ro (m.pwr.wakeUs % 2 ^ 32)
  | _ => match inSets o 0x100 4 10 with
    | some (r, _) => let x : Bool × Nat := tget (false, 0) m.pwr.rails r; ro (b2n x.1 * 2 ^ 31 + x.2 % 65536)
    | none => pwrCtr m o

/-- FLT_ (R533). -/
def fltReg (m : Mach) (o : Nat) : RegAt :=
  match o with
  | 0x00 => blockId 0x4654
  | 0x10 => ro (b2n (faultN m) * 2 ^ 31 + highCls m % 8 * 2 ^ 28 + m.flt.fnclass % 4 * 2 ^ 26 + m.flt.recs.length % 4096)
  | 0x14 => ro (min 255 (countCls m 3) * 2 ^ 24 + min 255 (countCls m 2) * 2 ^ 16 + countCls m 1 % 65536)
  | 0x18 => lowHalf m.flt.last.toNat
  | 0x1C => topHalf (m.flt.last.toNat / 2 ^ 32)
  | _ => fltCtr m o

/-- UPD_ (R553). -/
def updReg (m : Mach) (o : Nat) : RegAt :=
  match o with
  | 0x00 => blockId 0x5550
  | 0x10 => ro (updStat m)
  | 0x14 => ro (updSlot m 0)
  | 0x18 => ro (updSlot m 1)
  | 0x1C => ro (updSsf m)
  | _ => updCtr m o

/-- AUD_ (R283, R284). -/
def audReg (m : Mach) (o : Nat) : RegAt :=
  match o with
  | 0x00 => blockId 0x4155
  | 0x10 => ro m.aud.rate
  | 0x14 => lowHalf m.aud.block
  | 0x18 => topHalf (m.aud.block / 2 ^ 32)
  | 0x20 => ro m.aud.bankFg
  | 0x24 => ro m.aud.ready
  | 0x28 => ro (mask ((List.range 16).map fun c => m.aud.loads.any fun l => l.cluster == c))
  | 0x30 => ro (poolFree m)
  | _ => audCtr m o

/-- The entry that XB_RT_SEL selects (R74). A selection of no destination reads as an entry without a route (Assumption 19). -/
def rtSelected (m : Mach) : RtEntry :=
  let d := m.xb.rtSel % 4096
  let fg := if d < 2304 then rtEntry m (air m d) else { feed := 8191 }
  if bit m.xb.rtSel 31 then (tget? d m.xb.bg).getD fg else fg

/-- Calendar cells reserved: for a destination changing planes those of the larger class (R37, R45). -/
def cellsUsed (m : Mach) : Nat :=
  let cells (p : Nat) : Nat := classCells (fmtClass (plane m p).fmt)
  let coming (d : Nat) : List Nat := m.xb.pend.filterMap fun e => match e.eff with
    | .bind x q _ _ => if x = d then some q else none
    | _ => none
  (List.range 2304).foldl (fun a d =>
    a + ((coming d).foldl (fun c q => max c (cells q)) (max (cells (dest m d).plane) (cells (air m d).plane)))) 0

/-- XB_ (R69 to R75). -/
def xbReg (m : Mach) (o : Nat) : RegAt :=
  let x := m.xb
  match o with
  | 0x00 => blockId 0x5842
  | 0x10 => lowHalf x.epoch
  | 0x14 => topHalf (x.epoch / 2 ^ 32)
  | 0x20 => ro (mask (x.planes.map (·.bankFg)))
  | 0x24 => ro (mask (x.planes.map (·.ready)))
  | 0x28 => ro (mask ((List.range 16).map fun p => x.loads.any fun l => l.plane == p))
  | 0x30 => ro (cellsUsed m)
  | 0x34 => ro (feedPairs m x.holds).length
  | 0x38 => ro (fbHeld m x.holds)
  | 0x80 => ro x.rtSel
  | 0x84 => let e := rtSelected m; ro (b2n e.valid * 2 ^ 31 + e.plane % 16 * 2 ^ 13 + e.feed % 8192)
  | 0xA0 => ctr x.lateSeg fun m => { m with xb := { m.xb with lateSeg := 0 } }
  | 0xA4 => ctr x.coldSw fun m => { m with xb := { m.xb with coldSw := 0 } }
  | 0xA8 => ctr x.stageMax fun m => { m with xb := { m.xb with stageMax := 0 } }
  | _ => match inSets o 0x40 4 16 with
    | some (p, _) => ro (swcnt m p)
    | none => {}

/-- IS_SRC_CFG (R107). -/
def srcCfgWord (x : Src) : Nat :=
  let size := match x.group.length with
    | 2 => 1
    | 4 => 2
    | _ => 0
  x.lossHold % 256 * 2 ^ 24 + (x.group.head?.getD 4095) % 4096 * 2 ^ 12 + size * 2 ^ 10 + b2n x.warm * 4 + b2n x.sticky * 2 + x.mode % 2

/-- IS_ (R105 to R109). -/
def isReg (m : Mach) (o : Nat) : RegAt :=
  let sel := m.is_.sel
  let s := sel % 4096
  let p := sel / 2 ^ 16 % 16
  match o with
  | 0x00 => blockId 0x4953
  | 0x10 => ro (fbFree m m.xb.holds)
  | 0x20 => ro sel
  | 0x24 => ro ((pair m s p).qcount % 128 * 16 + (pair m s p).cls % 4)
  | 0x28 => ro (b2n (srcOf m s).present * 2 ^ 31 + (pair m s p).leadNs % 2 ^ 26)
  | _ => match inSets o 0x10000 0x40 2304, inSets o 0x40000 0x10 2048 with
    | some (s, r), _ => match r with
      | 0x00 => ro (srcCfgWord (srcOf m s))
      | 0x04 => ro (srcStat m s)
      | 0x08 => ro (srcFmtReg m s)
      | 0x0C => ro ((srcOf m s).frame % 2 ^ 32)
      | _ => srcCtr m s r
    | none, some (k, r) =>
      let f : Feed := tget {} m.is_.feeds k
      let z (v : Nat) (g : Feed → Feed) : RegAt := ctr v fun m => { m with is_ := { m.is_ with feeds := tmod {} m.is_.feeds k g } }
      match r with
      | 0x0 => if f.valid then ro (2 ^ 31 + f.plane % 16 * 2 ^ 16 + f.src % 4096) else {}
      | 0x4 => ro (f.last % 2 ^ 32)
      | 0x8 => z f.repeats fun f => { f with repeats := 0 }
      | 0xC => z f.drops fun f => { f with drops := 0 }
      | _ => {}
    | none, none => {}

/-- WL_ (R144 to R146). -/
def wlReg (m : Mach) (o : Nat) : RegAt :=
  if o = 0 then blockId 0x574C
  else match inSets o 0x10000 0x80 144 with
  | none => {}
  | some (l, r) =>
    let x : WlRx := tget {} m.wl.rx l
    let active := mask ((List.range 8).map fun k => x.st == 5 && (tget? k x.slots).any fun q => q.quiet < 64)
    match r with
    | 0x00 => ro (x.st % 8 * 2 ^ 29 + x.mode % 4 * 2 ^ 27 + b2n x.farUp * 2 ^ 26 + b2n x.foreign * 2 ^ 25 + b2n x.dvalid * 2 ^ 24
        + active * 2 ^ 16 + x.segOver % 256 * 2 ^ 8 + (tget {} m.wl.tx l : WlTx).disp % 4)
    | 0x04 => ro (x.delay % 2 ^ 20)
    | 0x08 => ro x.echo.toNat
    | 0x0C => ro (x.maker % 65536 * 65536 + x.ctype % 65536)
    | 0x10 => ro (x.clane % 256 * 2 ^ 16 + x.lanes % 256 * 2 ^ 8 + x.modes % 8)
    | _ => wlCtr m l r

/-- LN_ (R167 to R169). -/
def lnReg (m : Mach) (o : Nat) : RegAt :=
  if o = 0 then blockId 0x4C4E
  else match inSets o 0x10000 0x40 224 with
  | none => {}
  | some (k, r) =>
    let now := lget [] (lane m k).now (lane m k).set
    let tap (i : Nat) : Nat := (lget 0 now i).toNat
    match r with
    | 0x00 => ro (lnStat m k)
    | 0x04 => ro (lnEye m k)
    | 0x08 => ro (tap 0 * 2 ^ 24 + tap 1 * 2 ^ 16 + tap 2 * 2 ^ 8 + tap 3)
    | 0x0C => ro (tap 4)
    | _ => lnCtr m k r

/-- MACs of a port that hold a matcher; none counts in split modes 0 and 1 (R185). -/
def wakeUse (m : Mach) (p : Nat) : Nat :=
  if tget 0 m.eth.split p ≤ 1 then 0 else ((List.range 4).filter fun i => !(matchersOn m (4 * p + i)).isEmpty).length

/-- ETH_ (R185 to R187). -/
def ethReg (m : Mach) (o : Nat) : RegAt :=
  if o = 0 then blockId 0x4554
  else match inSets o 0x100 4 16, inSets o 0x10000 0x100 64 with
  | some (p, _), _ => ro (wakeUse m p * 4 + tget 0 m.eth.split p % 4)
  | none, some (k, r) => match r with
    | 0x00 => ro (macStat m k)
    | 0x04 => ro ((mac m k).addr % 2 ^ 32)
    | 0x08 => ro ((mac m k).maxFrame % 65536 * 65536 + (mac m k).addr / 2 ^ 32 % 65536)
    | _ => if 0x20 ≤ r then macCtr m k r else {}
  | none, none => {}

/-- CMP_ (R246 to R248). -/
def cmpReg (m : Mach) (o : Nat) : RegAt :=
  match o with
  | 0x00 => blockId 0x434D
  | 0x10 => ro (mask ((List.range 32).map fun k => (cmpr m k).shed))
  | _ => match inSets o 0x10000 0x100 32 with
    | none => {}
    | some (k, r) => match r with
      | 0x00 => ro (cmpStat (cmpr m k))
      | 0x04 => ro (cmpRate (cmpr m k) % 4096)
      | 0x08 => ro (guardStat (cmpr m k))
      | 0x0C => ro ((cmpr m k).frames % 2 ^ 32)
      | _ => match inSets r 0x40 4 16 with
        | some (i, _) => ro (tget 0 (cmpr m k).sigs i % 2 ^ 32)
        | none => cmpCtr m k r

/-- Metering of a core's cluster is shed (R274). -/
def coreShed (m : Mach) (y : Nat) : Bool := decide (16 ≤ y / 8 + m.aud.shedClusters)

/-- SHR_ (R285). -/
def shrReg (m : Mach) (o : Nat) : RegAt :=
  if o = 0 then blockId 0x5348
  else match inSets o 0x10000 0x20 128 with
  | none => {}
  | some (y, r) =>
    let c : ShrewCore := tget {} m.audCnt.cores y
    let z (v : Nat) (f : ShrewCore → ShrewCore) : RegAt :=
      ctr v fun m => { m with audCnt := { m.audCnt with cores := tmod {} m.audCnt.cores y f } }
    match r with
    | 0x00 => ro (b2n (coreShed m y) * 2 ^ 31 + kres m y % 2 ^ 18)
    | 0x04 => ro 113664
    | 0x08 => z c.peak fun c => { c with peak := 0 }
    | 0x0C => z c.ovr fun c => { c with ovr := 0 }
    | _ => {}

/-- APT_CFG as a register word (R305). -/
def aptCfgWord (c : AptCfg) : Nat :=
  let w := if c.w = 16 then 0 else if c.w = 24 then 1 else 2
  c.format % 4 * 2 ^ 30 + c.s % 64 * 2 ^ 24 + w * 2 ^ 22 + b2n (c.m == 24) * 2 ^ 21 + b2n c.enable * 2 ^ 20 + b2n c.fspol * 2 ^ 19
    + b2n c.bclkEdge * 2 ^ 18 + b2n c.tdmdly * 2 ^ 17 + b2n c.conv * 2 ^ 16 + b2n c.trislot * 2 ^ 15 + c.nout % 64 * 2 ^ 9

/-- APT_ (R304 to R306). -/
def aptReg (m : Mach) (o : Nat) : RegAt :=
  if o = 0 then blockId 0x4150
  else match inSets o 0x10000 0x80 32 with
  | none => {}
  | some (n, r) =>
    let p := apt m n
    match r with
    | 0x00 => ro (aptCfgWord p.cfg)
    | 0x04 => ro (aptStat p)
    | 0x08 => ro (p.fine % 2 ^ 32)
    | 0x0C => ro (b2n p.nPend.isSome * 2 ^ 31 + p.nPend.getD 0 % 8192 * 2 ^ 16 + p.n % 8192)
    | 0x10 => ro (inLatNow p)
    | 0x14 => ro (outLatNow p)
    | 0x18 => { val := p.blkIdx % 2 ^ 32, latches := [4, 8] }
    | 0x1C => topHalf (secOf p.blkAt % 2 ^ 32)
    | 0x20 => topHalf (nsOf p.blkAt)
    | _ => aptCtr m n r

/-- DT_ (R367, R368). -/
def dtReg (m : Mach) (o : Nat) : RegAt :=
  let d := m.dt
  match o with
  | 0x00 => blockId 0x4454
  | 0x10 => ro (dtStat m)
  | 0x14 => { val := secOf d.t % 2 ^ 32, latches := [4, 8, 12] }
  | 0x18 => topHalf (secOf d.t / 2 ^ 32 % 65536)
  | 0x1C => topHalf (nsOf d.t)
  | 0x20 => topHalf (fracOf d.t)
  | 0x24 => lowHalf d.incr
  | 0x28 => { val := d.incr / 2 ^ 32 % 256, half := true, resetHalf := 2 }
  | 0x2C => ro (d.steplim % 2 ^ 14)
  | 0x30 => ro (s32 d.lastStep)
  | 0x40 => ctr d.steps fun m => { m with dt := { m.dt with steps := 0 } }
  | 0x44 => ctr d.stepRef fun m => { m with dt := { m.dt with stepRef := 0 } }
  | _ => match inSets o 0x10000 0x40 16 with
    | none => {}
    | some (k, r) =>
      let p : PtpPort := tget {} d.ptp.ports k
      match r with
      | 0x00 => ro (p.st % 16 * 2 ^ 28 + p.mac.getD 0 % 64 * 2 ^ 22)
      | 0x04 => ro (toBits 32 (offsetNs p))
      | 0x08 => ro (s32 p.mpd)
      | _ => ppCtr m k r

/-- TMG_ (R344 to R347). -/
def tmgReg (m : Mach) (o : Nat) : RegAt :=
  let d := m.tmg.dpll
  match o with
  | 0x00 => blockId 0x544D
  | 0x10 => ro (tmgSelStat m)
  | 0x14 => ro (s32 d.u)
  | 0x18 => ro (s32 (holdoverValue m))
  | 0x1C => ro (s32 d.err)
  | 0x20 => ro (s32 (d.buildout / 1000))
  | 0x24 => { val := secOf d.markT % 2 ^ 32, latches := [4] }
  | 0x28 => topHalf (nsOf d.markT)
  | 0x2C => ro (toBits 16 (satS 16 d.temp))
  | 0x30 => ro (s32 d.ageing)
  | _ => match inSets o 0x10000 0x40 14, inSets o 0x20000 0x20 8, inSets o 0x30000 0x20 12 with
    | some (k, r), _, _ => match r with
      | 0x00 => ro (tmgRefStat m k)
      | 0x04 => ro (s32 (cand m k).foff)
      | 0x08 => ro (s32 (cand m k).phase)
      | 0x0C => ro (tmgRefCfgWord m k)
      | _ => candCtr m k r
    | none, some (k, r), _ =>
      let a := apll m k
      match r with
      | 0x00 => ro (b2n a.lock * 2 ^ 31 + b2n a.bypass * 2 ^ 30 + a.mint % 64)
      | 0x04 => ro (a.mnum % 2 ^ 24)
      | 0x08 => ro (a.mden % 2 ^ 24)
      | 0x0C => ctr a.byp fun m => setApll m k fun a => { a with byp := 0 }
      | _ => {}
    | none, none, some (k, r) =>
      let x := clkOut m k
      match r with
      | 0x00 => ro (b2n x.drive * 2 ^ 31 + b2n x.grant * 2 ^ 30 + b2n x.paired * 2 ^ 29 + b2n x.wclk * 2 ^ 28 + x.level % 8 * 2 ^ 25
          + x.src % 4 * 2 ^ 23 + x.apll % 8 * 2 ^ 20 + x.plane % 16 * 2 ^ 16)
      | 0x04 => ro (x.d % 2 ^ 24)
      | _ => {}
    | none, none, none => {}

/-- MEM_ (R390 to R392). -/
def memReg (m : Mach) (o : Nat) : RegAt :=
  match o with
  | 0x00 => blockId 0x4D45
  | 0x40 => ro (memState m)
  | 0x50 => ctr m.mem.playoutPoison fun m => { m with mem := { m.mem with playoutPoison := 0 } }
  | _ => match inSets o 0x10 4 4, inSets o 0x20 4 4, inSets o 0x30 4 4 with
    | some (s, _), _, _ => ro (memQuar m s)
    | none, some (s, _), _ => ro (memSpare m s)
    | none, none, some (s, _) => ro ((stack m s).rfsh % 4 * 2 ^ 16 + (stack m s).temp % 65536)
    | none, none, none => match inSets o 0x10000 0x20 83, inSets o 0x20000 0x40 128 with
      | some (p, r), _ => if r = 0 then ro (portTarget p * 65536 + portBudget m p % 65536) else memPortCtr m p r
      | none, some (n, r) => match r with
        | 0x00 => ro (pcStat m n)
        | 0x04 | 0x08 | 0x0C | 0x10 | 0x14 => ro (lget 0 (capRegs (pc m n)) (r / 4 - 1))
        | _ => pcCtr m n r
      | none, none => {}

/-- What is left of a time, in whole units. -/
def leftOf (m : Mach) (unit : Nat) (e : Option Nat) : Nat := (e.getD 0 - m.now) / unit

/-- MBX_ (R394, R435 to R437). `port`: the host port that reads, whose own registers a read finds; none for another master,
for which they are free values (Assumption 5). -/
def mbxReg (m : Mach) (port : Option Nat) (o : Nat) : RegAt :=
  let x := m.ctl
  let mine (v : Nat → Nat) : RegAt := match port with
    | some p => ro (v p)
    | none => ro (Config.portRegister m.free o % 2 ^ 32)
  let opened (lo : Nat) : Nat := mask ((span lo 32).map fun n => (ses m n).st != .free)
  match o with
  | 0x00 => blockId 0x4D42
  | 0x14 => mine fun p => let a : Bool × Bool × Nat := tget (false, false, 0) x.alloc p; b2n a.1 * 2 ^ 31 + b2n a.2.1 * 2 ^ 30 + a.2.2 % 64
  | 0x20 => { val := opened 0, latches := [4] }
  | 0x24 => topHalf (opened 32)
  | 0x30 => lowHalf (x.jnext - 1)
  | 0x34 => topHalf ((x.jnext - 1) / 2 ^ 32)
  | 0x38 => ro (2 ^ 20 - journalUsed m)
  | 0x3C => ro (448 - cpHeld m 64)
  | _ => match inSets o 0x10000 0x40 64, inSets o 0x18000 4 260 with
    | some (n, r), _ =>
      let s := ses m n
      match r with
      | 0x00 => ro (s.cmds % 256 * 2 ^ 24 + s.hare % 256 * 2 ^ 16 + s.cpus % 256 * 2 ^ 8 + s.irqCount % 256)
      | 0x04 => ro (s.sub % 512)
      | 0x08 => ro (topHseq s)
      | 0x0C => ro (leftOf m (1000 * msT) s.grantEnd % 65536)
      | _ => sesCtr m n r
    | none, some _ => mine fun p => leNat (mbytes x.msix (0x10000 * p + (o - 0x18000)) 4)
    | none, none => {}

/-- PR_ (R487, R488): no claim word exists before the slot ID is latched (S1). -/
def prReg (m : Mach) (o : Nat) : RegAt :=
  let p := m.pr
  match o with
  | 0x00 => blockId 0x5052
  | 0x10 => ro (p.role % 16 * 2 ^ 28 + grade m % 16 * 2 ^ 24 + p.st % 8 * 2 ^ 21 + b2n p.fit * 2 ^ 20 + b2n p.stale * 2 ^ 19
      + b2n p.unprot * 2 ^ 18 + b2n p.split * 2 ^ 17 + b2n (p.role == 15) * 2 ^ 16 + b2n p.pathA.up * 2 ^ 15 + b2n p.pathB.up * 2 ^ 14
      + b2n p.pathPin.up * 2 ^ 13 + b2n p.ploss * 2 ^ 12 + b2n p.echoOk * 2 ^ 11)
  | 0x14 => ro (if m.sys.phase = 1 then 0 else claimWord m)
  | 0x18 => ro ((p.beat.map (·.claim)).getD 0)
  | 0x20 => ro (p.save % 2 ^ 32)
  | 0x24 => lowHalf p.imgEpoch
  | 0x28 => topHalf (p.imgEpoch / 2 ^ 32)
  | 0x2C => ro (drillWord m)
  | _ => pairCtr m o

/-- SNP_ (R534). -/
def snpReg (m : Mach) (o : Nat) : RegAt :=
  let s := m.snp
  match o with
  | 0x00 => blockId 0x534E
  | 0x10 => ro (b2n s.busy.isSome * 2 ^ 31 + s.enables % 32 * 2 ^ 26 + (s.slots.filter fun x => x.held || x.grave).length % 32 * 2 ^ 21)
  | 0x14 => ro s.lastId
  | 0x40 => ctr s.triggers fun m => { m with snp := { m.snp with triggers := 0 } }
  | 0x44 => ctr s.missed fun m => { m with snp := { m.snp with missed := 0 } }
  | _ => {}

/-- FLW_ (R219 to R221). -/
def flwReg (m : Mach) (o : Nat) : RegAt :=
  match o with
  | 0x00 => blockId 0x464C
  | 0x10 => ro (m.flw.ctxs.filter fun x => x.2.st != 0).length
  | 0x14 => ro (262144 - granulesUsed m)
  | _ => match inSets o 0x100 8 64, inSets o 0x200000 0x80 16384 with
    | some (k, r), _ => if r = 0 then ro (macRateMbit m k 1) else if r = 4 then ro (macRateMbit m k 0) else {}
    | none, some (c, r) =>
      let x := ctx m c
      match r with
      | 0x00 => ro (ctxStat m c)
      | 0x04 => if x.st ≠ 0 ∧ x.d.partner ≠ 0xFFFF then ro (2 ^ 14 + x.d.partner % 2 ^ 14) else {}
      | 0x08 => ro (x.offset % 2 ^ 32)
      | 0x0C => ro (ctxRate m c)
      | 0x10 => ro (granules m c)
      | 0x14 => ro (x.seq % 2 ^ 32)
      | 0x18 => ro (troffset m c)
      | _ => ctxCtr m c r
    | none, none => {}

/-! ### The region (R449, R450) -/

/-- The targets of the register region: number, offset of the block in the region, size. -/
def regionBlocks : List (Nat × Nat × Nat) :=
  [(16, 0, 0x10000), (17, 0x10000, 0x10000), (18, 0x20000, 0x10000), (19, 0x30000, 0x10000), (20, 0x40000, 0x10000),
   (21, 0x50000, 0x10000), (22, 0x60000, 0x10000), (23, 0x80000, 0x80000), (24, 0x100000, 0x20000), (25, 0x120000, 0x20000),
   (26, 0x140000, 0x40000), (27, 0x180000, 0x20000), (28, 0x1A0000, 0x20000), (29, 0x1C0000, 0x20000), (30, 0x1E0000, 0x20000),
   (31, 0x200000, 0x40000), (32, 0x240000, 0x40000), (33, 0x280000, 0x20000), (34, 0x2A0000, 0x20000), (35, 0x300000, 0x100000),
   (36, 0x400000, 0x400000)]

/-- The block at an offset of the region: its target, and the offset from its base. -/
def blockAtOff (x : Nat) : Option (Nat × Nat) :=
  (regionBlocks.find? fun b => decide (b.2.1 ≤ x) && decide (x < b.2.1 + b.2.2)).map fun b => (b.1, x - b.2.1)

/-- A register by target and offset. -/
def regIn (m : Mach) (port : Option Nat) (t o : Nat) : RegAt :=
  match t with
  | 16 => sysReg m o
  | 17 => busReg m o
  | 18 => pwrReg m o
  | 19 => fltReg m o
  | 20 => updReg m o
  | 21 => audReg m o
  | 22 => xbReg m o
  | 23 => isReg m o
  | 24 => wlReg m o
  | 25 => lnReg m o
  | 26 => ethReg m o
  | 27 => cmpReg m o
  | 28 => shrReg m o
  | 29 => aptReg m o
  | 30 => dtReg m o
  | 31 => tmgReg m o
  | 32 => memReg m o
  | 33 => mbxReg m port o
  | 34 => prReg m o
  | 35 => snpReg m o
  | 36 => flwReg m o
  | _ => {}

/-- A target has no power, or its controller sleeps (R387, R451). The Den state lasts until the domains are switched on again
in wake step W1 (R503). -/
def targetOff (m : Mach) (t : Nat) : Bool :=
  let den := m.pwr.st == 2 || (m.pwr.st == 4 && m.pwr.phase == 9)
  if 5 ≤ t ∧ t ≤ 8 ∨ t = 32 then memState m == 2
  else den && !(t == 3 || t == 4 || (16 ≤ t && t ≤ 19) || t == 30 || t == 31 || t == 34)

/-! ### Snapshot images (R526) -/

/-- One byte of a snapshot image: the SNP_ range and unpowered ranges read as 0. -/
def imageByte (m : Mach) (x : Nat) : Byte :=
  match blockAtOff x with
  | none => 0
  | some (t, o) =>
    if t = 35 ∨ targetOff m t then 0
    else BitVec.ofNat 8 ((regIn m none t (o / 4 * 4)).val / 256 ^ (o % 4))

/-- Bytes of the image in a slot (R526, R531). -/
def snapRead (m : Mach) (k off len : Nat) : List Byte :=
  match tget? k m.images with
  | some b => (span off len).map (imageByte { toBlocks := b })
  | none => List.replicate len 0

end Sys2Proof.Machine
end

