-- ==== Sys2Proof/Machine/Bus.lean ====
section
/-! DEFINITION. The bus matrix: targets, the default target, the access tables, the boot remap, reads and writes
(chapter 15), and the board-management port (R581). -/
namespace Sys2Proof.Machine

/-! ### Masters and targets (R438, R445, R449) -/

/-- The host port of a master: HOSTA 0, HOSTB 1. -/
def hostPort (master : Nat) : Option Nat := if master = 7 then some 0 else if master = 8 then some 1 else none

/-- Reads of this master are never destructive: hosts and the debug port (R446). -/
def gentle (master : Nat) : Bool := master == 7 || master == 8 || master == 10

/-- The memory targets: number, base, size (R449). -/
def memTargets : List (Nat × Nat × Nat) :=
  [(0, 0, 0x40000), (1, 0x1000000, 0x400000), (2, 0x4000000, 0x800000), (3, 0x5000000, 0x100000), (4, 0x6000000, 0x40000),
   (5, 0x8000000000, 0x1800000000), (6, 0x9800000000, 0x400000000), (7, 0x9C00000000, 0x300000000), (8, 0x9F00000000, 0x100000000)]

/-- Base of the register region. -/
def regBase : Nat := 0x40000000

/-- The target that an address lies in, and the offset from its base; none: it lies in no region. -/
def targetOf (a : Nat) : Option (Nat × Nat) :=
  match memTargets.find? fun t => decide (t.2.1 ≤ a) && decide (a < t.2.1 + t.2.2) with
  | some t => some (t.1, a - t.2.1)
  | none => if regBase ≤ a ∧ a < regBase + 0x800000 then blockAtOff (a - regBase) else none

/-- The code that a master has at a target (R452): code 2 acts as 0; the low window's read code of a control processor is read
and write while the window holds SRAM. -/
def accCode (m : Mach) (t master : Nat) : Nat :=
  let c := acc m t / 4 ^ master % 4
  if t = 0 ∧ master ≤ 3 ∧ m.bus.remap ∧ c = 1 then 3 else if c = 2 then 0 else c

/-- The offset in boot ROM, or in working SRAM, that a window's address means (R447). -/
def romOffset (m : Mach) (t o : Nat) : Option Nat :=
  if (t = 0 ∧ !m.bus.remap) ∨ (t = 1 ∧ m.bus.remap ∧ o < 0x40000) then some o else none

/-- A position that is quarantined and not yet remapped: its reads are poisoned, its writes discarded (R378). -/
def lostPosition (m : Mach) (o : Nat) : Bool := (pc m (pcOf o)).st == 2

/-- The pool address that a read of a pool address takes its data from: in the system area the other copy where the first is
poisoned (R372). -/
def readFrom (m : Mach) (x : Nat) : Nat := if systemBase ≤ x ∧ poisonedAt m x then otherCopy x else x

/-- The case of R442 that an access falls in, if any, in the order in which R442 lists them: 0 unmapped, 1 denied, 2 width,
3 domain off, 4 ROM write, 5 poisoned. -/
def busCase (m : Mach) (master a : Nat) (write : Bool) : Option Nat :=
  match targetOf a with
  | none => some 0
  | some (t, o) =>
    let c := accCode m t master
    if c = 0 ∨ (write ∧ c ≠ 3) then some (if write ∧ c ≠ 0 ∧ (romOffset m t o).isSome then 4 else 1)
    else if 16 ≤ t ∧ a % 4 ≠ 0 then some 2
    else if targetOff m t then some 3
    else if write ∧ (romOffset m t o).isSome then some 4
    else if !write ∧ 5 ≤ t ∧ t ≤ 8 ∧ poisonedAt m (readFrom m (a - 0x8000000000)) then some 5
    else none

/-! ### The default target (R442 to R444) -/

/-- The record of the first access since VALID was cleared, the counts, and the fault or the port's event. -/
def defaultTarget (m : Mach) (master a : Nat) (write : Bool) (case : Nat) : Mach :=
  let b := m.bus
  let host := (hostPort master).isSome
  let b := if b.errValid then b else
    { b with errValid := true, errAddr := a, errWrite := write, errCase := case, errMaster := master,
             errTarget := ((targetOf a).map (·.1)).getD 63 }
  let b := match case with
    | 1 | 2 | 4 => { b with deny := sat b.deny 1 }
    | 6 => { b with timeout := sat b.timeout 1 }
    | _ => { b with decode := sat b.decode 1 }
  let m := { m with bus := { b with rerr := !host, rdata := if write then b.rdata else if host then 0xFFFFFFFF else 0 } }
  match hostPort master with
  | some p => fireVector m p 64
  | none => raise m 0xDD0 0x85 1 (a % 2 ^ 32)

/-! ### The mailbox SRAM (R397, R398, R401, R449) -/

/-- Bytes of a response and of an event in their rings (R404, R425). -/
def Resp.bytes (r : Resp) : List Byte :=
  le 2 r.opcode ++ le 1 r.status ++ le 1 r.flags ++ le 4 r.hseq ++ le 8 r.jseq ++ padTo 0 48 r.result
def Evt.bytes (e : Evt) : List Byte :=
  le 2 e.code ++ le 1 e.group ++ le 1 0 ++ le 4 e.eseq ++ le 4 e.sec ++ le 4 e.ns ++ padTo 0 48 e.body

/-- MBX_WIN_STAT (R398). -/
def winStat (m : Mach) (n : Nat) : Nat :=
  let x := ses m n
  let left := match x.leaseEnd with
    | some e => leftOf m msT (some e)
    | none => if x.st = .opn ∨ x.st = .detached then x.lease else 0
  x.st.code * 2 ^ 29 + b2n (expert x) * 2 ^ 28 + x.port % 2 * 2 ^ 27 + b2n (claiming m) * 2 ^ 26 + left % 65536

/-- The index registers of a window (R398). -/
def indexReg (m : Mach) (n o : Nat) : Nat :=
  let w := win m n
  match o with
  | 0x00 => w.cmdTail
  | 0x04 => w.headReg
  | 0x08 => w.hareTail
  | 0x0C => w.hareHead
  | 0x10 => w.respTail
  | 0x14 => w.respHead
  | 0x18 => w.evtTail
  | 0x1C => w.evtHead
  | 0x20 => winStat m n
  | _ => 0

/-- One byte of a window. -/
def winByte (m : Mach) (n o : Nat) : Byte :=
  let w := win m n
  if 0x1FF00 ≤ o then BitVec.ofNat 8 (indexReg m n ((o - 0x1FF00) / 4 * 4) / 256 ^ (o % 4))
  else if 0x1C800 ≤ o then 0
  else if 0x14000 ≤ o ∧ o < 0x18000 then
    match tget? ((o - 0x14000) / 64) w.resps with
    | some r => lget 0 r.bytes (o % 64)
    | none => mget w.ram o
  else if 0x18000 ≤ o ∧ o < 0x1C000 then
    match tget? ((o - 0x18000) / 64) w.evts with
    | some e => lget 0 e.bytes (o % 64)
    | none => mget w.ram o
  else mget w.ram o

/-- A posted entry that is written over becomes plain bytes. -/
def plainSlot (w : Window) (o : Nat) : Window :=
  if 0x14000 ≤ o ∧ o < 0x18000 then
    match tget? ((o - 0x14000) / 64) w.resps with
    | some r => { w with resps := tdel w.resps ((o - 0x14000) / 64), ram := mput w.ram (o / 64 * 64) r.bytes }
    | none => w
  else if 0x18000 ≤ o ∧ o < 0x1C000 then
    match tget? ((o - 0x18000) / 64) w.evts with
    | some e => { w with evts := tdel w.evts ((o - 0x18000) / 64), ram := mput w.ram (o / 64 * 64) e.bytes }
    | none => w
  else w

/-- A write into a window, aligned: an index register, or memory (R398, R401). -/
def winWrite (port n o v : Nat) (m : Mach) : Mach :=
  if foreign m port n then discardWrite m n
  else if o = 0x1FF00 then doorbell false port n v m
  else if o = 0x1FF08 then doorbell true port n v m
  else if o = 0x1FF14 then headWrite false port n v m
  else if o = 0x1FF1C then headWrite true port n v m
  else if 0x1C800 ≤ o then m
  else setWin m n fun w => let w := plainSlot w o; { w with ram := mput w.ram o (le 4 v) }

/-! ### Reads (R4, R446) -/

/-- The register that a master reads, with what the read does: RC fields clear but for a gentle master; partner halves are
latched in the master's own copy; a partner reads as it was latched. -/
def readReg (m : Mach) (master t o a : Nat) : Mach × Nat :=
  let port := hostPort master
  let r := regIn m port t o
  let key (x : Nat) : Nat := 2 ^ 40 * master + x
  let v := if r.half then tget r.resetHalf m.bus.latched (key a) else r.val
  let latched := r.latches.foldl (fun t' d => tset t' (key (a + d)) (regIn m port t (o + d)).val) m.bus.latched
  let m := { m with bus := { m.bus with latched } }
  match r.rc with
  | some f => (if gentle master then m else f m, v)
  | none => (m, v)

/-- One byte of a pool. A block of a spare that nothing has written since its remap reads as the pool's fill: 0, and in the
audio pool containers of 0 with MISS set (R378). -/
def poolByte (m : Mach) (t x : Nat) : Byte :=
  let p := pc m (pcOf x)
  if t = 7 ∧ p.spare.isSome ∧ !p.written.contains (x / 2048) then (if x % 4 = 3 then 1 else 0) else mget m.mem.pool x

/-- Four bytes of a memory target, little-endian. -/
def readMem (m : Mach) (master t o : Nat) : Nat :=
  let byte (i : Nat) : Byte :=
    let o := o + i
    match romOffset m t o with
    | some x => Config.romByte x
    | none => match t with
      | 0 | 1 => mget m.bus.work o
      | 2 =>
        let n := o / 0x20000
        if (hostPort master).any fun p => foreign m p n then 0 else winByte m n (o % 0x20000)
      | 3 => (journalByte m o).getD (mget m.bus.jsram o)
      | 4 => mget m.bus.owl o
      | _ => poolByte m t (memPoolBase t + o)
  leNat ((List.range 4).map byte)
where
  memPoolBase (t : Nat) : Nat := match t with
    | 6 => playoutBase
    | 7 => audioBase
    | 8 => systemBase
    | _ => 0

/-- A command to the pseudo-channel behind a pool address enters its retry buffer (R377). -/
def noteRetry (m : Mach) (write : Bool) (x : Nat) : Mach :=
  setPc m (pcOf x) fun p => { p with retry := ((write, x, m.now) :: p.retry).take 64 }

/-- A read that found poisoned data (R381, R442): in the system area both copies are (R372). -/
def poisonAnswer (master a : Nat) (m : Mach) : Mach :=
  let x := a - 0x8000000000
  defaultTarget (poisonedRead (pcOf x) 81 x (if systemBase ≤ x then .system true else .other) m) master a false 5

/-- Port CTL's access to a pool waits: its budget is spent, or the pseudo-channel is frozen (R374, R383, R449). -/
def poolWaits (m : Mach) (x : Nat) : Bool := portHeld m 81 || frozenPc m (pcOf x)

/-- An access to a pool joins the waiting requests. -/
def waitPool (master a : Nat) (word : Option Nat) (m : Mach) : Mach :=
  let x := a - 0x8000000000
  issueReq { port := 81, pos := pcOf x, row := Config.dramRow x, at_ := m.now, bytes := 4, act := some (master, a, word) } m

/-- A read of a pool that found data: in the system area a poisoned first copy is rewritten from the other (R372). -/
def poolRead (x : Nat) (m : Mach) : Mach :=
  let m := noteRetry m false (readFrom m x)
  if readFrom m x = x then m else poisonedRead (pcOf x) 81 x (.system false) m

/-- A master reads four bytes at an address; `served` says that the memory controller has served the request. -/
def busReadAs (served : Bool) (master a : Nat) (m : Mach) : Mach :=
  match busCase m master a false, targetOf a with
  | some c, some (t, _) =>
    if c = 5 then (if !served ∧ poolWaits m (a - 0x8000000000) then waitPool master a none m else poisonAnswer master a m)
    else if t < 37 then defaultTarget m master a false c else m
  | some c, none => defaultTarget m master a false c
  | none, none => m
  | none, some (t, o) =>
    let done (m : Mach) (v : Nat) : Mach := { m with bus := { m.bus with rdata := v, rerr := false } }
    if 16 ≤ t then let (m, v) := readReg m master t o a; done m v
    else if t < 5 then done m (readMem m master t o)
    else if !served ∧ poolWaits m (a - 0x8000000000) then waitPool master a none m
    else
      let v := readMem m master t o
      done (poolRead (a - 0x8000000000) (if served then m else spend 81 4 m)) v

/-- A master reads four bytes at an address. -/
def busRead (master a : Nat) (m : Mach) : Mach := busReadAs false master a m

/-! ### Writes (R5, R447, R448, R453) -/

/-- A write of a register that only CP_0 may write: another master's is denied. -/
def onlyCp0 (m : Mach) (master a : Nat) (f : Mach → Mach) : Mach :=
  if master = 0 then { f m with bus := { (f m).bus with rerr := false } } else defaultTarget m master a true 1

/-- SYS_REMAP (R448). -/
def writeRemap (v : Nat) (m : Mach) : Mach := { m with bus := { m.bus with remap := m.bus.remap || bit v 0 } }

/-- One code of an access table after a write (R453): a bit that would widen the code is ignored. -/
def narrowed (old new : Nat) : Nat :=
  match old, new with
  | 3, n => n
  | 1, 3 => 1
  | 1, 2 => 0
  | 1, n => n
  | 2, n => n / 2 * 2
  | _, n => n / 2 * 2

/-- BUS_ACC_t (R453): denied once the tables are locked. -/
def writeAcc (master a t v : Nat) (m : Mach) : Mach :=
  if m.bus.lock then defaultTarget m master a true 1
  else if !isTarget t then m
  else
    let old := acc m t
    let new := (List.range 11).foldl (fun x i => x + narrowed (old / 4 ^ i % 4) (v / 4 ^ i % 4) * 4 ^ i) 0
    { m with bus := { m.bus with acc := tset m.bus.acc t new } }

/-- BUS_LOCK (R453, R455). -/
def writeLock (v : Nat) (m : Mach) : Mach := { m with bus := { m.bus with lock := m.bus.lock || bit v 0 } }

/-- BUS_ERR_INFO.VALID (R444). -/
def clearErr (v : Nat) (m : Mach) : Mach := if bit v 31 then { m with bus := { m.bus with errValid := false } } else m

/-- A write that reaches a register (R5): fields that are not RW, W1C or WO ignore it. Of the mailbox block a host writes its
port's MBX_ALLOC_REQ and its MSI-X table alone (R394, R452). -/
def writeReg (master t o a v : Nat) (m : Mach) : Mach :=
  match t with
  | 16 => if o = 0x20 then onlyCp0 m master a (writeRemap v) else m
  | 17 =>
    if o = 0x10 then (if m.bus.lock ∧ master ≠ 0 then defaultTarget m master a true 1 else onlyCp0 m master a (writeLock v))
    else if o = 0x28 then clearErr v m
    else match inSets o 0x100 4 37 with
      | some (k, _) => onlyCp0 m master a (writeAcc master a k v)
      | none => m
  | 22 => if o = 0x80 then { m with xb := { m.xb with rtSel := bits v 31 31 * 2 ^ 31 + v % 4096 } } else m
  | 23 => if o = 0x20 then { m with is_ := { m.is_ with sel := bits v 19 16 * 2 ^ 16 + v % 4096 } } else m
  | 30 => if o = 0x10 then jumpClear v m else m
  | 33 => match hostPort master with
    | some p =>
      if o = 0x10 then (if bit v 0 then allocate p m else m)
      else if 0x18000 ≤ o ∧ o < 0x18000 + 16 * 65 then
        { m with ctl := { m.ctl with msix := mput m.ctl.msix (0x10000 * p + (o - 0x18000)) (le 4 v) } }
      else m
    | none => m
  | _ => m

/-- A write that reaches one place of a pool (R378, R384): a quarantined position discards it; a spare notes the block; a
poisoned unit holds data again. -/
def writePlace (x v : Nat) (m : Mach) : Mach :=
  if lostPosition m x then m
  else
    let m := setPc (noteRetry m true x) (pcOf x) fun p =>
      if p.spare.isSome ∧ !p.written.contains (x / 2048) then { p with written := x / 2048 :: p.written } else p
    { m with mem := { m.mem with pool := mput m.mem.pool x (le 4 v), bad := m.mem.bad.filter (· != x / 64) } }

/-- A write that reaches a pool: both copies in the system area (R372). -/
def writePool (x v : Nat) (m : Mach) : Mach :=
  if systemBase ≤ x ∧ x < systemBase + 2 ^ 31 then writePlace (otherCopy x) v (writePlace x v m) else writePlace x v m

/-- A master writes four bytes at an address; `served` says that the memory controller has served the request. -/
def busWriteAs (served : Bool) (master a v : Nat) (m : Mach) : Mach :=
  match busCase m master a true, targetOf a with
  | some c, _ => defaultTarget m master a true c
  | none, none => m
  | none, some (t, o) =>
    let v := v % 2 ^ 32
    let m := { m with bus := { m.bus with rerr := false } }
    if 16 ≤ t then writeReg master t o a v m
    else match t with
      | 0 | 1 => { m with bus := { m.bus with work := mput m.bus.work o (le 4 v) } }
      | 2 => let n := o / 0x20000; winWrite ((hostPort master).getD (ses m n).port) n (o % 0x20000) v m
      | 3 => { m with bus := { m.bus with jsram := mput m.bus.jsram o (le 4 v) } }
      | 4 => { m with bus := { m.bus with owl := mput m.bus.owl o (le 4 v) } }
      | _ =>
        if served then writePool (a - 0x8000000000) v m
        else if poolWaits m (a - 0x8000000000) then waitPool master a (some v) m
        else writePool (a - 0x8000000000) v (spend 81 4 m)

/-- A master writes four bytes at an address. -/
def busWrite (master a v : Nat) (m : Mach) : Mach := busWriteAs false master a v m

/-- What a waiting request of a bus master does when it is served. -/
def busAct (a : Nat × Nat × Option Nat) (m : Mach) : Mach :=
  match a.2.2 with
  | some v => busWriteAs true a.1 a.2.1 v m
  | none => busReadAs true a.1 a.2.1 m

/-! ### The events -/

/-- The address of a register, by target and offset. -/
def regAddr (t o : Nat) : Nat := regBase + ((regionBlocks.find? fun b => b.1 == t).map (·.2.1)).getD 0 + o

/-- DEFAULT_TARGET_ACCESS (R442): where neither the address nor the state tells why, the access was no single aligned 32-bit
access to a register, or it read poisoned memory. -/
def defaultAccess (master a : Nat) (write : Bool) (m : Mach) : Mach :=
  match busCase m master a write, targetOf a with
  | some c, _ => if c = 5 then poisonAnswer master a m else defaultTarget m master a write c
  | none, some (t, _) =>
    if 16 ≤ t then defaultTarget m master a write 2
    else if write then m
    else if 5 ≤ t then poisonAnswer master a m
    else defaultTarget m master a false 5
  | none, none => m

/-- BUS_TARGET_TIMEOUT (R443): an access that was granted is abandoned; one that waits at the memory controller waits no more. -/
def targetTimeout (master a : Nat) (write : Bool) (m : Mach) : Mach :=
  match busCase m master a write, targetOf a with
  | none, some (t, _) =>
    let waits (r : MemReq) : Bool := r.act.any fun x => x.1 == master && x.2.1 == a && x.2.2.isSome == write
    let m := { m with mem := { m.mem with reqs := m.mem.reqs.filter fun r => !waits r } }
    defaultTarget (raise m 0xDD0 0x84 2 t) master a write 6
  | _, _ => m

/-- A command's address fits the matrix, and the master is one of the eleven (R438). -/
def busOk (master a : Nat) : Bool := decide (master ≤ 10) && decide (a < 2 ^ 40)

/-- SYS_REMAP_WRITE (R448). -/
def execSysRemapWrite (master value : Nat) := runIf (busOk master 0) (busWrite master (regAddr 16 0x20) value)
/-- BUS_ACC_WRITE (R453). -/
def execBusAccWrite (master target value : Nat) := runIf (busOk master 0 && target < 37) (busWrite master (regAddr 17 (0x100 + 4 * target)) value)
/-- BUS_LOCK_WRITE (R453). -/
def execBusLockWrite (master value : Nat) := runIf (busOk master 0) (busWrite master (regAddr 17 0x10) value)
/-- BUS_ERR_INFO_CLEAR (R444). -/
def execBusErrInfoClear (master value : Nat) := runIf (busOk master 0) (busWrite master (regAddr 17 0x28) value)
/-- DT_STAT_JUMP_CLEAR (R367). -/
def execDtStatJumpClear (master value : Nat) := runIf (busOk master 0) (busWrite master (regAddr 30 0x10) value)
/-- RC_COUNTER_READ (R4, R446): of any register; a field that is not RC is read without effect. -/
def execRcCounterRead (master addr : Nat) := runIf (busOk master addr) (busRead master addr)
/-- LATCHING_READ (R446). -/
def execLatchingRead (master addr : Nat) := runIf (busOk master addr) (busRead master addr)
/-- REGISTER_WRITE (R5): of any register, and of the memories of the map. -/
def execRegisterWrite (master addr value : Nat) := runIf (busOk master addr) fun m => engine snapRead (busWrite master addr value m)
/-- DEFAULT_TARGET_ACCESS (R442, R444). -/
def execDefaultTargetAccess (master addr : Nat) (write : Bool) (_value : Nat) := runIf (busOk master addr) (defaultAccess master addr write)
/-- BUS_TARGET_TIMEOUT (R443). -/
def execBusTargetTimeout (master addr : Nat) (write : Bool) := runIf (busOk master addr) (targetTimeout master addr write)
/-- The I²C address of the board-management port (R581). -/
def bmcAddress (slotId : Nat) : Nat := 0x58 + slotId % 8

/-- An access of the I²C bus (R581): a read at the port's address is one of master DBG; a write has no effect, and other targets
are not the port's. -/
def bmcAccess (dev addr : Nat) (write : Bool) (m : Mach) : Mach :=
  if dev = bmcAddress m.sys.slotId ∧ !write then busRead 10 (addr % 2 ^ 32) m else m

/-- BMC_I2C_ACCESS (R581). -/
def execBmcI2cAccess (dev addr : Nat) (write : Bool) := runIf (busOk 10 (addr % 2 ^ 32)) (bmcAccess dev addr write)

end Sys2Proof.Machine
end

