-- ==== Sys2Proof/Machine/Events.lean ====
section
/-! DEFINITION. The events that drive the whole module: mailbox index writes, the commit sequencer, budget ticks, switch
points, audio blocks, watchdogs and the firmware's restart, and the service port's view of a snapshot. -/
namespace Sys2Proof.Machine

/-- The rings are served, with the register map behind SNP_READ. -/
def serveRings (m : Mach) : Mach := engine snapRead m

/-- A write of a session's index register from a port, and what it lets the module take. -/
def indexWrite (f : Nat → Nat → Nat → Mach → Mach) (port ses i : Nat) : State → Host.Outcome State Fault Refusal :=
  runIf (decide (port < 2) && decide (ses < 64)) fun m => serveRings (f port ses i m)

/-- MBX_CMD_TAIL_WRITE (R399). -/
def execMbxCmdTailWrite (port ses tail : Nat) := indexWrite (doorbell false) port ses tail
/-- MBX_HARE_TAIL_WRITE (R399). -/
def execMbxHareTailWrite (port ses tail : Nat) := indexWrite (doorbell true) port ses tail
/-- MBX_RESP_HEAD_WRITE (R399). -/
def execMbxRespHeadWrite (port ses head : Nat) := indexWrite (headWrite false) port ses head
/-- MBX_EVT_HEAD_WRITE (R399, R427). -/
def execMbxEvtHeadWrite (port ses head : Nat) := indexWrite (headWrite true) port ses head

/-! ### Committing (R411) -/

/-- CHANGE_SET_COMMIT (R411): the sequencer commits or refuses the next entry; entries that waited for room follow. -/
def execChangeSetCommit := run fun m => serveRings (commitNext m)

/-! ### Budget ticks (R27, R28, R437, R520) -/

/-- At the end of the tick, one FAULT event for each record that received suppressed messages (R520). -/
def postSuppressed (m : Mach) : Mach :=
  let m := m.flt.recs.foldl (fun m r => match r.supp with
    | some msg => faultEvt m msg r.cls
    | none => m) m
  { m with flt := { m.flt with recs := m.flt.recs.map fun r => { r with supp := none }, delivered := [] } }

/-- The sessions' budgets reload, and a tick that held a session counts (R413, R437). A command whose processing spans the
boundary uses the rest of its time in the new tick. -/
def reloadSessions (m : Mach) : Mach :=
  let heldIn := tkeys (fun (x : Session) => x.heldTick) m.ctl.sessions
  let m := heldIn.foldl (fun m n => setCnt m n fun c => { c with held := sat c.held 1 }) m
  { m with ctl := { m.ctl with sessions := tmap (fun _ (x : Session) => { x with usedCmds := 0, usedHare := 0, usedCpu := x.usedCpu - x.cpus, heldTick := false })
                                             m.ctl.sessions } }

/-- The cycles that each core used in the tick, at most those reserved, and whether its metering kernel overruns in the tick that
begins: the spec states no amounts, so they are free values (R271, R272, R285). A kernel that overruns stops for the rest of the
tick and holds its last values (R28). -/
def coreTraffic (m : Mach) : Mach :=
  let seed := m.free
  let overrun (y : Nat) : Bool := m.aud.meters.any (fun x => x.2.on && coreOf m x.1 == y) && Config.unstated (seed + 2 * y + 1) % 2 == 1
  let f (t : Tab ShrewCore) (y : Nat) : Tab ShrewCore :=
    let used := Config.unstated (seed + 2 * y) % (113664 + kres m y + 1)
    tmod {} t y fun c => { peak := max c.peak used, ovr := sat c.ovr (b2n (overrun y)) }
  { m with audCnt := { m.audCnt with cores := (List.range 128).foldl f m.audCnt.cores },
           aud := { m.aud with stopped := (List.range 128).filter overrun }, free := seed + 256 }

/-- Sixteenths of bits that a rate carries in a tick of 2 ns (R148). -/
def rateBits (rate : Nat) : Nat := lget 0 [0, 40, 330, 825, 1700, 3400] rate

/-- A pattern checker in the tick (R160, R169): the bits compared follow from rate and time; which of them were wrong is
measured from outside, so their count is a free value. -/
def checkPattern (now seed : Nat) (x : Lane) : Lane :=
  if !x.chk ∨ !x.lock then { x with prbsAt := now }
  else
    let n := rateBits x.rate * (now - x.prbsAt)
    let all := x.prbsRest + n
    { x with prbsErr := sat x.prbsErr (Config.unstated seed % (n / 16 + 1)), prbsBits := sat x.prbsBits (all / 2 ^ 24),
             prbsRest := all % 2 ^ 24, prbsAt := max now x.prbsAt }

/-- What running pattern checkers and live MACs counted in the tick: how many codewords were wrong is measured from outside,
so these are free values (R160, R187). -/
def linkTraffic (m : Mach) : Mach :=
  let seed := m.free
  let lanes := tmap (fun k (x : Lane) => checkPattern m.now (seed + 2 * k) x) m.ln.lanes
  let up (k : Nat) : Bool := macExists m k && (mac m k).link
  let macs := ((List.range 64).filter up).foldl (fun t k => tmod {} t k fun (c : MacCnt) =>
    { c with fecCorr := sat64 c.fecCorr (Config.unstated (seed + 512 + 2 * k)),
             fecUncorr := sat64 c.fecUncorr (Config.unstated (seed + 513 + 2 * k)) }) m.eth.cnts
  { m with ln := { m.ln with lanes }, eth := { m.eth with cnts := macs }, free := seed + 1024 }

/-- Receive buffers that were held at their budget drain (R28, R176). -/
def drainAll (m : Mach) : Mach :=
  (tkeys (fun (x : Mac) => !x.rxq.isEmpty) m.eth.macs).foldl (fun m k => drainRx k (mac m k).rxq m) m

/-- What the supplies and, while it has power, the datapath measured in the tick. -/
def tickTraffic (m : Mach) : Mach :=
  let m := if m.pwr.rails.isEmpty then m else sampleRails m
  if targetOff m 22 then m else linkTraffic (coreTraffic (if targetOff m 32 then m else drainAll (memTraffic busAct m)))

/-- BUDGET_TICK (R27). -/
def execBudgetTick := run fun m =>
  serveRings (gradeCheck (settleHold (tickTraffic (copyTick (reloadSessions (postSuppressed m))))))

/-! ### Switch points (R53, R459, R468, R526) -/

/-- A switch point of TP_0 takes the per-frame save and the per-frame snapshot, and hands over or claims by grade. -/
def frameWork (k : Nat) (m : Mach) : Mach := gradeCheck (claimCheck (frameTrigger (takeSave (k % 2 ^ 32) m)))

/-- PLANE_SWITCH_POINT: planes stand still while the crossbar has no power (R451). -/
def planeSwitch (p : Nat) (m : Mach) : Mach :=
  if targetOff m 22 then m
  else
    let k := (plane m p).nextSw
    let m := switchPoint p m
    if p = 0 then frameWork k m else m

/-- PLANE_SWITCH_POINT (R53). -/
def execPlaneSwitchPoint (plane : Nat) := runIf (plane < 16) fun m => serveRings (planeSwitch plane m)

/-- AUDIO_BLOCK (R20). -/
def execAudioBlock := run wholeBlock

/-! ### The firmware (R423, R424) -/

/-- WATCHDOG_EXPIRY (R424): control processors 0 to 3, the Hare core 4, the commit sequencer 5. -/
def execWatchdogExpiry (processor : Nat) := runIf (processor < 6) (watchdog processor)
/-- FIRMWARE_RESTART_COMPLETE (R424): the latched doorbells are served. -/
def execFirmwareRestartComplete := run fun m => serveRings (restartDone m)
/-- JOURNAL_FULL (R423). -/
def execJournalFull (ses : Nat) := runIf (ses < 64) (journalFull ses)

/-! ### The service port (R535 to R537, R539, R559) -/

/-- Image bytes as SNP_READ gives, as many as a payload holds; not taken under the boot ROM. -/
def svcSnapshot (c : SvcReq) (k : Nat) (m : Mach) : Mach :=
  if m.sys.romMode then reply m c 0x11 8 [] c.offset
  else if 15 < k ∨ (lget {} m.snp.slots k).st ≠ 2 ∨ c.offset % 4 ≠ 0 ∨ 0x800000 ≤ c.offset then reply m c 0x11 2 [] c.offset
  else reply m c 0x11 0 (snapRead m k c.offset (min 1408 (0x800000 - c.offset))) c.offset

/-- A service request by its operation and payload (R539); one that no operation reads is BAD_ARG (Assumption 43). -/
def serviceRequest (c : SvcReq) (op : Nat) (p : List Byte) (m : Mach) : Mach :=
  match op, p.length with
  | 0x01, _ => svcIdent c m
  | 0x02, 5 => svcOpen c (fld p 0 1) (fld p 1 4) m
  | 0x03, _ => svcData c p m
  | 0x04, _ => svcVerify c m
  | 0x05, _ => svcWrite c m
  | 0x06, _ => svcStatus c m
  | 0x07, _ => svcAbort c m
  | 0x08, 1 => svcActivate c (fld p 0 1) m
  | 0x10, _ => svcFaults c m
  | 0x11, 1 => svcSnapshot c (fld p 0 1) m
  | _, _ => reply m c op 2 [] c.offset

/-- A service message from a client: one with a wrong MAGIC or length is discarded and counted (R537, R553). -/
def serviceMessage (client : Nat) (bs : List Byte) (m : Mach) : Mach :=
  if !serviceOk bs then badMessage m
  else serviceRequest { client, tag := fld bs 4 4, offset := fld bs 8 4 } (fld bs 2 1) (bs.drop 16) m

/-- An ARP request on SVC for the module's address is answered (R535). -/
def serviceArp (b : List Byte) (m : Mach) : Mach :=
  let own := be 4 (svcAddr m)
  if b.take 8 ≠ be 2 1 ++ be 2 0x0800 ++ [6#8, 4#8] ++ be 2 1 ∨ b.length < 28 ∨ sub b 24 4 ≠ own then m
  else
    let mac := Config.serviceMac % 2 ^ 48
    let body := be 2 1 ++ be 2 0x0800 ++ [6#8, 4#8] ++ be 2 2 ++ be 6 mac ++ own ++ sub b 8 10
    { m with upd := { m.upd with arp := ethFrame (beNat (sub b 8 6)) mac none 0x0806 body } }

/-- A frame on SVC (R535): ARP, and UDP to port 4,440 over IPv4 without options; every other frame is discarded, as is one whose
FCS fails. -/
def serviceEthernet (frame : List Byte) (m : Mach) : Mach :=
  let n := frame.length - 4
  let f := frameOf frame
  if frame.drop n ≠ fcs (frame.take n) ∨ f.tci.isSome ∨ (f.dst ≠ Config.serviceMac % 2 ^ 48 ∧ f.dst ≠ 2 ^ 48 - 1) then m
  else if f.etype = 0x0806 then serviceArp f.body m
  else if f.etype ≠ 0x0800 then m
  else match ip4Of f.body with
    | some x =>
      if x.dst ≠ be 4 (svcAddr m) ∨ x.proto ≠ 17 ∨ !udpOk x ∨ beNat (sub x.data 2 2) ≠ 4440 then m
      else serviceMessage (1 + 65536 * beNat x.src + beNat (sub x.data 0 2)) (udpBody x) m
    | none => m

/-- A frame on SVC_UART (R536): one whose CRC-32C, least significant byte first, fails is discarded and counted. -/
def serviceUart (frame : List Byte) (m : Mach) : Mach :=
  let b := unslip frame
  let n := b.length - 4
  if b.length < 4 ∨ (crc32c (b.take n)).toNat ≠ fld b n 4 then badMessage m else serviceMessage 0 (b.take n) m

/-- SERVICE_PORT_FRAME (R535, R536). -/
def serviceFrame (f : SvcFrame) : Mach → Mach :=
  match f with
  | .svc frame => serviceEthernet frame
  | .uart frame => serviceUart frame

/-- SNAPSHOT (R539). -/
def execSvcSnapshot (c : SvcReq) (slot : Nat) := serve (svcSnapshot c slot)
/-- SERVICE_PORT_FRAME (R535). -/
def execServicePortFrame (f : SvcFrame) := serve (serviceFrame f)

end Sys2Proof.Machine
end

