-- ==== Sys2Proof/Machine/Commands.lean ====
section
/-! DEFINITION. The host commands: each places its entry in its session's ring and rings the doorbell (R399, R402); the rings
are then served. What a command does once it is taken is its family's commit or answer function (`commitCmd`, `askCmd`). -/
namespace Sys2Proof.Machine

/-- A command from a port and session that exist, whose fields fit their sizes, is placed and rung. -/
def host (h : Hdr) (c : Cmd) : State → Host.Outcome State Fault Refusal :=
  runIf (decide (h.ses < 64) && decide (h.port < 2) && decide (h.hseq < 2 ^ 32) && c.fits) fun m => serveRings (hostEntry h c m)

/-! ### Sessions -/

/-- SESSION_OPEN (R430). -/
def execSessionOpen (h : Hdr) (name lease sub irqCount irqDelay : Nat) := host h (.sessionOpen name lease sub irqCount irqDelay)
/-- SESSION_CLOSE (R418). -/
def execSessionClose (h : Hdr) (target : Nat) := host h (.sessionClose target)
/-- SESSION_ATTACH (R421). -/
def execSessionAttach (h : Hdr) (key : Nat) := host h (.sessionAttach key)
/-- SUBSCRIBE (R426). -/
def execSubscribe (h : Hdr) (sub irqCount irqDelay : Nat) := host h (.subscribe sub irqCount irqDelay)
/-- PENDING_QUERY (R430). -/
def execPendingQuery (h : Hdr) (all max off : Nat) := host h (.pendingQuery all max off)
/-- IDENTITY (R430). -/
def execIdentity (h : Hdr) := host h .identity
/-- EXPERT_GRANT (R419). -/
def execExpertGrant (h : Hdr) (req lease : Nat) := host h (.expertGrant req lease)
/-- SESSION_BUDGET (R414). -/
def execSessionBudget (h : Hdr) (target cmds hare cpus : Nat) := host h (.sessionBudget target cmds hare cpus)

/-! ### Routes and banks -/

/-- TAKE (R47). -/
def execTake (h : Hdr) (rec expected : Nat) := host h (.take rec expected)
/-- SALVO (R57). -/
def execSalvo (h : Hdr) (count rsvd off expected : Nat) := host h (.salvo count rsvd off expected)
/-- ROUTE_QUERY (R60). -/
def execRouteQuery (h : Hdr) (epoch first count off : Nat) := host h (.routeQuery epoch first count off)
/-- PROTECT (R46). -/
def execProtect (h : Hdr) (first count rel : Nat) := host h (.protect first count rel)
/-- FORCE_RELEASE (R46). -/
def execForceRelease (h : Hdr) (first count : Nat) := host h (.forceRelease first count)
/-- BANK_LOAD (R61). -/
def execBankLoad (h : Hdr) (plane act count off : Nat) := host h (.bankLoad plane act count off)
/-- BANK_SWAP (R62). -/
def execBankSwap (h : Hdr) (plane : Nat) := host h (.bankSwap plane)

/-! ### Sources, destinations, generators, card messages -/

/-- SRC_MODE (R42). -/
def execSrcMode (h : Hdr) (src mode flags lossHold : Nat) := host h (.srcMode src mode flags lossHold)
/-- SRC_WARM (R44). -/
def execSrcWarm (h : Hdr) (src on : Nat) := host h (.srcWarm src on)
/-- SRC_GROUP (R92). -/
def execSrcGroup (h : Hdr) (size m0 m1 m2 m3 : Nat) := host h (.srcGroup size m0 m1 m2 m3)
/-- SRC_STATUS (R104). -/
def execSrcStatus (h : Hdr) (src : Nat) := host h (.srcStatus src)
/-- SRC_WINDOW (R78). -/
def execSrcWindow (h : Hdr) (src w qcount : Nat) := host h (.srcWindow src w qcount)
/-- DEST_BIND (R45). -/
def execDestBind (h : Hdr) (first count plane : Nat) := host h (.destBind first count plane)
/-- DEST_AUDIO (R49). -/
def execDestAudio (h : Hdr) (first count mode : Nat) := host h (.destAudio first count mode)
/-- GEN_CFG (R35). -/
def execGenCfg (h : Hdr) (gen plane pattern audio y cb cr : Nat) := host h (.genCfg gen plane pattern audio y cb cr)
/-- SVC_SEND (R433). -/
def execSvcSend (h : Hdr) (lane cls len off roff rmax timeout : Nat) := host h (.svcSend lane cls len off roff rmax timeout)

/-! ### Planes -/

/-- PLANE_CFG (R19). -/
def execPlaneCfg (h : Hdr) (plane raster scan rate phLines phSamples : Nat) := host h (.planeCfg plane raster scan rate phLines phSamples)
/-- PLANE_SWITCH (R15). -/
def execPlaneSwitch (h : Hdr) (plane line cutoff : Nat) := host h (.planeSwitch plane line cutoff)
/-- PLANE_STATUS (R431). -/
def execPlaneStatus (h : Hdr) (plane : Nat) := host h (.planeStatus plane)

/-! ### Ethernet and flows -/

/-- FLOW_DEFINE (R188). -/
def execFlowDefine (h : Hdr) (ctx op off : Nat) := host h (.flowDefine ctx op off)
/-- FLOW_PORT (R207). -/
def execFlowPort (h : Hdr) (ctx port flags : Nat) := host h (.flowPort ctx port flags)
/-- FLOW_STATUS (R218). -/
def execFlowStatus (h : Hdr) (ctx : Nat) := host h (.flowStatus ctx)
/-- FLOW_IF (R192). -/
def execFlowIf (h : Hdr) (mac off : Nat) := host h (.flowIf mac off)
/-- FLOW_CAPACITY (R218). -/
def execFlowCapacity (h : Hdr) (mac : Nat) := host h (.flowCapacity mac)
/-- FLOW_OFFSET (R197). -/
def execFlowOffset (h : Hdr) (ctx auto offset : Nat) := host h (.flowOffset ctx auto offset)
/-- ETH_PORT_SPLIT (R171). -/
def execEthPortSplit (h : Hdr) (port mode : Nat) := host h (.ethPortSplit port mode)
/-- ETH_MAC_CFG (R174). -/
def execEthMacCfg (h : Hdr) (mac addr maxFrame : Nat) := host h (.ethMacCfg mac addr maxFrame)
/-- ETH_STATUS (R184). -/
def execEthStatus (h : Hdr) (mac : Nat) := host h (.ethStatus mac)

/-! ### Compositors -/

/-- CMP_BIND (R222). -/
def execCmpBind (h : Hdr) (m plane dither audwin back : Nat) := host h (.cmpBind m plane dither audwin back)
/-- CMP_LAYOUT (R227). -/
def execCmpLayout (h : Hdr) (m count off : Nat) := host h (.cmpLayout m count off)
/-- CMP_GUARD (R235). -/
def execCmpGuard (h : Hdr) (m count off : Nat) := host h (.cmpGuard m count off)
/-- CMP_FREEZE (R240). -/
def execCmpFreeze (h : Hdr) (m win op : Nat) := host h (.cmpFreeze m win op)
/-- CMP_STATUS (R245). -/
def execCmpStatus (h : Hdr) (m off : Nat) := host h (.cmpStatus m off)
/-- CMP_COEF (R232). -/
def execCmpCoef (h : Hdr) (m set off : Nat) := host h (.cmpCoef m set off)

/-! ### Audio -/

/-- AUD_MIX (R280). -/
def execAudMix (h : Hdr) (count ramp anchor off : Nat) := host h (.audMix count ramp anchor off)
/-- AUD_GROUP (R254). -/
def execAudGroup (h : Hdr) (src mode : Nat) := host h (.audGroup src mode)
/-- AUD_OFFSET (R266). -/
def execAudOffset (h : Hdr) (dest us : Nat) := host h (.audOffset dest us)
/-- AUD_HISTORY (R269). -/
def execAudHistory (h : Hdr) (first count len : Nat) := host h (.audHistory first count len)
/-- AUD_METER (R273). -/
def execAudMeter (h : Hdr) (first count op off : Nat) := host h (.audMeter first count op off)
/-- AUD_STATUS (R282). -/
def execAudStatus (h : Hdr) (kind index : Nat) := host h (.audStatus kind index)
/-- AUD_BANK_LOAD (R275). -/
def execAudBankLoad (h : Hdr) (cluster act count off : Nat) := host h (.audBankLoad cluster act count off)
/-- AUD_BANK_SWAP (R278). -/
def execAudBankSwap (h : Hdr) (mask : Nat) := host h (.audBankSwap mask)
/-- AUD_RATE (R281). -/
def execAudRate (h : Hdr) (rate : Nat) := host h (.audRate rate)
/-- APT_CFG (R300). -/
def execAptCfg (h : Hdr) (port format nslots w m flags nout inLat outLat : Nat) := host h (.aptCfg port format nslots w m flags nout inLat outLat)
/-- APT_RING (R299). -/
def execAptRing (h : Hdr) (port n : Nat) := host h (.aptRing port n)
/-- APT_STATUS (R303). -/
def execAptStatus (h : Hdr) (port : Nat) := host h (.aptStatus port)

/-! ### Timing, device time, PTP -/

/-- TMG_REF_CFG (R342). -/
def execTmgRefCfg (h : Hdr) (cand kind prio flags num den wtr soft hard slope lossn : Nat) (delay : Int) := host h (.tmgRefCfg cand kind prio flags num den wtr soft hard slope lossn delay)
/-- TMG_LREF_BIND (R311). -/
def execTmgLrefBind (h : Hdr) (lref lane refid : Nat) := host h (.tmgLrefBind lref lane refid)
/-- TMG_SEL_CFG (R318). -/
def execTmgSelCfg (h : Hdr) (mode forced flags holdql freeql : Nat) := host h (.tmgSelCfg mode forced flags holdql freeql)
/-- TMG_APLL_CFG (R333). -/
def execTmgApllCfg (h : Hdr) (apll mint mnum mden : Nat) := host h (.tmgApllCfg apll mint mnum mden)
/-- TMG_CLKOUT_CFG (R335). -/
def execTmgClkoutCfg (h : Hdr) (out src apll level d plane flags width : Nat) (outdly : Int) := host h (.tmgClkoutCfg out src apll level d plane flags width outdly)
/-- TMG_WCLK_CFG (R339). -/
def execTmgWclkCfg (h : Hdr) (out op apll level : Nat) (outdly : Int) := host h (.tmgWclkCfg out op apll level outdly)
/-- TMG_STATUS (R343). -/
def execTmgStatus (h : Hdr) (cand : Nat) := host h (.tmgStatus cand)
/-- TMG_CLASS_MAP (R312). -/
def execTmgClassMap (h : Hdr) (off : Nat) := host h (.tmgClassMap off)
/-- TMG_LOOP_CFG (R323). -/
def execTmgLoopCfg (h : Hdr) (track acq tt w n alslew guard hwin learn : Nat) := host h (.tmgLoopCfg track acq tt w n alslew guard hwin learn)
/-- DT_STEP (R352). -/
def execDtStep (h : Hdr) (sec ns : Int) (flags : Nat) := host h (.dtStep sec ns flags)
/-- DT_CFG (R350). -/
def execDtCfg (h : Hdr) (mode steplim : Nat) := host h (.dtCfg mode steplim)
/-- DT_STATUS (R366). -/
def execDtStatus (h : Hdr) := host h .dtStatus
/-- PTP_CFG (R362). -/
def execPtpCfg (h : Hdr) (domain prio1 prio2 timesrc utc flags ident classOut : Nat) := host h (.ptpCfg domain prio1 prio2 timesrc utc flags ident classOut)
/-- PTP_PORT_CFG (R361). -/
def execPtpPortCfg (h : Hdr) (port mac flags : Nat) (logSync logAnn : Int) (annTimeout : Nat) (logDelay rxdly txdly asym : Int) := host h (.ptpPortCfg port mac flags logSync logAnn annTimeout logDelay rxdly txdly asym)
/-- DT_PIN_CFG (R360). -/
def execDtPinCfg (h : Hdr) (mode : Nat) := host h (.dtPinCfg mode)
/-- PTP_SERVO_CFG (R364). -/
def execPtpServoCfg (h : Hdr) (sbw stepThr slew : Nat) := host h (.ptpServoCfg sbw stepThr slew)

/-! ### Pair -/

/-- PAIR_STATUS (R482). -/
def execPairStatus (h : Hdr) (which off : Nat) := host h (.pairStatus which off)
/-- PAIR_CHANGEOVER (R480). -/
def execPairChangeover (h : Hdr) (plane warmMax : Nat) := host h (.pairChangeover plane warmMax)
/-- PAIR_CFG (R484). -/
def execPairCfg (h : Hdr) (demote flags plane drill warmMax : Nat) := host h (.pairCfg demote flags plane drill warmMax)
/-- PAIR_DRILL (R483). -/
def execPairDrill (h : Hdr) := host h .pairDrill
/-- PAIR_FORCE (R485). -/
def execPairForce (h : Hdr) (op : Nat) := host h (.pairForce op)

/-! ### Power and wake patterns -/

/-- PWR_STATUS (R510). -/
def execPwrStatus (h : Hdr) := host h .pwrStatus
/-- PWR_DEN (R498). -/
def execPwrDen (h : Hdr) := host h .pwrDen
/-- PWR_WAKE_PARTNER (R510). -/
def execPwrWakePartner (h : Hdr) := host h .pwrWakePartner
/-- PWR_CFG (R509). -/
def execPwrCfg (h : Hdr) (hold flags : Nat) := host h (.pwrCfg hold flags)
/-- WAKE_PATTERN (R181). -/
def execWakePattern (h : Hdr) (matcher on mac check mask : Nat) := host h (.wakePattern matcher on mac check mask)

/-! ### Faults and snapshots -/

/-- FLT_LIST (R531). -/
def execFltList (h : Hdr) (cls off : Nat) := host h (.fltList cls off)
/-- FLT_CLEAR (R522). -/
def execFltClear (h : Hdr) (src kind : Nat) := host h (.fltClear src kind)
/-- FLT_CFG (R521). -/
def execFltCfg (h : Hdr) (escn esct fnclass budget : Nat) := host h (.fltCfg escn esct fnclass budget)
/-- SNP_TRIGGER (R527). -/
def execSnpTrigger (h : Hdr) := host h .snpTrigger
/-- SNP_CFG (R527). -/
def execSnpCfg (h : Hdr) (enables sclass src kind div msec mns period : Nat) := host h (.snpCfg enables sclass src kind div msec mns period)
/-- SNP_LIST (R531). -/
def execSnpList (h : Hdr) (off : Nat) := host h (.snpList off)
/-- SNP_READ (R532). -/
def execSnpRead (h : Hdr) (slot ioff len off : Nat) := host h (.snpRead slot ioff len off)
/-- SNP_HOLD (R529). -/
def execSnpHold (h : Hdr) (slot hold : Nat) := host h (.snpHold slot hold)
/-- FLT_INJECT (R532). -/
def execFltInject (h : Hdr) (msg : Nat) := host h (.fltInject msg)

/-! ### Update -/

/-- UPD_STATUS (R552). -/
def execUpdStatus (h : Hdr) := host h .updStatus
/-- UPD_ACTIVATE (R544). -/
def execUpdActivate (h : Hdr) (slot : Nat) := host h (.updActivate slot)
/-- UPD_CONFIRM (R544). -/
def execUpdConfirm (h : Hdr) := host h .updConfirm
/-- UPD_RESTART (R548). -/
def execUpdRestart (h : Hdr) := host h .updRestart
/-- UPD_SVC_CFG (R552). -/
def execUpdSvcCfg (h : Hdr) (on : Nat) := host h (.updSvcCfg on)
/-- UPD_FUSE (R545). -/
def execUpdFuse (h : Hdr) := host h .updFuse

/-! ### Expert and diagnostics -/

/-- LANE_STATUS (R165). -/
def execLaneStatus (h : Hdr) (lane : Nat) := host h (.laneStatus lane)
/-- EYE_SCAN (R161). -/
def execEyeScan (h : Hdr) (lane eye k sp sv thr off : Nat) := host h (.eyeScan lane eye k sp sv thr off)
/-- LANE_LOOP (R158). -/
def execLaneLoop (h : Hdr) (lane mode flags : Nat) := host h (.laneLoop lane mode flags)
/-- LANE_PRBS (R160). -/
def execLanePrbs (h : Hdr) (lane pattern on rate : Nat) := host h (.lanePrbs lane pattern on rate)
/-- LANE_EQ_SET (R166). -/
def execLaneEqSet (h : Hdr) (lane set flags vals : Nat) := host h (.laneEqSet lane set flags vals)
/-- MEM_STATUS (R389). -/
def execMemStatus (h : Hdr) (pc : Nat) := host h (.memStatus pc)
/-- MEM_REARM (R382). -/
def execMemRearm (h : Hdr) (pc : Nat) := host h (.memRearm pc)
/-- MEM_PORT_CFG (R376). -/
def execMemPortCfg (h : Hdr) (port budget : Nat) := host h (.memPortCfg port budget)
/-- MEM_FREEZE (R383). -/
def execMemFreeze (h : Hdr) (pc op off : Nat) := host h (.memFreeze pc op off)
/-- MEM_CAL_SAVE (R385). -/
def execMemCalSave (h : Hdr) (mask : Nat) := host h (.memCalSave mask)
/-- CAL_READ (R569). -/
def execCalRead (h : Hdr) (sect off : Nat) := host h (.calRead sect off)
/-- CAL_WRITE (R562). -/
def execCalWrite (h : Hdr) (sect off : Nat) := host h (.calWrite sect off)

end Sys2Proof.Machine
end

