-- ==== Sys2Proof/Machine/Dispatch.lean ====
section
/-! DEFINITION. One arm per command: each is one call of that command's meaning. -/
namespace Sys2Proof.Machine

/-- What a command does to everything but the queue. -/
def exec (i : Instr) (s : State) : Host.Outcome State Fault Refusal :=
  match i with
  | .take h rec expected => Sys2Proof.Machine.execTake h rec expected s
  | .salvo h count rsvd off expected => Sys2Proof.Machine.execSalvo h count rsvd off expected s
  | .routeQuery h epoch first count off => Sys2Proof.Machine.execRouteQuery h epoch first count off s
  | .protect h first count rel => Sys2Proof.Machine.execProtect h first count rel s
  | .forceRelease h first count => Sys2Proof.Machine.execForceRelease h first count s
  | .bankLoad h plane act count off => Sys2Proof.Machine.execBankLoad h plane act count off s
  | .bankSwap h plane => Sys2Proof.Machine.execBankSwap h plane s
  | .srcMode h src mode flags lossHold => Sys2Proof.Machine.execSrcMode h src mode flags lossHold s
  | .srcWarm h src on => Sys2Proof.Machine.execSrcWarm h src on s
  | .srcGroup h size m0 m1 m2 m3 => Sys2Proof.Machine.execSrcGroup h size m0 m1 m2 m3 s
  | .srcStatus h src => Sys2Proof.Machine.execSrcStatus h src s
  | .srcWindow h src w qcount => Sys2Proof.Machine.execSrcWindow h src w qcount s
  | .destBind h first count plane => Sys2Proof.Machine.execDestBind h first count plane s
  | .destAudio h first count mode => Sys2Proof.Machine.execDestAudio h first count mode s
  | .genCfg h gen plane pattern audio y cb cr => Sys2Proof.Machine.execGenCfg h gen plane pattern audio y cb cr s
  | .svcSend h lane cls len off roff rmax timeout => Sys2Proof.Machine.execSvcSend h lane cls len off roff rmax timeout s
  | .planeCfg h plane raster scan rate phLines phSamples => Sys2Proof.Machine.execPlaneCfg h plane raster scan rate phLines phSamples s
  | .planeSwitch h plane line cutoff => Sys2Proof.Machine.execPlaneSwitch h plane line cutoff s
  | .planeStatus h plane => Sys2Proof.Machine.execPlaneStatus h plane s
  | .laneStatus h lane => Sys2Proof.Machine.execLaneStatus h lane s
  | .eyeScan h lane eye k sp sv thr off => Sys2Proof.Machine.execEyeScan h lane eye k sp sv thr off s
  | .laneLoop h lane mode flags => Sys2Proof.Machine.execLaneLoop h lane mode flags s
  | .lanePrbs h lane pattern on rate => Sys2Proof.Machine.execLanePrbs h lane pattern on rate s
  | .laneEqSet h lane set flags vals => Sys2Proof.Machine.execLaneEqSet h lane set flags vals s
  | .ethPortSplit h port mode => Sys2Proof.Machine.execEthPortSplit h port mode s
  | .ethMacCfg h mac addr maxFrame => Sys2Proof.Machine.execEthMacCfg h mac addr maxFrame s
  | .ethStatus h mac => Sys2Proof.Machine.execEthStatus h mac s
  | .wakePattern h matcher on mac check mask => Sys2Proof.Machine.execWakePattern h matcher on mac check mask s
  | .flowDefine h ctx op off => Sys2Proof.Machine.execFlowDefine h ctx op off s
  | .flowPort h ctx port flags => Sys2Proof.Machine.execFlowPort h ctx port flags s
  | .flowStatus h ctx => Sys2Proof.Machine.execFlowStatus h ctx s
  | .flowIf h mac off => Sys2Proof.Machine.execFlowIf h mac off s
  | .flowCapacity h mac => Sys2Proof.Machine.execFlowCapacity h mac s
  | .flowOffset h ctx auto offset => Sys2Proof.Machine.execFlowOffset h ctx auto offset s
  | .cmpBind h m plane dither audwin back => Sys2Proof.Machine.execCmpBind h m plane dither audwin back s
  | .cmpLayout h m count off => Sys2Proof.Machine.execCmpLayout h m count off s
  | .cmpGuard h m count off => Sys2Proof.Machine.execCmpGuard h m count off s
  | .cmpFreeze h m win op => Sys2Proof.Machine.execCmpFreeze h m win op s
  | .cmpStatus h m off => Sys2Proof.Machine.execCmpStatus h m off s
  | .cmpCoef h m set off => Sys2Proof.Machine.execCmpCoef h m set off s
  | .audMix h count ramp anchor off => Sys2Proof.Machine.execAudMix h count ramp anchor off s
  | .audGroup h src mode => Sys2Proof.Machine.execAudGroup h src mode s
  | .audOffset h dest us => Sys2Proof.Machine.execAudOffset h dest us s
  | .audHistory h first count len => Sys2Proof.Machine.execAudHistory h first count len s
  | .audMeter h first count op off => Sys2Proof.Machine.execAudMeter h first count op off s
  | .audStatus h kind index => Sys2Proof.Machine.execAudStatus h kind index s
  | .audBankLoad h cluster act count off => Sys2Proof.Machine.execAudBankLoad h cluster act count off s
  | .audBankSwap h mask => Sys2Proof.Machine.execAudBankSwap h mask s
  | .audRate h rate => Sys2Proof.Machine.execAudRate h rate s
  | .aptCfg h port format nslots w m flags nout inLat outLat => Sys2Proof.Machine.execAptCfg h port format nslots w m flags nout inLat outLat s
  | .aptRing h port n => Sys2Proof.Machine.execAptRing h port n s
  | .aptStatus h port => Sys2Proof.Machine.execAptStatus h port s
  | .tmgRefCfg h cand kind prio flags num den wtr soft hard slope lossn delay => Sys2Proof.Machine.execTmgRefCfg h cand kind prio flags num den wtr soft hard slope lossn delay s
  | .tmgLrefBind h lref lane refid => Sys2Proof.Machine.execTmgLrefBind h lref lane refid s
  | .tmgSelCfg h mode forced flags holdql freeql => Sys2Proof.Machine.execTmgSelCfg h mode forced flags holdql freeql s
  | .tmgApllCfg h apll mint mnum mden => Sys2Proof.Machine.execTmgApllCfg h apll mint mnum mden s
  | .tmgClkoutCfg h out src apll level d plane flags width outdly => Sys2Proof.Machine.execTmgClkoutCfg h out src apll level d plane flags width outdly s
  | .tmgWclkCfg h out op apll level outdly => Sys2Proof.Machine.execTmgWclkCfg h out op apll level outdly s
  | .tmgStatus h cand => Sys2Proof.Machine.execTmgStatus h cand s
  | .tmgClassMap h off => Sys2Proof.Machine.execTmgClassMap h off s
  | .tmgLoopCfg h track acq tt w n alslew guard hwin learn => Sys2Proof.Machine.execTmgLoopCfg h track acq tt w n alslew guard hwin learn s
  | .dtStep h sec ns flags => Sys2Proof.Machine.execDtStep h sec ns flags s
  | .dtCfg h mode steplim => Sys2Proof.Machine.execDtCfg h mode steplim s
  | .dtStatus h => Sys2Proof.Machine.execDtStatus h s
  | .ptpCfg h domain prio1 prio2 timesrc utc flags ident classOut => Sys2Proof.Machine.execPtpCfg h domain prio1 prio2 timesrc utc flags ident classOut s
  | .ptpPortCfg h port mac flags logSync logAnn annTimeout logDelay rxdly txdly asym => Sys2Proof.Machine.execPtpPortCfg h port mac flags logSync logAnn annTimeout logDelay rxdly txdly asym s
  | .dtPinCfg h mode => Sys2Proof.Machine.execDtPinCfg h mode s
  | .ptpServoCfg h sbw stepThr slew => Sys2Proof.Machine.execPtpServoCfg h sbw stepThr slew s
  | .memStatus h pc => Sys2Proof.Machine.execMemStatus h pc s
  | .memRearm h pc => Sys2Proof.Machine.execMemRearm h pc s
  | .memPortCfg h port budget => Sys2Proof.Machine.execMemPortCfg h port budget s
  | .memFreeze h pc op off => Sys2Proof.Machine.execMemFreeze h pc op off s
  | .memCalSave h mask => Sys2Proof.Machine.execMemCalSave h mask s
  | .sessionOpen h name lease sub irqCount irqDelay => Sys2Proof.Machine.execSessionOpen h name lease sub irqCount irqDelay s
  | .sessionClose h target => Sys2Proof.Machine.execSessionClose h target s
  | .sessionAttach h key => Sys2Proof.Machine.execSessionAttach h key s
  | .subscribe h sub irqCount irqDelay => Sys2Proof.Machine.execSubscribe h sub irqCount irqDelay s
  | .pendingQuery h all max off => Sys2Proof.Machine.execPendingQuery h all max off s
  | .identity h => Sys2Proof.Machine.execIdentity h s
  | .expertGrant h req lease => Sys2Proof.Machine.execExpertGrant h req lease s
  | .sessionBudget h target cmds hare cpus => Sys2Proof.Machine.execSessionBudget h target cmds hare cpus s
  | .pairStatus h which off => Sys2Proof.Machine.execPairStatus h which off s
  | .pairChangeover h plane warmMax => Sys2Proof.Machine.execPairChangeover h plane warmMax s
  | .pairCfg h demote flags plane drill warmMax => Sys2Proof.Machine.execPairCfg h demote flags plane drill warmMax s
  | .pairDrill h => Sys2Proof.Machine.execPairDrill h s
  | .pairForce h op => Sys2Proof.Machine.execPairForce h op s
  | .pwrStatus h => Sys2Proof.Machine.execPwrStatus h s
  | .pwrDen h => Sys2Proof.Machine.execPwrDen h s
  | .pwrWakePartner h => Sys2Proof.Machine.execPwrWakePartner h s
  | .pwrCfg h hold flags => Sys2Proof.Machine.execPwrCfg h hold flags s
  | .fltList h cls off => Sys2Proof.Machine.execFltList h cls off s
  | .fltClear h src kind => Sys2Proof.Machine.execFltClear h src kind s
  | .fltCfg h escn esct fnclass budget => Sys2Proof.Machine.execFltCfg h escn esct fnclass budget s
  | .snpTrigger h => Sys2Proof.Machine.execSnpTrigger h s
  | .snpCfg h enables sclass src kind div msec mns period => Sys2Proof.Machine.execSnpCfg h enables sclass src kind div msec mns period s
  | .snpList h off => Sys2Proof.Machine.execSnpList h off s
  | .snpRead h slot ioff len off => Sys2Proof.Machine.execSnpRead h slot ioff len off s
  | .snpHold h slot hold => Sys2Proof.Machine.execSnpHold h slot hold s
  | .fltInject h msg => Sys2Proof.Machine.execFltInject h msg s
  | .updStatus h => Sys2Proof.Machine.execUpdStatus h s
  | .updActivate h slot => Sys2Proof.Machine.execUpdActivate h slot s
  | .updConfirm h => Sys2Proof.Machine.execUpdConfirm h s
  | .updRestart h => Sys2Proof.Machine.execUpdRestart h s
  | .updSvcCfg h on => Sys2Proof.Machine.execUpdSvcCfg h on s
  | .updFuse h => Sys2Proof.Machine.execUpdFuse h s
  | .calRead h sect off => Sys2Proof.Machine.execCalRead h sect off s
  | .calWrite h sect off => Sys2Proof.Machine.execCalWrite h sect off s
  | .svcIdent c => Sys2Proof.Machine.execSvcIdent c s
  | .svcOpen c slot len => Sys2Proof.Machine.execSvcOpen c slot len s
  | .svcData c data => Sys2Proof.Machine.execSvcData c data s
  | .svcVerify c => Sys2Proof.Machine.execSvcVerify c s
  | .svcWrite c => Sys2Proof.Machine.execSvcWrite c s
  | .svcStatus c => Sys2Proof.Machine.execSvcStatus c s
  | .svcAbort c => Sys2Proof.Machine.execSvcAbort c s
  | .svcActivate c slot => Sys2Proof.Machine.execSvcActivate c slot s
  | .svcFaults c => Sys2Proof.Machine.execSvcFaults c s
  | .svcSnapshot c slot => Sys2Proof.Machine.execSvcSnapshot c slot s
  | .mbxCmdTailWrite port ses tail => Sys2Proof.Machine.execMbxCmdTailWrite port ses tail s
  | .mbxHareTailWrite port ses tail => Sys2Proof.Machine.execMbxHareTailWrite port ses tail s
  | .mbxRespHeadWrite port ses head => Sys2Proof.Machine.execMbxRespHeadWrite port ses head s
  | .mbxEvtHeadWrite port ses head => Sys2Proof.Machine.execMbxEvtHeadWrite port ses head s
  | .mbxAllocReqGo port => Sys2Proof.Machine.execMbxAllocReqGo port s
  | .sysRemapWrite master value => Sys2Proof.Machine.execSysRemapWrite master value s
  | .busAccWrite master target value => Sys2Proof.Machine.execBusAccWrite master target value s
  | .busLockWrite master value => Sys2Proof.Machine.execBusLockWrite master value s
  | .busErrInfoClear master value => Sys2Proof.Machine.execBusErrInfoClear master value s
  | .dtStatJumpClear master value => Sys2Proof.Machine.execDtStatJumpClear master value s
  | .rcCounterRead master addr => Sys2Proof.Machine.execRcCounterRead master addr s
  | .latchingRead master addr => Sys2Proof.Machine.execLatchingRead master addr s
  | .registerWrite master addr value => Sys2Proof.Machine.execRegisterWrite master addr value s
  | .defaultTargetAccess master addr write value => Sys2Proof.Machine.execDefaultTargetAccess master addr write value s
  | .busTargetTimeout master addr write => Sys2Proof.Machine.execBusTargetTimeout master addr write s
  | .bmcI2cAccess dev addr write => Sys2Proof.Machine.execBmcI2cAccess dev addr write s
  | .hostLinkDown port => Sys2Proof.Machine.execHostLinkDown port s
  | .changeSetCommit => Sys2Proof.Machine.execChangeSetCommit s
  | .budgetTick => Sys2Proof.Machine.execBudgetTick s
  | .planeCutoff plane => Sys2Proof.Machine.execPlaneCutoff plane s
  | .stagingComplete plane us => Sys2Proof.Machine.execStagingComplete plane us s
  | .planeSwitchPoint plane => Sys2Proof.Machine.execPlaneSwitchPoint plane s
  | .catchUpCopyComplete plane => Sys2Proof.Machine.execCatchUpCopyComplete plane s
  | .routeOnAir plane => Sys2Proof.Machine.execRouteOnAir plane s
  | .frameBufferReturn src plane => Sys2Proof.Machine.execFrameBufferReturn src plane s
  | .outputRelease dest line late => Sys2Proof.Machine.execOutputRelease dest line late s
  | .isLineArrival src content => Sys2Proof.Machine.execIsLineArrival src content s
  | .isFrameComplete src shape => Sys2Proof.Machine.execIsFrameComplete src shape s
  | .isReadDecision feed => Sys2Proof.Machine.execIsReadDecision feed s
  | .isSourceLost src => Sys2Proof.Machine.execIsSourceLost src s
  | .wlFrameReceive lane f => Sys2Proof.Machine.execWlFrameReceive lane f s
  | .wlBlockReceive lane block => Sys2Proof.Machine.execWlBlockReceive lane block s
  | .wlPositionTransmit lane at_ => Sys2Proof.Machine.execWlPositionTransmit lane at_ s
  | .wlBlockRelease lane => Sys2Proof.Machine.execWlBlockRelease lane s
  | .wlSlotIdle lane slot => Sys2Proof.Machine.execWlSlotIdle lane slot s
  | .wlLaneDown lane => Sys2Proof.Machine.execWlLaneDown lane s
  | .wlModeTryTimeout lane => Sys2Proof.Machine.execWlModeTryTimeout lane s
  | .laneReady lane => Sys2Proof.Machine.execLaneReady lane s
  | .laneLock lane => Sys2Proof.Machine.execLaneLock lane s
  | .laneLockLoss lane sig => Sys2Proof.Machine.execLaneLockLoss lane sig s
  | .laneRateChangeDone lane => Sys2Proof.Machine.execLaneRateChangeDone lane s
  | .eyeScanComplete lane counts => Sys2Proof.Machine.execEyeScanComplete lane counts s
  | .ethFrameReceive mac frame pcsErr m => Sys2Proof.Machine.execEthFrameReceive mac frame pcsErr m s
  | .ethLinkChange mac up align lfault rfault => Sys2Proof.Machine.execEthLinkChange mac up align lfault rfault s
  | .ethPacketRelease mac complete => Sys2Proof.Machine.execEthPacketRelease mac complete s
  | .flowLineRelease ctx ts line => Sys2Proof.Machine.execFlowLineRelease ctx ts line s
  | .flowAudioRelease ctx => Sys2Proof.Machine.execFlowAudioRelease ctx s
  | .flowLatenessCheck ctx => Sys2Proof.Machine.execFlowLatenessCheck ctx s
  | .protectionPathLost ctx => Sys2Proof.Machine.execProtectionPathLost ctx s
  | .flowSwapRelease port => Sys2Proof.Machine.execFlowSwapRelease port s
  | .stateChangeReportRepeat mac group => Sys2Proof.Machine.execStateChangeReportRepeat mac group s
  | .queryResponse mac => Sys2Proof.Machine.execQueryResponse mac s
  | .nextHopRefresh mac => Sys2Proof.Machine.execNextHopRefresh mac s
  | .cmpLayoutInstant m lateLines => Sys2Proof.Machine.execCmpLayoutInstant m lateLines s
  | .compositorShed => Sys2Proof.Machine.execCompositorShed s
  | .compositorRestore => Sys2Proof.Machine.execCompositorRestore s
  | .metersShed => Sys2Proof.Machine.execMetersShed s
  | .audioInputFrame group => Sys2Proof.Machine.execAudioInputFrame group s
  | .audioBlock => Sys2Proof.Machine.execAudioBlock s
  | .audioOutputSample chan index => Sys2Proof.Machine.execAudioOutputSample chan index s
  | .audBankWhole cluster => Sys2Proof.Machine.execAudBankWhole cluster s
  | .aptFsyncEdge port bclks slots => Sys2Proof.Machine.execAptFsyncEdge port bclks slots s
  | .aptClockLost port => Sys2Proof.Machine.execAptClockLost port s
  | .refEvent cand at_ phase => Sys2Proof.Machine.execRefEvent cand at_ phase s
  | .qlMessage cand bytes gap => Sys2Proof.Machine.execQlMessage cand bytes gap s
  | .qlTimeout cand => Sys2Proof.Machine.execQlTimeout cand s
  | .candidateMeasurement cand events => Sys2Proof.Machine.execCandidateMeasurement cand events s
  | .candidateAbsent cand => Sys2Proof.Machine.execCandidateAbsent cand s
  | .selectorEvaluation => Sys2Proof.Machine.execSelectorEvaluation s
  | .transitionEnd => Sys2Proof.Machine.execTransitionEnd s
  | .dpllPhaseCycle err => Sys2Proof.Machine.execDpllPhaseCycle err s
  | .holdoverSample temp => Sys2Proof.Machine.execHoldoverSample temp s
  | .apllLock apll => Sys2Proof.Machine.execApllLock apll s
  | .apllBypass apll => Sys2Proof.Machine.execApllBypass apll s
  | .apllBypassReturn apll => Sys2Proof.Machine.execApllBypassReturn apll s
  | .clkoutGrantEnable out => Sys2Proof.Machine.execClkoutGrantEnable out s
  | .dtTick n => Sys2Proof.Machine.execDtTick n s
  | .dtStepApply => Sys2Proof.Machine.execDtStepApply s
  | .dtMatch unit => Sys2Proof.Machine.execDtMatch unit s
  | .snapTrigEdge high => Sys2Proof.Machine.execSnapTrigEdge high s
  | .ptpMessageSend port kind m => Sys2Proof.Machine.execPtpMessageSend port kind m s
  | .announceReceiptTimeout port => Sys2Proof.Machine.execAnnounceReceiptTimeout port s
  | .memParityAlert pc => Sys2Proof.Machine.execMemParityAlert pc s
  | .memRemap pc => Sys2Proof.Machine.execMemRemap pc s
  | .memPoisonedRead pc port addr use => Sys2Proof.Machine.execMemPoisonedRead pc port addr use s
  | .patrolScrub pc addr outcome => Sys2Proof.Machine.execPatrolScrub pc addr outcome s
  | .memRefresh stack temp postpone => Sys2Proof.Machine.execMemRefresh stack temp postpone s
  | .memFreezeTimeout pc => Sys2Proof.Machine.execMemFreezeTimeout pc s
  | .leaseExpiry ses => Sys2Proof.Machine.execLeaseExpiry ses s
  | .sessionOpeningTimeout ses => Sys2Proof.Machine.execSessionOpeningTimeout ses s
  | .expertGrantExpiry ses => Sys2Proof.Machine.execExpertGrantExpiry ses s
  | .irqDelayExpiry ses => Sys2Proof.Machine.execIrqDelayExpiry ses s
  | .watchdogExpiry processor => Sys2Proof.Machine.execWatchdogExpiry processor s
  | .firmwareRestartComplete => Sys2Proof.Machine.execFirmwareRestartComplete s
  | .journalFull ses => Sys2Proof.Machine.execJournalFull ses s
  | .heartbeatSend => Sys2Proof.Machine.execHeartbeatSend s
  | .xlBlockReceive bundle m => Sys2Proof.Machine.execXlBlockReceive bundle m s
  | .heartbeatPulseIn width => Sys2Proof.Machine.execHeartbeatPulseIn width s
  | .heartbeatMiss path => Sys2Proof.Machine.execHeartbeatMiss path s
  | .echoConfirmTimeout => Sys2Proof.Machine.execEchoConfirmTimeout s
  | .saveSendComplete k => Sys2Proof.Machine.execSaveSendComplete k s
  | .saveApply k ok => Sys2Proof.Machine.execSaveApply k ok s
  | .journalAckTimeout jseq => Sys2Proof.Machine.execJournalAckTimeout jseq s
  | .healthReportSend => Sys2Proof.Machine.execHealthReportSend s
  | .changeoverReady => Sys2Proof.Machine.execChangeoverReady s
  | .changeoverQuiesce => Sys2Proof.Machine.execChangeoverQuiesce s
  | .changeoverSwap => Sys2Proof.Machine.execChangeoverSwap s
  | .changeoverAbandon => Sys2Proof.Machine.execChangeoverAbandon s
  | .drillTimer => Sys2Proof.Machine.execDrillTimer s
  | .drillComplete failing => Sys2Proof.Machine.execDrillComplete failing s
  | .wakeEvent cause => Sys2Proof.Machine.execWakeEvent cause s
  | .denPhaseEnd => Sys2Proof.Machine.execDenPhaseEnd s
  | .wakeStepReady bad => Sys2Proof.Machine.execWakeStepReady bad s
  | .wakeStepTimeout => Sys2Proof.Machine.execWakeStepTimeout s
  | .shadowholdExpiry => Sys2Proof.Machine.execShadowholdExpiry s
  | .brownOut => Sys2Proof.Machine.execBrownOut s
  | .supplyOutOfRange rail mv => Sys2Proof.Machine.execSupplyOutOfRange rail mv s
  | .reseedComplete => Sys2Proof.Machine.execReseedComplete s
  | .powerOnReset cause => Sys2Proof.Machine.execPowerOnReset cause s
  | .bootPhaseEnd find => Sys2Proof.Machine.execBootPhaseEnd find s
  | .bootPhaseOverrun => Sys2Proof.Machine.execBootPhaseOverrun s
  | .pairDecision => Sys2Proof.Machine.execPairDecision s
  | .faultMessage msg ended => Sys2Proof.Machine.execFaultMessage msg ended s
  | .faultRecordExpiry src kind => Sys2Proof.Machine.execFaultRecordExpiry src kind s
  | .thermalPoll caseTemp junctions => Sys2Proof.Machine.execThermalPoll caseTemp junctions s
  | .snapshotCopyComplete => Sys2Proof.Machine.execSnapshotCopyComplete s
  | .serviceTransferAbandoned => Sys2Proof.Machine.execServiceTransferAbandoned s
  | .svcSendTimeout ses hseq => Sys2Proof.Machine.execSvcSendTimeout ses hseq s
  | .changeoverDenEntry => Sys2Proof.Machine.execChangeoverDenEntry s
  | .imageVerifyComplete => Sys2Proof.Machine.execImageVerifyComplete s
  | .flashWriteComplete dev mismatch => Sys2Proof.Machine.execFlashWriteComplete dev mismatch s
  | .servicePortFrame f => Sys2Proof.Machine.execServicePortFrame f s

end Sys2Proof.Machine
end

