-- ==== Sys2Proof/WellFormed.lean ====
section
/-! DEFINITION. Well-formed commands: the unit that a command names exists, and its fields fit the sizes that their table
gives them. A command that is not well-formed can neither be spelled nor happen (R1, R402, R516). -/
namespace Sys2Proof
open Sys2Proof.Machine

/-- The session, port and HSEQ that a host command comes with exist (R397, R402). -/
def Machine.Hdr.ok (h : Hdr) : Bool := decide (h.ses < 64) && decide (h.port < 2) && decide (h.hseq < 2 ^ 32)

/-- The host command that a constructor stands for, with its header; none for an event. -/
def Instr.host? : Instr → Option (Hdr × Cmd)
  | .take h rec expected => some (h, .take rec expected)
  | .salvo h count rsvd off expected => some (h, .salvo count rsvd off expected)
  | .routeQuery h epoch first count off => some (h, .routeQuery epoch first count off)
  | .protect h first count rel => some (h, .protect first count rel)
  | .forceRelease h first count => some (h, .forceRelease first count)
  | .bankLoad h plane act count off => some (h, .bankLoad plane act count off)
  | .bankSwap h plane => some (h, .bankSwap plane)
  | .srcMode h src mode flags lossHold => some (h, .srcMode src mode flags lossHold)
  | .srcWarm h src on => some (h, .srcWarm src on)
  | .srcGroup h size m0 m1 m2 m3 => some (h, .srcGroup size m0 m1 m2 m3)
  | .srcStatus h src => some (h, .srcStatus src)
  | .srcWindow h src w qcount => some (h, .srcWindow src w qcount)
  | .destBind h first count plane => some (h, .destBind first count plane)
  | .destAudio h first count mode => some (h, .destAudio first count mode)
  | .genCfg h gen plane pattern audio y cb cr => some (h, .genCfg gen plane pattern audio y cb cr)
  | .svcSend h lane cls len off roff rmax timeout => some (h, .svcSend lane cls len off roff rmax timeout)
  | .planeCfg h plane raster scan rate phLines phSamples => some (h, .planeCfg plane raster scan rate phLines phSamples)
  | .planeSwitch h plane line cutoff => some (h, .planeSwitch plane line cutoff)
  | .planeStatus h plane => some (h, .planeStatus plane)
  | .laneStatus h lane => some (h, .laneStatus lane)
  | .eyeScan h lane eye k sp sv thr off => some (h, .eyeScan lane eye k sp sv thr off)
  | .laneLoop h lane mode flags => some (h, .laneLoop lane mode flags)
  | .lanePrbs h lane pattern on rate => some (h, .lanePrbs lane pattern on rate)
  | .laneEqSet h lane set flags vals => some (h, .laneEqSet lane set flags vals)
  | .ethPortSplit h port mode => some (h, .ethPortSplit port mode)
  | .ethMacCfg h mac addr maxFrame => some (h, .ethMacCfg mac addr maxFrame)
  | .ethStatus h mac => some (h, .ethStatus mac)
  | .wakePattern h matcher on mac check mask => some (h, .wakePattern matcher on mac check mask)
  | .flowDefine h ctx op off => some (h, .flowDefine ctx op off)
  | .flowPort h ctx port flags => some (h, .flowPort ctx port flags)
  | .flowStatus h ctx => some (h, .flowStatus ctx)
  | .flowIf h mac off => some (h, .flowIf mac off)
  | .flowCapacity h mac => some (h, .flowCapacity mac)
  | .flowOffset h ctx auto offset => some (h, .flowOffset ctx auto offset)
  | .cmpBind h m plane dither audwin back => some (h, .cmpBind m plane dither audwin back)
  | .cmpLayout h m count off => some (h, .cmpLayout m count off)
  | .cmpGuard h m count off => some (h, .cmpGuard m count off)
  | .cmpFreeze h m win op => some (h, .cmpFreeze m win op)
  | .cmpStatus h m off => some (h, .cmpStatus m off)
  | .cmpCoef h m set off => some (h, .cmpCoef m set off)
  | .audMix h count ramp anchor off => some (h, .audMix count ramp anchor off)
  | .audGroup h src mode => some (h, .audGroup src mode)
  | .audOffset h dest us => some (h, .audOffset dest us)
  | .audHistory h first count len => some (h, .audHistory first count len)
  | .audMeter h first count op off => some (h, .audMeter first count op off)
  | .audStatus h kind index => some (h, .audStatus kind index)
  | .audBankLoad h cluster act count off => some (h, .audBankLoad cluster act count off)
  | .audBankSwap h mask => some (h, .audBankSwap mask)
  | .audRate h rate => some (h, .audRate rate)
  | .aptCfg h port format nslots w m flags nout inLat outLat => some (h, .aptCfg port format nslots w m flags nout inLat outLat)
  | .aptRing h port n => some (h, .aptRing port n)
  | .aptStatus h port => some (h, .aptStatus port)
  | .tmgRefCfg h cand kind prio flags num den wtr soft hard slope lossn delay => some (h, .tmgRefCfg cand kind prio flags num den wtr soft hard slope lossn delay)
  | .tmgLrefBind h lref lane refid => some (h, .tmgLrefBind lref lane refid)
  | .tmgSelCfg h mode forced flags holdql freeql => some (h, .tmgSelCfg mode forced flags holdql freeql)
  | .tmgApllCfg h apll mint mnum mden => some (h, .tmgApllCfg apll mint mnum mden)
  | .tmgClkoutCfg h out src apll level d plane flags width outdly => some (h, .tmgClkoutCfg out src apll level d plane flags width outdly)
  | .tmgWclkCfg h out op apll level outdly => some (h, .tmgWclkCfg out op apll level outdly)
  | .tmgStatus h cand => some (h, .tmgStatus cand)
  | .tmgClassMap h off => some (h, .tmgClassMap off)
  | .tmgLoopCfg h track acq tt w n alslew guard hwin learn => some (h, .tmgLoopCfg track acq tt w n alslew guard hwin learn)
  | .dtStep h sec ns flags => some (h, .dtStep sec ns flags)
  | .dtCfg h mode steplim => some (h, .dtCfg mode steplim)
  | .dtStatus h => some (h, .dtStatus)
  | .ptpCfg h domain prio1 prio2 timesrc utc flags ident classOut => some (h, .ptpCfg domain prio1 prio2 timesrc utc flags ident classOut)
  | .ptpPortCfg h port mac flags logSync logAnn annTimeout logDelay rxdly txdly asym => some (h, .ptpPortCfg port mac flags logSync logAnn annTimeout logDelay rxdly txdly asym)
  | .dtPinCfg h mode => some (h, .dtPinCfg mode)
  | .ptpServoCfg h sbw stepThr slew => some (h, .ptpServoCfg sbw stepThr slew)
  | .memStatus h pc => some (h, .memStatus pc)
  | .memRearm h pc => some (h, .memRearm pc)
  | .memPortCfg h port budget => some (h, .memPortCfg port budget)
  | .memFreeze h pc op off => some (h, .memFreeze pc op off)
  | .memCalSave h mask => some (h, .memCalSave mask)
  | .sessionOpen h name lease sub irqCount irqDelay => some (h, .sessionOpen name lease sub irqCount irqDelay)
  | .sessionClose h target => some (h, .sessionClose target)
  | .sessionAttach h key => some (h, .sessionAttach key)
  | .subscribe h sub irqCount irqDelay => some (h, .subscribe sub irqCount irqDelay)
  | .pendingQuery h all max off => some (h, .pendingQuery all max off)
  | .identity h => some (h, .identity)
  | .expertGrant h req lease => some (h, .expertGrant req lease)
  | .sessionBudget h target cmds hare cpus => some (h, .sessionBudget target cmds hare cpus)
  | .pairStatus h which off => some (h, .pairStatus which off)
  | .pairChangeover h plane warmMax => some (h, .pairChangeover plane warmMax)
  | .pairCfg h demote flags plane drill warmMax => some (h, .pairCfg demote flags plane drill warmMax)
  | .pairDrill h => some (h, .pairDrill)
  | .pairForce h op => some (h, .pairForce op)
  | .pwrStatus h => some (h, .pwrStatus)
  | .pwrDen h => some (h, .pwrDen)
  | .pwrWakePartner h => some (h, .pwrWakePartner)
  | .pwrCfg h hold flags => some (h, .pwrCfg hold flags)
  | .fltList h cls off => some (h, .fltList cls off)
  | .fltClear h src kind => some (h, .fltClear src kind)
  | .fltCfg h escn esct fnclass budget => some (h, .fltCfg escn esct fnclass budget)
  | .snpTrigger h => some (h, .snpTrigger)
  | .snpCfg h enables sclass src kind div msec mns period => some (h, .snpCfg enables sclass src kind div msec mns period)
  | .snpList h off => some (h, .snpList off)
  | .snpRead h slot ioff len off => some (h, .snpRead slot ioff len off)
  | .snpHold h slot hold => some (h, .snpHold slot hold)
  | .fltInject h msg => some (h, .fltInject msg)
  | .updStatus h => some (h, .updStatus)
  | .updActivate h slot => some (h, .updActivate slot)
  | .updConfirm h => some (h, .updConfirm)
  | .updRestart h => some (h, .updRestart)
  | .updSvcCfg h on => some (h, .updSvcCfg on)
  | .updFuse h => some (h, .updFuse)
  | .calRead h sect off => some (h, .calRead sect off)
  | .calWrite h sect off => some (h, .calWrite sect off)
  | .svcIdent .. | .svcOpen .. | .svcData .. | .svcVerify .. | .svcWrite .. | .svcStatus .. | .svcAbort .. | .svcActivate ..
  | .svcFaults .. | .svcSnapshot .. | .mbxCmdTailWrite .. | .mbxHareTailWrite .. | .mbxRespHeadWrite ..
  | .mbxEvtHeadWrite .. | .mbxAllocReqGo .. | .sysRemapWrite .. | .busAccWrite .. | .busLockWrite .. | .busErrInfoClear ..
  | .dtStatJumpClear .. | .rcCounterRead .. | .latchingRead .. | .registerWrite .. | .defaultTargetAccess ..
  | .busTargetTimeout .. | .bmcI2cAccess .. | .hostLinkDown .. | .changeSetCommit | .budgetTick | .planeCutoff ..
  | .stagingComplete .. | .planeSwitchPoint .. | .catchUpCopyComplete .. | .routeOnAir .. | .frameBufferReturn ..
  | .outputRelease .. | .isLineArrival .. | .isFrameComplete .. | .isReadDecision .. | .isSourceLost .. | .wlFrameReceive ..
  | .wlBlockReceive .. | .wlPositionTransmit .. | .wlBlockRelease .. | .wlSlotIdle .. | .wlLaneDown ..
  | .wlModeTryTimeout .. | .laneReady .. | .laneLock .. | .laneLockLoss .. | .laneRateChangeDone .. | .eyeScanComplete ..
  | .ethFrameReceive .. | .ethLinkChange .. | .ethPacketRelease .. | .flowLineRelease .. | .flowAudioRelease ..
  | .flowLatenessCheck .. | .protectionPathLost .. | .flowSwapRelease .. | .stateChangeReportRepeat .. | .queryResponse ..
  | .nextHopRefresh .. | .cmpLayoutInstant .. | .compositorShed | .compositorRestore | .metersShed | .audioInputFrame ..
  | .audioBlock | .audioOutputSample .. | .audBankWhole .. | .aptFsyncEdge .. | .aptClockLost .. | .refEvent ..
  | .qlMessage .. | .qlTimeout .. | .candidateMeasurement .. | .candidateAbsent .. | .selectorEvaluation | .transitionEnd
  | .dpllPhaseCycle .. | .holdoverSample .. | .apllLock .. | .apllBypass .. | .apllBypassReturn .. | .clkoutGrantEnable ..
  | .dtTick .. | .dtStepApply | .dtMatch .. | .snapTrigEdge .. | .ptpMessageSend .. | .announceReceiptTimeout ..
  | .memParityAlert .. | .memRemap .. | .memPoisonedRead .. | .patrolScrub .. | .memRefresh .. | .memFreezeTimeout ..
  | .leaseExpiry .. | .sessionOpeningTimeout .. | .expertGrantExpiry .. | .irqDelayExpiry .. | .watchdogExpiry ..
  | .firmwareRestartComplete | .journalFull .. | .heartbeatSend | .xlBlockReceive .. | .heartbeatPulseIn ..
  | .heartbeatMiss .. | .echoConfirmTimeout | .saveSendComplete .. | .saveApply .. | .journalAckTimeout ..
  | .healthReportSend | .changeoverReady | .changeoverQuiesce | .changeoverSwap | .changeoverAbandon | .drillTimer
  | .drillComplete .. | .wakeEvent .. | .denPhaseEnd | .wakeStepReady .. | .wakeStepTimeout | .shadowholdExpiry | .brownOut
  | .supplyOutOfRange .. | .reseedComplete | .powerOnReset .. | .bootPhaseEnd .. | .bootPhaseOverrun | .pairDecision
  | .faultMessage .. | .faultRecordExpiry .. | .thermalPoll .. | .snapshotCopyComplete | .serviceTransferAbandoned
  | .svcSendTimeout .. | .changeoverDenEntry | .imageVerifyComplete .. | .flashWriteComplete .. | .servicePortFrame .. => none

/-- The unit that an event names exists. -/
def Instr.unitOk : Instr → Bool
  | .mbxCmdTailWrite port ses _ => decide (port < 2 ∧ ses < 64)
  | .mbxHareTailWrite port ses _ => decide (port < 2 ∧ ses < 64)
  | .mbxRespHeadWrite port ses _ => decide (port < 2 ∧ ses < 64)
  | .mbxEvtHeadWrite port ses _ => decide (port < 2 ∧ ses < 64)
  | .mbxAllocReqGo port => decide (port < 2)
  | .sysRemapWrite master _ => decide (master ≤ 10)
  | .busAccWrite master target _ => decide (master ≤ 10 ∧ target < 37)
  | .busLockWrite master _ => decide (master ≤ 10)
  | .busErrInfoClear master _ => decide (master ≤ 10)
  | .dtStatJumpClear master _ => decide (master ≤ 10)
  | .rcCounterRead master addr => decide (master ≤ 10 ∧ addr < 2 ^ 40)
  | .latchingRead master addr => decide (master ≤ 10 ∧ addr < 2 ^ 40)
  | .registerWrite master addr _ => decide (master ≤ 10 ∧ addr < 2 ^ 40)
  | .defaultTargetAccess master addr _ _ => decide (master ≤ 10 ∧ addr < 2 ^ 40)
  | .busTargetTimeout master addr _ => decide (master ≤ 10 ∧ addr < 2 ^ 40)
  | .hostLinkDown port => decide (port < 2)
  | .planeCutoff plane => decide (plane < 16)
  | .stagingComplete plane _ => decide (plane < 16)
  | .planeSwitchPoint plane => decide (plane < 16)
  | .catchUpCopyComplete plane => decide (plane < 16)
  | .routeOnAir plane => decide (plane < 16)
  | .frameBufferReturn src plane => decide (src < 2400 ∧ plane < 16)
  | .outputRelease dest _ _ => decide (dest < 2304)
  | .isLineArrival src _ => decide (src < 2304)
  | .isFrameComplete src _ => decide (src < 2304)
  | .isReadDecision feed => decide (feed < 2048)
  | .isSourceLost src => decide (src < 2304)
  | .wlFrameReceive lane _ => decide (lane < 160)
  | .wlBlockReceive lane _ => decide (lane < 160)
  | .wlPositionTransmit lane _ => decide (lane < 160)
  | .wlBlockRelease lane => decide (lane < 160)
  | .wlSlotIdle lane slot => decide (lane < 144 ∧ slot < 8)
  | .wlLaneDown lane => decide (lane < 160)
  | .wlModeTryTimeout lane => decide (lane < 160)
  | .laneReady lane => decide (lane < 224)
  | .laneLock lane => decide (lane < 224)
  | .laneLockLoss lane _ => decide (lane < 224)
  | .laneRateChangeDone lane => decide (lane < 224)
  | .eyeScanComplete lane _ => decide (lane < 224)
  | .ethFrameReceive mac _ _ _ => decide (mac < 64)
  | .ethLinkChange mac _ _ _ _ => decide (mac < 64)
  | .ethPacketRelease mac _ => decide (mac < 64)
  | .flowLineRelease ctx _ _ => decide (ctx < 16384)
  | .flowAudioRelease ctx => decide (ctx < 16384)
  | .flowLatenessCheck ctx => decide (ctx < 16384)
  | .protectionPathLost ctx => decide (ctx < 16384)
  | .flowSwapRelease port => decide (port < 1152)
  | .stateChangeReportRepeat mac _ => decide (mac < 64)
  | .queryResponse mac => decide (mac < 64)
  | .nextHopRefresh mac => decide (mac < 64)
  | .cmpLayoutInstant m _ => decide (m < 32)
  | .audioInputFrame group => decide (group < 2304 ∨ (2400 ≤ group ∧ group < 2432))
  | .audioOutputSample chan _ => decide (chan < 65536)
  | .audBankWhole cluster => decide (cluster < 16)
  | .aptFsyncEdge port _ _ => decide (port < 32)
  | .aptClockLost port => decide (port < 32)
  | .refEvent cand _ _ => decide (cand ≤ 13)
  | .qlMessage cand _ _ => decide (cand ≤ 3)
  | .qlTimeout cand => decide (cand ≤ 3)
  | .candidateMeasurement cand _ => decide (cand ≤ 13)
  | .candidateAbsent cand => decide (cand ≤ 13)
  | .apllLock apll => decide (apll ≤ 7)
  | .apllBypass apll => decide (apll ≤ 7)
  | .apllBypassReturn apll => decide (apll ≤ 7)
  | .clkoutGrantEnable out => decide (out ≤ 11)
  | .dtMatch unit => decide (unit < 8)
  | .ptpMessageSend port _ _ => decide (port < 16)
  | .announceReceiptTimeout port => decide (port < 16)
  | .memParityAlert pc => decide (pc < 128)
  | .memRemap pc => decide (pc < 128)
  | .memPoisonedRead pc port _ _ => decide (pc < 128 ∧ port < 83)
  | .patrolScrub pc _ _ => decide (pc < 128)
  | .memRefresh stack _ _ => decide (stack < 4)
  | .memFreezeTimeout pc => decide (pc < 128)
  | .leaseExpiry ses => decide (ses < 64)
  | .sessionOpeningTimeout ses => decide (ses < 64)
  | .expertGrantExpiry ses => decide (ses < 64)
  | .irqDelayExpiry ses => decide (ses < 64)
  | .watchdogExpiry processor => decide (processor < 6)
  | .journalFull ses => decide (ses < 64)
  | .xlBlockReceive bundle _ => decide (bundle < 2)
  | .heartbeatMiss path => decide (path < 3)
  | .wakeEvent cause => wakeCause cause
  | .supplyOutOfRange rail _ => decide (1 ≤ rail) && decide (rail ≤ 7)
  | .powerOnReset cause => decide (cause < 2)
  | .faultMessage msg _ => messageOk msg.toNat
  | .svcSendTimeout ses _ => decide (ses < 64)
  | .flashWriteComplete dev _ => decide (dev < 2)
  | .svcIdent .. | .svcOpen .. | .svcData .. | .svcVerify .. | .svcWrite .. | .svcStatus .. | .svcAbort .. | .svcActivate ..
  | .svcFaults .. | .svcSnapshot .. | .bmcI2cAccess .. | .changeSetCommit | .budgetTick | .compositorShed
  | .compositorRestore | .metersShed | .audioBlock | .selectorEvaluation | .transitionEnd | .dpllPhaseCycle ..
  | .holdoverSample .. | .dtTick .. | .dtStepApply | .snapTrigEdge .. | .firmwareRestartComplete | .heartbeatSend
  | .heartbeatPulseIn .. | .echoConfirmTimeout | .saveSendComplete .. | .saveApply .. | .journalAckTimeout ..
  | .healthReportSend | .changeoverReady | .changeoverQuiesce | .changeoverSwap | .changeoverAbandon | .drillTimer
  | .drillComplete .. | .denPhaseEnd | .wakeStepReady .. | .wakeStepTimeout | .shadowholdExpiry | .brownOut
  | .reseedComplete | .bootPhaseEnd .. | .bootPhaseOverrun | .pairDecision | .faultRecordExpiry .. | .thermalPoll ..
  | .snapshotCopyComplete | .serviceTransferAbandoned | .changeoverDenEntry | .imageVerifyComplete .. | .servicePortFrame ..
  | .take .. | .salvo .. | .routeQuery .. | .protect .. | .forceRelease .. | .bankLoad .. | .bankSwap .. | .srcMode ..
  | .srcWarm .. | .srcGroup .. | .srcStatus .. | .srcWindow .. | .destBind .. | .destAudio .. | .genCfg .. | .svcSend ..
  | .planeCfg .. | .planeSwitch .. | .planeStatus .. | .laneStatus .. | .eyeScan .. | .laneLoop .. | .lanePrbs ..
  | .laneEqSet .. | .ethPortSplit .. | .ethMacCfg .. | .ethStatus .. | .wakePattern .. | .flowDefine .. | .flowPort ..
  | .flowStatus .. | .flowIf .. | .flowCapacity .. | .flowOffset .. | .cmpBind .. | .cmpLayout .. | .cmpGuard ..
  | .cmpFreeze .. | .cmpStatus .. | .cmpCoef .. | .audMix .. | .audGroup .. | .audOffset .. | .audHistory .. | .audMeter ..
  | .audStatus .. | .audBankLoad .. | .audBankSwap .. | .audRate .. | .aptCfg .. | .aptRing .. | .aptStatus ..
  | .tmgRefCfg .. | .tmgLrefBind .. | .tmgSelCfg .. | .tmgApllCfg .. | .tmgClkoutCfg .. | .tmgWclkCfg .. | .tmgStatus ..
  | .tmgClassMap .. | .tmgLoopCfg .. | .dtStep .. | .dtCfg .. | .dtStatus .. | .ptpCfg .. | .ptpPortCfg .. | .dtPinCfg ..
  | .ptpServoCfg .. | .memStatus .. | .memRearm .. | .memPortCfg .. | .memFreeze .. | .memCalSave .. | .sessionOpen ..
  | .sessionClose .. | .sessionAttach .. | .subscribe .. | .pendingQuery .. | .identity .. | .expertGrant ..
  | .sessionBudget .. | .pairStatus .. | .pairChangeover .. | .pairCfg .. | .pairDrill .. | .pairForce .. | .pwrStatus ..
  | .pwrDen .. | .pwrWakePartner .. | .pwrCfg .. | .fltList .. | .fltClear .. | .fltCfg .. | .snpTrigger .. | .snpCfg ..
  | .snpList .. | .snpRead .. | .snpHold .. | .fltInject .. | .updStatus .. | .updActivate .. | .updConfirm ..
  | .updRestart .. | .updSvcCfg .. | .updFuse .. | .calRead .. | .calWrite .. => true

/-- The command is well-formed. -/
def Instr.wf (i : Instr) : Bool :=
  match i.host? with
  | some (h, c) => h.ok && c.fits
  | none => i.unitOk

end Sys2Proof
end

