-- ==== Sys2Proof/Safety.lean ====
section
/-! DEFINITION. What claims about the block are stated with: a command that answers a next state, a host command that the
module can take at once, the change set that is committed next, the responses a command posts, a queue that never stops. -/
namespace Sys2Proof.Safety
open Sys2Proof.Machine

/-- The command answers a next state, and `P` holds of it. -/
def Answers (i : Instr) (s : State) (P : State → Prop) : Prop := ∃ t, exec i s = .next t ∧ P t

/-- Every waiting command is well-formed. -/
def queueOk (s : State) : Bool := s.pending.all Instr.wf

/-- No ring entry waits, and nothing holds the rings back (R409, R423, R424). -/
def ringsIdle (m : Mach) : Bool := m.ctl.rung.isEmpty && !m.ctl.restarting && !m.ctl.jfull

/-- Whether the journal is mirrored is settled: a bundle is up, or its loss has been reported (R469). -/
def mirrorSettled (m : Mach) : Bool := m.pr.unprot || xlUp m

/-- What the module knows of a rung host command. -/
def rungOf (h : Hdr) (c : Cmd) : Rung :=
  { ses := h.ses, port := h.port, hare := c.hare, opcode := c.opcode, hseq := h.hseq, cmd := some c }

/-- The session is open at the port that carries the command; SESSION_OPEN comes from an opening session, SESSION_ATTACH also
from a detached one (R415). -/
def attached (m : Mach) (h : Hdr) (c : Cmd) : Bool :=
  let x := ses m h.ses
  match c with
  | .sessionOpen .. => x.st == .opening && x.port == h.port
  | .sessionAttach .. => x.st == .detached || (x.st == .opn && x.port == h.port)
  | _ => x.st == .opn && x.port == h.port

/-- The ring of the command has a free entry, and the session's budget of the tick is not spent (R397, R413). -/
def ringRoom (m : Mach) (h : Hdr) (c : Cmd) : Bool :=
  let x := ses m h.ses
  let w := win m h.ses
  if c.hare then decide (ringLen w.hareTail w.hareHead < 32 ∧ w.hareTail < 65536 ∧ w.hareHead < 65536 ∧ x.usedHare < x.hare)
  else decide (ringLen w.cmdTail w.headReg < 256 ∧ w.cmdTail < 65536 ∧ w.cmdHead < 65536 ∧ x.usedCmds < x.cmds ∧ x.usedCpu < x.cpus)

/-- The response ring has room for what the command may post (R401). -/
def respRoom (m : Mach) (h : Hdr) (c : Cmd) : Bool :=
  let w := win m h.ses
  decide (w.respTail < 65536 ∧
    ringLen w.respTail w.respHead + (ses m h.ses).reserved + roomFor snapRead (rungOf h c) (hostEntry h c m) ≤ 256)

/-- None of the first checks refuses the command (R410, R420, R524): its regions lie in the salvo area, the session holds what
it needs, no fault stands against what it concerns, and the module's role suits it. -/
def admitted (m : Mach) (h : Hdr) (c : Cmd) : Bool :=
  regionOk c && (!needsExpert h.ses c || expert (ses m h.ses)) && (!grave m || !c.isChange) &&
    (c.query || (concerned m c).all fun b => !blocked m b.1 b.2) && (claiming m || lowRole c)

/-- The module takes the command as soon as it is rung, and carries it out or journals it. -/
def canTake (m : Mach) (h : Hdr) (c : Cmd) : Bool :=
  h.ok && c.fits && ringsIdle m && !m.ctl.quiesced && attached m h c && ringRoom m h c && respRoom m h c && admitted m h c &&
    (!(c.journalled && (c.isChange || !c.query)) || (journalRoom m (copied m h.ses c).length && mirrorSettled m)) &&
    (!c.isChange || (ses m h.ses).cache.all fun k => k.hseq != h.hseq)

/-- The response entries that a step has posted in a session's ring. -/
def posted (s t : Mach) (n : Nat) : List Resp :=
  let a := (win s n).respTail
  (List.range (ringLen (win t n).respTail a)).map fun k => tget {} (win t n).resps ((a + k) % 256)

/-- The entry is the one that the commit sequencer takes next: open, its ACCEPTED no longer held back, its session still there,
no ring entry waiting (R411). -/
def commitsNext (m : Mach) (e : JEntry) : Bool :=
  m.ctl.journal.find? committable == some e && jentry? m e.jseq == some e && claiming m && ringsIdle m && mirrorSettled m && regionAligned e.cmd && !e.unacked &&
    decide (e.ses < 64) && !e.deaf && live m e.ses && decide ((win m e.ses).respTail < 65536)

/-- What the sequencer knows of an entry beside the state. -/
def commitCtx (m : Mach) (e : JEntry) : CCtx :=
  { ses := if e.ses = 255 then none else some e.ses, ep := m.xb.epoch + 1, hseq := e.hseq, jseq := e.of, data := e.data, replay := e.replay }

/-- The ring's head and tail have passed one entry (R397, R399). -/
def entryPassed (s t : Mach) (n : Nat) (hare : Bool) : Bool :=
  let w := win s n
  let w' := win t n
  if hare then w'.hareHead == ringNext w.hareHead && w'.hareTail == ringNext w.hareTail
  else w'.cmdHead == ringNext w.cmdHead && w'.cmdTail == ringNext w.cmdTail

/-- An answer: its status, its items (R405), and what it writes into the salvo area at an offset. -/
structure Reply where
  status : Nat := sOk
  items : List Item := []
  off : Nat := 0
  bytes : List Byte := []
  deriving DecidableEq, Repr

/-- The command is answered with the reply; nothing outside the control block changes, nor does the journal. -/
def Replies (i : Instr) (h : Hdr) (c : Cmd) (s : State) (r : Reply) : Prop :=
  Answers i s fun t => t = { s with ctl := t.ctl } ∧ t.ctl.journal = s.ctl.journal ∧
    entryPassed s.toMach t.toMach h.ses c.hare = true ∧
    posted s.toMach t.toMach h.ses = mkResps c.opcode r.status 0 h.hseq 0 (layout r.items) ∧
    salvo t.toMach h.ses r.off r.bytes.length = r.bytes

/-- The response entries of a command that is not journalled (R404, R405). -/
def answer (h : Hdr) (c : Cmd) (status : Nat) (items : List Item) : List Resp := mkResps c.opcode status 0 h.hseq 0 (layout items)

/-- The command posts these responses, and `P` holds of the next state. -/
def Performs (i : Instr) (h : Hdr) (s : State) (rs : List Resp) (P : State → Prop) : Prop :=
  Answers i s fun t => posted s.toMach t.toMach h.ses = rs ∧ P t

/-- The response entries of a committed change set (R404, R405, R411). -/
def doneResps (s : State) (e : JEntry) (items : List Item) : List Resp :=
  mkResps e.cmd.opcode sDone (if e.replay then 2 else 0) e.hseq e.of (layout (.q (s.xb.epoch + 1) :: items))

/-- The crossbar after a commit that leaves it as `x`: the next epoch is current, and the committed routes of the epoch before
are kept among the latest 255 (R22, R23). -/
def nextEpoch (s : State) (x : Xbar) : Xbar :=
  { x with epoch := s.xb.epoch + 1, history := ({ epoch := s.xb.epoch, dests := s.xb.dests } :: x.history).take 255 }

/-- CHANGE_SET_COMMIT commits the entry: the machine becomes `m` under the next epoch, and DONE is answered with the epoch and
the items: at once, or held for the partner while a bundle is up (R411, R469). Beside that only the control block and what is
sent over XL change. -/
def Commits (s : State) (e : JEntry) (items : List Item) (m : Mach) : Prop :=
  Answers .changeSetCommit s fun t =>
    t.toMach = { m with ctl := t.ctl, pr := { m.pr with sentXl := t.pr.sentXl }, xb := nextEpoch s m.xb } ∧
      (xlUp s.toMach = false → posted s.toMach t.toMach e.ses = doneResps s e items) ∧
      (xlUp s.toMach = true → (t.ctl.journal.find? fun x => x.jseq == e.jseq).map (·.held) = some (doneResps s e items))

/-- The step leaves everything but the control block and the messages sent over XL as it was. -/
def ctlOnly (s t : State) : Prop := t = { s with ctl := t.ctl, pr := { s.pr with sentXl := t.pr.sentXl } }

/-- The command answers exactly the state that `m` is for what it knows beside the queue. -/
def Takes (i : Instr) (s : State) (m : Mach) : Prop := exec i s = .next { s with toMach := m }

/-- The fault table holds a record of the source and kind (R519). -/
def recorded (m : Mach) (src kind : Nat) : Bool := m.flt.recs.any fun r => r.src == src && r.kind == kind && !r.overflow

/-- The fault table has room for a record (R519). -/
def tableRoom (m : Mach) : Bool := decide (m.flt.recs.length < 2048)

/-- A reply of the service port (R537). -/
def svcReply (c : SvcReq) (op status : Nat) (payload : List Byte := []) (offset : Nat := 0) : SvcReply :=
  { client := c.client, op, status, tag := c.tag, offset, payload }

/-- The update block once it has sent a reply: the reply, and its bytes as they leave (R536, R537). -/
def replied (u : Upd) (r : SvcReply) : Upd := { u with reply := some r, wire := r.wire }

/-- A heartbeat block is due on lane 0 of both bundles (R462). -/
def dueBeats (m : Mach) : Mach := setTx (setTx m 144 fun t => { t with beatDue := true }) 152 fun t => { t with beatDue := true }

/-- The state that a message's first copy acts on: its second copy is due on the other bundle while that is UP (R461). -/
def firstCopy (m : Mach) (b : Nat) (x : XlMsg) : Mach :=
  { m with pr := { m.pr with copies := copiesDue m ++ (if bundleUp m (1 - b) then [(b, x)] else []) } }

/-- A block over bundle `b` is the first copy of a message other than a heartbeat, at a module that takes it (R461). -/
def copyTaken (m : Mach) (b : Nat) (x : XlMsg) : Bool :=
  decide (b < 2) && !m.sys.romMode && xlStarted m && !x.isBeat && !(copiesDue m).contains (1 - b, x)

end Sys2Proof.Safety
end

