-- ==== Sys2Proof/Certificates/Slice0/Obligations.lean ====
section
/-! DEFINITION. What is claimed of the block, for the provers: one proposition each. -/
open Sys2Proof Sys2Proof.Machine Sys2Proof.Safety

/-! ### The queue and the step -/

/-- A step runs the command at the front of the queue on the state with the queue's rest; an empty queue idles (the model's
choice, Assumption 7). -/
def Obligations.StepRunsFrontCommand : Prop :=
  (∀ (c : Instr) (s : State), step { s with pending := c :: s.pending } = exec c s) ∧
  (∀ s : State, s.pending = [] → step s = .next s)

/-- A command is carried out exactly if it is well-formed: it then answers a next state with the same queue, and otherwise it
is refused because it names no unit of the module. -/
def Obligations.WellFormedCommandsComplete : Prop :=
  ∀ (i : Instr) (s : State),
    (i.wf = true → Answers i s fun t => t.pending = s.pending) ∧ (i.wf = false → exec i s = .refused .noSuchUnit)

/-- Invariant: a queue of well-formed commands. Every step keeps it, and no run of any length stops; each step takes one
command off the queue. -/
def Obligations.WellFormedQueueNeverStops : Prop :=
  (∀ s : State, queueOk s = true → ∃ t, step s = .next t ∧ queueOk t = true ∧ t.pending = s.pending.tail) ∧
  (∀ (k : Nat) (s : State), queueOk s = true → ∃ t, core.run k s = .next t ∧ t.pending = s.pending.drop k)

/-- The invariant of the queue holds after reset, whose queue is empty. -/
def Obligations.ResetQueueIsWellFormed : Prop := queueOk State.reset = true ∧ State.reset.pending = []

/-! ### Ring entries (R402) -/

/-- The 64 bytes of a ring entry spell the command, its HSEQ and its opcode, for every command whose fields fit their sizes. -/
def Obligations.RingEntryRoundTrip : Prop :=
  ∀ (c : Cmd) (hseq : Nat), c.fits = true → hseq < 2 ^ 32 →
    (c.entry hseq).length = 64 ∧ parseEntry (c.entry hseq) = some c ∧ fld (c.entry hseq) 4 4 = hseq ∧
      fld (c.entry hseq) 0 2 = c.opcode

/-! ### Taking a host command (R399 to R423) -/

/-- Each of the 60 kinds of change set, when the module can take it: it is journalled at the next JSEQ with its session, HSEQ
and copied data, open and uncommitted, the ring's head passes it, and nothing outside the control block changes but the copy
sent to the partner. Without a bundle, ACCEPTED with the JSEQ is posted at once. -/
def Obligations.ChangeSetIsJournalled : Prop :=
  ∀ (i : Instr) (h : Hdr) (c : Cmd) (s : State), i.host? = some (h, c) → c.isChange = true → canTake s.toMach h c = true →
    Answers i s fun t => ctlOnly s t ∧ t.ctl.jnext = s.ctl.jnext + 1 ∧
      (∃ e : JEntry, t.ctl.journal = s.ctl.journal ++ [e] ∧ e.jseq = s.ctl.jnext ∧ e.kind = 0 ∧ e.ses = h.ses ∧ e.port = h.port ∧
        e.hseq = h.hseq ∧ e.cmd = c ∧ e.data = copied s.toMach h.ses c ∧ e.st = 0 ∧ e.waiting = false ∧
        e.unacked = xlUp s.toMach) ∧
      entryPassed s.toMach t.toMach h.ses c.hare = true ∧
      (xlUp s.toMach = false → posted s.toMach t.toMach h.ses = mkResps c.opcode sAccepted 0 h.hseq s.ctl.jnext [])

/-! ### Queries -/

/-- The answers of the crossbar's and the sessions' queries (R60, R104, R430, R431), for operands in range. -/
def Sys2Proof.Safety.routeReply (m : Mach) (n : Nat) : Cmd → Option Reply
  | .routeQuery ep first count off =>
    if 1 ≤ count ∧ first + count ≤ 2304 ∧ off % 16 = 0 ∧ (ep = 0 ∨ ep = m.xb.epoch) then
      some { items := [.q m.xb.epoch, .i count], off,
             bytes := ((List.range count).map fun k => routeRecord m (first + k) (dest m (first + k))).flatten }
    else none
  | .srcStatus k =>
    if k < 2304 then
      some { items := [.w (srcStat m k), .w (srcFmtReg m k),
                       .w (((List.range 16).map fun p => (Machine.pair m k p).cls * 4 ^ p).foldl (· + ·) 0)] }
    else none
  | .planeStatus p =>
    let x := plane m p
    if p < 16 then
      some { items := [.q m.xb.epoch, .b p, .b x.fmt.raster, .b x.fmt.scan, .b x.fmt.rate, .h x.phLines, .h x.phSamples,
                       .h (swLineOf x.fmt x.swLine), .b (b2n (x.swLine == 0)), .b 0, .i x.cutoff, .w (swcnt m p),
                       .h ((List.range 2304).filter fun d => (dest m d).plane == p).length,
                       .h (swLineOf x.fmt x.swLineNow), .i x.cutoffNow, .w (x.applyAt % 2 ^ 32), .q 0] }
    else none
  | .pendingQuery all most off =>
    let es := (m.ctl.journal.filter fun e => e.st == 0 && (all == 1 || e.ses == n)).take most
    if all ≤ 1 ∧ off % 8 = 0 then
      some { items := [.q m.xb.epoch, .w es.length], off, bytes := (es.map pendingRec).flatten }
    else none
  | .identity =>
    some { items := [.raw 1 (partName m), .b (Config.stepping % 256), .b m.sys.slotId, .w (claimWord m), .q m.xb.epoch]
             ++ (List.range 6).map fun c => .h (imgVersion (runImage m) c) }
  | _ => none

/-- The answers of the lane, Ethernet, flow, compositor and audio queries (R165, R184, R218, R245, R282, R303). -/
def Sys2Proof.Safety.streamReply (m : Mach) : Cmd → Option Reply
  | .laneStatus k => if k < 224 then some { items := [.w (lnStat m k), .w (lnEye m k)] } else none
  | .ethStatus k => if macExists m k then some { items := [.w (macStat m k)] } else none
  | .flowStatus x =>
    if x < 16384 then some { items := [.w (ctxStat m x), .w (ctx m x).offset, .w (ctxRate m x), .w (troffset m x)] } else none
  | .flowCapacity k =>
    let ports := (List.range 1152).filter fun q => (enabledOn m k 1).any fun x => (ctx m x).d.port == q
    if macExists m k then
      some { items := [.w (macRateMbit m k 1), .w (rateLimit m k / 1000000000), .w (macRateMbit m k 0),
                       .w (rateLimit m k / 1000000000), .w (262144 - granulesUsed m), .w (2304 - depacketisers m),
                       .w ((ports.map fun q => 2 - packetisers m q).foldl (· + ·) 0)] }
    else none
  | .cmpStatus k off =>
    let x := cmpr m k
    if k < 32 ∧ off % 8 = 0 then
      some { items := [.w (cmpStat x), .w (cmpRate x), .w (guardStat x)], off,
             bytes := ((List.range 16).map fun g => le 4 (tget 0 x.sigs g)).flatten }
    else none
  | .audMeter first count op off =>
    if op = 2 ∧ 1 ≤ count ∧ first + count ≤ chanCount m then
      some { off, bytes := ((List.range count).map fun k =>
               le 4 (tget {} m.aud.meters (first + k)).peak ++ le 4 (tget {} m.aud.meters (first + k)).ms).flatten }
    else none
  | .audStatus kind k =>
    let a := group m k
    let live := a.stamps.filter fun t => decide (m.dt.t < t + secU)
    if kind = 0 ∧ k < 2400 then
      some { items := [.b (b2n a.convert), .w (if live.isEmpty then 0 else rateOf live), .i (a.err / nsU),
                       .w (kOf m k / nsU), .w (shortfall m k)] }
    else if kind = 1 ∧ k < 2304 then
      let d := adest m k
      some { items := [.w (d.lambda / nsU), .w (d.delay - spared m (srcGroup m (air m k).asrc).1), .w d.user, .q d.block] }
    else none
  | .aptStatus k =>
    let p := apt m k
    if k < 32 then
      some { items := [.w (aptStat p), .w p.fine, .w (inLatNow p), .w (outLatNow p), .w (ringL m p.cfg.outLat), .q p.blkIdx,
                       .instant p.blkAt, .i (p.e / nsU), .i (p.eo / nsU)] }
    else none
  | _ => none

/-- LANE_STATUS, ETH_STATUS, FLOW_STATUS, FLOW_CAPACITY, CMP_STATUS, AUD_METER when it reads, AUD_STATUS and APT_STATUS answer
OK with the items and records of their rules, and change nothing else. -/
def Obligations.StreamQueriesAnswer : Prop :=
  ∀ (i : Instr) (h : Hdr) (c : Cmd) (s : State) (r : Reply), i.host? = some (h, c) → canTake s.toMach h c = true →
    streamReply s.toMach c = some r → Replies i h c s r

/-- The answers of the timing, memory, pair, power, fault, snapshot, update and calibration queries (R343, R366, R389, R485,
R510, R531, R552, R569). -/
def Sys2Proof.Safety.moduleReply (m : Mach) : Cmd → Option Reply
  | .tmgStatus k =>
    if k < 14 ∨ k = 255 then
      some { items := [.w (tmgSelStat m), .i m.tmg.dpll.u, .i (holdoverValue m), .i (m.tmg.dpll.buildout / 1000)] ++
               if k = 255 then [] else [.w (tmgRefStat m k), .i (cand m k).foff, .i (cand m k).phase] }
    else none
  | .dtStatus =>
    let port (k : Nat) : PtpPort := tget {} m.dt.ptp.ports k
    some { items := [.w (dtStat m), .instant m.dt.t, .q m.dt.incr, .i m.dt.lastStep] ++
             (((List.range 16).filter fun k => (port k).mac.isSome).map fun k =>
               [Item.b k, .b (port k).st, .i (offsetNs (port k)), .w (toBits 32 (port k).mpd)]).flatten }
  | .memStatus k =>
    if k < 128 ∨ k = 255 then
      some { items := (memState m :: (List.range 4).map (memQuar m) ++ (List.range 4).map (memSpare m) ++
               if k = 255 then [] else pcStat m k :: capRegs (pc m k)).map Item.w }
    else none
  | .pairStatus which off =>
    if which ≤ 1 ∧ off % 64 = 0 then some { off, bytes := if which = 0 then ownReport m else partnerReport m } else none
  | .pwrStatus => some { items := [.w (pwrStat m), .w (pwrAon m), .w m.pwr.rbFail] }
  | .fltList cls off =>
    let rs := listed m cls
    let fit := rs.take ((65536 - off) / 32)
    if cls ≤ 3 ∧ off % 32 = 0 then
      some { items := [.w fit.length, .w rs.length], off, bytes := (fit.map FaultRec.bytes).flatten }
    else none
  | .snpList off => if off % 64 = 0 then some { off, bytes := (m.snp.slots.zipIdx.map SnapSlot.bytes).flatten } else none
  | .snpRead k ioff len off =>
    if k < 16 ∧ (lget {} m.snp.slots k).st = 2 ∧ ioff % 4 = 0 ∧ 4 ≤ len ∧ len ≤ 65536 ∧ len % 4 = 0 ∧ ioff + len ≤ 0x800000 ∧
        off % 4 = 0 then
      some { status := sDone, off, bytes := snapRead m k ioff len }
    else none
  | .updStatus =>
    some { items := [.w (updStat m), .w (updSlot m 0), .w (updSlot m 1), .w (updSsf m), .w ((m.upd.partner.map (·.release)).getD 0),
                     .w ((m.upd.partner.map (·.svn)).getD 0)] }
  | .calRead k off =>
    if k ≤ 3 ∧ off % 64 = 0 then
      some { items := [.w (calNum m 8 4)], off, bytes := padTo 0 (calSpan k).2 (sub m.sys.cal (calSpan k).1 (calSpan k).2) }
    else none
  | _ => none

/-- ROUTE_QUERY of the current epoch, SRC_STATUS, PLANE_STATUS, PENDING_QUERY and IDENTITY answer OK with the items and records
of their rules, and change nothing else.
TMG_STATUS, DT_STATUS, MEM_STATUS, PAIR_STATUS, PWR_STATUS, FLT_LIST, SNP_LIST, SNP_READ, UPD_STATUS and CAL_READ answer OK,
SNP_READ DONE, with the items and records of their rules, and change nothing else. -/
def Obligations.RouteSessionAndModuleQueriesAnswer : Prop :=
  ∀ (i : Instr) (h : Hdr) (c : Cmd) (s : State) (r : Reply), i.host? = some (h, c) → canTake s.toMach h c = true →
    (routeReply s.toMach h.ses c = some r → Replies i h c s r) ∧ (moduleReply s.toMach c = some r → Replies i h c s r)

/-! ### Commands that act at once -/

/-- Lane tests (R158 to R166): EYE_SCAN of a lane of the module without a scan or loopback is ACCEPTED with its number and queued, and
on a lane without lock ends LOST at once (the model's reading, Assumption 22); LANE_LOOP sets the loopback; LANE_PRBS sets generator
and checker of a lane out of service; LANE_EQ_SET stores the next values of a rate set. -/
def Obligations.LaneTestsTakeEffect : Prop :=
  (∀ (s : State) (h : Hdr) (k eye kk sp sv thr off : Nat),
    let c : Cmd := .eyeScan k eye kk sp sv thr off
    canTake s.toMach h c = true → k < 224 → 10 ≤ kk → kk ≤ 30 → sp ∈ [1, 2, 4, 8] → sv ∈ [1, 2, 4, 8] → off % 64 = 0 →
    (if (lane s.toMach k).rate = 5 then 1 ≤ eye ∧ eye ≤ 3 else eye = 0) → (s.ln.scans.all fun x => x.lane != k) = true →
    (lane s.toMach k).loop = 0 → s.ln.scans.length < 16 →
    let new : Scan := { id := s.ln.scanId, lane := k, ses := h.ses, hseq := h.hseq, eye, k := kk, sp, sv, thr, off, at_ := s.dt.t }
    let ln := { s.ln with scans := s.ln.scans ++ [new], scanId := (s.ln.scanId + 1) % 2 ^ 32 }
    let scanId := (s.ln.scanId + 1) % 2 ^ 32
    ((lane s.toMach k).lock = true → Performs (.eyeScan h k eye kk sp sv thr off) h s (answer h c sAccepted [.w s.ln.scanId]) fun t =>
      t = { s with ctl := t.ctl, ln }) ∧
    ((lane s.toMach k).lock = false →
      Performs (.eyeScan h k eye kk sp sv thr off) h s (answer h c sAccepted [.w s.ln.scanId] ++ answer h c sDone [.b 1]) fun t =>
        t = { s with ctl := t.ctl, ln := { s.ln with scanId } } ∧
          salvo t.toMach h.ses off 20 = (new.result 1 (lane s.toMach k).rate 0 (List.replicate new.points 0xFFFFFFFF)).take 20)) ∧
  (∀ (s : State) (h : Hdr) (k mode flags : Nat),
    let c : Cmd := .laneLoop k mode flags
    canTake s.toMach h c = true → k < 224 → mode ≤ 3 → flags ≤ 1 → (s.ln.scans.all fun x => x.lane != k) = true →
    (208 ≤ k → bundleUp s.toMach ((k - 208) / 8) = false) →
    (144 ≤ k → k < 208 → ctxOnMac s.toMach (· == macOfLane s.toMach k) = none) →
    Performs (.laneLoop h k mode flags) h s (answer h c sOk []) fun t =>
      (lane t.toMach k).loop = mode ∧
        (mode ≠ 0 → (lane t.toMach k).keepTx = (mode == 1 && flags == 1) ∧ (lane t.toMach k).loopSes = h.ses ∧
          t.flt.last = faultWord (0xB10 + k) 0x24 0 (tget 0 t.flt.seqs (0xB10 + k) + 255) 0) ∧
        (mode = 0 → (lane s.toMach k).loop = 0 → t = { s with ctl := t.ctl }) ∧
        (mode = 0 → (lane s.toMach k).loop ≠ 0 →
          let service := serviceRate s.toMach k
          (lane t.toMach k).keepTx = false ∧ (lane t.toMach k).lock = false ∧
            (lane t.toMach k).toRate = if (lane s.toMach k).rate = service then none else some service)) ∧
  (∀ (s : State) (h : Hdr) (k pattern on rate : Nat),
    let c : Cmd := .lanePrbs k pattern on rate
    let x := lane s.toMach k
    let r := if rate = 0 then x.rate else rate
    canTake s.toMach h c = true → k < 224 → pattern ≤ 8 → on ≤ 3 → rate ≤ 5 →
    (pattern ≠ 0 → (r = 5 ↔ 6 ≤ pattern)) → inService x = false →
    let chk := pattern != 0 && bit on 1
    let new : Lane := { x with pattern, gen := pattern != 0 && bit on 0, chk,
                               toRate := if rate = 0 ∨ rate = x.rate then x.toRate else some rate
                               prbsAt := if chk then s.now + Config.unstated s.free % (usT + 1) else x.prbsAt }
    Performs (.lanePrbs h k pattern on rate) h s (answer h c sOk []) fun t =>
      t = { s with ctl := t.ctl, ln := { s.ln with lanes := tset s.ln.lanes k new }, free := s.free + b2n chk }) ∧
  (∀ (s : State) (h : Hdr) (k set flags vals : Nat),
    let c : Cmd := .laneEqSet k set flags vals
    canTake s.toMach h c = true → k < 224 → set ≤ 2 → flags ≤ 1 → rateSetOk (le 20 vals) = true →
    (flags = 1 → (s.ln.scans.all fun x => x.lane != k && (lane s.toMach x.lane).lock) = true) →
    let put (l : List (List Byte)) : List (List Byte) := lmod l set fun _ => le 20 vals
    Performs (.laneEqSet h k set flags vals) h s (answer h c sOk []) fun t =>
      (lane t.toMach k).next = put (lane s.toMach k).next ∧
        (lane t.toMach k).now = (if flags = 1 then put (lane s.toMach k).now else (lane s.toMach k).now) ∧
        (flags = 1 → (lane t.toMach k).lock = false) ∧ (∀ n < 224, n ≠ k → lane t.toMach n = lane s.toMach n))

/-- Memory and calibration diagnostics (R382, R383, R385, R562): MEM_REARM arms the snapshot registers; MEM_FREEZE on a module
that does not claim stops a pseudo-channel and writes its dump, or thaws it; MEM_CAL_SAVE and CAL_WRITE are ACCEPTED and queued. -/
def Obligations.MemoryDiagnosticsTakeEffect : Prop :=
  (∀ (s : State) (h : Hdr) (k : Nat), canTake s.toMach h (.memRearm k) = true → k < 128 ∨ k = 255 →
    Performs (.memRearm h k) h s (answer h (.memRearm k) sOk []) fun t =>
      t = { s with ctl := t.ctl, mem := { s.mem with pcs := t.mem.pcs } } ∧
        ∀ n < 128, pc t.toMach n = if k = 255 ∨ k = n then { pc s.toMach n with armed := true } else pc s.toMach n) ∧
  (∀ (s : State) (h : Hdr) (k op off : Nat),
    let c : Cmd := .memFreeze k op off
    canTake s.toMach h c = true → k < 128 → op ≤ 1 → (op = 1 → off % 64 = 0) → (pc s.toMach k).st ≠ 2 → claiming s.toMach = false →
    Performs (.memFreeze h k op off) h s (answer h c sAccepted [] ++ answer h c sDone []) fun t =>
      t = { s with ctl := t.ctl, free := t.free, mem := { s.mem with pcs := t.mem.pcs } } ∧
        pc t.toMach k = { pc s.toMach k with frozen := if op = 0 then none else some (h.ses, s.now), st := if op = 0 then 0 else 3 } ∧
        (op = 1 → salvo t.toMach h.ses off 16384 = (List.range 16384).map (Config.schedulerDump s.free))) ∧
  (∀ (s : State) (h : Hdr) (mask_ : Nat), canTake s.toMach h (.memCalSave mask_) = true →
    Performs (.memCalSave h mask_) h s (answer h (.memCalSave mask_) sAccepted []) fun t =>
      t = { s with ctl := t.ctl, sys := { s.sys with jobs := t.sys.jobs } } ∧ t.sys.jobs.length = s.sys.jobs.length + 1 ∧
        t.sys.jobs.getLast?.map (·.ask) = some (some (h.ses, h.hseq, 0x0D44)) ∧
        t.sys.jobs.getLast?.map (·.patches) =
          some ((members 128 mask_).map fun k => (delayAt k, padTo 0 64 (tget [] s.mem.delays k)))) ∧
  (∀ (s : State) (h : Hdr) (k off : Nat),
    let c : Cmd := .calWrite k off
    let b := salvo s.toMach h.ses off (calSpan k).2
    canTake s.toMach h c = true → 1 ≤ k → k ≤ 3 → off % 64 = 0 → (k = 3 → fld b 0 4 = 0) →
    Performs (.calWrite h k off) h s (answer h c sAccepted []) fun t =>
      t = { s with ctl := t.ctl, sys := { s.sys with jobs := t.sys.jobs } } ∧ t.sys.jobs.length = s.sys.jobs.length + 1 ∧
        t.sys.jobs.getLast?.map (·.ask) = some (some (h.ses, h.hseq, 0x0D51)) ∧
        t.sys.jobs.getLast?.map (·.patches) = some [((calSpan k).1, b)])

/-- Fault and snapshot commands (R522, R527 to R529, R532): FLT_CLEAR discards the named records of C1 and C2 without a
condition and answers how many, and how many named ones stay; SNP_TRIGGER while enabled and idle begins a snapshot under the
next ID; SNP_HOLD holds and frees a slot; FLT_INJECT delivers the message as if its source had raised it. -/
def Obligations.FaultAndSnapshotCommandsTakeEffect : Prop :=
  (∀ (s : State) (h : Hdr) (src kind : Nat),
    let c : Cmd := .fltClear src kind
    let goes (r : FaultRec) : Bool := named src kind r && clearable r
    let stays (r : FaultRec) : Bool := named src kind r && (holdsCond r || r.cls == 3)
    canTake s.toMach h c = true →
    Answers (.fltClear h src kind) s fun t =>
      t.flt.recs = (s.flt.recs.filter fun r => !goes r) ∧
        (∃ rs, posted s.toMach t.toMach h.ses = rs ∧
          rs = answer h c sOk [.w (s.flt.recs.filter goes).length, .w (s.flt.recs.filter stays).length]) ∧
        t.flt.cleared = sat s.flt.cleared (s.flt.recs.filter goes).length) ∧
  (∀ (s : State) (h : Hdr) (k : Nat), canTake s.toMach h .snpTrigger = true → bit s.snp.enables 1 = true → s.snp.busy = none →
    snapSlot s.toMach = some k →
    Performs (.snpTrigger h) h s (answer h .snpTrigger sDone [.w s.snp.nextId]) fun t =>
      t.snp.busy = some k ∧ t.snp.lastId = s.snp.nextId ∧ t.snp.triggers = sat s.snp.triggers 1 ∧
        (tget {} t.images k).now = s.now ∧ (tget {} t.images k).xb = s.xb ∧ (tget {} t.images k).is_ = s.is_ ∧
        (tget {} t.images k).flt = s.flt) ∧
  (∀ (s : State) (h : Hdr) (k hold : Nat),
    let c : Cmd := .snpHold k hold
    canTake s.toMach h c = true → k < 16 → hold ≤ 1 →
    (hold = 1 → (lget {} s.snp.slots k).held = true ∨ (s.snp.slots.filter (·.held)).length < 8) →
    Performs (.snpHold h k hold) h s (answer h c sOk []) fun t =>
      t = { s with ctl := t.ctl, snp := { s.snp with slots := lmod s.snp.slots k fun x => { x with held := hold == 1 } } }) ∧
  (∀ (s : State) (h : Hdr) (msg : Nat),
    let c : Cmd := .fltInject msg
    let src := bits msg 63 52
    canTake s.toMach h c = true → bits msg 43 40 ≤ 2 →
    Performs (.fltInject h msg) h s (answer h c sOk []) fun t =>
      t.flt.raised = sat s.flt.raised 1 ∧ tget 0 t.flt.seqs src = (tget 0 s.flt.seqs src + 1) % 256)

/-- Loads and card messages (R61, R135, R275, R421, R433): BANK_LOAD and AUD_BANK_LOAD open a load for the session and write its
entries, write to one that the session holds, or abandon it; SVC_SEND is ACCEPTED, its message queued on the lane and its reply
awaited; SESSION_ATTACH with the session's key answers the epoch and attaches it to the port. -/
def Obligations.LoadsAndMessagesTakeEffect : Prop :=
  (∀ (s : State) (h : Hdr) (p act count off : Nat),
    let c : Cmd := .bankLoad p act count off
    let data := salvo s.toMach h.ses off (8 * count)
    canTake s.toMach h c = true → p < 16 → act ≤ 1 → (s.xb.loads.all fun l => l.plane != p || l.ses == h.ses) = true →
    (loadOf s.toMach p h.ses).isSome = decide (act = 1) →
    badEntry s.toMach p (takeRecs count data) = none → ownedTake s.toMach (some h.ses) (takeRecs count data) = none →
    let write (e : Tab Nat) : Tab Nat := ((List.range count).map fun k => fld data (8 * k) 8).foldl (fun e w => tset e (takeRec w).dest w) e
    let loads := if act = 0 then s.xb.loads ++ [{ plane := p, ses := h.ses }] else s.xb.loads
    Performs (.bankLoad h p act count off) h s (answer h c sOk []) fun t =>
      t = { s with ctl := t.ctl, xb := { s.xb with planes := t.xb.planes, loads := t.xb.loads } } ∧
        t.xb.planes = (if act = 0 then lmod s.xb.planes p fun x => { x with ready := false } else s.xb.planes) ∧
        t.xb.loads = loads.map fun l => if l.plane = p ∧ l.ses = h.ses then { l with entries := write l.entries } else l) ∧
  (∀ (s : State) (h : Hdr) (p count off : Nat),
    canTake s.toMach h (.bankLoad p 2 count off) = true → p < 16 → (s.xb.loads.all fun l => l.plane != p || l.ses == h.ses) = true →
    (loadOf s.toMach p h.ses).isSome = true → (s.ctl.journal.all fun e => !e.waiting) = true →
    Performs (.bankLoad h p 2 count off) h s (answer h (.bankLoad p 2 count off) sOk []) fun t =>
      t.xb.loads = s.xb.loads.filter (fun l => l.plane != p) ∧ t.ctl.journal = s.ctl.journal) ∧
  (∀ (s : State) (h : Hdr) (x act count off : Nat),
    let c : Cmd := .audBankLoad x act count off
    let rs := mixRecs count (salvo s.toMach h.ses off (16 * count))
    canTake s.toMach h c = true → x < 16 → count ≤ 4096 → off % 16 = 0 → act ≤ 1 →
    (s.aud.loads.find? fun l => l.cluster == x).map (·.ses) = (if act = 0 then none else some h.ses) →
    badMix s.toMach (fun o => cluster s.toMach o == x) [] rs = none → (rs.all fun r => (timedBy s.toMach r.chan).isNone) = true →
    let write (w : Tab Nat) : Tab Nat := rs.foldl (fun w r => tset w (32 * r.chan + r.slot) r.tap) w
    let loads := if act = 0 then s.aud.loads ++ [{ cluster := x, ses := h.ses }] else s.aud.loads
    Performs (.audBankLoad h x act count off) h s (answer h c sOk []) fun t =>
      t = { s with ctl := t.ctl, aud := { s.aud with loads := t.aud.loads } } ∧
        t.aud.loads = loads.map fun l => if l.cluster = x ∧ l.ses = h.ses then { l with written := write l.written } else l) ∧
  (∀ (s : State) (h : Hdr) (x count off : Nat),
    canTake s.toMach h (.audBankLoad x 2 count off) = true → x < 16 → count ≤ 4096 →
    (s.aud.loads.find? fun l => l.cluster == x).map (·.ses) = some h.ses → (s.ctl.journal.all fun e => !e.waiting) = true →
    Performs (.audBankLoad h x 2 count off) h s (answer h (.audBankLoad x 2 count off) sOk []) fun t =>
      t.aud.loads = s.aud.loads.filter (fun l => !(l.ses == h.ses && l.cluster == x)) ∧ t.ctl.journal = s.ctl.journal) ∧
  (∀ (s : State) (h : Hdr) (l cls len off roff rmax timeout : Nat),
    let c : Cmd := .svcSend l cls len off roff rmax timeout
    let msg := (Config.serviceMsg s.free).toNat % 4096
    canTake s.toMach h c = true → l < 144 → cls ≤ 1 → 1 ≤ len → len ≤ 129024 → 1 ≤ timeout → timeout ≤ 10000 →
    Performs (.svcSend h l cls len off roff rmax timeout) h s (answer h c sAccepted []) fun t =>
      t = { s with ctl := t.ctl, free := s.free + 1, wl := t.wl } ∧
        t.ctl.svc = s.ctl.svc ++
          [{ ses := h.ses, hseq := h.hseq, lane := l, msg, off := roff, max := rmax, deadline := s.now + timeout * msT }] ∧
        (tx t.toMach l).svc = (tx s.toMach l).svc ++ [{ cls, msg, bytes := salvo s.toMach h.ses off len }]) ∧
  (∀ (s : State) (h : Hdr) (key : Nat), canTake s.toMach h (.sessionAttach key) = true → (ses s.toMach h.ses).key.toNat = key →
    Performs (.sessionAttach h key) h s
        (answer h (.sessionAttach key) sOk [.q s.xb.epoch, .w (topHseq (ses s.toMach h.ses)), .b 2]) fun t =>
      t = { s with ctl := t.ctl } ∧ (ses t.toMach h.ses).st = .opn ∧ (ses t.toMach h.ses).port = h.port)

/-- Pair and power commands (R483, R485, R498, R510): PAIR_DRILL is ACCEPTED and the drill runs; PAIR_FORCE 0 returns a forced
claim to ROLE 8, 1 forces the claim, 2 claims where no partner does, 3 gives a claim up; PWR_DEN on a module in SHADOW is
ACCEPTED, then DONE as P1 begins, and ends a drill; PWR_WAKE_PARTNER sends the wake message. -/
def Obligations.PairAndPowerCommandsTakeEffect : Prop :=
  (∀ (s : State) (h : Hdr), canTake s.toMach h .pairDrill = true → canDrill s.toMach = true → s.pr.st = 2 →
    Performs (.pairDrill h) h s (answer h .pairDrill sAccepted []) fun t =>
      t = { s with ctl := t.ctl, pr := { s.pr with st := 4, drilling := true, drillAsk := some (h.ses, h.hseq) } }) ∧
  (∀ (s : State) (h : Hdr) (op : Nat), canTake s.toMach h (.pairForce op) = true → claiming s.toMach = true → s.pr.chg = none →
    op = 0 ∨ op = 1 ∨ (op = 2 ∧ (partnerClaims s.toMach = false ∨ s.pr.ploss = true)) →
    Performs (.pairForce h op) h s (answer h (.pairForce op) sDone []) fun t =>
      t.pr = { s.pr with role := if op = 0 ∧ s.pr.role = 15 then 8 else if op = 1 then 15 else s.pr.role } ∧ t.xb = s.xb ∧ t.pwr = s.pwr) ∧
  (∀ (s : State) (h : Hdr) (op : Nat), canTake s.toMach h (.pairForce op) = true → s.pr.role = 4 → s.pr.chg = none →
    op = 1 ∨ (op = 2 ∧ (partnerClaims s.toMach = false ∨ s.pr.ploss = true)) →
    Answers (.pairForce h op) s fun t => t.pr.role = (if op = 1 then 15 else 8)) ∧
  (∀ (s : State) (h : Hdr), canTake s.toMach h (.pairForce 3) = true → claiming s.toMach = true → s.pr.chg = none →
    Performs (.pairForce h 3) h s (answer h (.pairForce 3) sDone []) fun t =>
      t.pr.role = 4 ∧ t.pr.st = 2 ∧ t.pwr.st = 1 ∧ t.xb = s.xb ∧ (ses t.toMach h.ses).st = .detached) ∧
  (∀ (s : State) (h : Hdr), canTake s.toMach h .pwrDen = true → canEnter s.toMach = true → s.pr.chg = none →
    Answers (.pwrDen h) s fun t =>
      t.pwr.st = 3 ∧ t.pwr.phase = 1 ∧ t.xb = s.xb ∧ t.pr.role = s.pr.role ∧ t.pr.drilling = false ∧
        (s.pr.drilling = false → (s.ln.scans.all fun x => x.ses != h.ses) = true →
          posted s.toMach t.toMach h.ses = answer h .pwrDen sAccepted [] ++ answer h .pwrDen sDone [])) ∧
  (∀ (s : State) (h : Hdr), canTake s.toMach h .pwrWakePartner = true → claiming s.toMach = true → xlUp s.toMach = true →
    partnerHere s.toMach = true → s.pr.beat.map (·.st) = some 0 →
    Performs (.pwrWakePartner h) h s (answer h .pwrWakePartner sAccepted []) fun t =>
      t = { s with ctl := t.ctl, pr := { s.pr with sentXl := t.pr.sentXl },
                   pwr := { s.pwr with wakePartner := s.pwr.wakePartner ++ [(h.ses, h.hseq)] } } ∧
        t.pr.sentXl.getLast? = some (.wake false 0 0))

/-- Update commands (R544, R545, R548): UPD_ACTIVATE makes a valid slot that does not run the next to boot, untried; UPD_CONFIRM
confirms the running slot; UPD_FUSE raises FCOUNT to the running image's SVN, or to the last fuse that burns; UPD_RESTART on a standby
beside a claiming partner restarts the module. -/
def Obligations.UpdateCommandsTakeEffect : Prop :=
  (∀ (s : State) (h : Hdr) (k : Nat),
    let c : Cmd := .updActivate k
    let new : SlotRec := { (slot s.toMach k).sr with gen := ((slot s.toMach (1 - k)).sr.gen + 1) % 2 ^ 32, trial := 1 }
    canTake s.toMach h c = true → k ≤ 1 → (slot s.toMach k).sr.valid = true → (s.upd.running = false ∨ k ≠ s.upd.runSlot) →
    (s.upd.xfer.all fun x => x.st != 3 || x.slot != k) = true → (partnerHere s.toMach = false ∨ suits s.toMach (slot s.toMach k).image = true) →
    let upd := if k = 0 then { s.upd with slotA := { s.upd.slotA with sr := new } } else { s.upd with slotB := { s.upd.slotB with sr := new } }
    Performs (.updActivate h k) h s (answer h c sDone []) fun t => t = { s with ctl := t.ctl, upd }) ∧
  (∀ (s : State) (h : Hdr), canTake s.toMach h .updConfirm = true → s.upd.running = true → s.upd.runSlot ≤ 1 →
    Performs (.updConfirm h) h s (answer h .updConfirm sDone []) fun t =>
      t = { s with ctl := t.ctl, upd := t.upd } ∧ (slot t.toMach s.upd.runSlot).sr = { (slot s.toMach s.upd.runSlot).sr with trial := 0 } ∧
        slot t.toMach (1 - s.upd.runSlot) = slot s.toMach (1 - s.upd.runSlot)) ∧
  (∀ (s : State) (h : Hdr), canTake s.toMach h .updFuse = true → s.upd.running = true →
    (slot s.toMach s.upd.runSlot).sr.trial = 0 → imgSvn (runImage s.toMach) ≤ 128 →
    let burnt := match s.upd.fuseStuck with
      | some f => max s.upd.fcount (min (imgSvn (runImage s.toMach)) (f - 1))
      | none => max s.upd.fcount (imgSvn (runImage s.toMach))
    Performs (.updFuse h) h s (answer h .updFuse sDone [.w burnt]) fun t => t.upd = { s.upd with fcount := burnt }) ∧
  (∀ (s : State) (h : Hdr), canTake s.toMach h .updRestart = true → restartBarred s.toMach = false →
    exec (.updRestart h) s = .next { s with toMach := restart s.toMach })

/-! ### Committing change sets (R22, R40, R411) -/

/-- CHANGE_SET_COMMIT takes the open entry of the lowest JSEQ: by what its command's admission answers, the entry ends refused,
waits PENDING, or commits under the next epoch; the rings are then served. -/
def Obligations.CommitSequencerOutcomes : Prop :=
  ∀ (s : State) (e : JEntry), commitsNext s.toMach e = true → (∀ a b c, e.cmd ≠ .dtStep a b c) →
    match commitCmd (commitCtx s.toMach e) e.cmd s.toMach with
    | .refuse st r => exec .changeSetCommit s = .next { s with toMach := serveRings (conclude s.toMach e.jseq 2 st r.bytes) }
    | .wait m => Answers .changeSetCommit s fun t => (jentry? t.toMach e.jseq).map (·.waiting) = (jentry? m e.jseq).map fun _ => true
    | .commit m items =>
      let m := newEpoch s.toMach m (s.xb.epoch + 1)
      let result := layout (.q (s.xb.epoch + 1) :: items)
      exec .changeSetCommit s = .next { s with toMach := serveRings (conclude m e.jseq 1 sDone result (s.xb.epoch + 1)) }

/-- Route change sets committed (R40 to R62). TAKE and SALVO: every record's destination takes its committed sources, and the
response names the instant, the planes and the late ones. PROTECT and FORCE_RELEASE: the owner of every destination of the
range. BANK_SWAP of a ready bank: the load's takes, and its plane's bank is free. DEST_BIND: the plane of the range. DEST_AUDIO:
its audio mode. -/
def Obligations.RouteChangeSetsCommit : Prop :=
  (∀ (s : State) (e : JEntry) (ts : List TakeRec) (expected : Nat), commitsNext s.toMach e = true →
    ((∃ r, e.cmd = .take r expected ∧ ts = [takeRec r]) ∨
      (∃ n off, e.cmd = .salvo n 0 off expected ∧ 1 ≤ n ∧ n ≤ 4096 ∧ ts = takeRecs n e.data)) →
    badTake s.toMach [] ts = none → ownedTake s.toMach (some e.ses) ts = none → lockedTake s.toMach none ts = none →
    mixLocked s.toMach ts = none → (expected = 0 ∨ expected = s.xb.epoch) →
    capStep s.toMach s.xb.holds (ts.zipIdx.filterMap fun x => if x.1.video.isSome then some (x.2, takeHold s.toMach x.1) else none)
      = none →
    Commits s e [.instant s.dt.t, .h (planeMask s.toMach (ts.map (·.dest))), .h (lateMask s.toMach (ts.map (·.dest)))]
      (assignFeeds (reports (ts.foldl (putTake (s.xb.epoch + 1)) s.toMach) (s.xb.epoch + 1) e.ses (ts.map (·.dest))))) ∧
  (∀ (m : Mach) (ep : Nat) (r : TakeRec), let m' := putTake ep m r
    (dest m' r.dest).src = r.video.getD (dest m r.dest).src ∧ (dest m' r.dest).asrc = r.audio.getD (dest m r.dest).asrc ∧
      ∀ d < 2304, d ≠ r.dest → dest m' d = dest m d) ∧
  (∀ (s : State) (e : JEntry) (first count : Nat) (o : Option Nat), commitsNext s.toMach e = true → 1 ≤ count →
    first + count ≤ 2304 → rangeLocked s.toMach first count = none →
    ((e.cmd = .protect first count 0 ∧ o = some e.ses ∧ protector s.toMach (some e.ses) first count = none) ∨
      (e.cmd = .protect first count 1 ∧ o = none ∧ protector s.toMach (some e.ses) first count = none) ∨
      (e.cmd = .forceRelease first count ∧ o = none)) →
    Commits s e [] (setProt s.toMach first count o) ∧
      ∀ d < 2304, dest (setProt s.toMach first count o) d =
        if first ≤ d ∧ d < first + count then { dest s.toMach d with prot := o } else dest s.toMach d) ∧
  (∀ (s : State) (e : JEntry) (p : Nat) (l : BankLoad) (m : Mach) (items : List Item), commitsNext s.toMach e = true →
    e.cmd = .bankSwap p → p < 16 → s.xb.loads.find? (fun l => l.plane == p) = some l → loadedBy s.toMach p (some e.ses) = none →
    (plane s.toMach p).ready = true →
    commitTakes (commitCtx s.toMach e) (some e.ses) (l.entries.map fun x => takeRec x.2) 0 s.toMach = .commit m items →
    Commits s e (items ++ [.w (target s.toMach p % 2 ^ 32)])
      { m with xb := { m.xb with loads := m.xb.loads.filter fun l => l.plane != p } }) ∧
  (∀ (s : State) (e : JEntry) (first count p : Nat), commitsNext s.toMach e = true → e.cmd = .destBind first count p → 1 ≤ count →
    first + count ≤ 2304 → p < 16 → rangeLocked s.toMach first count = none → stuck2022 s.toMach first count p = none →
    (∀ d, first ≤ d → d < first + count → (dest s.toMach d).plane = p) →
    (∀ d, first ≤ d → d < first + count → ∀ g ∈ [(dest s.toMach d).src, (dest s.toMach d).asrc], isGen g = true →
      (gen s.toMach (g - 2336)).plane = p) → capStep s.toMach s.xb.holds [] = none →
    Answers .changeSetCommit s fun t => t.xb.epoch = s.xb.epoch + 1 ∧ t.xb.holds = s.xb.holds ∧
      ∀ d < 2304, dest t.toMach d = dest s.toMach d) ∧
  (∀ (s : State) (e : JEntry) (d p : Nat), commitsNext s.toMach e = true → e.cmd = .destBind d 1 p → d < 2304 → p < 16 →
    rangeLocked s.toMach d 1 = none → stuck2022 s.toMach d 1 p = none → (dest s.toMach d).plane ≠ p →
    isGen (dest s.toMach d).src = false → isGen (dest s.toMach d).asrc = false →
    capStep s.toMach s.xb.holds [(0xFFFF, { dest := d, src := (dest s.toMach d).src, plane := p })] = none →
    Answers .changeSetCommit s fun t => t.xb.epoch = s.xb.epoch + 1 ∧
      dest t.toMach d = { dest s.toMach d with plane := p, vswc := some (target s.toMach p), aswc := some (target s.toMach p) } ∧
      ∀ n < 2304, n ≠ d → dest t.toMach n = dest s.toMach n) ∧
  (∀ (s : State) (e : JEntry) (first count mode : Nat), commitsNext s.toMach e = true → e.cmd = .destAudio first count mode →
    1 ≤ count → first + count ≤ 2304 → mode ≤ 1 → (mode = 1 → first + count ≤ 1152) → rangeLocked s.toMach first count = none →
    Answers .changeSetCommit s fun t => t.xb.epoch = s.xb.epoch + 1 ∧
      ∀ d < 2304, dest t.toMach d =
        if first ≤ d ∧ d < first + count then { dest s.toMach d with amode := mode } else dest s.toMach d)

/-- Source, generator and plane change sets committed (R15, R19, R35, R42, R44, R78, R92). SRC_MODE on pairs of mode 0, SRC_WARM
and SRC_WINDOW set the source's committed values; SRC_GROUP forms or dissolves a group; GEN_CFG sets a generator; PLANE_CFG sets
an unbound plane's format and phase; PLANE_SWITCH sets its line and cut-off from the switch point after the next. -/
def Obligations.SourceAndPlaneChangeSetsCommit : Prop :=
  (∀ (s : State) (e : JEntry) (k flags hold : Nat), commitsNext s.toMach e = true → e.cmd = .srcMode k 1 flags hold → k < 2304 →
    flags ≤ 1 → hold ≤ 255 →
    ((List.range 16).all fun p => !(routedOn s.toMach k p && ((Machine.pair s.toMach k p).cls == 2 || (Machine.pair s.toMach k p).cls == 0)))
      = true →
    Answers .changeSetCommit s fun t => t.xb.epoch = s.xb.epoch + 1 ∧ (srcOf t.toMach k).mode = 1 ∧
      (srcOf t.toMach k).sticky = (flags == 1) ∧ (srcOf t.toMach k).lossHold = hold) ∧
  (∀ (s : State) (e : JEntry) (k flags hold : Nat), commitsNext s.toMach e = true → e.cmd = .srcMode k 0 flags hold → k < 2304 →
    flags ≤ 1 → hold ≤ 255 → (srcOf s.toMach k).mode = 0 →
    capStep s.toMach (s.xb.holds.filter fun h => h.src != k) ((s.xb.holds.filter fun h => h.src == k).map fun h => (0xFFFF, h)) = none →
    Answers .changeSetCommit s fun t => t.xb.epoch = s.xb.epoch + 1 ∧ (srcOf t.toMach k).mode = 0 ∧
      (srcOf t.toMach k).sticky = (flags == 1) ∧ (srcOf t.toMach k).lossHold = hold) ∧
  (∀ (s : State) (e : JEntry) (k on : Nat), commitsNext s.toMach e = true → e.cmd = .srcWarm k on → k < 2304 → on ≤ 1 →
    (srcOf s.toMach k).mode ≠ 1 →
    let off (x : Src) : List Nat := if on = 1 then [] else if x.warm then List.range 16 else x.warmOff
    let m := setSrc s.toMach k fun x => { x with warm := on == 1, warmOff := off x }
    fbHeld m s.xb.holds + iceTotal m ≤ 4096 ∨ fbHeld m s.xb.holds ≤ fbHeld s.toMach s.xb.holds →
    Answers .changeSetCommit s fun t => t.xb.epoch = s.xb.epoch + 1 ∧ (srcOf t.toMach k).warm = (on == 1)) ∧
  (∀ (s : State) (e : JEntry) (a b : Nat), commitsNext s.toMach e = true → e.cmd = .srcGroup 2 a b 4095 4095 → a < b → b < 2304 →
    (srcOf s.toMach a).mode ≠ 1 → (srcOf s.toMach b).mode ≠ 1 → (srcOf s.toMach a).group = [] → (srcOf s.toMach b).group = [] →
    (srcOf s.toMach a).fmt = (srcOf s.toMach b).fmt →
    Answers .changeSetCommit s fun t => t.xb.epoch = s.xb.epoch + 1 ∧ (srcOf t.toMach a).group = [a, b] ∧
      (srcOf t.toMach b).group = [a, b]) ∧
  (∀ (s : State) (e : JEntry) (k w q : Nat), commitsNext s.toMach e = true → e.cmd = .srcWindow k w q → k < 2304 →
    (w = 0 ∨ (2 ≤ w ∧ w ≤ 80)) → 4 ≤ q → q ≤ 64 →
    Answers .changeSetCommit s fun t => t.xb.epoch = s.xb.epoch + 1 ∧ (srcOf t.toMach k).wSet = w ∧ (srcOf t.toMach k).qSet = q) ∧
  (∀ (s : State) (e : JEntry) (g p pattern audio y cb cr : Nat), commitsNext s.toMach e = true →
    e.cmd = .genCfg g p pattern audio y cb cr → g < 64 → (p = 255 ∨ p = (gen s.toMach g).plane) → p < 16 ∨ p = 255 → pattern ≤ 3 →
    audio ≤ 1 → y ≤ 1023 → cb ≤ 1023 → cr ≤ 1023 →
    Answers .changeSetCommit s fun t => t.xb.epoch = s.xb.epoch + 1 ∧
      gen t.toMach g = { plane := (gen s.toMach g).plane, pattern, tone := audio == 1, y, cb, cr }) ∧
  (∀ (s : State) (e : JEntry) (p raster scan rate l n : Nat), commitsNext s.toMach e = true →
    e.cmd = .planeCfg p raster scan rate l n → p < 16 →
    let f : Fmt := { raster, scan, rate }
    fmtOk f = true → l < totalLines f → n < totalSamples f → swLineOk f (plane s.toMach p).swLine = true →
    cutoffOk f (plane s.toMach p).cutoff = true → boundTo s.toMach p = none →
    ¬ ((plane s.toMach p).fmt = f ∧ (plane s.toMach p).phLines = l ∧ (plane s.toMach p).phSamples = n) →
    let planes := lmod s.xb.planes p fun x =>
      { x with fmt := f, phLines := l, phSamples := n, cut := false, staging := false, swLineNow := x.swLine,
               cutoffNow := x.cutoff, applyAt := min x.applyAt x.nextSw }
    Commits s e [] { s.toMach with xb := { s.xb with planes } }) ∧
  (∀ (s : State) (e : JEntry) (p line cutoff : Nat), commitsNext s.toMach e = true → e.cmd = .planeSwitch p line cutoff → p < 16 →
    swLineOk (plane s.toMach p).fmt line = true → cutoffOk (plane s.toMach p).fmt cutoff = true →
    let planes := lmod s.xb.planes p fun x => { x with swLine := line, cutoff, applyAt := x.nextSw + 1 }
    Commits s e [] { s.toMach with xb := { s.xb with planes } })

/-- Session change sets committed (R413 to R419, R430). SESSION_OPEN opens the session with its key, a free value (Assumption 5);
SESSION_CLOSE leaves no trace of the session; SUBSCRIBE, EXPERT_GRANT and SESSION_BUDGET set what they name. -/
def Obligations.SessionChangeSetsCommit : Prop :=
  (∀ (s : State) (e : JEntry) (name lease sub ic id : Nat), commitsNext s.toMach e = true →
    e.cmd = .sessionOpen name lease sub ic id → (ses s.toMach e.ses).st = .opening → (lease = 0 ∨ 100 ≤ lease) → lease ≤ 60000 →
    sub < 512 → 1 ≤ ic → ic ≤ 64 → id ≤ 1000 → cpHeld s.toMach e.ses + (ses s.toMach e.ses).cpus ≤ 448 →
    Answers .changeSetCommit s fun t => t.xb.epoch = s.xb.epoch + 1 ∧ t.free = s.free + 1 ∧
      let x := ses t.toMach e.ses
      x.st = .opn ∧ x.name = name ∧ x.sub = sub ∧ x.irqCount = ic ∧ x.irqDelay = id ∧ x.key = Config.attachKey s.free ∧
        x.lease = (if lease = 0 then 5000 else lease) ∧ x.leaseEnd = some (s.now + x.lease * msT)) ∧
  (∀ (s : State) (e : JEntry) (target : Nat), commitsNext s.toMach e = true → e.cmd = .sessionClose target →
    let n := if target = 255 then e.ses else target
    n < 64 → ((ses s.toMach n).st = .opn ∨ (ses s.toMach n).st = .detached) →
    Answers .changeSetCommit s fun t => t.xb.epoch = s.xb.epoch + 1 ∧ ses t.toMach n = {} ∧ win t.toMach n = {} ∧
      (∀ l ∈ t.xb.loads, l.ses ≠ n) ∧ (∀ l ∈ t.aud.loads, l.ses ≠ n) ∧ (∀ w ∈ t.ctl.svc, w.ses ≠ n) ∧
      ∀ d < 2304, dest t.toMach d =
        if (dest s.toMach d).prot = some n then { dest s.toMach d with prot := none } else dest s.toMach d) ∧
  (∀ (s : State) (e : JEntry) (sub ic id : Nat), commitsNext s.toMach e = true → e.cmd = .subscribe sub ic id → sub < 512 →
    1 ≤ ic → ic ≤ 64 → id ≤ 1000 →
    Answers .changeSetCommit s fun t => t.xb.epoch = s.xb.epoch + 1 ∧ (ses t.toMach e.ses).sub = sub ∧
      (ses t.toMach e.ses).irqCount = ic ∧ (ses t.toMach e.ses).irqDelay = id) ∧
  (∀ (s : State) (e : JEntry) (lease : Nat), commitsNext s.toMach e = true → e.cmd = .expertGrant 1 lease → 1 ≤ lease →
    lease ≤ 3600 → grants s.toMach e.ses < 4 →
    Answers .changeSetCommit s fun t => t.xb.epoch = s.xb.epoch + 1 ∧
      (ses t.toMach e.ses).grantEnd = some (s.now + lease * 1000 * msT)) ∧
  (∀ (s : State) (e : JEntry) (lease : Nat), commitsNext s.toMach e = true → e.cmd = .expertGrant 0 lease →
    Answers .changeSetCommit s fun t => t.xb.epoch = s.xb.epoch + 1 ∧ (ses t.toMach e.ses).grantEnd = none) ∧
  (∀ (s : State) (e : JEntry) (n cmds hare cpus : Nat), commitsNext s.toMach e = true → e.cmd = .sessionBudget n cmds hare cpus →
    n < 64 → 1 ≤ hare → hare ≤ 32 → 1 ≤ cpus → cpus ≤ 125 →
    ((ses s.toMach n).st = .opn ∨ (ses s.toMach n).st = .detached) → cpHeld s.toMach n + cpus ≤ 448 →
    Answers .changeSetCommit s fun t => t.xb.epoch = s.xb.epoch + 1 ∧
      (ses t.toMach n).cmds = (if cmds = 0 then 256 else cmds) ∧ (ses t.toMach n).hare = hare ∧ (ses t.toMach n).cpus = cpus)

/-- Ethernet and flow change sets committed (R171, R174, R181, R188 to R208). A port's split, a MAC's address and longest frame, a
wake matcher switched on or off, a context staged, enabled, disabled or deleted, a port unbound or bound while nothing feeds it,
a MAC's interface, a context's offset. -/
def Obligations.NetworkChangeSetsCommit : Prop :=
  (∀ (s : State) (e : JEntry) (p mode : Nat), commitsNext s.toMach e = true → e.cmd = .ethPortSplit p mode → p < 16 → mode ≤ 3 →
    mode ≠ tget 0 s.eth.split p → ctxOnMac s.toMach (fun k => k / 4 == p) = none →
    (s.eth.wake.find? fun x => x.2.on && x.2.mac / 4 == p && splitRate mode (x.2.mac % 4) != 100) = none →
    Answers .changeSetCommit s fun t => t.xb.epoch = s.xb.epoch + 1 ∧
      ∀ q < 16, tget 0 t.eth.split q = if q = p then mode else tget 0 s.eth.split q) ∧
  (∀ (s : State) (e : JEntry) (k addr len : Nat), commitsNext s.toMach e = true → e.cmd = .ethMacCfg k addr len →
    macExists s.toMach k = true → bit addr 40 = false → 1518 ≤ len → len ≤ 9216 →
    Commits s e [] (setMac s.toMach k fun x => { x with addr, maxFrame := len })) ∧
  (∀ (s : State) (e : JEntry) (w k check mask : Nat), commitsNext s.toMach e = true → e.cmd = .wakePattern w 0 k check mask →
    w < 8 → macExists s.toMach k = true → mask ≠ 0 →
    let wake := tmod {} s.eth.wake w fun x => { x with on := false }
    Commits s e [] { s.toMach with eth := { s.eth with wake, wakeOrder := s.eth.wakeOrder.filter (· != w) } }) ∧
  (∀ (s : State) (e : JEntry) (w k check mask : Nat), commitsNext s.toMach e = true → e.cmd = .wakePattern w 1 k check mask →
    w < 8 → macRate s.toMach k = 100 → mask ≠ 0 →
    let wakeOrder := if s.eth.wakeOrder.contains w then s.eth.wakeOrder else s.eth.wakeOrder ++ [w]
    let m := { s.toMach with
      eth := { s.eth with wakeOrder, wake := tset s.eth.wake w { on := true, mac := k, check, mask } } }
    tooCostly s.toMach m = false → Commits s e [] m) ∧
  (∀ (s : State) (e : JEntry) (c off : Nat), commitsNext s.toMach e = true → e.cmd = .flowDefine c 0 off → c < 16384 →
    (ctx s.toMach c).st < 2 → descOk s.toMach c (descOf e.data) = true →
    ((descOf e.data).dir = 0 → rxConflict s.toMach c (descOf e.data) = none) →
    let ctxs := tset s.flw.ctxs c { st := 1, d := descOf e.data }
    let cnts := if (ctx s.toMach c).st = 0 then tdel s.flw.cnts c else s.flw.cnts
    Commits s e [] { s.toMach with flw := { s.flw with ctxs, cnts } }) ∧
  (∀ (s : State) (e : JEntry) (c off : Nat), commitsNext s.toMach e = true → e.cmd = .flowDefine c 2 off → c < 16384 →
    (ctx s.toMach c).st = 1 → (pairOf s.toMach c) = [c] → (ctx s.toMach c).d.dir = 0 →
    flowShort s.toMach (enableOne s.toMach c) = none → Commits s e [] (enableOne s.toMach c)) ∧
  (∀ (s : State) (e : JEntry) (c off : Nat), commitsNext s.toMach e = true → e.cmd = .flowDefine c 3 off → c < 16384 →
    (ctx s.toMach c).st ≠ 0 → ((pairOf s.toMach c).all fun k => decide ((ctx s.toMach k).st < 3)) = true →
    Commits s e [] ((pairOf s.toMach c).foldl disableOne s.toMach)) ∧
  (∀ (s : State) (e : JEntry) (c off : Nat), commitsNext s.toMach e = true → e.cmd = .flowDefine c 4 off → c < 16384 →
    (ctx s.toMach c).st = 1 → (pairOf s.toMach c) = [c] → namedBy s.toMach c = none → (ctx s.toMach c).d.partner = 0xFFFF →
    Commits s e [] { s.toMach with flw := { s.flw with ctxs := tdel s.flw.ctxs c } }) ∧
  (∀ (s : State) (e : JEntry) (p flags : Nat), commitsNext s.toMach e = true → e.cmd = .flowPort 0xFFFF p flags → p < 1152 →
    flags ≤ 1 → (ingress s.toMach p).cur = none → (ingress s.toMach p).swap = none →
    Commits s e [] (setIngress s.toMach p fun i => { i with swap := none, com := none })) ∧
  (∀ (s : State) (e : JEntry) (c p flags : Nat), commitsNext s.toMach e = true → e.cmd = .flowPort c p flags → c < 16384 →
    p < 1152 → flags ≤ 1 → (ctx s.toMach c).st = 2 → (ctx s.toMach c).d.dir = 0 → (ctx s.toMach c).d.video = true →
    (ctx s.toMach c).d.typ ≠ 4 → namedBy s.toMach c = none → (ingress s.toMach p).cur = none → (ingress s.toMach p).swap = none →
    (ingress s.toMach p).com = none → flowShort s.toMach ((pairOf s.toMach c).foldl enableOne s.toMach) = none →
    Answers .changeSetCommit s fun t => t.xb.epoch = s.xb.epoch + 1 ∧ (ctx t.toMach c).st = 3 ∧ (ctx t.toMach c).port = p ∧
      (ingress t.toMach p).cur = some c ∧ (ingress t.toMach p).com = some c) ∧
  (∀ (s : State) (e : JEntry) (k off : Nat), commitsNext s.toMach e = true → e.cmd = .flowIf k off → macExists s.toMach k = true →
    let d := e.data
    let i : Iface := { ip4 := sub d 0 4, pre4 := fld d 4 1, gw4 := sub d 8 4, ip6 := sub d 16 16, pre6 := fld d 32 1, gw6 := sub d 40 16 }
    i.pre4 ≤ 32 → i.pre6 ≤ 128 → ((sub d 5 3 ++ sub d 12 4 ++ sub d 33 7 ++ sub d 56 8).all (· == 0)) = true →
    Commits s e [] { s.toMach with flw := { s.flw with ifs := tset s.flw.ifs k i } }) ∧
  (∀ (s : State) (e : JEntry) (c off : Nat), commitsNext s.toMach e = true → e.cmd = .flowOffset c 0 off → c < 16384 →
    (ctx s.toMach c).st ≠ 0 → (ctx s.toMach c).d.dir ≠ 1 →
    let d := { (ctx s.toMach c).d with flags := (ctx s.toMach c).d.flags - 32 * b2n (ctx s.toMach c).d.auto, offset := off }
    let m := setCtx s.toMach c fun x => { x with d, moved := decide (2 ≤ x.st) }
    offsetOk d ((ctx s.toMach c).d.partner != 0xFFFF) = true → flowShort s.toMach m = none → Commits s e [] m)

/-- Compositor change sets committed (R222, R225, R232, R235, R240). CMP_BIND on its plane, CMP_LAYOUT, CMP_GUARD, CMP_FREEZE and
CMP_COEF each give the compositor a new committed layout, which its plane takes at its next switch point. -/
def Obligations.CompositorChangeSetsCommit : Prop :=
  (∀ (s : State) (e : JEntry) (k p dither audwin back : Nat), commitsNext s.toMach e = true → e.cmd = .cmpBind k p dither audwin back →
    k < 32 → let l := (cmpr s.toMach k).com
    (p = 255 ∨ (p < 16 ∧ p = l.plane ∧ (plane s.toMach p).fmt.scan = 0)) → dither ≤ 3 → (audwin ≤ 63 ∨ audwin = 127) → back < 2 ^ 30 →
    Commits s e [] (putLayout s.toMach k { l with dither, audwin, back })) ∧
  (∀ (s : State) (e : JEntry) (k off : Nat) (i : Nat) (w : Win) (l : Layout), commitsNext s.toMach e = true →
    e.cmd = .cmpLayout k 1 off → k < 32 →
    let old := (cmpr s.toMach k).com
    winRecord s.toMach k old (sub e.data 0 32) = some (i, some w) → tget? i old.wins = none → old.frozen = [] →
    let f := (plane s.toMach old.plane).fmt
    admitRates f f old [(i, some (markWin s.toMach w))] (markScan s.toMach { old with wins := tset old.wins i w }) = .inl l →
    capStep s.toMach s.xb.holds [(0, holdOf k old.plane i w.src)] = none →
    Answers .changeSetCommit s fun t => t.xb.epoch = s.xb.epoch + 1 ∧ (cmpr t.toMach k).com = l ∧
      (cmpr t.toMach k).pend = (cmpr s.toMach k).pend ++ [(l.plane, target s.toMach l.plane, l)] ∧
      holdOf k old.plane i w.src ∈ t.xb.holds) ∧
  (∀ (s : State) (e : JEntry) (k off : Nat) (i : Nat) (r : Option Region), commitsNext s.toMach e = true →
    e.cmd = .cmpGuard k 1 off → k < 32 → let l := (cmpr s.toMach k).com
    regionRecord (plane s.toMach l.plane).fmt (s.xb.epoch + 1) (sub e.data 0 32) = some (i, r) →
    let regions := match r with
      | some w => tset l.regions i w
      | none => tdel l.regions i
    Commits s e [] (putLayout s.toMach k { l with regions })) ∧
  (∀ (s : State) (e : JEntry) (k w : Nat), commitsNext s.toMach e = true → e.cmd = .cmpFreeze k w 1 → k < 32 →
    let l := (cmpr s.toMach k).com
    (tget? w l.wins).isSome = true → l.frozen.contains w = false → fbFree s.toMach s.xb.holds ≠ 0 →
    let holds := endHolds s.xb.holds (winHold k w) l.plane (target s.toMach l.plane)
    Commits s e [] (putLayout { s.toMach with xb := { s.xb with holds } } k { l with frozen := l.frozen ++ [w] })) ∧
  (∀ (s : State) (e : JEntry) (k w : Nat) (x : Win), commitsNext s.toMach e = true → e.cmd = .cmpFreeze k w 0 → k < 32 →
    let l := (cmpr s.toMach k).com
    tget? w l.wins = some x → l.frozen.contains w = true → capStep s.toMach s.xb.holds [(0xFFFF, holdOf k l.plane w x.src)] = none →
    Answers .changeSetCommit s fun t => t.xb.epoch = s.xb.epoch + 1 ∧ t.xb.holds = s.xb.holds ++ [holdOf k l.plane w x.src] ∧
      (cmpr t.toMach k).com = { l with frozen := l.frozen.filter (· != w) } ∧
      (cmpr t.toMach k).thaw = (cmpr s.toMach k).thaw ++ [w]) ∧
  (∀ (s : State) (e : JEntry) (k n off : Nat), commitsNext s.toMach e = true → e.cmd = .cmpCoef k n off → k < 32 → 4 ≤ n → n ≤ 7 →
    (coefWords e.data).all signExtended = true → phasesOk ((coefWords e.data).map (ofBits 16)) = true →
    let l := (cmpr s.toMach k).com
    Commits s e [] (putLayout s.toMach k { l with sets := tset l.sets n ((coefWords e.data).map (ofBits 16)) }))

/-- Audio change sets committed (R246, R255 to R280, R284 to R299). A mix record becomes a timed tap of its channel, at the block
after next or at its plane's switch point; a group's converters, a destination's offset, the history of free rings, meters, a
bank swap or a rate at the next block; a disabled port is set and a ring of it sized. -/
def Obligations.AudioChangeSetsCommit : Prop :=
  (∀ (s : State) (e : JEntry) (ramp anchor off : Nat) (r : MixRec), commitsNext s.toMach e = true →
    e.cmd = .audMix 1 ramp anchor off → ramp ≤ 63 → (anchor ≤ 15 ∨ anchor = 255) → mixRecs 1 e.data = [r] →
    badMix s.toMach (fun _ => true) [] [r] = none → mixLoader s.toMach r.chan 1 = none →
    Commits s e [] (putTimed s.toMach {
      epoch := s.xb.epoch + 1, ses := e.ses, chan := r.chan, slot := some r.slot, tap := r.tap, len := ramp + 1
      start := if anchor = 255 then some (blockAfter s.toMach * blockLen s.toMach) else none
      plane := anchor, target := target s.toMach anchor })) ∧
  (∀ (s : State) (e : JEntry) (k : Nat), commitsNext s.toMach e = true → e.cmd = .audGroup k 0 → deembeds s.toMach k = true →
    (group s.toMach k).convert = true → Commits s e [] (setGrp s.toMach k fun a => { a with convert := false })) ∧
  (∀ (s : State) (e : JEntry) (k : Nat), commitsNext s.toMach e = true → e.cmd = .audGroup k 1 → deembeds s.toMach k = true →
    (group s.toMach k).convert = false → (srcGroup s.toMach k).2 * convCost s.toMach ≤ (bestCore s.toMach).2 →
    Answers .changeSetCommit s fun t => t.xb.epoch = s.xb.epoch + 1 ∧
      group t.toMach k = { group s.toMach k with convert := true, core := (bestCore s.toMach).1, mismatch := false }) ∧
  (∀ (s : State) (e : JEntry) (d us : Nat), commitsNext s.toMach e = true → e.cmd = .audOffset d us → d < 2304 → us ≤ 500000 →
    loadedBy s.toMach (dest s.toMach d).plane none = none →
    ((dest s.toMach d).amode = 0 → mixLoader s.toMach (destGroup s.toMach d).1 (destGroup s.toMach d).2 = none) →
    Commits s e [] (rewriteGroup (setAdest s.toMach d fun x => { x with user := us }) (s.xb.epoch + 1) d
      (blockAfter s.toMach * blockLen s.toMach))) ∧
  (∀ (s : State) (e : JEntry) (ch len : Nat), commitsNext s.toMach e = true → e.cmd = .audHistory ch 1 len → ch < chanCount s.toMach →
    (if s.aud.rate = 0 then 1536 ≤ len ∧ len ≤ 480000 else 3072 ≤ len ∧ len ≤ 960000) → needsMore s.toMach ch len = none →
    max len (ringOf s.toMach ch) - max (ringOf s.toMach ch) (tget 0 s.aud.lenNext ch) ≤ poolFree s.toMach →
    let lenNext := if ringOf s.toMach ch = len then tdel s.aud.lenNext ch else tset s.aud.lenNext ch len
    Commits s e [] { s.toMach with aud := { s.aud with lenNext } }) ∧
  (∀ (s : State) (e : JEntry) (ch op off : Nat), commitsNext s.toMach e = true → e.cmd = .audMeter ch 1 op off → op ≤ 1 →
    ch < chanCount s.toMach →
    let m := { s.toMach with aud := { s.aud with meters := tmod {} s.aud.meters ch fun x => { x with on := op == 1 } } }
    (op = 1 → ∀ y < 128, kres m y ≤ 36336) → Commits s e [] m) ∧
  (∀ (s : State) (e : JEntry) (k : Nat), commitsNext s.toMach e = true → e.cmd = .audBankSwap (2 ^ k) → k < 16 →
    (s.aud.loads.find? fun l => l.cluster == k).map (·.ses) = some e.ses →
    (s.aud.loads.all fun l => l.cluster != k || l.ses == e.ses) = true → bit s.aud.ready k = true →
    let b : BlockChange := { epoch := s.xb.epoch + 1, ses := e.ses, hseq := e.hseq, swap := 2 ^ k, rate := none }
    Commits s e [.q (blockAt s.dt.t + 1)] { s.toMach with aud := { s.aud with blockChg := s.aud.blockChg ++ [b] } }) ∧
  (∀ (s : State) (e : JEntry) (r : Nat), commitsNext s.toMach e = true → e.cmd = .audRate r → r ≤ 1 → s.aud.taps = [] →
    s.flw.ctxs = [] → (s.apt.ports.all fun x => !x.2.cfg.enable) = true →
    let b : BlockChange := { epoch := s.xb.epoch + 1, ses := e.ses, hseq := e.hseq, swap := 0, rate := some r }
    Commits s e [] { s.toMach with aud := { s.aud with blockChg := s.aud.blockChg ++ [b] } }) ∧
  (∀ (s : State) (e : JEntry) (n format k w mm flags nout il ol : Nat), commitsNext s.toMach e = true →
    e.cmd = .aptCfg n format k w mm flags nout il ol → n < 32 → flags ≤ 63 →
    let c := aptCfgOf format k w mm flags nout il ol
    aptCfgOk s.toMach n c = true → (apt s.toMach n).cfg.enable = false →
    (c.enable = false → Commits s e [] (setApt s.toMach n fun p => { p with cfg := c })) ∧
    (c.enable = true → c.conv = false → (apt s.toMach n).n * atRate s.toMach 32 ≤ poolFree s.toMach →
      Answers .changeSetCommit s fun t => t.xb.epoch = s.xb.epoch + 1 ∧ (apt t.toMach n).cfg = c ∧ (apt t.toMach n).st = 1)) ∧
  (∀ (s : State) (e : JEntry) (n len : Nat), commitsNext s.toMach e = true → e.cmd = .aptRing n len → n < 32 → 64 ≤ len →
    len ≤ 4096 → ringL s.toMach (apt s.toMach n).cfg.outLat ≤ len → (apt s.toMach n).cfg.enable = false →
    Commits s e [] (setApt s.toMach n fun p => { p with n := len, nPend := none }))

/-- Timing change sets committed (R301 to R338). The settings of candidates, line references, the selector, the class map and the
loops are queued for the timing task, in order; APLL, CLKOUT and word-clock settings act at once: an APLL given a new ratio is
bypassed until it locks again, an output set as PAIRED waits for its grant. -/
def Obligations.TimingChangeSetsCommit : Prop :=
  (∀ (s : State) (e : JEntry) (data : List Byte), commitsNext s.toMach e = true →
    ((∃ cd k p f nu de w so ha sl lo dl, e.cmd = .tmgRefCfg cd k p f nu de w so ha sl lo dl ∧ cd ≤ 13 ∧
        (4 ≤ cd ∨ k ≤ 2 ∨ (k = 3 ∧ nu ≠ 0) ∨ (k = 4 ∧ 1000 * de ≤ nu ∧ nu ≤ 750000000 * de)) ∧ p ≤ 15 ∧ f < 128 ∧ 1 ≤ de ∧ de ≤ 65535 ∧
        w ≤ 3600 ∧ 10 ≤ so ∧ so ≤ 50000 ∧ 20 ≤ ha ∧ ha ≤ 100000 ∧ so < ha ∧ 1 ≤ sl ∧ sl ≤ 50000 ∧ 2 ≤ lo ∧ lo ≤ 16 ∧ data = []) ∨
      (∃ l n i, e.cmd = .tmgLrefBind l n i ∧ l ≤ 7 ∧ (n ≤ 143 ∨ n = 255) ∧ i ≤ 15 ∧ data = []) ∨
      (∃ mo fo fl ho fr, e.cmd = .tmgSelCfg mo fo fl ho fr ∧ mo ≤ 3 ∧ fo ≤ 13 ∧ fl ≤ 3 ∧ ho ≤ 15 ∧ fr ≤ 15 ∧ data = []) ∨
      (∃ off, e.cmd = .tmgClassMap off ∧ (e.data.all fun b => decide (b.toNat ≤ 15)) = true ∧ data = e.data) ∨
      (∃ t a tt w n al g h l, e.cmd = .tmgLoopCfg t a tt w n al g h l ∧ t ≤ 14 ∧ a ≤ 14 ∧ 100 ≤ tt ∧ tt ≤ 60000 ∧ 1 ≤ w ∧ w ≤ 10000 ∧
        4 ≤ n ∧ n ≤ 1024 ∧ 1 ≤ al ∧ al ≤ 10000 ∧ g ≤ 10000 ∧ 1 ≤ h ∧ h ≤ 3600 ∧ 1 ≤ l ∧ l ≤ 720 ∧ data = [])) →
    Commits s e [] (dpll s.toMach fun d => { d with queued := d.queued ++ [(e.cmd, data)] })) ∧
  (∀ (s : State) (e : JEntry) (a i n d : Nat), commitsNext s.toMach e = true → e.cmd = .tmgApllCfg a i n d → a ≤ 7 → 20 ≤ i → i ≤ 60 →
    1 ≤ d → d ≤ 16777215 → n < d → (i = 60 → n = 0) → ¬ ((apll s.toMach a).mint = i ∧ (apll s.toMach a).mnum = n ∧ (apll s.toMach a).mden = d) →
    ((fedBy s.toMach a).all fun o => o.2.src != 1 || clockFits i n d o.2.d o.2.level) = true →
    ((fedBy s.toMach a).all fun o => !(o.2.paired && o.2.grant)) = true →
    Commits s e [] (setApll s.toMach a fun x =>
      { x with mint := i, mnum := n, mden := d, lock := false, bypass := true, byp := sat x.byp (b2n !x.bypass) })) ∧
  (∀ (s : State) (e : JEntry) (k src a level d plane flags width : Nat) (outdly : Int), commitsNext s.toMach e = true →
    e.cmd = .tmgClkoutCfg k src a level d plane flags width outdly → k ≤ 11 → src ≤ 3 → a ≤ 7 → level ≤ 4 → bit flags 0 = false → flags ≤ 7 →
    (src = 1 → 1 ≤ d ∧ d ≤ 16777215 ∧ clockFits (apll s.toMach a).mint (apll s.toMach a).mnum (apll s.toMach a).mden d level = true) →
    (src = 3 → plane ≤ 15) → (2 ≤ src → 2 ≤ width) → (clkOut s.toMach k).wclk = false → (s.tmg.outs.all fun o => !o.2.paired) = true →
    Answers .changeSetCommit s fun t => t.xb.epoch = s.xb.epoch + 1 ∧ (clkOut t.toMach k).src = src ∧ (clkOut t.toMach k).apll = a ∧
      (clkOut t.toMach k).level = level ∧ (clkOut t.toMach k).d = d % 2 ^ 24 ∧ (clkOut t.toMach k).paired = false ∧
      (clkOut t.toMach k).width = width ∧ (clkOut t.toMach k).outdly = outdly ∧
      (clkOut t.toMach k).drive = (src != 0 && s.pwr.st != 2)) ∧
  (∀ (s : State) (e : JEntry) (k a level : Nat) (outdly : Int), commitsNext s.toMach e = true → e.cmd = .tmgWclkCfg k 1 a level outdly →
    k ≤ 11 → a ≤ 7 → level ≤ 4 → (clkOut s.toMach k).src = 0 →
    Commits s e [] (setOut s.toMach k fun o =>
      { o with wclk := true, apll := a, level, outdly, paired := false, grant := false, drive := s.pwr.st != 2 })) ∧
  (∀ (s : State) (e : JEntry) (k a level : Nat) (outdly : Int), commitsNext s.toMach e = true → e.cmd = .tmgWclkCfg k 0 a level outdly →
    k ≤ 11 → a ≤ 7 → level ≤ 4 → (clkOut s.toMach k).wclk = true →
    Commits s e [] (setOut s.toMach k fun o => { o with wclk := false, drive := false }))

/-- Device-time and memory change sets committed (R350, R360, R368 to R386, R206), and DT_STEP, which is journalled and asks for its change
of device time as it is taken (R353). -/
def Obligations.DeviceTimeChangeSetsCommit : Prop :=
  (∀ (s : State) (e : JEntry) (mode steplim : Nat), commitsNext s.toMach e = true → e.cmd = .dtCfg mode steplim → mode ≤ 1 →
    steplim ≤ 10000 → Commits s e [] { s.toMach with dt := { s.dt with mode, steplim } }) ∧
  (∀ (s : State) (e : JEntry) (mode : Nat), commitsNext s.toMach e = true → e.cmd = .dtPinCfg mode → mode ≤ 1 →
    (mode = 1 → bit s.snp.enables 0 = false) → Commits s e [] { s.toMach with dt := { s.dt with pps := mode == 1 } }) ∧
  (∀ (s : State) (e : JEntry) (d p1 p2 ts u f i co : Nat), commitsNext s.toMach e = true → e.cmd = .ptpCfg d p1 p2 ts u f i co → d ≤ 127 →
    f ≤ 7 → let classOut := (le 16 co).map BitVec.toNat
    Commits s e [] (bmca (fun _ => false) (setPtp s.toMach fun x =>
      { x with domain := d, prio1 := p1, prio2 := p2, timesrc := ts, utc := u, flags := f, ident := i, classOut }))) ∧
  (∀ (s : State) (e : JEntry) (p f an : Nat) (ls la ld rx_ tx_ as_ : Int), commitsNext s.toMach e = true →
    e.cmd = .ptpPortCfg p 255 f ls la an ld rx_ tx_ as_ → p ≤ 15 → f ≤ 7 → slavePort s.toMach ≠ some p →
    Answers .changeSetCommit s fun t => t.xb.epoch = s.xb.epoch + 1 ∧
      pport t.toMach p = { pport s.toMach p with mac := none, st := 0, foreign := [], best := none }) ∧
  (∀ (s : State) (e : JEntry) (p k f an : Nat) (ls la ld rx_ tx_ as_ : Int), commitsNext s.toMach e = true →
    e.cmd = .ptpPortCfg p k f ls la an ld rx_ tx_ as_ → p ≤ 15 → k ≤ 63 → f ≤ 7 → -7 ≤ ls → ls ≤ -1 → -3 ≤ la → la ≤ 1 → 2 ≤ an → an ≤ 10 →
    ls ≤ ld → ld ≤ ls + 5 → hasIface s.toMach k (bit f 0) = true → ((pports s.toMach).all fun q => q == p || (pport s.toMach q).mac != some k) = true →
    (pport s.toMach p).mac ≠ some k → slavePort s.toMach = none →
    Answers .changeSetCommit s fun t => t.xb.epoch = s.xb.epoch + 1 ∧
      pport t.toMach p = { pport s.toMach p with mac := some k, st := 1, foreign := [], best := none, trips := [], flags := f, logSync := ls
                                                 logAnn := la, annTimeout := an, logDelay := ld, rxdly := rx_, txdly := tx_, asym := as_ }) ∧
  (∀ (s : State) (e : JEntry) (sbw st sl : Nat), commitsNext s.toMach e = true → e.cmd = .ptpServoCfg sbw st sl → 2 ≤ sbw → sbw ≤ 6 → 100 ≤ st →
    st ≤ s.dt.steplim → 1 ≤ sl → sl ≤ 100000 → Commits s e [] (setPtp s.toMach fun x => { x with sbw, stepThr := st, slew := sl })) ∧
  (∀ (s : State) (e : JEntry) (p b : Nat), commitsNext s.toMach e = true → e.cmd = .memPortCfg p b → p ≤ 82 →
    let f (x : MemPort) : MemPort := { x with budget := if b = 0xFFFF then none else some b }
    let m := { s.toMach with mem := { s.mem with ports := tmod {} s.mem.ports p f } }
    (∀ n < 4, stackSum m n ≤ 14080 ∨ stackSum m n ≤ stackSum s.toMach n) → Commits s e [] m) ∧
  (∀ (s : State) (h : Hdr) (sec ns : Int) (flags : Nat), canTake s.toMach h (.dtStep sec ns flags) = true →
    stepRefused s.toMach sec ns flags = none → let delta := stepNs sec ns * (nsU : Nat)
    Answers (.dtStep h sec ns flags) s fun t =>
      t.dt = { s.dt with reqs := s.dt.reqs ++ [{
        delta, kind := stepKind s.toMach delta, ses := some (h.ses, h.hseq), jseq := s.ctl.jnext
        at_ := if stepKind s.toMach delta = 2 then s.dt.t + s.dt.incr else stepBoundary s.dt.t }] } ∧
      (t.ctl.journal.find? fun x => x.jseq == s.ctl.jnext).any (·.asked) = true ∧ t.ctl.jnext = s.ctl.jnext + 1 ∧
      (xlUp s.toMach = false →
        posted s.toMach t.toMach h.ses = mkResps (Cmd.dtStep sec ns flags).opcode sAccepted 0 h.hseq s.ctl.jnext []))

/-- The module's own change sets committed (R480, R484, R509, R521, R527, R547). PAIR_CHANGEOVER waits: the sequence of a changeover
begins and the partner is sent a wake message; PAIR_CFG, PWR_CFG, FLT_CFG, SNP_CFG and UPD_SVC_CFG set what they name. -/
def Obligations.ModuleChangeSetsCommit : Prop :=
  (∀ (s : State) (e : JEntry) (p w : Nat), commitsNext s.toMach e = true → e.cmd = .pairChangeover p w → (p ≤ 15 ∨ p = 255) → w ≤ 60 →
    canChange s.toMach = true →
    Answers .changeSetCommit s fun t => t.xb = s.xb ∧ (jentry? t.toMach e.jseq).any (·.waiting) = true ∧
      t.pr = { s.pr with sentXl := t.pr.sentXl, chg := some {
        phase := 1, c := s.now, warmMax := if w = 0 then s.pr.cfg.warmMax else w, plane := if p = 255 then s.pr.cfg.plane else p
        jseq := e.of, byGrade := false } } ∧
      t.pr.sentXl.getLast? = some (.wake true (if p = 255 then s.pr.cfg.plane else p) (if w = 0 then s.pr.cfg.warmMax else w)) ∧ posted s.toMach t.toMach e.ses = mkResps e.cmd.opcode sPending 0 e.hseq e.of []) ∧
  (∀ (s : State) (e : JEntry) (demote flags p drill warmMax : Nat), commitsNext s.toMach e = true →
    e.cmd = .pairCfg demote flags p drill warmMax → demote ≤ 15 → flags ≤ 7 → p ≤ 15 → drill ≤ 168 → 1 ≤ warmMax → warmMax ≤ 60 →
    let keep (b : Nat) : Bool := bit flags (b + 1)
    let old := s.pr.keepOrder.filter fun b => if b = 0 then keep 0 else keep 1
    let keepOrder := old ++ [0, 1].filter fun b => keep b && !old.contains b
    let cfg : PairCfg := { demote, denAuto := bit flags 0, keepA := keep 0, keepB := keep 1, plane := p, drill, warmMax }
    let m := { s.toMach with pr := { s.pr with cfg, keepOrder } }
    tooCostly s.toMach m = false → Commits s e [] m) ∧
  (∀ (s : State) (e : JEntry) (hold flags : Nat), commitsNext s.toMach e = true → e.cmd = .pwrCfg hold flags → (hold = 0 ∨ 10 ≤ hold) →
    hold ≤ 3600 → flags ≤ 1 → Commits s e [] { s.toMach with pwr := { s.pwr with shadowHold := hold, limchk := flags == 1 } }) ∧
  (∀ (s : State) (e : JEntry) (escn esct fnclass budget : Nat), commitsNext s.toMach e = true → e.cmd = .fltCfg escn esct fnclass budget →
    2 ≤ escn → escn ≤ 64 → 10 ≤ esct → esct ≤ 60000 → 1 ≤ fnclass → fnclass ≤ 3 → 1 ≤ budget → budget ≤ 64 →
    Commits s e [] { s.toMach with flt := { s.flt with escn, esct, fnclass, budget } }) ∧
  (∀ (s : State) (e : JEntry) (en sc src kind div ms mns period : Nat), commitsNext s.toMach e = true →
    e.cmd = .snpCfg en sc src kind div ms mns period → en ≤ 31 → sc ≤ 3 → 1 ≤ div → ms < 2 ^ 48 → mns < 1000000000 →
    (bit en 0 = true → s.dt.pps = false) →
    let frames := if bit s.snp.enables 4 then s.snp.frames else 0
    let unit : MatchUnit := { on := bit en 2, at_ := ms * secU + mns * nsU, period }
    let snp := { s.snp with enables := en, sclass := sc, src, kind, div, matchSec := ms, matchNs := mns, period, frames }
    Commits s e [] { s.toMach with snp, dt := { s.dt with units := tset s.dt.units 0 unit } }) ∧
  (∀ (s : State) (e : JEntry) (on : Nat), commitsNext s.toMach e = true → e.cmd = .updSvcCfg on → on ≤ 1 → s.upd.xfer = none →
    Commits s e [] { s.toMach with upd := { s.upd with svcOn := on == 1 } })

/-! ### The bus matrix (R442 to R455, R581) -/

/-- Register writes that the matrix carries out (R5, R444, R448, R453, R367). SYS_REMAP and BUS_LOCK only ever set their bit and
BUS_ACC_t only narrows codes, each by CP_0; a 1 written to VALID of BUS_ERR_INFO or to JUMP of DT_STAT clears it, a 0 leaves it.
Accesses that nothing carries out (R442 to R444): the default target counts them, keeps the first one's record until VALID is
cleared, and answers an error with data 0 and a fault, or all ones with the port's event to a host. A target that does not answer
in time also raises its fault. -/
def Obligations.BusControlAndDefaultTargetAnswer : Prop :=
  (∀ (s : State) (v : Nat), busCase s.toMach 0 (regAddr 16 0x20) true = none →
    Takes (.sysRemapWrite 0 v) s { s.toMach with bus := { s.bus with rerr := false, remap := s.bus.remap || bit (v % 2 ^ 32) 0 } }) ∧
  (∀ (s : State) (v : Nat), busCase s.toMach 0 (regAddr 17 0x10) true = none →
    Takes (.busLockWrite 0 v) s { s.toMach with bus := { s.bus with rerr := false, lock := s.bus.lock || bit (v % 2 ^ 32) 0 } }) ∧
  (∀ (s : State) (k v : Nat), isTarget k = true → busCase s.toMach 0 (regAddr 17 (0x100 + 4 * k)) true = none → s.bus.lock = false →
    Answers (.busAccWrite 0 k v) s fun t => t.toMach = { s.toMach with bus := { s.bus with rerr := false, acc := t.bus.acc } } ∧
      (∀ i < 11, acc t.toMach k / 4 ^ i % 4 = narrowed (acc s.toMach k / 4 ^ i % 4) (v / 4 ^ i % 4)) ∧
      ∀ j < 37, j ≠ k → acc t.toMach j = acc s.toMach j) ∧
  (∀ (s : State) (master v : Nat), master ≤ 10 → busCase s.toMach master (regAddr 17 0x28) true = none →
    Takes (.busErrInfoClear master v) s
      { s.toMach with bus := { s.bus with rerr := false, errValid := s.bus.errValid && !bit (v % 2 ^ 32) 31 } }) ∧
  (∀ (s : State) (master v : Nat), master ≤ 10 → busCase s.toMach master (regAddr 30 0x10) true = none →
    Takes (.dtStatJumpClear master v) s
      { s.toMach with bus := { s.bus with rerr := false }, dt := { s.dt with jump := s.dt.jump && !bit (v % 2 ^ 32) 29 } }) ∧
  (∀ (s : State) (master a : Nat) (write : Bool) (v c : Nat), master ≤ 10 → a < 2 ^ 40 → busCase s.toMach master a write = some c → c ≠ 5 →
    tableRoom s.toMach = true →
    let host := (hostPort master).isSome
    Answers (.defaultTargetAccess master a write v) s fun t => t.xb = s.xb ∧ t.pwr = s.pwr ∧
      t.bus = { s.bus with
        errValid := true
        errAddr := if s.bus.errValid then s.bus.errAddr else a
        errWrite := if s.bus.errValid then s.bus.errWrite else write
        errCase := if s.bus.errValid then s.bus.errCase else c
        errMaster := if s.bus.errValid then s.bus.errMaster else master
        errTarget := if s.bus.errValid then s.bus.errTarget else ((targetOf a).map (·.1)).getD 63
        deny := if c = 1 ∨ c = 2 ∨ c = 4 then sat s.bus.deny 1 else s.bus.deny
        decode := if c = 0 ∨ c = 3 then sat s.bus.decode 1 else s.bus.decode
        rerr := !host
        rdata := if write then s.bus.rdata else if host then 0xFFFFFFFF else 0 } ∧
      (host = false → recorded t.toMach 0xDD0 0x85 = true) ∧
      ∀ p, hostPort master = some p → tget 0 t.ctl.irqs (128 * p + 64) = tget 0 s.ctl.irqs (128 * p + 64) + 1 ∧ t.flt = s.flt) ∧
  (∀ (s : State) (master a t o : Nat) (write : Bool), master ≤ 6 → a < 2 ^ 40 → busCase s.toMach master a write = none →
    targetOf a = some (t, o) → s.flt.recs.length < 2047 →
    Answers (.busTargetTimeout master a write) s fun u => u.xb = s.xb ∧ u.pwr = s.pwr ∧ u.bus.timeout = sat s.bus.timeout 1 ∧
      u.bus.rerr = true ∧ recorded u.toMach 0xDD0 0x84 = true ∧ recorded u.toMach 0xDD0 0x85 = true)

/-- Reads and writes over the matrix (R4, R5, R446, R449, R453, R581). An RC counter is answered and cleared, but for a host or the
debug port; a read of a low half keeps its partner halves for the master that read it, which reads them as they were; a write
of a selection register or of memory lands; the management port reads as the debug master. -/
def Obligations.BusAccessesTakeEffect : Prop :=
  (∀ (s : State) (master a t o : Nat) (f : Mach → Mach), master ≤ 10 → a < 2 ^ 40 → busCase s.toMach master a false = none →
    targetOf a = some (t, o) → 16 ≤ t → (regIn s.toMach (hostPort master) t o).rc = some f →
    (regIn s.toMach (hostPort master) t o).latches = [] → (regIn s.toMach (hostPort master) t o).half = false →
    let m := if gentle master then s.toMach else f s.toMach
    Takes (.rcCounterRead master a) s
      { m with bus := { m.bus with rdata := (regIn s.toMach (hostPort master) t o).val, rerr := false } }) ∧
  (∀ (s : State) (master a t o : Nat), master ≤ 10 → a < 2 ^ 40 → busCase s.toMach master a false = none →
    targetOf a = some (t, o) → 16 ≤ t → (regIn s.toMach (hostPort master) t o).rc = none →
    Answers (.latchingRead master a) s fun u => u.toMach = { s.toMach with bus := u.bus } ∧
      let r := regIn s.toMach (hostPort master) t o
      u.bus.rdata = (if r.half then tget r.resetHalf s.bus.latched (2 ^ 40 * master + a) else r.val) ∧
      ∀ d ∈ r.latches, tget 0 u.bus.latched (2 ^ 40 * master + (a + d)) = (regIn s.toMach (hostPort master) t (o + d)).val) ∧
  (∀ (s : State) (master a t o v : Nat), master ≤ 10 → a < 2 ^ 40 → v < 2 ^ 32 → ringsIdle s.toMach = true →
    busCase s.toMach master a true = none → targetOf a = some (t, o) →
    let bus := { s.bus with rerr := false }
    (t = 22 ∧ o = 0x80 → Takes (.registerWrite master a v) s
      { s.toMach with bus, xb := { s.xb with rtSel := bits v 31 31 * 2 ^ 31 + v % 4096 } }) ∧
    (t = 23 ∧ o = 0x20 → Takes (.registerWrite master a v) s
      { s.toMach with bus, is_ := { s.is_ with sel := bits v 19 16 * 2 ^ 16 + v % 4096 } }) ∧
    (t ≤ 1 → Takes (.registerWrite master a v) s { s.toMach with bus := { bus with work := mput s.bus.work o (le 4 v) } }) ∧
    (t = 3 → Takes (.registerWrite master a v) s { s.toMach with bus := { bus with jsram := mput s.bus.jsram o (le 4 v) } }) ∧
    (t = 4 → Takes (.registerWrite master a v) s { s.toMach with bus := { bus with owl := mput s.bus.owl o (le 4 v) } }) ∧
    let x := a - 0x8000000000
    let one := mput s.mem.pool x (le 4 v)
    (5 ≤ t ∧ t ≤ 8 ∧ poolWaits s.toMach x = true → Takes (.registerWrite master a v) s
      (issueReq { port := 81, pos := pcOf x, row := Config.dramRow x, at_ := s.now, bytes := 4, act := some (master, a, some v) }
        { s.toMach with bus })) ∧
    (5 ≤ t ∧ t ≤ 8 ∧ poolWaits s.toMach x = false ∧ lostPosition s.toMach x = false → Answers (.registerWrite master a v) s fun u =>
      u.toMach = { s.toMach with bus, mem := u.mem } ∧
      let both := decide (systemBase ≤ x ∧ x < systemBase + 2 ^ 31) && !lostPosition s.toMach (otherCopy x)
      u.mem.pool = if both = true then mput one (otherCopy x) (le 4 v) else one)) ∧
  (∀ (s : State) (a t o : Nat), busCase s.toMach 10 (a % 2 ^ 32) false = none → targetOf (a % 2 ^ 32) = some (t, o) →
    16 ≤ t → (regIn s.toMach none t o).half = false → (regIn s.toMach none t o).latches = [] →
    Takes (.bmcI2cAccess (bmcAddress s.sys.slotId) a false) s
      { s.toMach with bus := { s.bus with rdata := (regIn s.toMach none t o).val, rerr := false } }) ∧
  (∀ (s : State) (dev a : Nat) (write : Bool), write = true ∨ dev ≠ bmcAddress s.sys.slotId →
    Takes (.bmcI2cAccess dev a write) s s.toMach)

/-! ### The mailbox windows and the links (R396 to R401, R416) -/

/-- Index writes and links (R396, R399, R416, R427). A tail that covers more entries rings their doorbell, and the rings are
served; a tail past what the ring allows is ignored, counted and reported; a head write frees its entries; an allocation gives the
lowest free session, signalled by vector 64; a link that goes down leaves its sessions DETACHED. -/
def Obligations.MailboxWritesTakeEffect : Prop :=
  (∀ (s : State) (port n tail : Nat) (hare : Bool), port < 2 → n < 64 → ringsIdle s.toMach = true → (ses s.toMach n).st ≠ .free →
    foreign s.toMach port n = false → tail < 65536 →
    let old := if hare then (win s.toMach n).hareTail else (win s.toMach n).cmdTail
    let head := if hare then (win s.toMach n).hareHead else (win s.toMach n).headReg
    ringLen old head ≤ ringLen tail head → ringLen tail head ≤ (if hare then 32 else 256) →
    let rung := (List.range (ringLen tail head - ringLen old head)).map fun k => readEntry s.toMach port n hare (old + k)
    let m := setWin s.toMach n fun w => if hare then { w with hareTail := tail } else { w with cmdTail := tail }
    Takes (if hare then .mbxHareTailWrite port n tail else .mbxCmdTailWrite port n tail) s
      (serveRings { m with ctl := { m.ctl with rung } })) ∧
  (∀ (s : State) (port n tail : Nat) (hare : Bool), port < 2 → n < 64 → ringsIdle s.toMach = true → (ses s.toMach n).st ≠ .free →
    foreign s.toMach port n = false → tail < 65536 → tableRoom s.toMach = true →
    let old := if hare then (win s.toMach n).hareTail else (win s.toMach n).cmdTail
    let head := if hare then (win s.toMach n).hareHead else (win s.toMach n).headReg
    ringLen tail head < ringLen old head ∨ (if hare then 32 else 256) < ringLen tail head →
    Answers (if hare then .mbxHareTailWrite port n tail else .mbxCmdTailWrite port n tail) s fun t =>
      (win t.toMach n).cmdTail = (win s.toMach n).cmdTail ∧ (win t.toMach n).hareTail = (win s.toMach n).hareTail ∧ t.ctl.rung = [] ∧
        (tget {} t.ctl.cnts n).idxErr = sat (tget {} s.ctl.cnts n).idxErr 1 ∧ recorded t.toMach (0xD80 + n) 0x80 = true) ∧
  (∀ (s : State) (port n head : Nat), port < 2 → n < 64 → ringsIdle s.toMach = true → (ses s.toMach n).st ≠ .free →
    foreign s.toMach port n = false → head < 65536 →
    (ringLen (win s.toMach n).respTail head ≤ ringLen (win s.toMach n).respTail (win s.toMach n).respHead →
      Answers (.mbxRespHeadWrite port n head) s fun t => t = { s with ctl := t.ctl } ∧
        win t.toMach n = { win s.toMach n with respHead := head }) ∧
    (ringLen (win s.toMach n).evtTail head ≤ ringLen (win s.toMach n).evtTail (win s.toMach n).evtHead → (ses s.toMach n).lost = 0 →
      Answers (.mbxEvtHeadWrite port n head) s fun t => t = { s with ctl := t.ctl } ∧
        win t.toMach n = { win s.toMach n with evtHead := head })) ∧
  (∀ (s : State) (port n : Nat), port < 2 → n < 64 → claiming s.toMach = true → s.sys.romMode = false → s.sys.phase = 0 →
    (ses s.toMach n).st = .free → (∀ k < n, (ses s.toMach k).st ≠ .free) →
    Answers (.mbxAllocReqGo port) s fun t => t = { s with ctl := t.ctl } ∧
      ses t.toMach n = { st := .opening, port, openingAt := s.now } ∧ win t.toMach n = {} ∧ tget 0 t.ctl.irqs (128 * port + 64) =
        tget 0 s.ctl.irqs (128 * port + 64) + 1 ∧ tget (false, false, 0) t.ctl.alloc port = (true, true, n)) ∧
  (∀ (s : State) (port : Nat), port < 2 →
    Answers (.hostLinkDown port) s fun t => t = { s with ctl := { s.ctl with sessions := t.ctl.sessions } } ∧
      ∀ n < 64, ses t.toMach n = if (ses s.toMach n).st = .opn ∧ (ses s.toMach n).port = port
        then { ses s.toMach n with st := .detached } else ses s.toMach n)

/-! ### The service port (R535 to R545) -/

/-- Requests of the service port that leave the transfer's image alone (R535 to R540, R545). IDENT, STATUS, FAULTS and SNAPSHOT answer;
OPEN starts a transfer to a slot not in use; ABORT ends it; a frame asking for the module's address is answered; a port without
the firmware activates a valid slot and restarts. -/
def Obligations.ServicePortAnswers : Prop :=
  (∀ (s : State) (c : SvcReq), svcUp s.toMach = true →
    let bs := layout (identity s.toMach ++ [.w (updStat s.toMach), .raw 1 s.upd.slotA.sr.bytes, .raw 1 s.upd.slotB.sr.bytes])
    Takes (.svcIdent c) s { s.toMach with upd := replied s.upd (svcReply c 1 0 bs) }) ∧
  (∀ (s : State) (c : SvcReq) (k len : Nat), svcUp s.toMach = true → s.upd.svcOn = true → s.upd.xfer = none → k ≤ 1 → 1 ≤ len →
    len ≤ imageMax → len % 4096 = 0 → inUse s.toMach k = false →
    let xfer : Xfer := { client := c.client, slot := k, len, lastAt := s.now }
    Takes (.svcOpen c k len) s { s.toMach with upd := replied { s.upd with xfer := some xfer } (svcReply c 2 0) }) ∧
  (∀ (s : State) (c : SvcReq) (x : Xfer), svcUp s.toMach = true → s.upd.xfer = some x → x.client = c.client →
    let n := (x.ranges.map fun r => r.2 - r.1).sum
    let upd := { s.upd with xfer := some { x with lastAt := s.now } }
    Takes (.svcStatus c) s { s.toMach with upd := replied upd (svcReply c 6 0 (layout [.b x.st, .w n, .w (missing x.ranges)])) }) ∧
  (∀ (s : State) (c : SvcReq) (x : Xfer), svcUp s.toMach = true → s.upd.xfer = some x → x.client = c.client → x.st ≠ 3 →
    Takes (.svcAbort c) s { s.toMach with upd := replied { s.upd with xfer := none } (svcReply c 7 0) }) ∧
  (∀ (s : State) (c : SvcReq) (k : Nat), svcUp s.toMach = true → s.upd.running = false → k ≤ 1 → (slot s.toMach k).sr.valid = true →
    let m := restart (activate s.toMach k)
    Takes (.svcActivate c k) s { m with upd := replied m.upd (svcReply c 8 0) }) ∧
  (∀ (s : State) (c : SvcReq), svcUp s.toMach = true →
    let bs := (((listed s.toMach 0).drop c.offset).take 44).flatMap FaultRec.bytes
    Takes (.svcFaults c) s { s.toMach with upd := replied s.upd (svcReply c 0x10 0 bs c.offset) }) ∧
  (∀ (s : State) (c : SvcReq) (k : Nat), svcUp s.toMach = true → s.sys.romMode = false → k ≤ 15 → (lget {} s.snp.slots k).st = 2 →
    c.offset % 4 = 0 → c.offset < 0x800000 →
    let bs := snapRead s.toMach k c.offset (min 1408 (0x800000 - c.offset))
    Takes (.svcSnapshot c k) s { s.toMach with upd := replied s.upd (svcReply c 0x11 0 bs c.offset) }) ∧
  (∀ (s : State) (mac ip : List Byte), svcUp s.toMach = true → mac.length = 6 → ip.length = 4 →
    let own := be 4 (svcAddr s.toMach)
    let head (op : Nat) := be 2 1 ++ be 2 0x0800 ++ [6#8, 4#8] ++ be 2 op
    let ask := be 6 (2 ^ 48 - 1) ++ mac ++ be 2 0x0806 ++ head 1 ++ mac ++ ip ++ List.replicate 6 0 ++ own ++ List.replicate 18 0
    let me := be 6 (Config.serviceMac % 2 ^ 48)
    Takes (.servicePortFrame (.svc (ask ++ fcs ask))) s { s.toMach with upd := { s.upd with
      arp := mac ++ me ++ be 2 0x0806 ++ head 2 ++ me ++ own ++ mac ++ ip ++ List.replicate 18 0 } }) ∧
  (∀ (s : State) (tag : Nat), svcUp s.toMach = true → tag < 2 ^ 32 →
    let ask := le 2 0x5653 ++ [1#8, 0#8] ++ le 4 tag ++ List.replicate 8 0
    let good := ask ++ le 4 (crc32c ask).toNat
    (unslip good = good → Takes (.servicePortFrame (.uart good)) s (svcIdent { client := 0, tag } s.toMach)) ∧
    (∀ bad : List Byte, unslip bad = bad → 4 ≤ bad.length →
      (crc32c (bad.take (bad.length - 4))).toNat ≠ fld bad (bad.length - 4) 4 →
      Takes (.servicePortFrame (.uart bad)) s { s.toMach with upd := { s.upd with svcBad := sat s.upd.svcBad 1 } }))

/-- A transfer over the service port, step by step (R538 to R544). DATA is staged and its range noted; VERIFY asks for the checks, which
end VERIFIED or at the first check that fails, with a fault; WRITE erases the slot's record and asks for programming, which
ends in a valid, unconfirmed slot or in a fault; a transfer that nothing names for 60 s is abandoned. -/
def Obligations.ServiceTransferProceeds : Prop :=
  (∀ (s : State) (c : SvcReq) (x : Xfer) (data : List Byte), svcUp s.toMach = true → s.upd.xfer = some x → x.client = c.client →
    x.st ≠ 3 → x.asked = [] → data ≠ [] → data.length ≤ 1408 → c.offset + data.length ≤ x.len →
    (data.length % 64 = 0 ∨ c.offset + data.length = x.len) →
    let xfer := { x with lastAt := s.now, st := 1, staged := mput x.staged c.offset data
                         ranges := addRange c.offset (c.offset + data.length) x.ranges }
    Takes (.svcData c data) s { s.toMach with upd := replied { s.upd with xfer := some xfer } (svcReply c 3 0 [] c.offset) }) ∧
  (∀ (s : State) (c : SvcReq) (x : Xfer), svcUp s.toMach = true → s.upd.xfer = some x → x.client = c.client → x.st ≠ 3 →
    let xfer := { x with lastAt := s.now, asked := x.asked ++ [c] }
    Takes (.svcVerify c) s { s.toMach with upd := { s.upd with xfer := some xfer } }) ∧
  (∀ (s : State) (c : SvcReq) (x : Xfer), s.upd.xfer = some x → x.asked = [c] → x.st ≠ 3 → tableRoom s.toMach = true →
    let k := failingCheck s.toMach x.staged x.len
    Answers .imageVerifyComplete s fun t =>
      t.upd = replied { s.upd with
        xfer := some { x with asked := [], st := if k = 0 then 2 else 1 }
        xferFail := if k = 0 then s.upd.xferFail else sat s.upd.xferFail 1 }
        (svcReply c 4 (if k = 0 then 0 else if k = 1 ∨ k = 4 then 3 else if k = 5 then 4 else 5) (if k = 0 then [] else le 1 k)) ∧
      if k = 0 then t.toMach = { s.toMach with upd := t.upd } else recorded t.toMach 0xE30 0xD1 = true) ∧
  (∀ (m : Mach) (i : Mem) (len : Nat),
    failingCheck m i len = if headerOk i len = false then 1 else if keyOk m i len = false then 2 else if signatureOk i len = false then 3
      else if digestsOk i = false then 4 else if imgSvn i < m.upd.fcount then 5 else 0) ∧
  (∀ (s : State) (c : SvcReq) (x : Xfer), svcUp s.toMach = true → s.upd.xfer = some x → x.client = c.client → x.st = 2 → x.asked = [] →
    Answers (.svcWrite c) s fun t => t.toMach = { s.toMach with upd := t.upd } ∧
      t.upd.xfer = some { x with lastAt := s.now, st := 3, asked := [c] } ∧ (slot t.toMach x.slot).sr = {} ∧
      slot t.toMach (if x.slot = 0 then 1 else 0) = slot s.toMach (if x.slot = 0 then 1 else 0)) ∧
  (∀ (s : State) (x : Xfer) (c : SvcReq), s.upd.xfer = some x → x.st = 3 → x.asked = [c] → x.slot ≤ 1 → s.sys.jobs = [] →
    Answers (.flashWriteComplete x.slot none) s fun t => t.toMach = { s.toMach with upd := t.upd } ∧ t.upd.xfer = none ∧
      t.upd.xferOk = sat s.upd.xferOk 1 ∧ t.upd.reply = some (svcReply c 5 0 (le 4 x.len)) ∧ slot t.toMach x.slot = {
        sr := { valid := true, trial := 0, svn := imgSvn x.staged, gen := 0, release := imgRelease x.staged, imglen := x.len }
        image := x.staged }) ∧
  (∀ (s : State) (x : Xfer), s.upd.xfer = some x → x.asked = [] → x.lastAt + 60000 * msT < s.now → tableRoom s.toMach = true →
    Answers .serviceTransferAbandoned s fun t => t.upd = { s.upd with xfer := none, xferFail := sat s.upd.xferFail 1 } ∧
      recorded t.toMach 0xE30 0xD0 = true)

/-! ### Planes and outputs (R16 to R31, R41, R53 to R55, R61, R81) -/

/-- The pipeline of a plane (R53, R54, R55, R61). The cut-off fixes what its switch point will do and begins staging; staging ends;
the switch point puts every due route on air, counts itself and leaves committed state alone; where staging is late the plane
stays as it is and the fault is raised; the copy after a swap makes the background bank whole; the reports are posted. -/
def Obligations.PlanePipelineProceeds : Prop :=
  (∀ (s : State) (p : Nat), p < 16 →
    let staged := !(dueEffs s.toMach p (plane s.toMach p).nextSw).isEmpty ||
      s.is_.pairs.any fun y => y.1 % 16 == p && (y.2.dueAt (plane s.toMach p).nextSw).isSome
    Answers (.planeCutoff p) s fun t => t = { s with xb := t.xb } ∧ t.xb = { s.xb with bg := t.xb.bg, planes := t.xb.planes } ∧
      t.xb.planes = lmod s.xb.planes p fun x => { x with cut := true, staging := staged || x.staging, ready := x.ready && !staged }) ∧
  (∀ (s : State) (p us : Nat), p < 16 → (plane s.toMach p).staging = true →
    let planes := lmod s.xb.planes p fun x => { x with staging := false, ready := true }
    Takes (.stagingComplete p us) s { s.toMach with xb := { s.xb with planes, stageMax := max s.xb.stageMax (min us 0xFFFFFFFF) } }) ∧
  (∀ (s : State) (p : Nat), 1 ≤ p → p < 16 → p < s.xb.planes.length → targetOff s.toMach 22 = false → ringsIdle s.toMach = true →
    (plane s.toMach p).staging = false →
    let k := (plane s.toMach p).nextSw
    let m := (dueEffs s.toMach p k).foldl applyRoute s.toMach
    Answers (.planeSwitchPoint p) s fun t => t.xb.dests = s.xb.dests ∧ t.xb.epoch = s.xb.epoch ∧ (plane t.toMach p).nextSw = k + 1 ∧
      (plane t.toMach p).cut = false ∧ (∀ e ∈ t.xb.pend, e.plane = p → k < e.target) ∧
      ∀ d < 2304, (air t.toMach d).src = (air m d).src ∧ (air t.toMach d).asrc = (air m d).asrc ∧
        (air t.toMach d).plane = (air m d).plane ∧ (air t.toMach d).epoch = (air m d).epoch) ∧
  (∀ (s : State) (p : Nat), 1 ≤ p → p < 16 → p < s.xb.planes.length → targetOff s.toMach 22 = false → ringsIdle s.toMach = true →
    (plane s.toMach p).staging = true → tableRoom s.toMach = true →
    let k := (plane s.toMach p).nextSw
    let waits (d : Nat) (audio : Bool) : Bool := s.xb.pend.any fun e => e.plane == p && decide (e.target ≤ k) && match e.eff with
      | .route n v a _ => n == d && (if audio then a.isSome else v.isSome)
      | .bind n _ _ _ => n == d
      | _ => false
    let moved (c : Option Nat) (w : Bool) : Option Nat := if c = some k ∧ w = true then some (k + 1) else c
    Answers (.planeSwitchPoint p) s fun t => t.xb.air = s.xb.air ∧ (plane t.toMach p).nextSw = k + 1 ∧
      t.xb.pend.length = s.xb.pend.length ∧ (∀ e ∈ t.xb.pend, e.plane = p → k < e.target) ∧ recorded t.toMach 0xE10 0x19 = true ∧
      ∀ d < 2304, dest t.toMach d = if (dest s.toMach d).plane ≠ p then dest s.toMach d else
        { dest s.toMach d with vswc := moved (dest s.toMach d).vswc (waits d false), aswc := moved (dest s.toMach d).aswc (waits d true) }) ∧
  (∀ (s : State) (p : Nat), p < 16 → (s.ctl.journal.any fun e => e.waiting && e.cmd == .bankSwap p) = false →
    let copied (d : Nat) : Bool :=
      (air s.toMach d).plane == p && !s.xb.loads.any fun l => l.plane == p && (tget? d l.entries).isSome
    let bg := if (plane s.toMach p).cut then s.xb.bg else s.xb.bg.filter fun x => !copied x.1
    Takes (.catchUpCopyComplete p) s
      { s.toMach with xb := { s.xb with bg, planes := lmod s.xb.planes p fun x => { x with ready := true } } }) ∧
  (∀ (s : State) (p : Nat) (r : OnAir), p < 16 → (s.xb.onAir.filter fun r => r.plane == p) = [r] → r.ses < 64 →
    (ses s.toMach r.ses).st = .opn → ringLen (win s.toMach r.ses).evtTail (win s.toMach r.ses).evtHead < 256 →
    Answers (.routeOnAir p) s fun t => t = { s with ctl := t.ctl, xb := { s.xb with onAir := s.xb.onAir.filter fun r => r.plane != p } } ∧
      (tget? ((win s.toMach r.ses).evtTail % 256) (win t.toMach r.ses).evts).map (fun e => (e.code, e.group, e.body.take 18)) =
        some (0x0010, 0, le 8 r.epoch ++ le 1 r.plane ++ le 1 0 ++ le 2 r.cold ++ le 4 r.swcnt ++ le 2 r.carried))

/-! ### Input stages (R76 to R99) -/

/-- Lines of an input stage (R77, R78, R80, R83, R85, R100, R101). A line joins the alignment buffer, the de-embedder and the frame in
progress; line 1 begins the next frame; a line outside the capture window of a SYNCHRONOUS plane makes the pair FRAMED at its
next switch point, a fault where the source is of mode SYNC.
What leaves a destination, and what its route returns (R18, R31, R41, R96). A line in time is the line of what the destination
carries; a late one is concealed, counted and reported; nothing else is released. A returned route's buffers are free again. -/
def Obligations.LinesArriveAndLeave : Prop :=
  (∀ (s : State) (k : Nat) (l : LineIn), k < 2304 → l.line ≠ 1 → l.holes = [] → groupNow s.toMach k = [] →
    (∀ p < 16, (pair s.toMach k p).cls ≠ 3) →
    let x := srcOf s.toMach k
    let t0 := l.at_.getD s.dt.t
    let data : LineData := { words := l.words, anc := l.anc }
    let kept (b : FrameBuf) := fitAncs l.line b.ancLen l.anc
    Answers (.isLineArrival k (some l)) s fun t => t.toMach = { s.toMach with is_ := t.is_ } ∧
      srcOf t.toMach k = { x with
        lab := labKeep s.dt.t (tset x.lab l.line { data, at_ := t0, until_ := t0 }), seen := tset x.seen l.line data
        pid := (pidOf l.anc).or x.pid, validAt := if validLine x.fmt l then s.now else x.validAt
        audioQ := x.audioQ ++ (if 0 < l.ancLost ∧ 0 < audioGroups s.toMach k then [(t0, [], [])] else []) ++
          deembedLine x.fmt (audioGroups s.toMach k) t0 l.anc
        bufs := match x.cur with
          | some i => lmod x.bufs i fun b => { b with
              lines := tset b.lines l.line { words := l.words, anc := (kept b).2.1 }, ancLen := (kept b).1
              fieldAt := b.fieldAt.or (if b.fmt.fieldDone l.line then some t0 else none) }
          | none => x.bufs } ∧
      (x.cur = none → (tget {} t.is_.cnts k).ancDrop = sat (tget {} s.is_.cnts k).ancDrop l.ancLost) ∧
      (∀ i, x.cur = some i →
        (tget {} t.is_.cnts k).ancDrop = sat (tget {} s.is_.cnts k).ancDrop (l.ancLost + (kept (lget {} x.bufs i)).2.2)) ∧
      ∀ n < 2304, n ≠ k → srcOf t.toMach n = srcOf s.toMach n) ∧
  (∀ (s : State) (k : Nat) (l : LineIn), k < 2304 → l.line = 1 → l.holes = [] → groupNow s.toMach k = [] →
    (∀ p < 16, (pair s.toMach k p).cls ≠ 3) →
    let x := srcOf s.toMach k
    let t0 := l.at_.getD s.dt.t
    let data : LineData := { words := l.words, anc := l.anc }
    Answers (.isLineArrival k (some l)) s fun t => t.toMach = { s.toMach with is_ := t.is_ } ∧
      (srcOf t.toMach k).line1At = s.now - (s.dt.t - t0) / (2 * nsU) ∧ (srcOf t.toMach k).line1T = t0 ∧
      (srcOf t.toMach k).ended = x.cur ∧ (srcOf t.toMach k).frame = (if x.ever then (x.frame + 1) % 2 ^ 32 else x.frame) ∧
      (srcOf t.toMach k).lab = labKeep s.dt.t (tset x.lab 1 { data, at_ := t0, until_ := t0 }) ∧
      (srcOf t.toMach k).seen = tset x.seen 1 data ∧ ∀ n < 2304, n ≠ k → srcOf t.toMach n = srcOf s.toMach n) ∧
  (∀ (s : State) (k : Nat) (l : LineIn), k < 2304 → l.line ≠ 1 → l.holes = [] → groupNow s.toMach k = [] →
    let lead := lget 0 (leadsOf s.toMach k l.line (l.at_.getD s.dt.t)) 0
    (leadMin s.toMach k : Int) ≤ lead → (pair s.toMach k 0).cls = 3 → (pair s.toMach k 0).next = 3 →
    (∀ p < 16, p ≠ 0 → (pair s.toMach k p).cls ≠ 3) → inCapture s.toMach k 0 lead = false → tableRoom s.toMach = true →
    Answers (.isLineArrival k (some l)) s fun t => (pair t.toMach k 0).due.getLast? = some (2, target s.toMach 0) ∧
      (pair t.toMach k 0).cls = 3 ∧ ((pair s.toMach k 0).sync = true → recorded t.toMach k 0x14 = true)) ∧
  (∀ (s : State) (d line : Nat), d < 2304 → s.pwr.st < 2 → 1 ≤ line → line ≤ totalLines (plane s.toMach (air s.toMach d).plane).fmt →
    Answers (.outputRelease d line false) s fun t => t.xb = s.xb ∧ (tget {} t.out d).line = line ∧
      (tget {} t.out d).words = (lineOf s.toMach d line).words ∧ (tget {} t.out d).late = false ∧
      ∀ n < 2304, n ≠ d → tget? n t.out = tget? n s.out) ∧
  (∀ (s : State) (d line : Nat), d < 2304 → s.pwr.st < 2 → 1 ≤ line → line ≤ totalLines (plane s.toMach (air s.toMach d).plane).fmt →
    s.flt.recs.length < 2047 →
    Answers (.outputRelease d line true) s fun t => t.xb = { s.xb with lateSeg := sat s.xb.lateSeg 1 } ∧
      (tget {} t.out d).words = (concealLate s.toMach d line (lineOf s.toMach d line)).words ∧ (tget {} t.out d).late = true ∧
      recorded t.toMach (destSrc d) 0x18 = true ∧ ∀ n < 2304, n ≠ d → tget? n t.out = tget? n s.out) ∧
  (∀ (s : State) (k p : Nat), k < 2400 → p < 16 →
    let m := { s.toMach with xb := { s.xb with fbRet := s.xb.fbRet.erase (k, p) } }
    ((bufSources m s.xb.holds).contains k = true → Takes (.frameBufferReturn k p) s m) ∧
    ((bufSources m s.xb.holds).contains k = false →
      Takes (.frameBufferReturn k p) s (setSrc m k fun x => { x with bufs := [{}, {}, {}], cur := none })))

/-- Frames of an input stage (R76, R79, R80, R87 to R91, R97). A frame that completes is there to be read; a source becomes present at
the second frame that agrees, changes class once it qualifies, and is lost when no valid line has arrived for 8 expected line periods; a
read decision takes the newest complete frame and counts repeats and drops. -/
def Obligations.FramesComplete : Prop :=
  (∀ (s : State) (k i : Nat) (h : FrameShape), k < 2304 → (srcOf s.toMach k).present = true →
    h.fmt (srcOf s.toMach k).pid = (srcOf s.toMach k).fmt →
    begun s.toMach (srcOf s.toMach k) = false → (srcOf s.toMach k).cur = some i → i < (srcOf s.toMach k).bufs.length →
    Answers (.isFrameComplete k h) s fun t => t.toMach = { s.toMach with is_ := t.is_ } ∧ (srcOf t.toMach k).present = true ∧
      (lget {} (srcOf t.toMach k).bufs i).st = 2 ∧ (lget {} (srcOf t.toMach k).bufs i).at_ = s.dt.t ∧ (srcOf t.toMach k).cur = none ∧
      ∀ p < 16, (plainClass t.toMach k p = 2 ∧ (pair s.toMach k p).next = 2 ∧ (pair s.toMach k p).inside = true ∧
        (pair s.toMach k p).qSet ≤ min 64 ((pair s.toMach k p).qcount + 1)) → (pair t.toMach k p).due.getLast? = some (3, target s.toMach p)) ∧
  (∀ (s : State) (k : Nat) (h : FrameShape), k < 2304 → (srcOf s.toMach k).present = false →
    let f := h.fmt (srcOf s.toMach k).pid
    Answers (.isFrameComplete k h) s fun t =>
      (if (srcOf s.toMach k).lastSig = some f then (srcOf t.toMach k).present = true ∧ (srcOf t.toMach k).fmt = f ∧
          ∀ p < 16, (pair t.toMach k p).due.getLast?.map (·.2) = some (target s.toMach p)
        else (srcOf t.toMach k).present = false ∧ (srcOf t.toMach k).lastSig = some f)) ∧
  (∀ (s : State) (i b : Nat), i < 2048 → (tget {} s.is_.feeds i).valid = true →
    (tget {} s.is_.feeds i).since ≤ (plane s.toMach (tget {} s.is_.feeds i).plane).nextSw →
    let f : Feed := tget {} s.is_.feeds i
    (2304 ≤ f.src ∨ (pair s.toMach f.src f.plane).cls ≠ 0) → chooseBuf s.toMach f.src f.plane = some b →
    let n := (lget {} (srcOf s.toMach f.src).bufs b).num
    let ahead := (n + 2 ^ 32 - f.last % 2 ^ 32) % 2 ^ 32
    let skipped := if 0 < ahead ∧ ahead < 2 ^ 31 then ahead - 1 else 0
    let g := { f with
      started := true, buf := some b, last := n, repeats := if f.started ∧ n = f.last then sat f.repeats 1 else f.repeats
      drops := if f.started ∧ n ≠ f.last then sat f.drops skipped else f.drops
      prev := f.buf, prevUntil := s.now + 50 * usT, torn := [], lossRun := 0 }
    Takes (.isReadDecision i) s { s.toMach with is_ := { s.is_ with feeds := tset s.is_.feeds i g } }) ∧
  (∀ (s : State) (k : Nat), k < 2304 →
    let x := srcOf s.toMach k
    let silent := 8 * 500000000 * rateDen x.fmt.rate < (s.now - x.validAt) * x.fmt.total * rateNum x.fmt.rate
    (x.present = true → silent → s.flt.recs.length < 2047 →
      Answers (.isSourceLost k) s fun t => (srcOf t.toMach k).present = false ∧ (srcOf t.toMach k).cur = none ∧
        recorded t.toMach k 0x16 = true ∧ (tget {} t.is_.cnts k).loss = sat (tget {} s.is_.cnts k).loss 1 ∧
        ∀ p < 16, (pair t.toMach k p).due.getLast? = some (0, target s.toMach p)) ∧
    (x.present = false ∨ ¬ silent → Takes (.isSourceLost k) s s.toMach))

/-! ### Wainar Link (R112 to R146) -/

/-- What a receiver does with frames (R113 to R115, R119, R142, R143). Three alignment words in a row align a searching lane; on an
aligned lane a miss counts and a hit clears the run, the frame is decoded, its overhead is the receiver's unless its codeword was
lost, and its six blocks and their positions wait.
What an UP receiver does with blocks (R116 to R118, R127 to R129, R137, R141, R465), given or the oldest that waits. A block that passes
is held for its position, its claim word is the echo; one that fails counts and asks for its position again; an idle-echo's round
trip joins the last 64; the eighth foreign echo in a row makes the lane FOREIGN and a claiming module give its claim up. -/
def Obligations.LinkBlocksAlignAndArrive : Prop :=
  (∀ (s : State) (l : Nat) (f : WlFrame), l < 160 → looped s.toMach l = false →
    let r := rx s.toMach l
    let line := bitsOf r.mode (turned (bit (lane s.toMach (serialOf s.toMach l)).flags 1) r.mode f.levels)
    let hit := ((List.range 64).filter (bit (line / 2 ^ 27136 ^^^ 0x5741494E41523031))).length ≤ 6
    (r.st = 1 → Answers (.wlFrameReceive l f) s fun t => t.toMach = { s.toMach with wl := t.wl } ∧
      (rx t.toMach l).fawRun = (if hit then r.fawRun + 1 else 0) ∧ (rx t.toMach l).st = (if hit ∧ 2 ≤ r.fawRun then 2 else 1)) ∧
    (r.st = 5 →
      let d := decodeFrame r.scr line
      let z := match d.ovh with
        | none => { r with fseq := (r.fseq + 6) % 4096, cpos := (r.cpos + 6) % modeCal r.mode }
        | some o => { r with fseq := o.fseq, cpos := o.cpos, farLane := o.lane, slotId := o.slotId, farMode := o.mode }
      let ps := (List.range 6).map fun k =>
        ({ pos := (z.fseq + k) % 4096, cal := (z.cpos + k) % modeCal r.mode, at_ := f.at_ + k * tbU r.mode } : RxPos)
      Answers (.wlFrameReceive l f) s fun t => t.toMach = { s.toMach with wl := t.wl } ∧
        rx t.toMach l = { z with
          fawMiss := if hit then 0 else r.fawMiss + 1, frameAt := f.at_, scr := d.hist, sched := r.sched ++ ps
          blocks := r.blocks ++ (ps.zip d.blocks).map fun x => { at_ := x.1, blk := x.2 } } ∧
        (tget {} t.wl.cnts l).cwCorr = sat (tget {} s.wl.cnts l).cwCorr d.corrected ∧
        (tget {} t.wl.cnts l).cwUncorr = sat (tget {} s.wl.cnts l).cwUncorr d.uncorrectable)) ∧
  (∀ (s : State) (l : Nat) (c : Option WlBlock) (b : WlBlock), l < 160 → (rx s.toMach l).st = 5 → looped s.toMach l = false →
    (c = some b ∨ c = none ∧ (rx s.toMach l).blocks.head? = some b) → b.blk.ok = true →
    let h := hdOf b.blk.hdr
    let p := b.blk.payload.toNat
    let trip := ((tx s.toMach l).starts.find? fun x => x.1 == bits p 4095 4084).map fun x =>
      (b.at_.at_ - x.2 - bits p 4083 4068 * tbU (rx s.toMach l).mode / 65536) * 1000 / 2 ^ 32
    Answers (.wlBlockReceive l c) s fun t => (rx t.toMach l).st = 5 ∧
      (rx t.toMach l).good = (rx s.toMach l).good + 1 ∧ (rx t.toMach l).bad = 0 ∧ (rx t.toMach l).farUp = h.rxUp ∧
      (rx t.toMach l).echo = BitVec.ofNat 32 h.claim ∧
      (rx t.toMach l).blocks = (if c.isSome then (rx s.toMach l).blocks else (rx s.toMach l).blocks.drop 1) ∧
      ((rx s.toMach l).held = [] → (rx t.toMach l).held =
        if (rx s.toMach l).sched.any (fun p => p.pos == h.seq) then
          [{ pos := h.seq, good := some (b.blk.hdr, b.blk.payload), resent := h.resend }] else []) ∧
      (rx t.toMach l).trips = (match (if h.typ = 0 then trip else none) with
        | some t => (t :: (rx s.toMach l).trips).take 64
        | none => (rx s.toMach l).trips)) ∧
  (∀ (s : State) (l : Nat) (c : Option WlBlock) (b : WlBlock), l < 160 → (rx s.toMach l).st = 5 → looped s.toMach l = false →
    (c = some b ∨ c = none ∧ (rx s.toMach l).blocks.head? = some b) → txIdle s.toMach l = false → b.blk.ok = false →
    let resent := (hdOf b.blk.hdr).resend
    Answers (.wlBlockReceive l c) s fun t => t.toMach = { s.toMach with wl := t.wl } ∧
      (rx t.toMach l).held = (rx s.toMach l).held ∧ (rx t.toMach l).bad = (rx s.toMach l).bad + 1 ∧ (rx t.toMach l).good = 0 ∧
      (tget {} t.wl.cnts l).chkFail = sat (tget {} s.wl.cnts l).chkFail (b2n !resent) ∧
      (tx t.toMach l).nacks = (tx s.toMach l).nacks ++ if resent then [] else [b.at_.pos]) ∧
  (∀ (s : State) (l : Nat), l < 160 → (rx s.toMach l).blocks = [] → Takes (.wlBlockReceive l none) s s.toMach) ∧
  (∀ (b : RxBlock), b.ok = (b.cwOk && crc32c (be 8 b.hdr.toNat ++ be 512 b.payload.toNat) == b.crc)) ∧
  (∀ (s : State) (l : Nat) (b : WlBlock), l < 144 → (rx s.toMach l).st = 5 → looped s.toMach l = false → b.blk.ok = true →
    claiming s.toMach = true → tableRoom s.toMach = true → (hdOf b.blk.hdr).claim / 2 ^ 28 ≠ 0 →
    (hdOf b.blk.hdr).claim % 256 ≠ s.pr.slotId % 256 → 7 ≤ (rx s.toMach l).forRun →
    Answers (.wlBlockReceive l (some b)) s fun t => (rx t.toMach l).foreign = true ∧ t.pr.role = 4 ∧
      t.pr.split = true ∧ t.pr.cnt.demote = sat s.pr.cnt.demote 1 ∧ recorded t.toMach 0xDE0 0x93 = true)

/-- What a transmitter sends in a position (R119, R120, R122, R124, R129, R130, R135, R137, R138, R462). A heartbeat that waits goes first; a
shared position carries pending service, else an idle-echo; an owned one its slot's next stream block; a block asked for again goes
out before these. Every block carries the claim that stood at the position before and the oldest NACK, and the position and
calendar advance by one. -/
def Obligations.LinkBlocksLeave : Prop :=
  ∀ (s : State) (l at_ : Nat), l < 160 →
    let t := tx s.toMach l
    let mode := (rx s.toMach l).mode
    let hd (seq typ : Nat) (resend : Bool) : Hd :=
      { seq, typ, claim := t.claim, nack := t.nacks.head?, resend, rxUp := (rx s.toMach l).st == 5 }
    let leaves (seq typ : Nat) (pay : BitVec 4096) (resend : Bool) (u : State) : Prop :=
      u.toMach = { s.toMach with wl := u.wl } ∧ (tx u.toMach l).lastPay = pay ∧ (tx u.toMach l).lastHdr = (hd seq typ resend).word ∧
        (tx u.toMach l).pos = (t.pos + 1) % 4096 ∧ (tx u.toMach l).cal = (t.cal + 1) % modeCal mode ∧
        (tx u.toMach l).nacks = t.nacks.drop 1 ∧ (tx u.toMach l).claim = sentClaim s.toMach l ∧
        (tx u.toMach l).starts = ((t.pos, at_) :: t.starts).take 256
    (transmits s.toMach l = false → Takes (.wlPositionTransmit l at_) s s.toMach) ∧
    (transmits s.toMach l = true → t.beatDue = true →
      Answers (.wlPositionTransmit l at_) s fun u =>
        leaves t.pos 4 (beatPayload { s.pr.sent with t := at_ }) false u ∧ (tx u.toMach l).beatDue = false) ∧
    (transmits s.toMach l = true → t.beatDue = false →
      (t.resends = [] → ownerOf l mode t.cal = none → t.disp = 0 → (t.svc = [] ∨ (rx s.toMach l).st < 3) →
        Answers (.wlPositionTransmit l at_) s (leaves t.pos 0 (idlePayload s.toMach l at_) false)) ∧
      (t.resends = [] → ownerOf l mode t.cal = none → t.disp = 0 → 3 ≤ (rx s.toMach l).st →
        ∀ pay m, svcOut s.toMach l = some (pay, m) →
          Answers (.wlPositionTransmit l at_) s fun u => leaves t.pos 3 pay false u ∧ (tx u.toMach l).svc = (tx m l).svc) ∧
      (∀ k, t.resends = [] → ownerOf l mode t.cal = some k → t.late = [] → s.pwr.st < 3 →
        ¬(mode = 1 ∧ (tget {} t.slots k).rclass = 3) → (tget {} t.slots k).words ≠ [] →
        Answers (.wlPositionTransmit l at_) s fun u =>
          leaves t.pos 1 (streamOut mode k (tget {} t.slots k) at_).1 false u ∧
            tget {} (tx u.toMach l).slots k = (streamOut mode k (tget {} t.slots k) at_).2) ∧
      (∀ p ps b, t.resends = p :: ps → ownerOf l mode t.cal = none → t.replay.find? (fun b => b.pos == p) = some b →
        Answers (.wlPositionTransmit l at_) s fun u =>
          leaves (hdOf b.hdr).seq (hdOf b.hdr).typ b.payload true u ∧ (tx u.toMach l).resends = ps))

/-- Release, loss and modes (R6, R126, R127, R132, R142, R143). At its release instant, 6.75 block times after its end, a position without
a good block makes its slot errored; a slot's first stream block fixes where its stream stands; a slot without stream is idle and
its source lost; a lane that lost alignment, or had 64 bad positions in a row, searches again; 2 ms in a mode tries the next. -/
def Obligations.LinkReleasesAndLoses : Prop :=
  (∀ (s : State) (l k : Nat) (p : RxPos) (ps : List RxPos), l < 144 → 3 ≤ (rx s.toMach l).st → (rx s.toMach l).sched = p :: ps →
    4 * p.at_ + 31 * tbU (rx s.toMach l).mode < 4 * (s.dt.t + 2 * nsU) → ((rx s.toMach l).held.all fun b => b.pos != p.pos) = true →
    ownerOf l (rx s.toMach l).mode p.cal = some k →
    Answers (.wlBlockRelease l) s fun t => t.toMach = { s.toMach with wl := t.wl } ∧ (rx t.toMach l).sched = ps ∧
      (tget {} t.wl.cnts l).blkErr = sat (tget {} s.wl.cnts l).blkErr 1 ∧ (tget {} (rx t.toMach l).slots k).errored = true ∧
      (tget {} (rx t.toMach l).slots k).quiet = min 64 ((tget {} (rx s.toMach l).slots k).quiet + 1)) ∧
  (∀ (s : State) (l : Nat) (z : RxPos) (ps : List RxPos) (hdr : BitVec 64) (payload : BitVec 4096), l < 144 → (rx s.toMach l).st = 5 →
    (rx s.toMach l).sched = z :: ps → 4 * z.at_ + 31 * tbU (rx s.toMach l).mode < 4 * (s.dt.t + 2 * nsU) →
    (rx s.toMach l).held = [{ pos := z.pos, good := some (hdr, payload), resent := false }] → (hdOf hdr).typ = 1 →
    let p := payload.toNat
    let k := bits p 4095 4093
    k < modeSlots (rx s.toMach l).mode → ¬(bits p 4054 4053 = 3 ∧ (rx s.toMach l).mode = 1) → bit (rx s.toMach l).segOver k = false →
    (rasterOf s.toMach (8 * l + k)).total = 0 →
    Answers (.wlBlockRelease l) s fun t => t.toMach = { s.toMach with wl := t.wl } ∧ (rx t.toMach l).held = [] ∧
      (rx t.toMach l).sched = ps ∧
      (tget {} (rx t.toMach l).slots k).expect = some (bits p 4090 4078, bits p 4077 4064 + min 400 (bits p 4063 4055)) ∧
      (tget {} (rx t.toMach l).slots k).quiet = 0 ∧ (tget {} (rx t.toMach l).slots k).errored = false) ∧
  (∀ (s : State) (l : Nat), l < 160 → (∀ p ∈ (rx s.toMach l).sched.head?,
      4 * (s.dt.t + 2 * nsU) ≤ 4 * p.at_ + 31 * tbU (rx s.toMach l).mode) → Takes (.wlBlockRelease l) s s.toMach) ∧
  (∀ (s : State) (l k : Nat), l < 144 → k < 8 → ((rx s.toMach l).st ≠ 5 ∨ 64 ≤ (tget {} (rx s.toMach l).slots k).quiet) →
    Answers (.wlSlotIdle l k) s fun t => (srcOf t.toMach (8 * l + k)).present = false ∧
      (tget {} (rx t.toMach l).slots k).expect = none ∧ (tget {} (rx t.toMach l).slots k).words = []) ∧
  (∀ (s : State) (l : Nat), l < 160 → 2 ≤ (rx s.toMach l).st → (4 ≤ (rx s.toMach l).fawMiss ∨ 64 ≤ (rx s.toMach l).bad) →
    s.flt.recs.length < 2030 →
    Answers (.wlLaneDown l) s fun t => (rx t.toMach l).st = 1 ∧ (rx t.toMach l).held = [] ∧ (rx t.toMach l).sched = [] ∧
      (rx t.toMach l).dvalid = false ∧ (tx t.toMach l).replay = [] ∧ (tx t.toMach l).nacks = [] ∧
      (tget {} t.wl.cnts l).alignLoss = sat (tget {} s.wl.cnts l).alignLoss 1 ∧
      recorded t.toMach (if onXl l then 0xB10 + serialOf s.toMach l else 0xA80 + l) 0x22 = true) ∧
  (∀ (s : State) (l : Nat), l < 144 → 1 ≤ (rx s.toMach l).st → (rx s.toMach l).st ≤ 3 → (rx s.toMach l).modeAt + 2 * msT < s.now →
    Answers (.wlModeTryTimeout l) s fun t => t.toMach = { s.toMach with wl := t.wl, ln := t.ln } ∧ (rx t.toMach l).st = 1 ∧
      (rx t.toMach l).mode = nextMode (lane s.toMach l).flags (rx s.toMach l).mode ∧ (rx t.toMach l).modeAt = s.now ∧
      ((rx t.toMach l).mode ≠ (rx s.toMach l).mode → (lane t.toMach l).toRate = some (modeRate (rx t.toMach l).mode)))

/-! ### Serial lanes (R147 to R169, R433) -/

/-- Serial lanes (R154 to R157, R163) and the time limit of SVC_SEND (R433). A fitted lane comes up at its first rate, and its link lane
begins to search; lock is gained and lost; a rate change ends; a scan's result is written and its session answered. -/
def Obligations.LanesProceed : Prop :=
  (∀ (s : State) (k : Nat), k < 224 → (lane s.toMach k).fitted = true → (lane s.toMach k).tblErr = false →
    (lane s.toMach k).ready = false →
    (linkOf s.toMach k = none → Takes (.laneReady k) s (setLane s.toMach k fun x => { takeRate x 5 with ready := true })) ∧
    (∀ l, linkOf s.toMach k = some l → Answers (.laneReady k) s fun t => t.toMach = { s.toMach with wl := t.wl, ln := t.ln } ∧
      lane t.toMach k = { takeRate (lane s.toMach k) (modeRate (firstMode s.toMach l)) with ready := true } ∧
      (rx t.toMach l).st = 1 ∧ (rx t.toMach l).mode = firstMode s.toMach l ∧ (rx t.toMach l).modeAt = s.now)) ∧
  (∀ (s : State) (k : Nat), k < 224 → (lane s.toMach k).ready = true → (lane s.toMach k).toRate = none →
    ((lane s.toMach k).lock = true → Takes (.laneLock k) s s.toMach) ∧
    ((lane s.toMach k).lock = false → Answers (.laneLock k) s fun t => t.toMach = { s.toMach with ln := t.ln, free := t.free } ∧
      lane t.toMach k = { lane s.toMach k with lock := true, sig := true, prbsAt := (lane t.toMach k).prbsAt } ∧
      (if (lane s.toMach k).chk then s.now ≤ (lane t.toMach k).prbsAt ∧ (lane t.toMach k).prbsAt ≤ s.now + usT
        else (lane t.toMach k).prbsAt = (lane s.toMach k).prbsAt) ∧ ∀ n < 224, n ≠ k → lane t.toMach n = lane s.toMach n)) ∧
  (∀ (s : State) (k : Nat) (sig : Bool), k < 224 →
    (s.ln.scans.all fun x => x.lane != k && (lane s.toMach x.lane).lock) = true →
    let m := setLane s.toMach k fun x => { x with sig, lock := false, lockLoss := sat x.lockLoss (b2n (lane s.toMach k).lock) }
    ((lane s.toMach k).lock = false → Takes (.laneLockLoss k sig) s m) ∧
    ((lane s.toMach k).lock = true →
      (linkOf s.toMach k = none → Answers (.laneLockLoss k sig) s fun t =>
        t.toMach = { s.toMach with ln := m.ln, eth := t.eth, ctl := t.ctl, flt := t.flt, snp := t.snp, images := t.images, free := t.free } ∧
          (mac t.toMach (macOfLane s.toMach k)).link = false) ∧
      (∀ l, linkOf s.toMach k = some l → Answers (.laneLockLoss k sig) s fun t => lane t.toMach k = lane m k ∧
        (rx t.toMach l).st = (if 2 ≤ (rx s.toMach l).st then 1 else (rx s.toMach l).st)))) ∧
  (∀ (s : State) (k r : Nat), k < 224 → (lane s.toMach k).toRate = some r →
    (s.ln.scans.all fun x => x.lane != k && (lane s.toMach x.lane).lock) = true →
    Takes (.laneRateChangeDone k) s (setLane s.toMach k fun x => { takeRate x r with lock := false })) ∧
  (∀ (s : State) (k : Nat) (x : Scan) (counts : List Nat), k < 224 → s.ln.scans.find? (fun x => x.lane == k) = some x →
    live s.toMach x.ses = true → (win s.toMach x.ses).respTail < 65536 → counts.length = x.points →
    (counts.all fun c => decide (c ≤ 2 ^ x.k)) = true →
    let result := x.result 0 (lane s.toMach x.lane).rate x.points counts
    Answers (.eyeScanComplete k counts) s fun t => t.ln.scans = s.ln.scans.filter (fun y => y.id != x.id) ∧
      ((lane t.toMach k).width, (lane t.toMach k).height) = x.eyeSize counts ∧
      (lane t.toMach k).eyeDone = sat (lane s.toMach k).eyeDone 1 ∧ salvo t.toMach x.ses x.off result.length = result ∧
      posted s.toMach t.toMach x.ses = mkResps 0x0D21 sDone 0 x.hseq 0 (layout [.b 0])) ∧
  (∀ (s : State) (n hseq : Nat) (w : SvcWait), n < 64 → s.ctl.svc.find? (fun w => w.ses == n && w.hseq == hseq) = some w →
    w.deadline < s.now → (win s.toMach n).respTail < 65536 →
    Answers (.svcSendTimeout n hseq) s fun t => t.toMach = { s.toMach with ctl := t.ctl } ∧
      (t.ctl.svc.all fun w => !(w.ses == n && w.hseq == hseq)) = true ∧
      posted s.toMach t.toMach n = mkResps 0x0340 sDone 0 hseq 0 (layout [.w 0, .b 1]))

/-! ### Ethernet and the network (R172 to R184, R192, R205) -/

/-- The receive path of a MAC (R173, R175, R176, R178, R193, R201). A frame that matches no wake pattern passes the checks in their order;
the first that fails counts it, and a module outside Den hands a datagram to the lowest-numbered enabled context that matches, at
once from an empty buffer whose memory port has budget; on a port held at its budget the frame waits in the buffer. -/
def Obligations.FramesAreReceived : Prop :=
  ∀ (s : State) (k : Nat) (frame : List Byte) (pcs : Bool) (x : PtpMeas), k < 64 → macExists s.toMach k = true →
    (mac s.toMach k).link = true → s.pwr.st < 2 → matched s.toMach k frame = [] →
    let n := frame.length
    let f := frameOf frame
    let room := rxFill (mac s.toMach k) + n ≤ 524288 * (macRate s.toMach k / 100)
    let good := fcs (frame.take (n - 4)) = frame.drop (n - 4)
    let fits := room ∧ pcs = false ∧ good ∧ 64 ≤ n ∧ n ≤ (mac s.toMach k).maxFrame ∧ accepts s.toMach k f.dst = true
    let counts (g : MacCnt → MacCnt) := Takes (.ethFrameReceive k frame pcs x) s (setMacCnt s.toMach k g)
    let drains := (mac s.toMach k).rxq = [] ∧ portHeld s.toMach (13 + k) = false
    let leaves (g : MacCnt → MacCnt) := Answers (.ethFrameReceive k frame pcs x) s fun t =>
      t.toMach = { s.toMach with eth := t.eth, mem := (spend (13 + k) n s.toMach).mem } ∧
        t.eth = { s.eth with macs := t.eth.macs, cnts := tmod {} s.eth.cnts k g } ∧ ∀ j < 64, mac t.toMach j = mac s.toMach j
    (¬ room → counts fun c => { c with ovfFrames := sat64 c.ovfFrames 1, ovfBytes := sat64 c.ovfBytes n }) ∧
    (room → pcs = true → counts fun c => { c with pcsErr := sat64 c.pcsErr 1 }) ∧
    (room → pcs = false → ¬ good → counts fun c => { c with fcsErr := sat64 c.fcsErr 1 }) ∧
    (room → pcs = false → good → n < 64 → counts fun c => { c with runt := sat64 c.runt 1 }) ∧
    (room → pcs = false → good → 64 ≤ n → (mac s.toMach k).maxFrame < n → counts fun c => { c with oversize := sat64 c.oversize 1 }) ∧
    (room → pcs = false → good → 64 ≤ n → n ≤ (mac s.toMach k).maxFrame → accepts s.toMach k f.dst = false →
      counts fun c => { c with filtered := sat64 c.filtered 1 }) ∧
    (fits → f.etype = 0x8808 → counts fun c => { c with pause := sat64 c.pause 1 }) ∧
    (fits → f.etype ≠ 0x8808 → portHeld s.toMach (13 + k) = true → Takes (.ethFrameReceive k frame pcs x) s
      (setMac s.toMach k fun y => { y with rxq := y.rxq ++ [{ frame, stamp := x.stamp }] })) ∧
    (fits → drains → f.etype ∉ [0x8808, 0x0800, 0x86DD, 0x0806] → leaves fun c => { c with unmatched := sat64 c.unmatched 1 }) ∧
    (fits → drains → f.etype = 0x0800 →
      (ip4Of f.body = none → leaves fun c => { c with ipErr := sat64 c.ipErr 1 }) ∧
      ∀ ip ∈ ip4Of f.body, ip.proto = 17 →
        (udpOk ip = false → leaves fun c => { c with udpErr := sat64 c.udpErr 1 }) ∧
        (udpOk ip = true → beNat (sub ip.data 2 2) ∉ [319, 320] →
          let r := rtpOf (udpBody ip)
          let hits := (matching s.toMach k f.tci ip (beNat (sub ip.data 2 2)) r).filter fun c => decide (2 ≤ (ctx s.toMach c).st)
          (hits = [] → leaves fun c => { c with unmatched := sat64 c.unmatched 1 }) ∧
          ∀ c ∈ hits.head?, 12 ≤ (udpBody ip).length → rtpOk (ctx s.toMach c).d r = true → pairOf s.toMach c = [c] →
            (ctx s.toMach c).d.partner = 0xFFFF → (ctx s.toMach c).kept = [] → (ctx s.toMach c).pathLost = false →
            let d := (ctx s.toMach c).d
            let seq := extSeq d r.seq r
            let late := d.video ∧ ((ctx s.toMach c).based = true ∨ d.auto = false) ∧
              lineRelease s.toMach c r.ts (firstLine s.toMach c seq r.body) < s.dt.t
            let gone := d.typ = 3 ∧ frameGone s.toMach d.port r.ts = true
            Answers (.ethFrameReceive k frame pcs x) s fun t =>
              t.toMach = { s.toMach with eth := t.eth, flw := t.flw, mem := (spend (13 + k) n s.toMach).mem } ∧
              (tget {} t.eth.cnts k).rxFrames = sat64 (tget {} s.eth.cnts k).rxFrames 1 ∧
              (tget {} t.flw.cnts c).pkts = sat (tget {} s.flw.cnts c).pkts 1 ∧
              (gone → (tget {} t.flw.cnts c).discard = sat (tget {} s.flw.cnts c).discard 1 ∧ (ctx t.toMach c).buf = (ctx s.toMach c).buf) ∧
              (late → (tget {} t.flw.cnts c).late = sat (tget {} s.flw.cnts c).late 1 ∧ (ctx t.toMach c).buf = (ctx s.toMach c).buf) ∧
              (¬ late → ¬ gone → heldBytes (ctx s.toMach c) + r.body.length ≤ granules s.toMach c * 65536 →
                let q : RxPkt := { seq, ts := r.ts, marker := r.marker, at_ := s.dt.t, data := r.body }
                let before := (ctx s.toMach c).buf.takeWhile fun b => decide (b.seq < q.seq)
                (ctx t.toMach c).buf = before ++ [q] ++ (ctx s.toMach c).buf.drop before.length)))

/-- What a MAC does of itself (R31, R173, R179, R180, R192, R205, R206). A link change is noted and, with contexts on the MAC, its loss
recorded; a link comes up only with every lane locked, alignment lock and no fault for 10 ms; a complete packet leaves with its FCS
and is counted, a late one is dropped and reported; next hops are asked for; reports repeat and answer. -/
def Obligations.MacsProceed : Prop :=
  (∀ (s : State) (k : Nat) (up a lf rf : Bool), k < 64 → macExists s.toMach k = true →
    let x := mac s.toMach k
    let faultAt := if x.lfault || x.rfault || lf || rf then s.now else x.faultAt
    let m := setMac s.toMach k fun x => { x with align := a, lfault := lf, rfault := rf, faultAt }
    let turn (link : Bool) := setMac m k fun x => { x with link }
    (linkReady m k = true ↔ allLanes s.toMach k (fun l => l.lock && l.loop == 0) = true ∧ a = true ∧ lf = false ∧ rf = false ∧
      x.lfault = false ∧ x.rfault = false ∧ max x.faultAt s.sys.resetAt + 10 * msT ≤ s.now) ∧
    (x.link = (up && linkReady m k) → Takes (.ethLinkChange k up a lf rf) s m) ∧
    (x.link = true → (up && linkReady m k) = false → ctxOnMac s.toMach (· == k) = none →
      Answers (.ethLinkChange k up a lf rf) s fun t => t.toMach = { turn false with ctl := t.ctl }) ∧
    (x.link = true → (up && linkReady m k) = false → (ctxOnMac s.toMach (· == k)).isSome = true → tableRoom s.toMach = true →
      Answers (.ethLinkChange k up a lf rf) s fun t => t.eth = (turn false).eth ∧ t.flw = s.flw ∧
        recorded t.toMach (0xBF0 + k) 0x30 = true) ∧
    (x.link = false → up = true → linkReady m k = true → standing s.toMach (0xBF0 + k) 0x30 = false →
      Answers (.ethLinkChange k up a lf rf) s fun t => t.toMach = { turn true with ctl := t.ctl })) ∧
  (∀ (s : State) (k : Nat) (complete : Bool), k < 64 →
    ((mac s.toMach k).txq = [] → Takes (.ethPacketRelease k complete) s s.toMach) ∧
    ∀ p ∈ (mac s.toMach k).txq.head?,
      let m := setMac s.toMach k fun x => { x with txq := x.txq.drop 1 }
      let goes := macSends s.toMach k = true ∧ (p.speak = true → speaks s.toMach = true)
      (complete = false → tableRoom s.toMach = true → Answers (.ethPacketRelease k complete) s fun t =>
        t.eth = (setMacCnt m k fun c => { c with txLate := sat64 c.txLate 1 }).eth ∧ t.flw = s.flw ∧
          recorded t.toMach (0xBF0 + k) 0x18 = true) ∧
      (complete = true → ¬ goes → Takes (.ethPacketRelease k complete) s m) ∧
      (complete = true → goes →
        Answers (.ethPacketRelease k complete) s fun t => t.toMach = { s.toMach with eth := t.eth, flw := t.flw } ∧
          (mac t.toMach k).sent = p.frame ++ fcs p.frame ∧ (mac t.toMach k).txq = (mac s.toMach k).txq.drop 1 ∧
          (tget {} t.eth.cnts k).txFrames = sat64 (tget {} s.eth.cnts k).txFrames 1 ∧
          (tget {} t.eth.cnts k).txBytes = sat64 (tget {} s.eth.cnts k).txBytes (p.frame.length + (fcs p.frame).length) ∧
          ∀ c ∈ p.ctx, (ctx t.toMach c).seq = p.seq ∧ (tget {} t.flw.cnts c).pkts = sat (tget {} s.flw.cnts c).pkts 1)) ∧
  (∀ (s : State) (k c : Nat), k < 64 → unicastSenders s.toMach k = [c] → (ctx s.toMach c).d.v6 = false → (ctx s.toMach c).d.tagged = false →
    hasIface s.toMach k false = true → macSends s.toMach k = true →
    (speaks s.toMach = false → Takes (.nextHopRefresh k) s s.toMach) ∧
    (speaks s.toMach = true →
      let a := (mac s.toMach k).addr
      let arp := arpBytes 1 a (iface s.toMach k).ip4 0 (nextHop s.toMach (ctx s.toMach c).d)
      Takes (.nextHopRefresh k) s (queueFrame s.toMach k none 0 (ethFrame (2 ^ 48 - 1) a none 0x0806 arp) true))) ∧
  (∀ (s : State) (k : Nat) (g : List Byte) (x : Member), k < 64 →
    (s.flw.members.filter fun x => x.mac == k && x.addr == g && !x.again.isEmpty) = [x] →
    let same (y : Member) : Bool := y.mac == x.mac && y.addr == x.addr && y.tci == x.tci
    let m := sendReport s.toMach x x.again
    Answers (.stateChangeReportRepeat k g) s fun t => t.toMach = { m with flw := t.flw } ∧
      t.flw.members = s.flw.members.filterMap fun y => if same y then (if y.ctxs.isEmpty then none else some { y with again := [] }) else some y) ∧
  (∀ (s : State) (k : Nat) (x : Member), k < 64 → (s.flw.members.filter fun x => x.mac == k && x.query.isSome) = [x] → x.ctxs ≠ [] →
    Answers (.queryResponse k) s fun t => t.toMach = { sendReport s.toMach x (answerRecs x) with flw := t.flw } ∧
      t.flw.members = s.flw.members.map fun x => if x.mac = k then { x with query := none } else x)

/-! ### Media flows (R193 to R210) -/

/-- Releases of receive flows (R94, R196, R197, R199, R200, R203, R207 to R210). A line leaves the playout at its instant with what has
arrived of it, and none before; a sample frame goes to the audio domain or is missing; the mean lateness decides whether samples
are inserted or dropped; a path of a pair is lost; a swap binds the waiting context once a whole frame is ready, else it is late. -/
def Obligations.FlowsProceed : Prop :=
  (∀ (s : State) (c ts line : Nat), c < 16384 → 2 ≤ (ctx s.toMach c).st → (ctx s.toMach c).d.dir ≠ 1 → (ctx s.toMach c).d.typ = 0 →
    namedBy s.toMach c = none →
    (line ≠ 1 → s.dt.t < lineRelease s.toMach c ts line → Takes (.flowLineRelease c ts line) s s.toMach) ∧
    ((ctx s.toMach c).d.auto = false → line = 1 → Answers (.flowLineRelease c ts line) s fun t =>
      t.toMach = { s.toMach with flw := t.flw } ∧ (ctx t.toMach c).offset = (ctx s.toMach c).d.offset ∧ (ctx t.toMach c).moved = false) ∧
    (line ≠ 1 → lineRelease s.toMach c ts line ≤ s.dt.t → (ctx s.toMach c).st = 3 → (ctx s.toMach c).port < 1152 →
      (s.flw.ctxs.all fun x => x.2.d.typ != 3) = true →
      let x := ctx s.toMach c
      let a := assemble s.toMach x.d (x.buf.filter fun b => b.ts == ts) line
      let last (b : RxPkt) : Nat := (((srds b.data).getD []).map (srdLine s.toMach x.d)).max?.getD 1
      Answers (.flowLineRelease c ts line) s fun t => t.toMach = { s.toMach with flw := t.flw } ∧
        (ingress t.toMach x.port).lines = (ingress s.toMach x.port).lines ++
          [{ line := line, words := a.1, holes := a.2, at_ := some (lineRelease s.toMach c ts line) }] ∧
        (ctx t.toMach c).buf = x.buf.filter fun b => !(b.ts == ts && decide (last b ≤ line))) ∧
    ((ctx s.toMach c).d.auto = true → (ctx s.toMach c).based = false → line = 1 → (ctx s.toMach c).st = 2 →
      Answers (.flowLineRelease c ts line) s fun t => t.toMach = { s.toMach with flw := t.flw } ∧
        (ctx t.toMach c).based = true ∧ (ctx t.toMach c).offset = autoOffset s.toMach (ctx s.toMach c).d ts)) ∧
  (∀ (s : State) (c ts : Nat), c < 16384 → (ctx s.toMach c).nextTs = some ts → 2 ≤ (ctx s.toMach c).st → (ctx s.toMach c).d.audio = true →
    (ctx s.toMach c).d.dir ≠ 1 →
    let x := ctx s.toMach c
    let due : Int := (mediaAt x.d.clock ts s.dt.t + x.offset * nsU : Nat) + x.slip * (secU / x.d.rate : Nat)
    let n := nextIndex s.toMach (3000 + c) due.toNat
    ((s.dt.t : Int) < due → Takes (.flowAudioRelease c) s s.toMach) ∧
    (due ≤ s.dt.t → atBlock s.toMach (3000 + c) n = false →
      (∀ xs ∈ sampleAt s.toMach c ts, Answers (.flowAudioRelease c) s fun t =>
        t.toMach = { placeFrame (noteStatus s.toMach (3000 + c) (cellsAt s.toMach c ts)) (3000 + c) n xs with flw := t.flw } ∧
          (ctx t.toMach c).nextTs = some ((ts + 1) % 2 ^ 32)) ∧
      (sampleAt s.toMach c ts = none → (group s.toMach (3000 + c)).next = none → Answers (.flowAudioRelease c) s fun t =>
        t.toMach = { s.toMach with flw := t.flw } ∧ (ctx t.toMach c).nextTs = some ((ts + 1) % 2 ^ 32) ∧
          (tget {} t.flw.cnts c).lost = sat (tget {} s.flw.cnts c).lost 1))) ∧
  (∀ (s : State) (c : Nat), c < 16384 → (ctx s.toMach c).d.audio = true →
    let x := ctx s.toMach c
    let mean := x.lateSum / x.lateN
    let held := x.buf.foldl (fun a b => a + b.data.length) 0
    let cap := granules s.toMach c * 65536
    (x.lateN = 0 → Takes (.flowLatenessCheck c) s s.toMach) ∧
    (x.lateN ≠ 0 → Answers (.flowLatenessCheck c) s fun t => t.toMach = { s.toMach with flw := { s.flw with ctxs := t.flw.ctxs } } ∧
      (ctx t.toMach c).lateN = 0 ∧ ((x.offset : Int) - 125000 < mean → (ctx t.toMach c).inserting = true) ∧
      (mean ≤ (x.offset : Int) - 125000 → mean < (x.offset : Int) / 2 → (ctx t.toMach c).inserting = false) ∧
      (mean < 0 → 3 * cap < 4 * held → (ctx t.toMach c).dropping = true) ∧
      (0 ≤ mean → 2 * held ≤ cap → (ctx t.toMach c).dropping = false))) ∧
  (∀ (s : State) (c : Nat), c < 16384 → 2 ≤ (ctx s.toMach c).st → (ctx s.toMach c).d.dir = 0 → 1 < (pairOf s.toMach c).length →
    (ctx s.toMach c).pathLost = false →
    (s.dt.t ≤ (ctx s.toMach c).lastPkt + secU / 10 → Takes (.protectionPathLost c) s s.toMach) ∧
    ((ctx s.toMach c).lastPkt + secU / 10 < s.dt.t → tableRoom s.toMach = true →
      Answers (.protectionPathLost c) s fun t => (ctx t.toMach c).pathUp = false ∧ (ctx t.toMach c).pathLost = true ∧
        recorded t.toMach (0xC30 + (ctx s.toMach c).d.mac) 0x32 = true)) ∧
  (∀ (s : State) (p b : Nat) (w : SwapTo), p < 1152 → (ingress s.toMach p).swap = some w → w.ctx = some b →
    (ctx s.toMach b).d.auto = false →
    let x := plane s.toMach w.plane
    let due := w.target < x.nextSw ∨ switchInstant x w.target s.dt.t ≤
      (s.dt.t + (5352 + 1000 * classW (fmtClass ((ctx s.toMach b).d.rxFmt s.toMach))) * nsU : Nat)
    (¬ due → Takes (.flowSwapRelease p) s s.toMach) ∧
    (due → ready s.toMach b = true → (ingress s.toMach p).cur = none →
      Answers (.flowSwapRelease p) s fun t => t.toMach = { s.toMach with flw := t.flw, ctl := t.ctl } ∧
        ingress t.toMach p = { ingress s.toMach p with cur := some b, swap := none, lastTs := none } ∧
        (ctx t.toMach b).st = 3 ∧ (ctx t.toMach b).port = p) ∧
    (due → ready s.toMach b = false → s.now ≤ w.tick + (ctx s.toMach b).d.joinWait * msT → w.late = false →
      tableRoom s.toMach = true →
      Answers (.flowSwapRelease p) s fun t => t.flw = (setIngress s.toMach p fun i => { i with swap := some { w with late := true } }).flw ∧
        recorded t.toMach (1152 + p) 0x35 = true)) ∧
  (∀ (s : State) (p : Nat) (w : SwapTo), p < 1152 → (ingress s.toMach p).swap = some w → w.ctx = none →
    w.target < (plane s.toMach w.plane).nextSw → (ingress s.toMach p).cur = none → (srcOf s.toMach (1152 + p)).present = false →
    Answers (.flowSwapRelease p) s fun t => t.toMach = { s.toMach with flw := t.flw, ctl := t.ctl } ∧
      ingress t.toMach p = { ingress s.toMach p with cur := none, swap := none, lines := [], lastTs := none })

/-! ### Compositors (R223 to R242, R274) -/

/-- Compositors between frames (R223, R226, R236, R242, R274). At its layout instant a compositor finishes its frame, latches the layout
in force and counts; a line that was late is counted and reported; a shed one repeats its last frame. Over +105 °C the highest-numbered
compositor, then metering from SHC_15 down, is shed; once cool the lowest-numbered is restored; each step at least 100 ms after the
one before. -/
def Obligations.CompositorsProceed : Prop :=
  (∀ (s : State) (k : Nat), k < 32 → (cmpr s.toMach k).shed = false → (cmpr s.toMach k).lat.layout.regions = [] →
    let l := (latchLayout s.toMach (cmpr s.toMach k)).1
    let now := if (cmpr s.toMach k).idle then (cmpr s.toMach k).prev else (cmpr s.toMach k).out
    let out (late : List Nat) := if (cmpr s.toMach k).idle then (cmpr s.toMach k).out else (cmpr (finish s.toMach k late) k).out
    ((cmpr s.toMach k).lat.count = (plane s.toMach l.plane).nextSw ∧ (cmpr s.toMach k).lat.layout.plane = l.plane →
      ∀ late, (late.all (· < 4320)) = true → Takes (.cmpLayoutInstant k late) s s.toMach) ∧
    (¬ ((cmpr s.toMach k).lat.count = (plane s.toMach l.plane).nextSw ∧ (cmpr s.toMach k).lat.layout.plane = l.plane) →
      let latched (t : State) : Prop := t.xb = s.xb ∧ (cmpr t.toMach k).lat.layout = l ∧
        (cmpr t.toMach k).lat.fmt = (plane s.toMach l.plane).fmt ∧ (cmpr t.toMach k).lat.count = (plane s.toMach l.plane).nextSw ∧
        (cmpr t.toMach k).frames = ((cmpr s.toMach k).frames + 1) % 2 ^ 32 ∧ (cmpr t.toMach k).prev = now ∧
        (cmpr t.toMach k).idle = false
      (Answers (.cmpLayoutInstant k []) s fun t => latched t ∧ (cmpr t.toMach k).out = out []) ∧
      ∀ y < 4320, tableRoom s.toMach = true → Answers (.cmpLayoutInstant k [y]) s fun t => latched t ∧
        (cmpr t.toMach k).out = out [y] ∧ recorded t.toMach (cmpSrc k) 0x41 = true ∧
        (tget {} t.cmp.cnts k).lateLine = sat (tget {} s.cmp.cnts k).lateLine 1)) ∧
  (∀ (s : State) (k : Nat) (late : List Nat), k < 32 → (cmpr s.toMach k).shed = true →
    let p := (latchLayout s.toMach (cmpr s.toMach k)).1.plane
    (cmpr s.toMach k).lat.count ≠ (plane s.toMach p).nextSw → (late.all (· < 4320)) = true →
    Answers (.cmpLayoutInstant k late) s fun t => t.toMach = { s.toMach with cmp := t.cmp, is_ := t.is_ } ∧
      (cmpr t.toMach k).out = (cmpr s.toMach k).out ∧ (cmpr t.toMach k).frames = ((cmpr s.toMach k).frames + 1) % 2 ^ 32 ∧
      (cmpr t.toMach k).lat = { (cmpr s.toMach k).lat with count := (plane s.toMach p).nextSw } ∧ (cmpr t.toMach k).idle = true) ∧
  (∀ s : State,
    ((caseHot s.toMach = false ∨ s.now < s.cmp.stepAt) → Takes .compositorShed s s.toMach) ∧
    ∀ k < 32, caseHot s.toMach = true → s.cmp.stepAt ≤ s.now → (cmpr s.toMach k).shed = false →
      (∀ j < 32, k < j → (cmpr s.toMach j).shed = true) → tableRoom s.toMach = true →
      Answers .compositorShed s fun t => (cmpr t.toMach k).shed = true ∧ recorded t.toMach (cmpSrc k) 0x43 = true ∧
        t.cmp.stepAt = s.now + 100 * msT ∧ ∀ j < 32, j ≠ k → cmpr t.toMach j = cmpr s.toMach j) ∧
  (∀ s : State,
    ((caseCool s.toMach = false ∨ s.now < s.cmp.stepAt) → Takes .compositorRestore s s.toMach) ∧
    ∀ k < 32, caseCool s.toMach = true → s.cmp.stepAt ≤ s.now → (cmpr s.toMach k).shed = true →
      (∀ j < k, (cmpr s.toMach j).shed = false) →
      Answers .compositorRestore s fun t => (cmpr t.toMach k).shed = false ∧ t.aud.shedClusters = s.aud.shedClusters - 1 ∧
        t.cmp.stepAt = s.now + 100 * msT ∧ ∀ j < 32, j ≠ k → cmpr t.toMach j = cmpr s.toMach j) ∧
  (∀ s : State,
    ((allShed s.toMach = false ∨ s.flt.caseTemp ≤ 105 * 128 ∨ 16 ≤ s.aud.shedClusters ∨ s.now < s.cmp.stepAt) →
      Takes .metersShed s s.toMach) ∧
    (allShed s.toMach = true → 105 * 128 < s.flt.caseTemp → s.aud.shedClusters < 16 → s.cmp.stepAt ≤ s.now → tableRoom s.toMach = true →
      Answers .metersShed s fun t => t.aud = { s.aud with shedClusters := s.aud.shedClusters + 1 } ∧
        recorded t.toMach (0xC70 + (15 - s.aud.shedClusters)) 0x51 = true))

/-! ### Audio (R20, R249 to R260, R276 to R278, R289 to R298) -/

/-- Sample frames of the audio domain (R20, R251, R252, R255, R257, R259, R273, R293). The oldest frame that a source's de-embedder has
taken from its lines goes, as its group's first, to the grid index nearest its stamp, one too late is discarded; a block begins at
its boundary; an output index carries its taps' sum, rounded and clamped; a port's oldest frame goes to its index, not before
its stamp. -/
def Obligations.AudioProceeds : Prop :=
  (∀ (s : State) (g : Nat), g < 2304 →
    ((srcOf s.toMach g).audioQ = [] → Takes (.audioInputFrame g) s s.toMach) ∧
    ∀ (stamp : Nat) (xs : List Int) (cells : List Nat) (rest : List (Nat × List Int × List Nat)),
      (srcOf s.toMach g).audioQ = (stamp, xs, cells) :: rest →
      let m := setSrc s.toMach g fun x => { x with audioQ := rest }
      (xs = [] → Takes (.audioInputFrame g) s (setGrp m g fun a => { a with resync := true, block := [] })) ∧
      (xs ≠ [] → (group s.toMach g).convert = false → (group s.toMach g).mismatch = false → (group s.toMach g).stamps = [] →
        (group s.toMach g).next = none → (group s.toMach g).gap ≠ 0 →
        let n := indexNear s.toMach stamp
        (tooLate s.toMach g n = false →
          Answers (.audioInputFrame g) s fun t => t.toMach = { m with aud := t.aud } ∧
            (group t.toMach g).next = some (n + 1) ∧ (group t.toMach g).last = xs ∧ (group t.toMach g).gap = 0 ∧
            (group t.toMach g).status = (group (noteStatus s.toMach g cells) g).status ∧
            ∀ i < min xs.length (groupChans s.toMach g).2, tget? n (ring t.toMach ((groupChans s.toMach g).1 + i)) =
              some (container (nonAudio (group t.toMach g) i) false
                (if nonAudio (group t.toMach g) i then lget 0 xs i else rampUp (lget 0 xs i) (group s.toMach g).up))) ∧
        (tooLate s.toMach g n = true →
          Answers (.audioInputFrame g) s fun t => t.toMach = { m with aud := t.aud, audCnt := t.audCnt } ∧
            t.audCnt.late = sat s.audCnt.late 1 ∧ (group t.toMach g).next = none ∧ t.aud.rings = s.aud.rings))) ∧
  (∀ (s : State) (p : Nat) (stamp : Nat) (ys : List Int) (rest : List (Nat × List Int)), p < 32 →
    (apt s.toMach p).inBuf = (stamp, ys) :: rest →
    (s.dt.t < stamp → Takes (.audioInputFrame (2400 + p)) s s.toMach) ∧
    (stamp ≤ s.dt.t → (apt s.toMach p).st = 3 → (group s.toMach (2400 + p)).next = none →
      let n := indexNear s.toMach stamp
      tooLate s.toMach (2400 + p) n = false →
      Answers (.audioInputFrame (2400 + p)) s fun t => t.toMach = { s.toMach with aud := t.aud, apt := t.apt } ∧
        (apt t.toMach p).inBuf = rest ∧
        ((apt s.toMach p).rampIn = 0 → (group t.toMach (2400 + p)).next = some (n + 1) ∧ (group t.toMach (2400 + p)).last = ys))) ∧
  (∀ s : State, s.apt.ports = [] → s.aud.groups = [] → s.aud.blockChg = [] →
    Takes .audioBlock s { s.toMach with aud := { s.aud with block := blockAt s.dt.t } }) ∧
  (∀ (s : State) (g n : Nat) (a : AGroup), s.apt.ports = [] → s.aud.groups = [(g, a)] → g < 2400 → s.aud.blockChg = [] → a.next = some n →
    let stop := blockAt s.dt.t * blockLen s.toMach
    n ≤ stop → stop ≤ n + blockLen s.toMach →
    Answers .audioBlock s fun t => t.toMach = { s.toMach with aud := t.aud, audCnt := t.audCnt } ∧ t.aud.block = blockAt s.dt.t ∧
      (group t.toMach g).next = some stop ∧ (group t.toMach g).gap = a.gap + (stop - n) ∧ (group t.toMach g).last = a.last) ∧
  (∀ (s : State) (ch n : Nat), ch < 65536 → s.aud.timed = [] → tget? ch s.aud.fades = none →
    let f := if (chanDest s.toMach ch).any (silent s.toMach) then (0, false) else finalY (mixAcc s.toMach ch n)
    Answers (.audioOutputSample ch n) s fun t => tget? n (tget [] t.aud.outs ch) = some (jumpRamp s.toMach n f.1) ∧
      t.audCnt.clip = sat s.audCnt.clip (b2n f.2) ∧ t.aud.taps = s.aud.taps ∧ t.aud.rings = s.aud.rings ∧ t.xb = s.xb) ∧
  (∀ (s : State) (x : Nat), x < 16 → (s.ctl.journal.all fun e => !e.waiting) = true →
    ((s.aud.loads.any fun l => l.cluster == x && decide (131072 ≤ l.copied)) = false → Takes (.audBankWhole x) s s.toMach) ∧
    ((s.aud.loads.any fun l => l.cluster == x && decide (131072 ≤ l.copied)) = true →
      Answers (.audBankWhole x) s fun t => t.toMach = { s.toMach with aud := { s.aud with ready := t.aud.ready } } ∧
        bit t.aud.ready x = true ∧ ∀ y < 16, y ≠ x → bit t.aud.ready y = bit s.aud.ready y))

/-- Serial audio ports (R289 to R291, R295, R297). A disabled port ignores its clocks; the first edge is noted; a frame of the wrong
length is a glitch, and the sixteenth in a row mutes the port; a valid frame is counted; the clock is lost after four expected
frame periods without an edge, and the port waits again. -/
def Obligations.AudioPortsProceed : Prop :=
  (∀ (s : State) (n bclks : Nat) (slots : List Nat), n < 32 →
    let x := apt s.toMach n
    let valid := bclks = x.cfg.s * x.cfg.w
    (x.cfg.enable = false → Takes (.aptFsyncEdge n bclks slots) s (setApt s.toMach n fun x => { x with drive := false })) ∧
    (x.cfg.enable = true → x.hasEdge = false →
      Answers (.aptFsyncEdge n bclks slots) s fun t => t.toMach = { s.toMach with apt := t.apt } ∧
        apt t.toMach n = { x with hasEdge := true, lastEdge := s.dt.t, drive := drives s.toMach x,
                                  rampOut := if x.drive then x.rampOut else 0 }) ∧
    (x.cfg.enable = true → x.hasEdge = true → ¬ valid → x.glitches + 1 ≠ 16 → tableRoom s.toMach = true →
      Answers (.aptFsyncEdge n bclks slots) s fun t => (apt t.toMach n).glitches = x.glitches + 1 ∧ (apt t.toMach n).st = x.st ∧
        (tget {} t.apt.cnts n).glitch = sat (tget {} s.apt.cnts n).glitch 1 ∧ recorded t.toMach (0xC80 + n) 0x52 = true) ∧
    (x.cfg.enable = true → x.hasEdge = true → ¬ valid → x.glitches = 15 → s.flt.recs.length < 2047 →
      Answers (.aptFsyncEdge n bclks slots) s fun t => (apt t.toMach n).glitches = 16 ∧ (apt t.toMach n).st = 5 ∧
        (apt t.toMach n).rampIn = 0 ∧ recorded t.toMach (0xC80 + n) 0x53 = true) ∧
    (x.cfg.enable = true → x.hasEdge = true → valid → x.st = 1 →
      Answers (.aptFsyncEdge n bclks slots) s fun t => (apt t.toMach n).st = 2 ∧ (apt t.toMach n).edges = x.edges + 1 ∧
        (apt t.toMach n).glitches = 0 ∧ (apt t.toMach n).lastEdge = s.dt.t)) ∧
  (∀ (s : State) (n lost : Nat), n < 32 → (apt s.toMach n).cfg.enable = true → (apt s.toMach n).hasEdge = true →
    lossTime (apt s.toMach n) = some lost →
    (s.dt.t ≤ (apt s.toMach n).lastEdge + lost → Takes (.aptClockLost n) s s.toMach) ∧
    ((apt s.toMach n).lastEdge + lost < s.dt.t → tableRoom s.toMach = true →
      Answers (.aptClockLost n) s fun t => (apt t.toMach n).st = 1 ∧ (apt t.toMach n).hasEdge = false ∧ (apt t.toMach n).clkLost = true ∧
        (tget {} t.apt.cnts n).clkLost = sat (tget {} s.apt.cnts n).clkLost 1 ∧ recorded t.toMach (0xC80 + n) 0x55 = true))

/-! ### Timing (R307 to R340) -/

/-- References (R6, R308 to R311, R313, R314). An event is stamped at the pin less DELAY, in steps of 0.125 ns, or at the instant of
the link reference's oldest record; a quality message with its CRC is taken, any other counted; the message times out after 5 s; the
offset and excursion of each second are held against the limits; a candidate without events is absent. -/
def Obligations.ReferencesProceed : Prop :=
  (∀ (s : State) (c at_ : Nat) (phase : Int), c < 4 →
    ((cand s.toMach c).cfg.kind ≠ 0 → Answers (.refEvent c at_ phase) s fun t => t.toMach = { s.toMach with tmg := t.tmg, ctl := t.ctl } ∧
      cand t.toMach c = { cand s.toMach c with present := true, lastEvent := s.now, phase := phase,
                                               stamp := (at_ : Int) / 2 ^ 29 * 2 ^ 29 - (cand s.toMach c).cfg.delay * (nsU : Nat) / 1000 } ∧
      ∀ j < 14, j ≠ c → cand t.toMach j = cand s.toMach j) ∧
    ((cand s.toMach c).cfg.kind = 0 → Answers (.refEvent c at_ phase) s fun t => t.toMach = { s.toMach with tmg := t.tmg, ctl := t.ctl } ∧
      t.tmg.cands = s.tmg.cands)) ∧
  (∀ (s : State) (c at_ : Nat) (phase : Int) (lane id : Nat) (r : RefRec), 4 ≤ c → c < 12 → tget? (c - 4) s.tmg.lrefs = some (lane, id) →
    let mine (x : RefRec) : Bool := x.lane == lane && x.refid == id
    s.wl.refQ.find? mine = some r → r.present = true → linkLive s.toMach c = true →
    Answers (.refEvent c at_ phase) s fun t =>
      t.toMach = { s.toMach with tmg := t.tmg, ctl := t.ctl, wl := { s.wl with refQ := s.wl.refQ.eraseP mine } } ∧
      cand t.toMach c = { cand s.toMach c with present := true, lastEvent := s.now, phase := phase, stamp := r.at_,
                                               qlrx := r.ql, stale := r.stale, hold := r.cardHold }) ∧
  (∀ (s : State) (c : Nat) (bs : List Byte) (gap : Bool), c < 4 →
    let ok := gap = false ∧ bs.length = 4 ∧ fld bs 0 1 = 0x51 ∧ crc8 (bs.take 3) = fld bs 3 1
    let heard (x : Cand) : Cand := { x with qlrx := fld bs 1 1 / 16, hold := bit (fld bs 2 1) 0, lastQl := s.now, stale := false }
    (ok → Takes (.qlMessage c bs gap) s (setCand s.toMach c heard)) ∧
    (¬ ok → Takes (.qlMessage c bs gap) s (setCand s.toMach c fun x => { x with qlErr := sat x.qlErr 1 }))) ∧
  (∀ (s : State) (c : Nat), c < 4 →
    (s.now ≤ (cand s.toMach c).lastQl + 2500000000 → Takes (.qlTimeout c) s s.toMach) ∧
    ((cand s.toMach c).lastQl + 2500000000 < s.now → Takes (.qlTimeout c) s (setCand s.toMach c fun x => { x with stale := true }))) ∧
  (∀ (s : State) (c : Nat) (events : List (Nat × Int)), c < 14 →
    let x := cand s.toMach c
    let phases := latestPhases 10000000000 (events.reverse ++ x.phases)
    let foff := slopeOf phases
    let ex := excursionOf phases foff
    let soft := decide (x.cfg.soft * 1000 < foff.natAbs)
    let hard := decide (x.cfg.hard * 1000 < foff.natAbs)
    let slope := decide (x.cfg.slope * 1000 < ex.natAbs)
    (x.present = false → Takes (.candidateMeasurement c events) s s.toMach) ∧
    (x.present = true → Answers (.candidateMeasurement c events) s fun t => t.toMach = { s.toMach with tmg := t.tmg } ∧
      (cand t.toMach c).phases = phases ∧
      ((cand t.toMach c).foff, (cand t.toMach c).soft, (cand t.toMach c).hard, (cand t.toMach c).slope) = (foff, soft, hard, slope) ∧
      (cand t.toMach c).softCnt = sat x.softCnt (b2n (soft && !x.soft)) ∧ (cand t.toMach c).hardCnt = sat x.hardCnt (b2n (hard && !x.hard)) ∧
      (cand t.toMach c).slopeCnt = sat x.slopeCnt (b2n slope) ∧ (cand t.toMach c).st = x.st ∧
      (s.tmg.dpll.sel = c → slope = true → t.tmg.dpll.markFrozen = true) ∧ (s.tmg.dpll.sel ≠ c → t.tmg.dpll = s.tmg.dpll))) ∧
  (∀ (s : State) (c n d : Nat), c < 14 → s.tmg.dpll.sel ≠ c → candPeriod s.toMach c = some (n, d) →
    let x := cand s.toMach c
    let gone (x : Cand) : Cand := { x with present := false, soft := false, hard := false, slope := false, phases := [] }
    (x.present = true → x.cfg.lossn * n < (s.now - x.lastEvent) * 2 * d → Takes (.candidateAbsent c) s (setCand s.toMach c gone)) ∧
    (canHaveEvents s.toMach c = true → (s.now - x.lastEvent) * 2 * d ≤ x.cfg.lossn * n → Takes (.candidateAbsent c) s s.toMach))

/-- The selector and the DPLL (R316 to R331, R350). An evaluation moves every candidate's state, makes the choice take effect, sets INCR,
and applies what waits, selector commands after a transition; the transition ends with its build-out; the lock criterion moves
between ACQUIRE and LOCKED; the control value is recorded each second. -/
def Obligations.SelectorProceeds : Prop :=
  (∀ s : State, s.tmg.dpll.queued = [] →
    let d := s.tmg.dpll
    let m := candStates s.toMach
    let pick := choice m
    let off := d.mode = 3 ∧ pairFollowing s.toMach = false
    Answers .selectorEvaluation s fun t =>
      (∀ c < 14, (cand t.toMach c).st = (candStep s.toMach c).st ∧ (cand t.toMach c).qleff = (cand m c).qleff) ∧
      (d.st ≠ 3 → off → t.tmg.dpll.st = 0 ∧ (d.st ≠ 0 → t.tmg.dpll.sel = 15)) ∧
      (d.st ≠ 3 → ¬ off → ∀ c ∈ pick, t.tmg.dpll.sel = c ∧ (c = d.sel → t.tmg.dpll.st = d.st) ∧
        (c ≠ d.sel → d.st = 0 → t.tmg.dpll.st = 1) ∧
        (c ≠ d.sel → d.st ≠ 0 → t.tmg.dpll.st = 3 ∧ t.tmg.dpll.transEnd = s.now + d.lp.tt * msT ∧ t.tmg.dpll.transU = d.u)) ∧
      (d.st = 1 ∨ d.st = 2 → ¬ off → pick = none → t.tmg.dpll.st = 4 ∧ t.tmg.dpll.sel = 15 ∧ t.tmg.dpll.holdU = d.u) ∧
      (d.st = 3 → t.tmg.dpll.st = if (cand m d.sel).st = 6 ∨ (cand m d.sel).st ≤ 1 then 4 else 3) ∧
      (claiming s.toMach = false →
        t.dt = { s.dt with incr := clampIncr (0x200000000 + (t.tmg.dpll.u + s.dt.rem) / 128), rem := (t.tmg.dpll.u + s.dt.rem) % 128 })) ∧
  (∀ (s : State) (mode forced flags holdql freeql : Nat) (bs : List Byte),
    let q := [(Cmd.tmgSelCfg mode forced flags holdql freeql, bs)]
    s.tmg.dpll.queued = q →
    Answers .selectorEvaluation s fun t => (t.tmg.dpll.st = 3 → t.tmg.dpll.queued = q ∧ t.tmg.dpll.mode = s.tmg.dpll.mode) ∧
      (t.tmg.dpll.st ≠ 3 → t.tmg.dpll.queued = [] ∧ t.tmg.dpll.mode = mode ∧ t.tmg.dpll.forced = forced ∧
        t.tmg.dpll.revert = bit flags 0 ∧ t.tmg.dpll.pairFollow = bit flags 1)) ∧
  (∀ s : State,
    let d := s.tmg.dpll
    let u := candU s.toMach d.sel
    ((d.st ≠ 3 ∨ s.now < d.transEnd) → Takes .transitionEnd s s.toMach) ∧
    (d.st = 3 → d.transEnd ≤ s.now → d.mode ≠ 3 → choice s.toMach = some d.sel → d.queued = [] →
      Answers .transitionEnd s fun t => t.tmg.dpll.st = (if d.lp.n ≤ d.okRun then 2 else 1) ∧ t.tmg.dpll.sel = d.sel ∧ t.tmg.dpll.u = u ∧
        t.tmg.dpll.buildout =
          wrapHalf (d.phi0 + (u - d.transU) * (d.lp.tt : Nat) * 1000000000 / (2 * (2 ^ 40 : Int))) (pdPeriod s.toMach d.sel))) ∧
  (∀ (s : State) (err : Int),
    let d := s.tmg.dpll
    let inside := err.natAbs ≤ d.lp.w * 1000
    ((d.st = 0 ∨ d.st = 4) → Takes (.dpllPhaseCycle err) s s.toMach) ∧
    (d.st = 2 → d.lock = true → inside → 1 ≤ d.lp.n →
      Answers (.dpllPhaseCycle err) s fun t => t.toMach = { s.toMach with tmg := t.tmg, ctl := t.ctl, free := s.free + 1 } ∧
        t.tmg.dpll.st = 2 ∧ t.tmg.dpll.err = err ∧ t.tmg.dpll.u = clampU s.toMach (Config.dpllControl s.free)) ∧
    (d.st = 1 → d.lock = false → inside → d.lp.n ≤ d.okRun + 1 →
      Answers (.dpllPhaseCycle err) s fun t => t.tmg.dpll.st = 2 ∧ t.tmg.dpll.lock = true ∧ t.tmg.dpll.lockLost = false ∧
        t.tmg.dpll.lockAt = s.now) ∧
    (d.st = 2 → d.lock = true → 10 * d.lp.w * 1000 < err.natAbs → d.lockAt / msT ≠ s.now / msT → tableRoom s.toMach = true →
      Answers (.dpllPhaseCycle err) s fun t => t.tmg.dpll.st = 1 ∧ t.tmg.dpll.lock = false ∧ t.tmg.dpll.lockLost = true ∧
        t.tmg.dpll.markFrozen = true ∧ recorded t.toMach 0xCAE 0x60 = true)) ∧
  (∀ (s : State) (sensed : Int),
    let d := s.tmg.dpll
    let tempF := if d.samples = 0 then sensed * 2 ^ 16 else d.tempF + (sensed * 2 ^ 16 - d.tempF) * 951626 / 10000000
    let temp := (tempF + 2 ^ 15) / 2 ^ 16
    let x : HistSample := { u := d.u, w := d.u + oscOffset s.toMach temp, at_ := s.now, flag := d.st == 2 }
    Answers (.holdoverSample sensed) s fun t => t.toMach = { s.toMach with tmg := t.tmg } ∧ t.tmg.dpll.hist = (x :: d.hist).take 3600 ∧
      t.tmg.dpll.samples = d.samples + 1 ∧ t.tmg.dpll.temp = temp ∧ t.tmg.dpll.tempF = tempF ∧ t.tmg.dpll.st = d.st ∧
      (d.st ≠ 4 → t.tmg.dpll.u = d.u ∧ t.tmg.dpll.holdVal = d.holdVal) ∧
      (d.st = 4 →
        let v := holdoverValue (dpll t.toMach fun e => { e with holdVal := d.holdVal, u := d.u })
        t.tmg.dpll.holdVal = some v ∧ t.tmg.dpll.u = ramp d.holdU v (s.now - d.holdAt) (d.lp.tt * msT)))

/-- APLLs and granted clock outputs (R333, R334, R338, R340). An APLL locks outside Den; losing lock it falls to the bypass clock, counted
and recorded; after 100 ms of lock it leaves it; an output that was granted is enabled 10 µs after.
Device time (R349, R352 to R355, R359). Each tick adds INCR; a change of device time takes effect at its instant, a set makes device
time valid, a jump is marked and reported, a step is counted; a match unit fires once or repeats, unit 0 as a trigger. -/
def Obligations.ApllsAndDeviceTimeProceed : Prop :=
  (∀ (s : State) (a : Nat), a ≤ 7 →
    let x := apll s.toMach a
    ((s.pwr.st = 2 ∨ x.lock = true) → Takes (.apllLock a) s s.toMach) ∧
    (s.pwr.st ≠ 2 → x.lock = false → Answers (.apllLock a) s fun t => apll t.toMach a = { x with lock := true, lockAt := s.now } ∧
      ∀ b ≤ 7, b ≠ a → apll t.toMach b = apll s.toMach b) ∧
    (x.bypass = true → Takes (.apllBypass a) s (setApll s.toMach a fun x => { x with lock := false })) ∧
    (x.bypass = false → tableRoom s.toMach = true → Answers (.apllBypass a) s fun t =>
      apll t.toMach a = { x with lock := false, bypass := true, byp := sat x.byp 1 } ∧ recorded t.toMach (0xCB0 + a) 0x63 = true ∧
      ∀ b ≤ 7, b ≠ a → apll t.toMach b = apll s.toMach b) ∧
    (x.lock = true → x.lockAt + 100 * msT ≤ s.now →
      Takes (.apllBypassReturn a) s (setApll s.toMach a fun x => { x with bypass := false })) ∧
    ((x.lock = false ∨ s.now < x.lockAt + 100 * msT) → Takes (.apllBypassReturn a) s s.toMach)) ∧
  (∀ (s : State) (k : Nat), k ≤ 11 →
    let o := clkOut s.toMach k
    let due := o.paired = true ∧ o.grant = true ∧ o.src ≠ 0 ∧ o.grantAt + 5000 ≤ s.now ∧ s.pwr.st ≠ 2
    (due → Takes (.clkoutGrantEnable k) s (setOut s.toMach k fun o => { o with drive := true })) ∧
    (¬ due → Takes (.clkoutGrantEnable k) s s.toMach)) ∧
  (∀ (s : State) (n : Nat), Takes (.dtTick n) s
    { s.toMach with now := s.now + n, dt := { s.dt with t := (s.dt.t + n * s.dt.incr) % (2 ^ 48 * secU) } }) ∧
  (∀ s : State, (s.dt.reqs.find? fun r => decide (r.at_ ≤ s.dt.t)) = none → Takes .dtStepApply s s.toMach) ∧
  (∀ (s : State) (r : StepReq), (s.dt.reqs.find? fun r => decide (r.at_ ≤ s.dt.t)) = some r → r.ses = none →
    (∀ u < 8, (tget {} s.dt.units u).on = false) → tableRoom s.toMach = true →
    let ns : Int := r.delta / (nsU : Nat)
    Answers .dtStepApply s fun t => t.dt.t = ((s.dt.t + r.delta) % (2 ^ 48 * secU : Nat)).toNat ∧ t.dt.reqs = s.dt.reqs.erase r ∧
      (r.kind = 2 → t.dt.valid = true ∧ t.dt.steps = s.dt.steps ∧ t.dt.lastStep = s.dt.lastStep) ∧
      (r.kind ≠ 2 → t.dt.valid = s.dt.valid ∧ t.dt.steps = sat s.dt.steps 1 ∧ t.dt.lastStep = clamp 32 ns) ∧
      (r.kind = 1 → t.dt.jump = true ∧ recorded t.toMach 0xCAF 0x64 = true) ∧ (r.kind ≠ 1 → t.dt.jump = s.dt.jump) ∧
      (r.kind = 0 → t.aud = s.aud ∧ t.flw = s.flw ∧ t.apt = s.apt) ∧
      (r.kind ≠ 0 → ∀ g < 2304, (group t.toMach g).next = none)) ∧
  (∀ (s : State) (u : Nat), u < 8 →
    let x : MatchUnit := tget {} s.dt.units u
    let p := x.period * 1000000 * nsU
    let fired (y : MatchUnit) : Mach := { s.toMach with dt := { s.dt with units := tset s.dt.units u y } }
    ((x.on = false ∨ s.dt.t < x.at_) → Takes (.dtMatch u) s s.toMach) ∧
    (x.on = true → x.at_ ≤ s.dt.t → (u ≠ 0 ∨ bit s.snp.enables 2 = false) →
      (x.period = 0 → Takes (.dtMatch u) s (fired { x with on := false })) ∧
      (x.period ≠ 0 → Takes (.dtMatch u) s (fired { x with at_ := x.at_ + ((s.dt.t - x.at_) / p + 1) * p }))))
/-! ### Device time, PTP, faults and snapshots (R348 to R364, R515 to R529) -/


/-- PTP messages and time limits (R357, R358, R361 to R363). A master port of a module that speaks sends Sync, Announce and Management, a
slave port Delay_Req, each counted and queued at its MAC with the message of IEEE 1588; no other port sends. After the receipt
timeout a port forgets its masters and takes the state that is decided. -/
def Obligations.PtpProceeds : Prop :=
  (∀ (s : State) (p kind k : Nat) (x : PtpMeas), p < 16 → (pport s.toMach p).mac = some k →
    ((speaks s.toMach = false ∨ macSends s.toMach k = false) → Takes (.ptpMessageSend p kind x) s s.toMach) ∧
    (kind = 1 → (pport s.toMach p).st ∉ [2, 3] → Takes (.ptpMessageSend p kind x) s s.toMach) ∧
    (kind ≠ 1 → (pport s.toMach p).st ≠ 4 → Takes (.ptpMessageSend p kind x) s s.toMach)) ∧
  (∀ (s : State) (p k : Nat) (x : PtpMeas), p < 16 → (pport s.toMach p).mac = some k → k < 64 → speaks s.toMach = true →
    macSends s.toMach k = true → bit (pport s.toMach p).flags 0 = false → (iface s.toMach k).ip4.length = 4 →
    let y := pport s.toMach p
    let q := (mac s.toMach k).txq
    let at_ := stampPs x.stamp + y.txdly
    let sync := (y.seqSync + 1) % 65536
    let sends (kind n : Nat) (P : State → Prop) (msg : List Byte) : Prop :=
      Answers (.ptpMessageSend p kind x) s fun t => t.toMach = { s.toMach with dt := t.dt, eth := t.eth, free := t.free } ∧
        ((mac t.toMach k).txq.take q.length, (mac t.toMach k).txq.length) = (q, q.length + n) ∧ P t ∧
        (((mac t.toMach k).txq.drop q.length).head?.map fun z => (z.frame.drop 42).take msg.length) = some msg
    (y.st = 4 → bit s.dt.ptp.flags 2 = false →
      sends 0 1 (fun t => (pport t.toMach p).seqSync = sync ∧ (pport t.toMach p).txEvt = sat y.txEvt 1)
        (ptpMsg s.toMach p 0 0 sync (subNs at_) 0 (logByte y.logSync) (ptpStamp at_))) ∧
    (y.st = 4 → bit s.dt.ptp.flags 2 = true →
      sends 0 2 (fun t => (pport t.toMach p).seqSync = sync ∧ (pport t.toMach p).txEvt = sat y.txEvt 1)
        (ptpMsg s.toMach p 0 0x0200 sync 0 0 (logByte y.logSync) (List.replicate 10 0))) ∧
    (y.st = 4 → sends 11 1 (fun t => (pport t.toMach p).seqAnn = (y.seqAnn + 1) % 65536 ∧ (pport t.toMach p).txEvt = y.txEvt)
      (ptpMsg s.toMach p 11 (0x0C + leapFlags s.toMach) ((y.seqAnn + 1) % 65536) 0 5 (logByte y.logAnn) (announceBody s.toMach))) ∧
    (y.st = 4 → sends 13 1 (fun t => (pport t.toMach p).seqMgmt = (y.seqMgmt + 1) % 65536) [0x0D#8, 0x02#8]) ∧
    (y.st = 2 ∨ y.st = 3 → bit y.flags 2 = false →
      sends 1 1 (fun t => (pport t.toMach p).seqReq = (y.seqReq + 1) % 65536 ∧ (pport t.toMach p).t3 = at_)
        (ptpMsg s.toMach p 1 0 ((y.seqReq + 1) % 65536) (at_ * 65536 / 1000 % (2 ^ 64 : Int)).toNat 1 0x7F (List.replicate 10 0)))) ∧
  (∀ (s : State) (p : Nat), p < 16 →
    let y := pport s.toMach p
    (y.mac = none → Takes (.announceReceiptTimeout p) s s.toMach) ∧
    (y.mac.isSome = true → Answers (.announceReceiptTimeout p) s fun t => t.toMach = { s.toMach with dt := t.dt } ∧
      (pport t.toMach p).foreign = [] ∧ (pport t.toMach p).best = none ∧ (pport t.toMach p).annTo = sat y.annTo 1 ∧
      (claiming s.toMach = false → (pport t.toMach p).st = 1) ∧
      (claiming s.toMach = true → pports s.toMach = [p] → (pport t.toMach p).st = if bit y.flags 1 then 1 else 4)))

/-- Fault messages (R515, R518, R519, R521, R522, R524, R525). A message makes a record or joins one; a full table counts a notice it
cannot hold; C3 is grave: ROLE falls to 0 and a snapshot is held; the end of a condition clears its record unless it is C3; a C0 record
expires after ESCT; the case over +105 °C and a junction at +125 °C are faults. -/
def Obligations.FaultsAreRecorded : Prop :=
  (∀ (s : State) (w : BitVec 64), messageOk w.toNat = true → recIdx s.toMach (bits w.toNat 63 52) (bits w.toNat 51 44) = none →
    let src := bits w.toNat 63 52
    let kind := bits w.toNat 51 44
    let cls := bits w.toNat 43 40
    Takes (.faultMessage w true) s s.toMach ∧
    ((s.flt.recs.filter fun r => !r.overflow).length < 2048 → tget 0 s.flt.delivered src < s.flt.budget →
      let msg := faultWord src kind cls (tget 0 s.flt.seqs src) (bits w.toNat 31 0)
      let r : FaultRec := { src, kind, msg, first := s.dt.t, latest := s.dt.t, stamps := [s.dt.t], base := cls, cond := condKinds.contains kind }
      Answers (.faultMessage w false) s fun t => t.flt.recs = s.flt.recs ++ [r] ∧ t.flt.raised = sat s.flt.raised 1 ∧ t.flt.last = msg ∧
        t.flt.seqs = tset s.flt.seqs src ((tget 0 s.flt.seqs src + 1) % 256) ∧
        (cls ≤ 2 → t.pr.role = s.pr.role ∧ t.xb = s.xb ∧ t.flt.grave = s.flt.grave) ∧
        (cls = 3 → t.pr.role = 0 ∧ t.flt.grave = true ∧
          ∀ k ∈ snapSlot s.toMach, s.snp.busy = none → t.snp.busy = some k ∧ (lget {} t.snp.slots k).grave = true)) ∧
    (2048 ≤ (s.flt.recs.filter fun r => !r.overflow).length → cls = 0 →
      Answers (.faultMessage w false) s fun t => t.flt.recs = s.flt.recs ∧ t.flt.tableFull = sat s.flt.tableFull 1)) ∧
  (∀ (s : State) (w : BitVec 64) (i : Nat) (r : FaultRec), messageOk w.toNat = true →
    recIdx s.toMach (bits w.toNat 63 52) (bits w.toNat 51 44) = some i → s.flt.recs[i]? = some r →
    (Answers (.faultMessage w false) s fun t => t.flt.recs.length = s.flt.recs.length ∧
      (t.flt.recs[i]?).map (fun x => (x.count, x.latest, x.base, x.first)) =
        some (r.count + 1, s.dt.t, max r.base (bits w.toNat 43 40), r.first)) ∧
    (r.cond = false → Takes (.faultMessage w true) s s.toMach) ∧
    (r.cond = true → r.cls ≠ 3 → Answers (.faultMessage w true) s fun t =>
      t.flt = { s.flt with recs := s.flt.recs.eraseIdx i, cleared := sat s.flt.cleared 1 }) ∧
    (r.cond = true → r.cls = 3 →
      Takes (.faultMessage w true) s { s.toMach with flt := { s.flt with recs := lmod s.flt.recs i fun x => { x with cond := false } } })) ∧
  (∀ (s : State) (src kind i : Nat) (r : FaultRec), recIdx s.toMach src kind = some i → s.flt.recs[i]? = some r → r.cls = 0 → r.cond = false →
    (s.dt.t < r.latest + s.flt.esct * 1000000 * nsU → Takes (.faultRecordExpiry src kind) s s.toMach) ∧
    (r.latest + s.flt.esct * 1000000 * nsU ≤ s.dt.t → Answers (.faultRecordExpiry src kind) s fun t =>
      t.flt = { s.flt with recs := s.flt.recs.eraseIdx i, cleared := sat s.flt.cleared 1 })) ∧
  (∀ (s : State) (raw : Int) (js : List Int),
    let temp := raw - sensorOffset s.toMach 0
    let cool := if temp < 100 * 128 then some (s.flt.coolSince.getD s.now) else none
    ((js = [] ∧ (temp ≤ 105 * 128 ∧ s.flt.hot = false)) →
      Takes (.thermalPoll raw js) s { s.toMach with flt := { s.flt with caseTemp := temp, coolSince := cool } }) ∧
    (js = [] → 105 * 128 < temp → s.flt.hot = false → tableRoom s.toMach = true →
      Answers (.thermalPoll raw js) s fun t => t.flt.caseTemp = temp ∧ t.flt.hot = true ∧ recorded t.toMach 0xE00 0xB0 = true) ∧
    (js = [] → s.flt.hot = true → (∀ at_ ∈ cool, at_ + 1000 * msT ≤ s.now) → temp < 100 * 128 →
      Answers (.thermalPoll raw js) s fun t => t.flt.caseTemp = temp ∧ t.flt.hot = false) ∧
    (∀ j ∈ js.head?, 125 * 128 ≤ j - sensorOffset s.toMach 10 → s.flt.recs.length < 2047 →
      Answers (.thermalPoll raw js) s fun t => recorded t.toMach 0xE00 0xB1 = true))

/-- Snapshots (R526 to R529, R360). An edge of SNAP_TRIG of 20 ns, where the pin triggers, takes the state into the slot whose turn it is; a
trigger during a copy, or with no slot free, is missed; the copy completes. -/
def Obligations.SnapshotsProceed : Prop :=
  (∀ (s : State) (high : Nat),
    let on := bit s.snp.enables 0 = true ∧ 20 ≤ high ∧ s.dt.pps = false
    let missed := { s.toMach with snp := { s.snp with missed := sat s.snp.missed 1 } }
    (¬ on → Takes (.snapTrigEdge high) s s.toMach) ∧
    (on → s.snp.busy = none → snapSlot s.toMach = none → Takes (.snapTrigEdge high) s missed) ∧
    (on → ∀ k ∈ s.snp.busy, (lget {} s.snp.slots k).instant ≠ s.dt.t → Takes (.snapTrigEdge high) s missed) ∧
    (on → s.snp.busy = none → ∀ k ∈ snapSlot s.toMach,
      let id := s.snp.nextId
      let e : SnapSlot := { id, st := 1, mask := 1, epoch := s.xb.epoch, instant := s.dt.t,
                            swcnt := ((plane s.toMach 0).nextSw - 1) % 2 ^ 32 }
      Answers (.snapTrigEdge high) s fun t =>
        t.toMach = { s.toMach with images := t.images, mem := t.mem, free := t.free, snp := t.snp } ∧
        t.snp = { s.snp with slots := lmod s.snp.slots k fun _ => e, busy := some k, lastId := id, triggers := sat s.snp.triggers 1,
                             nextId := if id + 1 = 2 ^ 32 then 1 else id + 1 } ∧
        tget? k t.images = some s.toBlocks ∧ t.mem = { s.mem with pcs := t.mem.pcs } ∧
        ∀ n < 128, (tget {} s.mem.pcs n).armed = true → (tget {} t.mem.pcs n).capKind = 2 ∧ (tget {} t.mem.pcs n).capId = id ∧
          (tget {} t.mem.pcs n).capAt = s.dt.t)) ∧
  (∀ s : State, (s.snp.busy = none → Takes .snapshotCopyComplete s s.toMach) ∧
    ∀ k ∈ s.snp.busy, Takes .snapshotCopyComplete s
      { s.toMach with snp := { s.snp with busy := none, slots := lmod s.snp.slots k fun x => { x with st := 2 } } })

/-! ### Memory stacks (R377 to R386) -/

/-- Findings and upkeep of the memory stacks (R377 to R384, R386). A parity alert is counted, and the third quarantines the position; a
spare takes it 1 ms later, what lay there reading as lost; a poisoned read is recorded, captured once while armed, and concealed by its
reader; the scrubber notes its position; the temperature sets the refresh; a freeze ends after 100 ms. -/
def Obligations.MemoryProceeds : Prop :=
  (∀ (s : State) (n : Nat), n < 128 →
    let x := pc s.toMach n
    let k := if x.alertAt + 750 < s.now then 1 else x.alerts + 1
    (x.st = 2 → Takes (.memParityAlert n) s s.toMach) ∧
    (x.st ≠ 2 → k < 3 → tableRoom s.toMach = true → Answers (.memParityAlert n) s fun t =>
      (pc t.toMach n).alerts = k ∧ (pc t.toMach n).alertAt = s.now ∧ (pc t.toMach n).parity = sat x.parity 1 ∧
      (pc t.toMach n).st = x.st ∧ recorded t.toMach (0xD60 + n / 32) 0x71 = true) ∧
    (x.st ≠ 2 → 3 ≤ k → s.flt.recs.length < 2046 → s.pwr.st < 2 → Answers (.memParityAlert n) s fun t =>
      (pc t.toMach n).st = 2 ∧ (pc t.toMach n).quar = true ∧ (pc t.toMach n).spare = none ∧ (pc t.toMach n).quarAt = some s.now ∧
      (pc t.toMach n).parity = sat x.parity 1 ∧ recorded t.toMach (0xD60 + n / 32) 0x72 = true ∧
      (x.spare = none → freeSpares (stack s.toMach (n / 32)) = [] → recorded t.toMach (0xD60 + n / 32) 0x73 = true))) ∧
  (∀ (s : State) (n k q ch : Nat), n < 128 → (pc s.toMach n).st = 2 → (pc s.toMach n).quarAt = some q →
    (freeSpares (stack s.toMach (n / 32))).head? = some k →
    (s.now < q + msT → Takes (.memRemap n) s s.toMach) ∧
    (q + msT ≤ s.now → Answers (.memRemap n) s fun t => (pc t.toMach n).st = 0 ∧ (pc t.toMach n).spare = some k ∧
      (pc t.toMach n).quarAt = none ∧ (k = 0 → (stack t.toMach (n / 32)).sp0 = some n) ∧ (k = 1 → (stack t.toMach (n / 32)).sp1 = some n) ∧
      (ring t.toMach ch = (ring s.toMach ch).map fun x => if pcOfTap ch x.1 = n then (x.1, lostContainer) else x) ∧
      t.xb = s.xb ∧ t.ctl = s.ctl)) ∧
  (∀ (s : State) (n port addr : Nat) (u : PoisonUse), n < 128 → port < 83 → s.flt.recs.length < 2047 →
    let x := pc s.toMach n
    Answers (.memPoisonedRead n port addr u) s fun t => (pc t.toMach n).ue = sat x.ue 1 ∧ (pc t.toMach n).armed = false ∧
      (pc t.toMach n).retry = ((false, addr, s.now) :: x.retry).take 64 ∧ recorded t.toMach (0xD60 + n / 32) 0x74 = true ∧
      (x.armed = true → bit s.snp.enables 3 = false →
        ((pc t.toMach n).capAddr, (pc t.toMach n).capPort, (pc t.toMach n).capKind, (pc t.toMach n).capAt) =
        (Config.dramUnit addr % 2 ^ 24 * 64, port, 0, s.dt.t)) ∧
      (u = .system true → recorded t.toMach (0xD60 + n / 32) 0x75 = true) ∧
      (u = .system false → poisonedAt s.toMach (otherCopy addr) = true → recorded t.toMach (0xD60 + n / 32) 0x75 = true) ∧
      (u = .system false → poisonedAt s.toMach (otherCopy addr) = false →
        let unit := addr / 64 * 64
        t.mem.pool = mput s.mem.pool unit (mbytes s.mem.pool (otherCopy unit) 64) ∧
          t.mem.bad = s.mem.bad.filter (· != addr / 64))) ∧
  (∀ (s : State) (n port addr c seq : Nat), n < 128 → port < 83 →
    Answers (.memPoisonedRead n port addr (.playout c seq)) s fun t =>
      (ctx t.toMach c).buf = (ctx s.toMach c).buf.filter (fun b => b.seq != seq) ∧
      t.mem.playoutPoison = sat s.mem.playoutPoison 1) ∧
  (∀ (s : State) (n port addr ch slot idx : Nat), n < 128 → port < 83 →
    Answers (.memPoisonedRead n port addr (.tap ch slot idx)) s fun t => (64 * ch + slot, idx) ∈ t.aud.poison ∧
      t.audCnt.poison = sat s.audCnt.poison 1) ∧
  (∀ (s : State) (n port addr i off b : Nat), n < 128 → port < 83 → (tget {} s.is_.feeds i).valid = true →
    (tget {} s.is_.feeds i).reading s.now = some b →
    Answers (.memPoisonedRead n port addr (.feed i off)) s fun t => 
      (∀ x ∈ unitSpan (lget {} (srcOf s.toMach (tget {} s.is_.feeds i).src).bufs b).fmt off, x ∈ (tget {} t.is_.feeds i).torn) ∧
      (tget {} t.is_.cnts (tget {} s.is_.feeds i).src).concPoison = sat (tget {} s.is_.cnts (tget {} s.is_.feeds i).src).concPoison 1) ∧
  (∀ (s : State) (n port addr k off b : Nat), n < 128 → port < 83 → newest (srcOf s.toMach k) = some b →
    Answers (.memPoisonedRead n port addr (.conceal k off)) s fun t =>
      ∀ x ∈ unitSpan (lget {} (srcOf s.toMach k).bufs b).fmt off, x ∈ (lget {} (srcOf t.toMach k).bufs b).bad) ∧
  (∀ (s : State) (n port addr k w row : Nat), n < 128 → port < 83 →
    Answers (.memPoisonedRead n port addr (.window k w row)) s fun t =>
      (tget {} t.cmp.cnts k).poison = sat (tget {} s.cmp.cnts k).poison 1) ∧
  (∀ (s : State) (n addr outcome : Nat), n < 128 →
    let x := pc s.toMach n
    (x.st = 2 → Takes (.patrolScrub n addr outcome) s s.toMach) ∧
    (x.st ≠ 2 → Answers (.patrolScrub n addr outcome) s fun t => t.toMach = { s.toMach with mem := t.mem, free := t.free } ∧
      (t.mem.scrubPc, t.mem.scrubUnit) = (n, addr % 2 ^ 30 / 64) ∧ (pc t.toMach n).scrub = sat x.scrub (b2n (outcome != 0)) ∧
      t.mem.bad = (if outcome ≤ 1 ∨ s.mem.bad.contains (addr / 64) = true then s.mem.bad else addr / 64 :: s.mem.bad) ∧
      (outcome = 0 → (pc t.toMach n).armed = x.armed) ∧
      (outcome ≠ 0 → x.armed = true → (pc t.toMach n).armed = false ∧ (pc t.toMach n).capKind = 1 ∧ (pc t.toMach n).capPort = 82 ∧
        (pc t.toMach n).capAddr = Config.dramUnit addr % 2 ^ 24 * 64))) ∧
  (∀ (s : State) (k : Nat) (raw : Int) (postpone : Bool), k < 4 → tableRoom s.toMach = true →
    let temp := raw - sensorOffset s.toMach (2 + 2 * k)
    let x := stack s.toMach k
    Answers (.memRefresh k raw postpone) s fun t => (stack t.toMach k).rfsh = (if temp < 85 * 128 then 0 else if temp < 95 * 128 then 1 else 2) ∧
      (stack t.toMach k).hot = decide (105 * 128 < temp) ∧ (stack t.toMach k).temp = toBits 16 temp ∧
      (stack t.toMach k).postponed = (if postpone = true ∧ urgentWaits s.toMach k = true ∧ x.postponed < 8 then x.postponed + 1 else 0) ∧
      (105 * 128 < temp → x.hot = false → recorded t.toMach (0xD60 + k) 0x77 = true)) ∧
  (∀ (s : State) (n a at_ : Nat), n < 128 → (pc s.toMach n).frozen = some (a, at_) →
    (s.now < at_ + 100 * msT → Takes (.memFreezeTimeout n) s s.toMach) ∧
    (at_ + 100 * msT ≤ s.now → Takes (.memFreezeTimeout n) s (setPc s.toMach n fun x => { x with frozen := none, st := 0 })))

/-! ### Sessions, the journal and the firmware (R27, R395, R413 to R424, R437, R469) -/

/-- Time limits of sessions and of the journal (R395, R415, R417, R419, R469). An opening that is not completed in 1 s is free again; a lease
or a grant that ends is journalled as an internal change set; a delayed interrupt is signalled; an entry the partner does not
acknowledge in 10 µs is answered without it. -/
def Obligations.SessionTimersExpire : Prop :=
  (∀ (s : State) (n : Nat), n < 64 →
    let due := (ses s.toMach n).st = .opening ∧ (ses s.toMach n).openingAt + 1000 * msT < s.now
    (¬ due → Takes (.sessionOpeningTimeout n) s s.toMach) ∧
    (due → Answers (.sessionOpeningTimeout n) s fun t => t.toMach = { s.toMach with ctl := t.ctl } ∧ ses t.toMach n = {} ∧
      win t.toMach n = {} ∧ ∀ k < 64, k ≠ n → ses t.toMach k = ses s.toMach k)) ∧
  (∀ (s : State) (n at_ : Nat), n < 64 → claiming s.toMach = true → xlUp s.toMach = false → s.pr.unprot = true →
    let j := s.ctl.jnext
    let entry (cmd : Cmd) (data : List Byte) : JEntry :=
      { jseq := j, kind := 2, ses := 255, port := 0, hseq := 0, cmd, data, of := j, room := 0, hare := false, tick := s.now, unacked := false
        at_ := s.ctl.jpos }
    ((ses s.toMach n).leaseEnd = some at_ → s.now ≤ at_ → Takes (.leaseExpiry n) s s.toMach) ∧
    ((ses s.toMach n).leaseEnd = some at_ → at_ < s.now → Answers (.leaseExpiry n) s fun t =>
      t.toMach = { s.toMach with ctl := t.ctl } ∧ t.ctl.journal = s.ctl.journal ++ [entry (.sessionClose n) []] ∧ t.ctl.jnext = j + 1 ∧
        (ses t.toMach n).leaseEnd = none ∧ (ses t.toMach n).st = (ses s.toMach n).st) ∧
    ((ses s.toMach n).grantEnd = some at_ → s.now < at_ → Takes (.expertGrantExpiry n) s s.toMach) ∧
    ((ses s.toMach n).grantEnd = some at_ → at_ ≤ s.now → Takes (.expertGrantExpiry n) s
      { s.toMach with ctl := { s.ctl with
        journal := s.ctl.journal ++ [entry (.expertGrant 0 0) (le 1 n)], jnext := j + 1, jpos := (s.ctl.jpos + 192) % 2 ^ 20 } })) ∧
  (∀ (s : State) (n : Nat), n < 64 →
    let x := ses s.toMach n
    let due := x.unsig ≠ 0 ∧ x.unsigAt + x.irqDelay * usT ≤ s.now
    (¬ due → Takes (.irqDelayExpiry n) s s.toMach) ∧
    (due → x.st = .opn → Answers (.irqDelayExpiry n) s fun t => t.toMach = { s.toMach with ctl := t.ctl } ∧ (ses t.toMach n).unsig = 0 ∧
      tget 0 t.ctl.irqs (128 * x.port + n) = tget 0 s.ctl.irqs (128 * x.port + n) + 1)) ∧
  (∀ (s : State) (j : Nat) (e : JEntry), jentry? s.toMach j = some e → e.unacked = true → e.held = [] →
    (s.now ≤ e.tick + 5000 → Takes (.journalAckTimeout j) s s.toMach) ∧
    (e.tick + 5000 < s.now → e.ses < 64 → e.deaf = false → live s.toMach e.ses = true → tableRoom s.toMach = true →
      (win s.toMach e.ses).respTail < 65536 → e.hare = false →
      Answers (.journalAckTimeout j) s fun t => t.pr.unprot = true ∧ posted s.toMach t.toMach e.ses = acceptedResp e ∧
        (s.pr.unprot = false → recorded t.toMach 0xDE0 0x95 = true) ∧ t.xb = s.xb))

/-- The firmware and its tick (R27, R413, R423, R424, R437, R459, R520). A watchdog restarts the firmware; the restarted firmware
commits every open entry once, in JSEQ order, and serves what was rung; a session that has waited over 10 ms for room in the
journal is reported, once; a budget tick gives every session its budgets again, posts and ends suppression, moves the mix copiers
on and starts a handover by grade when its conditions hold. Each completes in every state. -/
def Obligations.FirmwareProceeds : Prop :=
  (∀ (s : State) (p : Nat), p < 6 →
    Answers (.watchdogExpiry p) s fun t => t.ctl.restarting = true ∧ t.ctl.journal = s.ctl.journal ∧ t.ctl.rung = s.ctl.rung ∧
      t.xb = s.xb ∧ (tableRoom s.toMach = true → recorded t.toMach 0xDC0 0x82 = true)) ∧
  (∀ s : State, s.ctl.restarting = false → Takes .firmwareRestartComplete s (serveRings s.toMach)) ∧
  (∀ s : State, s.ctl.restarting = false → ringsIdle s.toMach = true → Takes .firmwareRestartComplete s s.toMach) ∧
  (∀ s : State, s.ctl.restarting = true →
    let journal := s.ctl.journal.map fun e => if e.st = 0 then { e with replay := true } else e
    let m := { s.toMach with ctl := { s.ctl with restarting := false, journal } }
    Takes .firmwareRestartComplete s (serveRings ((journal.filter committable).foldl (fun m _ => commitNext m) m))) ∧
  (∀ s : State, s.ctl.restarting = true → s.ctl.rung = [] → s.ctl.jfull = false → (s.ctl.journal.all fun e => e.st != 0) = true →
    Takes .firmwareRestartComplete s { s.toMach with ctl := { s.ctl with restarting := false } }) ∧
  (∀ (s : State) (n : Nat), n < 64 →
    let late := s.ctl.rung.any fun r =>
      r.ses == n && (r.jwait.any fun t => decide (t + 10 * msT < s.now)) && waitsJournal s.toMach r
    (late = false ∨ s.ctl.jfull = true → Takes (.journalFull n) s s.toMach) ∧
    (late = true → s.ctl.jfull = false → Answers (.journalFull n) s fun t => t.ctl.jfull = true ∧ t.ctl.rung = s.ctl.rung ∧
      t.ctl.journal = s.ctl.journal ∧ t.xb = s.xb ∧ (tableRoom s.toMach = true → recorded t.toMach 0xDC0 0x83 = true))) ∧
  (∀ s : State, Answers .budgetTick s fun t => ∃ m : Mach,
    t.toMach = serveRings (gradeCheck (settleHold (tickTraffic m))) ∧ m.xb = s.xb ∧ m.mem = s.mem ∧ m.pr = s.pr ∧
    m.flt.delivered = [] ∧ (m.flt.recs.all fun r => r.supp.isNone) = true ∧ m.flt.recs.length = s.flt.recs.length ∧
    m.aud.loads = s.aud.loads.map (fun l => { l with begun := true, copied := min 131072 (l.copied + 16384) }) ∧
    ∀ n, (ses m n).usedCmds = 0 ∧ (ses m n).usedHare = 0 ∧ (ses m n).heldTick = false ∧
      (ses m n).usedCpu = (ses s.toMach n).usedCpu - (ses s.toMach n).cpus ∧
      ((s.ctl.sessions.map (·.1)).Nodup →
        (tget {} m.ctl.cnts n).held = sat (tget {} s.ctl.cnts n).held (b2n (ses s.toMach n).heldTick))) ∧
  (∀ s : State,
    let m := settleHold (tickTraffic (copyTick (reloadSessions (postSuppressed s.toMach))))
    ringsIdle m = true → m.pr.chg = none →
    let handover := gradeLow m && canChange m && decide (m.pr.again ≤ m.now)
    (handover = false → Takes .budgetTick s m) ∧
    (handover = true → Answers .budgetTick s fun t => t.xb = m.xb ∧ t.pr.chg =
      some { phase := 1, c := s.now, warmMax := m.pr.cfg.warmMax, plane := m.pr.cfg.plane, jseq := 0, byGrade := true }))

/-! ### The pair (R456 to R486, R546) -/

/-- Heartbeats (R205, R462 to R466, R476, R479, R482). Pulses and blocks are sent outside ROM service mode; sixteen misses lose a path, and
with all three lost the heartbeat: a claimant withholds, a fit standby in SHADOW claims; good heartbeats bring it back; without an UP
link the echo counts as confirmed after 100 ms; the report is sent. -/
def Obligations.HeartbeatsProceed : Prop :=
  (∀ s : State,
    (s.sys.romMode = true → Takes .heartbeatSend s s.toMach ∧ Takes .healthReportSend s s.toMach) ∧
    (s.sys.romMode = false → grave s.toMach = false → xlStarted s.toMach = true →
      let pr := { s.pr with pulses := s.pr.pulses + 1 }
      Takes .heartbeatSend s (dueBeats { s.toMach with pr := { pr with sent := beatNow { s.toMach with pr } } })) ∧
    (s.sys.romMode = false → grave s.toMach = true → xlStarted s.toMach = true →
      Takes .heartbeatSend s (dueBeats { s.toMach with pr := { s.pr with sent := beatNow s.toMach } })) ∧
    (s.sys.romMode = false → grave s.toMach = true → xlStarted s.toMach = false → Takes .heartbeatSend s s.toMach) ∧
    (s.sys.romMode = false → grave s.toMach = false → xlStarted s.toMach = false →
      Takes .heartbeatSend s { s.toMach with pr := { s.pr with pulses := s.pr.pulses + 1 } } ∧ Takes .healthReportSend s s.toMach) ∧
    (s.sys.romMode = false → xlStarted s.toMach = true → s.upd.running = false →
      Takes .healthReportSend s (xlSend s.toMach (.report (ownReport s.toMach)))) ∧
    (s.sys.romMode = false → xlStarted s.toMach = true → s.upd.running = true →
      Answers .healthReportSend s fun t => t.toMach = { s.toMach with pr := { s.pr with sentXl := t.pr.sentXl } } ∧
        (t.pr.sentXl.drop (t.pr.sentXl.length - 2)).head? = some (.report (ownReport s.toMach)))) ∧
  (∀ (s : State) (width : Nat),
    let on := s.pr.watching = true ∧ s.sys.romMode = false ∧ 1000 ≤ width ∧ width ≤ 4000
    let good (p : HbPath) : HbPath := { p with miss := 0, good := min 16 (p.good + 1), ever := true, at_ := s.now }
    (¬ on → Takes (.heartbeatPulseIn width) s s.toMach) ∧
    (on → (s.pr.pathPin.lost = false ∨ s.pr.pathPin.good < 15) →
      Takes (.heartbeatPulseIn width) s { s.toMach with pr := { s.pr with pathPin := good s.pr.pathPin } }) ∧
    (on → s.pr.pathPin.lost = true → 15 ≤ s.pr.pathPin.good →
      Answers (.heartbeatPulseIn width) s fun t => t.pr.pathPin = { good s.pr.pathPin with lost := false } ∧
        (s.pr.plossRole0 = false → t.pr.ploss = false))) ∧
  (∀ (s : State) (i : Nat), i < 3 → missDue s.toMach i = false → Takes (.heartbeatMiss i) s s.toMach) ∧
  (∀ s : State, s.pr.watching = true → s.sys.romMode = false → tableRoom s.toMach = true →
    let miss (p : HbPath) : HbPath := { p with miss := min 16 (p.miss + 1), good := 0, at_ := p.at_ + 250 * usT }
    let due (p : HbPath) : Bool := decide (p.at_ + 250 * usT < s.now)
    (due s.pr.pathA = true → (s.pr.pathA.lost = true ∨ s.pr.pathA.miss < 15) → Takes (.heartbeatMiss 0) s
      { s.toMach with pr := { s.pr with pathA := miss s.pr.pathA, cnt := { s.pr.cnt with missA := sat s.pr.cnt.missA 1 } } }) ∧
    (due s.pr.pathB = true → (s.pr.pathB.lost = true ∨ s.pr.pathB.miss < 15) → Takes (.heartbeatMiss 1) s
      { s.toMach with pr := { s.pr with pathB := miss s.pr.pathB, cnt := { s.pr.cnt with missB := sat s.pr.cnt.missB 1 } } }) ∧
    (due s.pr.pathPin = true → (s.pr.pathPin.lost = true ∨ s.pr.pathPin.miss < 15) → Takes (.heartbeatMiss 2) s
      { s.toMach with pr := { s.pr with pathPin := miss s.pr.pathPin, cnt := { s.pr.cnt with missPin := sat s.pr.cnt.missPin 1 } } }) ∧
    (due s.pr.pathA = true → s.pr.pathA.lost = false → 15 ≤ s.pr.pathA.miss → s.pr.pathB.lost = false → s.pr.ploss = false →
      standing s.toMach 0xDE1 0x91 = false → Answers (.heartbeatMiss 0) s fun t => t.pr.pathA = { miss s.pr.pathA with lost := true } ∧
        t.pr.ploss = false ∧ recorded t.toMach 0xDE1 0x91 = true)) ∧
  (∀ s : State, s.pr.watching = true → s.sys.romMode = false → tableRoom s.toMach = true → s.pr.pathA.lost = true →
    s.pr.pathB.lost = true → s.pr.pathPin.lost = false → 15 ≤ s.pr.pathPin.miss → everHeard s.toMach = true → s.pr.ploss = false →
    s.pr.chg = none → s.pwr.wakePartner = [] → s.pr.pathPin.at_ + 250 * usT < s.now →
    (claiming s.toMach = true → Answers (.heartbeatMiss 2) s fun t => t.pr.ploss = true ∧ t.pr.plossAt = s.now ∧ t.pr.withhold = true ∧
      t.pr.role = s.pr.role ∧ t.xb = s.xb ∧ recorded t.toMach 0xDE0 0x92 = true) ∧
    (s.pr.role = 4 → s.pr.fit = true → s.pr.split = false → grave s.toMach = false → s.sys.phase = 0 → s.pwr.st = 1 →
      s.pwr.wakeFail = false → s.pr.drilling = false → s.pr.jcopy = [] → Answers (.heartbeatMiss 2) s fun t => t.pr.role = 8 ∧
        t.pr.withhold = true ∧ t.pr.ploss = true ∧ t.pr.cnt.takeover = sat s.pr.cnt.takeover 1 ∧ t.xb.dests = s.xb.dests)) ∧
  (∀ s : State,
    let due := claiming s.toMach = true ∧ s.pr.withhold = true ∧ s.pr.plossAt + 100 * msT ≤ s.now ∧ upLanes s.toMach = []
    (¬ due → Takes .echoConfirmTimeout s s.toMach) ∧
    (due → Answers .echoConfirmTimeout s fun t => t.pr.withhold = false ∧ t.pr.echoOk = true ∧ t.pr.role = s.pr.role ∧ t.xb = s.xb))

/-- Blocks over XL (R461, R464, R468 to R470, R480, R482, R546). The first copy of a message acts and the second is discarded. A standby
keeps and acknowledges journal entries, gathers records, takes a whole image and an announced changeover; a claimant posts what an
acknowledgement held back, sends what it is asked for and chooses X; a heartbeat is noted with its path and sets device time; a save
is sent, applied as the image, or missed. -/
def Obligations.XlBlocksArrive : Prop :=
  (∀ (s : State) (b : Nat) (x : XlMsg), b < 2 →
    ((s.sys.romMode = true ∨ xlStarted s.toMach = false) → Takes (.xlBlockReceive b x) s s.toMach) ∧
    (s.sys.romMode = false → xlStarted s.toMach = true → x.isBeat = false → (copiesDue s.toMach).contains (1 - b, x) = true →
      Takes (.xlBlockReceive b x) s { s.toMach with pr := { s.pr with copies := (copiesDue s.toMach).erase (1 - b, x) } }) ∧
    (copyTaken s.toMach b x = true → Takes (.xlBlockReceive b x) s (xlAct b x (firstCopy s.toMach b x)))) ∧
  (∀ (s : State) (b : Nat) (x : XlMsg), copyTaken s.toMach b x = true → claiming s.toMach = false →
    let m := firstCopy s.toMach b x
    (∀ e, x = .journal e → Takes (.xlBlockReceive b x) s (xlSend
      { m with pr := { m.pr with jcopy := (s.pr.jcopy.filter fun y => y.jseq != e.jseq) ++ [e], jrecv := max s.pr.jrecv e.jseq } }
      (.jack e.jseq))) ∧
    (∀ j st status epoch instant, x = .jstate j st status epoch instant → Takes (.xlBlockReceive b x) s (xlSend
      { m with pr := { m.pr with
        jcopy := s.pr.jcopy.map fun y => if y.jseq = j then { y with st, status, epoch, instant } else y } } (.stateAck j))) ∧
    (∀ k r, x = .saveRec k r → Takes (.xlBlockReceive b x) s
      (if s.pr.recv.contains (k, r) = true then m else { m with pr := { m.pr with recv := s.pr.recv ++ [(k, r)] } })) ∧
    (∀ k i r, x = .slice k i r → Takes (.xlBlockReceive b x) s
      (if s.pr.slices.contains (k, r) = true then m else { m with pr := { m.pr with slices := s.pr.slices ++ [(k, r)] } })) ∧
    (∀ k img js, x = .whole k img js → compatible s.toMach = true → Answers (.xlBlockReceive b x) s fun t =>
      t.pr.img = some img ∧ t.pr.save = k ∧ t.pr.imgEpoch = img.head.epoch ∧ t.pr.stale = false ∧ t.pr.wanted = [] ∧ t.pr.recv = [] ∧
        t.pr.slices = [] ∧ t.pr.seeded = (s.pr.seeded || !s.pr.fit) ∧ t.pr.sentXl.getLast? = some (.saveAck k)) ∧
    ((x = .wantWhole ∨ x = .ready ∨ ∃ k, x = .jack k ∨ x = .stateAck k ∨ x = .saveAck k ∨ x = .resend k) →
      Takes (.xlBlockReceive b x) s m) ∧
    (∀ p w, x = .wake true p w → s.pwr.st = 1 → grave s.toMach = false → s.pr.drilling = false → Takes (.xlBlockReceive b x) s
      { m with pr := { m.pr with chg := some { phase := 1, c := s.now, warmMax := w, plane := p } } }) ∧
    (∀ k, x = .chosen k → ∀ c ∈ s.pr.chg, Takes (.xlBlockReceive b x) s
      (xlSend { m with pr := { m.pr with chg := some { c with phase := 2, x := some k } } } (.chosen k))) ∧
    (x = .ended → (s.pr.chg = none → Takes (.xlBlockReceive b x) s m) ∧
      (s.pr.chg.isSome = true → s.pr.cfg.denAuto = false → Takes (.xlBlockReceive b x) s { m with pr := { m.pr with chg := none } }))) ∧
  (∀ (s : State) (b : Nat) (bs : List Byte), copyTaken s.toMach b (.report bs) = true → s.pr.report ≠ some bs →
    Answers (.xlBlockReceive b (.report bs)) s fun t =>
      t.toMach = { s.toMach with pr := { s.pr with report := some bs, copies := t.pr.copies }, ctl := t.ctl }) ∧
  (∀ (s : State) (b : Nat) (x : XlMsg), copyTaken s.toMach b x = true → claiming s.toMach = true →
    let m := firstCopy s.toMach b x
    ((x = .ended ∨ ∃ k e r w, x = .journal e ∨ x = .saveRec k r ∨ x = .slice k w r ∨ x = .wake true k w ∨ x = .wake false k w) →
      Takes (.xlBlockReceive b x) s m) ∧
    (∀ j e, x = .jack j → jentry? s.toMach j = some e → e.unacked = true → e.deaf = false → e.ses < 64 → live s.toMach e.ses = true →
      e.hare = false → (win s.toMach e.ses).respTail < 65536 →
      Answers (.xlBlockReceive b x) s fun t => t.toMach = { m with ctl := t.ctl } ∧
        posted s.toMach t.toMach e.ses = acceptedResp e) ∧
    (∀ k, x = .saveAck k → Answers (.xlBlockReceive b x) s fun t => t.pr.saveAcked = k ∧ t.pr.unprot = false ∧ t.xb = s.xb) ∧
    (x = .wantWhole → compatible s.toMach = true → Answers (.xlBlockReceive b x) s fun t =>
      t.pr.cnt.fullSync = sat s.pr.cnt.fullSync 1 ∧ t.xb = s.xb ∧
        ∃ k img js, t.pr.sentXl.getLast? = some (.whole k img js) ∧ ∀ y ∈ s.pr.kept.head?, k = y.1 ∧ img = y.2) ∧
    (∀ c ∈ s.pr.chg, x = .ready → c.phase = 1 →
      let at_ := lastLineAt (plane s.toMach c.plane) (s.dt.t + 2000000 * nsU)
      Takes (.xlBlockReceive b x) s
        (xlSend { m with pr := { m.pr with chg := some { c with phase := 2, x := some at_ } } } (.chosen at_)))) ∧
  (∀ (s : State) (b : Nat) (x : Beat), b < 2 → s.sys.romMode = false → xlStarted s.toMach = true →
    Takes (.xlBlockReceive b (.beat x)) s (beatIn b x s.toMach) ∧
    Answers (.xlBlockReceive b (.beat x)) s fun t => t.pr.beat = some x ∧ (path t.toMach b).miss = 0 ∧ (path t.toMach b).ever = true ∧
      (claiming s.toMach = false → (rx s.toMach (144 + 8 * b)).dvalid = true →
        t.dt.t = (x.t + (rx s.toMach (144 + 8 * b)).delay * nsU / 1000) % (2 ^ 48 * secU) ∧ t.dt.valid = (s.dt.valid || x.tvalid))) ∧
  (∀ (s : State) (k : Nat),
    let sends := claiming s.toMach = true ∧ compatible s.toMach = true ∧ xlUp s.toMach = true ∧ (keptSave s.toMach k).isSome = true
    (¬ sends → Takes (.saveSendComplete k) s s.toMach) ∧
    (sends → Answers (.saveSendComplete k) s fun t =>
      t.toMach = { s.toMach with pr := { s.pr with save := k, sentXl := t.pr.sentXl } } ∧
      ∀ v ∈ keptSave s.toMach k, t.pr.sentXl.getLast? = some (.slice k (k % 256) (v.slice k)))) ∧
  (∀ (s : State) (k : Nat) (ok : Bool),
    ((claiming s.toMach = true ∨ s.sys.romMode = true ∨ compatible s.toMach = false) → Takes (.saveApply k ok) s s.toMach) ∧
    (claiming s.toMach = false → s.sys.romMode = false → compatible s.toMach = true → s.pr.wanted.contains k = false →
      Answers (.saveApply k false) s fun t => t.toMach = { s.toMach with pr := t.pr } ∧ t.pr.stale = true ∧
        t.pr.wanted = s.pr.wanted ++ [k] ∧ t.pr.sentXl.getLast? = some (.resend k) ∧ t.pr.img = s.pr.img) ∧
    (claiming s.toMach = false → s.sys.romMode = false → compatible s.toMach = true → (s.pr.wanted.contains k = true ∧ ok = false ∨
      s.pr.img = none ∧ ok = true) → Takes (.saveApply k ok) s s.toMach)) ∧
  (∀ (s : State) (img : Saved), claiming s.toMach = false → s.sys.romMode = false → compatible s.toMach = true → s.pr.img = some img →
    s.pr.wanted = [] → s.pr.slices = [] →
    let k := (s.pr.save + 1) % 2 ^ 32
    let img' := ((s.pr.recv.filter fun r => r.1 == k).map (·.2)).foldl Saved.put img
    Answers (.saveApply k true) s fun t => t.pr.save = k ∧ t.pr.img = some img' ∧ t.pr.imgEpoch = img'.head.epoch ∧
      t.pr.stale = (s.pr.stale && decide (s.pr.renewed < 256)) ∧ t.pr.sentXl.getLast? = some (.saveAck k) ∧
      (s.pwr.st = 1 ∧ s.pr.drilling = false → t.xb.dests = img'.routes.xb.dests ∧ t.xb.epoch = img'.head.epoch) ∧
      (s.pwr.st ≠ 1 → t.xb = s.xb))

/-- Changeovers and drills (R480, R481, R483, R485). The active chooses X, stops its rings 1 ms before, commits the command and hands over at
X; the standby claims there; one not ready by WARMMAX is abandoned; a drill wakes a module in Den, ends with its result, and Den
entry begins. -/
def Obligations.ChangeoversProceed : Prop :=
  (∀ s : State, s.pr.chg = none → Takes .changeoverReady s s.toMach ∧ Takes .changeoverQuiesce s s.toMach ∧
    Takes .changeoverSwap s s.toMach ∧ Takes .changeoverAbandon s s.toMach) ∧
  (∀ (s : State) (c : Changeover), s.pr.chg = some c →
    let x := lastLineAt (plane s.toMach c.plane) (s.dt.t + 2000000 * nsU)
    let near := claiming s.toMach && c.phase == 2 && c.x.any fun x => decide (x ≤ s.dt.t + 1000000 * nsU)
    (claiming s.toMach = true → c.phase = 1 → Takes .changeoverReady s
      (xlSend { s.toMach with pr := { s.pr with chg := some { c with phase := 2, x := some x } } } (.chosen x))) ∧
    (claiming s.toMach = false → c.phase = 1 → standbyReady s.toMach = true → Takes .changeoverReady s (xlSend s.toMach .ready)) ∧
    ((c.phase ≠ 1 ∨ (claiming s.toMach = false ∧ standbyReady s.toMach = false)) → Takes .changeoverReady s s.toMach) ∧
    (near = true → Takes .changeoverQuiesce s
      { s.toMach with pr := { s.pr with chg := some { c with phase := 3 } }, ctl := { s.ctl with quiesced := true } }) ∧
    (near = false → Takes .changeoverQuiesce s s.toMach) ∧
    ((c.phase ≠ 1 ∨ s.now ≤ c.c + c.warmMax * 1000 * msT) → Takes .changeoverAbandon s s.toMach) ∧
    (c.phase = 1 → c.c + c.warmMax * 1000 * msT < s.now → claiming s.toMach = false → s.pr.cfg.denAuto = false →
      Takes .changeoverAbandon s { s.toMach with pr := { s.pr with chg := none } }) ∧
    (c.phase = 1 → c.c + c.warmMax * 1000 * msT < s.now → claiming s.toMach = true → c.jseq = 0 → c.byGrade = true → 0 < c.warmMax →
      let m := xlSend s.toMach .ended
      Takes .changeoverAbandon s
        { m with pr := { m.pr with chg := none, again := s.now + c.warmMax * 1000 * msT }, ctl := { s.ctl with quiesced := false } })) ∧
  (∀ (s : State) (c : Changeover) (x : Nat), s.pr.chg = some c → c.x = some x → 2 ≤ c.phase →
    (s.dt.t < x → Takes .changeoverSwap s s.toMach) ∧
    (x ≤ s.dt.t → claiming s.toMach = true → c.jseq = 0 → Answers .changeoverSwap s fun t => t.pr.role = 4 ∧ t.pr.st = 2 ∧ t.pwr.st = 1 ∧
      t.pr.chg = none ∧ t.pr.formerAt = some x ∧ t.pr.img = some (savedOf s.toMach s.pr.save) ∧ t.xb = s.xb ∧ t.ctl.journal = [] ∧
      t.pr.jcopy = s.ctl.journal ∧ t.pr.cnt.changeover = sat s.pr.cnt.changeover 1 ∧ ∀ n < 64, (ses t.toMach n).st ≠ .opn) ∧
    (x ≤ s.dt.t → claiming s.toMach = true → c.jseq ≠ 0 →
      ((s.ctl.journal.find? fun e => e.of == c.jseq && e.waiting).isSome = true) → tableRoom s.toMach = true →
      Answers .changeoverSwap s fun t => t.pr.role = 4 ∧ t.xb.epoch = s.xb.epoch + 1 ∧ t.xb.dests = s.xb.dests ∧ t.pr.formerAt = some x) ∧
    (x ≤ s.dt.t → s.pr.role = 4 → s.pr.fit = true → s.pwr.st = 1 → s.pr.jcopy = [] → Answers .changeoverSwap s fun t =>
      t.pr.role = 8 ∧ t.pr.st = 3 ∧ t.pwr.st = 0 ∧ t.pr.chg = none ∧ t.xb.dests = s.xb.dests ∧
      t.pr.cnt.changeover = sat s.pr.cnt.changeover 1)) ∧
  (∀ (s : State) (x : Nat), s.pr.formerAt = some x →
    ((s.dt.t < x + secU ∨ claiming s.toMach = true) → Takes .changeoverDenEntry s s.toMach) ∧
    (x + secU ≤ s.dt.t → claiming s.toMach = false → s.pr.cfg.denAuto = false →
      Takes .changeoverDenEntry s { s.toMach with pr := { s.pr with formerAt := none } }) ∧
    (x + secU ≤ s.dt.t → s.pr.cfg.denAuto = true → s.pr.chg = none → canEnter s.toMach = true → Answers .changeoverDenEntry s fun t =>
      t.pwr.st = 3 ∧ t.pwr.phase = 1 ∧ t.pr.formerAt = none ∧ t.pr.role = s.pr.role)) ∧
  (∀ s : State,
    let due := s.pwr.st = 2 ∧ s.pr.cfg.drill ≠ 0 ∧ s.pr.drillTick + s.pr.cfg.drill * 3600 * 1000 * msT ≤ s.now ∧ canDrill s.toMach = true
    (¬ due → Takes .drillTimer s s.toMach) ∧
    (due → s.pwr.wakeFail = false → Answers .drillTimer s fun t => t.pwr.st = 4 ∧ t.pwr.phase = 9 ∧ t.pwr.cause = 3 ∧
      t.pwr.wakeAt = s.now ∧ t.pr.st = 1)) ∧
  (∀ (s : State) (n : Nat), tableRoom s.toMach = true →
    (s.pr.drilling = false → Takes (.drillComplete n) s s.toMach) ∧
    (s.pr.drilling = true → Answers (.drillComplete n) s fun t => t.pr.drilling = false ∧ t.pr.drillBlocks = n % 2 ^ 24 ∧
      t.pr.drillRes = (if n % 2 ^ 24 = 0 then 1 else 2) ∧ t.pr.drillInstant = s.dt.t ∧
      (n % 2 ^ 24 ≠ 0 → recorded t.toMach 0xDE0 0x97 = true) ∧
      (canEnter s.toMach = true → t.pwr.st = 3 ∧ t.pwr.phase = 1)))

/-! ### Power (R490 to R511) -/

/-- Den entry and its end (R499, R502, R504 to R508). A wake event starts the wake from DEN and waits during entry; each phase end moves on, is
undone at an abort point, or enters DEN; SHADOWHOLD starts an entry; a brown-out loses all retained state, and a re-seed makes the module
fit again; a bad supply is a C3 fault. The device time after a brown-out is a free value (log entry 5). -/
def Obligations.DenEntryProceeds : Prop :=
  (∀ (s : State) (cause : Nat), 1 ≤ cause → cause ≤ 5 → s.pr.role < 8 → grave s.toMach = false →
    (s.pwr.st = 2 → (s.pwr.wakeFail = false ∨ cause ≠ 3) → Answers (.wakeEvent cause) s fun t => t.pwr.st = 4 ∧ t.pwr.phase = 9 ∧
      t.pwr.cause = cause ∧ t.pwr.wakeAt = s.now ∧ t.pwr.events = [] ∧ t.pwr.claiming = (cause == 1) ∧ t.pwr.lowPower = false ∧
      t.pr.st = 1 ∧ (cause = 1 → t.pr.role = 0) ∧ t.xb = s.xb ∧ t.flt = s.flt ∧ t.mem = s.mem) ∧
    (s.pwr.st = 3 → s.pwr.events = [] → Answers (.wakeEvent cause) s fun t =>
      t.pwr = { s.pwr with events := [cause], eventAt := s.now } ∧ t.pr.st = s.pr.st ∧ t.xb = s.xb ∧ t.ctl = s.ctl) ∧
    (s.pwr.st = 4 → Answers (.wakeEvent cause) s fun t => t.pwr.phase = s.pwr.phase ∧ t.pwr.st = 4 ∧
      t.pwr.claiming = (s.pwr.claiming || cause == 1) ∧ t.pwr.cause = topCause s.pwr.cause [cause]) ∧
    (s.pwr.st = 2 → s.pwr.wakeFail = true → cause = 3 → s.pr.role = 0 → Takes (.wakeEvent cause) s s.toMach)) ∧
  (∀ s : State,
    (s.pwr.st ≠ 3 → Takes .denPhaseEnd s s.toMach) ∧
    (s.pwr.st = 3 → s.pwr.events = [] →
      (s.pwr.phase ∈ [1, 2] → Takes .denPhaseEnd s { s.toMach with pwr := { s.pwr with phase := s.pwr.phase + 1 } }) ∧
      (s.pwr.phase = 3 → Takes .denPhaseEnd s { s.toMach with pwr := { s.pwr with phase := 4, signed := 2 ^ 32 - 1 } }) ∧
      (s.pwr.phase = 4 → Takes .denPhaseEnd s
        { s.toMach with pwr := { s.pwr with phase := 5 }, mem := { s.mem with awake := false } }) ∧
      (s.pwr.phase = 5 → s.pr.role < 8 → Answers .denPhaseEnd s fun t => t.pwr.st = 2 ∧ t.pwr.phase = 0 ∧ t.pwr.lowPower = true ∧
        t.pr.st = 0 ∧ t.pwr.denEntry = sat s.pwr.denEntry 1 ∧ (denCost s.toMach ≤ 1300 → t.pr.role = s.pr.role ∧ t.flt = s.flt) ∧
        t.xb = s.xb ∧ t.pr.img = s.pr.img)) ∧
    (s.pwr.st = 3 → s.pwr.phase ≤ 4 → s.pwr.events = [4] → s.pr.role < 8 → s.pr.img = none → Answers .denPhaseEnd s fun t =>
      t.pwr.st = s.pwr.before.1 ∧ t.pr.st = s.pwr.before.2 ∧ t.pwr.events = [] ∧ t.pwr.phase = 0 ∧ t.pwr.cause = 4 ∧
      t.pwr.abort = sat s.pwr.abort 1 ∧ (s.pwr.phase = 4 → t.mem.awake = true) ∧ (s.pwr.phase < 4 → t.mem = s.mem) ∧
      t.xb = s.xb)) ∧
  (∀ s : State,
    let due := holdConds s.toMach = true ∧ s.pwr.shadowHold ≠ 0 ∧
      (s.pwr.holdFrom.any fun a => decide (a + s.pwr.shadowHold * 1000 * msT ≤ s.now)) = true
    (¬ due → Takes .shadowholdExpiry s s.toMach) ∧
    (due → canEnter s.toMach = true → Answers .shadowholdExpiry s fun t => t.pwr.st = 3 ∧ t.pwr.phase = 1 ∧
      t.pwr.holdFrom = none ∧ t.pr.role = s.pr.role)) ∧
  (∀ s : State,
    (s.pwr.st ≠ 2 → Takes .brownOut s s.toMach) ∧
    (s.pwr.st = 2 → s.pr.role < 8 → tableRoom s.toMach = true → Answers .brownOut s fun t => t.pwr.lowPower = false ∧
      t.pwr.brownStay = true ∧ t.pwr.reseed = true ∧ t.pwr.brownout = sat s.pwr.brownout 1 ∧ t.pr.fit = false ∧ t.pr.role = 0 ∧
      t.pr.img = none ∧ t.pr.jcopy = [] ∧ t.dt.t = Config.unstated s.free % dtSpan ∧ t.dt.valid = false ∧
      t.tmg.dpll.hist = [] ∧ recorded t.toMach 0xDF0 0xA5 = true)) ∧
  (∀ (s : State) (rail mv : Nat), 1 ≤ rail → rail ≤ 7 → tableRoom s.toMach = true → recIdx s.toMach 0xDF0 0xA0 = none →
    Answers (.supplyOutOfRange rail mv) s fun t => t.pwr.rails = tset s.pwr.rails rail (false, mv) ∧ t.pr.role = 0 ∧
      t.flt.grave = true ∧ recorded t.toMach 0xDF0 0xA0 = true) ∧
  (∀ s : State,
    let due := s.pr.fit = false ∧ s.pwr.reseed = true ∧ s.pr.seeded = true ∧ compatible s.toMach = true
    (¬ due → Takes .reseedComplete s s.toMach) ∧
    (due → s.pr.role < 8 → grave s.toMach = false → s.pwr.wakeFail = false → s.pr.beat = none → s.pwr.st = 1 → s.pr.starting = false →
      Answers .reseedComplete s fun t => t.pr.fit = true ∧ t.pr.stale = false ∧ t.pwr.reseed = false ∧ t.pr.role = 4 ∧
        t.sys.phase = (if s.sys.phase = 7 then 0 else s.sys.phase) ∧ t.xb = s.xb))

/-- The wake (R501, R503, R504). The seven steps follow one another; banks that fail their check are kept, and a bad image makes the module
unfit; the memory leaves self-refresh; the image is put in force; the wake ends in SHADOW or in a claim. A step that does not finish is
tried once more, and then the module stands in DEN with its wake failed. -/
def Obligations.WakeStepsProceed : Prop :=
  (∀ (s : State) (bad : Nat), s.pwr.st ≠ 4 → Takes (.wakeStepReady bad) s s.toMach ∧
    Takes .wakeStepTimeout s s.toMach) ∧
  (∀ (s : State) (bad : Nat), s.pwr.st = 4 →
    let go (k : Nat) : Pwr := { s.pwr with retried := false, phase := k, stepAt := s.now }
    (s.pwr.phase = 9 → Takes (.wakeStepReady bad) s { s.toMach with pwr := go 10 }) ∧
    (s.pwr.phase = 10 → Takes (.wakeStepReady bad) s { s.toMach with pwr := go 11 }) ∧
    (s.pwr.phase = 11 → s.pwr.signed = 2 ^ 32 - 1 → bad = 0 → Takes (.wakeStepReady bad) s
      { s.toMach with pwr := { go 12 with rbFail := 0, rbErr := sat s.pwr.rbErr 0 } }) ∧
    (s.pwr.phase = 11 → s.pwr.signed = 2 ^ 32 - 1 → bad < 2 ^ 32 → bad ≠ 0 → s.pr.role < 8 → s.flt.recs.length < 2047 →
      Answers (.wakeStepReady bad) s fun t => t.pwr.phase = 12 ∧ t.pwr.rbFail = bad ∧
        t.pwr.rbErr = sat s.pwr.rbErr (members 32 bad).length ∧
        (2 ^ 25 ≤ bad → recorded t.toMach 0xDF0 0xA2 = true) ∧
        (bad % 2 ^ 25 = 0 → t.pr.fit = s.pr.fit ∧ t.pwr.reseed = s.pwr.reseed) ∧
        (bad % 2 ^ 25 ≠ 0 → t.pr.fit = false ∧ t.pwr.reseed = true ∧ t.pr.role = 0 ∧ recorded t.toMach 0xDF0 0xA3 = true)) ∧
    (s.pwr.phase = 12 → s.pr.role < 8 → Answers (.wakeStepReady bad) s fun t => t.pwr = go 13 ∧ t.mem.awake = true ∧ t.xb = s.xb) ∧
    (s.pwr.phase = 13 → lanesReady s.toMach = true →
      Answers (.wakeStepReady bad) s fun t => t.pwr = go 14 ∧ t.xb = s.xb ∧ t.mem = s.mem) ∧
    (s.pwr.phase = 13 → lanesReady s.toMach = false →
      Takes (.wakeStepReady bad) s { s.toMach with pwr := { s.pwr with retried := false } }) ∧
    (s.pwr.phase = 14 → s.pr.img = none → s.pwr.claiming = false → Takes (.wakeStepReady bad) s { s.toMach with pwr := go 15 }) ∧
    (s.pwr.phase = 14 → s.pwr.reseed = true → s.pwr.claiming = false → Takes (.wakeStepReady bad) s { s.toMach with pwr := go 15 }) ∧
    (∀ i ∈ s.pr.img, s.pwr.phase = 14 → s.pwr.reseed = false → s.pwr.claiming = false →
      Answers (.wakeStepReady bad) s fun t => t.pwr.phase = 15 ∧ t.xb.dests = i.routes.xb.dests ∧ t.xb.epoch = i.head.epoch) ∧
    (s.pwr.phase = 15 → s.pwr.claiming = false → s.pwr.cause ≠ 3 → s.pr.role < 8 → s.pr.chg = none →
      Answers (.wakeStepReady bad) s fun t => t.pwr.st = 1 ∧ t.pwr.phase = 0 ∧ t.pr.st = 2 ∧ t.pwr.wake = sat s.pwr.wake 1 ∧
        t.pwr.wakeFail = false ∧ t.pwr.wakeUs = (s.now - s.pwr.wakeAt) / usT ∧ t.xb = s.xb ∧
        (s.pr.fit = true → grave s.toMach = false → s.pr.beat = none → t.pr.role = 4)) ∧
    (s.pwr.phase = 15 → s.pwr.claiming = true → s.pr.role < 8 → s.pr.fit = true → grave s.toMach = false → s.pr.beat = none →
      s.pr.split = false → s.sys.phase = 0 → s.pr.jcopy = [] → Answers (.wakeStepReady bad) s fun t => t.pr.role = 8 ∧ t.pwr.st = 0 ∧
        t.pr.st = 3 ∧ t.pwr.phase = 0 ∧ t.pr.cnt.takeover = sat s.pr.cnt.takeover 1 ∧ t.xb.dests = s.xb.dests)) ∧
  (∀ s : State, s.pwr.st = 4 → s.now ≤ s.pwr.stepAt + stepLimit s.pwr.phase → Takes .wakeStepTimeout s s.toMach) ∧
  (∀ s : State, s.pwr.st = 4 → s.pr.role < 8 → s.pwr.stepAt + stepLimit s.pwr.phase < s.now →
    (s.pwr.retried = false → Answers .wakeStepTimeout s fun t =>
      t.toMach = { s.toMach with pwr := { s.pwr with retried := true, stepAt := s.now, retry := sat s.pwr.retry 1 }, ctl := t.ctl }) ∧
    (s.pwr.retried = true → tableRoom s.toMach = true → Answers .wakeStepTimeout s fun t => t.pwr.st = 2 ∧ t.pwr.wakeFail = true ∧
      t.pwr.phase = 0 ∧ t.pwr.retried = false ∧ t.pwr.wakeFails = sat s.pwr.wakeFails 1 ∧ t.pr.st = 0 ∧ t.pr.role = 0 ∧
      t.mem.awake = false ∧ t.xb = s.xb ∧ recorded t.toMach 0xDF0 0xA4 = true))

/-! ### Start-up (R554 to R567, R590) -/

/-- Resets and boot (R554 to R559, R561, R563 to R566, R590). A power-on reset leaves the state of reset beside flash and fuses; each phase ends
with what it found, S4 with the image that runs or with ROM service mode; an overrun enters ROM service mode; the pair decision takes the
module's own state, or waits to be seeded. -/
def Obligations.BootProceeds : Prop :=
  (∀ (s : State) (cause : Nat), cause < 2 → Takes (.powerOnReset cause) s
    { State.reset.toMach with
      now := s.now
      free := s.free
      upd := { State.reset.upd with slotA := s.upd.slotA, slotB := s.upd.slotB, fcount := s.upd.fcount, fuseStuck := s.upd.fuseStuck,
                                    keys := s.upd.keys }
      sys := { State.reset.sys with rstCause := cause, resetAt := s.now, phaseAt := s.now, calA := s.sys.calA, calB := s.sys.calB,
                                    btA := s.sys.btA, btB := s.sys.btB, sample := s.sys.sample } }) ∧
  (∀ (s : State) (f : BootFind), (s.sys.romMode = true ∨ s.sys.phase = 0 ∨ 7 < s.sys.phase) → Takes (.bootPhaseEnd f) s s.toMach) ∧
  (∀ (s : State) (f : BootFind), s.sys.romMode = false → s.sys.phase = 1 → Answers (.bootPhaseEnd f) s fun t =>
    t.sys = { s.sys with phase := 2, phaseAt := s.now, slotId := f.slotId % 256, xonom := nearestXo f.xo } ∧ t.pr.slotId = f.slotId % 256 ∧
      t.flt = { s.flt with passed := true } ∧ (∀ k < 10, (tget (true, 0) t.pwr.rails k).1 = (tget (true, 0) s.pwr.rails k).1) ∧
      t.xb = s.xb) ∧
  (∀ (s : State) (f : BootFind), s.sys.romMode = false → s.sys.phase = 2 → s.flt.recs.length < 2047 →
    calOk (f.calA.getD s.sys.calA) = false → calOk (f.calB.getD s.sys.calB) = false →
    boardOk (f.btA.getD s.sys.btA) = false → boardOk (f.btB.getD s.sys.btB) = false →
    Answers (.bootPhaseEnd f) s fun t => t.sys.phase = 3 ∧ t.sys.phaseAt = s.now ∧ t.sys.calA = f.calA.getD s.sys.calA ∧
      t.sys.calB = f.calB.getD s.sys.calB ∧ t.sys.btA = f.btA.getD s.sys.btA ∧ t.sys.btB = f.btB.getD s.sys.btB ∧ t.sys.calUsed = 0 ∧
      t.upd = { s.upd with slotA := s.upd.slotA.programmed f.recA f.imgA, slotB := s.upd.slotB.programmed f.recB f.imgB } ∧
      t.sys.btUsed = s.sys.btUsed ∧ t.tmg.osc = [] ∧ recorded t.toMach 0xE40 0xE1 = true ∧ recorded t.toMach 0xE40 0xE4 = true) ∧
  (∀ (s : State) (f : BootFind), s.sys.romMode = false → s.sys.phase = 3 → calHas s.toMach 0 = true → f.badPos = [] →
    Answers (.bootPhaseEnd f) s fun t =>
      t.toMach = { s.toMach with sys := { s.sys with phase := 4, phaseAt := s.now }, mem := { s.mem with delays := t.mem.delays } } ∧
      ∀ n < 136, (128 ≤ n ∨ (pc s.toMach n).searched = false) → tget [] t.mem.delays n = sub s.sys.cal (delayAt n) 64) ∧
  (∀ (s : State) (f : BootFind), s.sys.romMode = false → s.sys.phase = 4 →
    let a := s.upd.slotA.sr
    let b := s.upd.slotB.sr
    let bad (x : Slot) : Bool := imageFault s.toMach x.image x.sr.imglen != 0
    let okA := a.valid && decide (s.upd.fcount ≤ a.svn)
    let okB := b.valid && decide (s.upd.fcount ≤ b.svn)
    let runs (k : Nat) (later : List (Nat × Nat × Nat)) (rejected : List Nat) : Mach := { s.toMach with
      upd := { s.upd with runSlot := k, running := true, fallback := !later.isEmpty }
      sys := { s.sys with phase := 5, phaseAt := s.now, slot := k, later, rejected } }
    let rom := Answers (.bootPhaseEnd f) s fun t => t.sys.romMode = true ∧ t.upd.running = false ∧ t.sys.phase = 4 ∧ t.pr.role = 0 ∧
      t.wl = {} ∧ (tableRoom s.toMach = true → recorded t.toMach 0xE40 0xE6 = true)
    (okA = false → okB = false → rom) ∧
    (okA = true → okB = true → b.gen ≤ a.gen → a.trial = 0 → b.trial = 0 →
      if bad s.upd.slotA = false then Takes (.bootPhaseEnd f) s (runs 0 [] [])
      else if bad s.upd.slotB = false then Takes (.bootPhaseEnd f) s (runs 1 [(0xE40, 0xE5, 0)] [0])
      else rom) ∧
    (okA = true → okB = true → b.gen ≤ a.gen → a.trial = 2 → b.trial = 0 →
      if bad s.upd.slotB = false then Takes (.bootPhaseEnd f) s (runs 1 [(0xE30, 0xD3, 0)] [])
      else if bad s.upd.slotA = false then Takes (.bootPhaseEnd f) s (runs 0 [(0xE30, 0xD3, 0), (0xE40, 0xE5, 1)] [1])
      else rom) ∧
    (okA = true → okB = false → a.trial = 0 →
      if bad s.upd.slotA = false then Takes (.bootPhaseEnd f) s (runs 0 [] []) else rom) ∧
    (okB = true → a.gen < b.gen → b.trial = 1 → a.trial = 0 →
      if bad s.upd.slotB = false then Takes (.bootPhaseEnd f) s
        { runs 1 [] [] with upd := { (runs 1 [] []).upd with slotB := { s.upd.slotB with sr := { b with trial := 2 } } } }
      else if okA = true ∧ bad s.upd.slotA = false then Takes (.bootPhaseEnd f) s (runs 0 [(0xE40, 0xE5, 1)] [1])
      else rom)) ∧
  (∀ (s : State) (f : BootFind), s.sys.romMode = false →
    (s.sys.phase = 5 → s.sys.later = [] → s.sys.jobs = [] →
      let from_ (p : HbPath) : HbPath := { p with at_ := s.now }
      Takes (.bootPhaseEnd f) s { s.toMach with
        bus := { s.bus with remap := true }, sys := { s.sys with phase := 6, phaseAt := s.now }
        pr := { s.pr with watching := true, pathA := from_ s.pr.pathA, pathB := from_ s.pr.pathB, pathPin := from_ s.pr.pathPin } }) ∧
    (s.sys.phase = 5 → s.sys.later = [(0xE40, 0xE5, 0)] → s.sys.jobs = [] → tableRoom s.toMach = true →
      Answers (.bootPhaseEnd f) s fun t => t.sys.phase = 6 ∧ t.bus.remap = true ∧ t.pr.watching = true ∧ t.sys.later = [] ∧
        recorded t.toMach 0xE40 0xE5 = true) ∧
    (s.sys.phase = 6 → Answers (.bootPhaseEnd f) s fun t => t.sys.phase = 7 ∧ t.xb = s.xb ∧
      t.tmg.dpll.st = (if s.sys.rstCause = 2 ∧ trusted s.tmg.dpll ≠ [] then 4 else 0)) ∧
    (s.sys.phase = 7 → s.pr.fit = true → (s.pr.role = 4 ∨ 8 ≤ s.pr.role) → Takes (.bootPhaseEnd f) s
      { s.toMach with sys := { s.sys with phase := 0, readyMs := (s.now - s.sys.resetAt) / msT } }) ∧
    (s.sys.phase = 7 → (s.pr.fit = false ∨ s.pr.role < 4) → Takes (.bootPhaseEnd f) s s.toMach)) ∧
  (∀ s : State,
    let limit := match s.sys.phase with
      | 1 => s.sys.resetAt + msT
      | 2 => s.sys.resetAt + 5 * msT
      | 3 => s.sys.resetAt + 7 * msT
      | _ => s.sys.phaseAt + 5 * msT
    ((s.sys.romMode = true ∨ s.sys.phase = 0 ∨ 6 ≤ s.sys.phase) → Takes .bootPhaseOverrun s s.toMach) ∧
    (s.sys.phase ∈ [1, 2, 3, 5] → s.now ≤ limit + 100 * msT → Takes .bootPhaseOverrun s s.toMach) ∧
    (s.sys.phase ∈ [1, 2, 3, 5] → limit + 100 * msT < s.now → s.sys.romMode = false → tableRoom s.toMach = true →
      Answers .bootPhaseOverrun s fun t => t.sys.romMode = true ∧ t.upd.running = false ∧ t.pr.role = 0 ∧ t.wl = {} ∧
        recorded t.toMach 0xE40 0xE6 = true)) ∧
  (∀ s : State,
    let waits := s.sys.phase = 7 ∧ s.sys.romMode = false ∧ s.pr.fit = false ∧ s.pwr.reseed = false ∧ s.sys.btUsed ≠ 0
    (¬ waits → Takes .pairDecision s s.toMach) ∧
    (waits → ∀ b ∈ s.pr.beat, 8 ≤ b.claim / 2 ^ 28 → Takes .pairDecision s
      (xlSend { s.toMach with pwr := { s.pwr with reseed := true }, pr := { s.pr with st := 2 } } .wantWhole)) ∧
    (waits → s.pr.beat = none → s.pr.pathA.silent = true → s.pr.pathB.silent = true → s.pr.role < 8 → grave s.toMach = false →
      s.pwr.wakeFail = false → s.pwr.st ≠ 4 → (s.pr.pathPin.silent = true ∨ s.pr.pathPin.ever = true) →
      Answers .pairDecision s fun t => t.pr.fit = true ∧ t.pr.ownImage = true ∧ t.pr.imgEpoch = 0 ∧ t.pr.role = 4 ∧ t.pr.st = 2 ∧
        t.pr.lone = (if s.pr.pathPin.silent then 1 else 2) ∧ t.sys.phase = 0 ∧ t.xb = s.xb) ∧
    (waits → s.pr.beat = none → (s.pr.pathA.silent = false ∨ s.pr.pathB.silent = false) → Takes .pairDecision s s.toMach))

/-! ### Reset values, registers and memories -/

/-- The state at reset (R33): every destination is bound to TP_0, with the none source for video and audio, in EMBED mode, unprotected, and
the epoch is 0. -/
def Obligations.ResetBindsNothing : Prop :=
  (∀ d < 2304, (dest State.reset.toMach d).plane = 0 ∧ (dest State.reset.toMach d).src = 4095 ∧
    (dest State.reset.toMach d).asrc = 4095 ∧ (dest State.reset.toMach d).amode = 0 ∧ (dest State.reset.toMach d).prot = none) ∧
  State.reset.xb.epoch = 0

/-- XB_EPOCH_LO and XB_EPOCH_HI (R70): a read of the low half gives the low 32 bits of the epoch and latches the upper half, which a
later read of the high half by the same master gives, whatever has been committed in between; both are 0 at reset, and a write
leaves them as they are. -/
def Obligations.EpochIsReadWhole : Prop :=
  (∀ (s : State) (master : Nat), master ≤ 10 → busCase s.toMach master (regAddr 22 0x10) false = none →
    Answers (.latchingRead master (regAddr 22 0x10)) s fun t => t.bus.rdata = s.xb.epoch % 2 ^ 32 ∧
      ∀ u : State, u.bus.latched = t.bus.latched → busCase u.toMach master (regAddr 22 0x14) false = none →
        Answers (.latchingRead master (regAddr 22 0x14)) u fun v => v.bus.rdata = s.xb.epoch / 2 ^ 32) ∧
  (regIn State.reset.toMach none 22 0x10).val = 0 ∧ (regIn State.reset.toMach none 22 0x14).val = 0 ∧
  (∀ (s : State) (master o v : Nat), master ≤ 10 → o ∈ [0x10, 0x14] → v < 2 ^ 32 → ringsIdle s.toMach = true →
    busCase s.toMach master (regAddr 22 o) true = none →
    Takes (.registerWrite master (regAddr 22 o) v) s { s.toMach with bus := { s.bus with rerr := false } })

/-- Writes to the memories of the map (R372, R378, R445, R446). A write that the matrix carries out lands in its four bytes, least
significant first; every other byte reads as before, but in the system area the other copy's four bytes take the word too; a
position out of service keeps what it held; a memory in canonical form stays so. -/
def Obligations.MemoryWritesLand : Prop :=
  ∀ (s : State) (master a t o v : Nat), master ≤ 10 → a < 2 ^ 40 → v < 2 ^ 32 → ringsIdle s.toMach = true →
    busCase s.toMach master a true = none → targetOf a = some (t, o) →
    let lands (at_ : Nat) (old new : Mem) : Prop :=
      mbytes new at_ 4 = le 4 v ∧ (∀ x, (x < at_ ∨ at_ + 4 ≤ x) → mget new x = mget old x) ∧ (Memory.wf old = true → Memory.wf new = true)
    (t ≤ 1 → Answers (.registerWrite master a v) s fun u => lands o s.bus.work u.bus.work ∧ u.mem = s.mem) ∧
    (t = 3 → Answers (.registerWrite master a v) s fun u => lands o s.bus.jsram u.bus.jsram ∧ u.mem = s.mem) ∧
    (t = 4 → Answers (.registerWrite master a v) s fun u => lands o s.bus.owl u.bus.owl ∧ u.mem = s.mem) ∧
    let x := a - 0x8000000000
    (5 ≤ t ∧ t ≤ 7 → poolWaits s.toMach x = false → Answers (.registerWrite master a v) s fun u =>
      u.bus.work = s.bus.work ∧
      (if lostPosition s.toMach x = true then u.mem.pool = s.mem.pool else lands x s.mem.pool u.mem.pool)) ∧
    (t = 8 → poolWaits s.toMach x = false → Answers (.registerWrite master a v) s fun u =>
      let y := otherCopy x
      let here := !lostPosition s.toMach x
      let there := decide (x < systemBase + 2 ^ 31) && !lostPosition s.toMach y
      (here = true → mbytes u.mem.pool x 4 = le 4 v) ∧ (there = true → mbytes u.mem.pool y 4 = le 4 v) ∧
      (∀ z, ¬(here = true ∧ x ≤ z ∧ z < x + 4) → ¬(there = true ∧ y ≤ z ∧ z < y + 4) →
        mget u.mem.pool z = mget s.mem.pool z) ∧
      (Memory.wf s.mem.pool = true → Memory.wf u.mem.pool = true))
end

