-- ==== Sys2Proof/Laws/Ops.lean ====
section
/-! SUPPORT. What the named operations over tables, byte memory, byte order and lists do: reads after writes, what a write leaves
alone, and the canonical form that every memory operation keeps. -/
namespace Sys2Proof.Machine

/-! ### Tables -/

variable {α β : Type}

@[simp] theorem tget?_nil (k : Nat) : tget? k ([] : Tab α) = none := rfl

theorem tget?_cons (k i : Nat) (a : α) (t : Tab α) : tget? k ((i, a) :: t) = if i = k then some a else tget? k t := rfl

/-- A key reads what was last set, in every list. -/
@[simp] theorem tget?_tset_same (t : Tab α) (k : Nat) (a : α) : tget? k (tset t k a) = some a := by
  induction t with
  | nil => simp [tset, tget?]
  | cons x r ih =>
    obtain ⟨i, b⟩ := x
    unfold tset
    split_ifs with h1 h2
    · simp [tget?]
    · simp [tget?]
    · rw [tget?_cons, if_neg (fun e => h2 e.symm), ih]

/-- Setting a key leaves every other key alone, in every list. -/
theorem tget?_tset_other (t : Tab α) {j k : Nat} (a : α) (h : j ≠ k) : tget? j (tset t k a) = tget? j t := by
  induction t with
  | nil => simp [tset, tget?, Ne.symm h]
  | cons x r ih =>
    obtain ⟨i, b⟩ := x
    unfold tset
    split_ifs with h1 h2
    · rw [tget?_cons, if_neg (Ne.symm h)]
    · subst h2
      rw [tget?_cons, if_neg (Ne.symm h), tget?_cons, if_neg (Ne.symm h)]
    · rw [tget?_cons, ih, ← tget?_cons]

theorem tget?_tset (t : Tab α) (j k : Nat) (a : α) : tget? j (tset t k a) = if j = k then some a else tget? j t := by
  split_ifs with h
  · subst h; exact tget?_tset_same t j a
  · exact tget?_tset_other t a h

@[simp] theorem tget_nil (d : α) (k : Nat) : tget d ([] : Tab α) k = d := rfl

@[simp] theorem tget_tset_same (d : α) (t : Tab α) (k : Nat) (a : α) : tget d (tset t k a) k = a := by simp [tget]

theorem tget_tset_other (d : α) (t : Tab α) {j k : Nat} (a : α) (h : j ≠ k) : tget d (tset t k a) j = tget d t j := by
  simp [tget, tget?_tset_other t a h]

/-- A changed entry is the function of the entry before. -/
@[simp] theorem tget_tmod_same (e d : α) (t : Tab α) (k : Nat) (f : α → α) : tget e (tmod d t k f) k = f (tget d t k) := by
  simp [tmod]

theorem tget_tmod_other (e d : α) (t : Tab α) {j k : Nat} (f : α → α) (h : j ≠ k) : tget e (tmod d t k f) j = tget e t j := by
  simp [tmod, tget_tset_other e t _ h]

theorem tget?_tmod_other (d : α) (t : Tab α) {j k : Nat} (f : α → α) (h : j ≠ k) : tget? j (tmod d t k f) = tget? j t := by
  simp [tmod, tget?_tset_other t _ h]

@[simp] theorem tget?_tmod_same (d : α) (t : Tab α) (k : Nat) (f : α → α) : tget? k (tmod d t k f) = some (f (tget d t k)) := by
  simp [tmod]

@[simp] theorem tget?_tdel_same (t : Tab α) (k : Nat) : tget? k (tdel t k) = none := by
  induction t with
  | nil => rfl
  | cons x r ih =>
    obtain ⟨i, b⟩ := x
    by_cases h : i = k
    · subst h; simpa [tdel] using ih
    · have : tdel ((i, b) :: r) k = (i, b) :: tdel r k := by simp [tdel, h]
      rw [this, tget?_cons, if_neg h, ih]

theorem tget?_tdel_other (t : Tab α) {j k : Nat} (h : j ≠ k) : tget? j (tdel t k) = tget? j t := by
  induction t with
  | nil => rfl
  | cons x r ih =>
    obtain ⟨i, b⟩ := x
    by_cases hi : i = k
    · subst hi
      have : tdel ((i, b) :: r) i = tdel r i := by simp [tdel]
      rw [this, ih, tget?_cons, if_neg (Ne.symm h)]
    · have : tdel ((i, b) :: r) k = (i, b) :: tdel r k := by simp [tdel, hi]
      rw [this, tget?_cons, tget?_cons, ih]

/-- Changing every listed entry changes what a key reads by the same function. -/
theorem tget?_tmap (f : Nat → α → β) (t : Tab α) (k : Nat) : tget? k (tmap f t) = (tget? k t).map (f k) := by
  induction t with
  | nil => rfl
  | cons x r ih =>
    obtain ⟨i, a⟩ := x
    have : tmap f ((i, a) :: r) = (i, f i a) :: tmap f r := rfl
    rw [this, tget?_cons, tget?_cons, ih]
    split_ifs with h
    · subst h; rfl
    · rfl

/-! ### Lists -/

@[simp] theorem lmod_length (l : List α) (i : Nat) (f : α → α) : (lmod l i f).length = l.length := by
  induction l generalizing i with
  | nil => rfl
  | cons a r ih => cases i <;> simp [lmod, ih]

theorem lmod_getElem? (l : List α) (i j : Nat) (f : α → α) : (lmod l i f)[j]? = if j = i then l[j]?.map f else l[j]? := by
  induction l generalizing i j with
  | nil => simp [lmod]
  | cons a r ih => cases i <;> cases j <;> simp [lmod, ih]

theorem lget_lmod_other (d : α) (l : List α) {i j : Nat} (f : α → α) (h : j ≠ i) : lget d (lmod l i f) j = lget d l j := by
  simp [lget, lmod_getElem?, h]

theorem lget_lmod_same (d : α) (l : List α) (i : Nat) (f : α → α) (h : i < l.length) : lget d (lmod l i f) i = f (lget d l i) := by
  rw [lget, lmod_getElem?, if_pos rfl, lget, List.getElem?_eq_getElem h]; rfl

/-! ### Byte memory -/

/-- A byte reads as what was last written to it, 0 among it. -/
@[simp] theorem mget_mset_same (m : Mem) (a : Nat) (b : Byte) : mget (mset m a b) a = b := by
  unfold mset mget
  split_ifs with h
  · simp [tget, h]
  · simp

theorem mget_mset_other (m : Mem) {x a : Nat} (b : Byte) (h : x ≠ a) : mget (mset m a b) x = mget m x := by
  unfold mset mget
  split_ifs with hb
  · simp [tget, tget?_tdel_other m h]
  · exact tget_tset_other 0 m b h

/-- Bytes below a write, or above it, read as before. -/
theorem mget_mput_outside (m : Mem) (a x : Nat) (bs : List Byte) (h : x < a ∨ a + bs.length ≤ x) : mget (mput m a bs) x = mget m x := by
  induction bs generalizing m a with
  | nil => rfl
  | cons b r ih =>
    have hx : x ≠ a := by simp at h; omega
    rw [mput, ih (mset m a b) (a + 1) (by simp at h; omega), mget_mset_other m b hx]

/-- The bytes of a write read back. -/
theorem mget_mput_inside (m : Mem) (a k : Nat) (bs : List Byte) (h : k < bs.length) : mget (mput m a bs) (a + k) = bs[k] := by
  induction bs generalizing m a k with
  | nil => simp at h
  | cons b r ih =>
    cases k with
    | zero => rw [mput, mget_mput_outside _ _ _ _ (by omega)]; simp
    | succ k => rw [mput, show a + (k + 1) = a + 1 + k by omega, ih _ _ _ (by simpa using h)]; simp

@[simp] theorem mbytes_length (m : Mem) (a n : Nat) : (mbytes m a n).length = n := by simp [mbytes, span]

theorem mbytes_getElem (m : Mem) (a n k : Nat) (h : k < (mbytes m a n).length) : (mbytes m a n)[k] = mget m (a + k) := by
  simp [mbytes, span]

@[simp] theorem mbytes_mput (m : Mem) (a : Nat) (bs : List Byte) : mbytes (mput m a bs) a bs.length = bs := by
  refine List.ext_getElem (by simp) fun k hk hk' => ?_
  rw [mbytes_getElem, mget_mput_inside m a k bs hk']

/-- Dropped bytes read 0; every other byte reads as before. -/
theorem mget_mclear (m : Mem) (a b x : Nat) : mget (mclear m a b) x = if a ≤ x ∧ x < b then 0 else mget m x := by
  unfold mget mclear tget
  induction m with
  | nil => simp
  | cons y r ih =>
    obtain ⟨i, v⟩ := y
    by_cases hi : i < a ∨ b ≤ i
    · have : ((i, v) :: r).filter (fun x => decide (x.1 < a) || decide (b ≤ x.1)) =
          (i, v) :: r.filter (fun x => decide (x.1 < a) || decide (b ≤ x.1)) := by simp [hi]
      rw [this, tget?_cons, tget?_cons]
      by_cases hx : i = x
      · subst hx
        rw [if_pos rfl, if_pos rfl, if_neg (by omega)]
      · rw [if_neg hx, if_neg hx]; exact ih
    · have : ((i, v) :: r).filter (fun x => decide (x.1 < a) || decide (b ≤ x.1)) =
          r.filter (fun x => decide (x.1 < a) || decide (b ≤ x.1)) := by
        rw [List.filter_cons_of_neg]; simpa using hi
      rw [this, ih, tget?_cons]
      by_cases hx : i = x
      · subst hx; simp only [not_or, not_lt, not_le] at hi; simp [hi]
      · rw [if_neg hx]

/-! ### The canonical form -/

theorem Memory.wfFrom_mono {m : Mem} {a b : Nat} (h : b ≤ a) (hm : Memory.wfFrom a m = true) : Memory.wfFrom b m = true := by
  cases m with
  | nil => rfl
  | cons x r =>
    obtain ⟨i, v⟩ := x
    simp only [Memory.wfFrom, Bool.and_eq_true, decide_eq_true_eq] at hm ⊢
    exact ⟨⟨by omega, hm.1.2⟩, hm.2⟩

theorem Memory.wfFrom_tset {m : Mem} {lo k : Nat} {b : Byte} (hb : b ≠ 0) (hk : lo ≤ k) (hm : Memory.wfFrom lo m = true) :
    Memory.wfFrom lo (tset m k b) = true := by
  induction m generalizing lo with
  | nil => simpa [tset, Memory.wfFrom, hk] using hb
  | cons x r ih =>
    obtain ⟨i, v⟩ := x
    simp only [Memory.wfFrom, Bool.and_eq_true, decide_eq_true_eq] at hm
    unfold tset
    split_ifs with h1 h2
    · simp only [Memory.wfFrom, Bool.and_eq_true, decide_eq_true_eq]
      exact ⟨⟨hk, hb⟩, ⟨by omega, hm.1.2⟩, hm.2⟩
    · subst h2
      simp only [Memory.wfFrom, Bool.and_eq_true, decide_eq_true_eq]
      exact ⟨⟨hk, hb⟩, hm.2⟩
    · simp only [Memory.wfFrom, Bool.and_eq_true, decide_eq_true_eq]
      exact ⟨hm.1, ih (by omega) hm.2⟩

theorem Memory.wfFrom_filter {m : Mem} {lo : Nat} (p : Nat × Byte → Bool) (hm : Memory.wfFrom lo m = true) :
    Memory.wfFrom lo (m.filter p) = true := by
  induction m generalizing lo with
  | nil => rfl
  | cons x r ih =>
    obtain ⟨i, v⟩ := x
    simp only [Memory.wfFrom, Bool.and_eq_true, decide_eq_true_eq] at hm
    by_cases h : p (i, v) = true
    · rw [List.filter_cons_of_pos h]
      simp only [Memory.wfFrom, Bool.and_eq_true, decide_eq_true_eq]
      exact ⟨hm.1, ih hm.2⟩
    · rw [List.filter_cons_of_neg h]
      exact Memory.wfFrom_mono (by omega) (ih hm.2)

/-- One byte written keeps the canonical form. -/
theorem Memory.wf_mset {m : Mem} (a : Nat) (b : Byte) (hm : Memory.wf m = true) : Memory.wf (mset m a b) = true := by
  unfold mset
  split_ifs with h
  · exact Memory.wfFrom_filter _ hm
  · exact Memory.wfFrom_tset h (Nat.zero_le a) hm

/-- A write keeps the canonical form. -/
theorem Memory.wf_mput {m : Mem} (a : Nat) (bs : List Byte) (hm : Memory.wf m = true) : Memory.wf (mput m a bs) = true := by
  induction bs generalizing m a with
  | nil => exact hm
  | cons b r ih => exact ih (a + 1) (Memory.wf_mset a b hm)

/-- Dropping bytes keeps the canonical form. -/
theorem Memory.wf_mclear {m : Mem} (a b : Nat) (hm : Memory.wf m = true) : Memory.wf (mclear m a b) = true :=
  Memory.wfFrom_filter _ hm

/-- Every memory of the state after reset is canonical: nothing is listed. -/
theorem Memory.wf_reset : Memory.wf State.reset.mem.pool = true ∧ Memory.wf State.reset.bus.work = true ∧
    Memory.wf State.reset.bus.jsram = true ∧ Memory.wf State.reset.bus.owl = true ∧ Memory.wf State.reset.ctl.msix = true ∧
    Memory.wf State.reset.upd.slotA.image = true ∧ Memory.wf State.reset.upd.slotB.image = true :=
  ⟨rfl, rfl, rfl, rfl, rfl, rfl, rfl⟩

/-! ### Byte order and counters -/

@[simp] theorem le_length (n v : Nat) : (le n v).length = n := by
  induction n generalizing v with
  | zero => rfl
  | succ n ih => simp [le, ih]

/-- Bytes spell the number they were made from, modulo their size. -/
theorem leNat_le (n v : Nat) : leNat (le n v) = v % 256 ^ n := by
  induction n generalizing v with
  | zero => simp [le, leNat, Nat.mod_one]
  | succ n ih =>
    rw [le, leNat, ih]
    have h : (BitVec.ofNat 8 v).toNat = v % 256 := by simp
    rw [h, pow_succ, Nat.mul_comm (256 ^ n) 256, Nat.mod_mul]

@[simp] theorem be_length (n v : Nat) : (be n v).length = n := by simp [be]

theorem beNat_be (n v : Nat) : beNat (be n v) = v % 256 ^ n := by simp [beNat, be, leNat_le]

@[simp] theorem padTo_length (d : α) (n : Nat) (l : List α) : (padTo d n l).length = n := by simp [padTo]; omega

/-- A counter never passes all ones and never falls below what it held within its range. -/
theorem sat_le (n k : Nat) : sat n k ≤ 0xFFFFFFFF := Nat.min_le_right _ _
theorem le_sat {n k : Nat} (h : n + k ≤ 0xFFFFFFFF) : sat n k = n + k := Nat.min_eq_left h

end Sys2Proof.Machine
end

