-- ==== Sys2Proof/Laws/PerInstr.lean ====
section
/-! SUPPORT. For each command: what its well-formedness says of the ring entry that spells it, or of the unit that it names. -/
namespace Sys2Proof.Laws.Spelled
open Sys2Proof.Machine

/-- A well-formed host command comes from a session and a port that exist, with an HSEQ of 32 bits, fields that fit their sizes and an
opcode of one of the families 0x01 to 0x0D; a well-formed event names a unit that exists (R397, R402, R403). -/
def Statement (i : Instr) : Prop :=
  i.wf = true → match i.host? with
    | some (h, c) => (h.ses < 64 ∧ h.port < 2 ∧ h.hseq < 2 ^ 32) ∧ c.fits = true ∧ 0x0100 ≤ c.opcode ∧ c.opcode < 0x0E00
    | none => i.unitOk = true

theorem ofHost (i : Instr) (h : Hdr) (c : Cmd) (e : i.host? = some (h, c)) (a : Nat.ble 0x0100 c.opcode = true)
    (b : Nat.ble (c.opcode + 1) 0x0E00 = true) : Statement i := by
  intro w
  simp only [Instr.wf, e, Hdr.ok, Bool.and_eq_true, decide_eq_true_eq] at w ⊢
  exact ⟨⟨w.1.1.1, w.1.1.2, w.1.2⟩, w.2, Nat.le_of_ble_eq_true a, Nat.le_of_ble_eq_true b⟩

theorem ofEvent (i : Instr) (e : i.host? = none) : Statement i := by
  intro w
  simpa only [Instr.wf, e] using w

theorem take (h : Hdr) (rec expected : Nat) : Statement (.take h rec expected) := ofHost _ _ _ rfl rfl rfl
theorem salvo (h : Hdr) (count rsvd off expected : Nat) : Statement (.salvo h count rsvd off expected) := ofHost _ _ _ rfl rfl rfl
theorem routeQuery (h : Hdr) (epoch first count off : Nat) : Statement (.routeQuery h epoch first count off) := ofHost _ _ _ rfl rfl rfl
theorem protect (h : Hdr) (first count rel : Nat) : Statement (.protect h first count rel) := ofHost _ _ _ rfl rfl rfl
theorem forceRelease (h : Hdr) (first count : Nat) : Statement (.forceRelease h first count) := ofHost _ _ _ rfl rfl rfl
theorem bankLoad (h : Hdr) (plane act count off : Nat) : Statement (.bankLoad h plane act count off) := ofHost _ _ _ rfl rfl rfl
theorem bankSwap (h : Hdr) (plane : Nat) : Statement (.bankSwap h plane) := ofHost _ _ _ rfl rfl rfl
theorem srcMode (h : Hdr) (src mode flags lossHold : Nat) : Statement (.srcMode h src mode flags lossHold) := ofHost _ _ _ rfl rfl rfl
theorem srcWarm (h : Hdr) (src on : Nat) : Statement (.srcWarm h src on) := ofHost _ _ _ rfl rfl rfl
theorem srcGroup (h : Hdr) (size m0 m1 m2 m3 : Nat) : Statement (.srcGroup h size m0 m1 m2 m3) := ofHost _ _ _ rfl rfl rfl
theorem srcStatus (h : Hdr) (src : Nat) : Statement (.srcStatus h src) := ofHost _ _ _ rfl rfl rfl
theorem srcWindow (h : Hdr) (src w qcount : Nat) : Statement (.srcWindow h src w qcount) := ofHost _ _ _ rfl rfl rfl
theorem destBind (h : Hdr) (first count plane : Nat) : Statement (.destBind h first count plane) := ofHost _ _ _ rfl rfl rfl
theorem destAudio (h : Hdr) (first count mode : Nat) : Statement (.destAudio h first count mode) := ofHost _ _ _ rfl rfl rfl
theorem genCfg (h : Hdr) (gen plane pattern audio y cb cr : Nat) : Statement (.genCfg h gen plane pattern audio y cb cr) := ofHost _ _ _ rfl rfl rfl
theorem svcSend (h : Hdr) (lane cls len off roff rmax timeout : Nat) : Statement (.svcSend h lane cls len off roff rmax timeout) := ofHost _ _ _ rfl rfl rfl
theorem planeCfg (h : Hdr) (plane raster scan rate phLines phSamples : Nat) : Statement (.planeCfg h plane raster scan rate phLines phSamples) := ofHost _ _ _ rfl rfl rfl
theorem planeSwitch (h : Hdr) (plane line cutoff : Nat) : Statement (.planeSwitch h plane line cutoff) := ofHost _ _ _ rfl rfl rfl
theorem planeStatus (h : Hdr) (plane : Nat) : Statement (.planeStatus h plane) := ofHost _ _ _ rfl rfl rfl
theorem laneStatus (h : Hdr) (lane : Nat) : Statement (.laneStatus h lane) := ofHost _ _ _ rfl rfl rfl
theorem eyeScan (h : Hdr) (lane eye k sp sv thr off : Nat) : Statement (.eyeScan h lane eye k sp sv thr off) := ofHost _ _ _ rfl rfl rfl
theorem laneLoop (h : Hdr) (lane mode flags : Nat) : Statement (.laneLoop h lane mode flags) := ofHost _ _ _ rfl rfl rfl
theorem lanePrbs (h : Hdr) (lane pattern on rate : Nat) : Statement (.lanePrbs h lane pattern on rate) := ofHost _ _ _ rfl rfl rfl
theorem laneEqSet (h : Hdr) (lane set flags vals : Nat) : Statement (.laneEqSet h lane set flags vals) := ofHost _ _ _ rfl rfl rfl
theorem ethPortSplit (h : Hdr) (port mode : Nat) : Statement (.ethPortSplit h port mode) := ofHost _ _ _ rfl rfl rfl
theorem ethMacCfg (h : Hdr) (mac addr maxFrame : Nat) : Statement (.ethMacCfg h mac addr maxFrame) := ofHost _ _ _ rfl rfl rfl
theorem ethStatus (h : Hdr) (mac : Nat) : Statement (.ethStatus h mac) := ofHost _ _ _ rfl rfl rfl
theorem wakePattern (h : Hdr) (matcher on mac check mask : Nat) : Statement (.wakePattern h matcher on mac check mask) := ofHost _ _ _ rfl rfl rfl
theorem flowDefine (h : Hdr) (ctx op off : Nat) : Statement (.flowDefine h ctx op off) := ofHost _ _ _ rfl rfl rfl
theorem flowPort (h : Hdr) (ctx port flags : Nat) : Statement (.flowPort h ctx port flags) := ofHost _ _ _ rfl rfl rfl
theorem flowStatus (h : Hdr) (ctx : Nat) : Statement (.flowStatus h ctx) := ofHost _ _ _ rfl rfl rfl
theorem flowIf (h : Hdr) (mac off : Nat) : Statement (.flowIf h mac off) := ofHost _ _ _ rfl rfl rfl
theorem flowCapacity (h : Hdr) (mac : Nat) : Statement (.flowCapacity h mac) := ofHost _ _ _ rfl rfl rfl
theorem flowOffset (h : Hdr) (ctx auto offset : Nat) : Statement (.flowOffset h ctx auto offset) := ofHost _ _ _ rfl rfl rfl
theorem cmpBind (h : Hdr) (m plane dither audwin back : Nat) : Statement (.cmpBind h m plane dither audwin back) := ofHost _ _ _ rfl rfl rfl
theorem cmpLayout (h : Hdr) (m count off : Nat) : Statement (.cmpLayout h m count off) := ofHost _ _ _ rfl rfl rfl
theorem cmpGuard (h : Hdr) (m count off : Nat) : Statement (.cmpGuard h m count off) := ofHost _ _ _ rfl rfl rfl
theorem cmpFreeze (h : Hdr) (m win op : Nat) : Statement (.cmpFreeze h m win op) := ofHost _ _ _ rfl rfl rfl
theorem cmpStatus (h : Hdr) (m off : Nat) : Statement (.cmpStatus h m off) := ofHost _ _ _ rfl rfl rfl
theorem cmpCoef (h : Hdr) (m set off : Nat) : Statement (.cmpCoef h m set off) := ofHost _ _ _ rfl rfl rfl
theorem audMix (h : Hdr) (count ramp anchor off : Nat) : Statement (.audMix h count ramp anchor off) := ofHost _ _ _ rfl rfl rfl
theorem audGroup (h : Hdr) (src mode : Nat) : Statement (.audGroup h src mode) := ofHost _ _ _ rfl rfl rfl
theorem audOffset (h : Hdr) (dest us : Nat) : Statement (.audOffset h dest us) := ofHost _ _ _ rfl rfl rfl
theorem audHistory (h : Hdr) (first count len : Nat) : Statement (.audHistory h first count len) := ofHost _ _ _ rfl rfl rfl
theorem audMeter (h : Hdr) (first count op off : Nat) : Statement (.audMeter h first count op off) := ofHost _ _ _ rfl rfl rfl
theorem audStatus (h : Hdr) (kind index : Nat) : Statement (.audStatus h kind index) := ofHost _ _ _ rfl rfl rfl
theorem audBankLoad (h : Hdr) (cluster act count off : Nat) : Statement (.audBankLoad h cluster act count off) := ofHost _ _ _ rfl rfl rfl
theorem audBankSwap (h : Hdr) (mask : Nat) : Statement (.audBankSwap h mask) := ofHost _ _ _ rfl rfl rfl
theorem audRate (h : Hdr) (rate : Nat) : Statement (.audRate h rate) := ofHost _ _ _ rfl rfl rfl
theorem aptCfg (h : Hdr) (port format nslots w m flags nout inLat outLat : Nat) : Statement (.aptCfg h port format nslots w m flags nout inLat outLat) := ofHost _ _ _ rfl rfl rfl
theorem aptRing (h : Hdr) (port n : Nat) : Statement (.aptRing h port n) := ofHost _ _ _ rfl rfl rfl
theorem aptStatus (h : Hdr) (port : Nat) : Statement (.aptStatus h port) := ofHost _ _ _ rfl rfl rfl
theorem tmgRefCfg (h : Hdr) (cand kind prio flags num den wtr soft hard slope lossn : Nat) (delay : Int) : Statement (.tmgRefCfg h cand kind prio flags num den wtr soft hard slope lossn delay) := ofHost _ _ _ rfl rfl rfl
theorem tmgLrefBind (h : Hdr) (lref lane refid : Nat) : Statement (.tmgLrefBind h lref lane refid) := ofHost _ _ _ rfl rfl rfl
theorem tmgSelCfg (h : Hdr) (mode forced flags holdql freeql : Nat) : Statement (.tmgSelCfg h mode forced flags holdql freeql) := ofHost _ _ _ rfl rfl rfl
theorem tmgApllCfg (h : Hdr) (apll mint mnum mden : Nat) : Statement (.tmgApllCfg h apll mint mnum mden) := ofHost _ _ _ rfl rfl rfl
theorem tmgClkoutCfg (h : Hdr) (out src apll level d plane flags width : Nat) (outdly : Int) : Statement (.tmgClkoutCfg h out src apll level d plane flags width outdly) := ofHost _ _ _ rfl rfl rfl
theorem tmgWclkCfg (h : Hdr) (out op apll level : Nat) (outdly : Int) : Statement (.tmgWclkCfg h out op apll level outdly) := ofHost _ _ _ rfl rfl rfl
theorem tmgStatus (h : Hdr) (cand : Nat) : Statement (.tmgStatus h cand) := ofHost _ _ _ rfl rfl rfl
theorem tmgClassMap (h : Hdr) (off : Nat) : Statement (.tmgClassMap h off) := ofHost _ _ _ rfl rfl rfl
theorem tmgLoopCfg (h : Hdr) (track acq tt w n alslew guard hwin learn : Nat) : Statement (.tmgLoopCfg h track acq tt w n alslew guard hwin learn) := ofHost _ _ _ rfl rfl rfl
theorem dtStep (h : Hdr) (sec ns : Int) (flags : Nat) : Statement (.dtStep h sec ns flags) := ofHost _ _ _ rfl rfl rfl
theorem dtCfg (h : Hdr) (mode steplim : Nat) : Statement (.dtCfg h mode steplim) := ofHost _ _ _ rfl rfl rfl
theorem dtStatus (h : Hdr) : Statement (.dtStatus h) := ofHost _ _ _ rfl rfl rfl
theorem ptpCfg (h : Hdr) (domain prio1 prio2 timesrc utc flags ident classOut : Nat) : Statement (.ptpCfg h domain prio1 prio2 timesrc utc flags ident classOut) := ofHost _ _ _ rfl rfl rfl
theorem ptpPortCfg (h : Hdr) (port mac flags : Nat) (logSync logAnn : Int) (annTimeout : Nat) (logDelay rxdly txdly asym : Int) : Statement (.ptpPortCfg h port mac flags logSync logAnn annTimeout logDelay rxdly txdly asym) := ofHost _ _ _ rfl rfl rfl
theorem dtPinCfg (h : Hdr) (mode : Nat) : Statement (.dtPinCfg h mode) := ofHost _ _ _ rfl rfl rfl
theorem ptpServoCfg (h : Hdr) (sbw stepThr slew : Nat) : Statement (.ptpServoCfg h sbw stepThr slew) := ofHost _ _ _ rfl rfl rfl
theorem memStatus (h : Hdr) (pc : Nat) : Statement (.memStatus h pc) := ofHost _ _ _ rfl rfl rfl
theorem memRearm (h : Hdr) (pc : Nat) : Statement (.memRearm h pc) := ofHost _ _ _ rfl rfl rfl
theorem memPortCfg (h : Hdr) (port budget : Nat) : Statement (.memPortCfg h port budget) := ofHost _ _ _ rfl rfl rfl
theorem memFreeze (h : Hdr) (pc op off : Nat) : Statement (.memFreeze h pc op off) := ofHost _ _ _ rfl rfl rfl
theorem memCalSave (h : Hdr) (mask : Nat) : Statement (.memCalSave h mask) := ofHost _ _ _ rfl rfl rfl
theorem sessionOpen (h : Hdr) (name lease sub irqCount irqDelay : Nat) : Statement (.sessionOpen h name lease sub irqCount irqDelay) := ofHost _ _ _ rfl rfl rfl
theorem sessionClose (h : Hdr) (target : Nat) : Statement (.sessionClose h target) := ofHost _ _ _ rfl rfl rfl
theorem sessionAttach (h : Hdr) (key : Nat) : Statement (.sessionAttach h key) := ofHost _ _ _ rfl rfl rfl
theorem subscribe (h : Hdr) (sub irqCount irqDelay : Nat) : Statement (.subscribe h sub irqCount irqDelay) := ofHost _ _ _ rfl rfl rfl
theorem pendingQuery (h : Hdr) (all max off : Nat) : Statement (.pendingQuery h all max off) := ofHost _ _ _ rfl rfl rfl
theorem identity (h : Hdr) : Statement (.identity h) := ofHost _ _ _ rfl rfl rfl
theorem expertGrant (h : Hdr) (req lease : Nat) : Statement (.expertGrant h req lease) := ofHost _ _ _ rfl rfl rfl
theorem sessionBudget (h : Hdr) (target cmds hare cpus : Nat) : Statement (.sessionBudget h target cmds hare cpus) := ofHost _ _ _ rfl rfl rfl
theorem pairStatus (h : Hdr) (which off : Nat) : Statement (.pairStatus h which off) := ofHost _ _ _ rfl rfl rfl
theorem pairChangeover (h : Hdr) (plane warmMax : Nat) : Statement (.pairChangeover h plane warmMax) := ofHost _ _ _ rfl rfl rfl
theorem pairCfg (h : Hdr) (demote flags plane drill warmMax : Nat) : Statement (.pairCfg h demote flags plane drill warmMax) := ofHost _ _ _ rfl rfl rfl
theorem pairDrill (h : Hdr) : Statement (.pairDrill h) := ofHost _ _ _ rfl rfl rfl
theorem pairForce (h : Hdr) (op : Nat) : Statement (.pairForce h op) := ofHost _ _ _ rfl rfl rfl
theorem pwrStatus (h : Hdr) : Statement (.pwrStatus h) := ofHost _ _ _ rfl rfl rfl
theorem pwrDen (h : Hdr) : Statement (.pwrDen h) := ofHost _ _ _ rfl rfl rfl
theorem pwrWakePartner (h : Hdr) : Statement (.pwrWakePartner h) := ofHost _ _ _ rfl rfl rfl
theorem pwrCfg (h : Hdr) (hold flags : Nat) : Statement (.pwrCfg h hold flags) := ofHost _ _ _ rfl rfl rfl
theorem fltList (h : Hdr) (cls off : Nat) : Statement (.fltList h cls off) := ofHost _ _ _ rfl rfl rfl
theorem fltClear (h : Hdr) (src kind : Nat) : Statement (.fltClear h src kind) := ofHost _ _ _ rfl rfl rfl
theorem fltCfg (h : Hdr) (escn esct fnclass budget : Nat) : Statement (.fltCfg h escn esct fnclass budget) := ofHost _ _ _ rfl rfl rfl
theorem snpTrigger (h : Hdr) : Statement (.snpTrigger h) := ofHost _ _ _ rfl rfl rfl
theorem snpCfg (h : Hdr) (enables sclass src kind div msec mns period : Nat) : Statement (.snpCfg h enables sclass src kind div msec mns period) := ofHost _ _ _ rfl rfl rfl
theorem snpList (h : Hdr) (off : Nat) : Statement (.snpList h off) := ofHost _ _ _ rfl rfl rfl
theorem snpRead (h : Hdr) (slot ioff len off : Nat) : Statement (.snpRead h slot ioff len off) := ofHost _ _ _ rfl rfl rfl
theorem snpHold (h : Hdr) (slot hold : Nat) : Statement (.snpHold h slot hold) := ofHost _ _ _ rfl rfl rfl
theorem fltInject (h : Hdr) (msg : Nat) : Statement (.fltInject h msg) := ofHost _ _ _ rfl rfl rfl
theorem updStatus (h : Hdr) : Statement (.updStatus h) := ofHost _ _ _ rfl rfl rfl
theorem updActivate (h : Hdr) (slot : Nat) : Statement (.updActivate h slot) := ofHost _ _ _ rfl rfl rfl
theorem updConfirm (h : Hdr) : Statement (.updConfirm h) := ofHost _ _ _ rfl rfl rfl
theorem updRestart (h : Hdr) : Statement (.updRestart h) := ofHost _ _ _ rfl rfl rfl
theorem updSvcCfg (h : Hdr) (on : Nat) : Statement (.updSvcCfg h on) := ofHost _ _ _ rfl rfl rfl
theorem updFuse (h : Hdr) : Statement (.updFuse h) := ofHost _ _ _ rfl rfl rfl
theorem calRead (h : Hdr) (sect off : Nat) : Statement (.calRead h sect off) := ofHost _ _ _ rfl rfl rfl
theorem calWrite (h : Hdr) (sect off : Nat) : Statement (.calWrite h sect off) := ofHost _ _ _ rfl rfl rfl
theorem svcIdent (c : SvcReq) : Statement (.svcIdent c) := ofEvent _ rfl
theorem svcOpen (c : SvcReq) (slot len : Nat) : Statement (.svcOpen c slot len) := ofEvent _ rfl
theorem svcData (c : SvcReq) (data : List Byte) : Statement (.svcData c data) := ofEvent _ rfl
theorem svcVerify (c : SvcReq) : Statement (.svcVerify c) := ofEvent _ rfl
theorem svcWrite (c : SvcReq) : Statement (.svcWrite c) := ofEvent _ rfl
theorem svcStatus (c : SvcReq) : Statement (.svcStatus c) := ofEvent _ rfl
theorem svcAbort (c : SvcReq) : Statement (.svcAbort c) := ofEvent _ rfl
theorem svcActivate (c : SvcReq) (slot : Nat) : Statement (.svcActivate c slot) := ofEvent _ rfl
theorem svcFaults (c : SvcReq) : Statement (.svcFaults c) := ofEvent _ rfl
theorem svcSnapshot (c : SvcReq) (slot : Nat) : Statement (.svcSnapshot c slot) := ofEvent _ rfl
theorem mbxCmdTailWrite (port ses tail : Nat) : Statement (.mbxCmdTailWrite port ses tail) := ofEvent _ rfl
theorem mbxHareTailWrite (port ses tail : Nat) : Statement (.mbxHareTailWrite port ses tail) := ofEvent _ rfl
theorem mbxRespHeadWrite (port ses head : Nat) : Statement (.mbxRespHeadWrite port ses head) := ofEvent _ rfl
theorem mbxEvtHeadWrite (port ses head : Nat) : Statement (.mbxEvtHeadWrite port ses head) := ofEvent _ rfl
theorem mbxAllocReqGo (port : Nat) : Statement (.mbxAllocReqGo port) := ofEvent _ rfl
theorem sysRemapWrite (master value : Nat) : Statement (.sysRemapWrite master value) := ofEvent _ rfl
theorem busAccWrite (master target value : Nat) : Statement (.busAccWrite master target value) := ofEvent _ rfl
theorem busLockWrite (master value : Nat) : Statement (.busLockWrite master value) := ofEvent _ rfl
theorem busErrInfoClear (master value : Nat) : Statement (.busErrInfoClear master value) := ofEvent _ rfl
theorem dtStatJumpClear (master value : Nat) : Statement (.dtStatJumpClear master value) := ofEvent _ rfl
theorem rcCounterRead (master addr : Nat) : Statement (.rcCounterRead master addr) := ofEvent _ rfl
theorem latchingRead (master addr : Nat) : Statement (.latchingRead master addr) := ofEvent _ rfl
theorem registerWrite (master addr value : Nat) : Statement (.registerWrite master addr value) := ofEvent _ rfl
theorem defaultTargetAccess (master addr : Nat) (write : Bool) (value : Nat) : Statement (.defaultTargetAccess master addr write value) := ofEvent _ rfl
theorem busTargetTimeout (master addr : Nat) (write : Bool) : Statement (.busTargetTimeout master addr write) := ofEvent _ rfl
theorem bmcI2cAccess (dev addr : Nat) (write : Bool) : Statement (.bmcI2cAccess dev addr write) := ofEvent _ rfl
theorem hostLinkDown (port : Nat) : Statement (.hostLinkDown port) := ofEvent _ rfl
theorem changeSetCommit : Statement (.changeSetCommit) := ofEvent _ rfl
theorem budgetTick : Statement (.budgetTick) := ofEvent _ rfl
theorem planeCutoff (plane : Nat) : Statement (.planeCutoff plane) := ofEvent _ rfl
theorem stagingComplete (plane us : Nat) : Statement (.stagingComplete plane us) := ofEvent _ rfl
theorem planeSwitchPoint (plane : Nat) : Statement (.planeSwitchPoint plane) := ofEvent _ rfl
theorem catchUpCopyComplete (plane : Nat) : Statement (.catchUpCopyComplete plane) := ofEvent _ rfl
theorem routeOnAir (plane : Nat) : Statement (.routeOnAir plane) := ofEvent _ rfl
theorem frameBufferReturn (src plane : Nat) : Statement (.frameBufferReturn src plane) := ofEvent _ rfl
theorem outputRelease (dest line : Nat) (late : Bool) : Statement (.outputRelease dest line late) := ofEvent _ rfl
theorem isLineArrival (src : Nat) (content : Option LineIn) : Statement (.isLineArrival src content) := ofEvent _ rfl
theorem isFrameComplete (src : Nat) (shape : FrameShape) : Statement (.isFrameComplete src shape) := ofEvent _ rfl
theorem isReadDecision (feed : Nat) : Statement (.isReadDecision feed) := ofEvent _ rfl
theorem isSourceLost (src : Nat) : Statement (.isSourceLost src) := ofEvent _ rfl
theorem wlFrameReceive (lane : Nat) (f : WlFrame) : Statement (.wlFrameReceive lane f) := ofEvent _ rfl
theorem wlBlockReceive (lane : Nat) (block : Option WlBlock) : Statement (.wlBlockReceive lane block) := ofEvent _ rfl
theorem wlPositionTransmit (lane at_ : Nat) : Statement (.wlPositionTransmit lane at_) := ofEvent _ rfl
theorem wlBlockRelease (lane : Nat) : Statement (.wlBlockRelease lane) := ofEvent _ rfl
theorem wlSlotIdle (lane slot : Nat) : Statement (.wlSlotIdle lane slot) := ofEvent _ rfl
theorem wlLaneDown (lane : Nat) : Statement (.wlLaneDown lane) := ofEvent _ rfl
theorem wlModeTryTimeout (lane : Nat) : Statement (.wlModeTryTimeout lane) := ofEvent _ rfl
theorem laneReady (lane : Nat) : Statement (.laneReady lane) := ofEvent _ rfl
theorem laneLock (lane : Nat) : Statement (.laneLock lane) := ofEvent _ rfl
theorem laneLockLoss (lane : Nat) (sig : Bool) : Statement (.laneLockLoss lane sig) := ofEvent _ rfl
theorem laneRateChangeDone (lane : Nat) : Statement (.laneRateChangeDone lane) := ofEvent _ rfl
theorem eyeScanComplete (lane : Nat) (counts : List Nat) : Statement (.eyeScanComplete lane counts) := ofEvent _ rfl
theorem ethFrameReceive (mac : Nat) (frame : List Byte) (pcsErr : Bool) (m : PtpMeas) : Statement (.ethFrameReceive mac frame pcsErr m) := ofEvent _ rfl
theorem ethLinkChange (mac : Nat) (up align lfault rfault : Bool) : Statement (.ethLinkChange mac up align lfault rfault) := ofEvent _ rfl
theorem ethPacketRelease (mac : Nat) (complete : Bool) : Statement (.ethPacketRelease mac complete) := ofEvent _ rfl
theorem flowLineRelease (ctx ts line : Nat) : Statement (.flowLineRelease ctx ts line) := ofEvent _ rfl
theorem flowAudioRelease (ctx : Nat) : Statement (.flowAudioRelease ctx) := ofEvent _ rfl
theorem flowLatenessCheck (ctx : Nat) : Statement (.flowLatenessCheck ctx) := ofEvent _ rfl
theorem protectionPathLost (ctx : Nat) : Statement (.protectionPathLost ctx) := ofEvent _ rfl
theorem flowSwapRelease (port : Nat) : Statement (.flowSwapRelease port) := ofEvent _ rfl
theorem stateChangeReportRepeat (mac : Nat) (group : List Byte) : Statement (.stateChangeReportRepeat mac group) := ofEvent _ rfl
theorem queryResponse (mac : Nat) : Statement (.queryResponse mac) := ofEvent _ rfl
theorem nextHopRefresh (mac : Nat) : Statement (.nextHopRefresh mac) := ofEvent _ rfl
theorem cmpLayoutInstant (m : Nat) (lateLines : List Nat) : Statement (.cmpLayoutInstant m lateLines) := ofEvent _ rfl
theorem compositorShed : Statement (.compositorShed) := ofEvent _ rfl
theorem compositorRestore : Statement (.compositorRestore) := ofEvent _ rfl
theorem metersShed : Statement (.metersShed) := ofEvent _ rfl
theorem audioInputFrame (group : Nat) : Statement (.audioInputFrame group) := ofEvent _ rfl
theorem audioBlock : Statement (.audioBlock) := ofEvent _ rfl
theorem audioOutputSample (chan index : Nat) : Statement (.audioOutputSample chan index) := ofEvent _ rfl
theorem audBankWhole (cluster : Nat) : Statement (.audBankWhole cluster) := ofEvent _ rfl
theorem aptFsyncEdge (port bclks : Nat) (slots : List Nat) : Statement (.aptFsyncEdge port bclks slots) := ofEvent _ rfl
theorem aptClockLost (port : Nat) : Statement (.aptClockLost port) := ofEvent _ rfl
theorem refEvent (cand at_ : Nat) (phase : Int) : Statement (.refEvent cand at_ phase) := ofEvent _ rfl
theorem qlMessage (cand : Nat) (bytes : List Byte) (gap : Bool) : Statement (.qlMessage cand bytes gap) := ofEvent _ rfl
theorem qlTimeout (cand : Nat) : Statement (.qlTimeout cand) := ofEvent _ rfl
theorem candidateMeasurement (cand : Nat) (events : List (Nat × Int)) : Statement (.candidateMeasurement cand events) := ofEvent _ rfl
theorem candidateAbsent (cand : Nat) : Statement (.candidateAbsent cand) := ofEvent _ rfl
theorem selectorEvaluation : Statement (.selectorEvaluation) := ofEvent _ rfl
theorem transitionEnd : Statement (.transitionEnd) := ofEvent _ rfl
theorem dpllPhaseCycle (err : Int) : Statement (.dpllPhaseCycle err) := ofEvent _ rfl
theorem holdoverSample (temp : Int) : Statement (.holdoverSample temp) := ofEvent _ rfl
theorem apllLock (apll : Nat) : Statement (.apllLock apll) := ofEvent _ rfl
theorem apllBypass (apll : Nat) : Statement (.apllBypass apll) := ofEvent _ rfl
theorem apllBypassReturn (apll : Nat) : Statement (.apllBypassReturn apll) := ofEvent _ rfl
theorem clkoutGrantEnable (out : Nat) : Statement (.clkoutGrantEnable out) := ofEvent _ rfl
theorem dtTick (n : Nat) : Statement (.dtTick n) := ofEvent _ rfl
theorem dtStepApply : Statement (.dtStepApply) := ofEvent _ rfl
theorem dtMatch (unit : Nat) : Statement (.dtMatch unit) := ofEvent _ rfl
theorem snapTrigEdge (high : Nat) : Statement (.snapTrigEdge high) := ofEvent _ rfl
theorem ptpMessageSend (port kind : Nat) (m : PtpMeas) : Statement (.ptpMessageSend port kind m) := ofEvent _ rfl
theorem announceReceiptTimeout (port : Nat) : Statement (.announceReceiptTimeout port) := ofEvent _ rfl
theorem memParityAlert (pc : Nat) : Statement (.memParityAlert pc) := ofEvent _ rfl
theorem memRemap (pc : Nat) : Statement (.memRemap pc) := ofEvent _ rfl
theorem memPoisonedRead (pc port addr : Nat) (use : PoisonUse) : Statement (.memPoisonedRead pc port addr use) := ofEvent _ rfl
theorem patrolScrub (pc addr outcome : Nat) : Statement (.patrolScrub pc addr outcome) := ofEvent _ rfl
theorem memRefresh (stack : Nat) (temp : Int) (postpone : Bool) : Statement (.memRefresh stack temp postpone) := ofEvent _ rfl
theorem memFreezeTimeout (pc : Nat) : Statement (.memFreezeTimeout pc) := ofEvent _ rfl
theorem leaseExpiry (ses : Nat) : Statement (.leaseExpiry ses) := ofEvent _ rfl
theorem sessionOpeningTimeout (ses : Nat) : Statement (.sessionOpeningTimeout ses) := ofEvent _ rfl
theorem expertGrantExpiry (ses : Nat) : Statement (.expertGrantExpiry ses) := ofEvent _ rfl
theorem irqDelayExpiry (ses : Nat) : Statement (.irqDelayExpiry ses) := ofEvent _ rfl
theorem watchdogExpiry (processor : Nat) : Statement (.watchdogExpiry processor) := ofEvent _ rfl
theorem firmwareRestartComplete : Statement (.firmwareRestartComplete) := ofEvent _ rfl
theorem journalFull (ses : Nat) : Statement (.journalFull ses) := ofEvent _ rfl
theorem heartbeatSend : Statement (.heartbeatSend) := ofEvent _ rfl
theorem xlBlockReceive (bundle : Nat) (m : XlMsg) : Statement (.xlBlockReceive bundle m) := ofEvent _ rfl
theorem heartbeatPulseIn (width : Nat) : Statement (.heartbeatPulseIn width) := ofEvent _ rfl
theorem heartbeatMiss (path : Nat) : Statement (.heartbeatMiss path) := ofEvent _ rfl
theorem echoConfirmTimeout : Statement (.echoConfirmTimeout) := ofEvent _ rfl
theorem saveSendComplete (k : Nat) : Statement (.saveSendComplete k) := ofEvent _ rfl
theorem saveApply (k : Nat) (ok : Bool) : Statement (.saveApply k ok) := ofEvent _ rfl
theorem journalAckTimeout (jseq : Nat) : Statement (.journalAckTimeout jseq) := ofEvent _ rfl
theorem healthReportSend : Statement (.healthReportSend) := ofEvent _ rfl
theorem changeoverReady : Statement (.changeoverReady) := ofEvent _ rfl
theorem changeoverQuiesce : Statement (.changeoverQuiesce) := ofEvent _ rfl
theorem changeoverSwap : Statement (.changeoverSwap) := ofEvent _ rfl
theorem changeoverAbandon : Statement (.changeoverAbandon) := ofEvent _ rfl
theorem drillTimer : Statement (.drillTimer) := ofEvent _ rfl
theorem drillComplete (failing : Nat) : Statement (.drillComplete failing) := ofEvent _ rfl
theorem wakeEvent (cause : Nat) : Statement (.wakeEvent cause) := ofEvent _ rfl
theorem denPhaseEnd : Statement (.denPhaseEnd) := ofEvent _ rfl
theorem wakeStepReady (bad : Nat) : Statement (.wakeStepReady bad) := ofEvent _ rfl
theorem wakeStepTimeout : Statement (.wakeStepTimeout) := ofEvent _ rfl
theorem shadowholdExpiry : Statement (.shadowholdExpiry) := ofEvent _ rfl
theorem brownOut : Statement (.brownOut) := ofEvent _ rfl
theorem supplyOutOfRange (rail mv : Nat) : Statement (.supplyOutOfRange rail mv) := ofEvent _ rfl
theorem reseedComplete : Statement (.reseedComplete) := ofEvent _ rfl
theorem powerOnReset (cause : Nat) : Statement (.powerOnReset cause) := ofEvent _ rfl
theorem bootPhaseEnd (find : BootFind) : Statement (.bootPhaseEnd find) := ofEvent _ rfl
theorem bootPhaseOverrun : Statement (.bootPhaseOverrun) := ofEvent _ rfl
theorem pairDecision : Statement (.pairDecision) := ofEvent _ rfl
theorem faultMessage (msg : BitVec 64) (ended : Bool) : Statement (.faultMessage msg ended) := ofEvent _ rfl
theorem faultRecordExpiry (src kind : Nat) : Statement (.faultRecordExpiry src kind) := ofEvent _ rfl
theorem thermalPoll (caseTemp : Int) (junctions : List Int) : Statement (.thermalPoll caseTemp junctions) := ofEvent _ rfl
theorem snapshotCopyComplete : Statement (.snapshotCopyComplete) := ofEvent _ rfl
theorem serviceTransferAbandoned : Statement (.serviceTransferAbandoned) := ofEvent _ rfl
theorem svcSendTimeout (ses hseq : Nat) : Statement (.svcSendTimeout ses hseq) := ofEvent _ rfl
theorem changeoverDenEntry : Statement (.changeoverDenEntry) := ofEvent _ rfl
theorem imageVerifyComplete : Statement .imageVerifyComplete := ofEvent _ rfl
theorem flashWriteComplete (dev : Nat) (mismatch : Option Nat) : Statement (.flashWriteComplete dev mismatch) := ofEvent _ rfl
theorem servicePortFrame (f : SvcFrame) : Statement (.servicePortFrame f) := ofEvent _ rfl

end Sys2Proof.Laws.Spelled
end

