-- ==== Sys2Proof/Laws/State.lean ====
section
/-! SUPPORT. What each update of one block leaves alone, one lemma for each of the other fields of the machine, and what the
accessors read after an update. -/
namespace Sys2Proof.Machine

/-! Running a meaning: the queue stays, and an event of a unit that does not exist is refused. -/

theorem run_eq (f : Mach → Mach) (s : State) : run f s = .next { s with toMach := f s.toMach } := rfl
@[simp] theorem runIf_true (f : Mach → Mach) (s : State) : runIf true f s = .next { s with toMach := f s.toMach } := rfl
@[simp] theorem runIf_false (f : Mach → Mach) (s : State) : runIf false f s = .refused .noSuchUnit := rfl

/-- A meaning that answers a next state leaves the queue as it is. -/
theorem runIf_pending {b : Bool} {f : Mach → Mach} {s t : State} (h : runIf b f s = .next t) : t.pending = s.pending := by
  cases b
  · simp at h
  · simp only [runIf_true, Host.Outcome.next.injEq] at h; rw [← h]

theorem run_pending {f : Mach → Mach} {s t : State} (h : run f s = .next t) : t.pending = s.pending := by
  simp only [run_eq, Host.Outcome.next.injEq] at h; rw [← h]

/-! What the accessors read after an update. -/

@[simp] theorem ses_setSes_same (m : Mach) (k : Nat) (f : Session → Session) : ses (setSes m k f) k = f (ses m k) := tget_tmod_same _ _ _ _ _
theorem ses_setSes_other (m : Mach) {j k : Nat} (f : Session → Session) (h : j ≠ k) : ses (setSes m k f) j = ses m j := tget_tmod_other _ _ _ _ h
@[simp] theorem win_setWin_same (m : Mach) (k : Nat) (f : Window → Window) : win (setWin m k f) k = f (win m k) := tget_tmod_same _ _ _ _ _
theorem win_setWin_other (m : Mach) {j k : Nat} (f : Window → Window) (h : j ≠ k) : win (setWin m k f) j = win m j := tget_tmod_other _ _ _ _ h
@[simp] theorem dest_setDest_same (m : Mach) (k : Nat) (f : Dest → Dest) : dest (setDest m k f) k = f (dest m k) := tget_tmod_same _ _ _ _ _
theorem dest_setDest_other (m : Mach) {j k : Nat} (f : Dest → Dest) (h : j ≠ k) : dest (setDest m k f) j = dest m j := tget_tmod_other _ _ _ _ h
@[simp] theorem air_setAir_same (m : Mach) (k : Nat) (f : Air → Air) : air (setAir m k f) k = f (air m k) := tget_tmod_same _ _ _ _ _
theorem air_setAir_other (m : Mach) {j k : Nat} (f : Air → Air) (h : j ≠ k) : air (setAir m k f) j = air m j := tget_tmod_other _ _ _ _ h
@[simp] theorem rx_setRx_same (m : Mach) (k : Nat) (f : WlRx → WlRx) : rx (setRx m k f) k = f (rx m k) := tget_tmod_same _ _ _ _ _
theorem rx_setRx_other (m : Mach) {j k : Nat} (f : WlRx → WlRx) (h : j ≠ k) : rx (setRx m k f) j = rx m j := tget_tmod_other _ _ _ _ h
@[simp] theorem tx_setTx_same (m : Mach) (k : Nat) (f : WlTx → WlTx) : tx (setTx m k f) k = f (tx m k) := tget_tmod_same _ _ _ _ _
theorem tx_setTx_other (m : Mach) {j k : Nat} (f : WlTx → WlTx) (h : j ≠ k) : tx (setTx m k f) j = tx m j := tget_tmod_other _ _ _ _ h
@[simp] theorem lane_setLane_same (m : Mach) (k : Nat) (f : Lane → Lane) : lane (setLane m k f) k = f (lane m k) := tget_tmod_same _ _ _ _ _
theorem lane_setLane_other (m : Mach) {j k : Nat} (f : Lane → Lane) (h : j ≠ k) : lane (setLane m k f) j = lane m j := tget_tmod_other _ _ _ _ h
@[simp] theorem mac_setMac_same (m : Mach) (k : Nat) (f : Mac → Mac) : mac (setMac m k f) k = f (mac m k) := tget_tmod_same _ _ _ _ _
theorem mac_setMac_other (m : Mach) {j k : Nat} (f : Mac → Mac) (h : j ≠ k) : mac (setMac m k f) j = mac m j := tget_tmod_other _ _ _ _ h
@[simp] theorem ctx_setCtx_same (m : Mach) (k : Nat) (f : Ctx → Ctx) : ctx (setCtx m k f) k = f (ctx m k) := tget_tmod_same _ _ _ _ _
theorem ctx_setCtx_other (m : Mach) {j k : Nat} (f : Ctx → Ctx) (h : j ≠ k) : ctx (setCtx m k f) j = ctx m j := tget_tmod_other _ _ _ _ h
@[simp] theorem pc_setPc_same (m : Mach) (k : Nat) (f : Pc → Pc) : pc (setPc m k f) k = f (pc m k) := tget_tmod_same _ _ _ _ _
theorem pc_setPc_other (m : Mach) {j k : Nat} (f : Pc → Pc) (h : j ≠ k) : pc (setPc m k f) j = pc m j := tget_tmod_other _ _ _ _ h
@[simp] theorem memPort_setMemPort_same (m : Mach) (k : Nat) (f : MemPort → MemPort) : memPort (setMemPort m k f) k = f (memPort m k) := tget_tmod_same _ _ _ _ _
theorem memPort_setMemPort_other (m : Mach) {j k : Nat} (f : MemPort → MemPort) (h : j ≠ k) : memPort (setMemPort m k f) j = memPort m j := tget_tmod_other _ _ _ _ h
@[simp] theorem stack_setStack_same (m : Mach) (k : Nat) (f : Stack → Stack) : stack (setStack m k f) k = f (stack m k) := tget_tmod_same _ _ _ _ _
theorem stack_setStack_other (m : Mach) {j k : Nat} (f : Stack → Stack) (h : j ≠ k) : stack (setStack m k f) j = stack m j := tget_tmod_other _ _ _ _ h
@[simp] theorem pport_setPport_same (m : Mach) (k : Nat) (f : PtpPort → PtpPort) : pport (setPport m k f) k = f (pport m k) := tget_tmod_same _ _ _ _ _
theorem pport_setPport_other (m : Mach) {j k : Nat} (f : PtpPort → PtpPort) (h : j ≠ k) : pport (setPport m k f) j = pport m j := tget_tmod_other _ _ _ _ h

/-! `setSes` writes `ctl` alone. -/

@[simp] theorem setSes_now (m : Mach) (n : Nat) (f : Session → Session) : (setSes m n f).now = m.now := rfl
@[simp] theorem setSes_free (m : Mach) (n : Nat) (f : Session → Session) : (setSes m n f).free = m.free := rfl
@[simp] theorem setSes_xb (m : Mach) (n : Nat) (f : Session → Session) : (setSes m n f).xb = m.xb := rfl
@[simp] theorem setSes_is (m : Mach) (n : Nat) (f : Session → Session) : (setSes m n f).is_ = m.is_ := rfl
@[simp] theorem setSes_flt (m : Mach) (n : Nat) (f : Session → Session) : (setSes m n f).flt = m.flt := rfl
@[simp] theorem setSes_snp (m : Mach) (n : Nat) (f : Session → Session) : (setSes m n f).snp = m.snp := rfl
@[simp] theorem setSes_wl (m : Mach) (n : Nat) (f : Session → Session) : (setSes m n f).wl = m.wl := rfl
@[simp] theorem setSes_ln (m : Mach) (n : Nat) (f : Session → Session) : (setSes m n f).ln = m.ln := rfl
@[simp] theorem setSes_eth (m : Mach) (n : Nat) (f : Session → Session) : (setSes m n f).eth = m.eth := rfl
@[simp] theorem setSes_flw (m : Mach) (n : Nat) (f : Session → Session) : (setSes m n f).flw = m.flw := rfl
@[simp] theorem setSes_cmp (m : Mach) (n : Nat) (f : Session → Session) : (setSes m n f).cmp = m.cmp := rfl
@[simp] theorem setSes_aud (m : Mach) (n : Nat) (f : Session → Session) : (setSes m n f).aud = m.aud := rfl
@[simp] theorem setSes_audCnt (m : Mach) (n : Nat) (f : Session → Session) : (setSes m n f).audCnt = m.audCnt := rfl
@[simp] theorem setSes_apt (m : Mach) (n : Nat) (f : Session → Session) : (setSes m n f).apt = m.apt := rfl
@[simp] theorem setSes_tmg (m : Mach) (n : Nat) (f : Session → Session) : (setSes m n f).tmg = m.tmg := rfl
@[simp] theorem setSes_dt (m : Mach) (n : Nat) (f : Session → Session) : (setSes m n f).dt = m.dt := rfl
@[simp] theorem setSes_mem (m : Mach) (n : Nat) (f : Session → Session) : (setSes m n f).mem = m.mem := rfl
@[simp] theorem setSes_bus (m : Mach) (n : Nat) (f : Session → Session) : (setSes m n f).bus = m.bus := rfl
@[simp] theorem setSes_pr (m : Mach) (n : Nat) (f : Session → Session) : (setSes m n f).pr = m.pr := rfl
@[simp] theorem setSes_pwr (m : Mach) (n : Nat) (f : Session → Session) : (setSes m n f).pwr = m.pwr := rfl
@[simp] theorem setSes_upd (m : Mach) (n : Nat) (f : Session → Session) : (setSes m n f).upd = m.upd := rfl
@[simp] theorem setSes_sys (m : Mach) (n : Nat) (f : Session → Session) : (setSes m n f).sys = m.sys := rfl
@[simp] theorem setSes_out (m : Mach) (n : Nat) (f : Session → Session) : (setSes m n f).out = m.out := rfl
@[simp] theorem setSes_images (m : Mach) (n : Nat) (f : Session → Session) : (setSes m n f).images = m.images := rfl

/-! `setWin` writes `ctl` alone. -/

@[simp] theorem setWin_now (m : Mach) (n : Nat) (f : Window → Window) : (setWin m n f).now = m.now := rfl
@[simp] theorem setWin_free (m : Mach) (n : Nat) (f : Window → Window) : (setWin m n f).free = m.free := rfl
@[simp] theorem setWin_xb (m : Mach) (n : Nat) (f : Window → Window) : (setWin m n f).xb = m.xb := rfl
@[simp] theorem setWin_is (m : Mach) (n : Nat) (f : Window → Window) : (setWin m n f).is_ = m.is_ := rfl
@[simp] theorem setWin_flt (m : Mach) (n : Nat) (f : Window → Window) : (setWin m n f).flt = m.flt := rfl
@[simp] theorem setWin_snp (m : Mach) (n : Nat) (f : Window → Window) : (setWin m n f).snp = m.snp := rfl
@[simp] theorem setWin_wl (m : Mach) (n : Nat) (f : Window → Window) : (setWin m n f).wl = m.wl := rfl
@[simp] theorem setWin_ln (m : Mach) (n : Nat) (f : Window → Window) : (setWin m n f).ln = m.ln := rfl
@[simp] theorem setWin_eth (m : Mach) (n : Nat) (f : Window → Window) : (setWin m n f).eth = m.eth := rfl
@[simp] theorem setWin_flw (m : Mach) (n : Nat) (f : Window → Window) : (setWin m n f).flw = m.flw := rfl
@[simp] theorem setWin_cmp (m : Mach) (n : Nat) (f : Window → Window) : (setWin m n f).cmp = m.cmp := rfl
@[simp] theorem setWin_aud (m : Mach) (n : Nat) (f : Window → Window) : (setWin m n f).aud = m.aud := rfl
@[simp] theorem setWin_audCnt (m : Mach) (n : Nat) (f : Window → Window) : (setWin m n f).audCnt = m.audCnt := rfl
@[simp] theorem setWin_apt (m : Mach) (n : Nat) (f : Window → Window) : (setWin m n f).apt = m.apt := rfl
@[simp] theorem setWin_tmg (m : Mach) (n : Nat) (f : Window → Window) : (setWin m n f).tmg = m.tmg := rfl
@[simp] theorem setWin_dt (m : Mach) (n : Nat) (f : Window → Window) : (setWin m n f).dt = m.dt := rfl
@[simp] theorem setWin_mem (m : Mach) (n : Nat) (f : Window → Window) : (setWin m n f).mem = m.mem := rfl
@[simp] theorem setWin_bus (m : Mach) (n : Nat) (f : Window → Window) : (setWin m n f).bus = m.bus := rfl
@[simp] theorem setWin_pr (m : Mach) (n : Nat) (f : Window → Window) : (setWin m n f).pr = m.pr := rfl
@[simp] theorem setWin_pwr (m : Mach) (n : Nat) (f : Window → Window) : (setWin m n f).pwr = m.pwr := rfl
@[simp] theorem setWin_upd (m : Mach) (n : Nat) (f : Window → Window) : (setWin m n f).upd = m.upd := rfl
@[simp] theorem setWin_sys (m : Mach) (n : Nat) (f : Window → Window) : (setWin m n f).sys = m.sys := rfl
@[simp] theorem setWin_out (m : Mach) (n : Nat) (f : Window → Window) : (setWin m n f).out = m.out := rfl
@[simp] theorem setWin_images (m : Mach) (n : Nat) (f : Window → Window) : (setWin m n f).images = m.images := rfl

/-! `setCnt` writes `ctl` alone. -/

@[simp] theorem setCnt_now (m : Mach) (n : Nat) (f : SesCnt → SesCnt) : (setCnt m n f).now = m.now := rfl
@[simp] theorem setCnt_free (m : Mach) (n : Nat) (f : SesCnt → SesCnt) : (setCnt m n f).free = m.free := rfl
@[simp] theorem setCnt_xb (m : Mach) (n : Nat) (f : SesCnt → SesCnt) : (setCnt m n f).xb = m.xb := rfl
@[simp] theorem setCnt_is (m : Mach) (n : Nat) (f : SesCnt → SesCnt) : (setCnt m n f).is_ = m.is_ := rfl
@[simp] theorem setCnt_flt (m : Mach) (n : Nat) (f : SesCnt → SesCnt) : (setCnt m n f).flt = m.flt := rfl
@[simp] theorem setCnt_snp (m : Mach) (n : Nat) (f : SesCnt → SesCnt) : (setCnt m n f).snp = m.snp := rfl
@[simp] theorem setCnt_wl (m : Mach) (n : Nat) (f : SesCnt → SesCnt) : (setCnt m n f).wl = m.wl := rfl
@[simp] theorem setCnt_ln (m : Mach) (n : Nat) (f : SesCnt → SesCnt) : (setCnt m n f).ln = m.ln := rfl
@[simp] theorem setCnt_eth (m : Mach) (n : Nat) (f : SesCnt → SesCnt) : (setCnt m n f).eth = m.eth := rfl
@[simp] theorem setCnt_flw (m : Mach) (n : Nat) (f : SesCnt → SesCnt) : (setCnt m n f).flw = m.flw := rfl
@[simp] theorem setCnt_cmp (m : Mach) (n : Nat) (f : SesCnt → SesCnt) : (setCnt m n f).cmp = m.cmp := rfl
@[simp] theorem setCnt_aud (m : Mach) (n : Nat) (f : SesCnt → SesCnt) : (setCnt m n f).aud = m.aud := rfl
@[simp] theorem setCnt_audCnt (m : Mach) (n : Nat) (f : SesCnt → SesCnt) : (setCnt m n f).audCnt = m.audCnt := rfl
@[simp] theorem setCnt_apt (m : Mach) (n : Nat) (f : SesCnt → SesCnt) : (setCnt m n f).apt = m.apt := rfl
@[simp] theorem setCnt_tmg (m : Mach) (n : Nat) (f : SesCnt → SesCnt) : (setCnt m n f).tmg = m.tmg := rfl
@[simp] theorem setCnt_dt (m : Mach) (n : Nat) (f : SesCnt → SesCnt) : (setCnt m n f).dt = m.dt := rfl
@[simp] theorem setCnt_mem (m : Mach) (n : Nat) (f : SesCnt → SesCnt) : (setCnt m n f).mem = m.mem := rfl
@[simp] theorem setCnt_bus (m : Mach) (n : Nat) (f : SesCnt → SesCnt) : (setCnt m n f).bus = m.bus := rfl
@[simp] theorem setCnt_pr (m : Mach) (n : Nat) (f : SesCnt → SesCnt) : (setCnt m n f).pr = m.pr := rfl
@[simp] theorem setCnt_pwr (m : Mach) (n : Nat) (f : SesCnt → SesCnt) : (setCnt m n f).pwr = m.pwr := rfl
@[simp] theorem setCnt_upd (m : Mach) (n : Nat) (f : SesCnt → SesCnt) : (setCnt m n f).upd = m.upd := rfl
@[simp] theorem setCnt_sys (m : Mach) (n : Nat) (f : SesCnt → SesCnt) : (setCnt m n f).sys = m.sys := rfl
@[simp] theorem setCnt_out (m : Mach) (n : Nat) (f : SesCnt → SesCnt) : (setCnt m n f).out = m.out := rfl
@[simp] theorem setCnt_images (m : Mach) (n : Nat) (f : SesCnt → SesCnt) : (setCnt m n f).images = m.images := rfl

/-! `fireVector` writes `ctl` alone. -/

@[simp] theorem fireVector_now (m : Mach) (port v : Nat) : (fireVector m port v).now = m.now := rfl
@[simp] theorem fireVector_free (m : Mach) (port v : Nat) : (fireVector m port v).free = m.free := rfl
@[simp] theorem fireVector_xb (m : Mach) (port v : Nat) : (fireVector m port v).xb = m.xb := rfl
@[simp] theorem fireVector_is (m : Mach) (port v : Nat) : (fireVector m port v).is_ = m.is_ := rfl
@[simp] theorem fireVector_flt (m : Mach) (port v : Nat) : (fireVector m port v).flt = m.flt := rfl
@[simp] theorem fireVector_snp (m : Mach) (port v : Nat) : (fireVector m port v).snp = m.snp := rfl
@[simp] theorem fireVector_wl (m : Mach) (port v : Nat) : (fireVector m port v).wl = m.wl := rfl
@[simp] theorem fireVector_ln (m : Mach) (port v : Nat) : (fireVector m port v).ln = m.ln := rfl
@[simp] theorem fireVector_eth (m : Mach) (port v : Nat) : (fireVector m port v).eth = m.eth := rfl
@[simp] theorem fireVector_flw (m : Mach) (port v : Nat) : (fireVector m port v).flw = m.flw := rfl
@[simp] theorem fireVector_cmp (m : Mach) (port v : Nat) : (fireVector m port v).cmp = m.cmp := rfl
@[simp] theorem fireVector_aud (m : Mach) (port v : Nat) : (fireVector m port v).aud = m.aud := rfl
@[simp] theorem fireVector_audCnt (m : Mach) (port v : Nat) : (fireVector m port v).audCnt = m.audCnt := rfl
@[simp] theorem fireVector_apt (m : Mach) (port v : Nat) : (fireVector m port v).apt = m.apt := rfl
@[simp] theorem fireVector_tmg (m : Mach) (port v : Nat) : (fireVector m port v).tmg = m.tmg := rfl
@[simp] theorem fireVector_dt (m : Mach) (port v : Nat) : (fireVector m port v).dt = m.dt := rfl
@[simp] theorem fireVector_mem (m : Mach) (port v : Nat) : (fireVector m port v).mem = m.mem := rfl
@[simp] theorem fireVector_bus (m : Mach) (port v : Nat) : (fireVector m port v).bus = m.bus := rfl
@[simp] theorem fireVector_pr (m : Mach) (port v : Nat) : (fireVector m port v).pr = m.pr := rfl
@[simp] theorem fireVector_pwr (m : Mach) (port v : Nat) : (fireVector m port v).pwr = m.pwr := rfl
@[simp] theorem fireVector_upd (m : Mach) (port v : Nat) : (fireVector m port v).upd = m.upd := rfl
@[simp] theorem fireVector_sys (m : Mach) (port v : Nat) : (fireVector m port v).sys = m.sys := rfl
@[simp] theorem fireVector_out (m : Mach) (port v : Nat) : (fireVector m port v).out = m.out := rfl
@[simp] theorem fireVector_images (m : Mach) (port v : Nat) : (fireVector m port v).images = m.images := rfl

/-! `putSalvo` writes `ctl` alone. -/

@[simp] theorem putSalvo_now (m : Mach) (n off : Nat) (bs : List Byte) : (putSalvo m n off bs).now = m.now := rfl
@[simp] theorem putSalvo_free (m : Mach) (n off : Nat) (bs : List Byte) : (putSalvo m n off bs).free = m.free := rfl
@[simp] theorem putSalvo_xb (m : Mach) (n off : Nat) (bs : List Byte) : (putSalvo m n off bs).xb = m.xb := rfl
@[simp] theorem putSalvo_is (m : Mach) (n off : Nat) (bs : List Byte) : (putSalvo m n off bs).is_ = m.is_ := rfl
@[simp] theorem putSalvo_flt (m : Mach) (n off : Nat) (bs : List Byte) : (putSalvo m n off bs).flt = m.flt := rfl
@[simp] theorem putSalvo_snp (m : Mach) (n off : Nat) (bs : List Byte) : (putSalvo m n off bs).snp = m.snp := rfl
@[simp] theorem putSalvo_wl (m : Mach) (n off : Nat) (bs : List Byte) : (putSalvo m n off bs).wl = m.wl := rfl
@[simp] theorem putSalvo_ln (m : Mach) (n off : Nat) (bs : List Byte) : (putSalvo m n off bs).ln = m.ln := rfl
@[simp] theorem putSalvo_eth (m : Mach) (n off : Nat) (bs : List Byte) : (putSalvo m n off bs).eth = m.eth := rfl
@[simp] theorem putSalvo_flw (m : Mach) (n off : Nat) (bs : List Byte) : (putSalvo m n off bs).flw = m.flw := rfl
@[simp] theorem putSalvo_cmp (m : Mach) (n off : Nat) (bs : List Byte) : (putSalvo m n off bs).cmp = m.cmp := rfl
@[simp] theorem putSalvo_aud (m : Mach) (n off : Nat) (bs : List Byte) : (putSalvo m n off bs).aud = m.aud := rfl
@[simp] theorem putSalvo_audCnt (m : Mach) (n off : Nat) (bs : List Byte) : (putSalvo m n off bs).audCnt = m.audCnt := rfl
@[simp] theorem putSalvo_apt (m : Mach) (n off : Nat) (bs : List Byte) : (putSalvo m n off bs).apt = m.apt := rfl
@[simp] theorem putSalvo_tmg (m : Mach) (n off : Nat) (bs : List Byte) : (putSalvo m n off bs).tmg = m.tmg := rfl
@[simp] theorem putSalvo_dt (m : Mach) (n off : Nat) (bs : List Byte) : (putSalvo m n off bs).dt = m.dt := rfl
@[simp] theorem putSalvo_mem (m : Mach) (n off : Nat) (bs : List Byte) : (putSalvo m n off bs).mem = m.mem := rfl
@[simp] theorem putSalvo_bus (m : Mach) (n off : Nat) (bs : List Byte) : (putSalvo m n off bs).bus = m.bus := rfl
@[simp] theorem putSalvo_pr (m : Mach) (n off : Nat) (bs : List Byte) : (putSalvo m n off bs).pr = m.pr := rfl
@[simp] theorem putSalvo_pwr (m : Mach) (n off : Nat) (bs : List Byte) : (putSalvo m n off bs).pwr = m.pwr := rfl
@[simp] theorem putSalvo_upd (m : Mach) (n off : Nat) (bs : List Byte) : (putSalvo m n off bs).upd = m.upd := rfl
@[simp] theorem putSalvo_sys (m : Mach) (n off : Nat) (bs : List Byte) : (putSalvo m n off bs).sys = m.sys := rfl
@[simp] theorem putSalvo_out (m : Mach) (n off : Nat) (bs : List Byte) : (putSalvo m n off bs).out = m.out := rfl
@[simp] theorem putSalvo_images (m : Mach) (n off : Nat) (bs : List Byte) : (putSalvo m n off bs).images = m.images := rfl

/-! `setEntry` writes `ctl` alone. -/

@[simp] theorem setEntry_now (m : Mach) (j : Nat) (f : JEntry → JEntry) : (setEntry m j f).now = m.now := rfl
@[simp] theorem setEntry_free (m : Mach) (j : Nat) (f : JEntry → JEntry) : (setEntry m j f).free = m.free := rfl
@[simp] theorem setEntry_xb (m : Mach) (j : Nat) (f : JEntry → JEntry) : (setEntry m j f).xb = m.xb := rfl
@[simp] theorem setEntry_is (m : Mach) (j : Nat) (f : JEntry → JEntry) : (setEntry m j f).is_ = m.is_ := rfl
@[simp] theorem setEntry_flt (m : Mach) (j : Nat) (f : JEntry → JEntry) : (setEntry m j f).flt = m.flt := rfl
@[simp] theorem setEntry_snp (m : Mach) (j : Nat) (f : JEntry → JEntry) : (setEntry m j f).snp = m.snp := rfl
@[simp] theorem setEntry_wl (m : Mach) (j : Nat) (f : JEntry → JEntry) : (setEntry m j f).wl = m.wl := rfl
@[simp] theorem setEntry_ln (m : Mach) (j : Nat) (f : JEntry → JEntry) : (setEntry m j f).ln = m.ln := rfl
@[simp] theorem setEntry_eth (m : Mach) (j : Nat) (f : JEntry → JEntry) : (setEntry m j f).eth = m.eth := rfl
@[simp] theorem setEntry_flw (m : Mach) (j : Nat) (f : JEntry → JEntry) : (setEntry m j f).flw = m.flw := rfl
@[simp] theorem setEntry_cmp (m : Mach) (j : Nat) (f : JEntry → JEntry) : (setEntry m j f).cmp = m.cmp := rfl
@[simp] theorem setEntry_aud (m : Mach) (j : Nat) (f : JEntry → JEntry) : (setEntry m j f).aud = m.aud := rfl
@[simp] theorem setEntry_audCnt (m : Mach) (j : Nat) (f : JEntry → JEntry) : (setEntry m j f).audCnt = m.audCnt := rfl
@[simp] theorem setEntry_apt (m : Mach) (j : Nat) (f : JEntry → JEntry) : (setEntry m j f).apt = m.apt := rfl
@[simp] theorem setEntry_tmg (m : Mach) (j : Nat) (f : JEntry → JEntry) : (setEntry m j f).tmg = m.tmg := rfl
@[simp] theorem setEntry_dt (m : Mach) (j : Nat) (f : JEntry → JEntry) : (setEntry m j f).dt = m.dt := rfl
@[simp] theorem setEntry_mem (m : Mach) (j : Nat) (f : JEntry → JEntry) : (setEntry m j f).mem = m.mem := rfl
@[simp] theorem setEntry_bus (m : Mach) (j : Nat) (f : JEntry → JEntry) : (setEntry m j f).bus = m.bus := rfl
@[simp] theorem setEntry_pr (m : Mach) (j : Nat) (f : JEntry → JEntry) : (setEntry m j f).pr = m.pr := rfl
@[simp] theorem setEntry_pwr (m : Mach) (j : Nat) (f : JEntry → JEntry) : (setEntry m j f).pwr = m.pwr := rfl
@[simp] theorem setEntry_upd (m : Mach) (j : Nat) (f : JEntry → JEntry) : (setEntry m j f).upd = m.upd := rfl
@[simp] theorem setEntry_sys (m : Mach) (j : Nat) (f : JEntry → JEntry) : (setEntry m j f).sys = m.sys := rfl
@[simp] theorem setEntry_out (m : Mach) (j : Nat) (f : JEntry → JEntry) : (setEntry m j f).out = m.out := rfl
@[simp] theorem setEntry_images (m : Mach) (j : Nat) (f : JEntry → JEntry) : (setEntry m j f).images = m.images := rfl

/-! `setPlane` writes `xb` alone. -/

@[simp] theorem setPlane_now (m : Mach) (p : Nat) (f : Plane → Plane) : (setPlane m p f).now = m.now := rfl
@[simp] theorem setPlane_free (m : Mach) (p : Nat) (f : Plane → Plane) : (setPlane m p f).free = m.free := rfl
@[simp] theorem setPlane_is (m : Mach) (p : Nat) (f : Plane → Plane) : (setPlane m p f).is_ = m.is_ := rfl
@[simp] theorem setPlane_ctl (m : Mach) (p : Nat) (f : Plane → Plane) : (setPlane m p f).ctl = m.ctl := rfl
@[simp] theorem setPlane_flt (m : Mach) (p : Nat) (f : Plane → Plane) : (setPlane m p f).flt = m.flt := rfl
@[simp] theorem setPlane_snp (m : Mach) (p : Nat) (f : Plane → Plane) : (setPlane m p f).snp = m.snp := rfl
@[simp] theorem setPlane_wl (m : Mach) (p : Nat) (f : Plane → Plane) : (setPlane m p f).wl = m.wl := rfl
@[simp] theorem setPlane_ln (m : Mach) (p : Nat) (f : Plane → Plane) : (setPlane m p f).ln = m.ln := rfl
@[simp] theorem setPlane_eth (m : Mach) (p : Nat) (f : Plane → Plane) : (setPlane m p f).eth = m.eth := rfl
@[simp] theorem setPlane_flw (m : Mach) (p : Nat) (f : Plane → Plane) : (setPlane m p f).flw = m.flw := rfl
@[simp] theorem setPlane_cmp (m : Mach) (p : Nat) (f : Plane → Plane) : (setPlane m p f).cmp = m.cmp := rfl
@[simp] theorem setPlane_aud (m : Mach) (p : Nat) (f : Plane → Plane) : (setPlane m p f).aud = m.aud := rfl
@[simp] theorem setPlane_audCnt (m : Mach) (p : Nat) (f : Plane → Plane) : (setPlane m p f).audCnt = m.audCnt := rfl
@[simp] theorem setPlane_apt (m : Mach) (p : Nat) (f : Plane → Plane) : (setPlane m p f).apt = m.apt := rfl
@[simp] theorem setPlane_tmg (m : Mach) (p : Nat) (f : Plane → Plane) : (setPlane m p f).tmg = m.tmg := rfl
@[simp] theorem setPlane_dt (m : Mach) (p : Nat) (f : Plane → Plane) : (setPlane m p f).dt = m.dt := rfl
@[simp] theorem setPlane_mem (m : Mach) (p : Nat) (f : Plane → Plane) : (setPlane m p f).mem = m.mem := rfl
@[simp] theorem setPlane_bus (m : Mach) (p : Nat) (f : Plane → Plane) : (setPlane m p f).bus = m.bus := rfl
@[simp] theorem setPlane_pr (m : Mach) (p : Nat) (f : Plane → Plane) : (setPlane m p f).pr = m.pr := rfl
@[simp] theorem setPlane_pwr (m : Mach) (p : Nat) (f : Plane → Plane) : (setPlane m p f).pwr = m.pwr := rfl
@[simp] theorem setPlane_upd (m : Mach) (p : Nat) (f : Plane → Plane) : (setPlane m p f).upd = m.upd := rfl
@[simp] theorem setPlane_sys (m : Mach) (p : Nat) (f : Plane → Plane) : (setPlane m p f).sys = m.sys := rfl
@[simp] theorem setPlane_out (m : Mach) (p : Nat) (f : Plane → Plane) : (setPlane m p f).out = m.out := rfl
@[simp] theorem setPlane_images (m : Mach) (p : Nat) (f : Plane → Plane) : (setPlane m p f).images = m.images := rfl

/-! `setDest` writes `xb` alone. -/

@[simp] theorem setDest_now (m : Mach) (d : Nat) (f : Dest → Dest) : (setDest m d f).now = m.now := rfl
@[simp] theorem setDest_free (m : Mach) (d : Nat) (f : Dest → Dest) : (setDest m d f).free = m.free := rfl
@[simp] theorem setDest_is (m : Mach) (d : Nat) (f : Dest → Dest) : (setDest m d f).is_ = m.is_ := rfl
@[simp] theorem setDest_ctl (m : Mach) (d : Nat) (f : Dest → Dest) : (setDest m d f).ctl = m.ctl := rfl
@[simp] theorem setDest_flt (m : Mach) (d : Nat) (f : Dest → Dest) : (setDest m d f).flt = m.flt := rfl
@[simp] theorem setDest_snp (m : Mach) (d : Nat) (f : Dest → Dest) : (setDest m d f).snp = m.snp := rfl
@[simp] theorem setDest_wl (m : Mach) (d : Nat) (f : Dest → Dest) : (setDest m d f).wl = m.wl := rfl
@[simp] theorem setDest_ln (m : Mach) (d : Nat) (f : Dest → Dest) : (setDest m d f).ln = m.ln := rfl
@[simp] theorem setDest_eth (m : Mach) (d : Nat) (f : Dest → Dest) : (setDest m d f).eth = m.eth := rfl
@[simp] theorem setDest_flw (m : Mach) (d : Nat) (f : Dest → Dest) : (setDest m d f).flw = m.flw := rfl
@[simp] theorem setDest_cmp (m : Mach) (d : Nat) (f : Dest → Dest) : (setDest m d f).cmp = m.cmp := rfl
@[simp] theorem setDest_aud (m : Mach) (d : Nat) (f : Dest → Dest) : (setDest m d f).aud = m.aud := rfl
@[simp] theorem setDest_audCnt (m : Mach) (d : Nat) (f : Dest → Dest) : (setDest m d f).audCnt = m.audCnt := rfl
@[simp] theorem setDest_apt (m : Mach) (d : Nat) (f : Dest → Dest) : (setDest m d f).apt = m.apt := rfl
@[simp] theorem setDest_tmg (m : Mach) (d : Nat) (f : Dest → Dest) : (setDest m d f).tmg = m.tmg := rfl
@[simp] theorem setDest_dt (m : Mach) (d : Nat) (f : Dest → Dest) : (setDest m d f).dt = m.dt := rfl
@[simp] theorem setDest_mem (m : Mach) (d : Nat) (f : Dest → Dest) : (setDest m d f).mem = m.mem := rfl
@[simp] theorem setDest_bus (m : Mach) (d : Nat) (f : Dest → Dest) : (setDest m d f).bus = m.bus := rfl
@[simp] theorem setDest_pr (m : Mach) (d : Nat) (f : Dest → Dest) : (setDest m d f).pr = m.pr := rfl
@[simp] theorem setDest_pwr (m : Mach) (d : Nat) (f : Dest → Dest) : (setDest m d f).pwr = m.pwr := rfl
@[simp] theorem setDest_upd (m : Mach) (d : Nat) (f : Dest → Dest) : (setDest m d f).upd = m.upd := rfl
@[simp] theorem setDest_sys (m : Mach) (d : Nat) (f : Dest → Dest) : (setDest m d f).sys = m.sys := rfl
@[simp] theorem setDest_out (m : Mach) (d : Nat) (f : Dest → Dest) : (setDest m d f).out = m.out := rfl
@[simp] theorem setDest_images (m : Mach) (d : Nat) (f : Dest → Dest) : (setDest m d f).images = m.images := rfl

/-! `setAir` writes `xb` alone. -/

@[simp] theorem setAir_now (m : Mach) (d : Nat) (f : Air → Air) : (setAir m d f).now = m.now := rfl
@[simp] theorem setAir_free (m : Mach) (d : Nat) (f : Air → Air) : (setAir m d f).free = m.free := rfl
@[simp] theorem setAir_is (m : Mach) (d : Nat) (f : Air → Air) : (setAir m d f).is_ = m.is_ := rfl
@[simp] theorem setAir_ctl (m : Mach) (d : Nat) (f : Air → Air) : (setAir m d f).ctl = m.ctl := rfl
@[simp] theorem setAir_flt (m : Mach) (d : Nat) (f : Air → Air) : (setAir m d f).flt = m.flt := rfl
@[simp] theorem setAir_snp (m : Mach) (d : Nat) (f : Air → Air) : (setAir m d f).snp = m.snp := rfl
@[simp] theorem setAir_wl (m : Mach) (d : Nat) (f : Air → Air) : (setAir m d f).wl = m.wl := rfl
@[simp] theorem setAir_ln (m : Mach) (d : Nat) (f : Air → Air) : (setAir m d f).ln = m.ln := rfl
@[simp] theorem setAir_eth (m : Mach) (d : Nat) (f : Air → Air) : (setAir m d f).eth = m.eth := rfl
@[simp] theorem setAir_flw (m : Mach) (d : Nat) (f : Air → Air) : (setAir m d f).flw = m.flw := rfl
@[simp] theorem setAir_cmp (m : Mach) (d : Nat) (f : Air → Air) : (setAir m d f).cmp = m.cmp := rfl
@[simp] theorem setAir_aud (m : Mach) (d : Nat) (f : Air → Air) : (setAir m d f).aud = m.aud := rfl
@[simp] theorem setAir_audCnt (m : Mach) (d : Nat) (f : Air → Air) : (setAir m d f).audCnt = m.audCnt := rfl
@[simp] theorem setAir_apt (m : Mach) (d : Nat) (f : Air → Air) : (setAir m d f).apt = m.apt := rfl
@[simp] theorem setAir_tmg (m : Mach) (d : Nat) (f : Air → Air) : (setAir m d f).tmg = m.tmg := rfl
@[simp] theorem setAir_dt (m : Mach) (d : Nat) (f : Air → Air) : (setAir m d f).dt = m.dt := rfl
@[simp] theorem setAir_mem (m : Mach) (d : Nat) (f : Air → Air) : (setAir m d f).mem = m.mem := rfl
@[simp] theorem setAir_bus (m : Mach) (d : Nat) (f : Air → Air) : (setAir m d f).bus = m.bus := rfl
@[simp] theorem setAir_pr (m : Mach) (d : Nat) (f : Air → Air) : (setAir m d f).pr = m.pr := rfl
@[simp] theorem setAir_pwr (m : Mach) (d : Nat) (f : Air → Air) : (setAir m d f).pwr = m.pwr := rfl
@[simp] theorem setAir_upd (m : Mach) (d : Nat) (f : Air → Air) : (setAir m d f).upd = m.upd := rfl
@[simp] theorem setAir_sys (m : Mach) (d : Nat) (f : Air → Air) : (setAir m d f).sys = m.sys := rfl
@[simp] theorem setAir_out (m : Mach) (d : Nat) (f : Air → Air) : (setAir m d f).out = m.out := rfl
@[simp] theorem setAir_images (m : Mach) (d : Nat) (f : Air → Air) : (setAir m d f).images = m.images := rfl

/-! `setCmp` writes `cmp` alone. -/

@[simp] theorem setCmp_now (m : Mach) (k : Nat) (f : Cmp → Cmp) : (setCmp m k f).now = m.now := rfl
@[simp] theorem setCmp_free (m : Mach) (k : Nat) (f : Cmp → Cmp) : (setCmp m k f).free = m.free := rfl
@[simp] theorem setCmp_xb (m : Mach) (k : Nat) (f : Cmp → Cmp) : (setCmp m k f).xb = m.xb := rfl
@[simp] theorem setCmp_is (m : Mach) (k : Nat) (f : Cmp → Cmp) : (setCmp m k f).is_ = m.is_ := rfl
@[simp] theorem setCmp_ctl (m : Mach) (k : Nat) (f : Cmp → Cmp) : (setCmp m k f).ctl = m.ctl := rfl
@[simp] theorem setCmp_flt (m : Mach) (k : Nat) (f : Cmp → Cmp) : (setCmp m k f).flt = m.flt := rfl
@[simp] theorem setCmp_snp (m : Mach) (k : Nat) (f : Cmp → Cmp) : (setCmp m k f).snp = m.snp := rfl
@[simp] theorem setCmp_wl (m : Mach) (k : Nat) (f : Cmp → Cmp) : (setCmp m k f).wl = m.wl := rfl
@[simp] theorem setCmp_ln (m : Mach) (k : Nat) (f : Cmp → Cmp) : (setCmp m k f).ln = m.ln := rfl
@[simp] theorem setCmp_eth (m : Mach) (k : Nat) (f : Cmp → Cmp) : (setCmp m k f).eth = m.eth := rfl
@[simp] theorem setCmp_flw (m : Mach) (k : Nat) (f : Cmp → Cmp) : (setCmp m k f).flw = m.flw := rfl
@[simp] theorem setCmp_aud (m : Mach) (k : Nat) (f : Cmp → Cmp) : (setCmp m k f).aud = m.aud := rfl
@[simp] theorem setCmp_audCnt (m : Mach) (k : Nat) (f : Cmp → Cmp) : (setCmp m k f).audCnt = m.audCnt := rfl
@[simp] theorem setCmp_apt (m : Mach) (k : Nat) (f : Cmp → Cmp) : (setCmp m k f).apt = m.apt := rfl
@[simp] theorem setCmp_tmg (m : Mach) (k : Nat) (f : Cmp → Cmp) : (setCmp m k f).tmg = m.tmg := rfl
@[simp] theorem setCmp_dt (m : Mach) (k : Nat) (f : Cmp → Cmp) : (setCmp m k f).dt = m.dt := rfl
@[simp] theorem setCmp_mem (m : Mach) (k : Nat) (f : Cmp → Cmp) : (setCmp m k f).mem = m.mem := rfl
@[simp] theorem setCmp_bus (m : Mach) (k : Nat) (f : Cmp → Cmp) : (setCmp m k f).bus = m.bus := rfl
@[simp] theorem setCmp_pr (m : Mach) (k : Nat) (f : Cmp → Cmp) : (setCmp m k f).pr = m.pr := rfl
@[simp] theorem setCmp_pwr (m : Mach) (k : Nat) (f : Cmp → Cmp) : (setCmp m k f).pwr = m.pwr := rfl
@[simp] theorem setCmp_upd (m : Mach) (k : Nat) (f : Cmp → Cmp) : (setCmp m k f).upd = m.upd := rfl
@[simp] theorem setCmp_sys (m : Mach) (k : Nat) (f : Cmp → Cmp) : (setCmp m k f).sys = m.sys := rfl
@[simp] theorem setCmp_out (m : Mach) (k : Nat) (f : Cmp → Cmp) : (setCmp m k f).out = m.out := rfl
@[simp] theorem setCmp_images (m : Mach) (k : Nat) (f : Cmp → Cmp) : (setCmp m k f).images = m.images := rfl

/-! `setCmpCnt` writes `cmp` alone. -/

@[simp] theorem setCmpCnt_now (m : Mach) (k : Nat) (f : CmpCnt → CmpCnt) : (setCmpCnt m k f).now = m.now := rfl
@[simp] theorem setCmpCnt_free (m : Mach) (k : Nat) (f : CmpCnt → CmpCnt) : (setCmpCnt m k f).free = m.free := rfl
@[simp] theorem setCmpCnt_xb (m : Mach) (k : Nat) (f : CmpCnt → CmpCnt) : (setCmpCnt m k f).xb = m.xb := rfl
@[simp] theorem setCmpCnt_is (m : Mach) (k : Nat) (f : CmpCnt → CmpCnt) : (setCmpCnt m k f).is_ = m.is_ := rfl
@[simp] theorem setCmpCnt_ctl (m : Mach) (k : Nat) (f : CmpCnt → CmpCnt) : (setCmpCnt m k f).ctl = m.ctl := rfl
@[simp] theorem setCmpCnt_flt (m : Mach) (k : Nat) (f : CmpCnt → CmpCnt) : (setCmpCnt m k f).flt = m.flt := rfl
@[simp] theorem setCmpCnt_snp (m : Mach) (k : Nat) (f : CmpCnt → CmpCnt) : (setCmpCnt m k f).snp = m.snp := rfl
@[simp] theorem setCmpCnt_wl (m : Mach) (k : Nat) (f : CmpCnt → CmpCnt) : (setCmpCnt m k f).wl = m.wl := rfl
@[simp] theorem setCmpCnt_ln (m : Mach) (k : Nat) (f : CmpCnt → CmpCnt) : (setCmpCnt m k f).ln = m.ln := rfl
@[simp] theorem setCmpCnt_eth (m : Mach) (k : Nat) (f : CmpCnt → CmpCnt) : (setCmpCnt m k f).eth = m.eth := rfl
@[simp] theorem setCmpCnt_flw (m : Mach) (k : Nat) (f : CmpCnt → CmpCnt) : (setCmpCnt m k f).flw = m.flw := rfl
@[simp] theorem setCmpCnt_aud (m : Mach) (k : Nat) (f : CmpCnt → CmpCnt) : (setCmpCnt m k f).aud = m.aud := rfl
@[simp] theorem setCmpCnt_audCnt (m : Mach) (k : Nat) (f : CmpCnt → CmpCnt) : (setCmpCnt m k f).audCnt = m.audCnt := rfl
@[simp] theorem setCmpCnt_apt (m : Mach) (k : Nat) (f : CmpCnt → CmpCnt) : (setCmpCnt m k f).apt = m.apt := rfl
@[simp] theorem setCmpCnt_tmg (m : Mach) (k : Nat) (f : CmpCnt → CmpCnt) : (setCmpCnt m k f).tmg = m.tmg := rfl
@[simp] theorem setCmpCnt_dt (m : Mach) (k : Nat) (f : CmpCnt → CmpCnt) : (setCmpCnt m k f).dt = m.dt := rfl
@[simp] theorem setCmpCnt_mem (m : Mach) (k : Nat) (f : CmpCnt → CmpCnt) : (setCmpCnt m k f).mem = m.mem := rfl
@[simp] theorem setCmpCnt_bus (m : Mach) (k : Nat) (f : CmpCnt → CmpCnt) : (setCmpCnt m k f).bus = m.bus := rfl
@[simp] theorem setCmpCnt_pr (m : Mach) (k : Nat) (f : CmpCnt → CmpCnt) : (setCmpCnt m k f).pr = m.pr := rfl
@[simp] theorem setCmpCnt_pwr (m : Mach) (k : Nat) (f : CmpCnt → CmpCnt) : (setCmpCnt m k f).pwr = m.pwr := rfl
@[simp] theorem setCmpCnt_upd (m : Mach) (k : Nat) (f : CmpCnt → CmpCnt) : (setCmpCnt m k f).upd = m.upd := rfl
@[simp] theorem setCmpCnt_sys (m : Mach) (k : Nat) (f : CmpCnt → CmpCnt) : (setCmpCnt m k f).sys = m.sys := rfl
@[simp] theorem setCmpCnt_out (m : Mach) (k : Nat) (f : CmpCnt → CmpCnt) : (setCmpCnt m k f).out = m.out := rfl
@[simp] theorem setCmpCnt_images (m : Mach) (k : Nat) (f : CmpCnt → CmpCnt) : (setCmpCnt m k f).images = m.images := rfl

/-! `setSrc` writes `is_` alone. -/

@[simp] theorem setSrc_now (m : Mach) (s : Nat) (f : Src → Src) : (setSrc m s f).now = m.now := rfl
@[simp] theorem setSrc_free (m : Mach) (s : Nat) (f : Src → Src) : (setSrc m s f).free = m.free := rfl
@[simp] theorem setSrc_xb (m : Mach) (s : Nat) (f : Src → Src) : (setSrc m s f).xb = m.xb := rfl
@[simp] theorem setSrc_ctl (m : Mach) (s : Nat) (f : Src → Src) : (setSrc m s f).ctl = m.ctl := rfl
@[simp] theorem setSrc_flt (m : Mach) (s : Nat) (f : Src → Src) : (setSrc m s f).flt = m.flt := rfl
@[simp] theorem setSrc_snp (m : Mach) (s : Nat) (f : Src → Src) : (setSrc m s f).snp = m.snp := rfl
@[simp] theorem setSrc_wl (m : Mach) (s : Nat) (f : Src → Src) : (setSrc m s f).wl = m.wl := rfl
@[simp] theorem setSrc_ln (m : Mach) (s : Nat) (f : Src → Src) : (setSrc m s f).ln = m.ln := rfl
@[simp] theorem setSrc_eth (m : Mach) (s : Nat) (f : Src → Src) : (setSrc m s f).eth = m.eth := rfl
@[simp] theorem setSrc_flw (m : Mach) (s : Nat) (f : Src → Src) : (setSrc m s f).flw = m.flw := rfl
@[simp] theorem setSrc_cmp (m : Mach) (s : Nat) (f : Src → Src) : (setSrc m s f).cmp = m.cmp := rfl
@[simp] theorem setSrc_aud (m : Mach) (s : Nat) (f : Src → Src) : (setSrc m s f).aud = m.aud := rfl
@[simp] theorem setSrc_audCnt (m : Mach) (s : Nat) (f : Src → Src) : (setSrc m s f).audCnt = m.audCnt := rfl
@[simp] theorem setSrc_apt (m : Mach) (s : Nat) (f : Src → Src) : (setSrc m s f).apt = m.apt := rfl
@[simp] theorem setSrc_tmg (m : Mach) (s : Nat) (f : Src → Src) : (setSrc m s f).tmg = m.tmg := rfl
@[simp] theorem setSrc_dt (m : Mach) (s : Nat) (f : Src → Src) : (setSrc m s f).dt = m.dt := rfl
@[simp] theorem setSrc_mem (m : Mach) (s : Nat) (f : Src → Src) : (setSrc m s f).mem = m.mem := rfl
@[simp] theorem setSrc_bus (m : Mach) (s : Nat) (f : Src → Src) : (setSrc m s f).bus = m.bus := rfl
@[simp] theorem setSrc_pr (m : Mach) (s : Nat) (f : Src → Src) : (setSrc m s f).pr = m.pr := rfl
@[simp] theorem setSrc_pwr (m : Mach) (s : Nat) (f : Src → Src) : (setSrc m s f).pwr = m.pwr := rfl
@[simp] theorem setSrc_upd (m : Mach) (s : Nat) (f : Src → Src) : (setSrc m s f).upd = m.upd := rfl
@[simp] theorem setSrc_sys (m : Mach) (s : Nat) (f : Src → Src) : (setSrc m s f).sys = m.sys := rfl
@[simp] theorem setSrc_out (m : Mach) (s : Nat) (f : Src → Src) : (setSrc m s f).out = m.out := rfl
@[simp] theorem setSrc_images (m : Mach) (s : Nat) (f : Src → Src) : (setSrc m s f).images = m.images := rfl

/-! `setPair` writes `is_` alone. -/

@[simp] theorem setPair_now (m : Mach) (s p : Nat) (f : SrcPlane → SrcPlane) : (setPair m s p f).now = m.now := rfl
@[simp] theorem setPair_free (m : Mach) (s p : Nat) (f : SrcPlane → SrcPlane) : (setPair m s p f).free = m.free := rfl
@[simp] theorem setPair_xb (m : Mach) (s p : Nat) (f : SrcPlane → SrcPlane) : (setPair m s p f).xb = m.xb := rfl
@[simp] theorem setPair_ctl (m : Mach) (s p : Nat) (f : SrcPlane → SrcPlane) : (setPair m s p f).ctl = m.ctl := rfl
@[simp] theorem setPair_flt (m : Mach) (s p : Nat) (f : SrcPlane → SrcPlane) : (setPair m s p f).flt = m.flt := rfl
@[simp] theorem setPair_snp (m : Mach) (s p : Nat) (f : SrcPlane → SrcPlane) : (setPair m s p f).snp = m.snp := rfl
@[simp] theorem setPair_wl (m : Mach) (s p : Nat) (f : SrcPlane → SrcPlane) : (setPair m s p f).wl = m.wl := rfl
@[simp] theorem setPair_ln (m : Mach) (s p : Nat) (f : SrcPlane → SrcPlane) : (setPair m s p f).ln = m.ln := rfl
@[simp] theorem setPair_eth (m : Mach) (s p : Nat) (f : SrcPlane → SrcPlane) : (setPair m s p f).eth = m.eth := rfl
@[simp] theorem setPair_flw (m : Mach) (s p : Nat) (f : SrcPlane → SrcPlane) : (setPair m s p f).flw = m.flw := rfl
@[simp] theorem setPair_cmp (m : Mach) (s p : Nat) (f : SrcPlane → SrcPlane) : (setPair m s p f).cmp = m.cmp := rfl
@[simp] theorem setPair_aud (m : Mach) (s p : Nat) (f : SrcPlane → SrcPlane) : (setPair m s p f).aud = m.aud := rfl
@[simp] theorem setPair_audCnt (m : Mach) (s p : Nat) (f : SrcPlane → SrcPlane) : (setPair m s p f).audCnt = m.audCnt := rfl
@[simp] theorem setPair_apt (m : Mach) (s p : Nat) (f : SrcPlane → SrcPlane) : (setPair m s p f).apt = m.apt := rfl
@[simp] theorem setPair_tmg (m : Mach) (s p : Nat) (f : SrcPlane → SrcPlane) : (setPair m s p f).tmg = m.tmg := rfl
@[simp] theorem setPair_dt (m : Mach) (s p : Nat) (f : SrcPlane → SrcPlane) : (setPair m s p f).dt = m.dt := rfl
@[simp] theorem setPair_mem (m : Mach) (s p : Nat) (f : SrcPlane → SrcPlane) : (setPair m s p f).mem = m.mem := rfl
@[simp] theorem setPair_bus (m : Mach) (s p : Nat) (f : SrcPlane → SrcPlane) : (setPair m s p f).bus = m.bus := rfl
@[simp] theorem setPair_pr (m : Mach) (s p : Nat) (f : SrcPlane → SrcPlane) : (setPair m s p f).pr = m.pr := rfl
@[simp] theorem setPair_pwr (m : Mach) (s p : Nat) (f : SrcPlane → SrcPlane) : (setPair m s p f).pwr = m.pwr := rfl
@[simp] theorem setPair_upd (m : Mach) (s p : Nat) (f : SrcPlane → SrcPlane) : (setPair m s p f).upd = m.upd := rfl
@[simp] theorem setPair_sys (m : Mach) (s p : Nat) (f : SrcPlane → SrcPlane) : (setPair m s p f).sys = m.sys := rfl
@[simp] theorem setPair_out (m : Mach) (s p : Nat) (f : SrcPlane → SrcPlane) : (setPair m s p f).out = m.out := rfl
@[simp] theorem setPair_images (m : Mach) (s p : Nat) (f : SrcPlane → SrcPlane) : (setPair m s p f).images = m.images := rfl

/-! `setSrcCnt` writes `is_` alone. -/

@[simp] theorem setSrcCnt_now (m : Mach) (s : Nat) (f : SrcCnt → SrcCnt) : (setSrcCnt m s f).now = m.now := rfl
@[simp] theorem setSrcCnt_free (m : Mach) (s : Nat) (f : SrcCnt → SrcCnt) : (setSrcCnt m s f).free = m.free := rfl
@[simp] theorem setSrcCnt_xb (m : Mach) (s : Nat) (f : SrcCnt → SrcCnt) : (setSrcCnt m s f).xb = m.xb := rfl
@[simp] theorem setSrcCnt_ctl (m : Mach) (s : Nat) (f : SrcCnt → SrcCnt) : (setSrcCnt m s f).ctl = m.ctl := rfl
@[simp] theorem setSrcCnt_flt (m : Mach) (s : Nat) (f : SrcCnt → SrcCnt) : (setSrcCnt m s f).flt = m.flt := rfl
@[simp] theorem setSrcCnt_snp (m : Mach) (s : Nat) (f : SrcCnt → SrcCnt) : (setSrcCnt m s f).snp = m.snp := rfl
@[simp] theorem setSrcCnt_wl (m : Mach) (s : Nat) (f : SrcCnt → SrcCnt) : (setSrcCnt m s f).wl = m.wl := rfl
@[simp] theorem setSrcCnt_ln (m : Mach) (s : Nat) (f : SrcCnt → SrcCnt) : (setSrcCnt m s f).ln = m.ln := rfl
@[simp] theorem setSrcCnt_eth (m : Mach) (s : Nat) (f : SrcCnt → SrcCnt) : (setSrcCnt m s f).eth = m.eth := rfl
@[simp] theorem setSrcCnt_flw (m : Mach) (s : Nat) (f : SrcCnt → SrcCnt) : (setSrcCnt m s f).flw = m.flw := rfl
@[simp] theorem setSrcCnt_cmp (m : Mach) (s : Nat) (f : SrcCnt → SrcCnt) : (setSrcCnt m s f).cmp = m.cmp := rfl
@[simp] theorem setSrcCnt_aud (m : Mach) (s : Nat) (f : SrcCnt → SrcCnt) : (setSrcCnt m s f).aud = m.aud := rfl
@[simp] theorem setSrcCnt_audCnt (m : Mach) (s : Nat) (f : SrcCnt → SrcCnt) : (setSrcCnt m s f).audCnt = m.audCnt := rfl
@[simp] theorem setSrcCnt_apt (m : Mach) (s : Nat) (f : SrcCnt → SrcCnt) : (setSrcCnt m s f).apt = m.apt := rfl
@[simp] theorem setSrcCnt_tmg (m : Mach) (s : Nat) (f : SrcCnt → SrcCnt) : (setSrcCnt m s f).tmg = m.tmg := rfl
@[simp] theorem setSrcCnt_dt (m : Mach) (s : Nat) (f : SrcCnt → SrcCnt) : (setSrcCnt m s f).dt = m.dt := rfl
@[simp] theorem setSrcCnt_mem (m : Mach) (s : Nat) (f : SrcCnt → SrcCnt) : (setSrcCnt m s f).mem = m.mem := rfl
@[simp] theorem setSrcCnt_bus (m : Mach) (s : Nat) (f : SrcCnt → SrcCnt) : (setSrcCnt m s f).bus = m.bus := rfl
@[simp] theorem setSrcCnt_pr (m : Mach) (s : Nat) (f : SrcCnt → SrcCnt) : (setSrcCnt m s f).pr = m.pr := rfl
@[simp] theorem setSrcCnt_pwr (m : Mach) (s : Nat) (f : SrcCnt → SrcCnt) : (setSrcCnt m s f).pwr = m.pwr := rfl
@[simp] theorem setSrcCnt_upd (m : Mach) (s : Nat) (f : SrcCnt → SrcCnt) : (setSrcCnt m s f).upd = m.upd := rfl
@[simp] theorem setSrcCnt_sys (m : Mach) (s : Nat) (f : SrcCnt → SrcCnt) : (setSrcCnt m s f).sys = m.sys := rfl
@[simp] theorem setSrcCnt_out (m : Mach) (s : Nat) (f : SrcCnt → SrcCnt) : (setSrcCnt m s f).out = m.out := rfl
@[simp] theorem setSrcCnt_images (m : Mach) (s : Nat) (f : SrcCnt → SrcCnt) : (setSrcCnt m s f).images = m.images := rfl

/-! `setGrp` writes `aud` alone. -/

@[simp] theorem setGrp_now (m : Mach) (g : Nat) (f : AGroup → AGroup) : (setGrp m g f).now = m.now := rfl
@[simp] theorem setGrp_free (m : Mach) (g : Nat) (f : AGroup → AGroup) : (setGrp m g f).free = m.free := rfl
@[simp] theorem setGrp_xb (m : Mach) (g : Nat) (f : AGroup → AGroup) : (setGrp m g f).xb = m.xb := rfl
@[simp] theorem setGrp_is (m : Mach) (g : Nat) (f : AGroup → AGroup) : (setGrp m g f).is_ = m.is_ := rfl
@[simp] theorem setGrp_ctl (m : Mach) (g : Nat) (f : AGroup → AGroup) : (setGrp m g f).ctl = m.ctl := rfl
@[simp] theorem setGrp_flt (m : Mach) (g : Nat) (f : AGroup → AGroup) : (setGrp m g f).flt = m.flt := rfl
@[simp] theorem setGrp_snp (m : Mach) (g : Nat) (f : AGroup → AGroup) : (setGrp m g f).snp = m.snp := rfl
@[simp] theorem setGrp_wl (m : Mach) (g : Nat) (f : AGroup → AGroup) : (setGrp m g f).wl = m.wl := rfl
@[simp] theorem setGrp_ln (m : Mach) (g : Nat) (f : AGroup → AGroup) : (setGrp m g f).ln = m.ln := rfl
@[simp] theorem setGrp_eth (m : Mach) (g : Nat) (f : AGroup → AGroup) : (setGrp m g f).eth = m.eth := rfl
@[simp] theorem setGrp_flw (m : Mach) (g : Nat) (f : AGroup → AGroup) : (setGrp m g f).flw = m.flw := rfl
@[simp] theorem setGrp_cmp (m : Mach) (g : Nat) (f : AGroup → AGroup) : (setGrp m g f).cmp = m.cmp := rfl
@[simp] theorem setGrp_audCnt (m : Mach) (g : Nat) (f : AGroup → AGroup) : (setGrp m g f).audCnt = m.audCnt := rfl
@[simp] theorem setGrp_apt (m : Mach) (g : Nat) (f : AGroup → AGroup) : (setGrp m g f).apt = m.apt := rfl
@[simp] theorem setGrp_tmg (m : Mach) (g : Nat) (f : AGroup → AGroup) : (setGrp m g f).tmg = m.tmg := rfl
@[simp] theorem setGrp_dt (m : Mach) (g : Nat) (f : AGroup → AGroup) : (setGrp m g f).dt = m.dt := rfl
@[simp] theorem setGrp_mem (m : Mach) (g : Nat) (f : AGroup → AGroup) : (setGrp m g f).mem = m.mem := rfl
@[simp] theorem setGrp_bus (m : Mach) (g : Nat) (f : AGroup → AGroup) : (setGrp m g f).bus = m.bus := rfl
@[simp] theorem setGrp_pr (m : Mach) (g : Nat) (f : AGroup → AGroup) : (setGrp m g f).pr = m.pr := rfl
@[simp] theorem setGrp_pwr (m : Mach) (g : Nat) (f : AGroup → AGroup) : (setGrp m g f).pwr = m.pwr := rfl
@[simp] theorem setGrp_upd (m : Mach) (g : Nat) (f : AGroup → AGroup) : (setGrp m g f).upd = m.upd := rfl
@[simp] theorem setGrp_sys (m : Mach) (g : Nat) (f : AGroup → AGroup) : (setGrp m g f).sys = m.sys := rfl
@[simp] theorem setGrp_out (m : Mach) (g : Nat) (f : AGroup → AGroup) : (setGrp m g f).out = m.out := rfl
@[simp] theorem setGrp_images (m : Mach) (g : Nat) (f : AGroup → AGroup) : (setGrp m g f).images = m.images := rfl

/-! `setAdest` writes `aud` alone. -/

@[simp] theorem setAdest_now (m : Mach) (d : Nat) (f : ADest → ADest) : (setAdest m d f).now = m.now := rfl
@[simp] theorem setAdest_free (m : Mach) (d : Nat) (f : ADest → ADest) : (setAdest m d f).free = m.free := rfl
@[simp] theorem setAdest_xb (m : Mach) (d : Nat) (f : ADest → ADest) : (setAdest m d f).xb = m.xb := rfl
@[simp] theorem setAdest_is (m : Mach) (d : Nat) (f : ADest → ADest) : (setAdest m d f).is_ = m.is_ := rfl
@[simp] theorem setAdest_ctl (m : Mach) (d : Nat) (f : ADest → ADest) : (setAdest m d f).ctl = m.ctl := rfl
@[simp] theorem setAdest_flt (m : Mach) (d : Nat) (f : ADest → ADest) : (setAdest m d f).flt = m.flt := rfl
@[simp] theorem setAdest_snp (m : Mach) (d : Nat) (f : ADest → ADest) : (setAdest m d f).snp = m.snp := rfl
@[simp] theorem setAdest_wl (m : Mach) (d : Nat) (f : ADest → ADest) : (setAdest m d f).wl = m.wl := rfl
@[simp] theorem setAdest_ln (m : Mach) (d : Nat) (f : ADest → ADest) : (setAdest m d f).ln = m.ln := rfl
@[simp] theorem setAdest_eth (m : Mach) (d : Nat) (f : ADest → ADest) : (setAdest m d f).eth = m.eth := rfl
@[simp] theorem setAdest_flw (m : Mach) (d : Nat) (f : ADest → ADest) : (setAdest m d f).flw = m.flw := rfl
@[simp] theorem setAdest_cmp (m : Mach) (d : Nat) (f : ADest → ADest) : (setAdest m d f).cmp = m.cmp := rfl
@[simp] theorem setAdest_audCnt (m : Mach) (d : Nat) (f : ADest → ADest) : (setAdest m d f).audCnt = m.audCnt := rfl
@[simp] theorem setAdest_apt (m : Mach) (d : Nat) (f : ADest → ADest) : (setAdest m d f).apt = m.apt := rfl
@[simp] theorem setAdest_tmg (m : Mach) (d : Nat) (f : ADest → ADest) : (setAdest m d f).tmg = m.tmg := rfl
@[simp] theorem setAdest_dt (m : Mach) (d : Nat) (f : ADest → ADest) : (setAdest m d f).dt = m.dt := rfl
@[simp] theorem setAdest_mem (m : Mach) (d : Nat) (f : ADest → ADest) : (setAdest m d f).mem = m.mem := rfl
@[simp] theorem setAdest_bus (m : Mach) (d : Nat) (f : ADest → ADest) : (setAdest m d f).bus = m.bus := rfl
@[simp] theorem setAdest_pr (m : Mach) (d : Nat) (f : ADest → ADest) : (setAdest m d f).pr = m.pr := rfl
@[simp] theorem setAdest_pwr (m : Mach) (d : Nat) (f : ADest → ADest) : (setAdest m d f).pwr = m.pwr := rfl
@[simp] theorem setAdest_upd (m : Mach) (d : Nat) (f : ADest → ADest) : (setAdest m d f).upd = m.upd := rfl
@[simp] theorem setAdest_sys (m : Mach) (d : Nat) (f : ADest → ADest) : (setAdest m d f).sys = m.sys := rfl
@[simp] theorem setAdest_out (m : Mach) (d : Nat) (f : ADest → ADest) : (setAdest m d f).out = m.out := rfl
@[simp] theorem setAdest_images (m : Mach) (d : Nat) (f : ADest → ADest) : (setAdest m d f).images = m.images := rfl

/-! `setApt` writes `apt` alone. -/

@[simp] theorem setApt_now (m : Mach) (n : Nat) (f : Apt → Apt) : (setApt m n f).now = m.now := rfl
@[simp] theorem setApt_free (m : Mach) (n : Nat) (f : Apt → Apt) : (setApt m n f).free = m.free := rfl
@[simp] theorem setApt_xb (m : Mach) (n : Nat) (f : Apt → Apt) : (setApt m n f).xb = m.xb := rfl
@[simp] theorem setApt_is (m : Mach) (n : Nat) (f : Apt → Apt) : (setApt m n f).is_ = m.is_ := rfl
@[simp] theorem setApt_ctl (m : Mach) (n : Nat) (f : Apt → Apt) : (setApt m n f).ctl = m.ctl := rfl
@[simp] theorem setApt_flt (m : Mach) (n : Nat) (f : Apt → Apt) : (setApt m n f).flt = m.flt := rfl
@[simp] theorem setApt_snp (m : Mach) (n : Nat) (f : Apt → Apt) : (setApt m n f).snp = m.snp := rfl
@[simp] theorem setApt_wl (m : Mach) (n : Nat) (f : Apt → Apt) : (setApt m n f).wl = m.wl := rfl
@[simp] theorem setApt_ln (m : Mach) (n : Nat) (f : Apt → Apt) : (setApt m n f).ln = m.ln := rfl
@[simp] theorem setApt_eth (m : Mach) (n : Nat) (f : Apt → Apt) : (setApt m n f).eth = m.eth := rfl
@[simp] theorem setApt_flw (m : Mach) (n : Nat) (f : Apt → Apt) : (setApt m n f).flw = m.flw := rfl
@[simp] theorem setApt_cmp (m : Mach) (n : Nat) (f : Apt → Apt) : (setApt m n f).cmp = m.cmp := rfl
@[simp] theorem setApt_aud (m : Mach) (n : Nat) (f : Apt → Apt) : (setApt m n f).aud = m.aud := rfl
@[simp] theorem setApt_audCnt (m : Mach) (n : Nat) (f : Apt → Apt) : (setApt m n f).audCnt = m.audCnt := rfl
@[simp] theorem setApt_tmg (m : Mach) (n : Nat) (f : Apt → Apt) : (setApt m n f).tmg = m.tmg := rfl
@[simp] theorem setApt_dt (m : Mach) (n : Nat) (f : Apt → Apt) : (setApt m n f).dt = m.dt := rfl
@[simp] theorem setApt_mem (m : Mach) (n : Nat) (f : Apt → Apt) : (setApt m n f).mem = m.mem := rfl
@[simp] theorem setApt_bus (m : Mach) (n : Nat) (f : Apt → Apt) : (setApt m n f).bus = m.bus := rfl
@[simp] theorem setApt_pr (m : Mach) (n : Nat) (f : Apt → Apt) : (setApt m n f).pr = m.pr := rfl
@[simp] theorem setApt_pwr (m : Mach) (n : Nat) (f : Apt → Apt) : (setApt m n f).pwr = m.pwr := rfl
@[simp] theorem setApt_upd (m : Mach) (n : Nat) (f : Apt → Apt) : (setApt m n f).upd = m.upd := rfl
@[simp] theorem setApt_sys (m : Mach) (n : Nat) (f : Apt → Apt) : (setApt m n f).sys = m.sys := rfl
@[simp] theorem setApt_out (m : Mach) (n : Nat) (f : Apt → Apt) : (setApt m n f).out = m.out := rfl
@[simp] theorem setApt_images (m : Mach) (n : Nat) (f : Apt → Apt) : (setApt m n f).images = m.images := rfl

/-! `setAptCnt` writes `apt` alone. -/

@[simp] theorem setAptCnt_now (m : Mach) (n : Nat) (f : AptCnt → AptCnt) : (setAptCnt m n f).now = m.now := rfl
@[simp] theorem setAptCnt_free (m : Mach) (n : Nat) (f : AptCnt → AptCnt) : (setAptCnt m n f).free = m.free := rfl
@[simp] theorem setAptCnt_xb (m : Mach) (n : Nat) (f : AptCnt → AptCnt) : (setAptCnt m n f).xb = m.xb := rfl
@[simp] theorem setAptCnt_is (m : Mach) (n : Nat) (f : AptCnt → AptCnt) : (setAptCnt m n f).is_ = m.is_ := rfl
@[simp] theorem setAptCnt_ctl (m : Mach) (n : Nat) (f : AptCnt → AptCnt) : (setAptCnt m n f).ctl = m.ctl := rfl
@[simp] theorem setAptCnt_flt (m : Mach) (n : Nat) (f : AptCnt → AptCnt) : (setAptCnt m n f).flt = m.flt := rfl
@[simp] theorem setAptCnt_snp (m : Mach) (n : Nat) (f : AptCnt → AptCnt) : (setAptCnt m n f).snp = m.snp := rfl
@[simp] theorem setAptCnt_wl (m : Mach) (n : Nat) (f : AptCnt → AptCnt) : (setAptCnt m n f).wl = m.wl := rfl
@[simp] theorem setAptCnt_ln (m : Mach) (n : Nat) (f : AptCnt → AptCnt) : (setAptCnt m n f).ln = m.ln := rfl
@[simp] theorem setAptCnt_eth (m : Mach) (n : Nat) (f : AptCnt → AptCnt) : (setAptCnt m n f).eth = m.eth := rfl
@[simp] theorem setAptCnt_flw (m : Mach) (n : Nat) (f : AptCnt → AptCnt) : (setAptCnt m n f).flw = m.flw := rfl
@[simp] theorem setAptCnt_cmp (m : Mach) (n : Nat) (f : AptCnt → AptCnt) : (setAptCnt m n f).cmp = m.cmp := rfl
@[simp] theorem setAptCnt_aud (m : Mach) (n : Nat) (f : AptCnt → AptCnt) : (setAptCnt m n f).aud = m.aud := rfl
@[simp] theorem setAptCnt_audCnt (m : Mach) (n : Nat) (f : AptCnt → AptCnt) : (setAptCnt m n f).audCnt = m.audCnt := rfl
@[simp] theorem setAptCnt_tmg (m : Mach) (n : Nat) (f : AptCnt → AptCnt) : (setAptCnt m n f).tmg = m.tmg := rfl
@[simp] theorem setAptCnt_dt (m : Mach) (n : Nat) (f : AptCnt → AptCnt) : (setAptCnt m n f).dt = m.dt := rfl
@[simp] theorem setAptCnt_mem (m : Mach) (n : Nat) (f : AptCnt → AptCnt) : (setAptCnt m n f).mem = m.mem := rfl
@[simp] theorem setAptCnt_bus (m : Mach) (n : Nat) (f : AptCnt → AptCnt) : (setAptCnt m n f).bus = m.bus := rfl
@[simp] theorem setAptCnt_pr (m : Mach) (n : Nat) (f : AptCnt → AptCnt) : (setAptCnt m n f).pr = m.pr := rfl
@[simp] theorem setAptCnt_pwr (m : Mach) (n : Nat) (f : AptCnt → AptCnt) : (setAptCnt m n f).pwr = m.pwr := rfl
@[simp] theorem setAptCnt_upd (m : Mach) (n : Nat) (f : AptCnt → AptCnt) : (setAptCnt m n f).upd = m.upd := rfl
@[simp] theorem setAptCnt_sys (m : Mach) (n : Nat) (f : AptCnt → AptCnt) : (setAptCnt m n f).sys = m.sys := rfl
@[simp] theorem setAptCnt_out (m : Mach) (n : Nat) (f : AptCnt → AptCnt) : (setAptCnt m n f).out = m.out := rfl
@[simp] theorem setAptCnt_images (m : Mach) (n : Nat) (f : AptCnt → AptCnt) : (setAptCnt m n f).images = m.images := rfl

/-! `setRx` writes `wl` alone. -/

@[simp] theorem setRx_now (m : Mach) (l : Nat) (f : WlRx → WlRx) : (setRx m l f).now = m.now := rfl
@[simp] theorem setRx_free (m : Mach) (l : Nat) (f : WlRx → WlRx) : (setRx m l f).free = m.free := rfl
@[simp] theorem setRx_xb (m : Mach) (l : Nat) (f : WlRx → WlRx) : (setRx m l f).xb = m.xb := rfl
@[simp] theorem setRx_is (m : Mach) (l : Nat) (f : WlRx → WlRx) : (setRx m l f).is_ = m.is_ := rfl
@[simp] theorem setRx_ctl (m : Mach) (l : Nat) (f : WlRx → WlRx) : (setRx m l f).ctl = m.ctl := rfl
@[simp] theorem setRx_flt (m : Mach) (l : Nat) (f : WlRx → WlRx) : (setRx m l f).flt = m.flt := rfl
@[simp] theorem setRx_snp (m : Mach) (l : Nat) (f : WlRx → WlRx) : (setRx m l f).snp = m.snp := rfl
@[simp] theorem setRx_ln (m : Mach) (l : Nat) (f : WlRx → WlRx) : (setRx m l f).ln = m.ln := rfl
@[simp] theorem setRx_eth (m : Mach) (l : Nat) (f : WlRx → WlRx) : (setRx m l f).eth = m.eth := rfl
@[simp] theorem setRx_flw (m : Mach) (l : Nat) (f : WlRx → WlRx) : (setRx m l f).flw = m.flw := rfl
@[simp] theorem setRx_cmp (m : Mach) (l : Nat) (f : WlRx → WlRx) : (setRx m l f).cmp = m.cmp := rfl
@[simp] theorem setRx_aud (m : Mach) (l : Nat) (f : WlRx → WlRx) : (setRx m l f).aud = m.aud := rfl
@[simp] theorem setRx_audCnt (m : Mach) (l : Nat) (f : WlRx → WlRx) : (setRx m l f).audCnt = m.audCnt := rfl
@[simp] theorem setRx_apt (m : Mach) (l : Nat) (f : WlRx → WlRx) : (setRx m l f).apt = m.apt := rfl
@[simp] theorem setRx_tmg (m : Mach) (l : Nat) (f : WlRx → WlRx) : (setRx m l f).tmg = m.tmg := rfl
@[simp] theorem setRx_dt (m : Mach) (l : Nat) (f : WlRx → WlRx) : (setRx m l f).dt = m.dt := rfl
@[simp] theorem setRx_mem (m : Mach) (l : Nat) (f : WlRx → WlRx) : (setRx m l f).mem = m.mem := rfl
@[simp] theorem setRx_bus (m : Mach) (l : Nat) (f : WlRx → WlRx) : (setRx m l f).bus = m.bus := rfl
@[simp] theorem setRx_pr (m : Mach) (l : Nat) (f : WlRx → WlRx) : (setRx m l f).pr = m.pr := rfl
@[simp] theorem setRx_pwr (m : Mach) (l : Nat) (f : WlRx → WlRx) : (setRx m l f).pwr = m.pwr := rfl
@[simp] theorem setRx_upd (m : Mach) (l : Nat) (f : WlRx → WlRx) : (setRx m l f).upd = m.upd := rfl
@[simp] theorem setRx_sys (m : Mach) (l : Nat) (f : WlRx → WlRx) : (setRx m l f).sys = m.sys := rfl
@[simp] theorem setRx_out (m : Mach) (l : Nat) (f : WlRx → WlRx) : (setRx m l f).out = m.out := rfl
@[simp] theorem setRx_images (m : Mach) (l : Nat) (f : WlRx → WlRx) : (setRx m l f).images = m.images := rfl

/-! `setTx` writes `wl` alone. -/

@[simp] theorem setTx_now (m : Mach) (l : Nat) (f : WlTx → WlTx) : (setTx m l f).now = m.now := rfl
@[simp] theorem setTx_free (m : Mach) (l : Nat) (f : WlTx → WlTx) : (setTx m l f).free = m.free := rfl
@[simp] theorem setTx_xb (m : Mach) (l : Nat) (f : WlTx → WlTx) : (setTx m l f).xb = m.xb := rfl
@[simp] theorem setTx_is (m : Mach) (l : Nat) (f : WlTx → WlTx) : (setTx m l f).is_ = m.is_ := rfl
@[simp] theorem setTx_ctl (m : Mach) (l : Nat) (f : WlTx → WlTx) : (setTx m l f).ctl = m.ctl := rfl
@[simp] theorem setTx_flt (m : Mach) (l : Nat) (f : WlTx → WlTx) : (setTx m l f).flt = m.flt := rfl
@[simp] theorem setTx_snp (m : Mach) (l : Nat) (f : WlTx → WlTx) : (setTx m l f).snp = m.snp := rfl
@[simp] theorem setTx_ln (m : Mach) (l : Nat) (f : WlTx → WlTx) : (setTx m l f).ln = m.ln := rfl
@[simp] theorem setTx_eth (m : Mach) (l : Nat) (f : WlTx → WlTx) : (setTx m l f).eth = m.eth := rfl
@[simp] theorem setTx_flw (m : Mach) (l : Nat) (f : WlTx → WlTx) : (setTx m l f).flw = m.flw := rfl
@[simp] theorem setTx_cmp (m : Mach) (l : Nat) (f : WlTx → WlTx) : (setTx m l f).cmp = m.cmp := rfl
@[simp] theorem setTx_aud (m : Mach) (l : Nat) (f : WlTx → WlTx) : (setTx m l f).aud = m.aud := rfl
@[simp] theorem setTx_audCnt (m : Mach) (l : Nat) (f : WlTx → WlTx) : (setTx m l f).audCnt = m.audCnt := rfl
@[simp] theorem setTx_apt (m : Mach) (l : Nat) (f : WlTx → WlTx) : (setTx m l f).apt = m.apt := rfl
@[simp] theorem setTx_tmg (m : Mach) (l : Nat) (f : WlTx → WlTx) : (setTx m l f).tmg = m.tmg := rfl
@[simp] theorem setTx_dt (m : Mach) (l : Nat) (f : WlTx → WlTx) : (setTx m l f).dt = m.dt := rfl
@[simp] theorem setTx_mem (m : Mach) (l : Nat) (f : WlTx → WlTx) : (setTx m l f).mem = m.mem := rfl
@[simp] theorem setTx_bus (m : Mach) (l : Nat) (f : WlTx → WlTx) : (setTx m l f).bus = m.bus := rfl
@[simp] theorem setTx_pr (m : Mach) (l : Nat) (f : WlTx → WlTx) : (setTx m l f).pr = m.pr := rfl
@[simp] theorem setTx_pwr (m : Mach) (l : Nat) (f : WlTx → WlTx) : (setTx m l f).pwr = m.pwr := rfl
@[simp] theorem setTx_upd (m : Mach) (l : Nat) (f : WlTx → WlTx) : (setTx m l f).upd = m.upd := rfl
@[simp] theorem setTx_sys (m : Mach) (l : Nat) (f : WlTx → WlTx) : (setTx m l f).sys = m.sys := rfl
@[simp] theorem setTx_out (m : Mach) (l : Nat) (f : WlTx → WlTx) : (setTx m l f).out = m.out := rfl
@[simp] theorem setTx_images (m : Mach) (l : Nat) (f : WlTx → WlTx) : (setTx m l f).images = m.images := rfl

/-! `setWlCnt` writes `wl` alone. -/

@[simp] theorem setWlCnt_now (m : Mach) (l : Nat) (f : WlCnt → WlCnt) : (setWlCnt m l f).now = m.now := rfl
@[simp] theorem setWlCnt_free (m : Mach) (l : Nat) (f : WlCnt → WlCnt) : (setWlCnt m l f).free = m.free := rfl
@[simp] theorem setWlCnt_xb (m : Mach) (l : Nat) (f : WlCnt → WlCnt) : (setWlCnt m l f).xb = m.xb := rfl
@[simp] theorem setWlCnt_is (m : Mach) (l : Nat) (f : WlCnt → WlCnt) : (setWlCnt m l f).is_ = m.is_ := rfl
@[simp] theorem setWlCnt_ctl (m : Mach) (l : Nat) (f : WlCnt → WlCnt) : (setWlCnt m l f).ctl = m.ctl := rfl
@[simp] theorem setWlCnt_flt (m : Mach) (l : Nat) (f : WlCnt → WlCnt) : (setWlCnt m l f).flt = m.flt := rfl
@[simp] theorem setWlCnt_snp (m : Mach) (l : Nat) (f : WlCnt → WlCnt) : (setWlCnt m l f).snp = m.snp := rfl
@[simp] theorem setWlCnt_ln (m : Mach) (l : Nat) (f : WlCnt → WlCnt) : (setWlCnt m l f).ln = m.ln := rfl
@[simp] theorem setWlCnt_eth (m : Mach) (l : Nat) (f : WlCnt → WlCnt) : (setWlCnt m l f).eth = m.eth := rfl
@[simp] theorem setWlCnt_flw (m : Mach) (l : Nat) (f : WlCnt → WlCnt) : (setWlCnt m l f).flw = m.flw := rfl
@[simp] theorem setWlCnt_cmp (m : Mach) (l : Nat) (f : WlCnt → WlCnt) : (setWlCnt m l f).cmp = m.cmp := rfl
@[simp] theorem setWlCnt_aud (m : Mach) (l : Nat) (f : WlCnt → WlCnt) : (setWlCnt m l f).aud = m.aud := rfl
@[simp] theorem setWlCnt_audCnt (m : Mach) (l : Nat) (f : WlCnt → WlCnt) : (setWlCnt m l f).audCnt = m.audCnt := rfl
@[simp] theorem setWlCnt_apt (m : Mach) (l : Nat) (f : WlCnt → WlCnt) : (setWlCnt m l f).apt = m.apt := rfl
@[simp] theorem setWlCnt_tmg (m : Mach) (l : Nat) (f : WlCnt → WlCnt) : (setWlCnt m l f).tmg = m.tmg := rfl
@[simp] theorem setWlCnt_dt (m : Mach) (l : Nat) (f : WlCnt → WlCnt) : (setWlCnt m l f).dt = m.dt := rfl
@[simp] theorem setWlCnt_mem (m : Mach) (l : Nat) (f : WlCnt → WlCnt) : (setWlCnt m l f).mem = m.mem := rfl
@[simp] theorem setWlCnt_bus (m : Mach) (l : Nat) (f : WlCnt → WlCnt) : (setWlCnt m l f).bus = m.bus := rfl
@[simp] theorem setWlCnt_pr (m : Mach) (l : Nat) (f : WlCnt → WlCnt) : (setWlCnt m l f).pr = m.pr := rfl
@[simp] theorem setWlCnt_pwr (m : Mach) (l : Nat) (f : WlCnt → WlCnt) : (setWlCnt m l f).pwr = m.pwr := rfl
@[simp] theorem setWlCnt_upd (m : Mach) (l : Nat) (f : WlCnt → WlCnt) : (setWlCnt m l f).upd = m.upd := rfl
@[simp] theorem setWlCnt_sys (m : Mach) (l : Nat) (f : WlCnt → WlCnt) : (setWlCnt m l f).sys = m.sys := rfl
@[simp] theorem setWlCnt_out (m : Mach) (l : Nat) (f : WlCnt → WlCnt) : (setWlCnt m l f).out = m.out := rfl
@[simp] theorem setWlCnt_images (m : Mach) (l : Nat) (f : WlCnt → WlCnt) : (setWlCnt m l f).images = m.images := rfl

/-! `setLane` writes `ln` alone. -/

@[simp] theorem setLane_now (m : Mach) (k : Nat) (f : Lane → Lane) : (setLane m k f).now = m.now := rfl
@[simp] theorem setLane_free (m : Mach) (k : Nat) (f : Lane → Lane) : (setLane m k f).free = m.free := rfl
@[simp] theorem setLane_xb (m : Mach) (k : Nat) (f : Lane → Lane) : (setLane m k f).xb = m.xb := rfl
@[simp] theorem setLane_is (m : Mach) (k : Nat) (f : Lane → Lane) : (setLane m k f).is_ = m.is_ := rfl
@[simp] theorem setLane_ctl (m : Mach) (k : Nat) (f : Lane → Lane) : (setLane m k f).ctl = m.ctl := rfl
@[simp] theorem setLane_flt (m : Mach) (k : Nat) (f : Lane → Lane) : (setLane m k f).flt = m.flt := rfl
@[simp] theorem setLane_snp (m : Mach) (k : Nat) (f : Lane → Lane) : (setLane m k f).snp = m.snp := rfl
@[simp] theorem setLane_wl (m : Mach) (k : Nat) (f : Lane → Lane) : (setLane m k f).wl = m.wl := rfl
@[simp] theorem setLane_eth (m : Mach) (k : Nat) (f : Lane → Lane) : (setLane m k f).eth = m.eth := rfl
@[simp] theorem setLane_flw (m : Mach) (k : Nat) (f : Lane → Lane) : (setLane m k f).flw = m.flw := rfl
@[simp] theorem setLane_cmp (m : Mach) (k : Nat) (f : Lane → Lane) : (setLane m k f).cmp = m.cmp := rfl
@[simp] theorem setLane_aud (m : Mach) (k : Nat) (f : Lane → Lane) : (setLane m k f).aud = m.aud := rfl
@[simp] theorem setLane_audCnt (m : Mach) (k : Nat) (f : Lane → Lane) : (setLane m k f).audCnt = m.audCnt := rfl
@[simp] theorem setLane_apt (m : Mach) (k : Nat) (f : Lane → Lane) : (setLane m k f).apt = m.apt := rfl
@[simp] theorem setLane_tmg (m : Mach) (k : Nat) (f : Lane → Lane) : (setLane m k f).tmg = m.tmg := rfl
@[simp] theorem setLane_dt (m : Mach) (k : Nat) (f : Lane → Lane) : (setLane m k f).dt = m.dt := rfl
@[simp] theorem setLane_mem (m : Mach) (k : Nat) (f : Lane → Lane) : (setLane m k f).mem = m.mem := rfl
@[simp] theorem setLane_bus (m : Mach) (k : Nat) (f : Lane → Lane) : (setLane m k f).bus = m.bus := rfl
@[simp] theorem setLane_pr (m : Mach) (k : Nat) (f : Lane → Lane) : (setLane m k f).pr = m.pr := rfl
@[simp] theorem setLane_pwr (m : Mach) (k : Nat) (f : Lane → Lane) : (setLane m k f).pwr = m.pwr := rfl
@[simp] theorem setLane_upd (m : Mach) (k : Nat) (f : Lane → Lane) : (setLane m k f).upd = m.upd := rfl
@[simp] theorem setLane_sys (m : Mach) (k : Nat) (f : Lane → Lane) : (setLane m k f).sys = m.sys := rfl
@[simp] theorem setLane_out (m : Mach) (k : Nat) (f : Lane → Lane) : (setLane m k f).out = m.out := rfl
@[simp] theorem setLane_images (m : Mach) (k : Nat) (f : Lane → Lane) : (setLane m k f).images = m.images := rfl

/-! `setMac` writes `eth` alone. -/

@[simp] theorem setMac_now (m : Mach) (k : Nat) (f : Mac → Mac) : (setMac m k f).now = m.now := rfl
@[simp] theorem setMac_free (m : Mach) (k : Nat) (f : Mac → Mac) : (setMac m k f).free = m.free := rfl
@[simp] theorem setMac_xb (m : Mach) (k : Nat) (f : Mac → Mac) : (setMac m k f).xb = m.xb := rfl
@[simp] theorem setMac_is (m : Mach) (k : Nat) (f : Mac → Mac) : (setMac m k f).is_ = m.is_ := rfl
@[simp] theorem setMac_ctl (m : Mach) (k : Nat) (f : Mac → Mac) : (setMac m k f).ctl = m.ctl := rfl
@[simp] theorem setMac_flt (m : Mach) (k : Nat) (f : Mac → Mac) : (setMac m k f).flt = m.flt := rfl
@[simp] theorem setMac_snp (m : Mach) (k : Nat) (f : Mac → Mac) : (setMac m k f).snp = m.snp := rfl
@[simp] theorem setMac_wl (m : Mach) (k : Nat) (f : Mac → Mac) : (setMac m k f).wl = m.wl := rfl
@[simp] theorem setMac_ln (m : Mach) (k : Nat) (f : Mac → Mac) : (setMac m k f).ln = m.ln := rfl
@[simp] theorem setMac_flw (m : Mach) (k : Nat) (f : Mac → Mac) : (setMac m k f).flw = m.flw := rfl
@[simp] theorem setMac_cmp (m : Mach) (k : Nat) (f : Mac → Mac) : (setMac m k f).cmp = m.cmp := rfl
@[simp] theorem setMac_aud (m : Mach) (k : Nat) (f : Mac → Mac) : (setMac m k f).aud = m.aud := rfl
@[simp] theorem setMac_audCnt (m : Mach) (k : Nat) (f : Mac → Mac) : (setMac m k f).audCnt = m.audCnt := rfl
@[simp] theorem setMac_apt (m : Mach) (k : Nat) (f : Mac → Mac) : (setMac m k f).apt = m.apt := rfl
@[simp] theorem setMac_tmg (m : Mach) (k : Nat) (f : Mac → Mac) : (setMac m k f).tmg = m.tmg := rfl
@[simp] theorem setMac_dt (m : Mach) (k : Nat) (f : Mac → Mac) : (setMac m k f).dt = m.dt := rfl
@[simp] theorem setMac_mem (m : Mach) (k : Nat) (f : Mac → Mac) : (setMac m k f).mem = m.mem := rfl
@[simp] theorem setMac_bus (m : Mach) (k : Nat) (f : Mac → Mac) : (setMac m k f).bus = m.bus := rfl
@[simp] theorem setMac_pr (m : Mach) (k : Nat) (f : Mac → Mac) : (setMac m k f).pr = m.pr := rfl
@[simp] theorem setMac_pwr (m : Mach) (k : Nat) (f : Mac → Mac) : (setMac m k f).pwr = m.pwr := rfl
@[simp] theorem setMac_upd (m : Mach) (k : Nat) (f : Mac → Mac) : (setMac m k f).upd = m.upd := rfl
@[simp] theorem setMac_sys (m : Mach) (k : Nat) (f : Mac → Mac) : (setMac m k f).sys = m.sys := rfl
@[simp] theorem setMac_out (m : Mach) (k : Nat) (f : Mac → Mac) : (setMac m k f).out = m.out := rfl
@[simp] theorem setMac_images (m : Mach) (k : Nat) (f : Mac → Mac) : (setMac m k f).images = m.images := rfl

/-! `setMacCnt` writes `eth` alone. -/

@[simp] theorem setMacCnt_now (m : Mach) (k : Nat) (f : MacCnt → MacCnt) : (setMacCnt m k f).now = m.now := rfl
@[simp] theorem setMacCnt_free (m : Mach) (k : Nat) (f : MacCnt → MacCnt) : (setMacCnt m k f).free = m.free := rfl
@[simp] theorem setMacCnt_xb (m : Mach) (k : Nat) (f : MacCnt → MacCnt) : (setMacCnt m k f).xb = m.xb := rfl
@[simp] theorem setMacCnt_is (m : Mach) (k : Nat) (f : MacCnt → MacCnt) : (setMacCnt m k f).is_ = m.is_ := rfl
@[simp] theorem setMacCnt_ctl (m : Mach) (k : Nat) (f : MacCnt → MacCnt) : (setMacCnt m k f).ctl = m.ctl := rfl
@[simp] theorem setMacCnt_flt (m : Mach) (k : Nat) (f : MacCnt → MacCnt) : (setMacCnt m k f).flt = m.flt := rfl
@[simp] theorem setMacCnt_snp (m : Mach) (k : Nat) (f : MacCnt → MacCnt) : (setMacCnt m k f).snp = m.snp := rfl
@[simp] theorem setMacCnt_wl (m : Mach) (k : Nat) (f : MacCnt → MacCnt) : (setMacCnt m k f).wl = m.wl := rfl
@[simp] theorem setMacCnt_ln (m : Mach) (k : Nat) (f : MacCnt → MacCnt) : (setMacCnt m k f).ln = m.ln := rfl
@[simp] theorem setMacCnt_flw (m : Mach) (k : Nat) (f : MacCnt → MacCnt) : (setMacCnt m k f).flw = m.flw := rfl
@[simp] theorem setMacCnt_cmp (m : Mach) (k : Nat) (f : MacCnt → MacCnt) : (setMacCnt m k f).cmp = m.cmp := rfl
@[simp] theorem setMacCnt_aud (m : Mach) (k : Nat) (f : MacCnt → MacCnt) : (setMacCnt m k f).aud = m.aud := rfl
@[simp] theorem setMacCnt_audCnt (m : Mach) (k : Nat) (f : MacCnt → MacCnt) : (setMacCnt m k f).audCnt = m.audCnt := rfl
@[simp] theorem setMacCnt_apt (m : Mach) (k : Nat) (f : MacCnt → MacCnt) : (setMacCnt m k f).apt = m.apt := rfl
@[simp] theorem setMacCnt_tmg (m : Mach) (k : Nat) (f : MacCnt → MacCnt) : (setMacCnt m k f).tmg = m.tmg := rfl
@[simp] theorem setMacCnt_dt (m : Mach) (k : Nat) (f : MacCnt → MacCnt) : (setMacCnt m k f).dt = m.dt := rfl
@[simp] theorem setMacCnt_mem (m : Mach) (k : Nat) (f : MacCnt → MacCnt) : (setMacCnt m k f).mem = m.mem := rfl
@[simp] theorem setMacCnt_bus (m : Mach) (k : Nat) (f : MacCnt → MacCnt) : (setMacCnt m k f).bus = m.bus := rfl
@[simp] theorem setMacCnt_pr (m : Mach) (k : Nat) (f : MacCnt → MacCnt) : (setMacCnt m k f).pr = m.pr := rfl
@[simp] theorem setMacCnt_pwr (m : Mach) (k : Nat) (f : MacCnt → MacCnt) : (setMacCnt m k f).pwr = m.pwr := rfl
@[simp] theorem setMacCnt_upd (m : Mach) (k : Nat) (f : MacCnt → MacCnt) : (setMacCnt m k f).upd = m.upd := rfl
@[simp] theorem setMacCnt_sys (m : Mach) (k : Nat) (f : MacCnt → MacCnt) : (setMacCnt m k f).sys = m.sys := rfl
@[simp] theorem setMacCnt_out (m : Mach) (k : Nat) (f : MacCnt → MacCnt) : (setMacCnt m k f).out = m.out := rfl
@[simp] theorem setMacCnt_images (m : Mach) (k : Nat) (f : MacCnt → MacCnt) : (setMacCnt m k f).images = m.images := rfl

/-! `setCtx` writes `flw` alone. -/

@[simp] theorem setCtx_now (m : Mach) (c : Nat) (f : Ctx → Ctx) : (setCtx m c f).now = m.now := rfl
@[simp] theorem setCtx_free (m : Mach) (c : Nat) (f : Ctx → Ctx) : (setCtx m c f).free = m.free := rfl
@[simp] theorem setCtx_xb (m : Mach) (c : Nat) (f : Ctx → Ctx) : (setCtx m c f).xb = m.xb := rfl
@[simp] theorem setCtx_is (m : Mach) (c : Nat) (f : Ctx → Ctx) : (setCtx m c f).is_ = m.is_ := rfl
@[simp] theorem setCtx_ctl (m : Mach) (c : Nat) (f : Ctx → Ctx) : (setCtx m c f).ctl = m.ctl := rfl
@[simp] theorem setCtx_flt (m : Mach) (c : Nat) (f : Ctx → Ctx) : (setCtx m c f).flt = m.flt := rfl
@[simp] theorem setCtx_snp (m : Mach) (c : Nat) (f : Ctx → Ctx) : (setCtx m c f).snp = m.snp := rfl
@[simp] theorem setCtx_wl (m : Mach) (c : Nat) (f : Ctx → Ctx) : (setCtx m c f).wl = m.wl := rfl
@[simp] theorem setCtx_ln (m : Mach) (c : Nat) (f : Ctx → Ctx) : (setCtx m c f).ln = m.ln := rfl
@[simp] theorem setCtx_eth (m : Mach) (c : Nat) (f : Ctx → Ctx) : (setCtx m c f).eth = m.eth := rfl
@[simp] theorem setCtx_cmp (m : Mach) (c : Nat) (f : Ctx → Ctx) : (setCtx m c f).cmp = m.cmp := rfl
@[simp] theorem setCtx_aud (m : Mach) (c : Nat) (f : Ctx → Ctx) : (setCtx m c f).aud = m.aud := rfl
@[simp] theorem setCtx_audCnt (m : Mach) (c : Nat) (f : Ctx → Ctx) : (setCtx m c f).audCnt = m.audCnt := rfl
@[simp] theorem setCtx_apt (m : Mach) (c : Nat) (f : Ctx → Ctx) : (setCtx m c f).apt = m.apt := rfl
@[simp] theorem setCtx_tmg (m : Mach) (c : Nat) (f : Ctx → Ctx) : (setCtx m c f).tmg = m.tmg := rfl
@[simp] theorem setCtx_dt (m : Mach) (c : Nat) (f : Ctx → Ctx) : (setCtx m c f).dt = m.dt := rfl
@[simp] theorem setCtx_mem (m : Mach) (c : Nat) (f : Ctx → Ctx) : (setCtx m c f).mem = m.mem := rfl
@[simp] theorem setCtx_bus (m : Mach) (c : Nat) (f : Ctx → Ctx) : (setCtx m c f).bus = m.bus := rfl
@[simp] theorem setCtx_pr (m : Mach) (c : Nat) (f : Ctx → Ctx) : (setCtx m c f).pr = m.pr := rfl
@[simp] theorem setCtx_pwr (m : Mach) (c : Nat) (f : Ctx → Ctx) : (setCtx m c f).pwr = m.pwr := rfl
@[simp] theorem setCtx_upd (m : Mach) (c : Nat) (f : Ctx → Ctx) : (setCtx m c f).upd = m.upd := rfl
@[simp] theorem setCtx_sys (m : Mach) (c : Nat) (f : Ctx → Ctx) : (setCtx m c f).sys = m.sys := rfl
@[simp] theorem setCtx_out (m : Mach) (c : Nat) (f : Ctx → Ctx) : (setCtx m c f).out = m.out := rfl
@[simp] theorem setCtx_images (m : Mach) (c : Nat) (f : Ctx → Ctx) : (setCtx m c f).images = m.images := rfl

/-! `setCtxCnt` writes `flw` alone. -/

@[simp] theorem setCtxCnt_now (m : Mach) (c : Nat) (f : CtxCnt → CtxCnt) : (setCtxCnt m c f).now = m.now := rfl
@[simp] theorem setCtxCnt_free (m : Mach) (c : Nat) (f : CtxCnt → CtxCnt) : (setCtxCnt m c f).free = m.free := rfl
@[simp] theorem setCtxCnt_xb (m : Mach) (c : Nat) (f : CtxCnt → CtxCnt) : (setCtxCnt m c f).xb = m.xb := rfl
@[simp] theorem setCtxCnt_is (m : Mach) (c : Nat) (f : CtxCnt → CtxCnt) : (setCtxCnt m c f).is_ = m.is_ := rfl
@[simp] theorem setCtxCnt_ctl (m : Mach) (c : Nat) (f : CtxCnt → CtxCnt) : (setCtxCnt m c f).ctl = m.ctl := rfl
@[simp] theorem setCtxCnt_flt (m : Mach) (c : Nat) (f : CtxCnt → CtxCnt) : (setCtxCnt m c f).flt = m.flt := rfl
@[simp] theorem setCtxCnt_snp (m : Mach) (c : Nat) (f : CtxCnt → CtxCnt) : (setCtxCnt m c f).snp = m.snp := rfl
@[simp] theorem setCtxCnt_wl (m : Mach) (c : Nat) (f : CtxCnt → CtxCnt) : (setCtxCnt m c f).wl = m.wl := rfl
@[simp] theorem setCtxCnt_ln (m : Mach) (c : Nat) (f : CtxCnt → CtxCnt) : (setCtxCnt m c f).ln = m.ln := rfl
@[simp] theorem setCtxCnt_eth (m : Mach) (c : Nat) (f : CtxCnt → CtxCnt) : (setCtxCnt m c f).eth = m.eth := rfl
@[simp] theorem setCtxCnt_cmp (m : Mach) (c : Nat) (f : CtxCnt → CtxCnt) : (setCtxCnt m c f).cmp = m.cmp := rfl
@[simp] theorem setCtxCnt_aud (m : Mach) (c : Nat) (f : CtxCnt → CtxCnt) : (setCtxCnt m c f).aud = m.aud := rfl
@[simp] theorem setCtxCnt_audCnt (m : Mach) (c : Nat) (f : CtxCnt → CtxCnt) : (setCtxCnt m c f).audCnt = m.audCnt := rfl
@[simp] theorem setCtxCnt_apt (m : Mach) (c : Nat) (f : CtxCnt → CtxCnt) : (setCtxCnt m c f).apt = m.apt := rfl
@[simp] theorem setCtxCnt_tmg (m : Mach) (c : Nat) (f : CtxCnt → CtxCnt) : (setCtxCnt m c f).tmg = m.tmg := rfl
@[simp] theorem setCtxCnt_dt (m : Mach) (c : Nat) (f : CtxCnt → CtxCnt) : (setCtxCnt m c f).dt = m.dt := rfl
@[simp] theorem setCtxCnt_mem (m : Mach) (c : Nat) (f : CtxCnt → CtxCnt) : (setCtxCnt m c f).mem = m.mem := rfl
@[simp] theorem setCtxCnt_bus (m : Mach) (c : Nat) (f : CtxCnt → CtxCnt) : (setCtxCnt m c f).bus = m.bus := rfl
@[simp] theorem setCtxCnt_pr (m : Mach) (c : Nat) (f : CtxCnt → CtxCnt) : (setCtxCnt m c f).pr = m.pr := rfl
@[simp] theorem setCtxCnt_pwr (m : Mach) (c : Nat) (f : CtxCnt → CtxCnt) : (setCtxCnt m c f).pwr = m.pwr := rfl
@[simp] theorem setCtxCnt_upd (m : Mach) (c : Nat) (f : CtxCnt → CtxCnt) : (setCtxCnt m c f).upd = m.upd := rfl
@[simp] theorem setCtxCnt_sys (m : Mach) (c : Nat) (f : CtxCnt → CtxCnt) : (setCtxCnt m c f).sys = m.sys := rfl
@[simp] theorem setCtxCnt_out (m : Mach) (c : Nat) (f : CtxCnt → CtxCnt) : (setCtxCnt m c f).out = m.out := rfl
@[simp] theorem setCtxCnt_images (m : Mach) (c : Nat) (f : CtxCnt → CtxCnt) : (setCtxCnt m c f).images = m.images := rfl

/-! `setIngress` writes `flw` alone. -/

@[simp] theorem setIngress_now (m : Mach) (p : Nat) (f : Ingress → Ingress) : (setIngress m p f).now = m.now := rfl
@[simp] theorem setIngress_free (m : Mach) (p : Nat) (f : Ingress → Ingress) : (setIngress m p f).free = m.free := rfl
@[simp] theorem setIngress_xb (m : Mach) (p : Nat) (f : Ingress → Ingress) : (setIngress m p f).xb = m.xb := rfl
@[simp] theorem setIngress_is (m : Mach) (p : Nat) (f : Ingress → Ingress) : (setIngress m p f).is_ = m.is_ := rfl
@[simp] theorem setIngress_ctl (m : Mach) (p : Nat) (f : Ingress → Ingress) : (setIngress m p f).ctl = m.ctl := rfl
@[simp] theorem setIngress_flt (m : Mach) (p : Nat) (f : Ingress → Ingress) : (setIngress m p f).flt = m.flt := rfl
@[simp] theorem setIngress_snp (m : Mach) (p : Nat) (f : Ingress → Ingress) : (setIngress m p f).snp = m.snp := rfl
@[simp] theorem setIngress_wl (m : Mach) (p : Nat) (f : Ingress → Ingress) : (setIngress m p f).wl = m.wl := rfl
@[simp] theorem setIngress_ln (m : Mach) (p : Nat) (f : Ingress → Ingress) : (setIngress m p f).ln = m.ln := rfl
@[simp] theorem setIngress_eth (m : Mach) (p : Nat) (f : Ingress → Ingress) : (setIngress m p f).eth = m.eth := rfl
@[simp] theorem setIngress_cmp (m : Mach) (p : Nat) (f : Ingress → Ingress) : (setIngress m p f).cmp = m.cmp := rfl
@[simp] theorem setIngress_aud (m : Mach) (p : Nat) (f : Ingress → Ingress) : (setIngress m p f).aud = m.aud := rfl
@[simp] theorem setIngress_audCnt (m : Mach) (p : Nat) (f : Ingress → Ingress) : (setIngress m p f).audCnt = m.audCnt := rfl
@[simp] theorem setIngress_apt (m : Mach) (p : Nat) (f : Ingress → Ingress) : (setIngress m p f).apt = m.apt := rfl
@[simp] theorem setIngress_tmg (m : Mach) (p : Nat) (f : Ingress → Ingress) : (setIngress m p f).tmg = m.tmg := rfl
@[simp] theorem setIngress_dt (m : Mach) (p : Nat) (f : Ingress → Ingress) : (setIngress m p f).dt = m.dt := rfl
@[simp] theorem setIngress_mem (m : Mach) (p : Nat) (f : Ingress → Ingress) : (setIngress m p f).mem = m.mem := rfl
@[simp] theorem setIngress_bus (m : Mach) (p : Nat) (f : Ingress → Ingress) : (setIngress m p f).bus = m.bus := rfl
@[simp] theorem setIngress_pr (m : Mach) (p : Nat) (f : Ingress → Ingress) : (setIngress m p f).pr = m.pr := rfl
@[simp] theorem setIngress_pwr (m : Mach) (p : Nat) (f : Ingress → Ingress) : (setIngress m p f).pwr = m.pwr := rfl
@[simp] theorem setIngress_upd (m : Mach) (p : Nat) (f : Ingress → Ingress) : (setIngress m p f).upd = m.upd := rfl
@[simp] theorem setIngress_sys (m : Mach) (p : Nat) (f : Ingress → Ingress) : (setIngress m p f).sys = m.sys := rfl
@[simp] theorem setIngress_out (m : Mach) (p : Nat) (f : Ingress → Ingress) : (setIngress m p f).out = m.out := rfl
@[simp] theorem setIngress_images (m : Mach) (p : Nat) (f : Ingress → Ingress) : (setIngress m p f).images = m.images := rfl

/-! `setPc` writes `mem` alone. -/

@[simp] theorem setPc_now (m : Mach) (n : Nat) (f : Pc → Pc) : (setPc m n f).now = m.now := rfl
@[simp] theorem setPc_free (m : Mach) (n : Nat) (f : Pc → Pc) : (setPc m n f).free = m.free := rfl
@[simp] theorem setPc_xb (m : Mach) (n : Nat) (f : Pc → Pc) : (setPc m n f).xb = m.xb := rfl
@[simp] theorem setPc_is (m : Mach) (n : Nat) (f : Pc → Pc) : (setPc m n f).is_ = m.is_ := rfl
@[simp] theorem setPc_ctl (m : Mach) (n : Nat) (f : Pc → Pc) : (setPc m n f).ctl = m.ctl := rfl
@[simp] theorem setPc_flt (m : Mach) (n : Nat) (f : Pc → Pc) : (setPc m n f).flt = m.flt := rfl
@[simp] theorem setPc_snp (m : Mach) (n : Nat) (f : Pc → Pc) : (setPc m n f).snp = m.snp := rfl
@[simp] theorem setPc_wl (m : Mach) (n : Nat) (f : Pc → Pc) : (setPc m n f).wl = m.wl := rfl
@[simp] theorem setPc_ln (m : Mach) (n : Nat) (f : Pc → Pc) : (setPc m n f).ln = m.ln := rfl
@[simp] theorem setPc_eth (m : Mach) (n : Nat) (f : Pc → Pc) : (setPc m n f).eth = m.eth := rfl
@[simp] theorem setPc_flw (m : Mach) (n : Nat) (f : Pc → Pc) : (setPc m n f).flw = m.flw := rfl
@[simp] theorem setPc_cmp (m : Mach) (n : Nat) (f : Pc → Pc) : (setPc m n f).cmp = m.cmp := rfl
@[simp] theorem setPc_aud (m : Mach) (n : Nat) (f : Pc → Pc) : (setPc m n f).aud = m.aud := rfl
@[simp] theorem setPc_audCnt (m : Mach) (n : Nat) (f : Pc → Pc) : (setPc m n f).audCnt = m.audCnt := rfl
@[simp] theorem setPc_apt (m : Mach) (n : Nat) (f : Pc → Pc) : (setPc m n f).apt = m.apt := rfl
@[simp] theorem setPc_tmg (m : Mach) (n : Nat) (f : Pc → Pc) : (setPc m n f).tmg = m.tmg := rfl
@[simp] theorem setPc_dt (m : Mach) (n : Nat) (f : Pc → Pc) : (setPc m n f).dt = m.dt := rfl
@[simp] theorem setPc_bus (m : Mach) (n : Nat) (f : Pc → Pc) : (setPc m n f).bus = m.bus := rfl
@[simp] theorem setPc_pr (m : Mach) (n : Nat) (f : Pc → Pc) : (setPc m n f).pr = m.pr := rfl
@[simp] theorem setPc_pwr (m : Mach) (n : Nat) (f : Pc → Pc) : (setPc m n f).pwr = m.pwr := rfl
@[simp] theorem setPc_upd (m : Mach) (n : Nat) (f : Pc → Pc) : (setPc m n f).upd = m.upd := rfl
@[simp] theorem setPc_sys (m : Mach) (n : Nat) (f : Pc → Pc) : (setPc m n f).sys = m.sys := rfl
@[simp] theorem setPc_out (m : Mach) (n : Nat) (f : Pc → Pc) : (setPc m n f).out = m.out := rfl
@[simp] theorem setPc_images (m : Mach) (n : Nat) (f : Pc → Pc) : (setPc m n f).images = m.images := rfl

/-! `setStack` writes `mem` alone. -/

@[simp] theorem setStack_now (m : Mach) (s : Nat) (f : Stack → Stack) : (setStack m s f).now = m.now := rfl
@[simp] theorem setStack_free (m : Mach) (s : Nat) (f : Stack → Stack) : (setStack m s f).free = m.free := rfl
@[simp] theorem setStack_xb (m : Mach) (s : Nat) (f : Stack → Stack) : (setStack m s f).xb = m.xb := rfl
@[simp] theorem setStack_is (m : Mach) (s : Nat) (f : Stack → Stack) : (setStack m s f).is_ = m.is_ := rfl
@[simp] theorem setStack_ctl (m : Mach) (s : Nat) (f : Stack → Stack) : (setStack m s f).ctl = m.ctl := rfl
@[simp] theorem setStack_flt (m : Mach) (s : Nat) (f : Stack → Stack) : (setStack m s f).flt = m.flt := rfl
@[simp] theorem setStack_snp (m : Mach) (s : Nat) (f : Stack → Stack) : (setStack m s f).snp = m.snp := rfl
@[simp] theorem setStack_wl (m : Mach) (s : Nat) (f : Stack → Stack) : (setStack m s f).wl = m.wl := rfl
@[simp] theorem setStack_ln (m : Mach) (s : Nat) (f : Stack → Stack) : (setStack m s f).ln = m.ln := rfl
@[simp] theorem setStack_eth (m : Mach) (s : Nat) (f : Stack → Stack) : (setStack m s f).eth = m.eth := rfl
@[simp] theorem setStack_flw (m : Mach) (s : Nat) (f : Stack → Stack) : (setStack m s f).flw = m.flw := rfl
@[simp] theorem setStack_cmp (m : Mach) (s : Nat) (f : Stack → Stack) : (setStack m s f).cmp = m.cmp := rfl
@[simp] theorem setStack_aud (m : Mach) (s : Nat) (f : Stack → Stack) : (setStack m s f).aud = m.aud := rfl
@[simp] theorem setStack_audCnt (m : Mach) (s : Nat) (f : Stack → Stack) : (setStack m s f).audCnt = m.audCnt := rfl
@[simp] theorem setStack_apt (m : Mach) (s : Nat) (f : Stack → Stack) : (setStack m s f).apt = m.apt := rfl
@[simp] theorem setStack_tmg (m : Mach) (s : Nat) (f : Stack → Stack) : (setStack m s f).tmg = m.tmg := rfl
@[simp] theorem setStack_dt (m : Mach) (s : Nat) (f : Stack → Stack) : (setStack m s f).dt = m.dt := rfl
@[simp] theorem setStack_bus (m : Mach) (s : Nat) (f : Stack → Stack) : (setStack m s f).bus = m.bus := rfl
@[simp] theorem setStack_pr (m : Mach) (s : Nat) (f : Stack → Stack) : (setStack m s f).pr = m.pr := rfl
@[simp] theorem setStack_pwr (m : Mach) (s : Nat) (f : Stack → Stack) : (setStack m s f).pwr = m.pwr := rfl
@[simp] theorem setStack_upd (m : Mach) (s : Nat) (f : Stack → Stack) : (setStack m s f).upd = m.upd := rfl
@[simp] theorem setStack_sys (m : Mach) (s : Nat) (f : Stack → Stack) : (setStack m s f).sys = m.sys := rfl
@[simp] theorem setStack_out (m : Mach) (s : Nat) (f : Stack → Stack) : (setStack m s f).out = m.out := rfl
@[simp] theorem setStack_images (m : Mach) (s : Nat) (f : Stack → Stack) : (setStack m s f).images = m.images := rfl

/-! `setPtp` writes `dt` alone. -/

@[simp] theorem setPtp_now (m : Mach) (f : Ptp → Ptp) : (setPtp m f).now = m.now := rfl
@[simp] theorem setPtp_free (m : Mach) (f : Ptp → Ptp) : (setPtp m f).free = m.free := rfl
@[simp] theorem setPtp_xb (m : Mach) (f : Ptp → Ptp) : (setPtp m f).xb = m.xb := rfl
@[simp] theorem setPtp_is (m : Mach) (f : Ptp → Ptp) : (setPtp m f).is_ = m.is_ := rfl
@[simp] theorem setPtp_ctl (m : Mach) (f : Ptp → Ptp) : (setPtp m f).ctl = m.ctl := rfl
@[simp] theorem setPtp_flt (m : Mach) (f : Ptp → Ptp) : (setPtp m f).flt = m.flt := rfl
@[simp] theorem setPtp_snp (m : Mach) (f : Ptp → Ptp) : (setPtp m f).snp = m.snp := rfl
@[simp] theorem setPtp_wl (m : Mach) (f : Ptp → Ptp) : (setPtp m f).wl = m.wl := rfl
@[simp] theorem setPtp_ln (m : Mach) (f : Ptp → Ptp) : (setPtp m f).ln = m.ln := rfl
@[simp] theorem setPtp_eth (m : Mach) (f : Ptp → Ptp) : (setPtp m f).eth = m.eth := rfl
@[simp] theorem setPtp_flw (m : Mach) (f : Ptp → Ptp) : (setPtp m f).flw = m.flw := rfl
@[simp] theorem setPtp_cmp (m : Mach) (f : Ptp → Ptp) : (setPtp m f).cmp = m.cmp := rfl
@[simp] theorem setPtp_aud (m : Mach) (f : Ptp → Ptp) : (setPtp m f).aud = m.aud := rfl
@[simp] theorem setPtp_audCnt (m : Mach) (f : Ptp → Ptp) : (setPtp m f).audCnt = m.audCnt := rfl
@[simp] theorem setPtp_apt (m : Mach) (f : Ptp → Ptp) : (setPtp m f).apt = m.apt := rfl
@[simp] theorem setPtp_tmg (m : Mach) (f : Ptp → Ptp) : (setPtp m f).tmg = m.tmg := rfl
@[simp] theorem setPtp_mem (m : Mach) (f : Ptp → Ptp) : (setPtp m f).mem = m.mem := rfl
@[simp] theorem setPtp_bus (m : Mach) (f : Ptp → Ptp) : (setPtp m f).bus = m.bus := rfl
@[simp] theorem setPtp_pr (m : Mach) (f : Ptp → Ptp) : (setPtp m f).pr = m.pr := rfl
@[simp] theorem setPtp_pwr (m : Mach) (f : Ptp → Ptp) : (setPtp m f).pwr = m.pwr := rfl
@[simp] theorem setPtp_upd (m : Mach) (f : Ptp → Ptp) : (setPtp m f).upd = m.upd := rfl
@[simp] theorem setPtp_sys (m : Mach) (f : Ptp → Ptp) : (setPtp m f).sys = m.sys := rfl
@[simp] theorem setPtp_out (m : Mach) (f : Ptp → Ptp) : (setPtp m f).out = m.out := rfl
@[simp] theorem setPtp_images (m : Mach) (f : Ptp → Ptp) : (setPtp m f).images = m.images := rfl

/-! `setPport` writes `dt` alone. -/

@[simp] theorem setPport_now (m : Mach) (p : Nat) (f : PtpPort → PtpPort) : (setPport m p f).now = m.now := rfl
@[simp] theorem setPport_free (m : Mach) (p : Nat) (f : PtpPort → PtpPort) : (setPport m p f).free = m.free := rfl
@[simp] theorem setPport_xb (m : Mach) (p : Nat) (f : PtpPort → PtpPort) : (setPport m p f).xb = m.xb := rfl
@[simp] theorem setPport_is (m : Mach) (p : Nat) (f : PtpPort → PtpPort) : (setPport m p f).is_ = m.is_ := rfl
@[simp] theorem setPport_ctl (m : Mach) (p : Nat) (f : PtpPort → PtpPort) : (setPport m p f).ctl = m.ctl := rfl
@[simp] theorem setPport_flt (m : Mach) (p : Nat) (f : PtpPort → PtpPort) : (setPport m p f).flt = m.flt := rfl
@[simp] theorem setPport_snp (m : Mach) (p : Nat) (f : PtpPort → PtpPort) : (setPport m p f).snp = m.snp := rfl
@[simp] theorem setPport_wl (m : Mach) (p : Nat) (f : PtpPort → PtpPort) : (setPport m p f).wl = m.wl := rfl
@[simp] theorem setPport_ln (m : Mach) (p : Nat) (f : PtpPort → PtpPort) : (setPport m p f).ln = m.ln := rfl
@[simp] theorem setPport_eth (m : Mach) (p : Nat) (f : PtpPort → PtpPort) : (setPport m p f).eth = m.eth := rfl
@[simp] theorem setPport_flw (m : Mach) (p : Nat) (f : PtpPort → PtpPort) : (setPport m p f).flw = m.flw := rfl
@[simp] theorem setPport_cmp (m : Mach) (p : Nat) (f : PtpPort → PtpPort) : (setPport m p f).cmp = m.cmp := rfl
@[simp] theorem setPport_aud (m : Mach) (p : Nat) (f : PtpPort → PtpPort) : (setPport m p f).aud = m.aud := rfl
@[simp] theorem setPport_audCnt (m : Mach) (p : Nat) (f : PtpPort → PtpPort) : (setPport m p f).audCnt = m.audCnt := rfl
@[simp] theorem setPport_apt (m : Mach) (p : Nat) (f : PtpPort → PtpPort) : (setPport m p f).apt = m.apt := rfl
@[simp] theorem setPport_tmg (m : Mach) (p : Nat) (f : PtpPort → PtpPort) : (setPport m p f).tmg = m.tmg := rfl
@[simp] theorem setPport_mem (m : Mach) (p : Nat) (f : PtpPort → PtpPort) : (setPport m p f).mem = m.mem := rfl
@[simp] theorem setPport_bus (m : Mach) (p : Nat) (f : PtpPort → PtpPort) : (setPport m p f).bus = m.bus := rfl
@[simp] theorem setPport_pr (m : Mach) (p : Nat) (f : PtpPort → PtpPort) : (setPport m p f).pr = m.pr := rfl
@[simp] theorem setPport_pwr (m : Mach) (p : Nat) (f : PtpPort → PtpPort) : (setPport m p f).pwr = m.pwr := rfl
@[simp] theorem setPport_upd (m : Mach) (p : Nat) (f : PtpPort → PtpPort) : (setPport m p f).upd = m.upd := rfl
@[simp] theorem setPport_sys (m : Mach) (p : Nat) (f : PtpPort → PtpPort) : (setPport m p f).sys = m.sys := rfl
@[simp] theorem setPport_out (m : Mach) (p : Nat) (f : PtpPort → PtpPort) : (setPport m p f).out = m.out := rfl
@[simp] theorem setPport_images (m : Mach) (p : Nat) (f : PtpPort → PtpPort) : (setPport m p f).images = m.images := rfl

/-! `setCand` writes `tmg` alone. -/

@[simp] theorem setCand_now (m : Mach) (c : Nat) (f : Cand → Cand) : (setCand m c f).now = m.now := rfl
@[simp] theorem setCand_free (m : Mach) (c : Nat) (f : Cand → Cand) : (setCand m c f).free = m.free := rfl
@[simp] theorem setCand_xb (m : Mach) (c : Nat) (f : Cand → Cand) : (setCand m c f).xb = m.xb := rfl
@[simp] theorem setCand_is (m : Mach) (c : Nat) (f : Cand → Cand) : (setCand m c f).is_ = m.is_ := rfl
@[simp] theorem setCand_ctl (m : Mach) (c : Nat) (f : Cand → Cand) : (setCand m c f).ctl = m.ctl := rfl
@[simp] theorem setCand_flt (m : Mach) (c : Nat) (f : Cand → Cand) : (setCand m c f).flt = m.flt := rfl
@[simp] theorem setCand_snp (m : Mach) (c : Nat) (f : Cand → Cand) : (setCand m c f).snp = m.snp := rfl
@[simp] theorem setCand_wl (m : Mach) (c : Nat) (f : Cand → Cand) : (setCand m c f).wl = m.wl := rfl
@[simp] theorem setCand_ln (m : Mach) (c : Nat) (f : Cand → Cand) : (setCand m c f).ln = m.ln := rfl
@[simp] theorem setCand_eth (m : Mach) (c : Nat) (f : Cand → Cand) : (setCand m c f).eth = m.eth := rfl
@[simp] theorem setCand_flw (m : Mach) (c : Nat) (f : Cand → Cand) : (setCand m c f).flw = m.flw := rfl
@[simp] theorem setCand_cmp (m : Mach) (c : Nat) (f : Cand → Cand) : (setCand m c f).cmp = m.cmp := rfl
@[simp] theorem setCand_aud (m : Mach) (c : Nat) (f : Cand → Cand) : (setCand m c f).aud = m.aud := rfl
@[simp] theorem setCand_audCnt (m : Mach) (c : Nat) (f : Cand → Cand) : (setCand m c f).audCnt = m.audCnt := rfl
@[simp] theorem setCand_apt (m : Mach) (c : Nat) (f : Cand → Cand) : (setCand m c f).apt = m.apt := rfl
@[simp] theorem setCand_dt (m : Mach) (c : Nat) (f : Cand → Cand) : (setCand m c f).dt = m.dt := rfl
@[simp] theorem setCand_mem (m : Mach) (c : Nat) (f : Cand → Cand) : (setCand m c f).mem = m.mem := rfl
@[simp] theorem setCand_bus (m : Mach) (c : Nat) (f : Cand → Cand) : (setCand m c f).bus = m.bus := rfl
@[simp] theorem setCand_pr (m : Mach) (c : Nat) (f : Cand → Cand) : (setCand m c f).pr = m.pr := rfl
@[simp] theorem setCand_pwr (m : Mach) (c : Nat) (f : Cand → Cand) : (setCand m c f).pwr = m.pwr := rfl
@[simp] theorem setCand_upd (m : Mach) (c : Nat) (f : Cand → Cand) : (setCand m c f).upd = m.upd := rfl
@[simp] theorem setCand_sys (m : Mach) (c : Nat) (f : Cand → Cand) : (setCand m c f).sys = m.sys := rfl
@[simp] theorem setCand_out (m : Mach) (c : Nat) (f : Cand → Cand) : (setCand m c f).out = m.out := rfl
@[simp] theorem setCand_images (m : Mach) (c : Nat) (f : Cand → Cand) : (setCand m c f).images = m.images := rfl

/-! `setApll` writes `tmg` alone. -/

@[simp] theorem setApll_now (m : Mach) (a : Nat) (f : Apll → Apll) : (setApll m a f).now = m.now := rfl
@[simp] theorem setApll_free (m : Mach) (a : Nat) (f : Apll → Apll) : (setApll m a f).free = m.free := rfl
@[simp] theorem setApll_xb (m : Mach) (a : Nat) (f : Apll → Apll) : (setApll m a f).xb = m.xb := rfl
@[simp] theorem setApll_is (m : Mach) (a : Nat) (f : Apll → Apll) : (setApll m a f).is_ = m.is_ := rfl
@[simp] theorem setApll_ctl (m : Mach) (a : Nat) (f : Apll → Apll) : (setApll m a f).ctl = m.ctl := rfl
@[simp] theorem setApll_flt (m : Mach) (a : Nat) (f : Apll → Apll) : (setApll m a f).flt = m.flt := rfl
@[simp] theorem setApll_snp (m : Mach) (a : Nat) (f : Apll → Apll) : (setApll m a f).snp = m.snp := rfl
@[simp] theorem setApll_wl (m : Mach) (a : Nat) (f : Apll → Apll) : (setApll m a f).wl = m.wl := rfl
@[simp] theorem setApll_ln (m : Mach) (a : Nat) (f : Apll → Apll) : (setApll m a f).ln = m.ln := rfl
@[simp] theorem setApll_eth (m : Mach) (a : Nat) (f : Apll → Apll) : (setApll m a f).eth = m.eth := rfl
@[simp] theorem setApll_flw (m : Mach) (a : Nat) (f : Apll → Apll) : (setApll m a f).flw = m.flw := rfl
@[simp] theorem setApll_cmp (m : Mach) (a : Nat) (f : Apll → Apll) : (setApll m a f).cmp = m.cmp := rfl
@[simp] theorem setApll_aud (m : Mach) (a : Nat) (f : Apll → Apll) : (setApll m a f).aud = m.aud := rfl
@[simp] theorem setApll_audCnt (m : Mach) (a : Nat) (f : Apll → Apll) : (setApll m a f).audCnt = m.audCnt := rfl
@[simp] theorem setApll_apt (m : Mach) (a : Nat) (f : Apll → Apll) : (setApll m a f).apt = m.apt := rfl
@[simp] theorem setApll_dt (m : Mach) (a : Nat) (f : Apll → Apll) : (setApll m a f).dt = m.dt := rfl
@[simp] theorem setApll_mem (m : Mach) (a : Nat) (f : Apll → Apll) : (setApll m a f).mem = m.mem := rfl
@[simp] theorem setApll_bus (m : Mach) (a : Nat) (f : Apll → Apll) : (setApll m a f).bus = m.bus := rfl
@[simp] theorem setApll_pr (m : Mach) (a : Nat) (f : Apll → Apll) : (setApll m a f).pr = m.pr := rfl
@[simp] theorem setApll_pwr (m : Mach) (a : Nat) (f : Apll → Apll) : (setApll m a f).pwr = m.pwr := rfl
@[simp] theorem setApll_upd (m : Mach) (a : Nat) (f : Apll → Apll) : (setApll m a f).upd = m.upd := rfl
@[simp] theorem setApll_sys (m : Mach) (a : Nat) (f : Apll → Apll) : (setApll m a f).sys = m.sys := rfl
@[simp] theorem setApll_out (m : Mach) (a : Nat) (f : Apll → Apll) : (setApll m a f).out = m.out := rfl
@[simp] theorem setApll_images (m : Mach) (a : Nat) (f : Apll → Apll) : (setApll m a f).images = m.images := rfl

/-! `setOut` writes `tmg` alone. -/

@[simp] theorem setOut_now (m : Mach) (k : Nat) (f : ClkOut → ClkOut) : (setOut m k f).now = m.now := rfl
@[simp] theorem setOut_free (m : Mach) (k : Nat) (f : ClkOut → ClkOut) : (setOut m k f).free = m.free := rfl
@[simp] theorem setOut_xb (m : Mach) (k : Nat) (f : ClkOut → ClkOut) : (setOut m k f).xb = m.xb := rfl
@[simp] theorem setOut_is (m : Mach) (k : Nat) (f : ClkOut → ClkOut) : (setOut m k f).is_ = m.is_ := rfl
@[simp] theorem setOut_ctl (m : Mach) (k : Nat) (f : ClkOut → ClkOut) : (setOut m k f).ctl = m.ctl := rfl
@[simp] theorem setOut_flt (m : Mach) (k : Nat) (f : ClkOut → ClkOut) : (setOut m k f).flt = m.flt := rfl
@[simp] theorem setOut_snp (m : Mach) (k : Nat) (f : ClkOut → ClkOut) : (setOut m k f).snp = m.snp := rfl
@[simp] theorem setOut_wl (m : Mach) (k : Nat) (f : ClkOut → ClkOut) : (setOut m k f).wl = m.wl := rfl
@[simp] theorem setOut_ln (m : Mach) (k : Nat) (f : ClkOut → ClkOut) : (setOut m k f).ln = m.ln := rfl
@[simp] theorem setOut_eth (m : Mach) (k : Nat) (f : ClkOut → ClkOut) : (setOut m k f).eth = m.eth := rfl
@[simp] theorem setOut_flw (m : Mach) (k : Nat) (f : ClkOut → ClkOut) : (setOut m k f).flw = m.flw := rfl
@[simp] theorem setOut_cmp (m : Mach) (k : Nat) (f : ClkOut → ClkOut) : (setOut m k f).cmp = m.cmp := rfl
@[simp] theorem setOut_aud (m : Mach) (k : Nat) (f : ClkOut → ClkOut) : (setOut m k f).aud = m.aud := rfl
@[simp] theorem setOut_audCnt (m : Mach) (k : Nat) (f : ClkOut → ClkOut) : (setOut m k f).audCnt = m.audCnt := rfl
@[simp] theorem setOut_apt (m : Mach) (k : Nat) (f : ClkOut → ClkOut) : (setOut m k f).apt = m.apt := rfl
@[simp] theorem setOut_dt (m : Mach) (k : Nat) (f : ClkOut → ClkOut) : (setOut m k f).dt = m.dt := rfl
@[simp] theorem setOut_mem (m : Mach) (k : Nat) (f : ClkOut → ClkOut) : (setOut m k f).mem = m.mem := rfl
@[simp] theorem setOut_bus (m : Mach) (k : Nat) (f : ClkOut → ClkOut) : (setOut m k f).bus = m.bus := rfl
@[simp] theorem setOut_pr (m : Mach) (k : Nat) (f : ClkOut → ClkOut) : (setOut m k f).pr = m.pr := rfl
@[simp] theorem setOut_pwr (m : Mach) (k : Nat) (f : ClkOut → ClkOut) : (setOut m k f).pwr = m.pwr := rfl
@[simp] theorem setOut_upd (m : Mach) (k : Nat) (f : ClkOut → ClkOut) : (setOut m k f).upd = m.upd := rfl
@[simp] theorem setOut_sys (m : Mach) (k : Nat) (f : ClkOut → ClkOut) : (setOut m k f).sys = m.sys := rfl
@[simp] theorem setOut_out (m : Mach) (k : Nat) (f : ClkOut → ClkOut) : (setOut m k f).out = m.out := rfl
@[simp] theorem setOut_images (m : Mach) (k : Nat) (f : ClkOut → ClkOut) : (setOut m k f).images = m.images := rfl

/-! `settleGrants` writes `tmg` alone. -/

@[simp] theorem settleGrants_now (m : Mach) : (settleGrants m).now = m.now := rfl
@[simp] theorem settleGrants_free (m : Mach) : (settleGrants m).free = m.free := rfl
@[simp] theorem settleGrants_xb (m : Mach) : (settleGrants m).xb = m.xb := rfl
@[simp] theorem settleGrants_is (m : Mach) : (settleGrants m).is_ = m.is_ := rfl
@[simp] theorem settleGrants_ctl (m : Mach) : (settleGrants m).ctl = m.ctl := rfl
@[simp] theorem settleGrants_flt (m : Mach) : (settleGrants m).flt = m.flt := rfl
@[simp] theorem settleGrants_snp (m : Mach) : (settleGrants m).snp = m.snp := rfl
@[simp] theorem settleGrants_wl (m : Mach) : (settleGrants m).wl = m.wl := rfl
@[simp] theorem settleGrants_ln (m : Mach) : (settleGrants m).ln = m.ln := rfl
@[simp] theorem settleGrants_eth (m : Mach) : (settleGrants m).eth = m.eth := rfl
@[simp] theorem settleGrants_flw (m : Mach) : (settleGrants m).flw = m.flw := rfl
@[simp] theorem settleGrants_cmp (m : Mach) : (settleGrants m).cmp = m.cmp := rfl
@[simp] theorem settleGrants_aud (m : Mach) : (settleGrants m).aud = m.aud := rfl
@[simp] theorem settleGrants_audCnt (m : Mach) : (settleGrants m).audCnt = m.audCnt := rfl
@[simp] theorem settleGrants_apt (m : Mach) : (settleGrants m).apt = m.apt := rfl
@[simp] theorem settleGrants_dt (m : Mach) : (settleGrants m).dt = m.dt := rfl
@[simp] theorem settleGrants_mem (m : Mach) : (settleGrants m).mem = m.mem := rfl
@[simp] theorem settleGrants_bus (m : Mach) : (settleGrants m).bus = m.bus := rfl
@[simp] theorem settleGrants_pr (m : Mach) : (settleGrants m).pr = m.pr := rfl
@[simp] theorem settleGrants_pwr (m : Mach) : (settleGrants m).pwr = m.pwr := rfl
@[simp] theorem settleGrants_upd (m : Mach) : (settleGrants m).upd = m.upd := rfl
@[simp] theorem settleGrants_sys (m : Mach) : (settleGrants m).sys = m.sys := rfl
@[simp] theorem settleGrants_out (m : Mach) : (settleGrants m).out = m.out := rfl
@[simp] theorem settleGrants_images (m : Mach) : (settleGrants m).images = m.images := rfl

/-! `setXfer` writes `upd` alone. -/

@[simp] theorem setXfer_now (m : Mach) (f : Xfer → Xfer) : (setXfer m f).now = m.now := rfl
@[simp] theorem setXfer_free (m : Mach) (f : Xfer → Xfer) : (setXfer m f).free = m.free := rfl
@[simp] theorem setXfer_xb (m : Mach) (f : Xfer → Xfer) : (setXfer m f).xb = m.xb := rfl
@[simp] theorem setXfer_is (m : Mach) (f : Xfer → Xfer) : (setXfer m f).is_ = m.is_ := rfl
@[simp] theorem setXfer_ctl (m : Mach) (f : Xfer → Xfer) : (setXfer m f).ctl = m.ctl := rfl
@[simp] theorem setXfer_flt (m : Mach) (f : Xfer → Xfer) : (setXfer m f).flt = m.flt := rfl
@[simp] theorem setXfer_snp (m : Mach) (f : Xfer → Xfer) : (setXfer m f).snp = m.snp := rfl
@[simp] theorem setXfer_wl (m : Mach) (f : Xfer → Xfer) : (setXfer m f).wl = m.wl := rfl
@[simp] theorem setXfer_ln (m : Mach) (f : Xfer → Xfer) : (setXfer m f).ln = m.ln := rfl
@[simp] theorem setXfer_eth (m : Mach) (f : Xfer → Xfer) : (setXfer m f).eth = m.eth := rfl
@[simp] theorem setXfer_flw (m : Mach) (f : Xfer → Xfer) : (setXfer m f).flw = m.flw := rfl
@[simp] theorem setXfer_cmp (m : Mach) (f : Xfer → Xfer) : (setXfer m f).cmp = m.cmp := rfl
@[simp] theorem setXfer_aud (m : Mach) (f : Xfer → Xfer) : (setXfer m f).aud = m.aud := rfl
@[simp] theorem setXfer_audCnt (m : Mach) (f : Xfer → Xfer) : (setXfer m f).audCnt = m.audCnt := rfl
@[simp] theorem setXfer_apt (m : Mach) (f : Xfer → Xfer) : (setXfer m f).apt = m.apt := rfl
@[simp] theorem setXfer_tmg (m : Mach) (f : Xfer → Xfer) : (setXfer m f).tmg = m.tmg := rfl
@[simp] theorem setXfer_dt (m : Mach) (f : Xfer → Xfer) : (setXfer m f).dt = m.dt := rfl
@[simp] theorem setXfer_mem (m : Mach) (f : Xfer → Xfer) : (setXfer m f).mem = m.mem := rfl
@[simp] theorem setXfer_bus (m : Mach) (f : Xfer → Xfer) : (setXfer m f).bus = m.bus := rfl
@[simp] theorem setXfer_pr (m : Mach) (f : Xfer → Xfer) : (setXfer m f).pr = m.pr := rfl
@[simp] theorem setXfer_pwr (m : Mach) (f : Xfer → Xfer) : (setXfer m f).pwr = m.pwr := rfl
@[simp] theorem setXfer_sys (m : Mach) (f : Xfer → Xfer) : (setXfer m f).sys = m.sys := rfl
@[simp] theorem setXfer_out (m : Mach) (f : Xfer → Xfer) : (setXfer m f).out = m.out := rfl
@[simp] theorem setXfer_images (m : Mach) (f : Xfer → Xfer) : (setXfer m f).images = m.images := rfl

/-! `setPath` writes `pr` alone. -/

@[simp] theorem setPath_now (m : Mach) (i : Nat) (f : HbPath → HbPath) : (setPath m i f).now = m.now := rfl
@[simp] theorem setPath_free (m : Mach) (i : Nat) (f : HbPath → HbPath) : (setPath m i f).free = m.free := rfl
@[simp] theorem setPath_xb (m : Mach) (i : Nat) (f : HbPath → HbPath) : (setPath m i f).xb = m.xb := rfl
@[simp] theorem setPath_is (m : Mach) (i : Nat) (f : HbPath → HbPath) : (setPath m i f).is_ = m.is_ := rfl
@[simp] theorem setPath_ctl (m : Mach) (i : Nat) (f : HbPath → HbPath) : (setPath m i f).ctl = m.ctl := rfl
@[simp] theorem setPath_flt (m : Mach) (i : Nat) (f : HbPath → HbPath) : (setPath m i f).flt = m.flt := rfl
@[simp] theorem setPath_snp (m : Mach) (i : Nat) (f : HbPath → HbPath) : (setPath m i f).snp = m.snp := rfl
@[simp] theorem setPath_wl (m : Mach) (i : Nat) (f : HbPath → HbPath) : (setPath m i f).wl = m.wl := rfl
@[simp] theorem setPath_ln (m : Mach) (i : Nat) (f : HbPath → HbPath) : (setPath m i f).ln = m.ln := rfl
@[simp] theorem setPath_eth (m : Mach) (i : Nat) (f : HbPath → HbPath) : (setPath m i f).eth = m.eth := rfl
@[simp] theorem setPath_flw (m : Mach) (i : Nat) (f : HbPath → HbPath) : (setPath m i f).flw = m.flw := rfl
@[simp] theorem setPath_cmp (m : Mach) (i : Nat) (f : HbPath → HbPath) : (setPath m i f).cmp = m.cmp := rfl
@[simp] theorem setPath_aud (m : Mach) (i : Nat) (f : HbPath → HbPath) : (setPath m i f).aud = m.aud := rfl
@[simp] theorem setPath_audCnt (m : Mach) (i : Nat) (f : HbPath → HbPath) : (setPath m i f).audCnt = m.audCnt := rfl
@[simp] theorem setPath_apt (m : Mach) (i : Nat) (f : HbPath → HbPath) : (setPath m i f).apt = m.apt := rfl
@[simp] theorem setPath_tmg (m : Mach) (i : Nat) (f : HbPath → HbPath) : (setPath m i f).tmg = m.tmg := rfl
@[simp] theorem setPath_dt (m : Mach) (i : Nat) (f : HbPath → HbPath) : (setPath m i f).dt = m.dt := rfl
@[simp] theorem setPath_mem (m : Mach) (i : Nat) (f : HbPath → HbPath) : (setPath m i f).mem = m.mem := rfl
@[simp] theorem setPath_bus (m : Mach) (i : Nat) (f : HbPath → HbPath) : (setPath m i f).bus = m.bus := rfl
@[simp] theorem setPath_pwr (m : Mach) (i : Nat) (f : HbPath → HbPath) : (setPath m i f).pwr = m.pwr := rfl
@[simp] theorem setPath_upd (m : Mach) (i : Nat) (f : HbPath → HbPath) : (setPath m i f).upd = m.upd := rfl
@[simp] theorem setPath_sys (m : Mach) (i : Nat) (f : HbPath → HbPath) : (setPath m i f).sys = m.sys := rfl
@[simp] theorem setPath_out (m : Mach) (i : Nat) (f : HbPath → HbPath) : (setPath m i f).out = m.out := rfl
@[simp] theorem setPath_images (m : Mach) (i : Nat) (f : HbPath → HbPath) : (setPath m i f).images = m.images := rfl

/-! `xlSend` writes `pr` alone. -/

@[simp] theorem xlSend_now (m : Mach) (x : XlMsg) : (xlSend m x).now = m.now := by unfold xlSend; rfl
@[simp] theorem xlSend_free (m : Mach) (x : XlMsg) : (xlSend m x).free = m.free := by unfold xlSend; rfl
@[simp] theorem xlSend_xb (m : Mach) (x : XlMsg) : (xlSend m x).xb = m.xb := by unfold xlSend; rfl
@[simp] theorem xlSend_is (m : Mach) (x : XlMsg) : (xlSend m x).is_ = m.is_ := by unfold xlSend; rfl
@[simp] theorem xlSend_ctl (m : Mach) (x : XlMsg) : (xlSend m x).ctl = m.ctl := by unfold xlSend; rfl
@[simp] theorem xlSend_flt (m : Mach) (x : XlMsg) : (xlSend m x).flt = m.flt := by unfold xlSend; rfl
@[simp] theorem xlSend_snp (m : Mach) (x : XlMsg) : (xlSend m x).snp = m.snp := by unfold xlSend; rfl
@[simp] theorem xlSend_wl (m : Mach) (x : XlMsg) : (xlSend m x).wl = m.wl := by unfold xlSend; rfl
@[simp] theorem xlSend_ln (m : Mach) (x : XlMsg) : (xlSend m x).ln = m.ln := by unfold xlSend; rfl
@[simp] theorem xlSend_eth (m : Mach) (x : XlMsg) : (xlSend m x).eth = m.eth := by unfold xlSend; rfl
@[simp] theorem xlSend_flw (m : Mach) (x : XlMsg) : (xlSend m x).flw = m.flw := by unfold xlSend; rfl
@[simp] theorem xlSend_cmp (m : Mach) (x : XlMsg) : (xlSend m x).cmp = m.cmp := by unfold xlSend; rfl
@[simp] theorem xlSend_aud (m : Mach) (x : XlMsg) : (xlSend m x).aud = m.aud := by unfold xlSend; rfl
@[simp] theorem xlSend_audCnt (m : Mach) (x : XlMsg) : (xlSend m x).audCnt = m.audCnt := by unfold xlSend; rfl
@[simp] theorem xlSend_apt (m : Mach) (x : XlMsg) : (xlSend m x).apt = m.apt := by unfold xlSend; rfl
@[simp] theorem xlSend_tmg (m : Mach) (x : XlMsg) : (xlSend m x).tmg = m.tmg := by unfold xlSend; rfl
@[simp] theorem xlSend_dt (m : Mach) (x : XlMsg) : (xlSend m x).dt = m.dt := by unfold xlSend; rfl
@[simp] theorem xlSend_mem (m : Mach) (x : XlMsg) : (xlSend m x).mem = m.mem := by unfold xlSend; rfl
@[simp] theorem xlSend_bus (m : Mach) (x : XlMsg) : (xlSend m x).bus = m.bus := by unfold xlSend; rfl
@[simp] theorem xlSend_pwr (m : Mach) (x : XlMsg) : (xlSend m x).pwr = m.pwr := by unfold xlSend; rfl
@[simp] theorem xlSend_upd (m : Mach) (x : XlMsg) : (xlSend m x).upd = m.upd := by unfold xlSend; rfl
@[simp] theorem xlSend_sys (m : Mach) (x : XlMsg) : (xlSend m x).sys = m.sys := by unfold xlSend; rfl
@[simp] theorem xlSend_out (m : Mach) (x : XlMsg) : (xlSend m x).out = m.out := by unfold xlSend; rfl
@[simp] theorem xlSend_images (m : Mach) (x : XlMsg) : (xlSend m x).images = m.images := by unfold xlSend; rfl

/-! `setMemPort` writes `mem` alone. -/

@[simp] theorem setMemPort_now (m : Mach) (p : Nat) (f : MemPort → MemPort) : (setMemPort m p f).now = m.now := rfl
@[simp] theorem setMemPort_free (m : Mach) (p : Nat) (f : MemPort → MemPort) : (setMemPort m p f).free = m.free := rfl
@[simp] theorem setMemPort_xb (m : Mach) (p : Nat) (f : MemPort → MemPort) : (setMemPort m p f).xb = m.xb := rfl
@[simp] theorem setMemPort_is (m : Mach) (p : Nat) (f : MemPort → MemPort) : (setMemPort m p f).is_ = m.is_ := rfl
@[simp] theorem setMemPort_ctl (m : Mach) (p : Nat) (f : MemPort → MemPort) : (setMemPort m p f).ctl = m.ctl := rfl
@[simp] theorem setMemPort_flt (m : Mach) (p : Nat) (f : MemPort → MemPort) : (setMemPort m p f).flt = m.flt := rfl
@[simp] theorem setMemPort_snp (m : Mach) (p : Nat) (f : MemPort → MemPort) : (setMemPort m p f).snp = m.snp := rfl
@[simp] theorem setMemPort_wl (m : Mach) (p : Nat) (f : MemPort → MemPort) : (setMemPort m p f).wl = m.wl := rfl
@[simp] theorem setMemPort_ln (m : Mach) (p : Nat) (f : MemPort → MemPort) : (setMemPort m p f).ln = m.ln := rfl
@[simp] theorem setMemPort_eth (m : Mach) (p : Nat) (f : MemPort → MemPort) : (setMemPort m p f).eth = m.eth := rfl
@[simp] theorem setMemPort_flw (m : Mach) (p : Nat) (f : MemPort → MemPort) : (setMemPort m p f).flw = m.flw := rfl
@[simp] theorem setMemPort_cmp (m : Mach) (p : Nat) (f : MemPort → MemPort) : (setMemPort m p f).cmp = m.cmp := rfl
@[simp] theorem setMemPort_aud (m : Mach) (p : Nat) (f : MemPort → MemPort) : (setMemPort m p f).aud = m.aud := rfl
@[simp] theorem setMemPort_audCnt (m : Mach) (p : Nat) (f : MemPort → MemPort) : (setMemPort m p f).audCnt = m.audCnt := rfl
@[simp] theorem setMemPort_apt (m : Mach) (p : Nat) (f : MemPort → MemPort) : (setMemPort m p f).apt = m.apt := rfl
@[simp] theorem setMemPort_tmg (m : Mach) (p : Nat) (f : MemPort → MemPort) : (setMemPort m p f).tmg = m.tmg := rfl
@[simp] theorem setMemPort_dt (m : Mach) (p : Nat) (f : MemPort → MemPort) : (setMemPort m p f).dt = m.dt := rfl
@[simp] theorem setMemPort_bus (m : Mach) (p : Nat) (f : MemPort → MemPort) : (setMemPort m p f).bus = m.bus := rfl
@[simp] theorem setMemPort_pr (m : Mach) (p : Nat) (f : MemPort → MemPort) : (setMemPort m p f).pr = m.pr := rfl
@[simp] theorem setMemPort_pwr (m : Mach) (p : Nat) (f : MemPort → MemPort) : (setMemPort m p f).pwr = m.pwr := rfl
@[simp] theorem setMemPort_upd (m : Mach) (p : Nat) (f : MemPort → MemPort) : (setMemPort m p f).upd = m.upd := rfl
@[simp] theorem setMemPort_sys (m : Mach) (p : Nat) (f : MemPort → MemPort) : (setMemPort m p f).sys = m.sys := rfl
@[simp] theorem setMemPort_out (m : Mach) (p : Nat) (f : MemPort → MemPort) : (setMemPort m p f).out = m.out := rfl
@[simp] theorem setMemPort_images (m : Mach) (p : Nat) (f : MemPort → MemPort) : (setMemPort m p f).images = m.images := rfl

/-! `spend` writes `mem` alone. -/

@[simp] theorem spend_now (m : Mach) (p bytes : Nat) : (spend p bytes m).now = m.now := rfl
@[simp] theorem spend_free (m : Mach) (p bytes : Nat) : (spend p bytes m).free = m.free := rfl
@[simp] theorem spend_xb (m : Mach) (p bytes : Nat) : (spend p bytes m).xb = m.xb := rfl
@[simp] theorem spend_is (m : Mach) (p bytes : Nat) : (spend p bytes m).is_ = m.is_ := rfl
@[simp] theorem spend_ctl (m : Mach) (p bytes : Nat) : (spend p bytes m).ctl = m.ctl := rfl
@[simp] theorem spend_flt (m : Mach) (p bytes : Nat) : (spend p bytes m).flt = m.flt := rfl
@[simp] theorem spend_snp (m : Mach) (p bytes : Nat) : (spend p bytes m).snp = m.snp := rfl
@[simp] theorem spend_wl (m : Mach) (p bytes : Nat) : (spend p bytes m).wl = m.wl := rfl
@[simp] theorem spend_ln (m : Mach) (p bytes : Nat) : (spend p bytes m).ln = m.ln := rfl
@[simp] theorem spend_eth (m : Mach) (p bytes : Nat) : (spend p bytes m).eth = m.eth := rfl
@[simp] theorem spend_flw (m : Mach) (p bytes : Nat) : (spend p bytes m).flw = m.flw := rfl
@[simp] theorem spend_cmp (m : Mach) (p bytes : Nat) : (spend p bytes m).cmp = m.cmp := rfl
@[simp] theorem spend_aud (m : Mach) (p bytes : Nat) : (spend p bytes m).aud = m.aud := rfl
@[simp] theorem spend_audCnt (m : Mach) (p bytes : Nat) : (spend p bytes m).audCnt = m.audCnt := rfl
@[simp] theorem spend_apt (m : Mach) (p bytes : Nat) : (spend p bytes m).apt = m.apt := rfl
@[simp] theorem spend_tmg (m : Mach) (p bytes : Nat) : (spend p bytes m).tmg = m.tmg := rfl
@[simp] theorem spend_dt (m : Mach) (p bytes : Nat) : (spend p bytes m).dt = m.dt := rfl
@[simp] theorem spend_bus (m : Mach) (p bytes : Nat) : (spend p bytes m).bus = m.bus := rfl
@[simp] theorem spend_pr (m : Mach) (p bytes : Nat) : (spend p bytes m).pr = m.pr := rfl
@[simp] theorem spend_pwr (m : Mach) (p bytes : Nat) : (spend p bytes m).pwr = m.pwr := rfl
@[simp] theorem spend_upd (m : Mach) (p bytes : Nat) : (spend p bytes m).upd = m.upd := rfl
@[simp] theorem spend_sys (m : Mach) (p bytes : Nat) : (spend p bytes m).sys = m.sys := rfl
@[simp] theorem spend_out (m : Mach) (p bytes : Nat) : (spend p bytes m).out = m.out := rfl
@[simp] theorem spend_images (m : Mach) (p bytes : Nat) : (spend p bytes m).images = m.images := rfl

/-! `issueReq` writes `mem` alone. -/

@[simp] theorem issueReq_now (m : Mach) (r : MemReq) : (issueReq r m).now = m.now := rfl
@[simp] theorem issueReq_free (m : Mach) (r : MemReq) : (issueReq r m).free = m.free := rfl
@[simp] theorem issueReq_xb (m : Mach) (r : MemReq) : (issueReq r m).xb = m.xb := rfl
@[simp] theorem issueReq_is (m : Mach) (r : MemReq) : (issueReq r m).is_ = m.is_ := rfl
@[simp] theorem issueReq_ctl (m : Mach) (r : MemReq) : (issueReq r m).ctl = m.ctl := rfl
@[simp] theorem issueReq_flt (m : Mach) (r : MemReq) : (issueReq r m).flt = m.flt := rfl
@[simp] theorem issueReq_snp (m : Mach) (r : MemReq) : (issueReq r m).snp = m.snp := rfl
@[simp] theorem issueReq_wl (m : Mach) (r : MemReq) : (issueReq r m).wl = m.wl := rfl
@[simp] theorem issueReq_ln (m : Mach) (r : MemReq) : (issueReq r m).ln = m.ln := rfl
@[simp] theorem issueReq_eth (m : Mach) (r : MemReq) : (issueReq r m).eth = m.eth := rfl
@[simp] theorem issueReq_flw (m : Mach) (r : MemReq) : (issueReq r m).flw = m.flw := rfl
@[simp] theorem issueReq_cmp (m : Mach) (r : MemReq) : (issueReq r m).cmp = m.cmp := rfl
@[simp] theorem issueReq_aud (m : Mach) (r : MemReq) : (issueReq r m).aud = m.aud := rfl
@[simp] theorem issueReq_audCnt (m : Mach) (r : MemReq) : (issueReq r m).audCnt = m.audCnt := rfl
@[simp] theorem issueReq_apt (m : Mach) (r : MemReq) : (issueReq r m).apt = m.apt := rfl
@[simp] theorem issueReq_tmg (m : Mach) (r : MemReq) : (issueReq r m).tmg = m.tmg := rfl
@[simp] theorem issueReq_dt (m : Mach) (r : MemReq) : (issueReq r m).dt = m.dt := rfl
@[simp] theorem issueReq_bus (m : Mach) (r : MemReq) : (issueReq r m).bus = m.bus := rfl
@[simp] theorem issueReq_pr (m : Mach) (r : MemReq) : (issueReq r m).pr = m.pr := rfl
@[simp] theorem issueReq_pwr (m : Mach) (r : MemReq) : (issueReq r m).pwr = m.pwr := rfl
@[simp] theorem issueReq_upd (m : Mach) (r : MemReq) : (issueReq r m).upd = m.upd := rfl
@[simp] theorem issueReq_sys (m : Mach) (r : MemReq) : (issueReq r m).sys = m.sys := rfl
@[simp] theorem issueReq_out (m : Mach) (r : MemReq) : (issueReq r m).out = m.out := rfl
@[simp] theorem issueReq_images (m : Mach) (r : MemReq) : (issueReq r m).images = m.images := rfl

/-! `setSlot` writes `upd` alone. -/

@[simp] theorem setSlot_now (m : Mach) (k : Nat) (x : Slot) : (setSlot m k x).now = m.now := rfl
@[simp] theorem setSlot_free (m : Mach) (k : Nat) (x : Slot) : (setSlot m k x).free = m.free := rfl
@[simp] theorem setSlot_xb (m : Mach) (k : Nat) (x : Slot) : (setSlot m k x).xb = m.xb := rfl
@[simp] theorem setSlot_is (m : Mach) (k : Nat) (x : Slot) : (setSlot m k x).is_ = m.is_ := rfl
@[simp] theorem setSlot_ctl (m : Mach) (k : Nat) (x : Slot) : (setSlot m k x).ctl = m.ctl := rfl
@[simp] theorem setSlot_flt (m : Mach) (k : Nat) (x : Slot) : (setSlot m k x).flt = m.flt := rfl
@[simp] theorem setSlot_snp (m : Mach) (k : Nat) (x : Slot) : (setSlot m k x).snp = m.snp := rfl
@[simp] theorem setSlot_wl (m : Mach) (k : Nat) (x : Slot) : (setSlot m k x).wl = m.wl := rfl
@[simp] theorem setSlot_ln (m : Mach) (k : Nat) (x : Slot) : (setSlot m k x).ln = m.ln := rfl
@[simp] theorem setSlot_eth (m : Mach) (k : Nat) (x : Slot) : (setSlot m k x).eth = m.eth := rfl
@[simp] theorem setSlot_flw (m : Mach) (k : Nat) (x : Slot) : (setSlot m k x).flw = m.flw := rfl
@[simp] theorem setSlot_cmp (m : Mach) (k : Nat) (x : Slot) : (setSlot m k x).cmp = m.cmp := rfl
@[simp] theorem setSlot_aud (m : Mach) (k : Nat) (x : Slot) : (setSlot m k x).aud = m.aud := rfl
@[simp] theorem setSlot_audCnt (m : Mach) (k : Nat) (x : Slot) : (setSlot m k x).audCnt = m.audCnt := rfl
@[simp] theorem setSlot_apt (m : Mach) (k : Nat) (x : Slot) : (setSlot m k x).apt = m.apt := rfl
@[simp] theorem setSlot_tmg (m : Mach) (k : Nat) (x : Slot) : (setSlot m k x).tmg = m.tmg := rfl
@[simp] theorem setSlot_dt (m : Mach) (k : Nat) (x : Slot) : (setSlot m k x).dt = m.dt := rfl
@[simp] theorem setSlot_mem (m : Mach) (k : Nat) (x : Slot) : (setSlot m k x).mem = m.mem := rfl
@[simp] theorem setSlot_bus (m : Mach) (k : Nat) (x : Slot) : (setSlot m k x).bus = m.bus := rfl
@[simp] theorem setSlot_pr (m : Mach) (k : Nat) (x : Slot) : (setSlot m k x).pr = m.pr := rfl
@[simp] theorem setSlot_pwr (m : Mach) (k : Nat) (x : Slot) : (setSlot m k x).pwr = m.pwr := rfl
@[simp] theorem setSlot_sys (m : Mach) (k : Nat) (x : Slot) : (setSlot m k x).sys = m.sys := rfl
@[simp] theorem setSlot_out (m : Mach) (k : Nat) (x : Slot) : (setSlot m k x).out = m.out := rfl
@[simp] theorem setSlot_images (m : Mach) (k : Nat) (x : Slot) : (setSlot m k x).images = m.images := rfl

/-! `setRec` writes `upd` alone. -/

@[simp] theorem setRec_now (m : Mach) (k : Nat) (f : SlotRec → SlotRec) : (setRec m k f).now = m.now := rfl
@[simp] theorem setRec_free (m : Mach) (k : Nat) (f : SlotRec → SlotRec) : (setRec m k f).free = m.free := rfl
@[simp] theorem setRec_xb (m : Mach) (k : Nat) (f : SlotRec → SlotRec) : (setRec m k f).xb = m.xb := rfl
@[simp] theorem setRec_is (m : Mach) (k : Nat) (f : SlotRec → SlotRec) : (setRec m k f).is_ = m.is_ := rfl
@[simp] theorem setRec_ctl (m : Mach) (k : Nat) (f : SlotRec → SlotRec) : (setRec m k f).ctl = m.ctl := rfl
@[simp] theorem setRec_flt (m : Mach) (k : Nat) (f : SlotRec → SlotRec) : (setRec m k f).flt = m.flt := rfl
@[simp] theorem setRec_snp (m : Mach) (k : Nat) (f : SlotRec → SlotRec) : (setRec m k f).snp = m.snp := rfl
@[simp] theorem setRec_wl (m : Mach) (k : Nat) (f : SlotRec → SlotRec) : (setRec m k f).wl = m.wl := rfl
@[simp] theorem setRec_ln (m : Mach) (k : Nat) (f : SlotRec → SlotRec) : (setRec m k f).ln = m.ln := rfl
@[simp] theorem setRec_eth (m : Mach) (k : Nat) (f : SlotRec → SlotRec) : (setRec m k f).eth = m.eth := rfl
@[simp] theorem setRec_flw (m : Mach) (k : Nat) (f : SlotRec → SlotRec) : (setRec m k f).flw = m.flw := rfl
@[simp] theorem setRec_cmp (m : Mach) (k : Nat) (f : SlotRec → SlotRec) : (setRec m k f).cmp = m.cmp := rfl
@[simp] theorem setRec_aud (m : Mach) (k : Nat) (f : SlotRec → SlotRec) : (setRec m k f).aud = m.aud := rfl
@[simp] theorem setRec_audCnt (m : Mach) (k : Nat) (f : SlotRec → SlotRec) : (setRec m k f).audCnt = m.audCnt := rfl
@[simp] theorem setRec_apt (m : Mach) (k : Nat) (f : SlotRec → SlotRec) : (setRec m k f).apt = m.apt := rfl
@[simp] theorem setRec_tmg (m : Mach) (k : Nat) (f : SlotRec → SlotRec) : (setRec m k f).tmg = m.tmg := rfl
@[simp] theorem setRec_dt (m : Mach) (k : Nat) (f : SlotRec → SlotRec) : (setRec m k f).dt = m.dt := rfl
@[simp] theorem setRec_mem (m : Mach) (k : Nat) (f : SlotRec → SlotRec) : (setRec m k f).mem = m.mem := rfl
@[simp] theorem setRec_bus (m : Mach) (k : Nat) (f : SlotRec → SlotRec) : (setRec m k f).bus = m.bus := rfl
@[simp] theorem setRec_pr (m : Mach) (k : Nat) (f : SlotRec → SlotRec) : (setRec m k f).pr = m.pr := rfl
@[simp] theorem setRec_pwr (m : Mach) (k : Nat) (f : SlotRec → SlotRec) : (setRec m k f).pwr = m.pwr := rfl
@[simp] theorem setRec_sys (m : Mach) (k : Nat) (f : SlotRec → SlotRec) : (setRec m k f).sys = m.sys := rfl
@[simp] theorem setRec_out (m : Mach) (k : Nat) (f : SlotRec → SlotRec) : (setRec m k f).out = m.out := rfl
@[simp] theorem setRec_images (m : Mach) (k : Nat) (f : SlotRec → SlotRec) : (setRec m k f).images = m.images := rfl

/-! `reply` writes `upd` alone. -/

@[simp] theorem reply_now (m : Mach) (c : SvcReq) (op status : Nat) (p : List Byte) (o : Nat) : (reply m c op status p o).now = m.now := rfl
@[simp] theorem reply_free (m : Mach) (c : SvcReq) (op status : Nat) (p : List Byte) (o : Nat) : (reply m c op status p o).free = m.free := rfl
@[simp] theorem reply_xb (m : Mach) (c : SvcReq) (op status : Nat) (p : List Byte) (o : Nat) : (reply m c op status p o).xb = m.xb := rfl
@[simp] theorem reply_is (m : Mach) (c : SvcReq) (op status : Nat) (p : List Byte) (o : Nat) : (reply m c op status p o).is_ = m.is_ := rfl
@[simp] theorem reply_ctl (m : Mach) (c : SvcReq) (op status : Nat) (p : List Byte) (o : Nat) : (reply m c op status p o).ctl = m.ctl := rfl
@[simp] theorem reply_flt (m : Mach) (c : SvcReq) (op status : Nat) (p : List Byte) (o : Nat) : (reply m c op status p o).flt = m.flt := rfl
@[simp] theorem reply_snp (m : Mach) (c : SvcReq) (op status : Nat) (p : List Byte) (o : Nat) : (reply m c op status p o).snp = m.snp := rfl
@[simp] theorem reply_wl (m : Mach) (c : SvcReq) (op status : Nat) (p : List Byte) (o : Nat) : (reply m c op status p o).wl = m.wl := rfl
@[simp] theorem reply_ln (m : Mach) (c : SvcReq) (op status : Nat) (p : List Byte) (o : Nat) : (reply m c op status p o).ln = m.ln := rfl
@[simp] theorem reply_eth (m : Mach) (c : SvcReq) (op status : Nat) (p : List Byte) (o : Nat) : (reply m c op status p o).eth = m.eth := rfl
@[simp] theorem reply_flw (m : Mach) (c : SvcReq) (op status : Nat) (p : List Byte) (o : Nat) : (reply m c op status p o).flw = m.flw := rfl
@[simp] theorem reply_cmp (m : Mach) (c : SvcReq) (op status : Nat) (p : List Byte) (o : Nat) : (reply m c op status p o).cmp = m.cmp := rfl
@[simp] theorem reply_aud (m : Mach) (c : SvcReq) (op status : Nat) (p : List Byte) (o : Nat) : (reply m c op status p o).aud = m.aud := rfl
@[simp] theorem reply_audCnt (m : Mach) (c : SvcReq) (op status : Nat) (p : List Byte) (o : Nat) : (reply m c op status p o).audCnt = m.audCnt := rfl
@[simp] theorem reply_apt (m : Mach) (c : SvcReq) (op status : Nat) (p : List Byte) (o : Nat) : (reply m c op status p o).apt = m.apt := rfl
@[simp] theorem reply_tmg (m : Mach) (c : SvcReq) (op status : Nat) (p : List Byte) (o : Nat) : (reply m c op status p o).tmg = m.tmg := rfl
@[simp] theorem reply_dt (m : Mach) (c : SvcReq) (op status : Nat) (p : List Byte) (o : Nat) : (reply m c op status p o).dt = m.dt := rfl
@[simp] theorem reply_mem (m : Mach) (c : SvcReq) (op status : Nat) (p : List Byte) (o : Nat) : (reply m c op status p o).mem = m.mem := rfl
@[simp] theorem reply_bus (m : Mach) (c : SvcReq) (op status : Nat) (p : List Byte) (o : Nat) : (reply m c op status p o).bus = m.bus := rfl
@[simp] theorem reply_pr (m : Mach) (c : SvcReq) (op status : Nat) (p : List Byte) (o : Nat) : (reply m c op status p o).pr = m.pr := rfl
@[simp] theorem reply_pwr (m : Mach) (c : SvcReq) (op status : Nat) (p : List Byte) (o : Nat) : (reply m c op status p o).pwr = m.pwr := rfl
@[simp] theorem reply_sys (m : Mach) (c : SvcReq) (op status : Nat) (p : List Byte) (o : Nat) : (reply m c op status p o).sys = m.sys := rfl
@[simp] theorem reply_out (m : Mach) (c : SvcReq) (op status : Nat) (p : List Byte) (o : Nat) : (reply m c op status p o).out = m.out := rfl
@[simp] theorem reply_images (m : Mach) (c : SvcReq) (op status : Nat) (p : List Byte) (o : Nat) : (reply m c op status p o).images = m.images := rfl

/-! `setTap` writes `aud` alone. -/

@[simp] theorem setTap_now (m : Mach) (o slot w : Nat) : (setTap m o slot w).now = m.now := rfl
@[simp] theorem setTap_free (m : Mach) (o slot w : Nat) : (setTap m o slot w).free = m.free := rfl
@[simp] theorem setTap_xb (m : Mach) (o slot w : Nat) : (setTap m o slot w).xb = m.xb := rfl
@[simp] theorem setTap_is (m : Mach) (o slot w : Nat) : (setTap m o slot w).is_ = m.is_ := rfl
@[simp] theorem setTap_ctl (m : Mach) (o slot w : Nat) : (setTap m o slot w).ctl = m.ctl := rfl
@[simp] theorem setTap_flt (m : Mach) (o slot w : Nat) : (setTap m o slot w).flt = m.flt := rfl
@[simp] theorem setTap_snp (m : Mach) (o slot w : Nat) : (setTap m o slot w).snp = m.snp := rfl
@[simp] theorem setTap_wl (m : Mach) (o slot w : Nat) : (setTap m o slot w).wl = m.wl := rfl
@[simp] theorem setTap_ln (m : Mach) (o slot w : Nat) : (setTap m o slot w).ln = m.ln := rfl
@[simp] theorem setTap_eth (m : Mach) (o slot w : Nat) : (setTap m o slot w).eth = m.eth := rfl
@[simp] theorem setTap_flw (m : Mach) (o slot w : Nat) : (setTap m o slot w).flw = m.flw := rfl
@[simp] theorem setTap_cmp (m : Mach) (o slot w : Nat) : (setTap m o slot w).cmp = m.cmp := rfl
@[simp] theorem setTap_audCnt (m : Mach) (o slot w : Nat) : (setTap m o slot w).audCnt = m.audCnt := rfl
@[simp] theorem setTap_apt (m : Mach) (o slot w : Nat) : (setTap m o slot w).apt = m.apt := rfl
@[simp] theorem setTap_tmg (m : Mach) (o slot w : Nat) : (setTap m o slot w).tmg = m.tmg := rfl
@[simp] theorem setTap_dt (m : Mach) (o slot w : Nat) : (setTap m o slot w).dt = m.dt := rfl
@[simp] theorem setTap_mem (m : Mach) (o slot w : Nat) : (setTap m o slot w).mem = m.mem := rfl
@[simp] theorem setTap_bus (m : Mach) (o slot w : Nat) : (setTap m o slot w).bus = m.bus := rfl
@[simp] theorem setTap_pr (m : Mach) (o slot w : Nat) : (setTap m o slot w).pr = m.pr := rfl
@[simp] theorem setTap_pwr (m : Mach) (o slot w : Nat) : (setTap m o slot w).pwr = m.pwr := rfl
@[simp] theorem setTap_upd (m : Mach) (o slot w : Nat) : (setTap m o slot w).upd = m.upd := rfl
@[simp] theorem setTap_sys (m : Mach) (o slot w : Nat) : (setTap m o slot w).sys = m.sys := rfl
@[simp] theorem setTap_out (m : Mach) (o slot w : Nat) : (setTap m o slot w).out = m.out := rfl
@[simp] theorem setTap_images (m : Mach) (o slot w : Nat) : (setTap m o slot w).images = m.images := rfl

end Sys2Proof.Machine
end

