-- ==== Sys2Proof/Laws/Shared.lean ====
section
/-! SUPPORT. What the operations that every block shares can change: events and responses write the control block alone; a change of
ROLE, a fault message and a snapshot trigger leave the blocks they do not name as they were. -/
namespace Sys2Proof.Machine

/-- The machine has changed in the control block alone. -/
def sameButCtl (m m' : Mach) : Prop := m' = { m with ctl := m'.ctl }

@[simp] theorem sameButCtl_refl (m : Mach) : sameButCtl m m := rfl

theorem sameButCtl.trans {a b c : Mach} (h : sameButCtl a b) (k : sameButCtl b c) : sameButCtl a c := by
  unfold sameButCtl at *; rw [k, h]

theorem sameButCtl_of (m : Mach) (c : Ctl) : sameButCtl m { m with ctl := c } := rfl

theorem sameButCtl_setSes (m : Mach) (n : Nat) (f : Session → Session) : sameButCtl m (setSes m n f) := rfl
theorem sameButCtl_setWin (m : Mach) (n : Nat) (f : Window → Window) : sameButCtl m (setWin m n f) := rfl
theorem sameButCtl_setCnt (m : Mach) (n : Nat) (f : SesCnt → SesCnt) : sameButCtl m (setCnt m n f) := rfl
theorem sameButCtl_fireVector (m : Mach) (p v : Nat) : sameButCtl m (fireVector m p v) := rfl

/-- Steps that write the control block alone do so one after another. -/
theorem sameButCtl_foldl {α : Type} (g : Mach → α → Mach) (h : ∀ m x, sameButCtl m (g m x)) (l : List α) (m : Mach) :
    sameButCtl m (l.foldl g m) := by
  induction l generalizing m with
  | nil => rfl
  | cons a r ih => exact (h m a).trans (ih (g m a))

theorem sameButCtl_signal (m : Mach) (n : Nat) : sameButCtl m (signal m n) := by
  unfold signal; split
  · exact sameButCtl.trans (sameButCtl_fireVector _ _ _) (sameButCtl_setSes _ _ _)
  · rfl

theorem sameButCtl_noteEntry (m : Mach) (n : Nat) (now : Bool) : sameButCtl m (noteEntry m n now) := by
  unfold noteEntry; dsimp only; split
  · exact sameButCtl.trans (sameButCtl_setSes _ _ _) (sameButCtl_signal _ _)
  · exact sameButCtl_setSes _ _ _

theorem sameButCtl_postEvt (m : Mach) (n code g : Nat) (b : List Byte) : sameButCtl m (postEvt m n code g b) := by
  unfold postEvt; dsimp only; split
  · exact sameButCtl.trans (sameButCtl_setSes _ _ _) (sameButCtl_setCnt _ _ _)
  · exact sameButCtl.trans (sameButCtl_setWin _ _ _) (sameButCtl.trans (sameButCtl_setSes _ _ _) (sameButCtl_noteEntry _ _ _))

/-- An event writes the control block alone (R426). -/
theorem sameButCtl_event (m : Mach) (code g : Nat) (b : List Byte) (also : Option Nat) : sameButCtl m (event m code g b also) :=
  sameButCtl_foldl _ (fun _ _ => sameButCtl_postEvt _ _ _ _ _) _ _

theorem sameButCtl_pairEvt (m : Mach) (c : Nat) : sameButCtl m (pairEvt m c) := sameButCtl_event _ _ _ _ _
theorem sameButCtl_powerEvt (m : Mach) (c : Nat) : sameButCtl m (powerEvt m c) := sameButCtl_event _ _ _ _ _

/-! The blocks that a fault message can never change, whatever record it reaches (R518 to R529): ROLE and what falls with it, the
clock outputs' grants, the snapshot unit and the memory's snapshot registers, the fault table and the control block are all
that moves. -/

/-- The blocks that fault messages, events, ROLE changes and snapshot triggers leave alone. -/
def apartFromFaults (m m' : Mach) : Prop :=
  m'.now = m.now ∧ m'.xb = m.xb ∧ m'.is_ = m.is_ ∧ m'.wl = m.wl ∧ m'.ln = m.ln ∧ m'.eth = m.eth ∧ m'.flw = m.flw ∧ m'.cmp = m.cmp ∧
    m'.aud = m.aud ∧ m'.audCnt = m.audCnt ∧ m'.apt = m.apt ∧ m'.dt = m.dt ∧ m'.bus = m.bus ∧ m'.upd = m.upd ∧ m'.sys = m.sys ∧
    m'.out = m.out

theorem apartFromFaults.refl (m : Mach) : apartFromFaults m m := by simp [apartFromFaults]

theorem apartFromFaults.trans {a b c : Mach} (h : apartFromFaults a b) (k : apartFromFaults b c) : apartFromFaults a c := by
  unfold apartFromFaults at *
  simp only [k, h, and_self]

theorem apartFromFaults_of_ctl {m m' : Mach} (h : sameButCtl m m') : apartFromFaults m m' := by
  rw [h]; simp [apartFromFaults]

theorem apartFromFaults_flt (m : Mach) (f : Flt) : apartFromFaults m { m with flt := f } := by simp [apartFromFaults]

theorem apartFromFaults_settleGrants (m : Mach) : apartFromFaults m (settleGrants m) := by simp [apartFromFaults]

theorem apartFromFaults_setRole (m : Mach) (r : Nat) : apartFromFaults m (setRole m r) := by
  unfold setRole; dsimp only; split <;> simp [apartFromFaults]

theorem apartFromFaults_fallRole (m : Mach) : apartFromFaults m (fallRole m) := by
  unfold fallRole; split
  · exact (apartFromFaults_setRole m 0).trans (apartFromFaults_of_ctl (sameButCtl_pairEvt _ _))
  · exact apartFromFaults_setRole m 0

theorem apartFromFaults_snapTrigger (m : Mach) (k : Nat) (w : BitVec 64) : apartFromFaults m (snapTrigger m k w).1 := by
  unfold snapTrigger
  split
  · dsimp only; split <;> simp [apartFromFaults]
  · split <;> simp [apartFromFaults, capturePcs]

theorem apartFromFaults_reached (m : Mach) (old : Nat) (had : Bool) (r : FaultRec) : apartFromFaults m (reached m old had r) := by
  unfold reached
  dsimp only
  have a (b : Bool) (m : Mach) : apartFromFaults m (if b = true then fallRole { m with flt := { m.flt with grave := true } } else m) := by
    split
    · exact (apartFromFaults_flt m _).trans (apartFromFaults_fallRole _)
    · exact .refl m
  have t (b : Bool) (k : Nat) (m : Mach) : apartFromFaults m (if b = true then (snapTrigger m k r.msg).1 else m) := by
    split
    · exact apartFromFaults_snapTrigger _ _ _
    · exact .refl m
  exact ((a _ m).trans (t _ 5 _)).trans (t _ 3 _)

theorem apartFromFaults_recordMsg (m : Mach) (src kind cls : Nat) (msg : BitVec 64) (cond inj : Bool) :
    apartFromFaults m (recordMsg m src kind cls msg cond inj).1 := by
  unfold recordMsg
  dsimp only
  split
  · exact (apartFromFaults_flt m _).trans (apartFromFaults_reached _ _ _ _)
  · split
    · exact (apartFromFaults_flt m _).trans (apartFromFaults_reached _ _ _ _)
    · split
      · exact apartFromFaults_flt m _
      · split
        · exact (apartFromFaults_flt m _).trans (apartFromFaults_reached _ _ _ _)
        · split
          · exact (apartFromFaults_flt m _).trans (apartFromFaults_reached _ _ _ _)
          · exact (apartFromFaults_flt m _).trans (apartFromFaults_reached _ _ _ _)

theorem apartFromFaults_faultEvt (m : Mach) (w : BitVec 64) (c : Nat) : apartFromFaults m (faultEvt m w c) :=
  apartFromFaults_of_ctl (sameButCtl_event _ _ _ _ _)

theorem apartFromFaults_takeFault (m : Mach) (src kind cls addr : Nat) (cond inj : Bool) :
    apartFromFaults m (takeFault m src kind cls addr cond inj) := by
  unfold takeFault
  dsimp only
  split
  · exact (((apartFromFaults_flt m _).trans (apartFromFaults_recordMsg _ _ _ _ _ _ _)).trans (apartFromFaults_settleGrants _)).trans
      ((apartFromFaults_flt _ _).trans (apartFromFaults_faultEvt _ _ _))
  · exact (((apartFromFaults_flt m _).trans (apartFromFaults_recordMsg _ _ _ _ _ _ _)).trans (apartFromFaults_settleGrants _)).trans
      (apartFromFaults_flt _ _)

/-- Raising a fault leaves every block but the fault table, ROLE, the grants, the snapshots and the control block alone. -/
theorem apartFromFaults_raise (m : Mach) (src kind cls addr : Nat) : apartFromFaults m (raise m src kind cls addr) :=
  apartFromFaults_takeFault _ _ _ _ _ _ _

theorem apartFromFaults_clearRec (m : Mach) (i : Nat) : apartFromFaults m (clearRec m i) := by
  unfold clearRec
  split
  · exact .refl m
  · exact ((apartFromFaults_flt m _).trans (apartFromFaults_settleGrants _)).trans (apartFromFaults_faultEvt _ _ _)

/-- The end of a condition leaves the same blocks alone (R522). -/
theorem apartFromFaults_endCond (m : Mach) (src kind : Nat) : apartFromFaults m (endCond m src kind) := by
  unfold endCond
  split
  · exact .refl m
  · dsimp only; split
    · exact .refl m
    · split
      · exact apartFromFaults_flt m _
      · exact apartFromFaults_clearRec _ _

/-! ### The rings -/

/-- With no entry waiting and nothing reported full, serving the rings changes nothing (R409, R423). -/
theorem engine_idle (rd : SnapReader) (m : Mach) (h : Safety.ringsIdle m = true) : engine rd m = m := by
  simp only [Safety.ringsIdle, Bool.and_eq_true, Bool.not_eq_true', List.isEmpty_iff] at h
  obtain ⟨⟨hr, hs⟩, hf⟩ := h
  unfold engine
  split
  · rfl
  · have hn : nextRung m [] = none := by simp [nextRung, hr]
    simp [hr, hf, takeAll, hn]

/-! ### ROLE and XL -/

theorem apartFromFaults_settleRole (m : Mach) : apartFromFaults m (settleRole m) := by
  have p (m : Mach) (x : Pair) : apartFromFaults m { m with pr := x } := by simp [apartFromFaults]
  unfold settleRole
  split
  · split
    · exact apartFromFaults_fallRole m
    · split
      · exact (p m _).trans (apartFromFaults_fallRole _)
      · exact .refl m
  · split
    · exact .refl m
    · exact apartFromFaults_setRole m _

/-- A message sent over XL is the last of those kept, and nothing else moves (R461). -/
theorem xlSend_eq (m : Mach) (x : XlMsg) : xlSend m x = { m with pr := { m.pr with sentXl := (xlSend m x).pr.sentXl } } := by
  unfold xlSend; rfl
@[simp] theorem xlSend_last (m : Mach) (x : XlMsg) : (xlSend m x).pr.sentXl.getLast? = some x := by simp [xlSend]

/-! ### Free values -/

/-- A free value's number is handed out once: the counter moves on, and nothing else. -/
@[simp] theorem fresh_number (m : Mach) : (fresh m).1 = m.free := rfl
@[simp] theorem fresh_state (m : Mach) : (fresh m).2 = { m with free := m.free + 1 } := rfl

/-! ### A budget tick -/

/-- What each part of a tick can change: the cores' counts and the kernels that stop, lanes and MAC counters, the memory controller,
the loads. -/
theorem coreTraffic_eq (m : Mach) : coreTraffic m = { m with
    audCnt := (coreTraffic m).audCnt, aud := { m.aud with stopped := (coreTraffic m).aud.stopped }, free := m.free + 256 } := by simp only [coreTraffic]
theorem linkTraffic_eq (m : Mach) : linkTraffic m = { m with
    ln := { m.ln with lanes := (linkTraffic m).ln.lanes }, eth := { m.eth with cnts := (linkTraffic m).eth.cnts }, free := m.free + 1024 } := by simp only [linkTraffic]
theorem reloadPorts_eq (m : Mach) : reloadPorts m = { m with mem := { m.mem with ports := (reloadPorts m).mem.ports } } := by simp only [reloadPorts]
theorem correctedReads_eq (m : Mach) : correctedReads m = { m with
    mem := { m.mem with pcs := (correctedReads m).mem.pcs }, free := m.free + 128 } := by simp only [correctedReads]
theorem copyTick_eq (m : Mach) : copyTick m = { m with aud := { m.aud with loads := (copyTick m).aud.loads } } := by simp only [copyTick]

/-- With the crossbar unpowered a tick measures the rails alone. -/
theorem tickTraffic_off (m : Mach) (h : m.pwr.rails = []) (hoff : targetOff m 22 = true) : tickTraffic m = m := by
  simp [tickTraffic, h, hoff]

/-! ### One step -/

/-- An empty queue idles. -/
@[simp] theorem step_idle (s : State) (h : s.pending = []) : step s = .next s := by simp [step, h]

end Sys2Proof.Machine
end

