-- ==== Sys2Proof/Machine/Package.lean ====
section
/-! DEFINITION. The balls of the package and the limits of the rails (chapters 17 and 21): constants of the part, which no
command changes. -/
namespace Sys2Proof.Machine

/-- A serial lane's balls (R573). -/
inductive LanePin where
  | txp
  | txn
  | rxp
  | rxn
  deriving DecidableEq, Repr

/-- What a ball carries (R572 to R575). Lanes 224 to 227 stand for HOST_A, 228 to 231 for HOST_B, 232 for SVC; a signal is its
position in the table of R574, a rail its number in R489. -/
inductive Ball where
  | gnd
  | lane (n : Nat) (pin : LanePin)
  | signal (p : Nat)
  | rail (k : Nat)
  deriving DecidableEq, Repr

/-- The ball of a lane cell, by its line from the outer one and its place along the edge (R573). -/
def cellBall (n line place : Nat) : Ball :=
  match line, place with
  | 0, 0 => .lane n .txp
  | 0, 1 => .lane n .txn
  | 2, 0 => .lane n .rxp
  | 2, 1 => .lane n .rxn
  | _, _ => .gnd

/-- The rail of a column of the supply region (R575). -/
def supplyRail (r c : Nat) : Nat :=
  if c = 11 then 2
  else if c = 12 then (if r ≤ 37 then 1 else 0)
  else if c ≤ 16 ∨ 51 ≤ c then 5
  else if c ≤ 18 ∨ 49 ≤ c then 6
  else if c ≤ 22 ∨ 46 ≤ c then 7
  else if c ≤ 25 ∨ 44 ≤ c then 3
  else 4

/-- What the ball at a row and column of 1 to 74 carries (R572 to R575). -/
def ballAt (r c : Nat) : Ball :=
  if r ≤ 12 then
    if c = 1 ∨ c = 74 then .gnd else cellBall (24 * ((r - 1) / 3) + (c - 2) / 3) ((r - 1) % 3) ((c - 2) % 3)
  else if 63 ≤ r then
    if c = 1 ∨ c = 74 then .gnd else cellBall (96 + 24 * ((74 - r) / 3) + (c - 2) / 3) ((74 - r) % 3) ((c - 2) % 3)
  else if r = 13 ∨ r = 62 then .gnd
  else if c ≤ 3 then cellBall (192 + (r - 14) / 3) (c - 1) ((r - 14) % 3)
  else if 72 ≤ c then cellBall (208 + (r - 14) / 3) (74 - c) ((r - 14) % 3)
  else if c ≤ 6 ∧ r ≤ 40 then cellBall (224 + (r - 14) / 3) (c - 4) ((r - 14) % 3)
  else if c = 4 ∧ r ≤ 57 then .signal (192 + (r - 41))
  else if 7 ≤ c ∧ c ≤ 10 then .signal (48 * (c - 7) + (r - 14))
  else if 11 ≤ c ∧ c ≤ 54 then (if (r + c) % 2 = 1 then .gnd else .rail (supplyRail r c))
  else .gnd

/-- The balls that carry something, counted over the whole map. -/
def countBalls (p : Ball → Bool) : Nat :=
  (span 1 74).foldl (fun a r => a + ((span 1 74).filter fun c => p (ballAt r c)).length) 0

/-- A rail's nominal voltage, good threshold and recommended range, in units of 0.1 mV (R489, R577); the regulator's own rails
have no range. -/
structure RailSpec where
  nominal : Nat
  good : Nat
  least : Nat
  most : Nat
  deriving DecidableEq, Repr

/-- The rails in the order of R489. -/
def railSpecs : List RailSpec :=
  [⟨18000, 17100, 17460, 18540⟩, ⟨33000, 31400, 32010, 33990⟩, ⟨18000, 17100, 17460, 18540⟩, ⟨8000, 7600, 7760, 8240⟩,
   ⟨7500, 7100, 7275, 7725⟩, ⟨8500, 8100, 8245, 8755⟩, ⟨12000, 11400, 11640, 12360⟩, ⟨11000, 10500, 10670, 11330⟩,
   ⟨7000, 6650, 7000, 7000⟩, ⟨6000, 5700, 6000, 6000⟩]

/-- A board rail at a voltage in units of 0.1 mV is good (R489). -/
def railGood (rail v : Nat) : Bool := decide ((lget ⟨0, 0, 0, 0⟩ railSpecs rail).good < v)


/-! ### Outline and handling (R571, R588) -/

/-- A figure of the part: its least, typical and greatest value, where the rule gives them. -/
structure Figure where
  item : String
  least : Option Int := none
  typ : Option Int := none
  most : Option Int := none
  deriving DecidableEq, Repr

/-- The package in µm; the mass in g (R571). -/
def outline : List Figure :=
  [⟨"body, square", some 79900, some 80000, some 80100⟩, ⟨"lid, square", some 77900, some 78000, some 78100⟩,
   ⟨"seating plane to lid top", some 4150, some 4400, some 4650⟩, ⟨"ball pitch", none, some 1000, none⟩,
   ⟨"ball diameter", some 550, some 600, some 650⟩, ⟨"ball stand-off", some 350, some 400, some 450⟩,
   ⟨"ball coplanarity", none, none, some 200⟩, ⟨"lid flatness", none, none, some 80⟩, ⟨"mass", none, some 110, some 118⟩]

/-- Moisture level under J-STD-020, reflows, their peak in °C (R571). -/
def handling : Nat × Nat × Nat := (4, 3, 250)

/-- Static load on the lid in N, and the bond line of its interface material in µm (R588). -/
def lidLoad : List Figure := [⟨"lid load", some 450, none, some 900⟩, ⟨"bond line", none, none, some 100⟩]

/-! ### Ratings and supplies (R576 to R579) -/

/-- Absolute ratings: mV, °C, N (R576). -/
def ratings : List Figure :=
  [⟨"VDD_CORE", some (-300), none, some 900⟩, ⟨"VDD_SRAM", some (-300), none, some 950⟩, ⟨"VDD_LANE", some (-300), none, some 1000⟩,
   ⟨"VDD_LANE_HI", some (-300), none, some 1400⟩, ⟨"VDD_MEM", some (-300), none, some 1300⟩,
   ⟨"VDDIO_18, VIN_AUX", some (-300), none, some 2100⟩, ⟨"VDDIO_33", some (-300), none, some 3800⟩,
   ⟨"input on a 1.8 V pin", some (-300), none, some 2100⟩, ⟨"input on a 3.3 V pin", some (-300), none, some 3800⟩,
   ⟨"lane receiver input, peak to peak", none, none, some 1200⟩, ⟨"junction", none, none, some 125⟩,
   ⟨"storage", some (-55), none, some 125⟩, ⟨"static lid load", none, none, some 1200⟩, ⟨"ESD HBM, lane balls", none, none, some 500⟩,
   ⟨"ESD HBM, other balls", none, none, some 1000⟩, ⟨"ESD CDM", none, none, some 250⟩]

/-- Greatest ripple of the board's rails, mV peak to peak, in the order of R489 (R577). -/
def ripple : List Nat := [30, 50, 30, 15, 15, 8, 8, 15]

/-- What a rail draws, in mA (R578). -/
structure Draw where
  active : Nat
  activeMax : Nat
  den : Nat
  denMax : Nat
  deriving DecidableEq, Repr

/-- The board's rails in the order of R489. -/
def draws : List Draw :=
  [⟨1800, 2800, 2300, 3300⟩, ⟨330, 400, 100, 200⟩, ⟨1100, 1400, 600, 800⟩, ⟨50000, 60000, 2000, 4000⟩, ⟨204000, 234200, 8000, 15300⟩,
   ⟨82000, 96000, 5000, 8000⟩, ⟨25000, 30000, 500, 1000⟩, ⟨60000, 70000, 7300, 10900⟩]

/-- Power in mW of currents in mA at voltages in units of 0.1 mV (R578). -/
def power (v : RailSpec → Nat) (i : Draw → Nat) : Nat :=
  ((railSpecs.zip draws).foldl (fun a x => a + v x.1 * i x.2) 0) / 10000

/-- What a kept XL bundle, a MAC with a wake matcher and a matcher draw in DEN: mA of VIN_AUX and of VDD_LANE; the greatest
draw of VIN_AUX in a fault (R578). -/
def denDraws : List (Nat × Nat) := [(240, 1500), (210, 300), (15, 0)]
def auxFaultDraw : Nat := 7100

/-- A load step of a rail in the order of R489: A, µs, and the wake steps at which it occurs; the same downwards at P2, P4 and
P5 (R579). -/
def loadSteps : List (Nat × Nat × Nat × List Nat) := [(4, 150, 10, [1, 7]), (3, 40, 10, [1]), (5, 60, 20, [5]), (6, 20, 20, [5]), (7, 45, 10, [4])]

/-! ### Pins and lanes (R580, R582 to R584) -/

/-- Levels of a group of low-speed pins in mV, and the current in mA at which its output levels hold (R580). -/
structure PinLevel where
  pins : String
  ring : Nat
  vil : Option Nat := none
  vih : Option Nat := none
  vol : Option Nat := none
  voh : Option Nat := none
  load : Nat := 0
  deriving DecidableEq, Repr

def pinLevels : List PinLevel :=
  [⟨"APT, QL_IN, SNAP_TRIG, PAIR_HB, SLOT_ID, JTAG, SVC_UART, FLASH", 2, some 630, some 1170, some 450, some 1350, 8⟩,
   ⟨"FAULT_N", 1, none, none, some 400, none, 8⟩, ⟨"BMC_SCL, BMC_SDA", 1, some 990, some 2310, some 400, none, 3⟩,
   ⟨"HOST_PERST_N", 1, some 800, some 2000, none, none, 0⟩]

/-- What REF_IN and XO accept: mV, MHz, ns, dBc/Hz (R582). -/
def refInputs : List Figure :=
  [⟨"REF_IN swing", some 100, none, some 1200⟩, ⟨"XO swing", some 300, none, some 1200⟩, ⟨"common mode", some 300, none, some 1500⟩,
   ⟨"XO clipped sine, peak to peak", some 600, none, some 1800⟩, ⟨"REF_IN frequency", none, none, some 750⟩,
   ⟨"REF_IN pulse, kinds 1 and 3", some 10, none, none⟩, ⟨"XO noise at 100 Hz", none, none, some (-125)⟩,
   ⟨"XO noise at 10 kHz", none, none, some (-145)⟩]

/-- A CLKOUT driver by LEVEL: its swing or high level in mV, edges in ps, jitter in fs (R583). -/
structure ClkLevel where
  level : String
  lo : Nat
  hi : Nat
  edge : Nat
  jitter : Nat
  jitterMax : Nat
  deriving DecidableEq, Repr

/-- In the order of LEVEL in R337; LVCMOS as R580 at 12 mA. -/
def clkLevels : List ClkLevel :=
  [⟨"LVDS", 250, 450, 250, 120, 200⟩, ⟨"HCSL", 600, 850, 700, 120, 200⟩, ⟨"CML", 300, 450, 200, 120, 200⟩,
   ⟨"LVCMOS", 450, 1350, 800, 400, 600⟩, ⟨"LVPECL-compatible", 600, 850, 250, 120, 200⟩]

/-- The clause that a lane's rate, in kbit/s, must meet (R584). -/
def laneSpecs : List (Nat × String) :=
  [(106250000, "IEEE 802.3 Clause 163"), (53125000, "Clause 137"), (25781250, "Clause 111"), (10312500, "Clause 72"),
   (1250000, "Clause 70"), (32000000, "PCI Express Base Specification 5.0")]

/-! ### Power and heat (R585 to R587, R589) -/

/-- Full-load power of a block in units of 0.1 W, typical and greatest (R585). -/
def blockPower : List (String × Nat × Nat) :=
  [("serial lanes", 997, 1176), ("crossbar", 500, 610), ("input stages and synchronisers", 260, 320), ("compositors", 400, 490),
   ("Ethernet MACs and flow contexts", 240, 300), ("audio domain and Shrew cores", 200, 240), ("memory controller and interface", 180, 220),
   ("memory stacks", 660, 770), ("timing, device time, APLLs", 40, 50), ("control, mailboxes, interconnect, host ports", 110, 136),
   ("Owl and always-on island", 32, 50), ("pad rings", 31, 38)]

/-- Power of the module in a state in W, typical and greatest: ACTIVE, SHADOW, waking, ROM service mode, DEN, OFF (R586). -/
def statePower : List (String × Nat × Nat) :=
  [("ACTIVE", 365, 440), ("SHADOW", 355, 430), ("waking", 355, 440), ("ROM service mode", 60, 85), ("DEN", 26, 44), ("OFF", 0, 0)]

/-- The hottest junction in m°C, at a lid temperature in m°C and a power in W, with the greatest ψ of 0.045 °C/W (R587). -/
def hottestJunction (lid watts : Int) : Int := lid + 45 * watts

/-- Accuracy after the offsets of R560 in units of 0.1 °C: case, junctions, memory dies (R589). -/
def sensorAccuracy : List Nat := [10, 20, 20]

end Sys2Proof.Machine
end

