-- ==== Sys2Proof/Tests/Slice0.lean ====
section
/-! SUPPORT. Witnesses and small tests. `witness_X` shows, for each clause of the statement `Obligations.X`, a concrete state and operands
that meet the clause's hypotheses together; each ends in `decide`. The states are small changes of the few that stand first; the end of a state's name (_w9) is the group of statements that it was made for. -/
open Sys2Proof Sys2Proof.Machine Sys2Proof.Safety
namespace Sys2Proof.Tests
set_option maxRecDepth 100000
set_option Elab.async false

/-- A claiming module that has booted, with one open expert session. -/
def rdy : State := { State.reset with
  sys := { State.reset.sys with phase := 0 }
  pr := { State.reset.pr with role := 8, fit := true, unprot := true, st := 2 }
  pwr := { State.reset.pwr with st := 0 }
  ctl := { State.reset.ctl with sessions := [(0, { st := .opn, grantEnd := some 1000000000 })] } }
/-- A standby. -/
def stby : State := { rdy with pr := { rdy.pr with role := 4 }, pwr := { rdy.pwr with st := 1 } }
/-- An entry header of session 0. -/
def hd : Hdr := { ses := 0, port := 0, hseq := 7 }
def paired_w3 : State := { rdy with
  pr := { rdy.pr with beat := some { claim := 4 * 2^28, rxA := 255, rxB := 255, fit := true }, unprot := false }
  wl := { rdy.wl with rx := (List.range 16).map fun i => (144 + i, { st := 5, farUp := true }) } }
def en_w3 (c : Cmd) (d : List Byte := []) : JEntry := { jseq := 5, kind := 0, ses := 0, hseq := 7, cmd := c, of := 5, room := 2, data := d }
def wj_w3 (s : State) (e : JEntry) : State := { s with ctl := { s.ctl with journal := [e], jnext := 6 } }
def wd_w3 : List Byte := [63,1] ++ le 2 100 ++ le 2 0 ++ le 2 0 ++ le 2 64 ++ le 2 64 ++ le 2 0 ++ le 2 0 ++ le 2 64 ++ le 2 64 ++ List.replicate 12 0
def f2_w3 := en_w3 (.cmpLayout 31 1 0) wd_w3
def w0_w3 : Win := (winOf wd_w3)
def lay_w3 (s : State) : Layout := match admitRates (plane s.toMach 0).fmt (plane s.toMach 0).fmt (cmpr s.toMach 31).com [(63, some (markWin s.toMach w0_w3))] (markScan s.toMach { (cmpr s.toMach 31).com with wins := tset (cmpr s.toMach 31).com.wins 63 w0_w3 }) with | .inl l => l | .inr _ => {}
def rd_w3 : List Byte := [15,1,3,1] ++ le 2 0 ++ le 2 0 ++ le 2 2 ++ le 2 1 ++ le 4 77 ++ List.replicate 16 0
def f3_w3 := en_w3 (.cmpGuard 31 1 0) rd_w3
def rr_w3 := (regionRecord (plane rdy.toMach 0).fmt (rdy.xb.epoch + 1) rd_w3).getD (0, none)
def rw_w3 : State := {rdy with cmp := {rdy.cmp with cmps := [(31, {com := lay_w3 rdy})]}}
def rw2_w3 : State := {rdy with cmp := {rdy.cmp with cmps := [(31, {com := {lay_w3 rdy with frozen := [63]}})]}}
def f4_w3 := en_w3 (.cmpFreeze 31 63 1)
def f4b_w3 := en_w3 (.cmpFreeze 31 63 0)
def t0_w3 := en_w3 (.tmgRefCfg 13 4 15 127 750000000 1 3600 49999 100000 50000 16 (-5))
def t1_w3 := en_w3 (.tmgApllCfg 7 60 0 16777215)
def t2_w3 := en_w3 (.tmgClkoutCfg 11 3 7 4 0 15 6 2 (-7))
def t3_w3 := en_w3 (.tmgWclkCfg 11 1 7 4 (-7))
def rwk_w3 : State := {rdy with tmg := {rdy.tmg with outs := [(11, {wclk := true})]}}
def t4_w3 := en_w3 (.tmgWclkCfg 11 0 7 4 (-7))
def v0_w3 := en_w3 (.dtCfg 1 10000)
def v1_w3 := en_w3 (.dtPinCfg 1)
def v2_w3 := en_w3 (.ptpCfg 127 1 2 3 4 7 5 (2^128-1))
def v3_w3 := en_w3 (.ptpPortCfg 15 255 7 0 0 3 0 1 2 3)
def rif_w3 : State := {rdy with flw := {rdy.flw with ifs := [(0, {ip4 := [10,0,0,1], pre4 := 8, gw4 := [0,0,0,0], ip6 := List.replicate 16 0, gw6 := List.replicate 16 0, pre6 := 0})]}}
def v4_w3 := en_w3 (.ptpPortCfg 15 0 6 (-7) 1 10 (-2) 1 2 3)
def v5_w3 := en_w3 (.ptpServoCfg 6 100 100000)
def v6_w3 := en_w3 (.memPortCfg 82 0xFFFF)
def u0_w3 := en_w3 (.pairChangeover 255 0)
def u1_w3 := en_w3 (.pairCfg 15 7 15 168 60)
def u2_w3 := en_w3 (.pwrCfg 3600 1)
def u3_w3 := en_w3 (.fltCfg 64 60000 3 64)
def u4_w3 := en_w3 (.snpCfg 31 3 4 5 6 7 999999999 8)
def u5_w3 := en_w3 (.updSvcCfg 1)
def pe_w8 : Pend := { epoch := 4, plane := 15, target := 3, eff := .route 9 (some 2340) (some 4095) 5 }
def s1_w8 : State := { rdy with xb := { rdy.xb with pend := [pe_w8], air := [(9, {plane := 15})], planes := rdy.xb.planes.map fun (x : Plane) => { x with nextSw := 3 } } }
def s1b_w8 : State := { s1_w8 with xb := { s1_w8.xb with planes := s1_w8.xb.planes.map fun (x : Plane) => { x with staging := true, nextSw := 3 } } }
def oa_w8 : OnAir := {epoch := 5, ses := 0, plane := 15, swcnt := 4, cold := 1, carried := 2}
def fm_w8 : SrcFmt := {total := 1125, lines := 1080, samples := 1920, scan := 0, rclass := 1, rate := 7}
def spr_w8 : State := {rdy with is_ := { rdy.is_ with pairs := [(16*5, {cls := 2, inside := true, qcount := 15})], srcs := [(5, {present := true, ever := true, fmt := fm_w8, cur := some 1})] }}
def lk_w9 (l : Nat) (r : WlRx) (t : WlTx := {}) : State := { rdy with wl := { rdy.wl with rx := [(l, r)], tx := [(l, t)] }, ln := { rdy.ln with lanes := [(l, {ready := true, lock := true, fitted := true, flags := 63, rate := 5})] } }
def wf_w9 : WlFrame := {levels := List.replicate 100 3, at_ := 77}
def hdr0_w9 : BitVec 64 := ({seq := 4095, typ := 0, claim := 8*2^28 + 77, nack := none, resend := false, rxUp := true} : Hd).word
def sl_w9 (l : Nat) (t : WlTx) : State := lk_w9 l {st := 5, mode := 3} t
def stm_w9 := sl_w9 143 {pos := 4095, cal := 0, nacks := [7,8], slots := [(0, {words := [1,2,3], recs := [{line := 1, len := 3, frame := 0}]})]}
def rsd_w9 := sl_w9 143 {pos := 4095, cal := 11, resends := [5], replay := [{pos := 5, hdr := hdr0_w9, payload := 6}]}
def svd_w9 := sl_w9 143 {pos := 4095, cal := 11, svc := [{cls := 1, msg := 5, bytes := [1,2]}]}
def hdr1_w9 : BitVec 64 := ({seq := 4095, typ := 1, claim := 8*2^28 + 77, nack := none, resend := false, rxUp := true} : Hd).word
def ll_w9 (k : Nat) (x : Lane) : State := { rdy with ln := { rdy.ln with lanes := [(k, x)] }}
def sc_w9 : Scan := {id := 4, lane := 150, ses := 0, hseq := 9, eye := 0, k := 30, sp := 8, sv := 8, thr := 5, off := 64, at_ := 0}
def sw_w9 : SvcWait := {ses := 0, hseq := 9, lane := 3, msg := 5, deadline := 0, off := 0, max := 8}
def withFcs_w10 (f : List Byte) : List Byte := f ++ fcs f
def ip1_w10 : List Byte := [239,1,2,3]
def pad16_w10 (a : List Byte) : List Byte := a ++ List.replicate (16 - a.length) 0
def rtpB_w10 (seq ts : Nat) (body : List Byte) : List Byte := be 1 0x80 ++ be 1 0xE0 ++ be 2 seq ++ be 4 ts ++ be 4 77 ++ body
def vbody_w10 : List Byte := be 2 0 ++ be 2 5 ++ be 2 3 ++ be 2 0 ++ [1,2,3,4,5]
def ud_w10 (dport : Nat) (rtp : List Byte) : List Byte := let u := udp [10,0,0,1] ip1_w10 5000 dport true rtp; ip4Header 0 0 64 17 u.length [10,0,0,1] ip1_w10 ++ u
def mA_w10 : Nat := 0x0A0B0C0D0E0F
def frm_w10 (etype : Nat) (p : List Byte) : List Byte := withFcs_w10 (ethFrame mA_w10 0x112233445566 none etype p)
def dv_w10 : Desc := { typ := 0, dir := 0, mac := 0, daddr := pad16_w10 ip1_w10, dport := 5004, pt := 96, width := 1920, height := 1080, depth := 10, offset := 20000000, mwin := 1000 }
def da_w10 : Desc := { dv_w10 with typ := 1, nch := 2, afmt := 0, dport := 5005 }
def sn_w10 (c : Ctx) : State := { rdy with eth := { rdy.eth with macs := [(0, {link := true, addr := mA_w10})] }, flw := { rdy.flw with ctxs := [(16383, c)] } }
def sv_w10 : State := sn_w10 { st := 2, d := dv_w10, offset := 20000000, based := true }
def fv_w10 : List Byte := frm_w10 0x0800 (ud_w10 5004 (rtpB_w10 5 0 vbody_w10))
def up_w10 : State := sn_w10 {}
def tq_w10 : State := {sv_w10 with eth := {sv_w10.eth with macs := [(0, {link := true, addr := mA_w10, txq := [{ctx := some 9, seq := 4, frame := [1,2]}, {ctx := none, frame := [3]}]})]}}
def sus_w10 : State := { sn_w10 { st := 2, d := { dv_w10 with dir := 1, daddr := pad16_w10 [10,0,0,9] } } with flw := { (sn_w10 { st := 2, d := { dv_w10 with dir := 1, daddr := pad16_w10 [10,0,0,9] } }).flw with ifs := [(0, {ip4 := [10,0,0,2], pre4 := 24, gw4 := [10,0,0,1]})]}}
def mb_w10 : Member := {mac := 0, tci := 65536, v6 := false, addr := pad16_w10 ip1_w10, ctxs := [(5, none)], again := [(4, [])], query := some []}
def smb_w10 : State := {sus_w10 with flw := { sus_w10.flw with members := [mb_w10]}}
def pk_w10 : RxPkt := {seq := 5, ts := 0, marker := true, at_ := 0, data := vbody_w10}
def slr_w10 (f : Ctx → Ctx) (t : Nat) : State := let s := sn_w10 (f { st := 3, port := 1151, d := dv_w10, offset := 20000000, based := true, buf := [pk_w10, {pk_w10 with seq := 6, data := be 2 0 ++ be 2 5 ++ be 2 9 ++ be 2 0 ++ [1,2,3,4,5]}] }); { s with dt := {s.dt with t := t} }
def sau_w10 (t : Nat) (b : List RxPkt) : State := let s := sn_w10 { st := 2, d := da_w10, offset := 20000000, nextTs := some 1, buf := b}; { s with dt := {s.dt with t := t} }
def sl_w10 (ls : Int) (b : List RxPkt) : State := let s := sn_w10 { st := 2, d := da_w10, offset := 20000000, lateSum := ls, lateN := 1000, buf := b, inserting := true, dropping := true}; s
def spl_w10 (t : Nat) : State := let s := sn_w10 { st := 2, d := { dv_w10 with partner := 7}, pathUp := true}; { s with dt := {s.dt with t := t} }
def w_w10 : SwapTo := {ctx := some 16383, plane := 0, target := 5, epoch := 6, ses := 0, keep := false, tick := 0}
def ssw_w10 (t : Nat) (k : List Kept) (w_w10 : SwapTo) : State := let s := sn_w10 { st := 2, d := { dv_w10 with joinWait := 100}, kept := k, offset := 20000000, based := true}; { s with dt := {s.dt with t := t}, flw := {s.flw with ports := [(1151, { swap := some w_w10 })]} }
def kp_w10 : List Kept := [{seq := 8, at_ := 0, who := 16383, ts := 3000, marker := true}, {seq := 7, at_ := 0, who := 16383, ts := 3000, marker := false},{seq := 6, at_ := 0, who := 16383, ts := 0, marker := true}]
def sc_w11 (c : Cmp) (k : Nat := 31) : State := { rdy with cmp := { rdy.cmp with cmps := [(k, c)] } }
def w0_w11 : Win := {src := 5, dstX := 0, dstY := 0, dstW := 64, dstH := 32}
def c1_w11 : Cmp := { frames := 2^32 - 1, lat := {count := 7, layout := { plane := 3, wins := [(0, w0_w11)] } } }
def hot_w11 (t : Nat) (s : State) : State := {s with flt := { s.flt with caseTemp := t }}
def cool_w11 (s : State) : State := {s with now := 1000 * msT, flt := { s.flt with coolSince := some 0 }, aud := {s.aud with shedClusters := 1}}
def allsh_w11 : State := { rdy with cmp := { rdy.cmp with cmps := (List.range 32).map fun k => (k, {shed := true}) } }
def ap_w11 (a : Apt) : State := { rdy with apt := {rdy.apt with ports := [(31, a)]}, dt := {rdy.dt with t := secU} }
def ag_w11 (n : Nat) : AGroup := {next := some n, gap := 0, last := [5,6]}
def gs_w11 (n : Nat) : State := {rdy with dt := {rdy.dt with t := secU}, aud := {rdy.aud with groups := [(2303, ag_w11 n)]}}
def ld_w11 (c : Nat) : State := {rdy with aud := {rdy.aud with ready := 5, loads := [{cluster := 15, copied := c, ses := 0}]}}
def cfgA_w11 : AptCfg := {s := 2, w := 32, m := 24, enable := true}
def lt_w11 : Nat := (lossTime {fine := 48000000}).getD 0
def ca_w12 (c : Nat) (x : Cand) (d : Dpll) (now : Nat := 5000000000) : State := {rdy with now := now, tmg := {rdy.tmg with cands := [(c, x)], dpll := d}}
def q4_w12 (s : Nat := 4) (w : Option Nat := none) : Cand := {present := true, st := s, cfg := {kind := 1, prio := 1, qlfix := 2, lossn := 3, hard := 10000000}, qleff := 2, qlrx := 2, waitEnd := w}
def qq_w12 := [(Cmd.tmgSelCfg 1 3 1 10 12, ([] : List Byte))]
def sap_w12 (x : Apll) (now : Nat := 50000000) : State := {rdy with now := now, tmg := {rdy.tmg with aplls := [(7, x)]}}
def rq_w13 (k : Nat) (d : Int) : StepReq := {delta := d, kind := k, at_ := 5, ses := none}
def srq_w13 (k : Nat) (d : Int) : State := {rdy with dt := {rdy.dt with t := 5, reqs := [rq_w13 k d]}, aud := {rdy.aud with groups := [(5, {next := some 4})]}}
def pp_w13 (x : PtpPort) (f : Nat := 0) : State := {rdy with dt := {rdy.dt with ptp := {rdy.dt.ptp with flags := f, ports := [(15, {x with mac := some 60})]}}, eth := {rdy.eth with macs := [(60, {link := true, addr := 77})]}, flw := {rdy.flw with ifs := [(60, {ip4 := [10,0,0,2]})]}}
def fw_w13 (src kind cls addr : Nat) : BitVec 64 := BitVec.ofNat 64 (src * 2^52 + kind*2^44 + cls*2^40 + addr)
def fr_w13 (src kind cls : Nat) (cond : Bool) : FaultRec := {src, kind, msg := 5, first := 1, latest := 7, stamps := [7], base := cls, cond}
def full_w13 : State := {rdy with flt := {rdy.flt with recs := List.replicate 2048 (fr_w13 1 2 1 false)}}
def one_w13 (r : FaultRec) : State := {rdy with flt := {rdy.flt with recs := [fr_w13 1 2 0 false, r]}}
def st_w13 (e h : Nat) : State := {rdy with snp := {rdy.snp with enables := e, slots := rdy.snp.slots.set 0 {st := 2, held := true}}}
def sp_w14 (x : Pc) (y : Stack := {}) : State := {rdy with now := 600000, mem := {rdy.mem with pcs := [(127, x)], stks := [(3, y)]}, aud := {rdy.aud with rings := [(3, [(64*31, 5), (0, 6)])]}}
def so_w14 (x : Session) (now : Nat := 500000000) : State := {rdy with now := now, ctl := {rdy.ctl with sessions := [(63, x)], windows := []}, pr := {rdy.pr with unprot := true}}
def ej_w14 : JEntry := { jseq := 5, kind := 0, ses := 63, hseq := 7, cmd := .bankSwap 3, of := 5, room := 2, unacked := true, tick := 500000000 - 5000, waiting := true }
def sej_w14 (e : JEntry) (u : Bool) : State := let s := so_w14 {st := .opn, reserved := 2}; {s with ctl := {s.ctl with journal := [e], jnext := 6}, pr := {s.pr with unprot := u}}
def w_w15 (x : State) : State := { x with pr := { x.pr with watching := true, pathA := {lost := true, ever := true}, pathB := {lost := true}, pathPin := {miss := 15} } }
def ej_w15 : JEntry := { jseq := 5, kind := 0, ses := 63, hseq := 7, cmd := .bankSwap 3, of := 5, room := 2, unacked := true, tick := 0, waiting := true }
def sej_w15 : State := let s : State := {rdy with ctl := {rdy.ctl with sessions := [(63, {st := .opn, reserved := 2})]}}; {s with ctl := {s.ctl with journal := [ej_w15], jnext := 6}}
def wv_w15 : Saved := { epochs := [{epoch := 5, dests := []}] }
def snd_w15 : State := {paired_w3 with pr := {paired_w3.pr with kept := [(7, wv_w15)]}}
def ch_w15 (s : State) (c : Changeover) : State := {s with now := 10*1000*msT, dt := {s.dt with t := 5000000*nsU}, pr := {s.pr with chg := some c}}
def c1_w15 : Changeover := {phase := 1, c := 0, warmMax := 10, plane := 0}
def c2_w15 : Changeover := {phase := 2, c := 0, warmMax := 10, plane := 0, x := some (6000000*nsU)}
def c3_w15 : Changeover := {c2_w15 with x := some (5000000*nsU), phase := 3}
def fo_w15 (s : State) (x : Nat) : State := {s with dt := {s.dt with t := secU}, pr := {s.pr with formerAt := some x}}
def den_w15 : State := {stby with now := 24*3600*1000*msT, pwr := {stby.pwr with st := 2}, pr := {stby.pr with beat := some { claim := 8 * 2^28, rxA := 255, rxB := 255, fit := true }}}
def dr_w15 : State := {stby with pr := {stby.pr with drilling := true, st := 4}}
def pw_w16 (p : Pwr) (r : Pair := stby.pr) : State := {stby with now := 300*1000*msT, pwr := p, pr := r}
def sb_w16 := stby.pwr
def hs_w16 : State := let s := pw_w16 {sb_w16 with cause := 4, holdFrom := some 0}; {s with ctl := {s.ctl with sessions := []}}
def ws_w16 (k : Nat) (p : Pwr := {}) := pw_w16 {p with st := 4, phase := k}
def wv_w16 : Saved := { head := {epoch := 55}, epochs := [{epoch := 5, dests := []}] }
def st0_w17 : State := State.reset
def ph_w17 (k : Nat) (f : State → State := id) : State := f {st0_w17 with now := 1000*msT, sys := {st0_w17.sys with phase := k}}
def sl_w17 (f : Upd → Upd) : State := ph_w17 4 fun s => {s with upd := f s.upd}
def pd_w17 (p : Pair) : State := ph_w17 7 fun s => {s with sys := {s.sys with btUsed := 1}, pr := p}
def n2_w19 := en_w3 (.wakePattern 7 0 60 5 1)
def cq_w19 : SvcReq := {client := 5, tag := 7}
def rx1_w19 (x : Xfer) : State := {rdy with now := 60001*msT, upd := {rdy.upd with xfer := some x}}
def xf_w19 (st : Nat) (a : List SvcReq := []) : Xfer := {client := 5, slot := 1, len := 4096, st := st, asked := a}
def ssy_w19 : State := {rdy with dt := {rdy.dt with t := 10^7 * nsU}, is_ := { rdy.is_ with pairs := [(16*5, {cls := 3, sync := true})], srcs := [(5, {mode := 1, line1T := 10^7 * nsU})] }}
def lsy_w19 : LineIn := {line := 5, words := [1,2], at_ := some ((leadInstant (plane ssy_w19.toMach 0) 5 (10^7 * nsU)).toNat - 100000 * nsU), ancLost := 2}
def fm_w19 : SrcFmt := {total := 1125, lines := 1080, samples := 1920, scan := 0, rclass := 1, rate := nearestRate 20000000000}
def fsh_w19 : FrameShape := {total := 1125, lines := 1080, samples := 1920, rclass := 1, period := 20000000000}
def spr_w19 : State := {rdy with is_ := { rdy.is_ with pairs := [(16*5, {cls := 2, inside := true, qcount := 15})], srcs := [(5, {present := true, ever := true, fmt := fm_w19, cur := some 1})] }}
def sfd_w19 : State := {rdy with is_ := { rdy.is_ with feeds := [(2047, {valid := true, src := 5, plane := 3, started := true, last := 4})], pairs := [(16*5+3, {cls := 2})], srcs := [(5, {present := true, ever := true, fmt := fm_w19, bufs := [{st := 2, num := 6, fmt := fm_w19},{},{}]})] }}
def slo_w19 : State := {rdy with now := 10^9, is_ := { rdy.is_ with srcs := [(5, {present := true, ever := true, fmt := fm_w19})] }}
def tk_w20 : Nat := 3 * 2^52 + 100 * 2^40 + 3 * 2^38 + 101 * 2 ^ 20
def frec_w20 : FaultRec := {src := 1, kind := 1, msg := 0, first := 0, latest := 0, base := 1}
def w20rfl : State := {rdy with flt := {rdy.flt with recs := [frec_w20]}}
def rsn_w20 : State := {rdy with snp := {rdy.snp with enables := 2}}
def rat_w20 : State := {rdy with ctl := {rdy.ctl with sessions := [(0, {st := .detached, key := 5})]}}
def rup_w20 : State := {rdy with upd := {rdy.upd with running := true, slotA := {sr := {valid := true}}}}
def e1_w21 := en_w3 (.take tk_w20 0)
def e2_w21 := en_w3 (.protect 2303 1 0)
def e3_w21 := en_w3 (.bankSwap 15)
def s3_w21 : State := { wj_w3 rdy e3_w21 with xb := { rdy.xb with loads := [{plane := 15, ses := 0, entries := []}], planes := rdy.xb.planes.map fun (x : Plane) => { x with ready := true } } }
def m3_w21 : Mach × List Item := match commitTakes (commitCtx s3_w21.toMach e3_w21) (some 0) [] 0 s3_w21.toMach with | .commit m i => (m, i) | _ => (s3_w21.toMach, [])
def e4_w21 := en_w3 (.destBind 2303 1 0)
def e5_w21 := en_w3 (.destBind 2303 1 15)
def e6_w21 := en_w3 (.destAudio 1151 1 1)
def g0_w21 := en_w3 (.srcMode 2303 1 1 255)
def g1_w21 := en_w3 (.srcMode 2303 0 1 255)
def g2_w21 := en_w3 (.srcWarm 2303 1)
def g3_w21 := en_w3 (.srcGroup 2 5 2303 4095 4095)
def g4_w21 := en_w3 (.srcWindow 2303 80 64)
def g5_w21 := en_w3 (.genCfg 63 255 3 1 1023 1023 1023)
def g6_w21 := en_w3 (.planeCfg 15 1 0 5 10 10)
def g7_w21 := en_w3 (.planeSwitch 15 0 2000)
def opn_w21 : State := {rdy with ctl := {rdy.ctl with sessions := [(0, {st := .opening})]}}
def h0_w21 := en_w3 (.sessionOpen 77 0 511 64 1000)
def h1_w21 := en_w3 (.sessionClose 255)
def h2_w21 := en_w3 (.subscribe 511 64 1000)
def h3_w21 := en_w3 (.expertGrant 1 3600)
def h4_w21 := en_w3 (.expertGrant 0 7)
def h5_w21 := en_w3 (.sessionBudget 0 0 32 125)
def n0_w21 := en_w3 (.ethPortSplit 15 3)
def n1_w21 := en_w3 (.ethMacCfg 60 0x0A0B0C0D0E0F 9216)
def rsp_w21 : State := {rdy with eth := {rdy.eth with split := [(15, 2)]}}
def n3_w21 := en_w3 (.wakePattern 7 1 60 5 1)
def db_w21 : List Byte := [0,0,0,0] ++ le 2 0 ++ [0,0] ++ [239,1,2,3] ++ List.replicate 12 0 ++ List.replicate 16 0 ++ le 2 5004 ++ le 2 0 ++ le 4 0 ++ [96,0] ++ le 2 1151 ++ le 4 0 ++ [0,0] ++ le 2 0xFFFF ++ le 4 20000000 ++ le 4 0 ++ le 2 0 ++ [0,2] ++ le 4 100 ++ le 2 1920 ++ le 2 1080 ++ [0] ++ List.replicate 47 0
def n4_w21 := en_w3 (.flowDefine 16383 0 0) db_w21
def fl_w21 (k : Nat) (f : Desc → Desc := id) : State := {rdy with flw := {rdy.flw with ctxs := [(16383, {st := k, d := f (descOf db_w21)})]}}
def n5_w21 := en_w3 (.flowDefine 16383 2 0)
def n6_w21 := en_w3 (.flowDefine 16383 3 0)
def n7_w21 := en_w3 (.flowDefine 16383 4 0)
def n8_w21 := en_w3 (.flowPort 0xFFFF 1151 1)
def n9_w21 := en_w3 (.flowPort 16383 1151 1)
def n10_w21 := en_w3 (.flowIf 60 0) ([10,0,0,1,32,0,0,0] ++ List.replicate 8 0 ++ List.replicate 16 0 ++ [128] ++ List.replicate 31 0)
def n11_w21 := en_w3 (.flowOffset 16383 0 100000000)
def k0_w21 := en_w3 (.cmpBind 31 0 3 63 (2^30-1))
def cf_w21 : List Byte := ((List.range 64).flatMap fun _ => le 2 1024 ++ List.replicate 14 0) ++ ((List.range 64).flatMap fun _ => le 2 1024 ++ List.replicate 10 0)
def k5_w21 := en_w3 (.cmpCoef 31 7 0) cf_w21
def mx_w21 : List Byte := le 2 5 ++ [31] ++ List.replicate 5 0 ++ le 8 0
def a0_w21 := en_w3 (.audMix 1 63 255 0) mx_w21
def rag_w21 (b : Bool) : State := {rdy with aud := {rdy.aud with groups := [(5, {convert := b})]}, is_ := {rdy.is_ with srcs := [(5, {present := true, ever := true})]}}
def a1_w21 := en_w3 (.audGroup 5 0)
def a2_w21 := en_w3 (.audGroup 5 1)
def a3_w21 := en_w3 (.audOffset 2303 500000)
def a4_w21 := en_w3 (.audHistory 5 1 480000)
def a5_w21 := en_w3 (.audMeter 5 1 1 0)
def a6_w21 := en_w3 (.audBankSwap (2^15))
def rab_w21 : State := {rdy with aud := {rdy.aud with loads := [{cluster := 15, ses := 0}], ready := 2^15}}
def a7_w21 := en_w3 (.audRate 1)
def a8b_w21 := en_w3 (.aptCfg 31 2 32 32 24 1 32 250 750)
def a8c_w21 := en_w3 (.aptCfg 31 2 32 32 24 0 32 250 750)
def a9_w21 := en_w3 (.aptRing 31 4096)
def rrm_w22 : State := {rdy with bus := {rdy.bus with remap := true}}
def ring_w22 (n : Nat) (h : Nat) : State := {rdy with ctl := {rdy.ctl with windows := [(0, {cmdTail := n, cmdHead := h, respTail := 5, evtTail := 7})]}}
def rrom_w22 : State := {rdy with upd := {rdy.upd with slotB := {sr := {valid := true}}}}
def rsl_w22 : State := {rdy with snp := {rdy.snp with slots := rdy.snp.slots.map fun (x : SnapSlot) => {x with st := 2}}}
def rep_w22 : State := {rdy with bus := {rdy.bus with remap := true}, xb := {rdy.xb with epoch := 5 * 2^32 + 7}}
def rfc_w22 : State := {rdy with mem := {rdy.mem with ports := [(81, {force := some 0})]}}
def gb_w23 : WlBlock := {at_ := {pos := 9}, blk := {hdr := hdr0_w9, crc := crc32c (blockBytes hdr0_w9 0)}}
def bb_w23 : WlBlock := {at_ := {pos := 9}, blk := {cwOk := false}}
def idl_w23 := sl_w9 143 {pos := 4095, cal := 11}
def btd_w23 := sl_w9 143 {pos := 4095, cal := 11, beatDue := true}
def lt_w23 (l : Nat) (r : WlRx) : State := let s := lk_w9 l r; {s with dt := {s.dt with t := 10^9 * nsU}}
def z0_w23 : RxPos := {pos := 4095, cal := 5, at_ := 3}
def pl7_w23 : BitVec 4096 := BitVec.ofNat 4096 (7 * 2 ^ 4093 + 5 * 2 ^ 4078 + 9 * 2 ^ 4064 + 3 * 2 ^ 4055)
def spm_w24 : State := {sv_w10 with mem := {sv_w10.mem with ports := [(13, {force := some 0})]}}
def pq_w24 (dp : Nat) : List Byte := ud_w10 dp (rtpB_w10 5 0 (vbody_w10 ++ List.replicate 40 0))
def ssx_w24 (t : Nat) (k : List Kept) (w_w10 : SwapTo) : State := let s := ssw_w10 t k w_w10; {s with xb := {s.xb with planes := s.xb.planes.map fun (x : Plane) => {x with nextSw := 9}}}
def ful_w24 (n : Nat) : State := {sv_w10 with eth := {sv_w10.eth with split := [(0, 2)], macs := [(0, {link := true, addr := mA_w10, rxq := [{frame := List.replicate n 0, stamp := 0}]})]}}
def aq_w25 (g : AGroup) (q : List (Nat × List Int × List Nat)) (t : Nat := secU) : State := {rdy with dt := {rdy.dt with t := t}, is_ := {rdy.is_ with srcs := [(2303, {audioQ := q, ever := true, present := true})]}, aud := {rdy.aud with groups := [(2303, g)]}}
def stp_w25 : State := {rdy with aud := {rdy.aud with taps := [(0, unityTap 0 0), (1, unityTap 1 0)], rings := [(0, [(77, container false false (2^23-1))]), (1, [(77, container false false (2^23-1))])]}}
def rr_w25 : RefRec := {lane := 143, refid := 15, kind := 1, cardHold := true, stale := false, event := 1, spos := 0, ql := 3, present := true, pnum := 1000, pden := 1, soff := 7, came := 5000000000}
def lr_w25 : State := let s := ca_w12 11 {} {}; {s with tmg := {s.tmg with lrefs := [(7, (143, 15))]}, wl := {s.wl with refQ := [rr_w25], refs := [(16*143+15, rr_w25)], rx := [(143, {st := 5, delay := 44})]}}
def fd_w25 : State := let s := sp_w14 {}; {s with is_ := {s.is_ with feeds := [(2047, {valid := true, src := 5, plane := 3, buf := some 1})], srcs := [(5, {bufs := [{}, {st := 2, num := 3, fmt := {total := 1125, lines := 1080, samples := 1920}}, {}]})]}}
def full_w25 (j : Bool) : State := {rdy with now := 500000000, ctl := {rdy.ctl with jfull := j, journal := List.replicate 8192 {ej_w14 with st := 1}, rung := [{ses := 0, port := 0, hare := false, opcode := 0x0101, hseq := 9, cmd := some (.bankSwap 3), jwait := some 1}]}}
def bt_w25 : State := {rdy with ctl := {rdy.ctl with sessions := [(0, {st := .opn, usedCmds := 5, usedHare := 6, heldTick := true})]}, flt := {rdy.flt with recs := [{src := 1, kind := 1, msg := 0, first := 0, latest := 0, base := 0, supp := some 3}]}}
def hov_w25 : State := {rdy with now := 5, pr := {rdy.pr with unprot := false, beat := some { claim := 4 * 2^28 + 15 * 2^24, rxA := 255, rxB := 255, fit := true }, cfg := {rdy.pr.cfg with demote := 15}}, wl := { rdy.wl with rx := (List.range 16).map fun i => (144 + i, { st := 5, farUp := true }) }, flt := {rdy.flt with recs := [{src := 1, kind := 1, msg := 0, first := 0, latest := 0, base := 2}]}}
def fmq_w25 : SrcFmt := {total := 1125, lines := 1080, samples := 1920, scan := 0, rclass := 1, rate := nearestRate 20000000000}
def fsq_w25 : FrameShape := {total := 1125, lines := 1080, samples := 1920, rclass := 1, period := 20000000000}
def btd_w25 : State := {bt_w25 with pwr := {bt_w25.pwr with st := 2}}
def hovd_w25 : State := {hov_w25 with pwr := {hov_w25.pwr with st := 2}, pr := {hov_w25.pr with pathA := {ever := true}}}
def cx_w26 (s : State) (c : List (Nat × XlMsg)) : State := {s with pr := {s.pr with copies := c}, wl := { s.wl with rx := (List.range 16).map fun i => (144 + i, { st := 5, farUp := true }) } }
def chs_w26 : State := {stby with pr := {stby.pr with chg := some {phase := 1, c := 0, warmMax := 10, plane := 0}}}
def lnok_w26 : Lanes := {stby.ln with lanes := (List.range 224).map fun k => (k, {fitted := true, ready := true})}
def cup_w26 (s : State) (c : List (Nat × XlMsg)) : State := {s with pr := {s.pr with copies := c, beat := some { claim := 4 * 2^28, rxA := 255, rxB := 255, fit := true }}, wl := { s.wl with rx := (List.range 16).map fun i => (144 + i, { st := 5, farUp := true }) } }
def rbad_w26 : List Byte := [1, 2, 3, 4, 5, 6, 7, 8]
def rs_w31 : State := (let s := pw_w16 {sb_w16 with reseed := true} {stby.pr with fit := false, seeded := true, role := 0, stale := true, starting := false}; {s with sys := {s.sys with phase := 7}})
def fb_w31 (l : List (Nat × Nat)) : State := {rdy with xb := {rdy.xb with fbRet := l}}

/-- A receive buffer that holds one frame of n bytes is n bytes full. -/
theorem full_fill (n : Nat) : rxFill (mac (ful_w24 n).toMach 0) = n := by
  show 0 + (List.replicate n (0 : Byte)).length = n
  simp


/-! ### Witnesses -/

theorem witness_StepRunsFrontCommand :
  ∃ (s : State), s.pending = [] :=
  ⟨rdy, by decide +kernel⟩

theorem witness_WellFormedCommandsComplete :
  (∃ (i : Instr) (s : State), i.wf = true) ∧
  (∃ (i : Instr) (s : State), i.wf = false) :=
  ⟨⟨.changeSetCommit, rdy, by decide +kernel⟩,
   ⟨(.planeCutoff 16), rdy, by decide +kernel⟩⟩

theorem witness_WellFormedQueueNeverStops :
  (∃ (s : State), queueOk s = true) ∧
  (∃ (k : Nat) (s : State), queueOk s = true) :=
  ⟨⟨{rdy with pending := [.changeSetCommit]}, by decide +kernel⟩,
   ⟨1, {rdy with pending := [.changeSetCommit]}, by decide +kernel⟩⟩

theorem witness_RingEntryRoundTrip :
  ∃ (c : Cmd) (hseq : Nat), c.fits = true ∧ hseq < 2 ^ 32 :=
  ⟨(.take tk_w20 7), 4294967295, by decide +kernel⟩

theorem witness_ChangeSetIsJournalled :
  ∃ (i : Instr) (h : Hdr) (c : Cmd) (s : State), i.host? = some (h, c) ∧ c.isChange = true ∧ canTake s.toMach h c = true :=
  ⟨(.take hd tk_w20 0), hd, (.take tk_w20 0), rdy, by decide +kernel⟩

theorem witness_StreamQueriesAnswer :
  ∃ (i : Instr) (h : Hdr) (c : Cmd) (s : State) (r : Reply), i.host? = some (h, c) ∧ canTake s.toMach h c = true ∧ streamReply s.toMach
    c = some r :=
  ⟨(.laneStatus hd 223), hd, (.laneStatus 223), rdy, {items := [.w (lnStat rdy.toMach 223), .w (lnEye rdy.toMach 223)]},
  by decide +kernel⟩

theorem witness_RouteSessionAndModuleQueriesAnswer :
  (∃ (i : Instr) (h : Hdr) (c : Cmd) (s : State) (r : Reply), i.host? = some (h, c) ∧ canTake s.toMach h c = true ∧ routeReply s.toMach
    h.ses c = some r) ∧
  (∃ (i : Instr) (h : Hdr) (c : Cmd) (s : State) (r : Reply), i.host? = some (h, c) ∧ canTake s.toMach h c = true ∧ moduleReply
    s.toMach c = some r) :=
  ⟨⟨(.pendingQuery hd 1 5 0), hd, (.pendingQuery 1 5 0), rdy, {items := [.q 0, .w 0], off := 0, bytes := []}, by decide +kernel⟩,
   ⟨(.pwrStatus hd), hd, .pwrStatus, rdy, {items := [.w (pwrStat rdy.toMach), .w (pwrAon rdy.toMach), .w rdy.pwr.rbFail]},
     by decide +kernel⟩⟩

theorem witness_LaneTestsTakeEffect :
  (∃ (s : State) (h : Hdr) (k eye kk sp sv thr off : Nat),
    (let c : Cmd := .eyeScan k eye kk sp sv thr off; canTake s.toMach h c = true ∧ k < 224 ∧ 10 ≤ kk ∧ kk ≤ 30 ∧ sp ∈ [1, 2, 4, 8] ∧ sv
        ∈ [1, 2, 4, 8] ∧ off % 64 = 0 ∧ (if (lane s.toMach k).rate = 5 then 1 ≤ eye ∧ eye ≤ 3 else eye = 0) ∧ (s.ln.scans.all fun x =>
        x.lane != k) = true ∧ (lane s.toMach k).loop = 0 ∧ s.ln.scans.length < 16 ∧ (lane s.toMach k).lock = true)) ∧
  (∃ (s : State) (h : Hdr) (k eye kk sp sv thr off : Nat),
    (let c : Cmd := .eyeScan k eye kk sp sv thr off; canTake s.toMach h c = true ∧ k < 224 ∧ 10 ≤ kk ∧ kk ≤ 30 ∧ sp ∈ [1, 2, 4, 8] ∧ sv
        ∈ [1, 2, 4, 8] ∧ off % 64 = 0 ∧ (if (lane s.toMach k).rate = 5 then 1 ≤ eye ∧ eye ≤ 3 else eye = 0) ∧ (s.ln.scans.all fun x =>
        x.lane != k) = true ∧ (lane s.toMach k).loop = 0 ∧ s.ln.scans.length < 16 ∧ (lane s.toMach k).lock = false)) ∧
  (∃ (s : State) (h : Hdr) (k mode flags : Nat), (let c : Cmd := .laneLoop k mode flags; canTake s.toMach h c = true ∧ k < 224 ∧ mode ≤
                                                     3 ∧ flags ≤ 1 ∧ (s.ln.scans.all fun x => x.lane != k) = true ∧ (208 ≤ k → bundleUp
                                                     s.toMach ((k - 208) / 8) = false) ∧ (144 ≤ k → k < 208 → ctxOnMac s.toMach (· ==
                                                     macOfLane s.toMach k) = none))) ∧
  (∃ (s : State) (h : Hdr) (k pattern on rate : Nat),
    (let c : Cmd := .lanePrbs k pattern on rate; (let x := lane s.toMach k;
                                                     (let r := if rate = 0 then x.rate else rate; canTake s.toMach h c = true ∧ k < 224
                                                         ∧ pattern ≤ 8 ∧ on ≤ 3 ∧ rate ≤ 5 ∧ (pattern ≠ 0 → (r = 5 ↔ 6 ≤ pattern)) ∧
                                                         inService x = false)))) ∧
  (∃ (s : State) (h : Hdr) (k set flags vals : Nat),
    (let c : Cmd := .laneEqSet k set flags vals; canTake s.toMach h c = true ∧ k < 224 ∧ set ≤ 2 ∧ flags ≤ 1 ∧ rateSetOk (le 20 vals) =
        true ∧ (flags = 1 → (s.ln.scans.all fun x => x.lane != k && (lane s.toMach x.lane).lock) = true))) :=
  ⟨⟨{rdy with ln := {rdy.ln with lanes := [(223, {lock := true, ready := true, fitted := true})]}}, hd, 223, 0, 30, 8, 8, 0, 64,
     by (dsimp only; decide +kernel)⟩,
   ⟨rdy, hd, 223, 0, 30, 8, 8, 0, 64, by (dsimp only; decide +kernel)⟩,
   ⟨rdy, hd, 143, 3, 1, by (dsimp only; decide +kernel)⟩,
   ⟨rdy, hd, 223, 6, 3, 5, by (dsimp only; decide +kernel)⟩,
   ⟨rdy, hd, 223, 2, 0, 0, by (dsimp only; decide +kernel)⟩⟩

theorem witness_MemoryDiagnosticsTakeEffect :
  (∃ (s : State) (h : Hdr) (k : Nat), canTake s.toMach h (.memRearm k) = true ∧ (k < 128 ∨ k = 255)) ∧
  (∃ (s : State) (h : Hdr) (k op off : Nat), (let c : Cmd := .memFreeze k op off; canTake s.toMach h c = true ∧ k < 128 ∧ op ≤ 1 ∧ (op
                                                 = 1 → off % 64 = 0) ∧ (pc s.toMach k).st ≠ 2 ∧ claiming s.toMach = false)) ∧
  (∃ (s : State) (h : Hdr) (mask_ : Nat), canTake s.toMach h (.memCalSave mask_) = true) ∧
  (∃ (s : State) (h : Hdr) (k off : Nat), (let c : Cmd := .calWrite k off;
                                              (let b := salvo s.toMach h.ses off (calSpan k).2; canTake s.toMach h c = true ∧ 1 ≤ k ∧ k
                                                  ≤ 3 ∧ off % 64 = 0 ∧ (k = 3 → fld b 0 4 = 0)))) :=
  ⟨⟨rdy, hd, 255, by decide +kernel⟩,
   ⟨stby, hd, 127, 1, 64, by (dsimp only; decide +kernel)⟩,
   ⟨rdy, hd, 5, by decide +kernel⟩,
   ⟨rdy, hd, 3, 64, by (dsimp only; decide +kernel)⟩⟩

theorem witness_FaultAndSnapshotCommandsTakeEffect :
  (∃ (s : State) (h : Hdr) (src kind : Nat), (let c : Cmd := .fltClear src kind; canTake s.toMach h c = true)) ∧
  (∃ (s : State) (h : Hdr) (k : Nat), canTake s.toMach h .snpTrigger = true ∧ bit s.snp.enables 1 = true ∧ s.snp.busy = none ∧ snapSlot
    s.toMach = some k) ∧
  (∃ (s : State) (h : Hdr) (k hold : Nat), (let c : Cmd := .snpHold k hold; canTake s.toMach h c = true ∧ k < 16 ∧ hold ≤ 1 ∧ (hold = 1
                                               → (lget {} s.snp.slots k).held = true ∨ (s.snp.slots.filter (·.held)).length < 8))) ∧
  (∃ (s : State) (h : Hdr) (msg : Nat), (let c : Cmd := .fltInject msg; canTake s.toMach h c = true ∧ bits msg 43 40 ≤ 2)) :=
  ⟨⟨w20rfl, hd, 0xFFFF, 255, by (dsimp only; decide +kernel)⟩,
   ⟨rsn_w20, hd, 0, by decide +kernel⟩,
   ⟨rdy, hd, 15, 1, by (dsimp only; decide +kernel)⟩,
   ⟨rdy, hd, (5 * 2^52 + 2 * 2^40), by (dsimp only; decide +kernel)⟩⟩

theorem witness_LoadsAndMessagesTakeEffect :
  (∃ (s : State) (h : Hdr) (p act count off : Nat),
    (let c : Cmd := .bankLoad p act count off; (let data := salvo s.toMach h.ses off (8 * count); canTake s.toMach h c = true ∧ p < 16
                                                   ∧ act ≤ 1 ∧ (s.xb.loads.all fun l => l.plane != p || l.ses == h.ses) = true ∧
                                                   (loadOf s.toMach p h.ses).isSome = decide (act = 1) ∧ badEntry s.toMach p (takeRecs
                                                   count data) = none ∧ ownedTake s.toMach (some h.ses) (takeRecs count data) = none))) ∧
  (∃ (s : State) (h : Hdr) (p count off : Nat), canTake s.toMach h (.bankLoad p 2 count off) = true ∧ p < 16 ∧ (s.xb.loads.all fun l =>
    l.plane != p || l.ses == h.ses) = true ∧ (loadOf s.toMach p h.ses).isSome = true ∧ (s.ctl.journal.all fun e => !e.waiting) = true) ∧
  (∃ (s : State) (h : Hdr) (x act count off : Nat),
    (let c : Cmd := .audBankLoad x act count off; (let rs := mixRecs count (salvo s.toMach h.ses off (16 * count)); canTake s.toMach h
                                                      c = true ∧ x < 16 ∧ count ≤ 4096 ∧ off % 16 = 0 ∧ act ≤ 1 ∧ (s.aud.loads.find?
                                                      fun l => l.cluster == x).map (·.ses) = (if act = 0 then none else some h.ses) ∧
                                                      badMix s.toMach (fun o => cluster s.toMach o == x) [] rs = none ∧ (rs.all fun r
                                                      => (timedBy s.toMach r.chan).isNone) = true))) ∧
  (∃ (s : State) (h : Hdr) (x count off : Nat), canTake s.toMach h (.audBankLoad x 2 count off) = true ∧ x < 16 ∧ count ≤ 4096 ∧
    (s.aud.loads.find? fun l => l.cluster == x).map (·.ses) = some h.ses ∧ (s.ctl.journal.all fun e => !e.waiting) = true) ∧
  (∃ (s : State) (h : Hdr) (l cls len off roff rmax timeout : Nat),
    (let c : Cmd := .svcSend l cls len off roff rmax timeout; canTake s.toMach h c = true ∧ l < 144 ∧ cls ≤ 1 ∧ 1 ≤ len ∧ len ≤ 129024
        ∧ 1 ≤ timeout ∧ timeout ≤ 10000)) ∧
  (∃ (s : State) (h : Hdr) (key : Nat), canTake s.toMach h (.sessionAttach key) = true ∧ (ses s.toMach h.ses).key.toNat = key) :=
  ⟨⟨rdy, hd, 15, 0, 0, 64, by (dsimp only; decide +kernel)⟩,
   ⟨{rdy with xb := {rdy.xb with loads := [{plane:=15,ses:=0}]}}, hd, 15, 0, 64, by decide +kernel⟩,
   ⟨rdy, hd, 15, 0, 0, 64, by (dsimp only; decide +kernel)⟩,
   ⟨{rdy with aud := {rdy.aud with loads := [{cluster:=0,ses:=0}]}}, hd, 0, 1, 64, by decide +kernel⟩,
   ⟨rdy, hd, 143, 1, 5, 64, 128, 10, 10000, by (dsimp only; decide +kernel)⟩,
   ⟨rat_w20, hd, 5, by decide +kernel⟩⟩

theorem witness_PairAndPowerCommandsTakeEffect :
  (∃ (s : State) (h : Hdr), canTake s.toMach h .pairDrill = true ∧ canDrill s.toMach = true ∧ s.pr.st = 2) ∧
  (∃ (s : State) (h : Hdr) (op : Nat), canTake s.toMach h (.pairForce op) = true ∧ claiming s.toMach = true ∧ s.pr.chg = none ∧ (op = 0
    ∨ op = 1 ∨ (op = 2 ∧ (partnerClaims s.toMach = false ∨ s.pr.ploss = true)))) ∧
  (∃ (s : State) (h : Hdr) (op : Nat), canTake s.toMach h (.pairForce op) = true ∧ s.pr.role = 4 ∧ s.pr.chg = none ∧ (op = 1 ∨ (op = 2
    ∧ (partnerClaims s.toMach = false ∨ s.pr.ploss = true)))) ∧
  (∃ (s : State) (h : Hdr), canTake s.toMach h (.pairForce 3) = true ∧ claiming s.toMach = true ∧ s.pr.chg = none) ∧
  (∃ (s : State) (h : Hdr), canTake s.toMach h .pwrDen = true ∧ canEnter s.toMach = true ∧ s.pr.chg = none) ∧
  (∃ (s : State) (h : Hdr), canTake s.toMach h .pwrWakePartner = true ∧ claiming s.toMach = true ∧ xlUp s.toMach = true ∧ partnerHere
    s.toMach = true ∧ s.pr.beat.map (·.st) = some 0) :=
  ⟨⟨{stby with pr := {stby.pr with beat := some {claim := 8*2^28}}}, hd, by decide +kernel⟩,
   ⟨{rdy with pr := {rdy.pr with role := 15}}, hd, 0, by decide +kernel⟩,
   ⟨stby, hd, 1, by decide +kernel⟩,
   ⟨rdy, hd, by decide +kernel⟩,
   ⟨stby, hd, by decide +kernel⟩,
   ⟨paired_w3, hd, by decide +kernel⟩⟩

theorem witness_UpdateCommandsTakeEffect :
  (∃ (s : State) (h : Hdr) (k : Nat), (let c : Cmd := .updActivate k; canTake s.toMach h c = true ∧ k ≤ 1 ∧ (slot s.toMach k).sr.valid
                                          = true ∧ (s.upd.running = false ∨ k ≠ s.upd.runSlot) ∧ (s.upd.xfer.all fun x => x.st != 3 ||
                                          x.slot != k) = true ∧ (partnerHere s.toMach = false ∨ suits s.toMach (slot s.toMach k).image
                                          = true))) ∧
  (∃ (s : State) (h : Hdr), canTake s.toMach h .updConfirm = true ∧ s.upd.running = true ∧ s.upd.runSlot ≤ 1) ∧
  (∃ (s : State) (h : Hdr), canTake s.toMach h .updFuse = true ∧ s.upd.running = true ∧ (slot s.toMach s.upd.runSlot).sr.trial = 0 ∧
    imgSvn (runImage s.toMach) ≤ 128) ∧
  (∃ (s : State) (h : Hdr), canTake s.toMach h .updRestart = true ∧ restartBarred s.toMach = false) :=
  ⟨⟨{rdy with upd := {rdy.upd with slotB := {rdy.upd.slotB with sr := {valid := true}}}}, hd, 1, by (dsimp only; decide +kernel)⟩,
   ⟨rup_w20, hd, by decide +kernel⟩,
   ⟨{rdy with upd := {rdy.upd with running := true, fcount := 3, slotA := {image := [(12,5)]}}}, hd, by decide +kernel⟩,
   ⟨{stby with pr := {stby.pr with beat := some {claim := 8*2^28}}}, hd, by decide +kernel⟩⟩

theorem witness_CommitSequencerOutcomes :
  ∃ (s : State) (e : JEntry), commitsNext s.toMach e = true ∧ (∀ a b c, e.cmd ≠ .dtStep a b c) :=
  ⟨(wj_w3 rdy e1_w21), e1_w21, by decide +kernel, by intro a b c h; cases h⟩

theorem witness_RouteChangeSetsCommit :
  (∃ (s : State) (e : JEntry) (ts : List TakeRec) (expected : Nat), commitsNext s.toMach e = true ∧ ((∃ r, e.cmd = .take r expected ∧
    ts = [takeRec r]) ∨ (∃ n off, e.cmd = .salvo n 0 off expected ∧ 1 ≤ n ∧ n ≤ 4096 ∧ ts = takeRecs n e.data)) ∧ badTake s.toMach []
    ts = none ∧ ownedTake s.toMach (some e.ses) ts = none ∧ lockedTake s.toMach none ts = none ∧ mixLocked s.toMach ts = none ∧
    (expected = 0 ∨ expected = s.xb.epoch) ∧ capStep s.toMach s.xb.holds (ts.zipIdx.filterMap fun x => if x.1.video.isSome then some
    (x.2, takeHold s.toMach x.1) else none) = none) ∧
  (∃ (s : State) (e : JEntry) (first count : Nat) (o : Option Nat) (d : Nat), commitsNext s.toMach e = true ∧ 1 ≤ count ∧ first + count
    ≤ 2304 ∧ rangeLocked s.toMach first count = none ∧ ((e.cmd = .protect first count 0 ∧ o = some e.ses ∧ protector s.toMach (some
    e.ses) first count = none) ∨ (e.cmd = .protect first count 1 ∧ o = none ∧ protector s.toMach (some e.ses) first count = none) ∨
    (e.cmd = .forceRelease first count ∧ o = none)) ∧ d < 2304) ∧
  (∃ (s : State) (e : JEntry) (p : Nat) (l : BankLoad) (m : Mach) (items : List Item), commitsNext s.toMach e = true ∧ e.cmd =
    .bankSwap p ∧ p < 16 ∧ s.xb.loads.find? (fun l => l.plane == p) = some l ∧ loadedBy s.toMach p (some e.ses) = none ∧ (plane
    s.toMach p).ready = true ∧ commitTakes (commitCtx s.toMach e) (some e.ses) (l.entries.map fun x => takeRec x.2) 0 s.toMach =
    .commit m items) ∧
  (∃ (s : State) (e : JEntry) (first count p : Nat), commitsNext s.toMach e = true ∧ e.cmd = .destBind first count p ∧ 1 ≤ count ∧
    first + count ≤ 2304 ∧ p < 16 ∧ rangeLocked s.toMach first count = none ∧ stuck2022 s.toMach first count p = none ∧ (∀ d, first ≤ d
    → d < first + count → (dest s.toMach d).plane = p) ∧ (∀ d, first ≤ d → d < first + count → ∀ g ∈ [(dest s.toMach d).src, (dest
    s.toMach d).asrc], isGen g = true → (gen s.toMach (g - 2336)).plane = p) ∧ capStep s.toMach s.xb.holds [] = none) ∧
  (∃ (s : State) (e : JEntry) (d p : Nat), commitsNext s.toMach e = true ∧ e.cmd = .destBind d 1 p ∧ d < 2304 ∧ p < 16 ∧ rangeLocked
    s.toMach d 1 = none ∧ stuck2022 s.toMach d 1 p = none ∧ (dest s.toMach d).plane ≠ p ∧ isGen (dest s.toMach d).src = false ∧ isGen
    (dest s.toMach d).asrc = false ∧ capStep s.toMach s.xb.holds [(0xFFFF, { dest := d, src := (dest s.toMach d).src, plane := p })] =
    none) ∧
  (∃ (s : State) (e : JEntry) (first count mode : Nat), commitsNext s.toMach e = true ∧ e.cmd = .destAudio first count mode ∧ 1 ≤ count
    ∧ first + count ≤ 2304 ∧ mode ≤ 1 ∧ (mode = 1 → first + count ≤ 1152) ∧ rangeLocked s.toMach first count = none) :=
  ⟨⟨(wj_w3 rdy e1_w21), e1_w21, [takeRec tk_w20], 0, by decide +kernel, .inl ⟨tk_w20, rfl, rfl⟩, by decide +kernel, by decide +kernel,
     by decide +kernel, by decide +kernel, by decide +kernel, by decide +kernel⟩,
   ⟨(wj_w3 rdy e2_w21), e2_w21, 2303, 1, (some 0), 2303, by decide +kernel⟩,
   ⟨s3_w21, e3_w21, 15, {plane := 15, ses := 0, entries := []}, m3_w21.1, m3_w21.2, by decide +kernel⟩,
   ⟨(wj_w3 rdy e4_w21), e4_w21, 2303, 1, 0, by decide +kernel⟩,
   ⟨(wj_w3 rdy e5_w21), e5_w21, 2303, 15, by decide +kernel⟩,
   ⟨(wj_w3 rdy e6_w21), e6_w21, 1151, 1, 1, by decide +kernel⟩⟩

theorem witness_SourceAndPlaneChangeSetsCommit :
  (∃ (s : State) (e : JEntry) (k flags hold : Nat), commitsNext s.toMach e = true ∧ e.cmd = .srcMode k 1 flags hold ∧ k < 2304 ∧ flags
    ≤ 1 ∧ hold ≤ 255 ∧ ((List.range 16).all fun p => !(routedOn s.toMach k p && ((Machine.pair s.toMach k p).cls == 2 || (Machine.pair
    s.toMach k p).cls == 0))) = true) ∧
  (∃ (s : State) (e : JEntry) (k flags hold : Nat), commitsNext s.toMach e = true ∧ e.cmd = .srcMode k 0 flags hold ∧ k < 2304 ∧ flags
    ≤ 1 ∧ hold ≤ 255 ∧ (srcOf s.toMach k).mode = 0 ∧ capStep s.toMach (s.xb.holds.filter fun h => h.src != k) ((s.xb.holds.filter fun h
    => h.src == k).map fun h => (0xFFFF, h)) = none) ∧
  (∃ (s : State) (e : JEntry) (k on : Nat), commitsNext s.toMach e = true ∧ e.cmd = .srcWarm k on ∧ k < 2304 ∧ on ≤ 1 ∧ (srcOf s.toMach
    k).mode ≠ 1 ∧ (let off (x : Src) : List Nat := if on = 1 then [] else if x.warm then List.range 16 else x.warmOff;
                      (let m := setSrc s.toMach k fun x => { x with warm := on == 1, warmOff := off x }; (fbHeld m s.xb.holds +
                          iceTotal m ≤ 4096 ∨ fbHeld m s.xb.holds ≤ fbHeld s.toMach s.xb.holds)))) ∧
  (∃ (s : State) (e : JEntry) (a b : Nat), commitsNext s.toMach e = true ∧ e.cmd = .srcGroup 2 a b 4095 4095 ∧ a < b ∧ b < 2304 ∧
    (srcOf s.toMach a).mode ≠ 1 ∧ (srcOf s.toMach b).mode ≠ 1 ∧ (srcOf s.toMach a).group = [] ∧ (srcOf s.toMach b).group = [] ∧ (srcOf
    s.toMach a).fmt = (srcOf s.toMach b).fmt) ∧
  (∃ (s : State) (e : JEntry) (k w q : Nat), commitsNext s.toMach e = true ∧ e.cmd = .srcWindow k w q ∧ k < 2304 ∧ (w = 0 ∨ (2 ≤ w ∧ w
    ≤ 80)) ∧ 4 ≤ q ∧ q ≤ 64) ∧
  (∃ (s : State) (e : JEntry) (g p pattern audio y cb cr : Nat), commitsNext s.toMach e = true ∧ e.cmd = .genCfg g p pattern audio y cb
    cr ∧ g < 64 ∧ (p = 255 ∨ p = (gen s.toMach g).plane) ∧ (p < 16 ∨ p = 255) ∧ pattern ≤ 3 ∧ audio ≤ 1 ∧ y ≤ 1023 ∧ cb ≤ 1023 ∧ cr ≤
    1023) ∧
  (∃ (s : State) (e : JEntry) (p raster scan rate l n : Nat), commitsNext s.toMach e = true ∧ e.cmd = .planeCfg p raster scan rate l n
    ∧ p < 16 ∧ (let f : Fmt := { raster, scan, rate }; fmtOk f = true ∧ l < totalLines f ∧ n < totalSamples f ∧ swLineOk f (plane
                   s.toMach p).swLine = true ∧ cutoffOk f (plane s.toMach p).cutoff = true ∧ boundTo s.toMach p = none ∧ ¬ ((plane
                   s.toMach p).fmt = f ∧ (plane s.toMach p).phLines = l ∧ (plane s.toMach p).phSamples = n))) ∧
  (∃ (s : State) (e : JEntry) (p line cutoff : Nat), commitsNext s.toMach e = true ∧ e.cmd = .planeSwitch p line cutoff ∧ p < 16 ∧
    swLineOk (plane s.toMach p).fmt line = true ∧ cutoffOk (plane s.toMach p).fmt cutoff = true) :=
  ⟨⟨(wj_w3 rdy g0_w21), g0_w21, 2303, 1, 255, by decide +kernel⟩,
   ⟨(wj_w3 rdy g1_w21), g1_w21, 2303, 1, 255, by decide +kernel⟩,
   ⟨(wj_w3 rdy g2_w21), g2_w21, 2303, 1, by (dsimp only; decide +kernel)⟩,
   ⟨(wj_w3 rdy g3_w21), g3_w21, 5, 2303, by decide +kernel⟩,
   ⟨(wj_w3 rdy g4_w21), g4_w21, 2303, 80, 64, by decide +kernel⟩,
   ⟨(wj_w3 rdy g5_w21), g5_w21, 63, 255, 3, 1, 1023, 1023, 1023, by decide +kernel⟩,
   ⟨(wj_w3 rdy g6_w21), g6_w21, 15, 1, 0, 5, 10, 10, by (dsimp only; decide +kernel)⟩,
   ⟨(wj_w3 rdy g7_w21), g7_w21, 15, 0, 2000, by decide +kernel⟩⟩

theorem witness_SessionChangeSetsCommit :
  (∃ (s : State) (e : JEntry) (name lease sub ic id : Nat), commitsNext s.toMach e = true ∧ e.cmd = .sessionOpen name lease sub ic id ∧
    (ses s.toMach e.ses).st = .opening ∧ (lease = 0 ∨ 100 ≤ lease) ∧ lease ≤ 60000 ∧ sub < 512 ∧ 1 ≤ ic ∧ ic ≤ 64 ∧ id ≤ 1000 ∧ cpHeld
    s.toMach e.ses + (ses s.toMach e.ses).cpus ≤ 448) ∧
  (∃ (s : State) (e : JEntry) (target : Nat), commitsNext s.toMach e = true ∧ e.cmd = .sessionClose target ∧
    (let n := if target = 255 then e.ses else target; n < 64 ∧ ((ses s.toMach n).st = .opn ∨ (ses s.toMach n).st = .detached))) ∧
  (∃ (s : State) (e : JEntry) (sub ic id : Nat), commitsNext s.toMach e = true ∧ e.cmd = .subscribe sub ic id ∧ sub < 512 ∧ 1 ≤ ic ∧ ic
    ≤ 64 ∧ id ≤ 1000) ∧
  (∃ (s : State) (e : JEntry) (lease : Nat), commitsNext s.toMach e = true ∧ e.cmd = .expertGrant 1 lease ∧ 1 ≤ lease ∧ lease ≤ 3600 ∧
    grants s.toMach e.ses < 4) ∧
  (∃ (s : State) (e : JEntry) (lease : Nat), commitsNext s.toMach e = true ∧ e.cmd = .expertGrant 0 lease) ∧
  (∃ (s : State) (e : JEntry) (n cmds hare cpus : Nat), commitsNext s.toMach e = true ∧ e.cmd = .sessionBudget n cmds hare cpus ∧ n <
    64 ∧ 1 ≤ hare ∧ hare ≤ 32 ∧ 1 ≤ cpus ∧ cpus ≤ 125 ∧ ((ses s.toMach n).st = .opn ∨ (ses s.toMach n).st = .detached) ∧ cpHeld
    s.toMach n + cpus ≤ 448) :=
  ⟨⟨(wj_w3 opn_w21 h0_w21), h0_w21, 77, 0, 511, 64, 1000, by decide +kernel⟩,
   ⟨(wj_w3 rdy h1_w21), h1_w21, 255, by (dsimp only; decide +kernel)⟩,
   ⟨(wj_w3 rdy h2_w21), h2_w21, 511, 64, 1000, by decide +kernel⟩,
   ⟨(wj_w3 rdy h3_w21), h3_w21, 3600, by decide +kernel⟩,
   ⟨(wj_w3 rdy h4_w21), h4_w21, 7, by decide +kernel⟩,
   ⟨(wj_w3 rdy h5_w21), h5_w21, 0, 0, 32, 125, by decide +kernel⟩⟩

theorem witness_NetworkChangeSetsCommit :
  (∃ (s : State) (e : JEntry) (p mode : Nat), commitsNext s.toMach e = true ∧ e.cmd = .ethPortSplit p mode ∧ p < 16 ∧ mode ≤ 3 ∧ mode ≠
    tget 0 s.eth.split p ∧ ctxOnMac s.toMach (fun k => k / 4 == p) = none ∧ (s.eth.wake.find? fun x => x.2.on && x.2.mac / 4 == p &&
    splitRate mode (x.2.mac % 4) != 100) = none) ∧
  (∃ (s : State) (e : JEntry) (k addr len : Nat), commitsNext s.toMach e = true ∧ e.cmd = .ethMacCfg k addr len ∧ macExists s.toMach k
    = true ∧ bit addr 40 = false ∧ 1518 ≤ len ∧ len ≤ 9216) ∧
  (∃ (s : State) (e : JEntry) (w k check mask : Nat), commitsNext s.toMach e = true ∧ e.cmd = .wakePattern w 0 k check mask ∧ w < 8 ∧
    macExists s.toMach k = true ∧ mask ≠ 0) ∧
  (∃ (s : State) (e : JEntry) (w k check mask : Nat), commitsNext s.toMach e = true ∧ e.cmd = .wakePattern w 1 k check mask ∧ w < 8 ∧
    macRate s.toMach k = 100 ∧ mask ≠ 0 ∧ (let wakeOrder := if s.eth.wakeOrder.contains w then s.eth.wakeOrder else s.eth.wakeOrder ++
                                              [w];
                                              (let m := { s.toMach with eth := { s.eth with wakeOrder, wake := tset s.eth.wake w { on := true, mac := k, check, mask } } };
                                                  tooCostly s.toMach m = false))) ∧
  (∃ (s : State) (e : JEntry) (c off : Nat), commitsNext s.toMach e = true ∧ e.cmd = .flowDefine c 0 off ∧ c < 16384 ∧ (ctx s.toMach
    c).st < 2 ∧ descOk s.toMach c (descOf e.data) = true ∧ ((descOf e.data).dir = 0 → rxConflict s.toMach c (descOf e.data) = none)) ∧
  (∃ (s : State) (e : JEntry) (c off : Nat), commitsNext s.toMach e = true ∧ e.cmd = .flowDefine c 2 off ∧ c < 16384 ∧ (ctx s.toMach
    c).st = 1 ∧ (pairOf s.toMach c) = [c] ∧ (ctx s.toMach c).d.dir = 0 ∧ flowShort s.toMach (enableOne s.toMach c) = none) ∧
  (∃ (s : State) (e : JEntry) (c off : Nat), commitsNext s.toMach e = true ∧ e.cmd = .flowDefine c 3 off ∧ c < 16384 ∧ (ctx s.toMach
    c).st ≠ 0 ∧ ((pairOf s.toMach c).all fun k => decide ((ctx s.toMach k).st < 3)) = true) ∧
  (∃ (s : State) (e : JEntry) (c off : Nat), commitsNext s.toMach e = true ∧ e.cmd = .flowDefine c 4 off ∧ c < 16384 ∧ (ctx s.toMach
    c).st = 1 ∧ (pairOf s.toMach c) = [c] ∧ namedBy s.toMach c = none ∧ (ctx s.toMach c).d.partner = 0xFFFF) ∧
  (∃ (s : State) (e : JEntry) (p flags : Nat), commitsNext s.toMach e = true ∧ e.cmd = .flowPort 0xFFFF p flags ∧ p < 1152 ∧ flags ≤ 1
    ∧ (ingress s.toMach p).cur = none ∧ (ingress s.toMach p).swap = none) ∧
  (∃ (s : State) (e : JEntry) (c p flags : Nat), commitsNext s.toMach e = true ∧ e.cmd = .flowPort c p flags ∧ c < 16384 ∧ p < 1152 ∧
    flags ≤ 1 ∧ (ctx s.toMach c).st = 2 ∧ (ctx s.toMach c).d.dir = 0 ∧ (ctx s.toMach c).d.video = true ∧ (ctx s.toMach c).d.typ ≠ 4 ∧
    namedBy s.toMach c = none ∧ (ingress s.toMach p).cur = none ∧ (ingress s.toMach p).swap = none ∧ (ingress s.toMach p).com = none ∧
    flowShort s.toMach ((pairOf s.toMach c).foldl enableOne s.toMach) = none) ∧
  (∃ (s : State) (e : JEntry) (k off : Nat), commitsNext s.toMach e = true ∧ e.cmd = .flowIf k off ∧ macExists s.toMach k = true ∧
    (let d := e.data; (let i : Iface := { ip4 := sub d 0 4, pre4 := fld d 4 1, gw4 := sub d 8 4, ip6 := sub d 16 16, pre6 := fld d 32 1, gw6 := sub d 40 16 };
                          i.pre4 ≤ 32 ∧ i.pre6 ≤ 128 ∧ ((sub d 5 3 ++ sub d 12 4 ++ sub d 33 7 ++ sub d 56 8).all (· == 0)) = true))) ∧
  (∃ (s : State) (e : JEntry) (c off : Nat), commitsNext s.toMach e = true ∧ e.cmd = .flowOffset c 0 off ∧ c < 16384 ∧ (ctx s.toMach
    c).st ≠ 0 ∧ (ctx s.toMach c).d.dir ≠ 1 ∧ (let d := { (ctx s.toMach c).d with flags := (ctx s.toMach c).d.flags - 32 * b2n (ctx s.toMach c).d.auto, offset := off };
                                                 (let m := setCtx s.toMach c fun x => { x with d, moved := decide (2 ≤ x.st) };
                                                     offsetOk d ((ctx s.toMach c).d.partner != 0xFFFF) = true ∧ flowShort s.toMach m =
                                                     none))) :=
  ⟨⟨(wj_w3 rdy n0_w21), n0_w21, 15, 3, by decide +kernel⟩,
   ⟨(wj_w3 rdy n1_w21), n1_w21, 60, 0x0A0B0C0D0E0F, 9216, by decide +kernel⟩,
   ⟨(wj_w3 rdy n2_w19), n2_w19, 7, 60, 5, 1, by decide +kernel⟩,
   ⟨(wj_w3 rsp_w21 n3_w21), n3_w21, 7, 60, 5, 1, by (dsimp only; decide +kernel)⟩,
   ⟨(wj_w3 rdy n4_w21), n4_w21, 16383, 0, by decide +kernel⟩,
   ⟨(wj_w3 (fl_w21 1) n5_w21), n5_w21, 16383, 0, by decide +kernel⟩,
   ⟨(wj_w3 (fl_w21 2) n6_w21), n6_w21, 16383, 0, by decide +kernel⟩,
   ⟨(wj_w3 (fl_w21 1) n7_w21), n7_w21, 16383, 0, by decide +kernel⟩,
   ⟨(wj_w3 rdy n8_w21), n8_w21, 1151, 1, by decide +kernel⟩,
   ⟨(wj_w3 (fl_w21 2) n9_w21), n9_w21, 16383, 1151, 1, by decide +kernel⟩,
   ⟨(wj_w3 rdy n10_w21), n10_w21, 60, 0, by (dsimp only; decide +kernel)⟩,
   ⟨(wj_w3 (fl_w21 1) n11_w21), n11_w21, 16383, 100000000, by (dsimp only; decide +kernel)⟩⟩

theorem witness_CompositorChangeSetsCommit :
  (∃ (s : State) (e : JEntry) (k p dither audwin back : Nat), commitsNext s.toMach e = true ∧ e.cmd = .cmpBind k p dither audwin back ∧
    k < 32) ∧
  (∃ (s : State) (e : JEntry) (k off i : Nat) (w : Win) (l : Layout), commitsNext s.toMach e = true ∧ e.cmd = .cmpLayout k 1 off ∧ k <
    32 ∧ (let old := (cmpr s.toMach k).com; winRecord s.toMach k old (sub e.data 0 32) = some (i, some w) ∧ tget? i old.wins = none ∧
             old.frozen = [] ∧ (let f := (plane s.toMach old.plane).fmt; admitRates f f old [(i, some (markWin s.toMach w))] (markScan
                                   s.toMach { old with wins := tset old.wins i w }) = .inl l ∧ capStep s.toMach s.xb.holds [(0, holdOf
                                   k old.plane i w.src)] = none))) ∧
  (∃ (s : State) (e : JEntry) (k off i : Nat) (r : Option Region), commitsNext s.toMach e = true ∧ e.cmd = .cmpGuard k 1 off ∧ k < 32) ∧
  (∃ (s : State) (e : JEntry) (k w : Nat), commitsNext s.toMach e = true ∧ e.cmd = .cmpFreeze k w 1 ∧ k < 32 ∧
    (let l := (cmpr s.toMach k).com; (tget? w l.wins).isSome = true ∧ l.frozen.contains w = false ∧ fbFree s.toMach s.xb.holds ≠ 0)) ∧
  (∃ (s : State) (e : JEntry) (k w : Nat) (x : Win), commitsNext s.toMach e = true ∧ e.cmd = .cmpFreeze k w 0 ∧ k < 32 ∧
    (let l := (cmpr s.toMach k).com; tget? w l.wins = some x ∧ l.frozen.contains w = true ∧ capStep s.toMach s.xb.holds [(0xFFFF,
        holdOf k l.plane w x.src)] = none)) ∧
  (∃ (s : State) (e : JEntry) (k n off : Nat), commitsNext s.toMach e = true ∧ e.cmd = .cmpCoef k n off ∧ k < 32 ∧ 4 ≤ n ∧ n ≤ 7 ∧
    (coefWords e.data).all signExtended = true ∧ phasesOk ((coefWords e.data).map (ofBits 16)) = true) :=
  ⟨⟨(wj_w3 rdy k0_w21), k0_w21, 31, 0, 3, 63, (2^30-1), by decide +kernel⟩,
   ⟨(wj_w3 rdy f2_w3), f2_w3, 31, 0, 63, w0_w3, (lay_w3 rdy), by (dsimp only; decide +kernel)⟩,
   ⟨(wj_w3 rdy f3_w3), f3_w3, 31, 0, rr_w3.1, rr_w3.2, by decide +kernel⟩,
   ⟨(wj_w3 rw_w3 f4_w3), f4_w3, 31, 63, by (dsimp only; decide +kernel)⟩,
   ⟨(wj_w3 rw2_w3 f4b_w3), f4b_w3, 31, 63, ((tget? 63 (lay_w3 rdy).wins).getD {}), by (dsimp only; decide +kernel)⟩,
   ⟨(wj_w3 rdy k5_w21), k5_w21, 31, 7, 0, by decide +kernel⟩⟩

theorem witness_AudioChangeSetsCommit :
  (∃ (s : State) (e : JEntry) (ramp anchor off : Nat) (r : MixRec), commitsNext s.toMach e = true ∧ e.cmd = .audMix 1 ramp anchor off ∧
    ramp ≤ 63 ∧ (anchor ≤ 15 ∨ anchor = 255) ∧ mixRecs 1 e.data = [r] ∧ badMix s.toMach (fun _ => true) [] [r] = none ∧ mixLoader
    s.toMach r.chan 1 = none) ∧
  (∃ (s : State) (e : JEntry) (k : Nat), commitsNext s.toMach e = true ∧ e.cmd = .audGroup k 0 ∧ deembeds s.toMach k = true ∧ (group
    s.toMach k).convert = true) ∧
  (∃ (s : State) (e : JEntry) (k : Nat), commitsNext s.toMach e = true ∧ e.cmd = .audGroup k 1 ∧ deembeds s.toMach k = true ∧ (group
    s.toMach k).convert = false ∧ (srcGroup s.toMach k).2 * convCost s.toMach ≤ (bestCore s.toMach).2) ∧
  (∃ (s : State) (e : JEntry) (d us : Nat), commitsNext s.toMach e = true ∧ e.cmd = .audOffset d us ∧ d < 2304 ∧ us ≤ 500000 ∧ loadedBy
    s.toMach (dest s.toMach d).plane none = none ∧ ((dest s.toMach d).amode = 0 → mixLoader s.toMach (destGroup s.toMach d).1
    (destGroup s.toMach d).2 = none)) ∧
  (∃ (s : State) (e : JEntry) (ch len : Nat), commitsNext s.toMach e = true ∧ e.cmd = .audHistory ch 1 len ∧ ch < chanCount s.toMach ∧
    (if s.aud.rate = 0 then 1536 ≤ len ∧ len ≤ 480000 else 3072 ≤ len ∧ len ≤ 960000) ∧ needsMore s.toMach ch len = none ∧ max len
    (ringOf s.toMach ch) - max (ringOf s.toMach ch) (tget 0 s.aud.lenNext ch) ≤ poolFree s.toMach) ∧
  (∃ (s : State) (e : JEntry) (ch op off : Nat), commitsNext s.toMach e = true ∧ e.cmd = .audMeter ch 1 op off ∧ op ≤ 1 ∧ ch <
    chanCount s.toMach ∧ (let m := { s.toMach with aud := { s.aud with meters := tmod {} s.aud.meters ch fun x => { x with on := op == 1 } } };
                             (op = 1 → ∀ y < 128, kres m y ≤ 36336))) ∧
  (∃ (s : State) (e : JEntry) (k : Nat), commitsNext s.toMach e = true ∧ e.cmd = .audBankSwap (2 ^ k) ∧ k < 16 ∧ (s.aud.loads.find? fun
    l => l.cluster == k).map (·.ses) = some e.ses ∧ (s.aud.loads.all fun l => l.cluster != k || l.ses == e.ses) = true ∧ bit
    s.aud.ready k = true) ∧
  (∃ (s : State) (e : JEntry) (r : Nat), commitsNext s.toMach e = true ∧ e.cmd = .audRate r ∧ r ≤ 1 ∧ s.aud.taps = [] ∧ s.flw.ctxs = []
    ∧ (s.apt.ports.all fun x => !x.2.cfg.enable) = true) ∧
  (∃ (s : State) (e : JEntry) (n format k w mm flags nout il ol : Nat), commitsNext s.toMach e = true ∧ e.cmd = .aptCfg n format k w mm
    flags nout il ol ∧ n < 32 ∧ flags ≤ 63 ∧ (let c := aptCfgOf format k w mm flags nout il ol; aptCfgOk s.toMach n c = true ∧ (apt
                                                 s.toMach n).cfg.enable = false ∧ c.enable = false)) ∧
  (∃ (s : State) (e : JEntry) (n format k w mm flags nout il ol : Nat), commitsNext s.toMach e = true ∧ e.cmd = .aptCfg n format k w mm
    flags nout il ol ∧ n < 32 ∧ flags ≤ 63 ∧ (let c := aptCfgOf format k w mm flags nout il ol; aptCfgOk s.toMach n c = true ∧ (apt
                                                 s.toMach n).cfg.enable = false ∧ c.enable = true ∧ c.conv = false ∧ (apt s.toMach n).n
                                                 * atRate s.toMach 32 ≤ poolFree s.toMach)) ∧
  (∃ (s : State) (e : JEntry) (n len : Nat), commitsNext s.toMach e = true ∧ e.cmd = .aptRing n len ∧ n < 32 ∧ 64 ≤ len ∧ len ≤ 4096 ∧
    ringL s.toMach (apt s.toMach n).cfg.outLat ≤ len ∧ (apt s.toMach n).cfg.enable = false) :=
  ⟨⟨(wj_w3 rdy a0_w21), a0_w21, 63, 255, 0, ⟨5,31,0,0⟩, by decide +kernel⟩,
   ⟨(wj_w3 (rag_w21 true) a1_w21), a1_w21, 5, by decide +kernel⟩,
   ⟨(wj_w3 (rag_w21 false) a2_w21), a2_w21, 5, by decide +kernel⟩,
   ⟨(wj_w3 rdy a3_w21), a3_w21, 2303, 500000, by decide +kernel⟩,
   ⟨(wj_w3 rdy a4_w21), a4_w21, 5, 480000, by decide +kernel⟩,
   ⟨(wj_w3 rdy a5_w21), a5_w21, 5, 1, 0, by (dsimp only; decide +kernel)⟩,
   ⟨(wj_w3 rab_w21 a6_w21), a6_w21, 15, by decide +kernel⟩,
   ⟨(wj_w3 rdy a7_w21), a7_w21, 1, by decide +kernel⟩,
   ⟨(wj_w3 rdy a8c_w21), a8c_w21, 31, 2, 32, 32, 24, 0, 32, 250, 750, by (dsimp only; decide +kernel)⟩,
   ⟨(wj_w3 rdy a8b_w21), a8b_w21, 31, 2, 32, 32, 24, 1, 32, 250, 750, by (dsimp only; decide +kernel)⟩,
   ⟨(wj_w3 rdy a9_w21), a9_w21, 31, 4096, by decide +kernel⟩⟩

theorem witness_TimingChangeSetsCommit :
  (∃ (s : State) (e : JEntry) (data : List Byte), commitsNext s.toMach e = true ∧ ((∃ cd k p f nu de w so ha sl lo dl, e.cmd =
    .tmgRefCfg cd k p f nu de w so ha sl lo dl ∧ cd ≤ 13 ∧ (4 ≤ cd ∨ k ≤ 2 ∨ (k = 3 ∧ nu ≠ 0) ∨ (k = 4 ∧ 1000 * de ≤ nu ∧ nu ≤
    750000000 * de)) ∧ p ≤ 15 ∧ f < 128 ∧ 1 ≤ de ∧ de ≤ 65535 ∧ w ≤ 3600 ∧ 10 ≤ so ∧ so ≤ 50000 ∧ 20 ≤ ha ∧ ha ≤ 100000 ∧ so < ha ∧ 1 ≤
    sl ∧ sl ≤ 50000 ∧ 2 ≤ lo ∧ lo ≤ 16 ∧ data = []) ∨ (∃ l n i, e.cmd = .tmgLrefBind l n i ∧ l ≤ 7 ∧ (n ≤ 143 ∨ n = 255) ∧ i ≤ 15 ∧
    data = []) ∨ (∃ mo fo fl ho fr, e.cmd = .tmgSelCfg mo fo fl ho fr ∧ mo ≤ 3 ∧ fo ≤ 13 ∧ fl ≤ 3 ∧ ho ≤ 15 ∧ fr ≤ 15 ∧ data = []) ∨ (∃
    off, e.cmd = .tmgClassMap off ∧ (e.data.all fun b => decide (b.toNat ≤ 15)) = true ∧ data = e.data) ∨ (∃ t a tt w n al g h l, e.cmd
    = .tmgLoopCfg t a tt w n al g h l ∧ t ≤ 14 ∧ a ≤ 14 ∧ 100 ≤ tt ∧ tt ≤ 60000 ∧ 1 ≤ w ∧ w ≤ 10000 ∧ 4 ≤ n ∧ n ≤ 1024 ∧ 1 ≤ al ∧ al ≤
    10000 ∧ g ≤ 10000 ∧ 1 ≤ h ∧ h ≤ 3600 ∧ 1 ≤ l ∧ l ≤ 720 ∧ data = []))) ∧
  (∃ (s : State) (e : JEntry) (a i n d : Nat), commitsNext s.toMach e = true ∧ e.cmd = .tmgApllCfg a i n d ∧ a ≤ 7 ∧ 20 ≤ i ∧ i ≤ 60 ∧
    1 ≤ d ∧ d ≤ 16777215 ∧ n < d ∧ (i = 60 → n = 0) ∧ ¬ ((apll s.toMach a).mint = i ∧ (apll s.toMach a).mnum = n ∧ (apll s.toMach
    a).mden = d) ∧ ((fedBy s.toMach a).all fun o => o.2.src != 1 || clockFits i n d o.2.d o.2.level) = true ∧ ((fedBy s.toMach a).all
    fun o => !(o.2.paired && o.2.grant)) = true) ∧
  (∃ (s : State) (e : JEntry) (k src a level d plane flags width : Nat) (outdly : Int), commitsNext s.toMach e = true ∧ e.cmd =
    .tmgClkoutCfg k src a level d plane flags width outdly ∧ k ≤ 11 ∧ src ≤ 3 ∧ a ≤ 7 ∧ level ≤ 4 ∧ bit flags 0 = false ∧ flags ≤ 7 ∧
    (src = 1 → 1 ≤ d ∧ d ≤ 16777215 ∧ clockFits (apll s.toMach a).mint (apll s.toMach a).mnum (apll s.toMach a).mden d level = true) ∧
    (src = 3 → plane ≤ 15) ∧ (2 ≤ src → 2 ≤ width) ∧ (clkOut s.toMach k).wclk = false ∧ (s.tmg.outs.all fun o => !o.2.paired) = true) ∧
  (∃ (s : State) (e : JEntry) (k a level : Nat) (outdly : Int), commitsNext s.toMach e = true ∧ e.cmd = .tmgWclkCfg k 1 a level outdly
    ∧ k ≤ 11 ∧ a ≤ 7 ∧ level ≤ 4 ∧ (clkOut s.toMach k).src = 0) ∧
  (∃ (s : State) (e : JEntry) (k a level : Nat) (outdly : Int), commitsNext s.toMach e = true ∧ e.cmd = .tmgWclkCfg k 0 a level outdly
    ∧ k ≤ 11 ∧ a ≤ 7 ∧ level ≤ 4 ∧ (clkOut s.toMach k).wclk = true) :=
  ⟨⟨(wj_w3 rdy t0_w3), t0_w3, [], by decide +kernel, .inl ⟨13, 4, 15, 127, 750000000, 1, 3600, 49999, 100000, 50000, 16, -5, rfl,
     by decide +kernel⟩⟩,
   ⟨(wj_w3 rdy t1_w3), t1_w3, 7, 60, 0, 16777215, by decide +kernel⟩,
   ⟨(wj_w3 rdy t2_w3), t2_w3, 11, 3, 7, 4, 0, 15, 6, 2, (-7), by decide +kernel⟩,
   ⟨(wj_w3 rdy t3_w3), t3_w3, 11, 7, 4, (-7), by decide +kernel⟩,
   ⟨(wj_w3 rwk_w3 t4_w3), t4_w3, 11, 7, 4, (-7), by decide +kernel⟩⟩

theorem witness_DeviceTimeChangeSetsCommit :
  (∃ (s : State) (e : JEntry) (mode steplim : Nat), commitsNext s.toMach e = true ∧ e.cmd = .dtCfg mode steplim ∧ mode ≤ 1 ∧ steplim ≤
    10000) ∧
  (∃ (s : State) (e : JEntry) (mode : Nat), commitsNext s.toMach e = true ∧ e.cmd = .dtPinCfg mode ∧ mode ≤ 1 ∧ (mode = 1 → bit
    s.snp.enables 0 = false)) ∧
  (∃ (s : State) (e : JEntry) (d p1 p2 ts u f i co : Nat), commitsNext s.toMach e = true ∧ e.cmd = .ptpCfg d p1 p2 ts u f i co ∧ d ≤
    127 ∧ f ≤ 7) ∧
  (∃ (s : State) (e : JEntry) (p f an : Nat) (ls la ld rx_ tx_ as_ : Int), commitsNext s.toMach e = true ∧ e.cmd = .ptpPortCfg p 255 f
    ls la an ld rx_ tx_ as_ ∧ p ≤ 15 ∧ f ≤ 7 ∧ slavePort s.toMach ≠ some p) ∧
  (∃ (s : State) (e : JEntry) (p k f an : Nat) (ls la ld rx_ tx_ as_ : Int), commitsNext s.toMach e = true ∧ e.cmd = .ptpPortCfg p k f
    ls la an ld rx_ tx_ as_ ∧ p ≤ 15 ∧ k ≤ 63 ∧ f ≤ 7 ∧ -7 ≤ ls ∧ ls ≤ -1 ∧ -3 ≤ la ∧ la ≤ 1 ∧ 2 ≤ an ∧ an ≤ 10 ∧ ls ≤ ld ∧ ld ≤ ls + 5
    ∧ hasIface s.toMach k (bit f 0) = true ∧ ((pports s.toMach).all fun q => q == p || (pport s.toMach q).mac != some k) = true ∧
    (pport s.toMach p).mac ≠ some k ∧ slavePort s.toMach = none) ∧
  (∃ (s : State) (e : JEntry) (sbw st sl : Nat), commitsNext s.toMach e = true ∧ e.cmd = .ptpServoCfg sbw st sl ∧ 2 ≤ sbw ∧ sbw ≤ 6 ∧
    100 ≤ st ∧ st ≤ s.dt.steplim ∧ 1 ≤ sl ∧ sl ≤ 100000) ∧
  (∃ (s : State) (e : JEntry) (p b : Nat), commitsNext s.toMach e = true ∧ e.cmd = .memPortCfg p b ∧ p ≤ 82 ∧
    (let f (x : MemPort) : MemPort := { x with budget := if b = 0xFFFF then none else some b };
        (let m := { s.toMach with mem := { s.mem with ports := tmod {} s.mem.ports p f } }; (∀ n < 4, stackSum m n ≤ 14080 ∨ stackSum m
            n ≤ stackSum s.toMach n)))) ∧
  (∃ (s : State) (h : Hdr) (sec ns : Int) (flags : Nat), canTake s.toMach h (.dtStep sec ns flags) = true ∧ stepRefused s.toMach sec ns
    flags = none) :=
  ⟨⟨(wj_w3 rdy v0_w3), v0_w3, 1, 10000, by decide +kernel⟩,
   ⟨(wj_w3 rdy v1_w3), v1_w3, 1, by decide +kernel⟩,
   ⟨(wj_w3 rdy v2_w3), v2_w3, 127, 1, 2, 3, 4, 7, 5, (2^128-1), by decide +kernel⟩,
   ⟨(wj_w3 rdy v3_w3), v3_w3, 15, 7, 3, 0, 0, 0, 1, 2, 3, by decide +kernel⟩,
   ⟨(wj_w3 rif_w3 v4_w3), v4_w3, 15, 0, 6, 10, (-7), 1, (-2), 1, 2, 3, by decide +kernel⟩,
   ⟨(wj_w3 rdy v5_w3), v5_w3, 6, 100, 100000, by decide +kernel⟩,
   ⟨(wj_w3 rdy v6_w3), v6_w3, 82, 0xFFFF, by (dsimp only; decide +kernel)⟩,
   ⟨rdy, hd, (-1), 999999999, 1, by decide +kernel⟩⟩

theorem witness_ModuleChangeSetsCommit :
  (∃ (s : State) (e : JEntry) (p w : Nat), commitsNext s.toMach e = true ∧ e.cmd = .pairChangeover p w ∧ (p ≤ 15 ∨ p = 255) ∧ w ≤ 60 ∧
    canChange s.toMach = true) ∧
  (∃ (s : State) (e : JEntry) (demote flags p drill warmMax : Nat), commitsNext s.toMach e = true ∧ e.cmd = .pairCfg demote flags p
    drill warmMax ∧ demote ≤ 15 ∧ flags ≤ 7 ∧ p ≤ 15 ∧ drill ≤ 168 ∧ 1 ≤ warmMax ∧ warmMax ≤ 60 ∧
    (let keep (b : Nat) : Bool := bit flags (b + 1);
        (let old := s.pr.keepOrder.filter fun b => if b = 0 then keep 0 else keep 1;
            (let keepOrder := old ++ [0, 1].filter fun b => keep b && !old.contains b;
                (let cfg : PairCfg := { demote, denAuto := bit flags 0, keepA := keep 0, keepB := keep 1, plane := p, drill, warmMax };
                    (let m := { s.toMach with pr := { s.pr with cfg, keepOrder } }; tooCostly s.toMach m = false)))))) ∧
  (∃ (s : State) (e : JEntry) (hold flags : Nat), commitsNext s.toMach e = true ∧ e.cmd = .pwrCfg hold flags ∧ (hold = 0 ∨ 10 ≤ hold) ∧
    hold ≤ 3600 ∧ flags ≤ 1) ∧
  (∃ (s : State) (e : JEntry) (escn esct fnclass budget : Nat), commitsNext s.toMach e = true ∧ e.cmd = .fltCfg escn esct fnclass
    budget ∧ 2 ≤ escn ∧ escn ≤ 64 ∧ 10 ≤ esct ∧ esct ≤ 60000 ∧ 1 ≤ fnclass ∧ fnclass ≤ 3 ∧ 1 ≤ budget ∧ budget ≤ 64) ∧
  (∃ (s : State) (e : JEntry) (en sc src kind div ms mns period : Nat), commitsNext s.toMach e = true ∧ e.cmd = .snpCfg en sc src kind
    div ms mns period ∧ en ≤ 31 ∧ sc ≤ 3 ∧ 1 ≤ div ∧ ms < 2 ^ 48 ∧ mns < 1000000000 ∧ (bit en 0 = true → s.dt.pps = false)) ∧
  (∃ (s : State) (e : JEntry) (on : Nat), commitsNext s.toMach e = true ∧ e.cmd = .updSvcCfg on ∧ on ≤ 1 ∧ s.upd.xfer = none) :=
  ⟨⟨(wj_w3 paired_w3 u0_w3), u0_w3, 255, 0, by decide +kernel⟩,
   ⟨(wj_w3 rdy u1_w3), u1_w3, 15, 7, 15, 168, 60, by (dsimp only; decide +kernel)⟩,
   ⟨(wj_w3 rdy u2_w3), u2_w3, 3600, 1, by decide +kernel⟩,
   ⟨(wj_w3 rdy u3_w3), u3_w3, 64, 60000, 3, 64, by decide +kernel⟩,
   ⟨(wj_w3 rdy u4_w3), u4_w3, 31, 3, 4, 5, 6, 7, 999999999, 8, by decide +kernel⟩,
   ⟨(wj_w3 rdy u5_w3), u5_w3, 1, by decide +kernel⟩⟩

theorem witness_BusControlAndDefaultTargetAnswer :
  (∃ (s : State) (v : Nat), busCase s.toMach 0 (regAddr 16 0x20) true = none) ∧
  (∃ (s : State) (v : Nat), busCase s.toMach 0 (regAddr 17 0x10) true = none) ∧
  (∃ (s : State) (k v : Nat), isTarget k = true ∧ busCase s.toMach 0 (regAddr 17 (0x100 + 4 * k)) true = none ∧ s.bus.lock = false) ∧
  (∃ (s : State) (master v : Nat), master ≤ 10 ∧ busCase s.toMach master (regAddr 17 0x28) true = none) ∧
  (∃ (s : State) (master v : Nat), master ≤ 10 ∧ busCase s.toMach master (regAddr 30 0x10) true = none) ∧
  (∃ (s : State) (master a : Nat) (write : Bool) (v c : Nat), master ≤ 10 ∧ a < 2 ^ 40 ∧ busCase s.toMach master a write = some c ∧ c ≠
    5 ∧ tableRoom s.toMach = true) ∧
  (∃ (s : State) (master a t o : Nat) (write : Bool), master ≤ 6 ∧ a < 2 ^ 40 ∧ busCase s.toMach master a write = none ∧ targetOf a =
    some (t, o) ∧ s.flt.recs.length < 2047) :=
  ⟨⟨rdy, 1, by decide +kernel⟩,
   ⟨rdy, 1, by decide +kernel⟩,
   ⟨rdy, 36, 0, by decide +kernel⟩,
   ⟨rdy, 0, (2^31), by decide +kernel⟩,
   ⟨rdy, 0, (2^29), by decide +kernel⟩,
   ⟨rdy, 10, 0x4FFFFFFF, true, 5, 0, by decide +kernel⟩,
   ⟨rdy, 6, (regAddr 22 0x80), 22, 0x80, false, by decide +kernel⟩⟩

theorem witness_BusAccessesTakeEffect :
  (∃ (s : State) (master a t o : Nat) (f : Mach → Mach), master ≤ 10 ∧ a < 2 ^ 40 ∧ busCase s.toMach master a false = none ∧ targetOf a
    = some (t, o) ∧ 16 ≤ t ∧ (regIn s.toMach (hostPort master) t o).rc = some f ∧ (regIn s.toMach (hostPort master) t o).latches = [] ∧
    (regIn s.toMach (hostPort master) t o).half = false) ∧
  (∃ (s : State) (master a t o : Nat), master ≤ 10 ∧ a < 2 ^ 40 ∧ busCase s.toMach master a false = none ∧ targetOf a = some (t, o) ∧
    16 ≤ t ∧ (regIn s.toMach (hostPort master) t o).rc = none) ∧
  (∃ (s : State) (master a t o v : Nat), master ≤ 10 ∧ a < 2 ^ 40 ∧ v < 2 ^ 32 ∧ ringsIdle s.toMach = true ∧ busCase s.toMach master a
    true = none ∧ targetOf a = some (t, o) ∧ t = 22 ∧ o = 0x80) ∧
  (∃ (s : State) (master a t o v : Nat), master ≤ 10 ∧ a < 2 ^ 40 ∧ v < 2 ^ 32 ∧ ringsIdle s.toMach = true ∧ busCase s.toMach master a
    true = none ∧ targetOf a = some (t, o) ∧ t = 23 ∧ o = 0x20) ∧
  (∃ (s : State) (master a t o v : Nat), master ≤ 10 ∧ a < 2 ^ 40 ∧ v < 2 ^ 32 ∧ ringsIdle s.toMach = true ∧ busCase s.toMach master a
    true = none ∧ targetOf a = some (t, o) ∧ t ≤ 1) ∧
  (∃ (s : State) (master a t o v : Nat), master ≤ 10 ∧ a < 2 ^ 40 ∧ v < 2 ^ 32 ∧ ringsIdle s.toMach = true ∧ busCase s.toMach master a
    true = none ∧ targetOf a = some (t, o) ∧ t = 3) ∧
  (∃ (s : State) (master a t o v : Nat), master ≤ 10 ∧ a < 2 ^ 40 ∧ v < 2 ^ 32 ∧ ringsIdle s.toMach = true ∧ busCase s.toMach master a
    true = none ∧ targetOf a = some (t, o) ∧ t = 4) ∧
  (∃ (s : State) (master a t o v : Nat), master ≤ 10 ∧ a < 2 ^ 40 ∧ v < 2 ^ 32 ∧ ringsIdle s.toMach = true ∧ busCase s.toMach master a
    true = none ∧ targetOf a = some (t, o) ∧ (let x := a - 0x8000000000; 5 ≤ t ∧ t ≤ 8 ∧ poolWaits s.toMach x = true)) ∧
  (∃ (s : State) (master a t o v : Nat), master ≤ 10 ∧ a < 2 ^ 40 ∧ v < 2 ^ 32 ∧ ringsIdle s.toMach = true ∧ busCase s.toMach master a
    true = none ∧ targetOf a = some (t, o) ∧ (let x := a - 0x8000000000; 5 ≤ t ∧ t ≤ 8 ∧ poolWaits s.toMach x = false ∧ lostPosition
                                                 s.toMach x = false)) ∧
  (∃ (s : State) (a t o : Nat), busCase s.toMach 10 (a % 2 ^ 32) false = none ∧ targetOf (a % 2 ^ 32) = some (t, o) ∧ 16 ≤ t ∧ (regIn
    s.toMach none t o).half = false ∧ (regIn s.toMach none t o).latches = []) ∧
  (∃ (s : State) (dev a : Nat) (write : Bool), (write = true ∨ dev ≠ bmcAddress s.sys.slotId)) :=
  ⟨⟨rdy, 0, (regAddr 22 0xA0), 22, 0xA0, (fun m => { m with xb := { m.xb with lateSeg := 0 } }), by decide +kernel, by decide +kernel,
     by decide +kernel, by decide +kernel, by decide +kernel, rfl, by decide +kernel, by decide +kernel⟩,
   ⟨rdy, 10, (regAddr 22 0x10), 22, 0x10, by decide +kernel⟩,
   ⟨rdy, 0, (regAddr 22 0x80), 22, 0x80, (2^32-1), by decide +kernel⟩,
   ⟨rdy, 0, (regAddr 23 0x20), 23, 0x20, (2^32-1), by decide +kernel⟩,
   ⟨rrm_w22, 0, 0x3FFFC, 0, 0x3FFFC, (2^32-1), by decide +kernel⟩,
   ⟨rdy, 0, 83886084, 3, 4, (2^32-1), by decide +kernel⟩,
   ⟨rdy, 6, 100663300, 4, 4, (2^32-1), by decide +kernel⟩,
   ⟨rfc_w22, 0, 549755813892, 5, 4, (2^32-1), by (dsimp only; decide +kernel)⟩,
   ⟨rdy, 0, 549755813892, 5, 4, (2^32-1), by (dsimp only; decide +kernel)⟩,
   ⟨rdy, (regAddr 22 0x80), 22, 0x80, by decide +kernel⟩,
   ⟨rdy, 0x44, 5, true, by decide +kernel⟩⟩

theorem witness_MailboxWritesTakeEffect :
  (∃ (s : State) (port n tail : Nat) (hare : Bool), port < 2 ∧ n < 64 ∧ ringsIdle s.toMach = true ∧ (ses s.toMach n).st ≠ .free ∧
    foreign s.toMach port n = false ∧ tail < 65536 ∧
    (let old := if hare then (win s.toMach n).hareTail else (win s.toMach n).cmdTail;
        (let head := if hare then (win s.toMach n).hareHead else (win s.toMach n).headReg; ringLen old head ≤ ringLen tail head ∧
            ringLen tail head ≤ (if hare then 32 else 256)))) ∧
  (∃ (s : State) (port n tail : Nat) (hare : Bool), port < 2 ∧ n < 64 ∧ ringsIdle s.toMach = true ∧ (ses s.toMach n).st ≠ .free ∧
    foreign s.toMach port n = false ∧ tail < 65536 ∧ tableRoom s.toMach = true ∧
    (let old := if hare then (win s.toMach n).hareTail else (win s.toMach n).cmdTail;
        (let head := if hare then (win s.toMach n).hareHead else (win s.toMach n).headReg; (ringLen tail head < ringLen old head ∨ (if
            hare then 32 else 256) < ringLen tail head)))) ∧
  (∃ (s : State) (port n head : Nat), port < 2 ∧ n < 64 ∧ ringsIdle s.toMach = true ∧ (ses s.toMach n).st ≠ .free ∧ foreign s.toMach
    port n = false ∧ head < 65536 ∧ ringLen (win s.toMach n).respTail head ≤ ringLen (win s.toMach n).respTail (win s.toMach
    n).respHead) ∧
  (∃ (s : State) (port n head : Nat), port < 2 ∧ n < 64 ∧ ringsIdle s.toMach = true ∧ (ses s.toMach n).st ≠ .free ∧ foreign s.toMach
    port n = false ∧ head < 65536 ∧ ringLen (win s.toMach n).evtTail head ≤ ringLen (win s.toMach n).evtTail (win s.toMach n).evtHead ∧
    (ses s.toMach n).lost = 0) ∧
  (∃ (s : State) (port n : Nat), port < 2 ∧ n < 64 ∧ claiming s.toMach = true ∧ s.sys.romMode = false ∧ s.sys.phase = 0 ∧ (ses s.toMach
    n).st = .free ∧ (∀ k < n, (ses s.toMach k).st ≠ .free)) ∧
  (∃ (s : State) (port : Nat), port < 2) :=
  ⟨⟨(ring_w22 65535 65530), 0, 0, 2, false, by (dsimp only; decide +kernel)⟩,
   ⟨(ring_w22 65535 65530), 0, 0, 65534, false, by (dsimp only; decide +kernel)⟩,
   ⟨(ring_w22 65535 65530), 0, 0, 5, by decide +kernel⟩,
   ⟨(ring_w22 65535 65530), 0, 0, 5, by decide +kernel⟩,
   ⟨rdy, 1, 1, by decide +kernel⟩,
   ⟨rdy, 1, by decide +kernel⟩⟩

theorem witness_ServicePortAnswers :
  (∃ (s : State) (c : SvcReq), svcUp s.toMach = true) ∧
  (∃ (s : State) (c : SvcReq) (k len : Nat), svcUp s.toMach = true ∧ s.upd.svcOn = true ∧ s.upd.xfer = none ∧ k ≤ 1 ∧ 1 ≤ len ∧ len ≤
    imageMax ∧ len % 4096 = 0 ∧ inUse s.toMach k = false) ∧
  (∃ (s : State) (c : SvcReq) (x : Xfer), svcUp s.toMach = true ∧ s.upd.xfer = some x ∧ x.client = c.client) ∧
  (∃ (s : State) (c : SvcReq) (x : Xfer), svcUp s.toMach = true ∧ s.upd.xfer = some x ∧ x.client = c.client ∧ x.st ≠ 3) ∧
  (∃ (s : State) (c : SvcReq) (k : Nat), svcUp s.toMach = true ∧ s.upd.running = false ∧ k ≤ 1 ∧ (slot s.toMach k).sr.valid = true) ∧
  (∃ (s : State) (c : SvcReq), svcUp s.toMach = true) ∧
  (∃ (s : State) (c : SvcReq) (k : Nat), svcUp s.toMach = true ∧ s.sys.romMode = false ∧ k ≤ 15 ∧ (lget {} s.snp.slots k).st = 2 ∧
    c.offset % 4 = 0 ∧ c.offset < 0x800000) ∧
  (∃ (s : State) (mac ip : List Byte), svcUp s.toMach = true ∧ mac.length = 6 ∧ ip.length = 4) ∧
  (∃ (s : State) (tag : Nat), svcUp s.toMach = true ∧ tag < 2 ^ 32 ∧
    (let ask := le 2 0x5653 ++ [1#8, 0#8] ++ le 4 tag ++ List.replicate 8 0;
        (let good := ask ++ le 4 (crc32c ask).toNat; unslip good = good))) ∧
  (∃ (s : State) (tag : Nat) (bad : List Byte), svcUp s.toMach = true ∧ tag < 2 ^ 32 ∧ unslip bad = bad ∧ 4 ≤ bad.length ∧ (crc32c
    (bad.take (bad.length - 4))).toNat ≠ fld bad (bad.length - 4) 4) :=
  ⟨⟨rdy, cq_w19, by decide +kernel⟩,
   ⟨rdy, cq_w19, 1, 4096, by decide +kernel⟩,
   ⟨(rx1_w19 (xf_w19 1)), cq_w19, (xf_w19 1), by decide +kernel⟩,
   ⟨(rx1_w19 (xf_w19 1)), cq_w19, (xf_w19 1), by decide +kernel⟩,
   ⟨rrom_w22, cq_w19, 1, by decide +kernel⟩,
   ⟨rdy, cq_w19, by decide +kernel⟩,
   ⟨rsl_w22, {client := 5, offset := 0x7FFFFC}, 15, by decide +kernel⟩,
   ⟨rdy, (List.replicate 6 3), (List.replicate 4 9), by decide +kernel⟩,
   ⟨rdy, 7, by (dsimp only; decide +kernel)⟩,
   ⟨rdy, 7, rbad_w26, by decide +kernel⟩⟩

theorem witness_ServiceTransferProceeds :
  (∃ (s : State) (c : SvcReq) (x : Xfer) (data : List Byte), svcUp s.toMach = true ∧ s.upd.xfer = some x ∧ x.client = c.client ∧ x.st ≠
    3 ∧ x.asked = [] ∧ data ≠ [] ∧ data.length ≤ 1408 ∧ c.offset + data.length ≤ x.len ∧ (data.length % 64 = 0 ∨ c.offset + data.length
    = x.len)) ∧
  (∃ (s : State) (c : SvcReq) (x : Xfer), svcUp s.toMach = true ∧ s.upd.xfer = some x ∧ x.client = c.client ∧ x.st ≠ 3) ∧
  (∃ (s : State) (c : SvcReq) (x : Xfer), s.upd.xfer = some x ∧ x.asked = [c] ∧ x.st ≠ 3 ∧ tableRoom s.toMach = true) ∧
  (∃ (s : State) (c : SvcReq) (x : Xfer), svcUp s.toMach = true ∧ s.upd.xfer = some x ∧ x.client = c.client ∧ x.st = 2 ∧ x.asked = []) ∧
  (∃ (s : State) (x : Xfer) (c : SvcReq), s.upd.xfer = some x ∧ x.st = 3 ∧ x.asked = [c] ∧ x.slot ≤ 1 ∧ s.sys.jobs = []) ∧
  (∃ (s : State) (x : Xfer), s.upd.xfer = some x ∧ x.asked = [] ∧ x.lastAt + 60000 * msT < s.now ∧ tableRoom s.toMach = true) :=
  ⟨⟨(rx1_w19 (xf_w19 1)), {client := 5, offset := 4032}, (xf_w19 1), (List.replicate 64 9), by decide +kernel⟩,
   ⟨(rx1_w19 (xf_w19 1)), cq_w19, (xf_w19 1), by decide +kernel⟩,
   ⟨(rx1_w19 (xf_w19 1 [cq_w19])), cq_w19, (xf_w19 1 [cq_w19]), by decide +kernel⟩,
   ⟨(rx1_w19 (xf_w19 2)), cq_w19, (xf_w19 2), by decide +kernel⟩,
   ⟨(rx1_w19 (xf_w19 3 [cq_w19])), (xf_w19 3 [cq_w19]), cq_w19, by decide +kernel⟩,
   ⟨(rx1_w19 (xf_w19 1)), (xf_w19 1), by decide +kernel⟩⟩

theorem witness_PlanePipelineProceeds :
  (∃ (s : State) (p : Nat), p < 16) ∧
  (∃ (s : State) (p us : Nat), p < 16 ∧ (plane s.toMach p).staging = true) ∧
  (∃ (s : State) (p : Nat), 1 ≤ p ∧ p < 16 ∧ p < s.xb.planes.length ∧ targetOff s.toMach 22 = false ∧ ringsIdle s.toMach = true ∧
    (plane s.toMach p).staging = false) ∧
  (∃ (s : State) (p : Nat), 1 ≤ p ∧ p < 16 ∧ p < s.xb.planes.length ∧ targetOff s.toMach 22 = false ∧ ringsIdle s.toMach = true ∧
    (plane s.toMach p).staging = true ∧ tableRoom s.toMach = true) ∧
  (∃ (s : State) (p : Nat), p < 16 ∧ (s.ctl.journal.any fun e => e.waiting && e.cmd == .bankSwap p) = false) ∧
  (∃ (s : State) (p : Nat) (r : OnAir), p < 16 ∧ (s.xb.onAir.filter fun r => r.plane == p) = [r] ∧ r.ses < 64 ∧ (ses s.toMach r.ses).st
    = .opn ∧ ringLen (win s.toMach r.ses).evtTail (win s.toMach r.ses).evtHead < 256) :=
  ⟨⟨s1_w8, 15, by decide +kernel⟩,
   ⟨s1b_w8, 15, 700, by decide +kernel⟩,
   ⟨s1_w8, 15, by decide +kernel⟩,
   ⟨s1b_w8, 15, by decide +kernel⟩,
   ⟨s1_w8, 15, by decide +kernel⟩,
   ⟨{rdy with xb := { rdy.xb with onAir := [oa_w8]}}, 15, oa_w8, by decide +kernel⟩⟩

theorem witness_LinesArriveAndLeave :
  (∃ (s : State) (k : Nat) (l : LineIn), k < 2304 ∧ l.line ≠ 1 ∧ l.holes = [] ∧ groupNow s.toMach k = [] ∧ (∀ p < 16, (pair s.toMach k
    p).cls ≠ 3)) ∧
  (∃ (s : State) (k : Nat) (l : LineIn), k < 2304 ∧ l.line = 1 ∧ l.holes = [] ∧ groupNow s.toMach k = [] ∧ (∀ p < 16, (pair s.toMach k
    p).cls ≠ 3)) ∧
  (∃ (s : State) (k : Nat) (l : LineIn), k < 2304 ∧ l.line ≠ 1 ∧ l.holes = [] ∧ groupNow s.toMach k = [] ∧
    (let lead := lget 0 (leadsOf s.toMach k l.line (l.at_.getD s.dt.t)) 0; (leadMin s.toMach k : Int) ≤ lead ∧ (pair s.toMach k 0).cls
        = 3 ∧ (pair s.toMach k 0).next = 3 ∧ (∀ p < 16, p ≠ 0 → (pair s.toMach k p).cls ≠ 3) ∧ inCapture s.toMach k 0 lead = false ∧
        tableRoom s.toMach = true)) ∧
  (∃ (s : State) (d line : Nat), d < 2304 ∧ s.pwr.st < 2 ∧ 1 ≤ line ∧ line ≤ totalLines (plane s.toMach (air s.toMach d).plane).fmt) ∧
  (∃ (s : State) (d line : Nat), d < 2304 ∧ s.pwr.st < 2 ∧ 1 ≤ line ∧ line ≤ totalLines (plane s.toMach (air s.toMach d).plane).fmt ∧
    s.flt.recs.length < 2047) ∧
  (∃ (s : State) (k p : Nat), k < 2400 ∧ p < 16 ∧ (let m := { s.toMach with xb := { s.xb with fbRet := s.xb.fbRet.erase (k, p) } };
                                                      (bufSources m s.xb.holds).contains k = true)) ∧
  (∃ (s : State) (k p : Nat), k < 2400 ∧ p < 16 ∧ (let m := { s.toMach with xb := { s.xb with fbRet := s.xb.fbRet.erase (k, p) } };
                                                      (bufSources m s.xb.holds).contains k = false)) :=
  ⟨⟨rdy, 2303, {line := 5, words := [1,2], ancLost := 2}, by decide +kernel⟩,
   ⟨rdy, 2303, {line := 1, words := [1,2], ancLost := 2}, by decide +kernel⟩,
   ⟨ssy_w19, 5, lsy_w19, by (dsimp only; decide +kernel)⟩,
   ⟨rdy, 2303, 1125, by decide +kernel⟩,
   ⟨rdy, 3, 100, by decide +kernel⟩,
   ⟨(fb_w31 [(5, 0), (5, 3)]), 5, 3, by (dsimp only; decide +kernel)⟩,
   ⟨{rdy with xb := { rdy.xb with fbRet := [(5,3)]}}, 5, 3, by (dsimp only; decide +kernel)⟩⟩

theorem witness_FramesComplete :
  (∃ (s : State) (k i : Nat) (h : FrameShape), k < 2304 ∧ (srcOf s.toMach k).present = true ∧ h.fmt (srcOf s.toMach k).pid = (srcOf
    s.toMach k).fmt ∧ begun s.toMach (srcOf s.toMach k) = false ∧ (srcOf s.toMach k).cur = some i ∧ i < (srcOf s.toMach k).bufs.length) ∧
  (∃ (s : State) (k : Nat) (h : FrameShape), k < 2304 ∧ (srcOf s.toMach k).present = false) ∧
  (∃ (s : State) (i b : Nat), i < 2048 ∧ (tget {} s.is_.feeds i).valid = true ∧ (tget {} s.is_.feeds i).since ≤ (plane s.toMach (tget
    {} s.is_.feeds i).plane).nextSw ∧ (let f : Feed := tget {} s.is_.feeds i; (2304 ≤ f.src ∨ (pair s.toMach f.src f.plane).cls ≠ 0) ∧
                                          chooseBuf s.toMach f.src f.plane = some b)) ∧
  (∃ (s : State) (k : Nat), k < 2304 ∧ (let x := srcOf s.toMach k;
                                           (let silent := 8 * 500000000 * rateDen x.fmt.rate < (s.now - x.validAt) * x.fmt.total *
                                               rateNum x.fmt.rate; x.present = true ∧ silent ∧ s.flt.recs.length < 2047))) ∧
  (∃ (s : State) (k : Nat), k < 2304 ∧ (let x := srcOf s.toMach k;
                                           (let silent := 8 * 500000000 * rateDen x.fmt.rate < (s.now - x.validAt) * x.fmt.total *
                                               rateNum x.fmt.rate; (x.present = false ∨ ¬ silent)))) :=
  ⟨⟨spr_w19, 5, 1, fsh_w19, by decide +kernel⟩,
   ⟨{rdy with is_ := { rdy.is_ with srcs := [(5, {lastSig := some fmq_w25})] }}, 5, fsq_w25, by decide +kernel⟩,
   ⟨sfd_w19, 2047, 0, by (dsimp only; decide +kernel)⟩,
   ⟨slo_w19, 5, by (dsimp only; decide +kernel)⟩,
   ⟨spr_w8, 5, by (dsimp only; decide +kernel)⟩⟩

theorem witness_LinkBlocksAlignAndArrive :
  (∃ (s : State) (l : Nat) (f : WlFrame), l < 160 ∧ looped s.toMach l = false ∧
    (let r := rx s.toMach l; r.st = 1)) ∧
  (∃ (s : State) (l : Nat) (f : WlFrame), l < 160 ∧ looped s.toMach l = false ∧
    (let r := rx s.toMach l; r.st = 5)) ∧
  (∃ (s : State) (l : Nat) (c : Option WlBlock) (b : WlBlock), l < 160 ∧ (rx s.toMach l).st = 5 ∧ looped s.toMach l = false ∧ (c = some
    b ∨ c = none ∧ (rx s.toMach l).blocks.head? = some b) ∧ b.blk.ok = true) ∧
  (∃ (s : State) (l : Nat) (c : Option WlBlock) (b : WlBlock), l < 160 ∧ (rx s.toMach l).st = 5 ∧ looped s.toMach l = false ∧ (c = some
    b ∨ c = none ∧ (rx s.toMach l).blocks.head? = some b) ∧ txIdle s.toMach l = false ∧ b.blk.ok = false) ∧
  (∃ (s : State) (l : Nat), l < 160 ∧ (rx s.toMach l).blocks = []) ∧
  (∃ (s : State) (l : Nat) (b : WlBlock), l < 144 ∧ (rx s.toMach l).st = 5 ∧ looped s.toMach l = false ∧ b.blk.ok = true ∧ claiming
    s.toMach = true ∧ tableRoom s.toMach = true ∧ (hdOf b.blk.hdr).claim / 2 ^ 28 ≠ 0 ∧ (hdOf b.blk.hdr).claim % 256 ≠ s.pr.slotId %
    256 ∧ 7 ≤ (rx s.toMach l).forRun) :=
  ⟨⟨(lk_w9 143 {st := 1, fawRun := 2}), 143, wf_w9, by (dsimp only; decide +kernel)⟩,
   ⟨(lk_w9 143 {st := 5, mode := 3}), 143, wf_w9, by (dsimp only; decide +kernel)⟩,
   ⟨(lk_w9 143 {st := 5, mode := 3, blocks := [gb_w23]}), 143, none, gb_w23, by decide +kernel⟩,
   ⟨(lk_w9 143 {st := 5, mode := 3, blocks := [bb_w23]}), 143, none, bb_w23, by decide +kernel⟩,
   ⟨(lk_w9 143 {st := 5, mode := 3}), 143, by decide +kernel⟩,
   ⟨(lk_w9 143 {st := 5, mode := 3, forRun := 7}), 143, gb_w23, by decide +kernel⟩⟩

theorem witness_LinkBlocksLeave :
  (∃ (s : State) (l at_ : Nat), l < 160 ∧ transmits s.toMach l = false) ∧
  (∃ (s : State) (l at_ : Nat), l < 160 ∧ (let t := tx s.toMach l; transmits s.toMach l = true ∧ t.beatDue = true)) ∧
  (∃ (s : State) (l at_ : Nat), l < 160 ∧ (let t := tx s.toMach l;
                                              (let mode := (rx s.toMach l).mode; transmits s.toMach l = true ∧ t.beatDue = false ∧
                                                  t.resends = [] ∧ ownerOf l mode t.cal = none ∧ t.disp = 0 ∧ (t.svc = [] ∨ (rx
                                                  s.toMach l).st < 3)))) ∧
  (∃ (s : State) (l at_ : Nat) (pay m : _), l < 160 ∧
    (let t := tx s.toMach l; (let mode := (rx s.toMach l).mode; transmits s.toMach l = true ∧ t.beatDue = false ∧ t.resends = [] ∧
                                 ownerOf l mode t.cal = none ∧ t.disp = 0 ∧ 3 ≤ (rx s.toMach l).st ∧ svcOut s.toMach l = some (pay,
                                 m)))) ∧
  (∃ (s : State) (l at_ : Nat) (k : _), l < 160 ∧ (let t := tx s.toMach l;
                                                      (let mode := (rx s.toMach l).mode; transmits s.toMach l = true ∧ t.beatDue =
                                                          false ∧ t.resends = [] ∧ ownerOf l mode t.cal = some k ∧ t.late = [] ∧
                                                          s.pwr.st < 3 ∧ ¬(mode = 1 ∧ (tget {} t.slots k).rclass = 3) ∧ (tget {}
                                                          t.slots k).words ≠ []))) ∧
  (∃ (s : State) (l at_ : Nat) (p ps b : _), l < 160 ∧
    (let t := tx s.toMach l; (let mode := (rx s.toMach l).mode; transmits s.toMach l = true ∧ t.beatDue = false ∧ t.resends = p :: ps ∧
                                 ownerOf l mode t.cal = none ∧ t.replay.find? (fun b => b.pos == p) = some b))) :=
  ⟨⟨rdy, 143, 1, by decide +kernel⟩,
   ⟨btd_w23, 143, 1, by (dsimp only; decide +kernel)⟩,
   ⟨idl_w23, 143, 1, by (dsimp only; decide +kernel)⟩,
   ⟨svd_w9, 143, 1, (((svcOut svd_w9.toMach 143).map (fun x => x.1)).getD 0), (((svcOut svd_w9.toMach 143).map (fun x => x.2)).getD
     svd_w9.toMach), by (dsimp only; decide +kernel)⟩,
   ⟨stm_w9, 143, 1, 0, by (dsimp only; decide +kernel)⟩,
   ⟨rsd_w9, 143, 1, 5, [], {pos := 5, hdr := hdr0_w9, payload := 6}, by (dsimp only; decide +kernel)⟩⟩

theorem witness_LinkReleasesAndLoses :
  (∃ (s : State) (l k : Nat) (p : RxPos) (ps : List RxPos), l < 144 ∧ 3 ≤ (rx s.toMach l).st ∧ (rx s.toMach l).sched = p :: ps ∧ 4 *
    p.at_ + 31 * tbU (rx s.toMach l).mode < 4 * (s.dt.t + 2 * nsU) ∧ ((rx s.toMach l).held.all fun b => b.pos != p.pos) = true ∧
    ownerOf l (rx s.toMach l).mode p.cal = some k) ∧
  (∃ (s : State) (l : Nat) (z : RxPos) (ps : List RxPos) (hdr : BitVec 64) (payload : BitVec 4096), l < 144 ∧ (rx s.toMach l).st = 5 ∧
    (rx s.toMach l).sched = z :: ps ∧ 4 * z.at_ + 31 * tbU (rx s.toMach l).mode < 4 * (s.dt.t + 2 * nsU) ∧ (rx s.toMach l).held = [{ pos := z.pos, good := some (hdr, payload), resent := false }]
    ∧ (hdOf hdr).typ = 1 ∧ (let p := payload.toNat;
                               (let k := bits p 4095 4093; k < modeSlots (rx s.toMach l).mode ∧ ¬(bits p 4054 4053 = 3 ∧ (rx s.toMach
                                   l).mode = 1) ∧ bit (rx s.toMach l).segOver k = false ∧ (rasterOf s.toMach (8 * l + k)).total = 0))) ∧
  (∃ (s : State) (l : Nat), l < 160 ∧ (∀ p ∈ (rx s.toMach l).sched.head?, 4 * (s.dt.t + 2 * nsU) ≤ 4 * p.at_ + 31 * tbU (rx s.toMach
    l).mode)) ∧
  (∃ (s : State) (l k : Nat), l < 144 ∧ k < 8 ∧ ((rx s.toMach l).st ≠ 5 ∨ 64 ≤ (tget {} (rx s.toMach l).slots k).quiet)) ∧
  (∃ (s : State) (l : Nat), l < 160 ∧ 2 ≤ (rx s.toMach l).st ∧ (4 ≤ (rx s.toMach l).fawMiss ∨ 64 ≤ (rx s.toMach l).bad) ∧
    s.flt.recs.length < 2030) ∧
  (∃ (s : State) (l : Nat), l < 144 ∧ 1 ≤ (rx s.toMach l).st ∧ (rx s.toMach l).st ≤ 3 ∧ (rx s.toMach l).modeAt + 2 * msT < s.now) :=
  ⟨⟨(lt_w23 143 {st := 5, mode := 3, sched := [z0_w23]}), 143, 5, z0_w23, [], by decide +kernel⟩,
   ⟨(lt_w23 143 {st := 5, mode := 3, sched := [z0_w23], held := [{pos := 4095, good := some (hdr1_w9, pl7_w23)}]}), 143, z0_w23, [],
     hdr1_w9, pl7_w23, by (dsimp only; decide +kernel)⟩,
   ⟨(lk_w9 143 {st := 5, mode := 3, sched := [z0_w23]}), 143, by decide +kernel⟩,
   ⟨(lk_w9 143 {st := 5, mode := 3, slots := [(7, {quiet := 64})]}), 143, 7, by decide +kernel⟩,
   ⟨(lk_w9 143 {st := 5, mode := 3, bad := 64}), 143, by decide +kernel⟩,
   ⟨(let s := lk_w9 143 {st := 3, mode := 1}; {s with now := 2 * msT + 1}), 143, by decide +kernel⟩⟩

theorem witness_LanesProceed :
  (∃ (s : State) (k : Nat), k < 224 ∧ (lane s.toMach k).fitted = true ∧ (lane s.toMach k).tblErr = false ∧ (lane s.toMach k).ready =
    false ∧ linkOf s.toMach k = none) ∧
  (∃ (s : State) (k : Nat) (l : _), k < 224 ∧ (lane s.toMach k).fitted = true ∧ (lane s.toMach k).tblErr = false ∧ (lane s.toMach
    k).ready = false ∧ linkOf s.toMach k = some l) ∧
  (∃ (s : State) (k : Nat), k < 224 ∧ (lane s.toMach k).ready = true ∧ (lane s.toMach k).toRate = none ∧ (lane s.toMach k).lock = true) ∧
  (∃ (s : State) (k : Nat), k < 224 ∧ (lane s.toMach k).ready = true ∧ (lane s.toMach k).toRate = none ∧ (lane s.toMach k).lock =
    false) ∧
  (∃ (s : State) (k : Nat) (sig : Bool), k < 224 ∧ (s.ln.scans.all fun x => x.lane != k && (lane s.toMach x.lane).lock) = true ∧ (lane
    s.toMach k).lock = false) ∧
  (∃ (s : State) (k : Nat) (sig : Bool), k < 224 ∧ (s.ln.scans.all fun x => x.lane != k && (lane s.toMach x.lane).lock) = true ∧ (lane
    s.toMach k).lock = true ∧ linkOf s.toMach k = none) ∧
  (∃ (s : State) (k : Nat) (sig : Bool) (l : _), k < 224 ∧ (s.ln.scans.all fun x => x.lane != k && (lane s.toMach x.lane).lock) = true
    ∧ (lane s.toMach k).lock = true ∧ linkOf s.toMach k = some l) ∧
  (∃ (s : State) (k r : Nat), k < 224 ∧ (lane s.toMach k).toRate = some r ∧ (s.ln.scans.all fun x => x.lane != k && (lane s.toMach
    x.lane).lock) = true) ∧
  (∃ (s : State) (k : Nat) (x : Scan) (counts : List Nat), k < 224 ∧ s.ln.scans.find? (fun x => x.lane == k) = some x ∧ live s.toMach
    x.ses = true ∧ (win s.toMach x.ses).respTail < 65536 ∧ counts.length = x.points ∧ (counts.all fun c => decide (c ≤ 2 ^ x.k)) =
    true) ∧
  (∃ (s : State) (n hseq : Nat) (w : SvcWait), n < 64 ∧ s.ctl.svc.find? (fun w => w.ses == n && w.hseq == hseq) = some w ∧ w.deadline <
    s.now ∧ (win s.toMach n).respTail < 65536) :=
  ⟨⟨(ll_w9 150 {fitted := true}), 150, by decide +kernel⟩,
   ⟨(ll_w9 143 {fitted := true, flags := 63}), 143, 143, by decide +kernel⟩,
   ⟨(ll_w9 150 {lock := true, ready := true}), 150, by decide +kernel⟩,
   ⟨(ll_w9 143 {ready := true}), 143, by decide +kernel⟩,
   ⟨(ll_w9 150 {}), 150, true, by decide +kernel⟩,
   ⟨(ll_w9 150 {lock := true}), 150, true, by decide +kernel⟩,
   ⟨(ll_w9 143 {lock := true}), 143, true, 143, by decide +kernel⟩,
   ⟨(ll_w9 150 {lock := true, toRate := some 3}), 150, 3, by decide +kernel⟩,
   ⟨{(ll_w9 150 {lock := true, rate := 4}) with ln := {(ll_w9 150 {lock := true, rate := 4}).ln with scans := [sc_w9]}}, 150, sc_w9,
     (List.replicate sc_w9.points 4), by decide +kernel⟩,
   ⟨{rdy with now := 1, ctl := {rdy.ctl with svc := [sw_w9]}}, 0, 9, sw_w9, by decide +kernel⟩⟩

theorem witness_FramesAreReceived :
  (∃ (s : State) (k : Nat) (frame : List Byte) (pcs : Bool) (x : PtpMeas), k < 64 ∧ macExists s.toMach k = true ∧ (mac s.toMach k).link = true ∧ s.pwr.st < 2 ∧ matched s.toMach k frame = [] ∧ (let n := frame.length; (let room := rxFill (mac s.toMach k) + n ≤ 524288 * (macRate s.toMach k / 100); ¬ room))) ∧
  (∃ (s : State) (k : Nat) (frame : List Byte) (pcs : Bool) (x : PtpMeas), k < 64 ∧ macExists s.toMach k = true ∧ (mac s.toMach k).link = true ∧ s.pwr.st < 2 ∧ matched s.toMach k frame = [] ∧ (let n := frame.length; (let room := rxFill (mac s.toMach k) + n ≤ 524288 * (macRate s.toMach k / 100); room ∧ pcs = true))) ∧
  (∃ (s : State) (k : Nat) (frame : List Byte) (pcs : Bool) (x : PtpMeas), k < 64 ∧ macExists s.toMach k = true ∧ (mac s.toMach k).link = true ∧ s.pwr.st < 2 ∧ matched s.toMach k frame = [] ∧ (let n := frame.length; (let room := rxFill (mac s.toMach k) + n ≤ 524288 * (macRate s.toMach k / 100); (let good := fcs (frame.take (n - 4)) = frame.drop (n - 4); room ∧ pcs = false ∧ ¬ good)))) ∧
  (∃ (s : State) (k : Nat) (frame : List Byte) (pcs : Bool) (x : PtpMeas), k < 64 ∧ macExists s.toMach k = true ∧ (mac s.toMach k).link = true ∧ s.pwr.st < 2 ∧ matched s.toMach k frame = [] ∧ (let n := frame.length; (let room := rxFill (mac s.toMach k) + n ≤ 524288 * (macRate s.toMach k / 100); (let good := fcs (frame.take (n - 4)) = frame.drop (n - 4); room ∧ pcs = false ∧ good ∧ n < 64)))) ∧
  (∃ (s : State) (k : Nat) (frame : List Byte) (pcs : Bool) (x : PtpMeas), k < 64 ∧ macExists s.toMach k = true ∧ (mac s.toMach k).link = true ∧ s.pwr.st < 2 ∧ matched s.toMach k frame = [] ∧ (let n := frame.length; (let room := rxFill (mac s.toMach k) + n ≤ 524288 * (macRate s.toMach k / 100); (let good := fcs (frame.take (n - 4)) = frame.drop (n - 4); room ∧ pcs = false ∧ good ∧ 64 ≤ n ∧ (mac s.toMach k).maxFrame < n)))) ∧
  (∃ (s : State) (k : Nat) (frame : List Byte) (pcs : Bool) (x : PtpMeas), k < 64 ∧ macExists s.toMach k = true ∧ (mac s.toMach k).link = true ∧ s.pwr.st < 2 ∧ matched s.toMach k frame = [] ∧ (let n := frame.length; (let f := frameOf frame; (let room := rxFill (mac s.toMach k) + n ≤ 524288 * (macRate s.toMach k / 100); (let good := fcs (frame.take (n - 4)) = frame.drop (n - 4); room ∧ pcs = false ∧ good ∧ 64 ≤ n ∧ n ≤ (mac s.toMach k).maxFrame ∧ accepts s.toMach k f.dst = false))))) ∧
  (∃ (s : State) (k : Nat) (frame : List Byte) (pcs : Bool) (x : PtpMeas), k < 64 ∧ macExists s.toMach k = true ∧ (mac s.toMach k).link = true ∧ s.pwr.st < 2 ∧ matched s.toMach k frame = [] ∧ (let n := frame.length; (let f := frameOf frame; (let room := rxFill (mac s.toMach k) + n ≤ 524288 * (macRate s.toMach k / 100); (let good := fcs (frame.take (n - 4)) = frame.drop (n - 4); (let fits := room ∧ pcs = false ∧ good ∧ 64 ≤ n ∧ n ≤ (mac s.toMach k).maxFrame ∧ accepts s.toMach k f.dst = true; fits ∧ f.etype = 0x8808)))))) ∧
  (∃ (s : State) (k : Nat) (frame : List Byte) (pcs : Bool) (x : PtpMeas), k < 64 ∧ macExists s.toMach k = true ∧ (mac s.toMach k).link = true ∧ s.pwr.st < 2 ∧ matched s.toMach k frame = [] ∧ (let n := frame.length; (let f := frameOf frame; (let room := rxFill (mac s.toMach k) + n ≤ 524288 * (macRate s.toMach k / 100); (let good := fcs (frame.take (n - 4)) = frame.drop (n - 4); (let fits := room ∧ pcs = false ∧ good ∧ 64 ≤ n ∧ n ≤ (mac s.toMach k).maxFrame ∧ accepts s.toMach k f.dst = true; fits ∧ f.etype ≠ 0x8808 ∧ portHeld s.toMach (13 + k) = true)))))) ∧
  (∃ (s : State) (k : Nat) (frame : List Byte) (pcs : Bool) (x : PtpMeas), k < 64 ∧ macExists s.toMach k = true ∧ (mac s.toMach k).link = true ∧ s.pwr.st < 2 ∧ matched s.toMach k frame = [] ∧ (let n := frame.length; (let f := frameOf frame; (let room := rxFill (mac s.toMach k) + n ≤ 524288 * (macRate s.toMach k / 100); (let good := fcs (frame.take (n - 4)) = frame.drop (n - 4); (let fits := room ∧ pcs = false ∧ good ∧ 64 ≤ n ∧ n ≤ (mac s.toMach k).maxFrame ∧ accepts s.toMach k f.dst = true; (let drains := (mac s.toMach k).rxq = [] ∧ portHeld s.toMach (13 + k) = false; fits ∧ drains ∧ f.etype ∉ [0x8808, 0x0800, 0x86DD, 0x0806]))))))) ∧
  (∃ (s : State) (k : Nat) (frame : List Byte) (pcs : Bool) (x : PtpMeas), k < 64 ∧ macExists s.toMach k = true ∧ (mac s.toMach k).link = true ∧ s.pwr.st < 2 ∧ matched s.toMach k frame = [] ∧ (let n := frame.length; (let f := frameOf frame; (let room := rxFill (mac s.toMach k) + n ≤ 524288 * (macRate s.toMach k / 100); (let good := fcs (frame.take (n - 4)) = frame.drop (n - 4); (let fits := room ∧ pcs = false ∧ good ∧ 64 ≤ n ∧ n ≤ (mac s.toMach k).maxFrame ∧ accepts s.toMach k f.dst = true; (let drains := (mac s.toMach k).rxq = [] ∧ portHeld s.toMach (13 + k) = false; fits ∧ drains ∧ f.etype = 0x0800 ∧ ip4Of f.body = none))))))) ∧
  (∃ (s : State) (k : Nat) (frame : List Byte) (pcs : Bool) (x : PtpMeas), k < 64 ∧ macExists s.toMach k = true ∧ (mac s.toMach k).link = true ∧ s.pwr.st < 2 ∧ matched s.toMach k frame = [] ∧ (let n := frame.length; (let f := frameOf frame; (let room := rxFill (mac s.toMach k) + n ≤ 524288 * (macRate s.toMach k / 100); (let good := fcs (frame.take (n - 4)) = frame.drop (n - 4); (let fits := room ∧ pcs = false ∧ good ∧ 64 ≤ n ∧ n ≤ (mac s.toMach k).maxFrame ∧ accepts s.toMach k f.dst = true; (let drains := (mac s.toMach k).rxq = [] ∧ portHeld s.toMach (13 + k) = false; fits ∧ drains ∧ f.etype = 0x0800 ∧ ((ip4Of f.body).any fun ip => decide (ip.proto = 17 ∧ udpOk ip = false)) = true))))))) ∧
  (∃ (s : State) (k : Nat) (frame : List Byte) (pcs : Bool) (x : PtpMeas), k < 64 ∧ macExists s.toMach k = true ∧ (mac s.toMach k).link = true ∧ s.pwr.st < 2 ∧ matched s.toMach k frame = [] ∧ (let n := frame.length; (let f := frameOf frame; (let room := rxFill (mac s.toMach k) + n ≤ 524288 * (macRate s.toMach k / 100); (let good := fcs (frame.take (n - 4)) = frame.drop (n - 4); (let fits := room ∧ pcs = false ∧ good ∧ 64 ≤ n ∧ n ≤ (mac s.toMach k).maxFrame ∧ accepts s.toMach k f.dst = true; (let drains := (mac s.toMach k).rxq = [] ∧ portHeld s.toMach (13 + k) = false; fits ∧ drains ∧ f.etype = 0x0800 ∧ ((ip4Of f.body).any fun ip => decide (ip.proto = 17 ∧ udpOk ip = true ∧ beNat (sub ip.data 2 2) ∉ [319, 320] ∧ (let r := rtpOf (udpBody ip); (let hits := (matching s.toMach k f.tci ip (beNat (sub ip.data 2 2)) r).filter fun c => decide (2 ≤ (ctx s.toMach c).st); hits = [])))) = true))))))) ∧
  (∃ (s : State) (k : Nat) (frame : List Byte) (pcs : Bool) (x : PtpMeas), k < 64 ∧ macExists s.toMach k = true ∧ (mac s.toMach k).link = true ∧ s.pwr.st < 2 ∧ matched s.toMach k frame = [] ∧ (let n := frame.length; (let f := frameOf frame; (let room := rxFill (mac s.toMach k) + n ≤ 524288 * (macRate s.toMach k / 100); (let good := fcs (frame.take (n - 4)) = frame.drop (n - 4); (let fits := room ∧ pcs = false ∧ good ∧ 64 ≤ n ∧ n ≤ (mac s.toMach k).maxFrame ∧ accepts s.toMach k f.dst = true; (let drains := (mac s.toMach k).rxq = [] ∧ portHeld s.toMach (13 + k) = false; fits ∧ drains ∧ f.etype = 0x0800 ∧ ((ip4Of f.body).any fun ip => decide (ip.proto = 17 ∧ udpOk ip = true ∧ beNat (sub ip.data 2 2) ∉ [319, 320] ∧ (let r := rtpOf (udpBody ip); (let hits := (matching s.toMach k f.tci ip (beNat (sub ip.data 2 2)) r).filter fun c => decide (2 ≤ (ctx s.toMach c).st); ((hits.head?).any fun c => decide (12 ≤ (udpBody ip).length ∧ rtpOk (ctx s.toMach c).d r = true ∧ pairOf s.toMach c = [c] ∧ (ctx s.toMach c).d.partner = 0xFFFF ∧ (ctx s.toMach c).kept = [] ∧ (ctx s.toMach c).pathLost = false)) = true)))) = true))))))) :=
  ⟨⟨(ful_w24 524288), 0, [1, 2, 3], false, {}, by decide +kernel, by decide +kernel, by decide +kernel, by decide +kernel,
     by decide +kernel, by dsimp only; rw [full_fill]; decide +kernel⟩,
   ⟨sv_w10, 0, fv_w10, true, {}, by (dsimp only; decide +kernel)⟩,
   ⟨sv_w10, 0, (fv_w10.drop 1), false, {}, by (dsimp only; decide +kernel)⟩,
   ⟨sv_w10, 0, (withFcs_w10 [1,2,3]), false, {}, by (dsimp only; decide +kernel)⟩,
   ⟨{sv_w10 with eth := {sv_w10.eth with macs := [(0, {link := true, addr := mA_w10, maxFrame := 70})]}}, 0, fv_w10, false, {},
     by (dsimp only; decide +kernel)⟩,
   ⟨sv_w10, 0, (withFcs_w10 (ethFrame 5 6 none 0x0800 (List.replicate 60 1))), false, {}, by (dsimp only; decide +kernel)⟩,
   ⟨sv_w10, 0, (frm_w10 0x8808 (List.replicate 60 1)), false, {}, by (dsimp only; decide +kernel)⟩,
   ⟨spm_w24, 0, fv_w10, false, {}, by (dsimp only; decide +kernel)⟩,
   ⟨sv_w10, 0, (frm_w10 0x8809 (List.replicate 60 1)), false, {}, by (dsimp only; decide +kernel)⟩,
   ⟨sv_w10, 0, (frm_w10 0x0800 (List.replicate 60 1)), false, {}, by (dsimp only; decide +kernel)⟩,
   ⟨sv_w10, 0, ((let b := (pq_w24 5004).set 27 7; frm_w10 0x0800 b)), false, {}, by (dsimp only; decide +kernel)⟩,
   ⟨sv_w10, 0, (frm_w10 0x0800 (pq_w24 5006)), false, {}, by (dsimp only; decide +kernel)⟩,
   ⟨sv_w10, 0, fv_w10, false, {}, by (dsimp only; decide +kernel)⟩⟩

theorem witness_MacsProceed :
  (∃ (s : State) (k : Nat) (up a lf rf : Bool), k < 64 ∧ macExists s.toMach k = true ∧
    (let x := mac s.toMach k; (let faultAt := if x.lfault || x.rfault || lf || rf then s.now else x.faultAt;
                                  (let m := setMac s.toMach k fun x => { x with align := a, lfault := lf, rfault := rf, faultAt };
                                      x.link = (up && linkReady m k))))) ∧
  (∃ (s : State) (k : Nat) (up a lf rf : Bool), k < 64 ∧ macExists s.toMach k = true ∧
    (let x := mac s.toMach k; (let faultAt := if x.lfault || x.rfault || lf || rf then s.now else x.faultAt;
                                  (let m := setMac s.toMach k fun x => { x with align := a, lfault := lf, rfault := rf, faultAt };
                                      x.link = true ∧ (up && linkReady m k) = false ∧ ctxOnMac s.toMach (· == k) = none)))) ∧
  (∃ (s : State) (k : Nat) (up a lf rf : Bool), k < 64 ∧ macExists s.toMach k = true ∧
    (let x := mac s.toMach k; (let faultAt := if x.lfault || x.rfault || lf || rf then s.now else x.faultAt;
                                  (let m := setMac s.toMach k fun x => { x with align := a, lfault := lf, rfault := rf, faultAt };
                                      x.link = true ∧ (up && linkReady m k) = false ∧ (ctxOnMac s.toMach (· == k)).isSome = true ∧
                                      tableRoom s.toMach = true)))) ∧
  (∃ (s : State) (k : Nat) (up a lf rf : Bool), k < 64 ∧ macExists s.toMach k = true ∧
    (let x := mac s.toMach k; (let faultAt := if x.lfault || x.rfault || lf || rf then s.now else x.faultAt;
                                  (let m := setMac s.toMach k fun x => { x with align := a, lfault := lf, rfault := rf, faultAt };
                                      x.link = false ∧ up = true ∧ linkReady m k = true ∧ standing s.toMach (0xBF0 + k) 0x30 =
                                      false)))) ∧
  (∃ (s : State) (k : Nat) (complete : Bool), k < 64 ∧ (mac s.toMach k).txq = []) ∧
  (∃ (s : State) (k : Nat) (complete : Bool), k < 64 ∧ (((mac s.toMach k).txq.head?).any fun p => decide (complete = false ∧ tableRoom
    s.toMach = true)) = true) ∧
  (∃ (s : State) (k : Nat) (complete : Bool), k < 64 ∧ (((mac s.toMach k).txq.head?).any fun p => decide ((let goes := macSends
                                                                                                              s.toMach k = true ∧
                                                                                                              (p.speak = true → speaks
                                                                                                              s.toMach = true);
                                                                                                              complete = true ∧ ¬
                                                                                                              goes))) = true) ∧
  (∃ (s : State) (k : Nat) (complete : Bool), k < 64 ∧ (((mac s.toMach k).txq.head?).any fun p => decide ((let goes := macSends
                                                                                                              s.toMach k = true ∧
                                                                                                              (p.speak = true → speaks
                                                                                                              s.toMach = true);
                                                                                                              complete = true ∧ goes)))
                                                                                                              = true) ∧
  (∃ (s : State) (k c : Nat), k < 64 ∧ unicastSenders s.toMach k = [c] ∧ (ctx s.toMach c).d.v6 = false ∧ (ctx s.toMach c).d.tagged =
    false ∧ hasIface s.toMach k false = true ∧ macSends s.toMach k = true ∧ speaks s.toMach = false) ∧
  (∃ (s : State) (k c : Nat), k < 64 ∧ unicastSenders s.toMach k = [c] ∧ (ctx s.toMach c).d.v6 = false ∧ (ctx s.toMach c).d.tagged =
    false ∧ hasIface s.toMach k false = true ∧ macSends s.toMach k = true ∧ speaks s.toMach = true) ∧
  (∃ (s : State) (k : Nat) (g : List Byte) (x : Member), k < 64 ∧ (s.flw.members.filter fun x => x.mac == k && x.addr == g &&
    !x.again.isEmpty) = [x]) ∧
  (∃ (s : State) (k : Nat) (x : Member), k < 64 ∧ (s.flw.members.filter fun x => x.mac == k && x.query.isSome) = [x] ∧ x.ctxs ≠ []) :=
  ⟨⟨rdy, 60, true, true, false, false, by (dsimp only; decide +kernel)⟩,
   ⟨up_w10, 0, true, true, false, false, by (dsimp only; decide +kernel)⟩,
   ⟨sv_w10, 0, false, true, false, false, by (dsimp only; decide +kernel)⟩,
   ⟨(let s : State := {up_w10 with now := 10*msT, ln := {rdy.ln with lanes := (List.range 4).map fun i => (144 + i, {fitted := true, ready := true, lock := true, phys := i})}};
        {s with eth := {s.eth with macs := [(0, {addr := mA_w10})]}}), 0, true, true, false, false, by (dsimp only; decide +kernel)⟩,
   ⟨sv_w10, 0, true, by decide +kernel⟩,
   ⟨tq_w10, 0, false, by decide +kernel⟩,
   ⟨{tq_w10 with eth := {tq_w10.eth with macs := tq_w10.eth.macs.map fun x => (x.1, {x.2 with addr := 0})}}, 0, true,
     by (dsimp only; decide +kernel)⟩,
   ⟨tq_w10, 0, true, by (dsimp only; decide +kernel)⟩,
   ⟨{sus_w10 with pr := {sus_w10.pr with withhold := true}}, 0, 16383, by decide +kernel⟩,
   ⟨sus_w10, 0, 16383, by decide +kernel⟩,
   ⟨smb_w10, 0, (pad16_w10 ip1_w10), mb_w10, by decide +kernel⟩,
   ⟨smb_w10, 0, mb_w10, by decide +kernel⟩⟩

theorem witness_FlowsProceed :
  (∃ (s : State) (c ts line : Nat), c < 16384 ∧ 2 ≤ (ctx s.toMach c).st ∧ (ctx s.toMach c).d.dir ≠ 1 ∧ (ctx s.toMach c).d.typ = 0 ∧
    namedBy s.toMach c = none ∧ line ≠ 1 ∧ s.dt.t < lineRelease s.toMach c ts line) ∧
  (∃ (s : State) (c ts line : Nat), c < 16384 ∧ 2 ≤ (ctx s.toMach c).st ∧ (ctx s.toMach c).d.dir ≠ 1 ∧ (ctx s.toMach c).d.typ = 0 ∧
    namedBy s.toMach c = none ∧ (ctx s.toMach c).d.auto = false ∧ line = 1) ∧
  (∃ (s : State) (c ts line : Nat), c < 16384 ∧ 2 ≤ (ctx s.toMach c).st ∧ (ctx s.toMach c).d.dir ≠ 1 ∧ (ctx s.toMach c).d.typ = 0 ∧
    namedBy s.toMach c = none ∧ line ≠ 1 ∧ lineRelease s.toMach c ts line ≤ s.dt.t ∧ (ctx s.toMach c).st = 3 ∧ (ctx s.toMach c).port <
    1152 ∧ (s.flw.ctxs.all fun x => x.2.d.typ != 3) = true) ∧
  (∃ (s : State) (c ts line : Nat), c < 16384 ∧ 2 ≤ (ctx s.toMach c).st ∧ (ctx s.toMach c).d.dir ≠ 1 ∧ (ctx s.toMach c).d.typ = 0 ∧
    namedBy s.toMach c = none ∧ (ctx s.toMach c).d.auto = true ∧ (ctx s.toMach c).based = false ∧ line = 1 ∧ (ctx s.toMach c).st = 2) ∧
  (∃ (s : State) (c ts : Nat), c < 16384 ∧ (ctx s.toMach c).nextTs = some ts ∧ 2 ≤ (ctx s.toMach c).st ∧ (ctx s.toMach c).d.audio =
    true ∧ (ctx s.toMach c).d.dir ≠ 1 ∧ (let x := ctx s.toMach c;
                                            (let due : Int := (mediaAt x.d.clock ts s.dt.t + x.offset * nsU : Nat) + x.slip * (secU /
                                                x.d.rate : Nat); (s.dt.t : Int) < due))) ∧
  (∃ (s : State) (c ts : Nat), c < 16384 ∧ (ctx s.toMach c).nextTs = some ts ∧ 2 ≤ (ctx s.toMach c).st ∧ (ctx s.toMach c).d.audio =
    true ∧ (ctx s.toMach c).d.dir ≠ 1 ∧ (let x := ctx s.toMach c;
                                            (let due : Int := (mediaAt x.d.clock ts s.dt.t + x.offset * nsU : Nat) + x.slip * (secU /
                                                x.d.rate : Nat);
                                                (let n := nextIndex s.toMach (3000 + c) due.toNat; due ≤ s.dt.t ∧ atBlock s.toMach
                                                    (3000 + c) n = false ∧ ((sampleAt s.toMach c ts).any fun xs => decide (True)) =
                                                    true)))) ∧
  (∃ (s : State) (c ts : Nat), c < 16384 ∧ (ctx s.toMach c).nextTs = some ts ∧ 2 ≤ (ctx s.toMach c).st ∧ (ctx s.toMach c).d.audio =
    true ∧ (ctx s.toMach c).d.dir ≠ 1 ∧ (let x := ctx s.toMach c;
                                            (let due : Int := (mediaAt x.d.clock ts s.dt.t + x.offset * nsU : Nat) + x.slip * (secU /
                                                x.d.rate : Nat);
                                                (let n := nextIndex s.toMach (3000 + c) due.toNat; due ≤ s.dt.t ∧ atBlock s.toMach
                                                    (3000 + c) n = false ∧ sampleAt s.toMach c ts = none ∧ (group s.toMach (3000 +
                                                    c)).next = none)))) ∧
  (∃ (s : State) (c : Nat), c < 16384 ∧ (ctx s.toMach c).d.audio = true ∧
    (let x := ctx s.toMach c; x.lateN = 0)) ∧
  (∃ (s : State) (c : Nat), c < 16384 ∧ (ctx s.toMach c).d.audio = true ∧
    (let x := ctx s.toMach c; x.lateN ≠ 0)) ∧
  (∃ (s : State) (c : Nat), c < 16384 ∧ 2 ≤ (ctx s.toMach c).st ∧ (ctx s.toMach c).d.dir = 0 ∧ 1 < (pairOf s.toMach c).length ∧ (ctx
    s.toMach c).pathLost = false ∧ s.dt.t ≤ (ctx s.toMach c).lastPkt + secU / 10) ∧
  (∃ (s : State) (c : Nat), c < 16384 ∧ 2 ≤ (ctx s.toMach c).st ∧ (ctx s.toMach c).d.dir = 0 ∧ 1 < (pairOf s.toMach c).length ∧ (ctx
    s.toMach c).pathLost = false ∧ (ctx s.toMach c).lastPkt + secU / 10 < s.dt.t ∧ tableRoom s.toMach = true) ∧
  (∃ (s : State) (p b : Nat) (w : SwapTo), p < 1152 ∧ (ingress s.toMach p).swap = some w ∧ w.ctx = some b ∧ (ctx s.toMach b).d.auto =
    false ∧ (let x := plane s.toMach w.plane; (let due := w.target < x.nextSw ∨ switchInstant x w.target s.dt.t ≤ (s.dt.t + (5352 +
                                                  1000 * classW (fmtClass ((ctx s.toMach b).d.rxFmt s.toMach))) * nsU : Nat); ¬ due))) ∧
  (∃ (s : State) (p b : Nat) (w : SwapTo), p < 1152 ∧ (ingress s.toMach p).swap = some w ∧ w.ctx = some b ∧ (ctx s.toMach b).d.auto =
    false ∧ (let x := plane s.toMach w.plane; (let due := w.target < x.nextSw ∨ switchInstant x w.target s.dt.t ≤ (s.dt.t + (5352 +
                                                  1000 * classW (fmtClass ((ctx s.toMach b).d.rxFmt s.toMach))) * nsU : Nat); due ∧
                                                  ready s.toMach b = true ∧ (ingress s.toMach p).cur = none))) ∧
  (∃ (s : State) (p b : Nat) (w : SwapTo), p < 1152 ∧ (ingress s.toMach p).swap = some w ∧ w.ctx = some b ∧ (ctx s.toMach b).d.auto =
    false ∧ (let x := plane s.toMach w.plane; (let due := w.target < x.nextSw ∨ switchInstant x w.target s.dt.t ≤ (s.dt.t + (5352 +
                                                  1000 * classW (fmtClass ((ctx s.toMach b).d.rxFmt s.toMach))) * nsU : Nat); due ∧
                                                  ready s.toMach b = false ∧ s.now ≤ w.tick + (ctx s.toMach b).d.joinWait * msT ∧
                                                  w.late = false ∧ tableRoom s.toMach = true))) ∧
  (∃ (s : State) (p : Nat) (w : SwapTo), p < 1152 ∧ (ingress s.toMach p).swap = some w ∧ w.ctx = none ∧ w.target < (plane s.toMach
    w.plane).nextSw ∧ (ingress s.toMach p).cur = none ∧ (srcOf s.toMach (1152 + p)).present = false) :=
  ⟨⟨(slr_w10 id (0)), 16383, 0, 45, by decide +kernel⟩,
   ⟨(slr_w10 (fun c => {c with st := 2, d := { dv_w10 with flags := 0}}) (0)), 16383, 0, 1, by decide +kernel⟩,
   ⟨(slr_w10 id (secU)), 16383, 0, 45, by decide +kernel⟩,
   ⟨(slr_w10 (fun c => {c with st := 2, based := false, d := { dv_w10 with flags := 32}}) (0)), 16383, 0, 1, by decide +kernel⟩,
   ⟨(sau_w10 0 []), 16383, 1, by (dsimp only; decide +kernel)⟩,
   ⟨(sau_w10 (secU/48) [{pk_w10 with data := (List.range 288).map fun i => BitVec.ofNat 8 i}]), 16383, 1,
     by (dsimp only; decide +kernel)⟩,
   ⟨(sau_w10 (secU/10) []), 16383, 1, by (dsimp only; decide +kernel)⟩,
   ⟨(sau_w10 0 []), 16383, by (dsimp only; decide +kernel)⟩,
   ⟨(sl_w10 0 []), 16383, by (dsimp only; decide +kernel)⟩,
   ⟨(spl_w10 5), 16383, by decide +kernel⟩,
   ⟨(spl_w10 (secU/10 + 1)), 16383, by decide +kernel⟩,
   ⟨(ssw_w10 0 [] {w_w10 with target := 10^9}), 1151, 16383, {w_w10 with target := 10^9}, by (dsimp only; decide +kernel)⟩,
   ⟨(ssx_w24 (10*secU) kp_w10 w_w10), 1151, 16383, w_w10, by (dsimp only; decide +kernel)⟩,
   ⟨(ssx_w24 (10*secU) [] w_w10), 1151, 16383, w_w10, by (dsimp only; decide +kernel)⟩,
   ⟨{ssw_w10 (10*secU) [] {w_w10 with ctx := none, target := 5} with xb := {rdy.xb with planes := rdy.xb.planes.map fun (x : Plane) => {x with nextSw := 9}}},
     1151, {w_w10 with ctx := none, target := 5}, by decide +kernel⟩⟩

theorem witness_CompositorsProceed :
  (∃ (s : State) (k : Nat) (late : List Nat), k < 32 ∧ (cmpr s.toMach k).shed = false ∧ (cmpr s.toMach k).lat.layout.regions = [] ∧
    (let l := (latchLayout s.toMach (cmpr s.toMach k)).1; (cmpr s.toMach k).lat.count = (plane s.toMach l.plane).nextSw ∧ (cmpr
        s.toMach k).lat.layout.plane = l.plane ∧ (late.all (· < 4320)) = true)) ∧
  (∃ (s : State) (k y : Nat), k < 32 ∧ (cmpr s.toMach k).shed = false ∧ (cmpr s.toMach k).lat.layout.regions = [] ∧
    (let l := (latchLayout s.toMach (cmpr s.toMach k)).1; ¬ ((cmpr s.toMach k).lat.count = (plane s.toMach l.plane).nextSw ∧ (cmpr
        s.toMach k).lat.layout.plane = l.plane) ∧ y < 4320 ∧ tableRoom s.toMach = true)) ∧
  (∃ (s : State) (k : Nat) (late : List Nat), k < 32 ∧ (cmpr s.toMach k).shed = true ∧
    (let p := (latchLayout s.toMach (cmpr s.toMach k)).1.plane; (cmpr s.toMach k).lat.count ≠ (plane s.toMach p).nextSw ∧ (late.all (·
        < 4320)) = true)) ∧
  (∃ (s : State), (caseHot s.toMach = false ∨ s.now < s.cmp.stepAt)) ∧
  (∃ (s : State) (k : Nat), k < 32 ∧ caseHot s.toMach = true ∧ s.cmp.stepAt ≤ s.now ∧ (cmpr s.toMach k).shed = false ∧ (∀ j < 32, k < j
    → (cmpr s.toMach j).shed = true) ∧ tableRoom s.toMach = true) ∧
  (∃ (s : State), (caseCool s.toMach = false ∨ s.now < s.cmp.stepAt)) ∧
  (∃ (s : State) (k : Nat), k < 32 ∧ caseCool s.toMach = true ∧ s.cmp.stepAt ≤ s.now ∧ (cmpr s.toMach k).shed = true ∧ (∀ j < k, (cmpr
    s.toMach j).shed = false)) ∧
  (∃ (s : State), (allShed s.toMach = false ∨ s.flt.caseTemp ≤ 105 * 128 ∨ 16 ≤ s.aud.shedClusters ∨ s.now < s.cmp.stepAt)) ∧
  (∃ (s : State), allShed s.toMach = true ∧ 105 * 128 < s.flt.caseTemp ∧ s.aud.shedClusters < 16 ∧ s.cmp.stepAt ≤ s.now ∧ tableRoom
    s.toMach = true) :=
  ⟨⟨(sc_w11 {lat := {count := (plane rdy.toMach 0).nextSw}}), 31, [3], by (dsimp only; decide +kernel)⟩,
   ⟨(sc_w11 c1_w11), 31, 4319, by (dsimp only; decide +kernel)⟩,
   ⟨(sc_w11 {c1_w11 with shed := true}), 31, [3], by (dsimp only; decide +kernel)⟩,
   ⟨(hot_w11 (105 * 128) rdy), by decide +kernel⟩,
   ⟨(hot_w11 (105 * 128 + 1) rdy), 31, by decide +kernel⟩,
   ⟨(sc_w11 {shed := true}), by decide +kernel⟩,
   ⟨(cool_w11 (sc_w11 {shed := true} 0)), 0, by decide +kernel⟩,
   ⟨(let s := hot_w11 (105 * 128 + 1) allsh_w11; {s with aud := {s.aud with shedClusters := 16}}), by decide +kernel⟩,
   ⟨(hot_w11 (105 * 128 + 1) allsh_w11), by decide +kernel⟩⟩

theorem witness_AudioProceeds :
  (∃ (s : State) (g : Nat), g < 2304 ∧ (srcOf s.toMach g).audioQ = []) ∧
  (∃ (s : State) (g stamp : Nat) (xs : List Int) (cells : List Nat) (rest : List (Nat × List Int × List Nat)), g < 2304 ∧ (srcOf
    s.toMach g).audioQ = (stamp, xs, cells) :: rest ∧ xs = []) ∧
  (∃ (s : State) (g stamp : Nat) (xs : List Int) (cells : List Nat) (rest : List (Nat × List Int × List Nat)), g < 2304 ∧ (srcOf s.toMach g).audioQ = (stamp, xs, cells) :: rest ∧ xs ≠ [] ∧ (group s.toMach g).convert = false ∧ (group s.toMach g).mismatch = false ∧ (group s.toMach g).stamps = [] ∧ (group s.toMach g).next = none ∧ (group s.toMach g).gap ≠ 0 ∧ (let n := indexNear s.toMach stamp; tooLate s.toMach g n = false)) ∧
  (∃ (s : State) (g stamp : Nat) (xs : List Int) (cells : List Nat) (rest : List (Nat × List Int × List Nat)), g < 2304 ∧ (srcOf s.toMach g).audioQ = (stamp, xs, cells) :: rest ∧ xs ≠ [] ∧ (group s.toMach g).convert = false ∧ (group s.toMach g).mismatch = false ∧ (group s.toMach g).stamps = [] ∧ (group s.toMach g).next = none ∧ (group s.toMach g).gap ≠ 0 ∧ (let n := indexNear s.toMach stamp; tooLate s.toMach g n = true)) ∧
  (∃ (s : State) (p stamp : Nat) (ys : List Int) (rest : List (Nat × List Int)), p < 32 ∧ (apt s.toMach p).inBuf = (stamp, ys) :: rest
    ∧ s.dt.t < stamp) ∧
  (∃ (s : State) (p stamp : Nat) (ys : List Int) (rest : List (Nat × List Int)), p < 32 ∧ (apt s.toMach p).inBuf = (stamp, ys) :: rest
    ∧ stamp ≤ s.dt.t ∧ (apt s.toMach p).st = 3 ∧ (group s.toMach (2400 + p)).next = none ∧
    (let n := indexNear s.toMach stamp; tooLate s.toMach (2400 + p) n = false)) ∧
  (∃ (s : State), s.apt.ports = [] ∧ s.aud.groups = [] ∧ s.aud.blockChg = []) ∧
  (∃ (s : State) (g n : Nat) (a : AGroup), s.apt.ports = [] ∧ s.aud.groups = [(g, a)] ∧ g < 2400 ∧ s.aud.blockChg = [] ∧ a.next = some
    n ∧ (let stop := blockAt s.dt.t * blockLen s.toMach; n ≤ stop ∧ stop ≤ n + blockLen s.toMach)) ∧
  (∃ (s : State) (ch n : Nat), ch < 65536 ∧ s.aud.timed = [] ∧ tget? ch s.aud.fades = none) ∧
  (∃ (s : State) (x : Nat), x < 16 ∧ (s.ctl.journal.all fun e => !e.waiting) = true ∧ (s.aud.loads.any fun l => l.cluster == x &&
    decide (131072 ≤ l.copied)) = false) ∧
  (∃ (s : State) (x : Nat), x < 16 ∧ (s.ctl.journal.all fun e => !e.waiting) = true ∧ (s.aud.loads.any fun l => l.cluster == x &&
    decide (131072 ≤ l.copied)) = true) :=
  ⟨⟨(aq_w25 {} []), 2303, by decide +kernel⟩,
   ⟨(aq_w25 {} [(secU, [], [])]), 2303, secU, [], [], [], by decide +kernel⟩,
   ⟨(aq_w25 {gap := 9} [(secU, [4, -5], [])]), 2303, secU, [4, -5], [], [], by (dsimp only; decide +kernel)⟩,
   ⟨(aq_w25 {gap := 9} [(5, [4, -5], [])]), 2303, 5, [4, -5], [], [], by (dsimp only; decide +kernel)⟩,
   ⟨(ap_w11 {inBuf := [(secU + 1, [4])]}), 31, (secU + 1), [4], [], by decide +kernel⟩,
   ⟨(ap_w11 {st := 3, inBuf := [(secU, [4])]}), 31, secU, [4], [], by (dsimp only; decide +kernel)⟩,
   ⟨{rdy with dt := {rdy.dt with t := secU}}, by decide +kernel⟩,
   ⟨(gs_w11 (48000 - 16)), 2303, (48000 - 16), (ag_w11 (48000 - 16)), by (dsimp only; decide +kernel)⟩,
   ⟨stp_w25, 0, 77, by decide +kernel⟩,
   ⟨rdy, 15, by decide +kernel⟩,
   ⟨(ld_w11 131072), 15, by decide +kernel⟩⟩

theorem witness_AudioPortsProceed :
  (∃ (s : State) (n bclks : Nat) (slots : List Nat), n < 32 ∧
    (let x := apt s.toMach n; x.cfg.enable = false)) ∧
  (∃ (s : State) (n bclks : Nat) (slots : List Nat), n < 32 ∧
    (let x := apt s.toMach n; x.cfg.enable = true ∧ x.hasEdge = false)) ∧
  (∃ (s : State) (n bclks : Nat) (slots : List Nat), n < 32 ∧
    (let x := apt s.toMach n; (let valid := bclks = x.cfg.s * x.cfg.w; x.cfg.enable = true ∧ x.hasEdge = true ∧ ¬ valid ∧ x.glitches +
                                  1 ≠ 16 ∧ tableRoom s.toMach = true))) ∧
  (∃ (s : State) (n bclks : Nat) (slots : List Nat), n < 32 ∧
    (let x := apt s.toMach n; (let valid := bclks = x.cfg.s * x.cfg.w; x.cfg.enable = true ∧ x.hasEdge = true ∧ ¬ valid ∧ x.glitches =
                                  15 ∧ s.flt.recs.length < 2047))) ∧
  (∃ (s : State) (n bclks : Nat) (slots : List Nat), n < 32 ∧
    (let x := apt s.toMach n; (let valid := bclks = x.cfg.s * x.cfg.w; x.cfg.enable = true ∧ x.hasEdge = true ∧ valid ∧ x.st = 1))) ∧
  (∃ (s : State) (n lost : Nat), n < 32 ∧ (apt s.toMach n).cfg.enable = true ∧ (apt s.toMach n).hasEdge = true ∧ lossTime (apt s.toMach
    n) = some lost ∧ s.dt.t ≤ (apt s.toMach n).lastEdge + lost) ∧
  (∃ (s : State) (n lost : Nat), n < 32 ∧ (apt s.toMach n).cfg.enable = true ∧ (apt s.toMach n).hasEdge = true ∧ lossTime (apt s.toMach
    n) = some lost ∧ (apt s.toMach n).lastEdge + lost < s.dt.t ∧ tableRoom s.toMach = true) :=
  ⟨⟨(ap_w11 {}), 31, 64, [1,2], by (dsimp only; decide +kernel)⟩,
   ⟨(ap_w11 {cfg := cfgA_w11, st := 1}), 31, 64, [1,2], by (dsimp only; decide +kernel)⟩,
   ⟨(ap_w11 {cfg := cfgA_w11, st := 3, hasEdge := true}), 31, 63, [1,2], by (dsimp only; decide +kernel)⟩,
   ⟨(ap_w11 {cfg := cfgA_w11, st := 3, hasEdge := true, glitches := 15}), 31, 63, [1,2], by (dsimp only; decide +kernel)⟩,
   ⟨(ap_w11 {cfg := cfgA_w11, st := 1, hasEdge := true}), 31, 64, [1,2], by (dsimp only; decide +kernel)⟩,
   ⟨(ap_w11 {cfg := cfgA_w11, st := 3, hasEdge := true, fine := 48000000, lastEdge := secU - lt_w11}), 31, lt_w11, by decide +kernel⟩,
   ⟨(ap_w11 {cfg := cfgA_w11, st := 3, hasEdge := true, fine := 48000000, lastEdge := secU - lt_w11 - 1}), 31, lt_w11,
     by decide +kernel⟩⟩

theorem witness_ReferencesProceed :
  (∃ (s : State) (c at_ : Nat) (phase : Int), c < 4 ∧ (cand s.toMach c).cfg.kind ≠ 0) ∧
  (∃ (s : State) (c at_ : Nat) (phase : Int), c < 4 ∧ (cand s.toMach c).cfg.kind = 0) ∧
  (∃ (s : State) (c at_ : Nat) (phase : Int) (lane id : Nat) (r : RefRec), 4 ≤ c ∧ c < 12 ∧ tget? (c - 4) s.tmg.lrefs = some (lane, id)
    ∧ (let mine (x : RefRec) : Bool := x.lane == lane && x.refid == id; s.wl.refQ.find? mine = some r ∧ r.present = true ∧ linkLive
          s.toMach c = true)) ∧
  (∃ (s : State) (c : Nat) (bs : List Byte) (gap : Bool), c < 4 ∧
    (let ok := gap = false ∧ bs.length = 4 ∧ fld bs 0 1 = 0x51 ∧ crc8 (bs.take 3) = fld bs 3 1; ok)) ∧
  (∃ (s : State) (c : Nat) (bs : List Byte) (gap : Bool), c < 4 ∧
    (let ok := gap = false ∧ bs.length = 4 ∧ fld bs 0 1 = 0x51 ∧ crc8 (bs.take 3) = fld bs 3 1; ¬ ok)) ∧
  (∃ (s : State) (c : Nat), c < 4 ∧ s.now ≤ (cand s.toMach c).lastQl + 2500000000) ∧
  (∃ (s : State) (c : Nat), c < 4 ∧ (cand s.toMach c).lastQl + 2500000000 < s.now) ∧
  (∃ (s : State) (c : Nat) (events : List (Nat × Int)), c < 14 ∧
    (let x := cand s.toMach c; x.present = false)) ∧
  (∃ (s : State) (c : Nat) (events : List (Nat × Int)), c < 14 ∧
    (let x := cand s.toMach c; x.present = true)) ∧
  (∃ (s : State) (c n d : Nat), c < 14 ∧ s.tmg.dpll.sel ≠ c ∧ candPeriod s.toMach c = some (n, d) ∧
    (let x := cand s.toMach c; x.present = true ∧ x.cfg.lossn * n < (s.now - x.lastEvent) * 2 * d)) ∧
  (∃ (s : State) (c n d : Nat), c < 14 ∧ s.tmg.dpll.sel ≠ c ∧ candPeriod s.toMach c = some (n, d) ∧
    (let x := cand s.toMach c; canHaveEvents s.toMach c = true ∧ (s.now - x.lastEvent) * 2 * d ≤ x.cfg.lossn * n)) :=
  ⟨⟨(ca_w12 3 {cfg := {kind := 1, delay := -5}} {}), 3, 77777777777, (-4), by decide +kernel⟩,
   ⟨(ca_w12 0 {cfg := {kind := 0, delay := -5}} {}), 0, 77777777777, (-4), by decide +kernel⟩,
   ⟨lr_w25, 11, 5, (-4), 143, 15, rr_w25, by (dsimp only; decide +kernel)⟩,
   ⟨(ca_w12 3 {} {}), 3, ([0x51#8, 0x30#8, 1#8, BitVec.ofNat 8 (crc8 [0x51#8, 0x30#8, 1#8])]), false, by (dsimp only; decide +kernel)⟩,
   ⟨(ca_w12 3 {} {}), 3, ([0x51#8, 0x30#8, 1#8, BitVec.ofNat 8 (crc8 [0x51#8, 0x30#8, 1#8])]), true, by (dsimp only; decide +kernel)⟩,
   ⟨(ca_w12 3 {lastQl := 2500000000} {}), 3, by decide +kernel⟩,
   ⟨(ca_w12 3 {lastQl := 2499999999} {}), 3, by decide +kernel⟩,
   ⟨(ca_w12 3 {} {}), 3, [], by (dsimp only; decide +kernel)⟩,
   ⟨(ca_w12 3 {present := true, cfg := {kind := 1, soft := 1, hard := 2, slope := 3}} {sel := 3}), 3, [(4000000000, 0), (5000000000,
     5000000)], by (dsimp only; decide +kernel)⟩,
   ⟨(ca_w12 3 {present := true, cfg := {kind := 1, lossn := 3}, lastEvent := 3500000000 - 1} {}), 3, 1000000000, 1,
     by (dsimp only; decide +kernel)⟩,
   ⟨(ca_w12 3 {present := true, cfg := {kind := 1, lossn := 3}, lastEvent := 3500000000} {}), 3, 1000000000, 1,
     by (dsimp only; decide +kernel)⟩⟩

theorem witness_SelectorProceeds :
  (∃ (s : State), s.tmg.dpll.queued = []) ∧
  (∃ (s : State) (mode forced flags holdql freeql : Nat) (bs : List Byte),
    (let q := [(Cmd.tmgSelCfg mode forced flags holdql freeql, bs)]; s.tmg.dpll.queued = q)) ∧
  (∃ (s : State), (let d := s.tmg.dpll; (d.st ≠ 3 ∨ s.now < d.transEnd))) ∧
  (∃ (s : State), (let d := s.tmg.dpll; d.st = 3 ∧ d.transEnd ≤ s.now ∧ d.mode ≠ 3 ∧ choice s.toMach = some d.sel ∧ d.queued = [])) ∧
  (∃ (s : State) (err : Int), (let d := s.tmg.dpll; (d.st = 0 ∨ d.st = 4))) ∧
  (∃ (s : State) (err : Int), (let d := s.tmg.dpll;
                                  (let inside := err.natAbs ≤ d.lp.w * 1000; d.st = 2 ∧ d.lock = true ∧ inside ∧ 1 ≤ d.lp.n))) ∧
  (∃ (s : State) (err : Int), (let d := s.tmg.dpll;
                                  (let inside := err.natAbs ≤ d.lp.w * 1000; d.st = 1 ∧ d.lock = false ∧ inside ∧ d.lp.n ≤ d.okRun +
                                      1))) ∧
  (∃ (s : State) (err : Int), (let d := s.tmg.dpll; d.st = 2 ∧ d.lock = true ∧ 10 * d.lp.w * 1000 < err.natAbs ∧ d.lockAt / msT ≠ s.now
                                  / msT ∧ tableRoom s.toMach = true)) :=
  ⟨⟨(ca_w12 3 (q4_w12) {}), by decide +kernel⟩,
   ⟨(ca_w12 3 (q4_w12) {queued := qq_w12, sel := 3, st := 2}), 1, 3, 1, 10, 12, [], by (dsimp only; decide +kernel)⟩,
   ⟨(ca_w12 3 (q4_w12) {sel := 3, st := 3, transEnd := 5000000001, lock := true, phi0 := 5, transU := 9}),
     by (dsimp only; decide +kernel)⟩,
   ⟨(ca_w12 3 (q4_w12) {sel := 3, st := 3, transEnd := 5000000000, lock := true, phi0 := 5, transU := 9}),
     by (dsimp only; decide +kernel)⟩,
   ⟨(ca_w12 3 (q4_w12) {}), 4, by (dsimp only; decide +kernel)⟩,
   ⟨(ca_w12 3 (q4_w12) {sel := 3, st := 2, lock := true, lp := {w := 5}}), (-5000), by (dsimp only; decide +kernel)⟩,
   ⟨(ca_w12 3 (q4_w12) {sel := 3, st := 1, okRun := 1000, lp := {w := 5}}), 5000, by (dsimp only; decide +kernel)⟩,
   ⟨(ca_w12 3 (q4_w12) {sel := 3, st := 2, lock := true, lp := {w := 5}}), (-50001), by (dsimp only; decide +kernel)⟩⟩

theorem witness_ApllsAndDeviceTimeProceed :
  (∃ (s : State) (a : Nat), a ≤ 7 ∧ (let x := apll s.toMach a; (s.pwr.st = 2 ∨ x.lock = true))) ∧
  (∃ (s : State) (a : Nat), a ≤ 7 ∧ (let x := apll s.toMach a; s.pwr.st ≠ 2 ∧ x.lock = false)) ∧
  (∃ (s : State) (a : Nat), a ≤ 7 ∧ (let x := apll s.toMach a; x.bypass = true)) ∧
  (∃ (s : State) (a : Nat), a ≤ 7 ∧ (let x := apll s.toMach a; x.bypass = false ∧ tableRoom s.toMach = true)) ∧
  (∃ (s : State) (a : Nat), a ≤ 7 ∧ (let x := apll s.toMach a; x.lock = true ∧ x.lockAt + 100 * msT ≤ s.now)) ∧
  (∃ (s : State) (a : Nat), a ≤ 7 ∧ (let x := apll s.toMach a; (x.lock = false ∨ s.now < x.lockAt + 100 * msT))) ∧
  (∃ (s : State) (k : Nat), k ≤ 11 ∧ (let o := clkOut s.toMach k;
                                         (let due := o.paired = true ∧ o.grant = true ∧ o.src ≠ 0 ∧ o.grantAt + 5000 ≤ s.now ∧ s.pwr.st
                                             ≠ 2; due))) ∧
  (∃ (s : State) (k : Nat), k ≤ 11 ∧ (let o := clkOut s.toMach k;
                                         (let due := o.paired = true ∧ o.grant = true ∧ o.src ≠ 0 ∧ o.grantAt + 5000 ≤ s.now ∧ s.pwr.st
                                             ≠ 2; ¬ due))) ∧
  (∃ (s : State), (s.dt.reqs.find? fun r => decide (r.at_ ≤ s.dt.t)) = none) ∧
  (∃ (s : State) (r : StepReq), (s.dt.reqs.find? fun r => decide (r.at_ ≤ s.dt.t)) = some r ∧ r.ses = none ∧ (∀ u < 8, (tget {}
    s.dt.units u).on = false) ∧ tableRoom s.toMach = true) :=
  ⟨⟨(sap_w12 {lock := true, bypass := false, lockAt := 0}), 7, by (dsimp only; decide +kernel)⟩,
   ⟨(sap_w12 {}), 7, by (dsimp only; decide +kernel)⟩,
   ⟨(sap_w12 {}), 7, by (dsimp only; decide +kernel)⟩,
   ⟨(sap_w12 {lock := true, bypass := false, lockAt := 0}), 7, by (dsimp only; decide +kernel)⟩,
   ⟨(sap_w12 {lock := true, bypass := false, lockAt := 0}), 7, by (dsimp only; decide +kernel)⟩,
   ⟨(sap_w12 {}), 7, by (dsimp only; decide +kernel)⟩,
   ⟨(let s := sap_w12 {}; {s with tmg := {s.tmg with outs := [(11, {paired := true, grant := true, src := 1, grantAt := 50000000 - 5000})]}}),
        11, by (dsimp only; decide +kernel)⟩,
   ⟨(let s := sap_w12 {}; {s with tmg := {s.tmg with outs := [(11, {paired := true, grant := true, src := 1, grantAt := 50000000 - 4999})]}}),
        11, by (dsimp only; decide +kernel)⟩,
   ⟨rdy, by decide +kernel⟩,
   ⟨(srq_w13 0 (-6)), (rq_w13 0 (-6)), by decide +kernel⟩⟩

theorem witness_PtpProceeds :
  (∃ (s : State) (p kind k : Nat) (x : PtpMeas), p < 16 ∧ (pport s.toMach p).mac = some k ∧ (speaks s.toMach = false ∨ macSends
    s.toMach k = false)) ∧
  (∃ (s : State) (p kind k : Nat) (x : PtpMeas), p < 16 ∧ (pport s.toMach p).mac = some k ∧ kind = 1 ∧ (pport s.toMach p).st ∉ [2, 3]) ∧
  (∃ (s : State) (p kind k : Nat) (x : PtpMeas), p < 16 ∧ (pport s.toMach p).mac = some k ∧ kind ≠ 1 ∧ (pport s.toMach p).st ≠ 4) ∧
  (∃ (s : State) (p k : Nat) (x : PtpMeas), p < 16 ∧ (pport s.toMach p).mac = some k ∧ k < 64 ∧ speaks s.toMach = true ∧ macSends
    s.toMach k = true ∧ bit (pport s.toMach p).flags 0 = false ∧ (iface s.toMach k).ip4.length = 4 ∧
    (let y := pport s.toMach p; y.st = 4 ∧ bit s.dt.ptp.flags 2 = false)) ∧
  (∃ (s : State) (p k : Nat) (x : PtpMeas), p < 16 ∧ (pport s.toMach p).mac = some k ∧ k < 64 ∧ speaks s.toMach = true ∧ macSends
    s.toMach k = true ∧ bit (pport s.toMach p).flags 0 = false ∧ (iface s.toMach k).ip4.length = 4 ∧
    (let y := pport s.toMach p; y.st = 4 ∧ bit s.dt.ptp.flags 2 = true)) ∧
  (∃ (s : State) (p k : Nat) (x : PtpMeas), p < 16 ∧ (pport s.toMach p).mac = some k ∧ k < 64 ∧ speaks s.toMach = true ∧ macSends
    s.toMach k = true ∧ bit (pport s.toMach p).flags 0 = false ∧ (iface s.toMach k).ip4.length = 4 ∧
    (let y := pport s.toMach p; (y.st = 2 ∨ y.st = 3) ∧ bit y.flags 2 = false)) ∧
  (∃ (s : State) (p : Nat), p < 16 ∧ (let y := pport s.toMach p; y.mac = none)) ∧
  (∃ (s : State) (p : Nat), p < 16 ∧ (let y := pport s.toMach p; y.mac.isSome = true)) :=
  ⟨⟨{pp_w13 {st := 4} with pr := {rdy.pr with role := 0}}, 15, 1, 60, {}, by decide +kernel⟩,
   ⟨(pp_w13 {st := 4}), 15, 1, 60, {}, by decide +kernel⟩,
   ⟨(pp_w13 {st := 3}), 15, 0, 60, {}, by decide +kernel⟩,
   ⟨(pp_w13 {st := 4, seqSync := 65535}), 15, 60, {stamp := 1234567890123}, by (dsimp only; decide +kernel)⟩,
   ⟨(pp_w13 {st := 4} 4), 15, 60, {stamp := 1234567890123}, by (dsimp only; decide +kernel)⟩,
   ⟨(pp_w13 {st := 3, txdly := 5}), 15, 60, {stamp := 1234567890123}, by (dsimp only; decide +kernel)⟩,
   ⟨rdy, 15, by (dsimp only; decide +kernel)⟩,
   ⟨(pp_w13 {st := 3, txdly := 5}), 15, by (dsimp only; decide +kernel)⟩⟩

theorem witness_FaultsAreRecorded :
  (∃ (s : State) (w : BitVec 64), messageOk w.toNat = true ∧ recIdx s.toMach (bits w.toNat 63 52) (bits w.toNat 51 44) = none ∧
    (let src := bits w.toNat 63 52; (s.flt.recs.filter fun r => !r.overflow).length < 2048 ∧ tget 0 s.flt.delivered src <
        s.flt.budget)) ∧
  (∃ (s : State) (w : BitVec 64), messageOk w.toNat = true ∧ recIdx s.toMach (bits w.toNat 63 52) (bits w.toNat 51 44) = none ∧
    (let cls := bits w.toNat 43 40; 2048 ≤ (s.flt.recs.filter fun r => !r.overflow).length ∧ cls = 0)) ∧
  (∃ (s : State) (w : BitVec 64) (i : Nat) (r : FaultRec), messageOk w.toNat = true ∧ recIdx s.toMach (bits w.toNat 63 52) (bits
    w.toNat 51 44) = some i ∧ s.flt.recs[i]? = some r ∧ r.cond = false) ∧
  (∃ (s : State) (w : BitVec 64) (i : Nat) (r : FaultRec), messageOk w.toNat = true ∧ recIdx s.toMach (bits w.toNat 63 52) (bits
    w.toNat 51 44) = some i ∧ s.flt.recs[i]? = some r ∧ r.cond = true ∧ r.cls ≠ 3) ∧
  (∃ (s : State) (w : BitVec 64) (i : Nat) (r : FaultRec), messageOk w.toNat = true ∧ recIdx s.toMach (bits w.toNat 63 52) (bits
    w.toNat 51 44) = some i ∧ s.flt.recs[i]? = some r ∧ r.cond = true ∧ r.cls = 3) ∧
  (∃ (s : State) (src kind i : Nat) (r : FaultRec), recIdx s.toMach src kind = some i ∧ s.flt.recs[i]? = some r ∧ r.cls = 0 ∧ r.cond =
    false ∧ s.dt.t < r.latest + s.flt.esct * 1000000 * nsU) ∧
  (∃ (s : State) (src kind i : Nat) (r : FaultRec), recIdx s.toMach src kind = some i ∧ s.flt.recs[i]? = some r ∧ r.cls = 0 ∧ r.cond =
    false ∧ r.latest + s.flt.esct * 1000000 * nsU ≤ s.dt.t) ∧
  (∃ (s : State) (raw : Int) (js : List Int), (let temp := raw - sensorOffset s.toMach 0; (js = [] ∧ (temp ≤ 105 * 128 ∧ s.flt.hot =
                                                  false)))) ∧
  (∃ (s : State) (raw : Int) (js : List Int), (let temp := raw - sensorOffset s.toMach 0; js = [] ∧ 105 * 128 < temp ∧ s.flt.hot =
                                                  false ∧ tableRoom s.toMach = true)) ∧
  (∃ (s : State) (raw : Int) (js : List Int), (let temp := raw - sensorOffset s.toMach 0;
                                                  (let cool := if temp < 100 * 128 then some (s.flt.coolSince.getD s.now) else none; js
                                                      = [] ∧ s.flt.hot = true ∧ (∀ at_ ∈ cool, at_ + 1000 * msT ≤ s.now) ∧ temp < 100 *
                                                      128))) ∧
  (∃ (s : State) (raw : Int) (js : List Int), ((js.head?).any fun j => decide (125 * 128 ≤ j - sensorOffset s.toMach 10 ∧
    s.flt.recs.length < 2047)) = true) :=
  ⟨⟨rdy, (fw_w13 0xE40 0x10 0 77), by (dsimp only; decide +kernel)⟩,
   ⟨full_w13, (fw_w13 0xE40 0x10 0 77), by (dsimp only; decide +kernel)⟩,
   ⟨(one_w13 (fr_w13 0xE40 0x10 0 false)), (fw_w13 0xE40 0x10 2 77), 1, (fr_w13 0xE40 0x10 0 false), by decide +kernel⟩,
   ⟨(one_w13 (fr_w13 0xE40 0x10 2 true)), (fw_w13 0xE40 0x10 1 77), 1, (fr_w13 0xE40 0x10 2 true), by decide +kernel⟩,
   ⟨(one_w13 (fr_w13 0xE40 0x10 3 true)), (fw_w13 0xE40 0x10 3 77), 1, (fr_w13 0xE40 0x10 3 true), by decide +kernel⟩,
   ⟨(one_w13 (fr_w13 0xE40 0x10 0 false)), 0xE40, 0x10, 1, (fr_w13 0xE40 0x10 0 false), by decide +kernel⟩,
   ⟨{one_w13 (fr_w13 0xE40 0x10 0 false) with dt := {rdy.dt with t := 7 + 1000*1000000*nsU}}, 0xE40, 0x10, 1, (fr_w13 0xE40 0x10 0
     false), by decide +kernel⟩,
   ⟨rdy, (105*128), [], by (dsimp only; decide +kernel)⟩,
   ⟨rdy, (105*128+1), [], by (dsimp only; decide +kernel)⟩,
   ⟨{rdy with now := 1000*msT, flt := {rdy.flt with hot := true, coolSince := some 0}}, (100*128-1), [],
     by (dsimp only; decide +kernel)⟩,
   ⟨rdy, (105*128+1), [125*128], by decide +kernel⟩⟩

theorem witness_SnapshotsProceed :
  (∃ (s : State) (high : Nat), (let on := bit s.snp.enables 0 = true ∧ 20 ≤ high ∧ s.dt.pps = false; ¬ on)) ∧
  (∃ (s : State) (high : Nat), (let on := bit s.snp.enables 0 = true ∧ 20 ≤ high ∧ s.dt.pps = false; on ∧ s.snp.busy = none ∧ snapSlot
                                   s.toMach = none)) ∧
  (∃ (s : State) (high : Nat), (let on := bit s.snp.enables 0 = true ∧ 20 ≤ high ∧ s.dt.pps = false; on ∧ ((s.snp.busy).any fun k =>
                                   decide ((lget {} s.snp.slots k).instant ≠ s.dt.t)) = true)) ∧
  (∃ (s : State) (high : Nat), (let on := bit s.snp.enables 0 = true ∧ 20 ≤ high ∧ s.dt.pps = false; on ∧ s.snp.busy = none ∧
                                   ((snapSlot s.toMach).any fun k => decide (True)) = true)) ∧
  (∃ (s : State), s.snp.busy = none) ∧
  (∃ (s : State), ((s.snp.busy).any fun k => decide (True)) = true) :=
  ⟨⟨(st_w13 1 0), 19, by (dsimp only; decide +kernel)⟩,
   ⟨(let s := st_w13 1 0; {s with snp := {s.snp with slots := List.replicate 16 {st := 2, held := true}}}), 20,
        by (dsimp only; decide +kernel)⟩,
   ⟨(let s := st_w13 1 0; {s with snp := {s.snp with busy := some 15}, dt := {s.dt with t := 5}}), 20, by (dsimp only; decide +kernel)⟩,
   ⟨(st_w13 1 0), 20, by (dsimp only; decide +kernel)⟩,
   ⟨rdy, by decide +kernel⟩,
   ⟨(let s := st_w13 1 0; {s with snp := {s.snp with busy := some 15}, dt := {s.dt with t := 5}}), by decide +kernel⟩⟩

theorem witness_MemoryProceeds :
  (∃ (s : State) (n : Nat), n < 128 ∧ (let x := pc s.toMach n; x.st = 2)) ∧
  (∃ (s : State) (n : Nat), n < 128 ∧ (let x := pc s.toMach n;
                                          (let k := if x.alertAt + 750 < s.now then 1 else x.alerts + 1; x.st ≠ 2 ∧ k < 3 ∧ tableRoom
                                              s.toMach = true))) ∧
  (∃ (s : State) (n : Nat), n < 128 ∧ (let x := pc s.toMach n;
                                          (let k := if x.alertAt + 750 < s.now then 1 else x.alerts + 1; x.st ≠ 2 ∧ 3 ≤ k ∧
                                              s.flt.recs.length < 2046 ∧ s.pwr.st < 2))) ∧
  (∃ (s : State) (n k q ch : Nat), n < 128 ∧ (pc s.toMach n).st = 2 ∧ (pc s.toMach n).quarAt = some q ∧ (freeSpares (stack s.toMach (n
    / 32))).head? = some k ∧ s.now < q + msT) ∧
  (∃ (s : State) (n k q ch : Nat), n < 128 ∧ (pc s.toMach n).st = 2 ∧ (pc s.toMach n).quarAt = some q ∧ (freeSpares (stack s.toMach (n
    / 32))).head? = some k ∧ q + msT ≤ s.now) ∧
  (∃ (s : State) (n port addr : Nat) (u : PoisonUse), n < 128 ∧ port < 83 ∧ s.flt.recs.length < 2047) ∧
  (∃ (s : State) (n port addr c seq : Nat), n < 128 ∧ port < 83) ∧
  (∃ (s : State) (n port addr ch slot idx : Nat), n < 128 ∧ port < 83) ∧
  (∃ (s : State) (n port addr i off b : Nat), n < 128 ∧ port < 83 ∧ (tget {} s.is_.feeds i).valid = true ∧ (tget {} s.is_.feeds
    i).reading s.now = some b) ∧
  (∃ (s : State) (n port addr k off b : Nat), n < 128 ∧ port < 83 ∧ newest (srcOf s.toMach k) = some b) ∧
  (∃ (s : State) (n port addr k w row : Nat), n < 128 ∧ port < 83) ∧
  (∃ (s : State) (n addr outcome : Nat), n < 128 ∧
    (let x := pc s.toMach n; x.st = 2)) ∧
  (∃ (s : State) (n addr outcome : Nat), n < 128 ∧
    (let x := pc s.toMach n; x.st ≠ 2)) ∧
  (∃ (s : State) (k : Nat) (raw : Int) (postpone : Bool), k < 4 ∧ tableRoom s.toMach = true) ∧
  (∃ (s : State) (n a at_ : Nat), n < 128 ∧ (pc s.toMach n).frozen = some (a, at_) ∧ s.now < at_ + 100 * msT) ∧
  (∃ (s : State) (n a at_ : Nat), n < 128 ∧ (pc s.toMach n).frozen = some (a, at_) ∧ at_ + 100 * msT ≤ s.now) :=
  ⟨⟨(sp_w14 {st := 2}), 127, by (dsimp only; decide +kernel)⟩,
   ⟨(sp_w14 {}), 127, by (dsimp only; decide +kernel)⟩,
   ⟨(sp_w14 {alerts := 2, alertAt := 600000-750}), 127, by (dsimp only; decide +kernel)⟩,
   ⟨(sp_w14 {st := 2, quarAt := some 100001}), 127, 0, 100001, 3, by decide +kernel⟩,
   ⟨(sp_w14 {st := 2, quarAt := some 100000} {sp0 := some 126}), 127, 1, 100000, 3, by decide +kernel⟩,
   ⟨(sp_w14 {}), 127, 82, (2^30+77), (.other), by decide +kernel⟩,
   ⟨(let s := sp_w14 {}; {s with flw := {s.flw with ctxs := [(5, {buf := [⟨5,0,false,0,[]⟩, ⟨6,0,false,0,[]⟩]})]}}), 127, 82,
        (2^30+77), 5, 6, by decide +kernel⟩,
   ⟨(sp_w14 {}), 127, 82, (2^30+77), 65535, 31, 777, by decide +kernel⟩,
   ⟨fd_w25, 127, 82, (2^30+77), 2047, 64, 1, by decide +kernel⟩,
   ⟨fd_w25, 127, 82, (2^30+77), 5, 64, 1, by decide +kernel⟩,
   ⟨(sp_w14 {}), 127, 82, (2^30+77), 31, 63, 5, by decide +kernel⟩,
   ⟨(sp_w14 {st := 2}), 127, 64, 1, by (dsimp only; decide +kernel)⟩,
   ⟨(sp_w14 {frozen := some (0, 0)} ), 127, 0, 0, by (dsimp only; decide +kernel)⟩,
   ⟨(sp_w14 {}), 3, (105*128+1), true, by decide +kernel⟩,
   ⟨(sp_w14 {frozen := some (0, 0)}), 127, 0, 0, by decide +kernel⟩,
   ⟨(let s := sp_w14 {frozen := some (0, 0)}; {s with now := 100*msT}), 127, 0, 0, by decide +kernel⟩⟩

theorem witness_SessionTimersExpire :
  (∃ (s : State) (n : Nat), n < 64 ∧ (let due := (ses s.toMach n).st = .opening ∧ (ses s.toMach n).openingAt + 1000 * msT < s.now; ¬
                                         due)) ∧
  (∃ (s : State) (n : Nat), n < 64 ∧ (let due := (ses s.toMach n).st = .opening ∧ (ses s.toMach n).openingAt + 1000 * msT < s.now;
                                         due)) ∧
  (∃ (s : State) (n at_ : Nat), n < 64 ∧ claiming s.toMach = true ∧ xlUp s.toMach = false ∧ s.pr.unprot = true ∧ (ses s.toMach
    n).leaseEnd = some at_ ∧ s.now ≤ at_) ∧
  (∃ (s : State) (n at_ : Nat), n < 64 ∧ claiming s.toMach = true ∧ xlUp s.toMach = false ∧ s.pr.unprot = true ∧ (ses s.toMach
    n).leaseEnd = some at_ ∧ at_ < s.now) ∧
  (∃ (s : State) (n at_ : Nat), n < 64 ∧ claiming s.toMach = true ∧ xlUp s.toMach = false ∧ s.pr.unprot = true ∧ (ses s.toMach
    n).grantEnd = some at_ ∧ s.now < at_) ∧
  (∃ (s : State) (n at_ : Nat), n < 64 ∧ claiming s.toMach = true ∧ xlUp s.toMach = false ∧ s.pr.unprot = true ∧ (ses s.toMach
    n).grantEnd = some at_ ∧ at_ ≤ s.now) ∧
  (∃ (s : State) (n : Nat), n < 64 ∧ (let x := ses s.toMach n;
                                         (let due := x.unsig ≠ 0 ∧ x.unsigAt + x.irqDelay * usT ≤ s.now; ¬ due))) ∧
  (∃ (s : State) (n : Nat), n < 64 ∧ (let x := ses s.toMach n;
                                         (let due := x.unsig ≠ 0 ∧ x.unsigAt + x.irqDelay * usT ≤ s.now; due ∧ x.st = .opn))) ∧
  (∃ (s : State) (j : Nat) (e : JEntry), jentry? s.toMach j = some e ∧ e.unacked = true ∧ e.held = [] ∧ s.now ≤ e.tick + 5000) ∧
  (∃ (s : State) (j : Nat) (e : JEntry), jentry? s.toMach j = some e ∧ e.unacked = true ∧ e.held = [] ∧ e.tick + 5000 < s.now ∧ e.ses <
    64 ∧ e.deaf = false ∧ live s.toMach e.ses = true ∧ tableRoom s.toMach = true ∧ (win s.toMach e.ses).respTail < 65536 ∧ e.hare =
    false) :=
  ⟨⟨(so_w14 {st := .opening}), 63, by (dsimp only; decide +kernel)⟩,
   ⟨(so_w14 {st := .opening} 500000001), 63, by (dsimp only; decide +kernel)⟩,
   ⟨(so_w14 {st := .opn, leaseEnd := some 500000000, grantEnd := some 500000000}), 63, 500000000, by decide +kernel⟩,
   ⟨(so_w14 {st := .opn, leaseEnd := some 499999999, grantEnd := some 500000000}), 63, 499999999, by decide +kernel⟩,
   ⟨(so_w14 {st := .opn, leaseEnd := some 500000001, grantEnd := some 500000001}), 63, 500000001, by decide +kernel⟩,
   ⟨(so_w14 {st := .opn, leaseEnd := some 500000000, grantEnd := some 500000000}), 63, 500000000, by decide +kernel⟩,
   ⟨(so_w14 {st := .opn, unsig := 3, unsigAt := 500000000 - 499, irqDelay := 1}), 63, by (dsimp only; decide +kernel)⟩,
   ⟨(so_w14 {st := .opn, unsig := 3, unsigAt := 500000000 - 500, irqDelay := 1}), 63, by (dsimp only; decide +kernel)⟩,
   ⟨(sej_w14 ej_w14 false), 5, ej_w14, by decide +kernel⟩,
   ⟨(let s : State := {rdy with now := 500000001, ctl := {rdy.ctl with sessions := [(63, {st := .opn, reserved := 2})], journal := [ej_w14], jnext := 6}};
        {s with pr := {s.pr with unprot := false}}), 5, ej_w14, by decide +kernel⟩⟩

theorem witness_FirmwareProceeds :
  (∃ (s : State) (p : Nat), p < 6) ∧
  (∃ (s : State), s.ctl.restarting = false) ∧
  (∃ (s : State), s.ctl.restarting = false ∧ ringsIdle s.toMach = true) ∧
  (∃ (s : State), s.ctl.restarting = true) ∧
  (∃ (s : State), s.ctl.restarting = true ∧ s.ctl.rung = [] ∧ s.ctl.jfull = false ∧ (s.ctl.journal.all fun e => e.st != 0) = true) ∧
  (∃ (s : State) (n : Nat), n < 64 ∧ (let late := s.ctl.rung.any fun r => r.ses == n && (r.jwait.any fun t => decide (t + 10 * msT <
                                         s.now)) && waitsJournal s.toMach r; (late = false ∨ s.ctl.jfull = true))) ∧
  (∃ (s : State) (n : Nat), n < 64 ∧ (let late := s.ctl.rung.any fun r => r.ses == n && (r.jwait.any fun t => decide (t + 10 * msT <
                                         s.now)) && waitsJournal s.toMach r; late = true ∧ s.ctl.jfull = false)) ∧
  (∃ (s : State), (let m := settleHold (tickTraffic (copyTick (reloadSessions (postSuppressed s.toMach)))); ringsIdle m = true ∧
                      m.pr.chg = none ∧ (let handover := gradeLow m && canChange m && decide (m.pr.again ≤ m.now); handover = false))) ∧
  (∃ (s : State), (let m := settleHold (tickTraffic (copyTick (reloadSessions (postSuppressed s.toMach)))); ringsIdle m = true ∧
                      m.pr.chg = none ∧ (let handover := gradeLow m && canChange m && decide (m.pr.again ≤ m.now); handover = true))) :=
  ⟨⟨rdy, 5, by decide +kernel⟩,
   ⟨rdy, by decide +kernel⟩,
   ⟨rdy, by decide +kernel⟩,
   ⟨{rdy with ctl := {rdy.ctl with restarting := true, journal := [{ej_w14 with st := 0}]}}, by decide +kernel⟩,
   ⟨{rdy with ctl := {rdy.ctl with restarting := true, journal := [{ej_w14 with st := 1}]}}, by decide +kernel⟩,
   ⟨rdy, 63, by (dsimp only; decide +kernel)⟩,
   ⟨(full_w25 false), 0, by (dsimp only; decide +kernel)⟩,
   ⟨btd_w25, by (dsimp only; decide +kernel)⟩,
   ⟨hovd_w25, by (dsimp only; decide +kernel)⟩⟩

theorem witness_HeartbeatsProceed :
  (∃ (s : State), s.sys.romMode = true) ∧
  (∃ (s : State), s.sys.romMode = false ∧ grave s.toMach = false ∧ xlStarted s.toMach = true) ∧
  (∃ (s : State), s.sys.romMode = false ∧ grave s.toMach = true ∧ xlStarted s.toMach = true) ∧
  (∃ (s : State), s.sys.romMode = false ∧ grave s.toMach = true ∧ xlStarted s.toMach = false) ∧
  (∃ (s : State), s.sys.romMode = false ∧ grave s.toMach = false ∧ xlStarted s.toMach = false) ∧
  (∃ (s : State), s.sys.romMode = false ∧ xlStarted s.toMach = true ∧ s.upd.running = false) ∧
  (∃ (s : State), s.sys.romMode = false ∧ xlStarted s.toMach = true ∧ s.upd.running = true) ∧
  (∃ (s : State) (width : Nat), (let on := s.pr.watching = true ∧ s.sys.romMode = false ∧ 1000 ≤ width ∧ width ≤ 4000; ¬ on)) ∧
  (∃ (s : State) (width : Nat), (let on := s.pr.watching = true ∧ s.sys.romMode = false ∧ 1000 ≤ width ∧ width ≤ 4000; on ∧
                                    (s.pr.pathPin.lost = false ∨ s.pr.pathPin.good < 15))) ∧
  (∃ (s : State) (width : Nat), (let on := s.pr.watching = true ∧ s.sys.romMode = false ∧ 1000 ≤ width ∧ width ≤ 4000; on ∧
                                    s.pr.pathPin.lost = true ∧ 15 ≤ s.pr.pathPin.good)) ∧
  (∃ (s : State) (i : Nat), i < 3 ∧ missDue s.toMach i = false) ∧
  (∃ (s : State), s.pr.watching = true ∧ s.sys.romMode = false ∧ tableRoom s.toMach = true ∧
    (let due (p : HbPath) : Bool := decide (p.at_ + 250 * usT < s.now); due s.pr.pathA = true ∧ (s.pr.pathA.lost = true ∨
        s.pr.pathA.miss < 15))) ∧
  (∃ (s : State), s.pr.watching = true ∧ s.sys.romMode = false ∧ tableRoom s.toMach = true ∧
    (let due (p : HbPath) : Bool := decide (p.at_ + 250 * usT < s.now); due s.pr.pathB = true ∧ (s.pr.pathB.lost = true ∨
        s.pr.pathB.miss < 15))) ∧
  (∃ (s : State), s.pr.watching = true ∧ s.sys.romMode = false ∧ tableRoom s.toMach = true ∧
    (let due (p : HbPath) : Bool := decide (p.at_ + 250 * usT < s.now); due s.pr.pathPin = true ∧ (s.pr.pathPin.lost = true ∨
        s.pr.pathPin.miss < 15))) ∧
  (∃ (s : State), s.pr.watching = true ∧ s.sys.romMode = false ∧ tableRoom s.toMach = true ∧
    (let due (p : HbPath) : Bool := decide (p.at_ + 250 * usT < s.now); due s.pr.pathA = true ∧ s.pr.pathA.lost = false ∧ 15 ≤
        s.pr.pathA.miss ∧ s.pr.pathB.lost = false ∧ s.pr.ploss = false ∧ standing s.toMach 0xDE1 0x91 = false)) ∧
  (∃ (s : State), s.pr.watching = true ∧ s.sys.romMode = false ∧ tableRoom s.toMach = true ∧ s.pr.pathA.lost = true ∧ s.pr.pathB.lost =
    true ∧ s.pr.pathPin.lost = false ∧ 15 ≤ s.pr.pathPin.miss ∧ everHeard s.toMach = true ∧ s.pr.ploss = false ∧ s.pr.chg = none ∧
    s.pwr.wakePartner = [] ∧ s.pr.pathPin.at_ + 250 * usT < s.now ∧ claiming s.toMach = true) ∧
  (∃ (s : State), s.pr.watching = true ∧ s.sys.romMode = false ∧ tableRoom s.toMach = true ∧ s.pr.pathA.lost = true ∧ s.pr.pathB.lost =
    true ∧ s.pr.pathPin.lost = false ∧ 15 ≤ s.pr.pathPin.miss ∧ everHeard s.toMach = true ∧ s.pr.ploss = false ∧ s.pr.chg = none ∧
    s.pwr.wakePartner = [] ∧ s.pr.pathPin.at_ + 250 * usT < s.now ∧ s.pr.role = 4 ∧ s.pr.fit = true ∧ s.pr.split = false ∧ grave
    s.toMach = false ∧ s.sys.phase = 0 ∧ s.pwr.st = 1 ∧ s.pwr.wakeFail = false ∧ s.pr.drilling = false ∧ s.pr.jcopy = []) ∧
  (∃ (s : State), (let due := claiming s.toMach = true ∧ s.pr.withhold = true ∧ s.pr.plossAt + 100 * msT ≤ s.now ∧ upLanes s.toMach =
                      []; ¬ due)) ∧
  (∃ (s : State), (let due := claiming s.toMach = true ∧ s.pr.withhold = true ∧ s.pr.plossAt + 100 * msT ≤ s.now ∧ upLanes s.toMach =
                      []; due)) :=
  ⟨⟨{rdy with sys := {rdy.sys with romMode := true}}, by decide +kernel⟩,
   ⟨rdy, by decide +kernel⟩,
   ⟨{rdy with flt := {rdy.flt with recs := [{src := 1, kind := 1, msg := 0, first := 0, latest := 0, base := 3}]}}, by decide +kernel⟩,
   ⟨{rdy with sys := {rdy.sys with phase := 5}, flt := {rdy.flt with recs := [{src := 1, kind := 1, msg := 0, first := 0, latest := 0, base := 3}]}},
     by decide +kernel⟩,
   ⟨{rdy with sys := {rdy.sys with phase := 5}}, by decide +kernel⟩,
   ⟨rdy, by decide +kernel⟩,
   ⟨{rdy with upd := {rdy.upd with running := true}}, by decide +kernel⟩,
   ⟨(w_w15 rdy), 999, by (dsimp only; decide +kernel)⟩,
   ⟨(w_w15 rdy), 1000, by (dsimp only; decide +kernel)⟩,
   ⟨(let s := w_w15 rdy; {s with pr := {s.pr with ploss := true, pathPin := {lost := true, good := 15}}}), 4000,
        by (dsimp only; decide +kernel)⟩,
   ⟨rdy, 2, by decide +kernel⟩,
   ⟨(let s := w_w15 rdy; {s with now := 250*usT+1}), by (dsimp only; decide +kernel)⟩,
   ⟨(let s := w_w15 rdy; {s with now := 250*usT+1}), by (dsimp only; decide +kernel)⟩,
   ⟨(let s := w_w15 rdy; {s with now := 250*usT+1, pr := {s.pr with pathA := {miss := 15}, pathB := {}, pathPin := {}}}),
        by (dsimp only; decide +kernel)⟩,
   ⟨(let s := w_w15 rdy; {s with now := 250*usT+1, pr := {s.pr with pathA := {miss := 15}, pathB := {}, pathPin := {}}}),
        by (dsimp only; decide +kernel)⟩,
   ⟨(let s := w_w15 rdy; {s with now := 100*msT, pr := {s.pr with withhold := true}}), by decide +kernel⟩,
   ⟨(let s := w_w15 stby; {s with now := 250*usT+1}), by decide +kernel⟩,
   ⟨(let s := w_w15 rdy; {s with now := 100*msT-1, pr := {s.pr with withhold := true}}), by (dsimp only; decide +kernel)⟩,
   ⟨(let s := w_w15 rdy; {s with now := 100*msT, pr := {s.pr with withhold := true}}), by (dsimp only; decide +kernel)⟩⟩

theorem witness_XlBlocksArrive :
  (∃ (s : State) (b : Nat) (x : XlMsg), b < 2 ∧ (s.sys.romMode = true ∨ xlStarted s.toMach = false)) ∧
  (∃ (s : State) (b : Nat) (x : XlMsg), b < 2 ∧ s.sys.romMode = false ∧ xlStarted s.toMach = true ∧ x.isBeat = false ∧ (copiesDue
    s.toMach).contains (1 - b, x) = true) ∧
  (∃ (s : State) (b : Nat) (x : XlMsg), b < 2 ∧ copyTaken s.toMach b x = true) ∧
  (∃ (s : State) (b : Nat) (x : XlMsg) (e : _), copyTaken s.toMach b x = true ∧ claiming s.toMach = false ∧ x = .journal e) ∧
  (∃ (s : State) (b : Nat) (x : XlMsg) (j st status epoch instant : _), copyTaken s.toMach b x = true ∧ claiming s.toMach = false ∧ x =
    .jstate j st status epoch instant) ∧
  (∃ (s : State) (b : Nat) (x : XlMsg) (k r : _), copyTaken s.toMach b x = true ∧ claiming s.toMach = false ∧ x = .saveRec k r) ∧
  (∃ (s : State) (b : Nat) (x : XlMsg) (k i r : _), copyTaken s.toMach b x = true ∧ claiming s.toMach = false ∧ x = .slice k i r) ∧
  (∃ (s : State) (b : Nat) (x : XlMsg) (k img js : _), copyTaken s.toMach b x = true ∧ claiming s.toMach = false ∧ x = .whole k img js
    ∧ compatible s.toMach = true) ∧
  (∃ (s : State) (b : Nat) (x : XlMsg), copyTaken s.toMach b x = true ∧ claiming s.toMach = false ∧ (x = .wantWhole ∨ x = .ready ∨ ∃ k,
    x = .jack k ∨ x = .stateAck k ∨ x = .saveAck k ∨ x = .resend k)) ∧
  (∃ (s : State) (b : Nat) (x : XlMsg) (p w : _), copyTaken s.toMach b x = true ∧ claiming s.toMach = false ∧ x = .wake true p w ∧
    s.pwr.st = 1 ∧ grave s.toMach = false ∧ s.pr.drilling = false) ∧
  (∃ (s : State) (b : Nat) (x : XlMsg) (k : _), copyTaken s.toMach b x = true ∧ claiming s.toMach = false ∧ x = .chosen k ∧
    ((s.pr.chg).any fun c => decide (True)) = true) ∧
  (∃ (s : State) (b : Nat) (x : XlMsg), copyTaken s.toMach b x = true ∧ claiming s.toMach = false ∧ x = .ended ∧ s.pr.chg = none) ∧
  (∃ (s : State) (b : Nat) (x : XlMsg), copyTaken s.toMach b x = true ∧ claiming s.toMach = false ∧ x = .ended ∧ s.pr.chg.isSome = true
    ∧ s.pr.cfg.denAuto = false) ∧
  (∃ (s : State) (b : Nat) (bs : List Byte), copyTaken s.toMach b (.report bs) = true ∧ s.pr.report ≠ some bs) ∧
  (∃ (s : State) (b : Nat) (x : XlMsg), copyTaken s.toMach b x = true ∧ claiming s.toMach = true ∧ (x = .ended ∨ ∃ k e r w, x =
    .journal e ∨ x = .saveRec k r ∨ x = .slice k w r ∨ x = .wake true k w ∨ x = .wake false k w)) ∧
  (∃ (s : State) (b : Nat) (x : XlMsg) (j e : _), copyTaken s.toMach b x = true ∧ claiming s.toMach = true ∧ x = .jack j ∧ jentry?
    s.toMach j = some e ∧ e.unacked = true ∧ e.deaf = false ∧ e.ses < 64 ∧ live s.toMach e.ses = true ∧ e.hare = false ∧ (win s.toMach
    e.ses).respTail < 65536) ∧
  (∃ (s : State) (b : Nat) (x : XlMsg) (k : _), copyTaken s.toMach b x = true ∧ claiming s.toMach = true ∧ x = .saveAck k) ∧
  (∃ (s : State) (b : Nat) (x : XlMsg), copyTaken s.toMach b x = true ∧ claiming s.toMach = true ∧ x = .wantWhole ∧ compatible s.toMach
    = true) ∧
  (∃ (s : State) (b : Nat) (x : XlMsg), copyTaken s.toMach b x = true ∧ claiming s.toMach = true ∧ ((s.pr.chg).any fun c => decide (x =
    .ready ∧ c.phase = 1)) = true) ∧
  (∃ (s : State) (b : Nat) (x : Beat), b < 2 ∧ s.sys.romMode = false ∧ xlStarted s.toMach = true) ∧
  (∃ (s : State) (k : Nat), (let sends := claiming s.toMach = true ∧ compatible s.toMach = true ∧ xlUp s.toMach = true ∧ (keptSave
                                s.toMach k).isSome = true; ¬ sends)) ∧
  (∃ (s : State) (k : Nat), (let sends := claiming s.toMach = true ∧ compatible s.toMach = true ∧ xlUp s.toMach = true ∧ (keptSave
                                s.toMach k).isSome = true; sends)) ∧
  (∃ (s : State) (k : Nat) (ok : Bool), (claiming s.toMach = true ∨ s.sys.romMode = true ∨ compatible s.toMach = false)) ∧
  (∃ (s : State) (k : Nat) (ok : Bool), claiming s.toMach = false ∧ s.sys.romMode = false ∧ compatible s.toMach = true ∧
    s.pr.wanted.contains k = false) ∧
  (∃ (s : State) (k : Nat) (ok : Bool), claiming s.toMach = false ∧ s.sys.romMode = false ∧ compatible s.toMach = true ∧
    (s.pr.wanted.contains k = true ∧ ok = false ∨ s.pr.img = none ∧ ok = true)) ∧
  (∃ (s : State) (img : Saved), claiming s.toMach = false ∧ s.sys.romMode = false ∧ compatible s.toMach = true ∧ s.pr.img = some img ∧
    s.pr.wanted = [] ∧ s.pr.slices = []) :=
  ⟨⟨{rdy with sys := {rdy.sys with romMode := true}}, 1, (.jack 5), by decide +kernel⟩,
   ⟨(cup_w26 rdy [(0, .jack 5)]), 1, (.jack 5), by decide +kernel⟩,
   ⟨(cx_w26 rdy [(0, .jack 5)]), 1, (.jack 5), by decide +kernel⟩,
   ⟨stby, 1, (.journal ej_w15), ej_w15, by decide +kernel⟩,
   ⟨{stby with pr := {stby.pr with jcopy := [ej_w15, {ej_w15 with jseq := 6}]}}, 1, (.jstate 5 1 0 9 4), 5, 1, 0, 9, 4,
     by decide +kernel⟩,
   ⟨stby, 1, (.saveRec 5 (.epochs [])), 5, (.epochs []), by decide +kernel⟩,
   ⟨stby, 1, (.slice 5 5 (.epochs [])), 5, 5, (.epochs []), by decide +kernel⟩,
   ⟨stby, 1, (.whole 5 wv_w15 []), 5, wv_w15, [], by decide +kernel⟩,
   ⟨stby, 1, .wantWhole, by decide +kernel, by decide +kernel, .inl rfl⟩,
   ⟨stby, 1, (.wake true 3 10), 3, 10, by decide +kernel⟩,
   ⟨chs_w26, 1, (.chosen 77), 77, by decide +kernel⟩,
   ⟨stby, 1, .ended, by decide +kernel⟩,
   ⟨{chs_w26 with pr := {chs_w26.pr with cfg := {chs_w26.pr.cfg with denAuto := false}}}, 1, .ended, by decide +kernel⟩,
   ⟨stby, 1, [1, 2], by decide +kernel⟩,
   ⟨sej_w15, 1, .ended, by decide +kernel, by decide +kernel, .inl rfl⟩,
   ⟨sej_w15, 1, (.jack 5), 5, ej_w15, by decide +kernel⟩,
   ⟨{sej_w15 with pr := {sej_w15.pr with unprot := true}}, 1, (.saveAck 5), 5, by decide +kernel⟩,
   ⟨sej_w15, 1, .wantWhole, by decide +kernel⟩,
   ⟨{sej_w15 with pr := {sej_w15.pr with chg := some {phase := 1, c := 0, warmMax := 10, plane := 0}}}, 1, .ready, by decide +kernel⟩,
   ⟨sej_w15, 1, {t := 500, tvalid := true}, by decide +kernel⟩,
   ⟨rdy, 7, by (dsimp only; decide +kernel)⟩,
   ⟨snd_w15, 7, by (dsimp only; decide +kernel)⟩,
   ⟨snd_w15, 7, true, by decide +kernel⟩,
   ⟨stby, 7, false, by decide +kernel⟩,
   ⟨{stby with pr := {stby.pr with wanted := [7]}}, 7, false, by decide +kernel⟩,
   ⟨{stby with pr := {stby.pr with img := some wv_w15, recv := [(1, .epochs []), (2, .epochs [{epoch := 5, dests := []}]), (1, .head {epoch := 77})]}},
     wv_w15, by decide +kernel⟩⟩

theorem witness_ChangeoversProceed :
  (∃ (s : State), s.pr.chg = none) ∧
  (∃ (s : State) (c : Changeover), s.pr.chg = some c ∧ claiming s.toMach = false ∧ c.phase = 1 ∧ standbyReady s.toMach = true) ∧
  (∃ (s : State) (c : Changeover), s.pr.chg = some c ∧ (c.phase ≠ 1 ∨ (claiming s.toMach = false ∧ standbyReady s.toMach = false))) ∧
  (∃ (s : State) (c : Changeover), s.pr.chg = some c ∧
    (let x := lastLineAt (plane s.toMach c.plane) (s.dt.t + 2000000 * nsU);
        (let near := claiming s.toMach && c.phase == 2 && c.x.any fun x => decide (x ≤ s.dt.t + 1000000 * nsU); near = true))) ∧
  (∃ (s : State) (c : Changeover), s.pr.chg = some c ∧
    (let x := lastLineAt (plane s.toMach c.plane) (s.dt.t + 2000000 * nsU);
        (let near := claiming s.toMach && c.phase == 2 && c.x.any fun x => decide (x ≤ s.dt.t + 1000000 * nsU); near = false))) ∧
  (∃ (s : State) (c : Changeover), s.pr.chg = some c ∧ (c.phase ≠ 1 ∨ s.now ≤ c.c + c.warmMax * 1000 * msT)) ∧
  (∃ (s : State) (c : Changeover), s.pr.chg = some c ∧ c.phase = 1 ∧ c.c + c.warmMax * 1000 * msT < s.now ∧ claiming s.toMach = false ∧
    s.pr.cfg.denAuto = false) ∧
  (∃ (s : State) (c : Changeover), s.pr.chg = some c ∧ c.phase = 1 ∧ c.c + c.warmMax * 1000 * msT < s.now ∧ claiming s.toMach = true ∧
    c.jseq = 0 ∧ c.byGrade = true ∧ 0 < c.warmMax) ∧
  (∃ (s : State) (c : Changeover) (x : Nat), s.pr.chg = some c ∧ c.x = some x ∧ 2 ≤ c.phase ∧ s.dt.t < x) ∧
  (∃ (s : State) (c : Changeover) (x : Nat), s.pr.chg = some c ∧ c.x = some x ∧ 2 ≤ c.phase ∧ x ≤ s.dt.t ∧ claiming s.toMach = true ∧
    c.jseq = 0) ∧
  (∃ (s : State) (c : Changeover) (x : Nat), s.pr.chg = some c ∧ c.x = some x ∧ 2 ≤ c.phase ∧ x ≤ s.dt.t ∧ claiming s.toMach = true ∧
    c.jseq ≠ 0 ∧ ((s.ctl.journal.find? fun e => e.of == c.jseq && e.waiting).isSome = true) ∧ tableRoom s.toMach = true) ∧
  (∃ (s : State) (c : Changeover) (x : Nat), s.pr.chg = some c ∧ c.x = some x ∧ 2 ≤ c.phase ∧ x ≤ s.dt.t ∧ s.pr.role = 4 ∧ s.pr.fit =
    true ∧ s.pwr.st = 1 ∧ s.pr.jcopy = []) ∧
  (∃ (s : State) (x : Nat), s.pr.formerAt = some x ∧ (s.dt.t < x + secU ∨ claiming s.toMach = true)) ∧
  (∃ (s : State) (x : Nat), s.pr.formerAt = some x ∧ x + secU ≤ s.dt.t ∧ claiming s.toMach = false ∧ s.pr.cfg.denAuto = false) ∧
  (∃ (s : State) (x : Nat), s.pr.formerAt = some x ∧ x + secU ≤ s.dt.t ∧ s.pr.cfg.denAuto = true ∧ s.pr.chg = none ∧ canEnter s.toMach
    = true) ∧
  (∃ (s : State), (let due := s.pwr.st = 2 ∧ s.pr.cfg.drill ≠ 0 ∧ s.pr.drillTick + s.pr.cfg.drill * 3600 * 1000 * msT ≤ s.now ∧
                      canDrill s.toMach = true; ¬ due)) ∧
  (∃ (s : State), (let due := s.pwr.st = 2 ∧ s.pr.cfg.drill ≠ 0 ∧ s.pr.drillTick + s.pr.cfg.drill * 3600 * 1000 * msT ≤ s.now ∧
                      canDrill s.toMach = true; due ∧ s.pwr.wakeFail = false)) ∧
  (∃ (s : State) (n : Nat), tableRoom s.toMach = true ∧ s.pr.drilling = false) ∧
  (∃ (s : State) (n : Nat), tableRoom s.toMach = true ∧ s.pr.drilling = true) :=
  ⟨⟨rdy, by decide +kernel⟩,
   ⟨(let s := ch_w15 stby c1_w15; {s with pr := {s.pr with img := some {epochs := [{epoch := 5, dests := []}]}}}), c1_w15,
        by decide +kernel⟩,
   ⟨(let s := ch_w15 stby c1_w15; {s with pr := {s.pr with cfg := {s.pr.cfg with denAuto := false}}}), c1_w15, by decide +kernel⟩,
   ⟨(ch_w15 rdy c2_w15), c2_w15, by (dsimp only; decide +kernel)⟩,
   ⟨(ch_w15 rdy c1_w15), c1_w15, by (dsimp only; decide +kernel)⟩,
   ⟨(ch_w15 rdy c1_w15), c1_w15, by decide +kernel⟩,
   ⟨(let s := ch_w15 stby c1_w15; {s with now := s.now + 1, pr := {s.pr with cfg := {s.pr.cfg with denAuto := false}}}), c1_w15,
        by decide +kernel⟩,
   ⟨(let s := ch_w15 rdy {c1_w15 with byGrade := true}; {s with now := s.now + 1}), {c1_w15 with byGrade := true}, by decide +kernel⟩,
   ⟨(ch_w15 rdy c2_w15), c2_w15, (6000000*nsU), by decide +kernel⟩,
   ⟨(ch_w15 sej_w15 c3_w15), c3_w15, (5000000*nsU), by decide +kernel⟩,
   ⟨(ch_w15 sej_w15 {c3_w15 with jseq := 5}), {c3_w15 with jseq := 5}, (5000000*nsU), by decide +kernel⟩,
   ⟨(ch_w15 stby c3_w15), c3_w15, (5000000*nsU), by decide +kernel⟩,
   ⟨(fo_w15 stby 1), 1, by decide +kernel⟩,
   ⟨(let s := fo_w15 stby 0; {s with pr := {s.pr with cfg := {s.pr.cfg with denAuto := false}}}), 0, by decide +kernel⟩,
   ⟨(fo_w15 stby 0), 0, by decide +kernel⟩,
   ⟨{den_w15 with now := 0}, by (dsimp only; decide +kernel)⟩,
   ⟨den_w15, by (dsimp only; decide +kernel)⟩,
   ⟨stby, 4, by decide +kernel⟩,
   ⟨dr_w15, 4, by decide +kernel⟩⟩

theorem witness_DenEntryProceeds :
  (∃ (s : State) (cause : Nat), 1 ≤ cause ∧ cause ≤ 5 ∧ s.pr.role < 8 ∧ grave s.toMach = false ∧ s.pwr.st = 2 ∧ (s.pwr.wakeFail = false
    ∨ cause ≠ 3)) ∧
  (∃ (s : State) (cause : Nat), 1 ≤ cause ∧ cause ≤ 5 ∧ s.pr.role < 8 ∧ grave s.toMach = false ∧ s.pwr.st = 3 ∧ s.pwr.events = []) ∧
  (∃ (s : State) (cause : Nat), 1 ≤ cause ∧ cause ≤ 5 ∧ s.pr.role < 8 ∧ grave s.toMach = false ∧ s.pwr.st = 4) ∧
  (∃ (s : State) (cause : Nat), 1 ≤ cause ∧ cause ≤ 5 ∧ s.pr.role < 8 ∧ grave s.toMach = false ∧ s.pwr.st = 2 ∧ s.pwr.wakeFail = true ∧
    cause = 3 ∧ s.pr.role = 0) ∧
  (∃ (s : State), s.pwr.st ≠ 3) ∧
  (∃ (s : State), s.pwr.st = 3 ∧ s.pwr.events = [] ∧ s.pwr.phase ∈ [1, 2]) ∧
  (∃ (s : State), s.pwr.st = 3 ∧ s.pwr.events = [] ∧ s.pwr.phase = 3) ∧
  (∃ (s : State), s.pwr.st = 3 ∧ s.pwr.events = [] ∧ s.pwr.phase = 4) ∧
  (∃ (s : State), s.pwr.st = 3 ∧ s.pwr.events = [] ∧ s.pwr.phase = 5 ∧ s.pr.role < 8) ∧
  (∃ (s : State), s.pwr.st = 3 ∧ s.pwr.phase ≤ 4 ∧ s.pwr.events = [4] ∧ s.pr.role < 8 ∧ s.pr.img = none) ∧
  (∃ (s : State), (let due := holdConds s.toMach = true ∧ s.pwr.shadowHold ≠ 0 ∧ (s.pwr.holdFrom.any fun a => decide (a +
                      s.pwr.shadowHold * 1000 * msT ≤ s.now)) = true; ¬ due)) ∧
  (∃ (s : State), (let due := holdConds s.toMach = true ∧ s.pwr.shadowHold ≠ 0 ∧ (s.pwr.holdFrom.any fun a => decide (a +
                      s.pwr.shadowHold * 1000 * msT ≤ s.now)) = true; due ∧ canEnter s.toMach = true)) ∧
  (∃ (s : State), s.pwr.st ≠ 2) ∧
  (∃ (s : State), s.pwr.st = 2 ∧ s.pr.role < 8 ∧ tableRoom s.toMach = true) ∧
  (∃ (s : State) (rail mv : Nat), 1 ≤ rail ∧ rail ≤ 7 ∧ tableRoom s.toMach = true ∧ recIdx s.toMach 0xDF0 0xA0 = none) ∧
  (∃ (s : State), (let due := s.pr.fit = false ∧ s.pwr.reseed = true ∧ s.pr.seeded = true ∧ compatible s.toMach = true; ¬ due)) ∧
  (∃ (s : State), (let due := s.pr.fit = false ∧ s.pwr.reseed = true ∧ s.pr.seeded = true ∧ compatible s.toMach = true; due ∧ s.pr.role
                      < 8 ∧ grave s.toMach = false ∧ s.pwr.wakeFail = false ∧ s.pr.beat = none ∧ s.pwr.st = 1 ∧ s.pr.starting = false)) :=
  ⟨⟨(pw_w16 {sb_w16 with st := 2}), 1, by decide +kernel⟩,
   ⟨(pw_w16 {sb_w16 with st := 3}), 4, by decide +kernel⟩,
   ⟨(pw_w16 {sb_w16 with st := 4, cause := 4}), 1, by decide +kernel⟩,
   ⟨(pw_w16 {sb_w16 with st := 2, wakeFail := true} {stby.pr with role := 0}), 3, by decide +kernel⟩,
   ⟨(pw_w16 {sb_w16 with st := 2}), by decide +kernel⟩,
   ⟨(pw_w16 {sb_w16 with st := 3, phase := 1}), by decide +kernel⟩,
   ⟨(pw_w16 {sb_w16 with st := 3, phase := 3}), by decide +kernel⟩,
   ⟨(pw_w16 {sb_w16 with st := 3, phase := 4}), by decide +kernel⟩,
   ⟨(pw_w16 {sb_w16 with st := 3, phase := 5}), by decide +kernel⟩,
   ⟨(pw_w16 {sb_w16 with st := 3, phase := 4, events := [4]}), by decide +kernel⟩,
   ⟨(pw_w16 {sb_w16 with cause := 4, holdFrom := some 0} ), by (dsimp only; decide +kernel)⟩,
   ⟨hs_w16, by (dsimp only; decide +kernel)⟩,
   ⟨stby, by decide +kernel⟩,
   ⟨(pw_w16 {sb_w16 with st := 2}), by decide +kernel⟩,
   ⟨stby, 7, 850, by decide +kernel⟩,
   ⟨stby, by (dsimp only; decide +kernel)⟩,
   ⟨rs_w31, by (dsimp only; decide +kernel)⟩⟩

theorem witness_WakeStepsProceed :
  (∃ (s : State) (bad : Nat), s.pwr.st ≠ 4) ∧
  (∃ (s : State) (bad : Nat), s.pwr.st = 4 ∧ s.pwr.phase = 9) ∧
  (∃ (s : State) (bad : Nat), s.pwr.st = 4 ∧ s.pwr.phase = 10) ∧
  (∃ (s : State) (bad : Nat), s.pwr.st = 4 ∧ s.pwr.phase = 11 ∧ s.pwr.signed = 2 ^ 32 - 1 ∧ bad = 0) ∧
  (∃ (s : State) (bad : Nat), s.pwr.st = 4 ∧ s.pwr.phase = 11 ∧ s.pwr.signed = 2 ^ 32 - 1 ∧ bad < 2 ^ 32 ∧ bad ≠ 0 ∧ s.pr.role < 8 ∧
    s.flt.recs.length < 2047) ∧
  (∃ (s : State) (bad : Nat), s.pwr.st = 4 ∧ s.pwr.phase = 12 ∧ s.pr.role < 8) ∧
  (∃ (s : State) (bad : Nat), s.pwr.st = 4 ∧ s.pwr.phase = 13 ∧ lanesReady s.toMach = true) ∧
  (∃ (s : State) (bad : Nat), s.pwr.st = 4 ∧ s.pwr.phase = 13 ∧ lanesReady s.toMach = false) ∧
  (∃ (s : State) (bad : Nat), s.pwr.st = 4 ∧ s.pwr.phase = 14 ∧ s.pr.img = none ∧ s.pwr.claiming = false) ∧
  (∃ (s : State) (bad : Nat), s.pwr.st = 4 ∧ s.pwr.phase = 14 ∧ s.pwr.reseed = true ∧ s.pwr.claiming = false) ∧
  (∃ (s : State) (bad : Nat), s.pwr.st = 4 ∧ ((s.pr.img).any fun i => decide (s.pwr.phase = 14 ∧ s.pwr.reseed = false ∧ s.pwr.claiming
    = false)) = true) ∧
  (∃ (s : State) (bad : Nat), s.pwr.st = 4 ∧ s.pwr.phase = 15 ∧ s.pwr.claiming = false ∧ s.pwr.cause ≠ 3 ∧ s.pr.role < 8 ∧ s.pr.chg =
    none) ∧
  (∃ (s : State) (bad : Nat), s.pwr.st = 4 ∧ s.pwr.phase = 15 ∧ s.pwr.claiming = true ∧ s.pr.role < 8 ∧ s.pr.fit = true ∧ grave
    s.toMach = false ∧ s.pr.beat = none ∧ s.pr.split = false ∧ s.sys.phase = 0 ∧ s.pr.jcopy = []) ∧
  (∃ (s : State), s.pwr.st = 4 ∧ s.now ≤ s.pwr.stepAt + stepLimit s.pwr.phase) ∧
  (∃ (s : State), s.pwr.st = 4 ∧ s.pr.role < 8 ∧ s.pwr.stepAt + stepLimit s.pwr.phase < s.now ∧ s.pwr.retried = false) ∧
  (∃ (s : State), s.pwr.st = 4 ∧ s.pr.role < 8 ∧ s.pwr.stepAt + stepLimit s.pwr.phase < s.now ∧ s.pwr.retried = true ∧ tableRoom
    s.toMach = true) :=
  ⟨⟨stby, 5, by decide +kernel⟩,
   ⟨(ws_w16 9), 0, by decide +kernel⟩,
   ⟨(ws_w16 10), 0, by decide +kernel⟩,
   ⟨(ws_w16 11 {signed := 2^32-1}), 0, by decide +kernel⟩,
   ⟨(ws_w16 11 {signed := 2^32-1}), (2^32-1), by decide +kernel⟩,
   ⟨(ws_w16 12), (2^135 + 2^271), by decide +kernel⟩,
   ⟨(ws_w16 13), 0, by decide +kernel⟩,
   ⟨{(ws_w16 13) with ln := {lnok_w26 with lanes := [(0, {fitted := true})]}}, 0, by decide +kernel⟩,
   ⟨(ws_w16 14), 0, by decide +kernel⟩,
   ⟨(let s := ws_w16 14 {reseed := true}; {s with pr := {s.pr with img := some wv_w15}}), 0, by decide +kernel⟩,
   ⟨(let s := ws_w16 14; {s with pr := {s.pr with img := some wv_w16}}), 0, by decide +kernel⟩,
   ⟨(ws_w16 15 {wakeFail := true}), 0, by decide +kernel⟩,
   ⟨(let s := ws_w16 15 {claiming := true}; {s with pr := {s.pr with role := 0}}), 0, by decide +kernel⟩,
   ⟨(ws_w16 9 {stepAt := 300*1000*msT - 5}), by decide +kernel⟩,
   ⟨(ws_w16 9), by decide +kernel⟩,
   ⟨(ws_w16 15 {retried := true}), by decide +kernel⟩⟩

theorem witness_BootProceeds :
  (∃ (s : State) (cause : Nat), cause < 2) ∧
  (∃ (s : State) (f : BootFind), (s.sys.romMode = true ∨ s.sys.phase = 0 ∨ 7 < s.sys.phase)) ∧
  (∃ (s : State) (f : BootFind), s.sys.romMode = false ∧ s.sys.phase = 1) ∧
  (∃ (s : State) (f : BootFind), s.sys.romMode = false ∧ s.sys.phase = 2 ∧ s.flt.recs.length < 2047 ∧ calOk (f.calA.getD s.sys.calA) =
    false ∧ calOk (f.calB.getD s.sys.calB) = false ∧ boardOk (f.btA.getD s.sys.btA) = false ∧ boardOk (f.btB.getD s.sys.btB) = false) ∧
  (∃ (s : State) (f : BootFind), s.sys.romMode = false ∧ s.sys.phase = 3 ∧ calHas s.toMach 0 = true ∧ f.badPos = []) ∧
  (∃ (s : State) (f : BootFind), s.sys.romMode = false ∧ s.sys.phase = 4 ∧
    (let a := s.upd.slotA.sr; (let b := s.upd.slotB.sr;
                                  (let okA := a.valid && decide (s.upd.fcount ≤ a.svn);
                                      (let okB := b.valid && decide (s.upd.fcount ≤ b.svn); okA = false ∧ okB = false))))) ∧
  (∃ (s : State) (f : BootFind), s.sys.romMode = false ∧ s.sys.phase = 4 ∧
    (let a := s.upd.slotA.sr; (let b := s.upd.slotB.sr;
                                  (let okA := a.valid && decide (s.upd.fcount ≤ a.svn);
                                      (let okB := b.valid && decide (s.upd.fcount ≤ b.svn); okA = true ∧ okB = true ∧ b.gen ≤ a.gen ∧
                                          a.trial = 0 ∧ b.trial = 0))))) ∧
  (∃ (s : State) (f : BootFind), s.sys.romMode = false ∧ s.sys.phase = 4 ∧
    (let a := s.upd.slotA.sr; (let b := s.upd.slotB.sr;
                                  (let okA := a.valid && decide (s.upd.fcount ≤ a.svn);
                                      (let okB := b.valid && decide (s.upd.fcount ≤ b.svn); okA = true ∧ okB = true ∧ b.gen ≤ a.gen ∧
                                          a.trial = 2 ∧ b.trial = 0))))) ∧
  (∃ (s : State) (f : BootFind), s.sys.romMode = false ∧ s.sys.phase = 4 ∧
    (let a := s.upd.slotA.sr; (let b := s.upd.slotB.sr;
                                  (let okA := a.valid && decide (s.upd.fcount ≤ a.svn);
                                      (let okB := b.valid && decide (s.upd.fcount ≤ b.svn); okA = true ∧ okB = false ∧ a.trial = 0))))) ∧
  (∃ (s : State) (f : BootFind), s.sys.romMode = false ∧ s.sys.phase = 4 ∧
    (let a := s.upd.slotA.sr; (let b := s.upd.slotB.sr;
                                  (let okB := b.valid && decide (s.upd.fcount ≤ b.svn); okB = true ∧ a.gen < b.gen ∧ b.trial = 1 ∧
                                      a.trial = 0)))) ∧
  (∃ (s : State) (f : BootFind), s.sys.romMode = false ∧ s.sys.phase = 5 ∧ s.sys.later = [] ∧ s.sys.jobs = []) ∧
  (∃ (s : State) (f : BootFind), s.sys.romMode = false ∧ s.sys.phase = 5 ∧ s.sys.later = [(0xE40, 0xE5, 0)] ∧ s.sys.jobs = [] ∧
    tableRoom s.toMach = true) ∧
  (∃ (s : State) (f : BootFind), s.sys.romMode = false ∧ s.sys.phase = 6) ∧
  (∃ (s : State) (f : BootFind), s.sys.romMode = false ∧ s.sys.phase = 7 ∧ s.pr.fit = true ∧ (s.pr.role = 4 ∨ 8 ≤ s.pr.role)) ∧
  (∃ (s : State) (f : BootFind), s.sys.romMode = false ∧ s.sys.phase = 7 ∧ (s.pr.fit = false ∨ s.pr.role < 4)) ∧
  (∃ (s : State), (s.sys.romMode = true ∨ s.sys.phase = 0 ∨ 6 ≤ s.sys.phase)) ∧
  (∃ (s : State), (let limit := match s.sys.phase with | 1 => s.sys.resetAt + msT | 2 => s.sys.resetAt + 5 * msT | 3 => s.sys.resetAt + 7 * msT | _ => s.sys.phaseAt + 5 * msT; s.sys.phase ∈ [1, 2, 3, 5] ∧ s.now ≤ limit + 100 * msT)) ∧
  (∃ (s : State), (let limit := match s.sys.phase with | 1 => s.sys.resetAt + msT | 2 => s.sys.resetAt + 5 * msT | 3 => s.sys.resetAt + 7 * msT | _ => s.sys.phaseAt + 5 * msT; s.sys.phase ∈ [1, 2, 3, 5] ∧ limit + 100 * msT < s.now ∧ s.sys.romMode = false ∧ tableRoom s.toMach = true)) ∧
  (∃ (s : State), (let waits := s.sys.phase = 7 ∧ s.sys.romMode = false ∧ s.pr.fit = false ∧ s.pwr.reseed = false ∧ s.sys.btUsed ≠ 0; ¬
                      waits)) ∧
  (∃ (s : State), (let waits := s.sys.phase = 7 ∧ s.sys.romMode = false ∧ s.pr.fit = false ∧ s.pwr.reseed = false ∧ s.sys.btUsed ≠ 0;
                      waits ∧ ((s.pr.beat).any fun b => decide (8 ≤ b.claim / 2 ^ 28)) = true)) ∧
  (∃ (s : State), (let waits := s.sys.phase = 7 ∧ s.sys.romMode = false ∧ s.pr.fit = false ∧ s.pwr.reseed = false ∧ s.sys.btUsed ≠ 0;
                      waits ∧ s.pr.beat = none ∧ s.pr.pathA.silent = true ∧ s.pr.pathB.silent = true ∧ s.pr.role < 8 ∧ grave s.toMach =
                      false ∧ s.pwr.wakeFail = false ∧ s.pwr.st ≠ 4 ∧ (s.pr.pathPin.silent = true ∨ s.pr.pathPin.ever = true))) ∧
  (∃ (s : State), (let waits := s.sys.phase = 7 ∧ s.sys.romMode = false ∧ s.pr.fit = false ∧ s.pwr.reseed = false ∧ s.sys.btUsed ≠ 0;
                      waits ∧ s.pr.beat = none ∧ (s.pr.pathA.silent = false ∨ s.pr.pathB.silent = false))) :=
  ⟨⟨{rdy with now := 7}, 1, by decide +kernel⟩,
   ⟨{rdy with now := 7}, {}, by decide +kernel⟩,
   ⟨(ph_w17 1), {slotId := 513, xo := 9}, by decide +kernel⟩,
   ⟨(ph_w17 2), {calA := some [1]}, by decide +kernel⟩,
   ⟨(ph_w17 3 fun s => {s with sys := {s.sys with cal := List.replicate 9000 (5#8)}}), {}, by decide +kernel⟩,
   ⟨(sl_w17 fun u => {u with fcount := 1, slotA := {sr := {valid := true, gen := 5}}, slotB := {sr := {valid := true, gen := 4}}}), {},
     by (dsimp only; decide +kernel)⟩,
   ⟨(sl_w17 fun u => {u with slotA := {sr := {valid := true, gen := 5}}, slotB := {sr := {valid := true, gen := 5}}}), {},
     by (dsimp only; decide +kernel)⟩,
   ⟨(sl_w17 fun u => {u with slotA := {sr := {valid := true, gen := 5, trial := 2}}, slotB := {sr := {valid := true, gen := 4}}}), {},
     by (dsimp only; decide +kernel)⟩,
   ⟨(sl_w17 fun u => {u with slotA := {sr := {valid := true}}}), {}, by (dsimp only; decide +kernel)⟩,
   ⟨(sl_w17 fun u => {u with slotA := {sr := {valid := true, gen := 5}}, slotB := {sr := {valid := true, gen := 6, trial := 1}}}), {},
     by (dsimp only; decide +kernel)⟩,
   ⟨(ph_w17 5), {}, by decide +kernel⟩,
   ⟨(ph_w17 5 fun s => {s with sys := {s.sys with later := [(0xE40, 0xE5, 0)]}}), {}, by decide +kernel⟩,
   ⟨(ph_w17 6), {}, by decide +kernel⟩,
   ⟨(ph_w17 7 fun s => {s with pr := {s.pr with fit := true, role := 4}}), {}, by decide +kernel⟩,
   ⟨(ph_w17 7 fun s => {s with pr := {s.pr with fit := true, role := 0}}), {}, by decide +kernel⟩,
   ⟨(ph_w17 0), by decide +kernel⟩,
   ⟨(let s := ph_w17 1; {s with now := 101*msT}), by (dsimp only; decide +kernel)⟩,
   ⟨(ph_w17 5), by (dsimp only; decide +kernel)⟩,
   ⟨rdy, by (dsimp only; decide +kernel)⟩,
   ⟨(pd_w17 {beat := some {claim := 8 * 2^28}}), by (dsimp only; decide +kernel)⟩,
   ⟨(pd_w17 {pathA := {miss := 16}, pathB := {miss := 16}, pathPin := {miss := 16}}), by (dsimp only; decide +kernel)⟩,
   ⟨(pd_w17 {pathA := {miss := 16}, pathB := {miss := 15}, pathPin := {ever := true}}), by (dsimp only; decide +kernel)⟩⟩

theorem witness_EpochIsReadWhole :
  (∃ (s : State) (master : Nat), master ≤ 10 ∧ busCase s.toMach master (regAddr 22 0x10) false = none) ∧
  (∃ (s : State) (master o v : Nat), master ≤ 10 ∧ o ∈ [0x10, 0x14] ∧ v < 2 ^ 32 ∧ ringsIdle s.toMach = true ∧ busCase s.toMach master
    (regAddr 22 o) true = none) :=
  ⟨⟨rep_w22, 10, by decide +kernel⟩,
   ⟨rdy, 0, 0x10, 5, by decide +kernel⟩⟩

theorem witness_MemoryWritesLand :
  (∃ (s : State) (master a t o v : Nat), master ≤ 10 ∧ a < 2 ^ 40 ∧ v < 2 ^ 32 ∧ ringsIdle s.toMach = true ∧ busCase s.toMach master a
    true = none ∧ targetOf a = some (t, o) ∧ t ≤ 1) ∧
  (∃ (s : State) (master a t o v : Nat), master ≤ 10 ∧ a < 2 ^ 40 ∧ v < 2 ^ 32 ∧ ringsIdle s.toMach = true ∧ busCase s.toMach master a
    true = none ∧ targetOf a = some (t, o) ∧ t = 3) ∧
  (∃ (s : State) (master a t o v : Nat), master ≤ 10 ∧ a < 2 ^ 40 ∧ v < 2 ^ 32 ∧ ringsIdle s.toMach = true ∧ busCase s.toMach master a
    true = none ∧ targetOf a = some (t, o) ∧ t = 4) ∧
  (∃ (s : State) (master a t o v : Nat), master ≤ 10 ∧ a < 2 ^ 40 ∧ v < 2 ^ 32 ∧ ringsIdle s.toMach = true ∧ busCase s.toMach master a
    true = none ∧ targetOf a = some (t, o) ∧ (let x := a - 0x8000000000; 5 ≤ t ∧ t ≤ 7 ∧ poolWaits s.toMach x = false)) ∧
  (∃ (s : State) (master a t o v : Nat), master ≤ 10 ∧ a < 2 ^ 40 ∧ v < 2 ^ 32 ∧ ringsIdle s.toMach = true ∧ busCase s.toMach master a
    true = none ∧ targetOf a = some (t, o) ∧ (let x := a - 0x8000000000; t = 8 ∧ poolWaits s.toMach x = false)) :=
  ⟨⟨rrm_w22, 0, 0x3FFFC, 0, 0x3FFFC, (2^32-1), by decide +kernel⟩,
   ⟨rdy, 0, 83886084, 3, 4, (2^32-1), by decide +kernel⟩,
   ⟨rdy, 6, 100663300, 4, 4, (2^32-1), by decide +kernel⟩,
   ⟨rdy, 0, 549755813892, 5, 4, (2^32-1), by (dsimp only; decide +kernel)⟩,
   ⟨rdy, 0, (0x9F00000000 + 4), 8, 4, (2^32-1), by (dsimp only; decide +kernel)⟩⟩


/-- A destination that ResetBindsNothing speaks of. -/
theorem witness_ResetBindsNothing : ∃ d : Nat, d < 2304 := ⟨2303, by decide⟩

/-! ### Small tests: values that the spec states, mostly in its worked examples -/

/-- The entry of R403's chapter: a FOLLOW take of source 300 to destination 41 with HSEQ 5,001. -/
theorem test_take_entry : (Cmd.take 0x02912C3F00000000 0).entry 5001 =
    [0x01, 0x02, 0x10, 0x00, 0x89, 0x13, 0, 0, 0, 0, 0, 0, 0x3F, 0x2C, 0x91, 0x02] ++ List.replicate 48 0 := by
  decide +kernel

/-- The fields of that record (R47). -/
theorem test_take_record : takeRec 0x02912C3F00000000 = { dest := 41, src := 300, mode := 0, ramp := 63, asrc := 0, rsvd := 0 } := by
  decide +kernel

/-- Where the worked example of the interconnect chapter puts IS_SRC_STAT of source 1,192. -/
theorem test_src_stat_address : targetOf 0x00400A2A04 = some (23, 0x10000 + 64 * 1192 + 4) := by decide +kernel

/-- And FLW_CTX_STAT of context 5,001. -/
theorem test_ctx_stat_address : (targetOf 0x004069C480).map (·.2) = some (0x200000 + 128 * 5001) := by decide +kernel

/-- What a command leaves has a property. -/
def after (i : Instr) (s : State) (p : State → Bool) : Bool :=
  match exec i s with
  | .next t => p t
  | _ => false

/-- A host's write to IS_SRC_STAT is discarded and counted (the same example). -/
theorem test_host_write_denied : after (.registerWrite 7 0x00400A2A04 1) rdy (fun t =>
    decide (t.bus.deny = rdy.bus.deny + 1 ∧ t.is_ = rdy.is_ ∧ t.flt = rdy.flt)) = true := by
  decide +kernel

/-- The scan of the lanes chapter: 32 columns by 32 rows. -/
def scanExample : Scan := { id := 1, lane := 17, ses := 0, hseq := 7, eye := 1, k := 24, sp := 2, sv := 4, thr := 0, off := 0x8000, at_ := 0 }
theorem test_scan_points : (scanExample.points, (scanExample.result 0 3 1024 (List.replicate 1024 1)).length) = (1024, 4160) := by
  decide +kernel

/-- Phases -12 to +12 of row 15 and voltages -12 to +12 of column 16 read 0: WIDTH 26 and HEIGHT 28. -/
theorem test_scan_eye : scanExample.eyeSize ((List.range 1024).map fun i =>
    if (i / 32 = 15 ∧ 10 ≤ i % 32 ∧ i % 32 ≤ 22) ∨ (i % 32 = 16 ∧ 12 ≤ i / 32 ∧ i / 32 ≤ 18) then 0 else 5) = (26, 28) := by
  decide +kernel

/-- The scaler example: Δ is 33,554,432, and luma sample 5 sits at n = 10, φ = 32, chroma sample 5 at n = 10, φ = 16. -/
theorem test_scaler_phase : (stepOf 1920 960, phaseOf (lumaPos 33554432 5 false), phaseOf (chromaPos 33554432 5)) =
    (33554432, (10, 32), (10, 16)) := by
  decide +kernel

/-- Nineteen windows of a full 1080p59.94 picture leave 38 Mpixel/s of the read rate. -/
theorem test_read_rate_left : 2400 - mpxUp { rate := 8 } (19 * (1920 * 1080)) = 38 := by decide +kernel

/-- A -20 send flow of 2160p59.94 with PAYLOAD 1,200 has 12.7187 Gbit/s. -/
def flowExample : State := { rdy with
  xb := { rdy.xb with planes := [{ fmt := { raster := 2, scan := 0, rate := 8 } }] }
  flw := { rdy.flw with ctxs := [(0, { st := 1, d := { dir := 1, port := 0, payload := 1200 } })] } }
theorem test_flow_rate : rateMbit flowExample.toMach 0 = 12718 := by decide +kernel

/-- PTPSLEW 400 ns/s is 3,436 units of INCR. -/
theorem test_slew_units : slewUnits 400 = 0xD6C := by decide +kernel

/-- Idle when nothing waits, and no word spells a command (the model's choices, Assumptions 6 and 7). -/
theorem test_idle : step State.reset = .next State.reset := by rfl
theorem test_no_word : decodeTableWord 64 0x0291 = none := by rfl

/-- Entering is refused for a unit that does not exist, and the queue's front goes with a command that runs. -/
theorem test_unknown_unit : exec (.planeCutoff 16) rdy = .refused .noSuchUnit := by rfl
theorem test_front_runs : after .budgetTick rdy (fun t => t.pending.isEmpty) = true := by decide +kernel
/-! ### Well-formedness: for each check a term that it refuses -/

/-- None of the commands is well-formed. -/
def noneFits (l : List Instr) : Bool := l.all fun i => !i.wf

/-- A session, a port or an HSEQ that does not exist. -/
theorem illformed_headers : noneFits
    [.identity { hd with ses := 64 }, .identity { hd with port := 2 }, .identity { hd with hseq := 2 ^ 32 }] = true := by
  decide +kernel

/-- A field one past the size that its table gives it; a command without fields has its port past the last. -/
theorem illformed_fields_one : noneFits
    [.take hd (2 ^ 64) 0, .take hd 0 (2 ^ 64), .salvo hd (2 ^ 16) 0 0 0, .salvo hd 0 (2 ^ 16) 0 0, .salvo hd 0 0 (2 ^ 32) 0,
    .salvo hd 0 0 0 (2 ^ 64), .routeQuery hd (2 ^ 64) 0 0 0, .routeQuery hd 0 (2 ^ 16) 0 0, .routeQuery hd 0 0 (2 ^ 16) 0,
    .routeQuery hd 0 0 0 (2 ^ 32), .protect hd (2 ^ 16) 0 0, .protect hd 0 (2 ^ 16) 0, .protect hd 0 0 (2 ^ 8),
    .forceRelease hd (2 ^ 16) 0, .forceRelease hd 0 (2 ^ 16), .bankLoad hd (2 ^ 8) 0 0 0, .bankLoad hd 0 (2 ^ 8) 0 0,
    .bankLoad hd 0 0 (2 ^ 16) 0, .bankLoad hd 0 0 0 (2 ^ 32), .bankSwap hd (2 ^ 8), .srcMode hd (2 ^ 16) 0 0 0,
    .srcMode hd 0 (2 ^ 8) 0 0, .srcMode hd 0 0 (2 ^ 8) 0, .srcMode hd 0 0 0 (2 ^ 8), .srcWarm hd (2 ^ 16) 0,
    .srcWarm hd 0 (2 ^ 8), .srcGroup hd (2 ^ 8) 0 0 0 0, .srcGroup hd 0 (2 ^ 16) 0 0 0, .srcGroup hd 0 0 (2 ^ 16) 0 0,
    .srcGroup hd 0 0 0 (2 ^ 16) 0, .srcGroup hd 0 0 0 0 (2 ^ 16), .srcStatus hd (2 ^ 16), .srcWindow hd (2 ^ 16) 0 0,
    .srcWindow hd 0 (2 ^ 16) 0, .srcWindow hd 0 0 (2 ^ 8), .destBind hd (2 ^ 16) 0 0, .destBind hd 0 (2 ^ 16) 0,
    .destBind hd 0 0 (2 ^ 8), .destAudio hd (2 ^ 16) 0 0, .destAudio hd 0 (2 ^ 16) 0, .destAudio hd 0 0 (2 ^ 8),
    .genCfg hd (2 ^ 8) 0 0 0 0 0 0, .genCfg hd 0 (2 ^ 8) 0 0 0 0 0, .genCfg hd 0 0 (2 ^ 8) 0 0 0 0,
    .genCfg hd 0 0 0 (2 ^ 8) 0 0 0, .genCfg hd 0 0 0 0 (2 ^ 16) 0 0, .genCfg hd 0 0 0 0 0 (2 ^ 16) 0,
    .genCfg hd 0 0 0 0 0 0 (2 ^ 16), .svcSend hd (2 ^ 8) 0 0 0 0 0 0, .svcSend hd 0 (2 ^ 8) 0 0 0 0 0,
    .svcSend hd 0 0 (2 ^ 32) 0 0 0 0, .svcSend hd 0 0 0 (2 ^ 32) 0 0 0, .svcSend hd 0 0 0 0 (2 ^ 32) 0 0,
    .svcSend hd 0 0 0 0 0 (2 ^ 32) 0, .svcSend hd 0 0 0 0 0 0 (2 ^ 16), .planeCfg hd (2 ^ 8) 0 0 0 0 0,
    .planeCfg hd 0 (2 ^ 8) 0 0 0 0, .planeCfg hd 0 0 (2 ^ 8) 0 0 0, .planeCfg hd 0 0 0 (2 ^ 8) 0 0,
    .planeCfg hd 0 0 0 0 (2 ^ 16) 0] = true := by
  decide +kernel

/-- A field one past the size that its table gives it; a command without fields has its port past the last. -/
theorem illformed_fields_two : noneFits
    [.planeCfg hd 0 0 0 0 0 (2 ^ 16), .planeSwitch hd (2 ^ 8) 0 0, .planeSwitch hd 0 (2 ^ 16) 0, .planeSwitch hd 0 0 (2 ^ 32),
    .planeStatus hd (2 ^ 8), .sessionOpen hd (2 ^ 128) 0 0 0 0, .sessionOpen hd 0 (2 ^ 32) 0 0 0,
    .sessionOpen hd 0 0 (2 ^ 32) 0 0, .sessionOpen hd 0 0 0 (2 ^ 8) 0, .sessionOpen hd 0 0 0 0 (2 ^ 16),
    .sessionClose hd (2 ^ 8), .sessionAttach hd (2 ^ 64), .subscribe hd (2 ^ 32) 0 0, .subscribe hd 0 (2 ^ 8) 0,
    .subscribe hd 0 0 (2 ^ 16), .pendingQuery hd (2 ^ 8) 0 0, .pendingQuery hd 0 (2 ^ 16) 0, .pendingQuery hd 0 0 (2 ^ 32),
    .identity { hd with port := 2 }, .expertGrant hd (2 ^ 8) 0, .expertGrant hd 0 (2 ^ 16), .sessionBudget hd (2 ^ 8) 0 0 0,
    .sessionBudget hd 0 (2 ^ 8) 0 0, .sessionBudget hd 0 0 (2 ^ 8) 0, .sessionBudget hd 0 0 0 (2 ^ 8), .fltList hd (2 ^ 8) 0,
    .fltList hd 0 (2 ^ 32), .fltClear hd (2 ^ 16) 0, .fltClear hd 0 (2 ^ 8), .fltCfg hd (2 ^ 8) 0 0 0, .fltCfg hd 0 (2 ^ 16) 0 0,
    .fltCfg hd 0 0 (2 ^ 8) 0, .fltCfg hd 0 0 0 (2 ^ 8), .snpTrigger { hd with port := 2 }, .snpCfg hd (2 ^ 8) 0 0 0 0 0 0 0,
    .snpCfg hd 0 (2 ^ 8) 0 0 0 0 0 0, .snpCfg hd 0 0 (2 ^ 16) 0 0 0 0 0, .snpCfg hd 0 0 0 (2 ^ 8) 0 0 0 0,
    .snpCfg hd 0 0 0 0 (2 ^ 16) 0 0 0, .snpCfg hd 0 0 0 0 0 (2 ^ 64) 0 0, .snpCfg hd 0 0 0 0 0 0 (2 ^ 32) 0,
    .snpCfg hd 0 0 0 0 0 0 0 (2 ^ 32), .snpList hd (2 ^ 32), .snpRead hd (2 ^ 8) 0 0 0, .snpRead hd 0 (2 ^ 32) 0 0,
    .snpRead hd 0 0 (2 ^ 32) 0, .snpRead hd 0 0 0 (2 ^ 32), .snpHold hd (2 ^ 8) 0, .snpHold hd 0 (2 ^ 8), .fltInject hd (2 ^ 64),
    .laneStatus hd (2 ^ 16), .eyeScan hd (2 ^ 16) 0 0 0 0 0 0, .eyeScan hd 0 (2 ^ 8) 0 0 0 0 0, .eyeScan hd 0 0 (2 ^ 8) 0 0 0 0,
    .eyeScan hd 0 0 0 (2 ^ 8) 0 0 0, .eyeScan hd 0 0 0 0 (2 ^ 8) 0 0, .eyeScan hd 0 0 0 0 0 (2 ^ 16) 0,
    .eyeScan hd 0 0 0 0 0 0 (2 ^ 32), .laneLoop hd (2 ^ 16) 0 0, .laneLoop hd 0 (2 ^ 8) 0] = true := by
  decide +kernel

/-- A field one past the size that its table gives it; a command without fields has its port past the last. -/
theorem illformed_fields_three : noneFits
    [.laneLoop hd 0 0 (2 ^ 8), .lanePrbs hd (2 ^ 16) 0 0 0, .lanePrbs hd 0 (2 ^ 8) 0 0, .lanePrbs hd 0 0 (2 ^ 8) 0,
    .lanePrbs hd 0 0 0 (2 ^ 8), .laneEqSet hd (2 ^ 16) 0 0 0, .laneEqSet hd 0 (2 ^ 8) 0 0, .laneEqSet hd 0 0 (2 ^ 8) 0,
    .laneEqSet hd 0 0 0 (2 ^ 160), .ethPortSplit hd (2 ^ 8) 0, .ethPortSplit hd 0 (2 ^ 8), .ethMacCfg hd (2 ^ 8) 0 0,
    .ethMacCfg hd 0 (2 ^ 48) 0, .ethMacCfg hd 0 0 (2 ^ 16), .ethStatus hd (2 ^ 8), .wakePattern hd (2 ^ 8) 0 0 0 0,
    .wakePattern hd 0 (2 ^ 8) 0 0 0, .wakePattern hd 0 0 (2 ^ 8) 0 0, .wakePattern hd 0 0 0 (2 ^ 32) 0,
    .wakePattern hd 0 0 0 0 (2 ^ 128), .flowDefine hd (2 ^ 16) 0 0, .flowDefine hd 0 (2 ^ 8) 0, .flowDefine hd 0 0 (2 ^ 32),
    .flowPort hd (2 ^ 16) 0 0, .flowPort hd 0 (2 ^ 16) 0, .flowPort hd 0 0 (2 ^ 8), .flowStatus hd (2 ^ 16),
    .flowIf hd (2 ^ 8) 0, .flowIf hd 0 (2 ^ 32), .flowCapacity hd (2 ^ 8), .flowOffset hd (2 ^ 16) 0 0,
    .flowOffset hd 0 (2 ^ 8) 0, .flowOffset hd 0 0 (2 ^ 32), .cmpBind hd (2 ^ 8) 0 0 0 0, .cmpBind hd 0 (2 ^ 8) 0 0 0,
    .cmpBind hd 0 0 (2 ^ 8) 0 0, .cmpBind hd 0 0 0 (2 ^ 8) 0, .cmpBind hd 0 0 0 0 (2 ^ 32), .cmpLayout hd (2 ^ 8) 0 0,
    .cmpLayout hd 0 (2 ^ 16) 0, .cmpLayout hd 0 0 (2 ^ 32), .cmpGuard hd (2 ^ 8) 0 0, .cmpGuard hd 0 (2 ^ 16) 0,
    .cmpGuard hd 0 0 (2 ^ 32), .cmpFreeze hd (2 ^ 8) 0 0, .cmpFreeze hd 0 (2 ^ 8) 0, .cmpFreeze hd 0 0 (2 ^ 8),
    .cmpStatus hd (2 ^ 8) 0, .cmpStatus hd 0 (2 ^ 32), .cmpCoef hd (2 ^ 8) 0 0, .cmpCoef hd 0 (2 ^ 8) 0,
    .cmpCoef hd 0 0 (2 ^ 32), .audMix hd (2 ^ 16) 0 0 0, .audMix hd 0 (2 ^ 8) 0 0, .audMix hd 0 0 (2 ^ 8) 0,
    .audMix hd 0 0 0 (2 ^ 32), .audGroup hd (2 ^ 16) 0, .audGroup hd 0 (2 ^ 8), .audOffset hd (2 ^ 16) 0,
    .audOffset hd 0 (2 ^ 32)] = true := by
  decide +kernel

/-- A field one past the size that its table gives it; a command without fields has its port past the last. -/
theorem illformed_fields_four : noneFits
    [.audHistory hd (2 ^ 16) 0 0, .audHistory hd 0 (2 ^ 16) 0, .audHistory hd 0 0 (2 ^ 32), .audMeter hd (2 ^ 16) 0 0 0,
    .audMeter hd 0 (2 ^ 16) 0 0, .audMeter hd 0 0 (2 ^ 8) 0, .audMeter hd 0 0 0 (2 ^ 32), .audStatus hd (2 ^ 8) 0,
    .audStatus hd 0 (2 ^ 16), .audBankLoad hd (2 ^ 8) 0 0 0, .audBankLoad hd 0 (2 ^ 8) 0 0, .audBankLoad hd 0 0 (2 ^ 16) 0,
    .audBankLoad hd 0 0 0 (2 ^ 32), .audBankSwap hd (2 ^ 16), .audRate hd (2 ^ 8), .aptCfg hd (2 ^ 8) 0 0 0 0 0 0 0 0,
    .aptCfg hd 0 (2 ^ 8) 0 0 0 0 0 0 0, .aptCfg hd 0 0 (2 ^ 8) 0 0 0 0 0 0, .aptCfg hd 0 0 0 (2 ^ 8) 0 0 0 0 0,
    .aptCfg hd 0 0 0 0 (2 ^ 8) 0 0 0 0, .aptCfg hd 0 0 0 0 0 (2 ^ 8) 0 0 0, .aptCfg hd 0 0 0 0 0 0 (2 ^ 8) 0 0,
    .aptCfg hd 0 0 0 0 0 0 0 (2 ^ 32) 0, .aptCfg hd 0 0 0 0 0 0 0 0 (2 ^ 32), .aptRing hd (2 ^ 8) 0, .aptRing hd 0 (2 ^ 32),
    .aptStatus hd (2 ^ 8), .tmgRefCfg hd (2 ^ 8) 0 0 0 0 0 0 0 0 0 0 0, .tmgRefCfg hd 0 (2 ^ 8) 0 0 0 0 0 0 0 0 0 0,
    .tmgRefCfg hd 0 0 (2 ^ 8) 0 0 0 0 0 0 0 0 0, .tmgRefCfg hd 0 0 0 (2 ^ 8) 0 0 0 0 0 0 0 0,
    .tmgRefCfg hd 0 0 0 0 (2 ^ 32) 0 0 0 0 0 0 0, .tmgRefCfg hd 0 0 0 0 0 (2 ^ 16) 0 0 0 0 0 0,
    .tmgRefCfg hd 0 0 0 0 0 0 (2 ^ 16) 0 0 0 0 0, .tmgRefCfg hd 0 0 0 0 0 0 0 (2 ^ 32) 0 0 0 0,
    .tmgRefCfg hd 0 0 0 0 0 0 0 0 (2 ^ 32) 0 0 0, .tmgRefCfg hd 0 0 0 0 0 0 0 0 0 (2 ^ 16) 0 0,
    .tmgRefCfg hd 0 0 0 0 0 0 0 0 0 0 (2 ^ 8) 0, .tmgRefCfg hd 0 0 0 0 0 0 0 0 0 0 0 (2 ^ 31),
    .tmgRefCfg hd 0 0 0 0 0 0 0 0 0 0 0 (-2 ^ 31 - 1), .tmgLrefBind hd (2 ^ 8) 0 0, .tmgLrefBind hd 0 (2 ^ 8) 0,
    .tmgLrefBind hd 0 0 (2 ^ 8), .tmgSelCfg hd (2 ^ 8) 0 0 0 0, .tmgSelCfg hd 0 (2 ^ 8) 0 0 0, .tmgSelCfg hd 0 0 (2 ^ 8) 0 0,
    .tmgSelCfg hd 0 0 0 (2 ^ 8) 0, .tmgSelCfg hd 0 0 0 0 (2 ^ 8), .tmgApllCfg hd (2 ^ 8) 0 0 0, .tmgApllCfg hd 0 (2 ^ 8) 0 0,
    .tmgApllCfg hd 0 0 (2 ^ 32) 0, .tmgApllCfg hd 0 0 0 (2 ^ 32), .tmgClkoutCfg hd (2 ^ 8) 0 0 0 0 0 0 0 0,
    .tmgClkoutCfg hd 0 (2 ^ 8) 0 0 0 0 0 0 0, .tmgClkoutCfg hd 0 0 (2 ^ 8) 0 0 0 0 0 0, .tmgClkoutCfg hd 0 0 0 (2 ^ 8) 0 0 0 0 0,
    .tmgClkoutCfg hd 0 0 0 0 (2 ^ 32) 0 0 0 0, .tmgClkoutCfg hd 0 0 0 0 0 (2 ^ 8) 0 0 0,
    .tmgClkoutCfg hd 0 0 0 0 0 0 (2 ^ 8) 0 0, .tmgClkoutCfg hd 0 0 0 0 0 0 0 (2 ^ 16) 0] = true := by
  decide +kernel

/-- A field one past the size that its table gives it; a command without fields has its port past the last. -/
theorem illformed_fields_five : noneFits
    [.tmgClkoutCfg hd 0 0 0 0 0 0 0 0 (2 ^ 31), .tmgClkoutCfg hd 0 0 0 0 0 0 0 0 (-2 ^ 31 - 1), .tmgWclkCfg hd (2 ^ 8) 0 0 0 0,
    .tmgWclkCfg hd 0 (2 ^ 8) 0 0 0, .tmgWclkCfg hd 0 0 (2 ^ 8) 0 0, .tmgWclkCfg hd 0 0 0 (2 ^ 8) 0,
    .tmgWclkCfg hd 0 0 0 0 (2 ^ 31), .tmgWclkCfg hd 0 0 0 0 (-2 ^ 31 - 1), .tmgStatus hd (2 ^ 8), .tmgClassMap hd (2 ^ 32),
    .tmgLoopCfg hd (2 ^ 8) 0 0 0 0 0 0 0 0, .tmgLoopCfg hd 0 (2 ^ 8) 0 0 0 0 0 0 0, .tmgLoopCfg hd 0 0 (2 ^ 16) 0 0 0 0 0 0,
    .tmgLoopCfg hd 0 0 0 (2 ^ 32) 0 0 0 0 0, .tmgLoopCfg hd 0 0 0 0 (2 ^ 16) 0 0 0 0, .tmgLoopCfg hd 0 0 0 0 0 (2 ^ 16) 0 0 0,
    .tmgLoopCfg hd 0 0 0 0 0 0 (2 ^ 16) 0 0, .tmgLoopCfg hd 0 0 0 0 0 0 0 (2 ^ 16) 0, .tmgLoopCfg hd 0 0 0 0 0 0 0 0 (2 ^ 16),
    .dtStep hd (2 ^ 63) 0 0, .dtStep hd 0 (2 ^ 31) 0, .dtStep hd 0 0 (2 ^ 8), .dtStep hd (-2 ^ 63 - 1) 0 0,
    .dtStep hd 0 (-2 ^ 31 - 1) 0, .dtCfg hd (2 ^ 8) 0, .dtCfg hd 0 (2 ^ 32), .dtStatus { hd with port := 2 },
    .ptpCfg hd (2 ^ 8) 0 0 0 0 0 0 0, .ptpCfg hd 0 (2 ^ 8) 0 0 0 0 0 0, .ptpCfg hd 0 0 (2 ^ 8) 0 0 0 0 0,
    .ptpCfg hd 0 0 0 (2 ^ 8) 0 0 0 0, .ptpCfg hd 0 0 0 0 (2 ^ 16) 0 0 0, .ptpCfg hd 0 0 0 0 0 (2 ^ 8) 0 0,
    .ptpCfg hd 0 0 0 0 0 0 (2 ^ 64) 0, .ptpCfg hd 0 0 0 0 0 0 0 (2 ^ 128), .ptpPortCfg hd (2 ^ 8) 0 0 0 0 0 0 0 0 0,
    .ptpPortCfg hd 0 (2 ^ 8) 0 0 0 0 0 0 0 0, .ptpPortCfg hd 0 0 (2 ^ 8) 0 0 0 0 0 0 0, .ptpPortCfg hd 0 0 0 (2 ^ 7) 0 0 0 0 0 0,
    .ptpPortCfg hd 0 0 0 0 (2 ^ 7) 0 0 0 0 0, .ptpPortCfg hd 0 0 0 0 0 (2 ^ 8) 0 0 0 0, .ptpPortCfg hd 0 0 0 0 0 0 (2 ^ 7) 0 0 0,
    .ptpPortCfg hd 0 0 0 0 0 0 0 (2 ^ 31) 0 0, .ptpPortCfg hd 0 0 0 0 0 0 0 0 (2 ^ 31) 0,
    .ptpPortCfg hd 0 0 0 0 0 0 0 0 0 (2 ^ 31), .ptpPortCfg hd 0 0 0 (-2 ^ 7 - 1) 0 0 0 0 0 0,
    .ptpPortCfg hd 0 0 0 0 (-2 ^ 7 - 1) 0 0 0 0 0, .ptpPortCfg hd 0 0 0 0 0 0 (-2 ^ 7 - 1) 0 0 0,
    .ptpPortCfg hd 0 0 0 0 0 0 0 (-2 ^ 31 - 1) 0 0, .ptpPortCfg hd 0 0 0 0 0 0 0 0 (-2 ^ 31 - 1) 0,
    .ptpPortCfg hd 0 0 0 0 0 0 0 0 0 (-2 ^ 31 - 1), .dtPinCfg hd (2 ^ 8), .ptpServoCfg hd (2 ^ 8) 0 0,
    .ptpServoCfg hd 0 (2 ^ 32) 0, .ptpServoCfg hd 0 0 (2 ^ 32), .memStatus hd (2 ^ 8), .memRearm hd (2 ^ 8),
    .memPortCfg hd (2 ^ 8) 0, .memPortCfg hd 0 (2 ^ 16), .memFreeze hd (2 ^ 8) 0 0] = true := by
  decide +kernel

/-- A field one past the size that its table gives it; a command without fields has its port past the last. -/
theorem illformed_fields_six : noneFits
    [.memFreeze hd 0 (2 ^ 8) 0, .memFreeze hd 0 0 (2 ^ 32), .memCalSave hd (2 ^ 128), .pairStatus hd (2 ^ 8) 0,
    .pairStatus hd 0 (2 ^ 32), .pairChangeover hd (2 ^ 8) 0, .pairChangeover hd 0 (2 ^ 16), .pairCfg hd (2 ^ 8) 0 0 0 0,
    .pairCfg hd 0 (2 ^ 8) 0 0 0, .pairCfg hd 0 0 (2 ^ 8) 0 0, .pairCfg hd 0 0 0 (2 ^ 16) 0, .pairCfg hd 0 0 0 0 (2 ^ 16),
    .pairDrill { hd with port := 2 }, .pairForce hd (2 ^ 8), .pwrStatus { hd with port := 2 }, .pwrDen { hd with port := 2 },
    .pwrWakePartner { hd with port := 2 }, .pwrCfg hd (2 ^ 16) 0, .pwrCfg hd 0 (2 ^ 8), .updStatus { hd with port := 2 },
    .updActivate hd (2 ^ 8), .updConfirm { hd with port := 2 }, .updRestart { hd with port := 2 }, .updSvcCfg hd (2 ^ 8),
    .updFuse { hd with port := 2 }, .calRead hd (2 ^ 8) 0, .calRead hd 0 (2 ^ 32), .calWrite hd (2 ^ 8) 0,
    .calWrite hd 0 (2 ^ 32)] = true := by
  decide +kernel

/-- A unit one past the last. -/
theorem illformed_units_one : noneFits
    [.mbxCmdTailWrite 2 0 0, .mbxCmdTailWrite 0 64 0, .mbxHareTailWrite 2 0 0, .mbxHareTailWrite 0 64 0, .mbxRespHeadWrite 2 0 0,
    .mbxRespHeadWrite 0 64 0, .mbxEvtHeadWrite 2 0 0, .mbxEvtHeadWrite 0 64 0, .mbxAllocReqGo 2, .sysRemapWrite 11 0,
    .busAccWrite 11 0 0, .busAccWrite 0 37 0, .busLockWrite 11 0, .busErrInfoClear 11 0, .dtStatJumpClear 11 0,
    .rcCounterRead 11 0, .rcCounterRead 0 (2 ^ 40), .latchingRead 11 0, .latchingRead 0 (2 ^ 40), .registerWrite 11 0 0,
    .registerWrite 0 (2 ^ 40) 0, .defaultTargetAccess 11 0 false 0, .defaultTargetAccess 0 (2 ^ 40) false 0,
    .busTargetTimeout 11 0 false, .busTargetTimeout 0 (2 ^ 40) false, .hostLinkDown 2, .planeCutoff 16, .stagingComplete 16 0,
    .planeSwitchPoint 16, .catchUpCopyComplete 16, .routeOnAir 16, .frameBufferReturn 2400 0, .frameBufferReturn 0 16,
    .outputRelease 2304 0 false, .isLineArrival 2304 none,
    .isFrameComplete 2304 {}, .isReadDecision 2048, .isSourceLost 2304, .wlFrameReceive 160 {},
    .wlBlockReceive 160 none, .wlPositionTransmit 160 0, .wlBlockRelease 160, .wlSlotIdle 144 0,
    .wlSlotIdle 0 8, .wlLaneDown 160, .wlModeTryTimeout 160, .laneReady 224, .laneLock 224, .laneLockLoss 224 false,
    .laneRateChangeDone 224, .eyeScanComplete 224 [], .ethFrameReceive 64 [] false {},
    .ethLinkChange 64 false false false false, .ethPacketRelease 64 false, .flowLineRelease 16384 0 0, .flowAudioRelease 16384,
    .flowLatenessCheck 16384, .protectionPathLost 16384, .flowSwapRelease 1152] = true := by
  decide +kernel

/-- A unit one past the last. -/
theorem illformed_units_two : noneFits
    [.stateChangeReportRepeat 64 [], .queryResponse 64, .nextHopRefresh 64, .cmpLayoutInstant 32 [],
    .audioInputFrame 2304, .audioInputFrame 2399, .audioInputFrame 2432, .audioOutputSample 65536 0,
    .audBankWhole 16, .aptFsyncEdge 32 0 [], .aptClockLost 32, .refEvent 14 0 0, .qlMessage 4 [] false, .qlTimeout 4,
    .candidateMeasurement 14 [], .candidateAbsent 14, .apllLock 8, .apllBypass 8, .apllBypassReturn 8, .clkoutGrantEnable 12,
    .dtMatch 8, .ptpMessageSend 16 0 {}, .announceReceiptTimeout 16, .memParityAlert 128, .memRemap 128,
    .memPoisonedRead 128 0 0 .other, .memPoisonedRead 0 83 0 .other, .patrolScrub 128 0 0, .memRefresh 4 0 false,
    .memFreezeTimeout 128, .leaseExpiry 64, .sessionOpeningTimeout 64, .expertGrantExpiry 64, .irqDelayExpiry 64,
    .watchdogExpiry 6, .journalFull 64, .xlBlockReceive 2 (.beat {}), .heartbeatMiss 3, .wakeEvent 0, .wakeEvent 6,
    .supplyOutOfRange 8 0, .supplyOutOfRange 0 0, .powerOnReset 2, .svcSendTimeout 64 0, .flashWriteComplete 2 none] = true := by
  decide +kernel

end Sys2Proof.Tests
end

/-! SUPPORT. The queue: each command runs one function of the machine, guarded by its well-formedness. -/
namespace Sys2Proof.Machine
open Sys2Proof.Safety

/-! ### One command -/

/-- A guard that equals the command's well-formedness may stand for it. -/
theorem exists_runIf_of_guard {i : Instr} {b : Bool} {f : Mach → Mach} (hb : i.wf = b) (h : ∀ s, exec i s = runIf b f s) :
    ∃ f : Mach → Mach, ∀ s, exec i s = runIf i.wf f s :=
  ⟨f, fun s => by rw [hb, h]⟩

/-- Every master's register writes have an address that fits the matrix. -/
theorem decide_master (master : Nat) : decide (master ≤ 10) = busOk master 0 := by simp [busOk]

/-- Every command runs a function of the machine that does not see the queue, exactly if the command is well-formed. The guard of
a host command and of an event of one unit is its well-formedness by definition; an event of two units joins two guards. -/
theorem exec_eq_runIf (i : Instr) : ∃ f : Mach → Mach, ∀ s, exec i s = runIf i.wf f s := by
  cases i with
  | mbxCmdTailWrite | mbxHareTailWrite | mbxRespHeadWrite | mbxEvtHeadWrite | rcCounterRead | latchingRead | registerWrite
  | defaultTargetAccess | busTargetTimeout | frameBufferReturn | wlSlotIdle | memPoisonedRead =>
    exact exists_runIf_of_guard (Bool.decide_and _ _) fun _ => rfl
  | sysRemapWrite master | busLockWrite master | busErrInfoClear master | dtStatJumpClear master =>
    exact exists_runIf_of_guard (decide_master master) fun _ => rfl
  | busAccWrite master target =>
    exact exists_runIf_of_guard ((Bool.decide_and _ _).trans (congrArg (· && _) (decide_master master))) fun _ => rfl
  | bmcI2cAccess dev addr =>
    have h : true = busOk 10 (addr % 2 ^ 32) := by simp [busOk]; omega
    exact exists_runIf_of_guard h fun _ => rfl
  | audioInputFrame group =>
    exact exists_runIf_of_guard ((Bool.decide_or _ _).trans (congrArg (_ || ·) (Bool.decide_and _ _))) fun _ => rfl
  | _ => exact ⟨_, fun _ => rfl⟩

/-- A well-formed command answers a next state with the queue as it was. -/
theorem exec_of_wf {i : Instr} (h : i.wf = true) (s : State) : Answers i s fun t => t.pending = s.pending := by
  obtain ⟨f, hf⟩ := exec_eq_runIf i
  exact ⟨{ s with toMach := f s.toMach }, by rw [hf, h, runIf_true], rfl⟩

/-- A command that is not well-formed is refused for naming no unit. -/
theorem exec_of_not_wf {i : Instr} (h : i.wf = false) (s : State) : exec i s = .refused .noSuchUnit := by
  obtain ⟨f, hf⟩ := exec_eq_runIf i
  rw [hf, h, runIf_false]

/-! ### A step and a run -/

/-- A step from a queue of well-formed commands answers a next state and takes the front command off the queue. -/
theorem step_of_queueOk {s : State} (h : queueOk s = true) : ∃ t, step s = .next t ∧ t.pending = s.pending.tail := by
  cases hq : s.pending with
  | nil => exact ⟨s, step_idle s hq, hq⟩
  | cons c rest =>
    have hc : c.wf = true := by simp only [queueOk, hq, List.all_cons, Bool.and_eq_true] at h; exact h.1
    obtain ⟨t, ht, hp⟩ := exec_of_wf hc { s with pending := rest }
    exact ⟨t, by simpa only [step, hq] using ht, hp⟩

/-- What is left of a queue of well-formed commands is one. -/
theorem queueOk_of_tail {s t : State} (h : queueOk s = true) (ht : t.pending = s.pending.tail) : queueOk t = true := by
  simp only [queueOk, ht, List.all_eq_true] at h ⊢
  exact fun i hi => h i (List.mem_of_mem_tail hi)

/-- No run from a queue of well-formed commands stops; `k` steps take `k` commands. -/
theorem run_of_queueOk (k : Nat) {s : State} (h : queueOk s = true) : ∃ t, core.run k s = .next t ∧ t.pending = s.pending.drop k := by
  induction k generalizing s with
  | zero => exact ⟨s, rfl, rfl⟩
  | succ k ih =>
    obtain ⟨u, hu, hq⟩ := step_of_queueOk h
    obtain ⟨t, ht, hp⟩ := ih (queueOk_of_tail h hq)
    refine ⟨t, ?_, by rw [hp, hq, List.drop_tail]⟩
    have hs : core.step s = .next u := hu
    simp only [Host.Core.run, hs, ht]

end Sys2Proof.Machine

namespace Sys2Proof.Proofs
open Sys2Proof.Machine

/-- Settles O2: each command is one guarded function of the machine, and the guard is its well-formedness. -/
theorem wellFormedCommandsComplete : Obligations.WellFormedCommandsComplete := by
  unfold Obligations.WellFormedCommandsComplete
  exact fun i s => ⟨fun h => exec_of_wf h s, fun h => exec_of_not_wf h s⟩

/-- Settles O3: a step keeps the queue's invariant, and a run is followed by induction on its length. -/
theorem wellFormedQueueNeverStops : Obligations.WellFormedQueueNeverStops := by
  unfold Obligations.WellFormedQueueNeverStops
  refine ⟨fun s h => ?_, fun k s h => run_of_queueOk k h⟩
  obtain ⟨t, ht, hp⟩ := step_of_queueOk h
  exact ⟨t, ht, queueOk_of_tail h hp, hp⟩

end Sys2Proof.Proofs

/-! SUPPORT. Fault records: which keys the table holds after a fault, and that a fault below C3 leaves the power states alone. -/
namespace Sys2Proof.Machine
open Sys2Proof.Safety

/-! ### What the grave actions and the snapshot triggers leave alone -/

@[simp] theorem setRole_flt (m : Mach) (r : Nat) : (setRole m r).flt = m.flt := by
  unfold setRole; dsimp only; split <;> rfl

@[simp] theorem fallRole_flt (m : Mach) : (fallRole m).flt = m.flt := by
  unfold fallRole
  split
  · rw [sameButCtl_pairEvt (setRole m 0) 0]; exact setRole_flt m 0
  · exact setRole_flt m 0

@[simp] theorem snapTrigger_flt (m : Mach) (k : Nat) (w : BitVec 64) : (snapTrigger m k w).1.flt = m.flt := by
  unfold snapTrigger
  split
  · dsimp only; split <;> rfl
  · split <;> rfl

@[simp] theorem snapTrigger_pwr (m : Mach) (k : Nat) (w : BitVec 64) : (snapTrigger m k w).1.pwr = m.pwr := by
  unfold snapTrigger
  split
  · dsimp only; split <;> rfl
  · split <;> rfl

@[simp] theorem faultEvt_flt (m : Mach) (w : BitVec 64) (c : Nat) : (faultEvt m w c).flt = m.flt := by
  rw [show faultEvt m w c = _ from sameButCtl_event _ _ _ _ _]

@[simp] theorem faultEvt_pwr (m : Mach) (w : BitVec 64) (c : Nat) : (faultEvt m w c).pwr = m.pwr := by
  rw [show faultEvt m w c = _ from sameButCtl_event _ _ _ _ _]

/-- Reaching a class leaves the records alone (R524). -/
@[simp] theorem reached_recs (m : Mach) (old : Nat) (had : Bool) (r : FaultRec) : (reached m old had r).flt.recs = m.flt.recs := by
  unfold reached
  dsimp only
  split_ifs <;> simp

/-- Only a record that newly reaches C3 moves the power states (R420, R524). -/
theorem reached_pwr (m : Mach) {old : Nat} {had : Bool} {r : FaultRec} (h : r.cls = 3 → had = true ∧ 3 ≤ old) :
    (reached m old had r).pwr = m.pwr := by
  have hup : ((!had || decide (old < r.cls)) && r.cls == 3) = false := by
    by_cases h3 : r.cls = 3
    · obtain ⟨hh, ho⟩ := h h3
      simp [hh, h3, ho]
    · simp [h3]
  unfold reached
  simp only [hup, Bool.false_eq_true, if_false]
  split <;> simp

/-- A message below C3 brings no record to C3 that was not there (R521). -/
theorem FaultRec.cls_join_lt {r : FaultRec} {f : Flt} {msg : BitVec 64} {stamp cls : Nat} {cond inj : Bool} (hc : cls ≤ 2)
    (h : (r.join f msg stamp cls cond inj).cls = 3) : 3 ≤ r.cls := by
  have hb : (r.join f msg stamp cls cond inj).base = max r.base cls := rfl
  unfold FaultRec.cls at *
  split_ifs at * <;> omega

theorem recordMsg_pwr (m : Mach) (src kind : Nat) {cls : Nat} (msg : BitVec 64) (cond inj : Bool) (hc : cls ≤ 2) :
    (recordMsg m src kind cls msg cond inj).1.pwr = m.pwr := by
  unfold recordMsg
  dsimp only
  split
  · exact reached_pwr _ fun h => ⟨rfl, FaultRec.cls_join_lt hc h⟩
  · have new (r : FaultRec) (hr : r.base = cls) (he : r.escalated = false) : r.cls = 3 → false = true ∧ 3 ≤ 0 := by
      intro h; simp only [FaultRec.cls, he, hr, Bool.false_eq_true, if_false] at h; omega
    split
    · exact reached_pwr _ (new _ rfl rfl)
    · split
      · rfl
      · split
        · exact reached_pwr _ (new _ rfl rfl)
        · split
          · exact reached_pwr _ fun h => ⟨rfl, FaultRec.cls_join_lt hc h⟩
          · exact reached_pwr _ (new _ rfl rfl)

/-- A fault below C3 leaves the power states alone. -/
theorem raise_pwr (m : Mach) (src kind : Nat) {cls : Nat} (addr : Nat) (hc : cls ≤ 2) : (raise m src kind cls addr).pwr = m.pwr := by
  unfold raise takeFault
  dsimp only
  split
  · simp only [faultEvt_pwr, settleGrants_pwr, recordMsg_pwr _ _ _ _ _ _ hc]
  · simp only [settleGrants_pwr, recordMsg_pwr _ _ _ _ _ _ hc]

/-! ### The keys of the fault table -/

/-- What tells a record from the others: its source, its kind, and whether it is the overflow record (R518, R519). -/
def FaultRec.key (r : FaultRec) : Nat × Nat × Bool := (r.src, r.kind, r.overflow)

/-- The keys of the fault table. -/
def faultKeys (m : Mach) : List (Nat × Nat × Bool) := m.flt.recs.map FaultRec.key

theorem recorded_iff (m : Mach) (src kind : Nat) : recorded m src kind = true ↔ (src, kind, false) ∈ faultKeys m := by
  simp only [recorded, faultKeys, FaultRec.key, List.any_eq_true, List.mem_map, Bool.and_eq_true, beq_iff_eq,
    Bool.not_eq_true', Prod.mk.injEq, and_assoc]

/-- A record of a source and kind is found exactly if the table holds one. -/
theorem recIdx_isSome (m : Mach) (src kind : Nat) : (recIdx m src kind).isSome = recorded m src kind := by
  simp [recIdx, recorded]

/-- A change of one record that keeps its key keeps all keys. -/
theorem map_key_lmod (l : List FaultRec) (i : Nat) (r : FaultRec) (h : ∀ x, l[i]? = some x → r.key = x.key) :
    (lmod l i fun _ => r).map FaultRec.key = l.map FaultRec.key := by
  apply List.ext_getElem?
  intro j
  rw [List.getElem?_map, List.getElem?_map, lmod_getElem?]
  split_ifs with hj
  · subst hj
    cases hx : l[j]? with
    | none => rfl
    | some x => simp [h x hx]
  · rfl

/-- While the table has room, a message of a key that it holds joins the record; another adds its key (R518, R519). -/
theorem faultKeys_recordMsg (m : Mach) (src kind cls : Nat) (msg : BitVec 64) (cond inj : Bool) (h : tableRoom m = true) :
    faultKeys (recordMsg m src kind cls msg cond inj).1 =
      if recorded m src kind then faultKeys m else faultKeys m ++ [(src, kind, false)] := by
  have hroom : (m.flt.recs.filter fun r => !r.overflow).length < 2048 :=
    lt_of_le_of_lt (List.length_filter_le _ _) (by simpa [tableRoom] using h)
  unfold recordMsg
  dsimp only
  split
  case h_1 i hi =>
    have hany : recorded m src kind = true := by rw [← recIdx_isSome, hi]; rfl
    simp only [hany, if_true, faultKeys, reached_recs]
    exact map_key_lmod _ _ _ fun x hx => by simp [lget, hx, FaultRec.key, FaultRec.join]
  case h_2 hi =>
    have hany : recorded m src kind = false := by rw [← recIdx_isSome, hi]; rfl
    simp [hany, hroom, faultKeys, FaultRec.key]

/-- A suppressed message is noted in its record, whose key stays (R520). -/
theorem map_key_supp (l : List FaultRec) (p : FaultRec → Bool) (w : Option (BitVec 64)) :
    (l.map fun x => if p x then { x with supp := w } else x).map FaultRec.key = l.map FaultRec.key := by
  rw [List.map_map]
  refine List.map_congr_left fun x _ => ?_
  simp only [Function.comp_apply]
  split <;> rfl

theorem faultKeys_raise (m : Mach) (src kind cls addr : Nat) (h : tableRoom m = true) :
    faultKeys (raise m src kind cls addr) = if recorded m src kind then faultKeys m else faultKeys m ++ [(src, kind, false)] := by
  unfold raise takeFault
  dsimp only
  generalize hx : recordMsg _ src kind cls _ _ _ = x
  have hkeys : faultKeys x.1 = if recorded m src kind then faultKeys m else faultKeys m ++ [(src, kind, false)] := by
    rw [← hx]; exact faultKeys_recordMsg _ _ _ _ _ _ _ h
  rw [← hkeys]
  split
  · simp [faultKeys]
  · cases x.2 with
    | none => rfl
    | some r => exact map_key_supp _ _ _

/-- With room in the table a fault leaves a record of its source and kind. -/
theorem recorded_raise (m : Mach) (src kind cls addr : Nat) (h : tableRoom m = true) :
    recorded (raise m src kind cls addr) src kind = true := by
  rw [recorded_iff, faultKeys_raise _ _ _ _ _ h]
  split_ifs with hr
  · exact (recorded_iff _ _ _).1 hr
  · simp

/-- With room in the table a fault displaces no record. -/
theorem recorded_raise_of_recorded {m : Mach} {src kind : Nat} (src' kind' cls addr : Nat) (h : tableRoom m = true)
    (hr : recorded m src kind = true) : recorded (raise m src' kind' cls addr) src kind = true := by
  rw [recorded_iff] at hr ⊢
  rw [faultKeys_raise _ _ _ _ _ h]
  split_ifs
  · exact hr
  · exact List.mem_append_left _ hr

/-- A fault takes at most one record of the table's room. -/
theorem tableRoom_raise {m : Mach} (src kind cls addr : Nat) (h : m.flt.recs.length < 2047) :
    tableRoom (raise m src kind cls addr) = true := by
  have hk := congrArg List.length (faultKeys_raise m src kind cls addr (by simp only [tableRoom, decide_eq_true_eq]; omega))
  simp only [faultKeys, apply_ite List.length, List.length_append, List.length_map, List.length_singleton] at hk
  simp only [tableRoom, decide_eq_true_eq]
  split_ifs at hk <;> omega

end Sys2Proof.Machine

/-! SUPPORT. The bus matrix: where an access goes, what a register write does, what the default target answers. -/
namespace Sys2Proof.Machine
open Sys2Proof.Safety

/-! ### Commands of one bus access -/

/-- A guarded function of the machine whose guard holds takes the state where it leads. -/
theorem takes_of_runIf {i : Instr} {s : State} {b : Bool} {f : Mach → Mach} {m : Mach} (e : exec i s = runIf b f s) (hb : b = true)
    (h : f s.toMach = m) : Takes i s m := by
  rw [Takes, e, hb, runIf_true, h]

theorem answers_of_runIf {i : Instr} {s : State} {b : Bool} {f : Mach → Mach} {P : State → Prop} (e : exec i s = runIf b f s)
    (hb : b = true) (h : P { s with toMach := f s.toMach }) : Answers i s P :=
  ⟨_, by rw [e, hb, runIf_true], h⟩

theorem busOk_of {master a : Nat} (hm : master ≤ 10) (ha : a < 2 ^ 40) : busOk master a = true := by
  simp only [busOk, hm, ha, decide_true, Bool.and_self]

theorem busOk_zero {master : Nat} (hm : master ≤ 10) : busOk master 0 = true := busOk_of hm (by omega)

/-! ### Where an access goes -/

theorem targetOf_sysRemap : targetOf (regAddr 16 0x20) = some (16, 0x20) := by decide
theorem targetOf_busLock : targetOf (regAddr 17 0x10) = some (17, 0x10) := by decide
theorem targetOf_busErrInfo : targetOf (regAddr 17 0x28) = some (17, 0x28) := by decide
theorem targetOf_dtStat : targetOf (regAddr 30 0x10) = some (30, 0x10) := by decide

theorem targetOf_busAcc {k : Nat} (h : k < 37) : targetOf (regAddr 17 (0x100 + 4 * k)) = some (17, 0x100 + 4 * k) := by
  revert k; decide

theorem lt_of_isTarget {k : Nat} (h : isTarget k = true) : k < 37 := by
  simp only [isTarget, Bool.or_eq_true, Bool.and_eq_true, decide_eq_true_eq] at h; omega

/-- The cases of R442 that address and state tell are 0 to 5. -/
theorem busCase_le {m : Mach} {master a c : Nat} {write : Bool} (h : busCase m master a write = some c) : c ≤ 5 := by
  unfold busCase at h
  split at h
  · cases h; omega
  · dsimp only at h
    split_ifs at h <;> cases h <;> omega

/-- The machine once a matrix access has been answered without an error (R443). -/
def noError (m : Mach) : Mach := { m with bus := { m.bus with rerr := false } }

/-- A write that the matrix lets through to a register. -/
theorem busWrite_register {m : Mach} {master a t o : Nat} (v : Nat) (hc : busCase m master a true = none)
    (ht : targetOf a = some (t, o)) (h16 : 16 ≤ t) : busWrite master a v m = writeReg master t o a (v % 2 ^ 32) (noError m) := by
  simp only [busWrite, busWriteAs, hc, ht, h16, if_true, noError]

/-! ### The control registers (R444, R448, R453, R367) -/

theorem clearErr_eq (v : Nat) (m : Mach) :
    clearErr v m = { m with bus := { m.bus with errValid := m.bus.errValid && !bit v 31 } } := by
  unfold clearErr
  cases bit v 31 <;> simp

theorem jumpClear_eq (v : Nat) (m : Mach) : jumpClear v m = { m with dt := { m.dt with jump := m.dt.jump && !bit v 29 } } := by
  unfold jumpClear
  cases bit v 29 <;> simp

/-- A code that has been narrowed still has two bits. -/
theorem narrowed_lt {old new : Nat} (hn : new < 4) : narrowed old new < 4 := by
  unfold narrowed
  split <;> omega

/-- A number given by its base-4 digits, the least significant first. -/
def ofDigits4 (d : Nat → Nat) (n : Nat) : Nat := (List.range n).foldl (fun x i => x + d i * 4 ^ i) 0

theorem ofDigits4_succ (d : Nat → Nat) (n : Nat) : ofDigits4 d (n + 1) = ofDigits4 d n + d n * 4 ^ n := by
  simp [ofDigits4, List.range_succ]

theorem ofDigits4_lt {d : Nat → Nat} (hd : ∀ i, d i < 4) (n : Nat) : ofDigits4 d n < 4 ^ n := by
  induction n with
  | zero => simp [ofDigits4]
  | succ n ih =>
    rw [ofDigits4_succ, pow_succ]
    have := Nat.mul_le_mul_right (4 ^ n) (Nat.le_of_lt_succ (hd n))
    omega

/-- Each digit can be read back. -/
theorem ofDigits4_digit {d : Nat → Nat} (hd : ∀ i, d i < 4) {n i : Nat} (hi : i < n) : ofDigits4 d n / 4 ^ i % 4 = d i := by
  induction n with
  | zero => omega
  | succ n ih =>
    rw [ofDigits4_succ]
    rcases Nat.lt_succ_iff_lt_or_eq.1 hi with hlt | rfl
    · obtain ⟨k, rfl⟩ := Nat.exists_eq_add_of_lt hlt
      rw [show d (i + k + 1) * 4 ^ (i + k + 1) = 4 ^ i * (4 * (d (i + k + 1) * 4 ^ k)) by ring, Nat.add_mul_div_left _ _ (by positivity),
        Nat.add_mul_mod_self_left]
      exact ih hlt
    · rw [Nat.add_mul_div_right _ _ (by positivity), Nat.div_eq_of_lt (ofDigits4_lt hd _), Nat.zero_add, Nat.mod_eq_of_lt (hd _)]

/-- The digits below the eleventh do not see what a 32-bit register cuts off. -/
theorem digit_mod_word (v : Nat) {i : Nat} (hi : i < 11) : v % 2 ^ 32 / 4 ^ i % 4 = v / 4 ^ i % 4 := by
  obtain ⟨k, hk⟩ := Nat.exists_eq_add_of_lt (show i < 16 by omega)
  rw [show 2 ^ 32 = 4 ^ i * 4 ^ (k + 1) by rw [← pow_add, show i + (k + 1) = 16 by omega]; norm_num, Nat.mod_mul_right_div_self,
    pow_succ, Nat.mod_mul_left_mod]

/-- The access table of a target after a write (R453). -/
def narrowedTable (m : Mach) (t v : Nat) : Nat := ofDigits4 (fun i => narrowed (acc m t / 4 ^ i % 4) (v / 4 ^ i % 4)) 11

theorem writeAcc_eq {m : Mach} (master a : Nat) {t : Nat} (v : Nat) (hl : m.bus.lock = false) (ht : isTarget t = true) :
    writeAcc master a t v m = { m with bus := { m.bus with acc := tset m.bus.acc t (narrowedTable m t v) } } := by
  simp [writeAcc, hl, ht, narrowedTable, ofDigits4]

/-- A write of BUS_ACC_t by CP_0 while the tables are open. -/
theorem writeReg_busAcc {m : Mach} (a : Nat) {k : Nat} (v : Nat) (hl : m.bus.lock = false) (hk : isTarget k = true) :
    writeReg 0 17 (0x100 + 4 * k) a v m =
      { m with bus := { m.bus with acc := tset m.bus.acc k (narrowedTable m k v), rerr := false } } := by
  have hlt := lt_of_isTarget hk
  have hset : inSets (0x100 + 4 * k) 0x100 4 37 = some (k, 0) := by
    unfold inSets
    rw [if_pos (by omega)]
    simp
  simp only [writeReg, hset, onlyCp0, writeAcc_eq _ _ _ hl hk]
  rw [if_neg (by omega), if_neg (by omega)]
  rfl

/-! ### The default target (R442 to R444) -/

/-- The matrix registers after an access that nothing carries out: the first record is kept, the case's counter counts, and the
master reads zeros with an error, or all ones at a host. -/
def refusedBus (b : Bus) (master a : Nat) (write : Bool) (c : Nat) : Bus :=
  let host := (hostPort master).isSome
  { b with
    errValid := true
    errAddr := if b.errValid then b.errAddr else a
    errWrite := if b.errValid then b.errWrite else write
    errCase := if b.errValid then b.errCase else c
    errMaster := if b.errValid then b.errMaster else master
    errTarget := if b.errValid then b.errTarget else ((targetOf a).map (·.1)).getD 63
    deny := if c = 1 ∨ c = 2 ∨ c = 4 then sat b.deny 1 else b.deny
    timeout := if c = 6 then sat b.timeout 1 else b.timeout
    decode := if c = 1 ∨ c = 2 ∨ c = 4 ∨ c = 6 then b.decode else sat b.decode 1
    rerr := !host
    rdata := if write then b.rdata else if host then 0xFFFFFFFF else 0 }

theorem defaultTarget_eq (m : Mach) (master a : Nat) (write : Bool) (c : Nat) :
    defaultTarget m master a write c =
      let m' : Mach := { m with bus := refusedBus m.bus master a write c }
      (hostPort master).elim (raise m' 0xDD0 0x85 1 (a % 2 ^ 32)) fun p => fireVector m' p 64 := by
  unfold defaultTarget refusedBus
  cases hostPort master with
  | none => cases hv : m.bus.errValid <;> dsimp only [Option.elim] <;> congr 1 <;> split <;> simp_all
  | some p => cases hv : m.bus.errValid <;> dsimp only [Option.elim] <;> congr 1 <;> split <;> simp_all

/-- A host's access leaves its mark in the port's event alone. -/
theorem defaultTarget_of_host {master p : Nat} (hp : hostPort master = some p) (m : Mach) (a : Nat) (write : Bool) (c : Nat) :
    defaultTarget m master a write c = fireVector { m with bus := refusedBus m.bus master a write c } p 64 := by
  simp [defaultTarget_eq, hp]

/-- The access of any other master raises a fault. -/
theorem defaultTarget_of_module {master : Nat} (hp : hostPort master = none) (m : Mach) (a : Nat) (write : Bool) (c : Nat) :
    defaultTarget m master a write c =
      raise { m with bus := refusedBus m.bus master a write c } 0xDD0 0x85 1 (a % 2 ^ 32) := by
  simp [defaultTarget_eq, hp]

theorem raise_bus (m : Mach) (src kind cls addr : Nat) : (raise m src kind cls addr).bus = m.bus := by
  obtain ⟨-, -, -, -, -, -, -, -, -, -, -, -, hbus, -⟩ := apartFromFaults_raise m src kind cls addr
  exact hbus

theorem raise_xb (m : Mach) (src kind cls addr : Nat) : (raise m src kind cls addr).xb = m.xb := by
  obtain ⟨-, hxb, -⟩ := apartFromFaults_raise m src kind cls addr
  exact hxb

@[simp] theorem defaultTarget_bus (m : Mach) (master a : Nat) (write : Bool) (c : Nat) :
    (defaultTarget m master a write c).bus = refusedBus m.bus master a write c := by
  cases hp : hostPort master with
  | none => rw [defaultTarget_of_module hp, raise_bus]
  | some p => rw [defaultTarget_of_host hp, fireVector_bus]

@[simp] theorem defaultTarget_xb (m : Mach) (master a : Nat) (write : Bool) (c : Nat) :
    (defaultTarget m master a write c).xb = m.xb := by
  cases hp : hostPort master with
  | none => rw [defaultTarget_of_module hp, raise_xb]
  | some p => rw [defaultTarget_of_host hp, fireVector_xb]

@[simp] theorem defaultTarget_pwr (m : Mach) (master a : Nat) (write : Bool) (c : Nat) :
    (defaultTarget m master a write c).pwr = m.pwr := by
  cases hp : hostPort master with
  | none => rw [defaultTarget_of_module hp, raise_pwr _ _ _ _ (by omega)]
  | some p => rw [defaultTarget_of_host hp, fireVector_pwr]

/-- Masters up to the service port are no hosts (R438). -/
theorem hostPort_of_le {master : Nat} (h : master ≤ 6) : hostPort master = none := by
  unfold hostPort
  rw [if_neg (by omega), if_neg (by omega)]

/-! ### What each command does -/

/-- SYS_REMAP_WRITE by CP_0 only ever sets its bit (R448). -/
theorem sysRemapWrite_takes (s : State) (v : Nat) (h : busCase s.toMach 0 (regAddr 16 0x20) true = none) :
    Takes (.sysRemapWrite 0 v) s
      { s.toMach with bus := { s.bus with rerr := false, remap := s.bus.remap || bit (v % 2 ^ 32) 0 } } := by
  refine takes_of_runIf rfl (busOk_zero (Nat.zero_le _)) ?_
  rw [busWrite_register v h targetOf_sysRemap (by omega)]
  rfl

/-- BUS_LOCK_WRITE by CP_0 only ever sets its bit (R453). -/
theorem busLockWrite_takes (s : State) (v : Nat) (h : busCase s.toMach 0 (regAddr 17 0x10) true = none) :
    Takes (.busLockWrite 0 v) s
      { s.toMach with bus := { s.bus with rerr := false, lock := s.bus.lock || bit (v % 2 ^ 32) 0 } } := by
  refine takes_of_runIf rfl (busOk_zero (Nat.zero_le _)) ?_
  rw [busWrite_register v h targetOf_busLock (by omega)]
  simp [writeReg, onlyCp0, writeLock, noError]

/-- BUS_ACC_WRITE by CP_0 narrows the codes of its target alone (R453). -/
theorem busAccWrite_answers (s : State) (k v : Nat) (hk : isTarget k = true)
    (h : busCase s.toMach 0 (regAddr 17 (0x100 + 4 * k)) true = none) (hl : s.bus.lock = false) :
    Answers (.busAccWrite 0 k v) s fun t => t.toMach = { s.toMach with bus := { s.bus with rerr := false, acc := t.bus.acc } } ∧
      (∀ i < 11, acc t.toMach k / 4 ^ i % 4 = narrowed (acc s.toMach k / 4 ^ i % 4) (v / 4 ^ i % 4)) ∧
      ∀ j < 37, j ≠ k → acc t.toMach j = acc s.toMach j := by
  have hlt := lt_of_isTarget hk
  refine answers_of_runIf rfl (by simp [busOk, hlt]) ?_
  rw [busWrite_register v h (targetOf_busAcc hlt) (by omega), writeReg_busAcc (m := noError s.toMach) _ _ hl hk]
  refine ⟨rfl, fun i hi => ?_, fun j _ hj => tget_tset_other _ _ _ hj⟩
  simp only [acc, tget_tset_same, narrowedTable]
  rw [ofDigits4_digit (fun _ => narrowed_lt (Nat.mod_lt _ (by omega))) hi, digit_mod_word v hi]
  rfl

/-- BUS_ERR_INFO_CLEAR clears VALID where the written bit is 1 (R444). -/
theorem busErrInfoClear_takes (s : State) (master v : Nat) (hm : master ≤ 10)
    (h : busCase s.toMach master (regAddr 17 0x28) true = none) :
    Takes (.busErrInfoClear master v) s
      { s.toMach with bus := { s.bus with rerr := false, errValid := s.bus.errValid && !bit (v % 2 ^ 32) 31 } } := by
  refine takes_of_runIf rfl (busOk_zero hm) ?_
  rw [busWrite_register v h targetOf_busErrInfo (by omega)]
  simp [writeReg, clearErr_eq, noError]

/-- DT_STAT_JUMP_CLEAR clears JUMP where the written bit is 1 (R367). -/
theorem dtStatJumpClear_takes (s : State) (master v : Nat) (hm : master ≤ 10)
    (h : busCase s.toMach master (regAddr 30 0x10) true = none) :
    Takes (.dtStatJumpClear master v) s
      { s.toMach with bus := { s.bus with rerr := false }, dt := { s.dt with jump := s.dt.jump && !bit (v % 2 ^ 32) 29 } } := by
  refine takes_of_runIf rfl (busOk_zero hm) ?_
  rw [busWrite_register v h targetOf_dtStat (by omega)]
  simp [writeReg, jumpClear_eq, noError]

/-- An access that a case of R442 other than poison refuses goes to the default target. -/
theorem defaultAccess_of_case {m : Mach} {master a c : Nat} {write : Bool} (h : busCase m master a write = some c) (hc : c ≠ 5) :
    defaultAccess master a write m = defaultTarget m master a write c := by
  simp only [defaultAccess, h, if_neg hc]

/-- In the cases that address and state tell, denials count apart from accesses that reach nothing (R442, R444). -/
theorem refusedBus_of_le {c : Nat} (hc : c ≤ 4) (b : Bus) (master a : Nat) (write : Bool) :
    refusedBus b master a write c =
      let host := (hostPort master).isSome
      { b with
        errValid := true
        errAddr := if b.errValid then b.errAddr else a
        errWrite := if b.errValid then b.errWrite else write
        errCase := if b.errValid then b.errCase else c
        errMaster := if b.errValid then b.errMaster else master
        errTarget := if b.errValid then b.errTarget else ((targetOf a).map (·.1)).getD 63
        deny := if c = 1 ∨ c = 2 ∨ c = 4 then sat b.deny 1 else b.deny
        decode := if c = 0 ∨ c = 3 then sat b.decode 1 else b.decode
        rerr := !host
        rdata := if write then b.rdata else if host then 0xFFFFFFFF else 0 } := by
  have hd : (c = 1 ∨ c = 2 ∨ c = 4 ∨ c = 6) ↔ ¬(c = 0 ∨ c = 3) := by omega
  simp only [refusedBus, if_neg (show c ≠ 6 by omega), hd, ite_not]

/-- DEFAULT_TARGET_ACCESS in a case other than poison: record, counter, answer, and the fault or the host's event (R442 to R444). -/
theorem defaultTargetAccess_answers (s : State) (master a : Nat) (write : Bool) (v c : Nat) (hm : master ≤ 10) (ha : a < 2 ^ 40)
    (h : busCase s.toMach master a write = some c) (hc : c ≠ 5) (hroom : tableRoom s.toMach = true) :
    Answers (.defaultTargetAccess master a write v) s fun t => t.xb = s.xb ∧ t.pwr = s.pwr ∧
      t.bus = refusedBus s.bus master a write c ∧ ((hostPort master).isSome = false → recorded t.toMach 0xDD0 0x85 = true) ∧
      ∀ p, hostPort master = some p → tget 0 t.ctl.irqs (128 * p + 64) = tget 0 s.ctl.irqs (128 * p + 64) + 1 ∧ t.flt = s.flt := by
  refine answers_of_runIf rfl (busOk_of hm ha) ?_
  rw [defaultAccess_of_case h hc]
  refine ⟨defaultTarget_xb _ _ _ _ _, defaultTarget_pwr _ _ _ _ _, defaultTarget_bus _ _ _ _ _, fun hh => ?_, fun p hp => ?_⟩
  · rw [defaultTarget_of_module (Option.isNone_iff_eq_none.1 (by simpa using hh))]
    exact recorded_raise _ _ _ _ _ hroom
  · rw [defaultTarget_of_host hp]
    exact ⟨tget_tmod_same _ _ _ _ _, rfl⟩

/-- The machine once a master's access no longer waits at the memory controller (R443). -/
def withdrawn (master a : Nat) (write : Bool) (m : Mach) : Mach :=
  { m with mem := { m.mem with reqs := m.mem.reqs.filter fun r =>
      !(r.act.any fun x => x.1 == master && x.2.1 == a && x.2.2.isSome == write) } }

/-- A target that does not answer: its own fault, and then the default target's (R443). -/
theorem targetTimeout_eq {m : Mach} {master a t o : Nat} {write : Bool} (h : busCase m master a write = none)
    (ht : targetOf a = some (t, o)) :
    targetTimeout master a write m = defaultTarget (raise (withdrawn master a write m) 0xDD0 0x84 2 t) master a write 6 := by
  simp only [targetTimeout, h, ht, withdrawn]

/-- BUS_TARGET_TIMEOUT counts and leaves both faults on record (R443). -/
theorem busTargetTimeout_answers (s : State) (master a t o : Nat) (write : Bool) (hm : master ≤ 6) (ha : a < 2 ^ 40)
    (h : busCase s.toMach master a write = none) (ht : targetOf a = some (t, o)) (hroom : s.flt.recs.length < 2047) :
    Answers (.busTargetTimeout master a write) s fun u => u.xb = s.xb ∧ u.pwr = s.pwr ∧ u.bus.timeout = sat s.bus.timeout 1 ∧
      u.bus.rerr = true ∧ recorded u.toMach 0xDD0 0x84 = true ∧ recorded u.toMach 0xDD0 0x85 = true := by
  refine answers_of_runIf rfl (busOk_of (by omega) ha) ?_
  have hp := hostPort_of_le hm
  rw [targetTimeout_eq h ht]
  have hroom0 : tableRoom (withdrawn master a write s.toMach) = true :=
    decide_eq_true (show s.flt.recs.length < 2048 by omega)
  have hroom1 := tableRoom_raise (m := withdrawn master a write s.toMach) 0xDD0 0x84 2 t hroom
  have hrec := recorded_raise _ 0xDD0 0x84 2 t hroom0
  refine ⟨?_, ?_, ?_, ?_, ?_, ?_⟩
  · simp [raise_xb, withdrawn]
  · simp [raise_pwr, withdrawn]
  · simp [refusedBus, raise_bus, withdrawn]
  · simp [refusedBus, hp]
  · rw [defaultTarget_of_module hp]
    exact recorded_raise_of_recorded _ _ _ _ hroom1 hrec
  · rw [defaultTarget_of_module hp]
    exact recorded_raise _ _ _ _ _ hroom1

end Sys2Proof.Machine

namespace Sys2Proof.Proofs
open Sys2Proof.Machine

/-- Settles O25: a register's write by its own rule, and the default target by the record, the counter and the fault or event. -/
theorem busControlAndDefaultTargetAnswer : Obligations.BusControlAndDefaultTargetAnswer := by
  unfold Obligations.BusControlAndDefaultTargetAnswer
  refine ⟨sysRemapWrite_takes, busLockWrite_takes, busAccWrite_answers, busErrInfoClear_takes, dtStatJumpClear_takes, ?_,
    busTargetTimeout_answers⟩
  intro s master a write v c hm ha h hc hroom host
  obtain ⟨t, he, hxb, hpwr, hbus, hanswer⟩ := defaultTargetAccess_answers s master a write v c hm ha h hc hroom
  have hle := busCase_le h
  exact ⟨t, he, hxb, hpwr, hbus.trans (refusedBus_of_le (by omega) _ _ _ _), hanswer⟩

end Sys2Proof.Proofs

/-! SUPPORT. Reads and writes over the matrix: what a register read answers and latches, where a write of memory lands. -/
namespace Sys2Proof.Machine
open Sys2Proof.Safety

/-! ### Register reads (R4, R446) -/

/-- The machine once a matrix read has been answered with a value. -/
def readDone (m : Mach) (v : Nat) : Mach := { m with bus := { m.bus with rdata := v, rerr := false } }

/-- A read that the matrix lets through to a register. -/
theorem busRead_register {m : Mach} {master a t o : Nat} (hc : busCase m master a false = none) (ht : targetOf a = some (t, o))
    (h16 : 16 ≤ t) : busRead master a m = readDone (readReg m master t o a).1 (readReg m master t o a).2 := by
  simp only [busRead, busReadAs, hc, ht, h16, if_true, readDone]

/-- The key of an address among the halves that a master has latched. -/
def latchKey (master a : Nat) : Nat := 2 ^ 40 * master + a

/-- The halves latched after a read of a register at `a` with partners at `ds` further. -/
def latchAll (val : Nat → Nat) (master a : Nat) (ds : List Nat) (t : Tab Nat) : Tab Nat :=
  ds.foldl (fun t' d => tset t' (latchKey master (a + d)) (val d)) t

/-- A partner latched by the read holds its value then, however often it is named. -/
theorem tget_latchAll (val : Nat → Nat) (master a : Nat) {ds : List Nat} {d : Nat} (hd : d ∈ ds) (t : Tab Nat) :
    tget 0 (latchAll val master a ds t) (latchKey master (a + d)) = val d := by
  induction ds using List.reverseRecOn with
  | nil => simp at hd
  | append_singleton ds e ih =>
    simp only [latchAll, List.foldl_append, List.foldl_cons, List.foldl_nil] at ih ⊢
    by_cases he : d = e
    · rw [he, tget_tset_same]
    · rw [tget_tset_other _ _ _ (by unfold latchKey; omega)]
      exact ih (by simpa [he] using hd)

/-- What a read of a register without partners does: an RC field clears, but for a gentle master. -/
theorem readReg_rc {m : Mach} {master t o : Nat} (a : Nat) {f : Mach → Mach} (hf : (regIn m (hostPort master) t o).rc = some f)
    (hl : (regIn m (hostPort master) t o).latches = []) (hh : (regIn m (hostPort master) t o).half = false) :
    readReg m master t o a = (if gentle master then m else f m, (regIn m (hostPort master) t o).val) := by
  simp [readReg, hf, hl, hh]

/-- A read of a field that is not RC moves the latched halves alone. -/
theorem readReg_of_not_rc {m : Mach} {master t o : Nat} (a : Nat) (hf : (regIn m (hostPort master) t o).rc = none) :
    readReg m master t o a =
      let r := regIn m (hostPort master) t o
      ({ m with bus := { m.bus with
          latched := latchAll (fun d => (regIn m (hostPort master) t (o + d)).val) master a r.latches m.bus.latched } },
        if r.half then tget r.resetHalf m.bus.latched (latchKey master a) else r.val) := by
  simp only [readReg, hf, latchAll, latchKey]

/-- A gentle master's read of a register without partners moves nothing. -/
theorem readReg_gentle {m : Mach} {master t o : Nat} (a : Nat) (hg : gentle master = true)
    (hl : (regIn m (hostPort master) t o).latches = []) (hh : (regIn m (hostPort master) t o).half = false) :
    readReg m master t o a = (m, (regIn m (hostPort master) t o).val) := by
  cases hf : (regIn m (hostPort master) t o).rc with
  | none => simp [readReg_of_not_rc a hf, hl, hh, latchAll]
  | some f => simp [readReg_rc a hf hl hh, hg]

/-! ### Writes of memory (R372, R378, R449) -/

/-- The machine has changed in the memory controller alone. -/
def sameButMem (m m' : Mach) : Prop := m' = { m with mem := m'.mem }

theorem sameButMem.trans {a b c : Mach} (h : sameButMem a b) (k : sameButMem b c) : sameButMem a c := by
  unfold sameButMem at *; rw [k, h]

theorem sameButMem.ctl {m m' : Mach} (h : sameButMem m m') : m'.ctl = m.ctl := by
  unfold sameButMem at h; rw [h]

theorem sameButMem_spend (p bytes : Nat) (m : Mach) : sameButMem m (spend p bytes m) := rfl

theorem sameButMem_writePlace (x v : Nat) (m : Mach) : sameButMem m (writePlace x v m) := by
  unfold writePlace; split <;> rfl

theorem sameButMem_writePool (x v : Nat) (m : Mach) : sameButMem m (writePool x v m) := by
  unfold writePool
  split
  · exact (sameButMem_writePlace _ _ _).trans (sameButMem_writePlace _ _ _)
  · exact sameButMem_writePlace _ _ _

/-- An update of a pseudo-channel that keeps its service state moves no position in or out of service. -/
theorem lostPosition_setPc (m : Mach) (n : Nat) {f : Pc → Pc} (hf : ∀ p, (f p).st = p.st) (y : Nat) :
    lostPosition (setPc m n f) y = lostPosition m y := by
  unfold lostPosition
  by_cases h : pcOf y = n
  · rw [h, pc_setPc_same, hf]
  · rw [pc_setPc_other _ _ h]

theorem lostPosition_noteRetry (m : Mach) (write : Bool) (x y : Nat) : lostPosition (noteRetry m write x) y = lostPosition m y :=
  lostPosition_setPc m (pcOf x) (f := fun p => { p with retry := ((write, x, m.now) :: p.retry).take 64 }) (fun _ => rfl) y

/-- A write moves no position in or out of service. -/
theorem lostPosition_writePlace (x v y : Nat) (m : Mach) : lostPosition (writePlace x v m) y = lostPosition m y := by
  unfold writePlace
  split
  · rfl
  · have hwritten (p : Pc) : (if p.spare.isSome ∧ !p.written.contains (x / 2048) then { p with written := x / 2048 :: p.written }
        else p).st = p.st := by split <;> rfl
    exact (lostPosition_setPc _ _ hwritten y).trans (lostPosition_noteRetry m true x y)

/-- A lost position discards a write; another takes the bytes (R378). -/
theorem pool_writePlace (x v : Nat) (m : Mach) :
    (writePlace x v m).mem.pool = if lostPosition m x then m.mem.pool else mput m.mem.pool x (le 4 v) := by
  unfold writePlace
  split <;> rfl

/-- The pool after a write whose own position is in service: in the system area the other copy takes the bytes too, unless its
position is lost (R372, R378). -/
def poolAfter (m : Mach) (x v : Nat) : Mem :=
  let one := mput m.mem.pool x (le 4 v)
  if (decide (systemBase ≤ x ∧ x < systemBase + 2 ^ 31) && !lostPosition m (otherCopy x)) = true then mput one (otherCopy x) (le 4 v)
  else one

theorem pool_writePool {x : Nat} (v : Nat) {m : Mach} (h : lostPosition m x = false) :
    (writePool x v m).mem.pool = poolAfter m x v := by
  unfold writePool poolAfter
  by_cases hs : systemBase ≤ x ∧ x < systemBase + 2 ^ 31
  · rw [if_pos hs, decide_eq_true hs, Bool.true_and, pool_writePlace, pool_writePlace, lostPosition_writePlace, h]
    cases lostPosition m (otherCopy x) <;> rfl
  · rw [if_neg hs, decide_eq_false hs, Bool.false_and, pool_writePlace, h]
    rfl

/-! A write that the matrix lets through to a memory: the bytes land, or the access to a pool waits. -/

section
variable {m : Mach} {master a t o v : Nat} (hc : busCase m master a true = none) (ht : targetOf a = some (t, o)) (hv : v < 2 ^ 32)
include hc ht hv

theorem busWrite_work (h : t ≤ 1) :
    busWrite master a v m = { m with bus := { m.bus with rerr := false, work := mput m.bus.work o (le 4 v) } } := by
  obtain rfl | rfl : t = 0 ∨ t = 1 := by omega
  · simp only [busWrite, busWriteAs, hc, ht, Nat.mod_eq_of_lt hv, Nat.reduceLeDiff, if_false]
  · simp only [busWrite, busWriteAs, hc, ht, Nat.mod_eq_of_lt hv, Nat.reduceLeDiff, if_false]

theorem busWrite_jsram (h : t = 3) :
    busWrite master a v m = { m with bus := { m.bus with rerr := false, jsram := mput m.bus.jsram o (le 4 v) } } := by
  subst h
  simp only [busWrite, busWriteAs, hc, ht, Nat.mod_eq_of_lt hv, Nat.reduceLeDiff, if_false]

theorem busWrite_owl (h : t = 4) :
    busWrite master a v m = { m with bus := { m.bus with rerr := false, owl := mput m.bus.owl o (le 4 v) } } := by
  subst h
  simp only [busWrite, busWriteAs, hc, ht, Nat.mod_eq_of_lt hv, Nat.reduceLeDiff, if_false]

theorem busWrite_pool (h : 5 ≤ t ∧ t ≤ 8) :
    busWrite master a v m =
      if poolWaits m (a - 0x8000000000) then waitPool master a (some v) (noError m)
      else writePool (a - 0x8000000000) v (spend 81 4 (noError m)) := by
  have hw : poolWaits (noError m) (a - 0x8000000000) = poolWaits m (a - 0x8000000000) := rfl
  obtain rfl | rfl | rfl | rfl : t = 5 ∨ t = 6 ∨ t = 7 ∨ t = 8 := by omega
  all_goals simp only [busWrite, busWriteAs, hc, ht, Nat.mod_eq_of_lt hv, Nat.reduceLeDiff, if_false, ← hw, noError, Bool.false_eq_true]
end

/-! ### What each command does -/

/-- RC_COUNTER_READ answers the counter and clears it, but for a gentle master (R4, R446). -/
theorem rcCounterRead_takes (s : State) (master a t o : Nat) (f : Mach → Mach) (hm : master ≤ 10) (ha : a < 2 ^ 40)
    (hc : busCase s.toMach master a false = none) (ht : targetOf a = some (t, o)) (h16 : 16 ≤ t)
    (hf : (regIn s.toMach (hostPort master) t o).rc = some f) (hl : (regIn s.toMach (hostPort master) t o).latches = [])
    (hh : (regIn s.toMach (hostPort master) t o).half = false) :
    Takes (.rcCounterRead master a) s
      (readDone (if gentle master then s.toMach else f s.toMach) (regIn s.toMach (hostPort master) t o).val) := by
  refine takes_of_runIf rfl (busOk_of hm ha) ?_
  rw [busRead_register hc ht h16, readReg_rc a hf hl hh]

/-- LATCHING_READ keeps the partner halves for its master, which reads a half as it was kept (R446). -/
theorem latchingRead_answers (s : State) (master a t o : Nat) (hm : master ≤ 10) (ha : a < 2 ^ 40)
    (hc : busCase s.toMach master a false = none) (ht : targetOf a = some (t, o)) (h16 : 16 ≤ t)
    (hf : (regIn s.toMach (hostPort master) t o).rc = none) :
    Answers (.latchingRead master a) s fun u => u.toMach = { s.toMach with bus := u.bus } ∧
      let r := regIn s.toMach (hostPort master) t o
      u.bus.rdata = (if r.half then tget r.resetHalf s.bus.latched (2 ^ 40 * master + a) else r.val) ∧
      ∀ d ∈ r.latches, tget 0 u.bus.latched (2 ^ 40 * master + (a + d)) = (regIn s.toMach (hostPort master) t (o + d)).val := by
  refine answers_of_runIf rfl (busOk_of hm ha) ?_
  rw [busRead_register hc ht h16, readReg_of_not_rc a hf]
  exact ⟨rfl, rfl, fun d hd => tget_latchAll _ master a hd _⟩

/-- REGISTER_WRITE of a place outside the control block is the bus write alone: no ring waits to be served. -/
theorem registerWrite_takes {s : State} {master a v : Nat} {m : Mach} (hm : master ≤ 10) (ha : a < 2 ^ 40)
    (idle : ringsIdle s.toMach = true) (hw : busWrite master a v s.toMach = m) (hctl : m.ctl = s.ctl) :
    Takes (.registerWrite master a v) s m := by
  refine takes_of_runIf rfl (busOk_of hm ha) ?_
  rw [hw]
  exact engine_idle _ _ (by simpa only [ringsIdle, hctl] using idle)

theorem writeReg_rtSel (master a v : Nat) (m : Mach) :
    writeReg master 22 0x80 a v m = { m with xb := { m.xb with rtSel := bits v 31 31 * 2 ^ 31 + v % 4096 } } := rfl

theorem writeReg_isSel (master a v : Nat) (m : Mach) :
    writeReg master 23 0x20 a v m = { m with is_ := { m.is_ with sel := bits v 19 16 * 2 ^ 16 + v % 4096 } } := rfl

/-- A pool write that need not wait moves the memory controller alone, and leaves the pool as `poolAfter` says (R449). -/
theorem busWrite_pool_at_once {m : Mach} {master a t o v : Nat} (hc : busCase m master a true = none) (ht : targetOf a = some (t, o))
    (hv : v < 2 ^ 32) (h : 5 ≤ t ∧ t ≤ 8) {x : Nat} (hx : a - 0x8000000000 = x) (hw : poolWaits m x = false)
    (hin : lostPosition m x = false) : ∃ m', busWrite master a v m = m' ∧ sameButMem (noError m) m' ∧
      m'.mem.pool = poolAfter m x v := by
  refine ⟨writePool x v (spend 81 4 (noError m)), ?_, ?_, pool_writePool v hin⟩
  · rw [busWrite_pool hc ht hv h, hx, hw, if_neg Bool.false_ne_true]
  · exact (sameButMem_spend 81 4 (noError m)).trans (sameButMem_writePool x v _)

/-- The board-management port reads as the debug master, whose reads are never destructive (R446, R581). -/
theorem bmcRead_takes (s : State) (a t o : Nat) (hc : busCase s.toMach 10 (a % 2 ^ 32) false = none)
    (ht : targetOf (a % 2 ^ 32) = some (t, o)) (h16 : 16 ≤ t) (hh : (regIn s.toMach none t o).half = false)
    (hl : (regIn s.toMach none t o).latches = []) :
    Takes (.bmcI2cAccess (bmcAddress s.sys.slotId) a false) s (readDone s.toMach (regIn s.toMach none t o).val) := by
  refine takes_of_runIf rfl (busOk_of (by omega) (by omega)) ?_
  have hport : hostPort 10 = none := rfl
  simp only [bmcAccess, Bool.not_false, and_self, if_true]
  rw [busRead_register hc ht h16, readReg_gentle (master := 10) _ rfl (by rwa [hport]) (by rwa [hport]), hport]

/-- A write, or an access of another target, is not the board-management port's (R581). -/
theorem bmcAccess_other (s : State) (dev a : Nat) (write : Bool) (h : write = true ∨ dev ≠ bmcAddress s.sys.slotId) :
    Takes (.bmcI2cAccess dev a write) s s.toMach := by
  refine takes_of_runIf rfl (busOk_of (by omega) (by omega)) ?_
  refine if_neg fun hboth => ?_
  obtain ⟨hdev, hwrite⟩ := hboth
  rcases h with rfl | hne
  · simp at hwrite
  · exact hne hdev

end Sys2Proof.Machine

namespace Sys2Proof.Proofs
open Sys2Proof.Machine

/-- Settles O26: reads by the register's own rule, writes by the target that the address lies in. -/
theorem busAccessesTakeEffect : Obligations.BusAccessesTakeEffect := by
  unfold Obligations.BusAccessesTakeEffect
  refine ⟨rcCounterRead_takes, latchingRead_answers, ?_, bmcRead_takes, bmcAccess_other⟩
  intro s master a t o v hm ha hv idle hc ht bus
  refine ⟨?_, ?_, fun h => ?_, fun h => ?_, fun h => ?_, fun h => ?_, fun h => ?_⟩
  · rintro ⟨rfl, rfl⟩
    refine registerWrite_takes hm ha idle ?_ rfl
    rw [busWrite_register v hc ht (by omega), Nat.mod_eq_of_lt hv, writeReg_rtSel]
    rfl
  · rintro ⟨rfl, rfl⟩
    refine registerWrite_takes hm ha idle ?_ rfl
    rw [busWrite_register v hc ht (by omega), Nat.mod_eq_of_lt hv, writeReg_isSel]
    rfl
  · exact registerWrite_takes hm ha idle (busWrite_work hc ht hv h) rfl
  · exact registerWrite_takes hm ha idle (busWrite_jsram hc ht hv h) rfl
  · exact registerWrite_takes hm ha idle (busWrite_owl hc ht hv h) rfl
  · obtain ⟨h5, h8, hwait⟩ := h
    refine registerWrite_takes hm ha idle ?_ rfl
    rw [busWrite_pool hc ht hv ⟨h5, h8⟩, hwait, if_pos rfl]
    rfl
  · obtain ⟨h5, h8, hwait, hin⟩ := h
    obtain ⟨m, hm', hsame, hpool⟩ := busWrite_pool_at_once hc ht hv ⟨h5, h8⟩ rfl hwait hin
    exact ⟨_, registerWrite_takes hm ha idle hm' hsame.ctl, hsame, hpool⟩

end Sys2Proof.Proofs

/-! SUPPORT. The commit sequencer: which commands can be found to wait, and what a response and the outcome PENDING leave of the
journal and the rings. -/
namespace Sys2Proof.Machine
open Sys2Proof.Safety

/-! ### Posting writes sessions, windows, counters and interrupts alone -/

/-- The machine has changed in the sessions, their windows and counters and the messages sent alone. -/
def onlyPosts (m m' : Mach) : Prop :=
  m' = { m with ctl := { m.ctl with sessions := m'.ctl.sessions, windows := m'.ctl.windows, cnts := m'.ctl.cnts, irqs := m'.ctl.irqs } }

theorem onlyPosts.refl (m : Mach) : onlyPosts m m := rfl

theorem onlyPosts.trans {a b c : Mach} (h : onlyPosts a b) (k : onlyPosts b c) : onlyPosts a c := by
  unfold onlyPosts at *; rw [k, h]

theorem onlyPosts.journal {m m' : Mach} (h : onlyPosts m m') : m'.ctl.journal = m.ctl.journal := by rw [h]

theorem onlyPosts.ringsIdle {m m' : Mach} (h : onlyPosts m m') : ringsIdle m' = ringsIdle m := by rw [h]; rfl

theorem onlyPosts_setSes (m : Mach) (n : Nat) (f : Session → Session) : onlyPosts m (setSes m n f) := rfl
theorem onlyPosts_setWin (m : Mach) (n : Nat) (f : Window → Window) : onlyPosts m (setWin m n f) := rfl

theorem onlyPosts_signal (m : Mach) (n : Nat) : onlyPosts m (signal m n) := by
  unfold signal
  split
  · rfl
  · exact .refl m

theorem onlyPosts_noteEntry (m : Mach) (n : Nat) (now : Bool) : onlyPosts m (noteEntry m n now) := by
  unfold noteEntry
  dsimp only
  split
  · exact (onlyPosts_setSes m n _).trans (onlyPosts_signal _ n)
  · exact onlyPosts_setSes m n _

theorem onlyPosts_putResps (m : Mach) (n : Nat) (hare : Bool) (rs : List Resp) : onlyPosts m (putResps m n hare rs) := by
  induction rs generalizing m with
  | nil => exact .refl m
  | cons r rs ih => exact (((onlyPosts_setWin m n _).trans (onlyPosts_setSes _ n _)).trans (onlyPosts_noteEntry _ n _)).trans (ih _)

/-! ### Responses of a journalled command -/

/-- A change of an entry that keeps its JSEQ is found under that JSEQ. -/
theorem jentry?_setEntry_same (m : Mach) (j : Nat) {f : JEntry → JEntry} (hf : ∀ e, (f e).jseq = e.jseq) :
    jentry? (setEntry m j f) j = (jentry? m j).map f := by
  have hjseq (e : JEntry) : (if e.jseq = j then f e else e).jseq = e.jseq := by split <;> simp only [hf]
  have hfun : ((fun e : JEntry => e.jseq == j) ∘ fun e => if e.jseq = j then f e else e) = fun e => e.jseq == j := by
    funext e; simp only [Function.comp_apply, hjseq]
  simp only [jentry?, setEntry, List.find?_map, hfun]
  cases h : m.ctl.journal.find? fun e => e.jseq == j with
  | none => rfl
  | some e =>
    have he : e.jseq = j := by simpa using List.find?_some h
    simp only [Option.map_some, he, if_true]

theorem jentry?_of_journal {m m' : Mach} (h : m'.ctl.journal = m.ctl.journal) (j : Nat) : jentry? m' j = jentry? m j := by
  rw [jentry?, h]; rfl

theorem ringsIdle_setEntry (m : Mach) (j : Nat) (f : JEntry → JEntry) : ringsIdle (setEntry m j f) = ringsIdle m := rfl

/-- Posting moves no ring and no entry's PENDING mark (R404). -/
theorem postRoom_keeps (m : Mach) (e : JEntry) (rs : List Resp) (last : Bool) :
    ringsIdle (postRoom m e rs last) = ringsIdle m ∧
      (jentry? (postRoom m e rs last) e.jseq).map (·.waiting) = (jentry? m e.jseq).map (·.waiting) := by
  have room (m' : Mach) (f : JEntry → Nat) (h : onlyPosts m m') :
      ringsIdle (setEntry m' e.jseq fun x => { x with room := f x }) = ringsIdle m ∧
        (jentry? (setEntry m' e.jseq fun x => { x with room := f x }) e.jseq).map (·.waiting) = (jentry? m e.jseq).map (·.waiting) := by
    refine ⟨h.ringsIdle, ?_⟩
    rw [jentry?_setEntry_same (f := fun x => { x with room := f x }) _ _ fun _ => rfl, jentry?_of_journal h.journal, Option.map_map]
    rfl
  unfold postRoom
  split
  · exact room m (fun _ => 0) (.refl m)
  · dsimp only
    split
    · exact room _ (fun _ => 0) ((onlyPosts_putResps m _ _ _).trans (onlyPosts_setSes _ _ _))
    · exact room _ (fun x => x.room - rs.length) (onlyPosts_putResps m _ _ _)

/-! ### Which commands can wait (R411) -/

/-- The admission's answer is final: it is not PENDING. -/
def CRes.final : CRes → Bool
  | .wait _ => false
  | _ => true

@[simp] theorem CRes.final_refuse (st : Nat) (r : Ref) : (CRes.refuse st r).final = true := rfl
@[simp] theorem CRes.final_commit (m : Mach) (is : List Item) : (CRes.commit m is).final = true := rfl
@[simp] theorem CRes.final_arg : CRes.arg.final = true := rfl
@[simp] theorem CRes.final_conflict (k o : Nat) : (CRes.conflict k o).final = true := rfl
@[simp] theorem CRes.final_done (m : Mach) : (CRes.done m).final = true := rfl
@[simp] theorem final_overCp (m : Mach) (n : Nat) : (overCp m n).final = true := rfl
@[simp] theorem final_cyclesShort (m : Mach) (i : Nat) : (cyclesShort m i).final = true := rfl
@[simp] theorem final_poolShort (m : Mach) : (poolShort m).final = true := rfl
@[simp] theorem final_queueTiming (m : Mach) (x : Cmd) (d : List Byte) : (queueTiming m x d).final = true := rfl

@[simp] theorem final_fbShort (m : Mach) (i : Nat) : (fbShort m i).final = true := by unfold fbShort; split <;> simp
@[simp] theorem final_overDen (m : Mach) : (overDen m).final = true := by unfold overDen; dsimp only; split <;> simp

/-! A refusal that a step of the admission names is final. -/

theorem final_of_capStep {m : Mach} {hs : List Hold} {l : List (Nat × Hold)} {r : CRes} (h : capStep m hs l = some r) :
    r.final = true := by
  induction l generalizing hs with
  | nil => simp [capStep] at h
  | cons x rest ih =>
    simp only [capStep] at h
    split_ifs at h
    · cases h; simp
    · cases h; simp
    · exact ih h

theorem final_of_ownedTake {m : Mach} {me : Option Nat} {ts : List TakeRec} {r : CRes} (h : ownedTake m me ts = some r) :
    r.final = true := by
  obtain ⟨x, -, hx⟩ := List.exists_of_findSome?_eq_some h
  dsimp only at hx
  split at hx
  · split_ifs at hx; cases hx; rfl
  · cases hx

theorem final_of_lockedTake {m : Mach} {me : Option Nat} {ts : List TakeRec} {r : CRes} (h : lockedTake m me ts = some r) :
    r.final = true := by
  obtain ⟨x, -, hx⟩ := List.exists_of_findSome?_eq_some h
  obtain ⟨s, -, rfl⟩ := Option.map_eq_some_iff.1 hx
  rfl

theorem final_of_mixLocked {m : Mach} {ts : List TakeRec} {r : CRes} (h : mixLocked m ts = some r) : r.final = true := by
  obtain ⟨x, -, hx⟩ := List.exists_of_findSome?_eq_some h
  split_ifs at hx
  obtain ⟨s, -, rfl⟩ := Option.map_eq_some_iff.1 hx
  rfl

theorem final_of_rxConflict {m : Mach} {c : Nat} {d : Desc} {r : CRes} (h : rxConflict m c d = some r) : r.final = true := by
  have conflict {k o : Nat} (h : some (CRes.conflict k o) = some r) : r.final = true := by cases h; rfl
  unfold rxConflict at h
  extract_lets others lo at h
  split at h
  · exact conflict h
  · split_ifs at h
    split at h
    · exact conflict h
    · split at h
      · split_ifs at h; exact conflict h
      · cases h

/-- `rateLimit` is made a variable first: a product with a large factor, it would otherwise be computed in unary. -/
theorem final_of_flowShort {m m' : Mach} {r : CRes} (h : flowShort m m' = some r) : r.final = true := by
  have refuse {st : Nat} {x : Ref} (h : some (CRes.refuse st x) = some r) : r.final = true := by cases h; rfl
  obtain ⟨limit, hlimit⟩ : ∃ f, f = rateLimit := ⟨_, rfl⟩
  rw [(by delta flowShort; exact rfl : flowShort = _), ← hlimit] at h
  extract_lets overRate free at h
  split at h
  · exact refuse h
  · split at h
    · exact refuse h
    · split at h
      · exact refuse h
      · split_ifs at h
        · exact refuse h
        · exact refuse h

theorem final_of_bindConflict {m : Mach} {k : Nat} {r : CRes} (h : bindConflict m k = some r) : r.final = true := by
  unfold bindConflict at h
  repeat' split at h
  · cases h; rfl
  · cases h; rfl
  · obtain ⟨w, -, rfl⟩ := Option.map_eq_some_iff.1 h
    rfl

theorem final_of_admitRates {f0 f : Fmt} {old l : Layout} {recs : List (Nat × Option Win)} {r : CRes}
    (h : admitRates f0 f old recs l = .inr r) : r.final = true := by
  unfold admitRates at h
  dsimp only at h
  repeat' split at h
  all_goals cases h
  all_goals exact CRes.final_refuse _ _

theorem final_ite {p : Prop} [Decidable p] {a b : CRes} (ha : a.final = true) (hb : b.final = true) :
    (if p then a else b).final = true := by split <;> assumption

/-- A refusal, if there is one, else an answer: final if each is. -/
theorem final_refusalOr {o : Option CRes} {r : CRes} (ho : ∀ x, o = some x → x.final = true) (hr : r.final = true) :
    (match o with | some x => x | none => r).final = true := by
  cases o with
  | some x => exact ho x rfl
  | none => exact hr

theorem final_commitTakes (c : CCtx) (me : Option Nat) (ts : List TakeRec) (expected : Nat) (m : Mach) :
    (commitTakes c me ts expected m).final = true := by
  unfold commitTakes
  split
  · rfl
  · refine final_refusalOr (fun _ => final_of_ownedTake) (final_refusalOr (fun r h => ?_) (final_ite rfl
      (final_refusalOr (fun _ => final_of_capStep) rfl)))
    rcases Option.or_eq_some_iff.1 h with h | ⟨-, h⟩
    · exact final_of_lockedTake h
    · exact final_of_mixLocked h

theorem final_enableCtx (before m : Mach) (c : Nat) : (enableCtx before m c).final = true := by
  unfold enableCtx
  exact final_ite rfl (final_refusalOr (fun _ => final_of_flowShort) rfl)

theorem final_commitSrcMode (c : CCtx) (s mode flags hold : Nat) (m : Mach) : (commitSrcMode c s mode flags hold m).final = true := by
  unfold commitSrcMode
  refine final_ite rfl ?_
  split
  · rfl
  · refine final_refusalOr (fun r h => ?_) rfl
    split at h
    · exact final_of_capStep h
    · cases h

theorem final_commitDestBind (c : CCtx) (first count p : Nat) (m : Mach) : (commitDestBind c first count p m).final = true := by
  unfold commitDestBind
  refine final_ite rfl ?_
  split
  · rfl
  · extract_lets
    split
    · rfl
    · exact final_refusalOr (fun _ => final_of_capStep) rfl

theorem final_commitFlowDefine (cc : CCtx) (c op : Nat) (m : Mach) : (commitFlowDefine cc c op m).final = true := by
  unfold commitFlowDefine
  refine final_ite rfl (final_ite (final_ite rfl (final_ite rfl (final_refusalOr (fun r h => ?_) (final_ite rfl (final_enableCtx ..)))))
    (final_ite rfl (final_ite (final_ite rfl (final_enableCtx ..)) ?_)))
  · split at h
    · exact final_of_rxConflict h
    · cases h
  · split
    · rfl
    · refine final_ite rfl ?_
      split <;> rfl

theorem final_commitFlowOffset (c auto off : Nat) (m : Mach) : (commitFlowOffset c auto off m).final = true := by
  unfold commitFlowOffset
  exact final_ite rfl (final_refusalOr (fun _ => final_of_flowShort) rfl)

theorem final_commitFlowPort (cc : CCtx) (c p flags : Nat) (m : Mach) : (commitFlowPort cc c p flags m).final = true := by
  obtain ⟨short, hshort⟩ : ∃ f, f = flowShort := ⟨_, rfl⟩
  unfold commitFlowPort
  rw [← hshort]
  refine final_ite rfl (final_ite ?_ (final_ite rfl (final_ite rfl (final_ite rfl ?_))))
  · split <;> rfl
  · extract_lets +onlyGivenNames audio
    clear_value audio
    cases audio with
    | some k => rfl
    | none =>
      refine final_refusalOr (fun _ h => final_of_flowShort (hshort ▸ h)) ?_
      extract_lets
      split
      · rfl
      · exact final_ite rfl rfl

theorem final_commitCmpBind (k p dither audwin back : Nat) (m : Mach) : (commitCmpBind k p dither audwin back m).final = true := by
  unfold commitCmpBind
  refine final_ite rfl (final_ite rfl (final_ite rfl ?_))
  split
  next h => exact final_of_bindConflict h
  next =>
    split
    · rfl
    · split
      next h => exact final_of_admitRates h
      next => exact final_refusalOr (fun _ => final_of_capStep) rfl

theorem final_commitCmpFreeze (k w op : Nat) (m : Mach) : (commitCmpFreeze k w op m).final = true := by
  unfold commitCmpFreeze
  extract_lets
  split
  · rfl
  · refine final_ite rfl (final_ite rfl (final_ite (final_ite ?_ rfl) (final_refusalOr (fun _ => final_of_capStep) rfl)))
    split <;> rfl

theorem final_commitCmpLayout (c : CCtx) (k count : Nat) (m : Mach) : (commitCmpLayout c k count m).final = true := by
  unfold commitCmpLayout
  refine final_ite rfl ?_
  extract_lets
  split
  · rfl
  · extract_lets
    split
    next h => exact final_of_admitRates h
    next => exact final_refusalOr (fun _ => final_of_capStep) rfl

/-- Every command but the two bank swaps and PAIR_CHANGEOVER is refused or committed at once. -/
theorem commitCmd_final (c : CCtx) (cmd : Cmd) (m : Mach) (hp : ∀ p, cmd ≠ .bankSwap p) (hx : ∀ x, cmd ≠ .audBankSwap x)
    (hc : ∀ p w, cmd ≠ .pairChangeover p w) : (commitCmd c cmd m).final = true := by
  cases cmd with
  | bankSwap p => exact absurd rfl (hp p)
  | audBankSwap x => exact absurd rfl (hx x)
  | pairChangeover p w => exact absurd rfl (hc p w)
  | take => exact final_commitTakes ..
  | salvo =>
    dsimp only [commitCmd, commitSalvo]
    split
    · rfl
    · exact final_commitTakes ..
  | srcMode => exact final_commitSrcMode ..
  | destBind =>
    dsimp only [commitCmd]
    repeat' split
    · rfl
    · exact final_commitDestBind ..
    · exact final_commitDestBind ..
  | flowDefine => exact final_commitFlowDefine ..
  | flowPort => exact final_commitFlowPort ..
  | flowOffset => exact final_commitFlowOffset ..
  | cmpBind => exact final_commitCmpBind ..
  | cmpLayout => exact final_commitCmpLayout ..
  | cmpFreeze => exact final_commitCmpFreeze ..
  | protect | forceRelease | srcWarm | srcGroup | srcWindow | destAudio | genCfg | planeCfg | planeSwitch | sessionOpen |
    sessionClose | subscribe | expertGrant | sessionBudget | fltCfg | snpCfg | ethPortSplit | ethMacCfg | wakePattern |
    flowIf | cmpGuard | cmpCoef | audMix | audGroup | audOffset | audHistory | audMeter | audRate | aptCfg | aptRing |
    tmgRefCfg | tmgLrefBind | tmgSelCfg | tmgApllCfg | tmgClkoutCfg | tmgWclkCfg | tmgClassMap | tmgLoopCfg | dtCfg |
    ptpCfg | ptpPortCfg | dtPinCfg | ptpServoCfg | memPortCfg | pairCfg | pwrCfg | updSvcCfg =>
    dsimp only [commitCmd, commitProtect, commitForceRelease, commitSrcWarm, commitSrcGroup, commitSrcWindow,
      commitDestAudio, commitGenCfg, commitPlaneCfg, commitPlaneSwitch, commitSessionOpen, commitSessionClose,
      commitSubscribe, commitExpertGrant, commitSessionBudget, commitFltCfg, commitSnpCfg, commitEthPortSplit,
      commitEthMacCfg, commitWakePattern, commitFlowIf, commitCmpGuard, commitCmpCoef, commitAudMix, commitAudGroup,
      commitAudOffset, commitAudHistory, commitAudMeter, commitAudRate, commitAptCfg, commitAptRing, commitTmgRefCfg,
      commitTmgLrefBind, commitTmgSelCfg, commitTmgApllCfg, commitTmgClkoutCfg, commitTmgWclkCfg, commitTmgClassMap,
      commitTmgLoopCfg, commitDtCfg, commitPtpCfg, commitPtpPortCfg, commitDtPinCfg, commitPtpServoCfg, commitMemPortCfg,
      commitPairCfg, commitPwrCfg, commitUpdSvcCfg]
    repeat' split
    all_goals try simp only [CRes.final_refuse, CRes.final_arg, CRes.final_conflict, CRes.final_done, CRes.final_commit, final_overCp,
      final_cyclesShort, final_poolShort, final_queueTiming, final_fbShort, final_overDen]
  | _ => rfl

/-! BANK_SWAP and AUD_BANK_SWAP wait as they are; PAIR_CHANGEOVER has told the partner. -/

theorem commitBankSwap_wait {c : CCtx} {p : Nat} {m m' : Mach} (h : commitBankSwap c p m = .wait m') : m' = m := by
  have go (ts : List TakeRec) : (commitBankSwap.go c p m ts).final = true := by
    have hts := final_commitTakes c c.ses ts 0 m
    unfold commitBankSwap.go
    split
    · rfl
    · exact hts
  have final {r : CRes} (hr : r.final = true) (h : r = .wait m') : m' = m := by subst h; cases hr
  unfold commitBankSwap at h
  split at h
  · exact final rfl h
  · split at h
    · exact final rfl h
    · split at h
      · split at h
        · exact final (go _) h
        · exact final rfl h
      · split at h
        · exact (CRes.wait.inj h).symm
        · exact final (go _) h

theorem commitAudBankSwap_wait {c : CCtx} {k : Nat} {m m' : Mach} (h : commitAudBankSwap c k m = .wait m') : m' = m := by
  have final {r : CRes} (hr : r.final = true) (h : r = .wait m') : m' = m := by subst h; cases hr
  unfold commitAudBankSwap at h
  extract_lets at h
  split at h
  · exact final rfl h
  · split at h
    · exact final rfl h
    · split at h
      · exact final rfl h
      · split at h
        · exact final rfl h
        · exact (CRes.wait.inj h).symm

theorem startChange_ctl (m : Mach) (plane warmMax jseq : Nat) (byGrade : Bool) : (startChange m plane warmMax jseq byGrade).ctl = m.ctl :=
  xlSend_ctl _ _

theorem commitPairChangeover_wait {c : CCtx} {p w : Nat} {m m' : Mach} (h : commitPairChangeover c p w m = .wait m') :
    m'.ctl = m.ctl := by
  unfold commitPairChangeover at h
  split at h
  · cases h
  · split at h
    · cases h
    · rw [← CRes.wait.inj h]
      exact startChange_ctl ..

/-- A change set found to wait has left the control block alone (R411). -/
theorem commitCmd_wait_ctl {c : CCtx} {cmd : Cmd} {m m' : Mach} (h : commitCmd c cmd m = .wait m') : m'.ctl = m.ctl := by
  by_cases hp : ∃ p, cmd = .bankSwap p
  · obtain ⟨p, rfl⟩ := hp
    rw [commitBankSwap_wait h]
  by_cases hx : ∃ x, cmd = .audBankSwap x
  · obtain ⟨x, rfl⟩ := hx
    rw [commitAudBankSwap_wait h]
  by_cases hc : ∃ p w, cmd = .pairChangeover p w
  · obtain ⟨p, w, rfl⟩ := hc
    exact commitPairChangeover_wait h
  · have hfinal := commitCmd_final c cmd m (not_exists.1 hp) (not_exists.1 hx) fun p w e => hc ⟨p, w, e⟩
    rw [h] at hfinal
    cases hfinal

/-! ### The sequencer's step -/

/-- What makes an entry the sequencer's next, fact by fact. -/
theorem commitsNext_iff {m : Mach} {e : JEntry} : commitsNext m e = true ↔
    m.ctl.journal.find? committable = some e ∧ jentry? m e.jseq = some e ∧ claiming m = true ∧ ringsIdle m = true ∧
      mirrorSettled m = true ∧ regionAligned e.cmd = true ∧ e.unacked = false ∧ e.ses < 64 ∧ e.deaf = false ∧
      live m e.ses = true ∧ (win m e.ses).respTail < 65536 := by
  simp [commitsNext, and_assoc]

theorem restarting_of_ringsIdle {m : Mach} (h : ringsIdle m = true) : m.ctl.restarting = false := by
  simp only [ringsIdle, Bool.and_eq_true, Bool.not_eq_true'] at h
  exact h.1.2

/-- The sequencer takes the entry that is next (R411). -/
theorem commitNext_of_commitsNext {m : Mach} {e : JEntry} (h : commitsNext m e = true) (hdt : ∀ a b c, e.cmd ≠ .dtStep a b c) :
    commitNext m = commitEntry m e := by
  obtain ⟨hfind, -, hclaim, hidle, -⟩ := commitsNext_iff.1 h
  have hrestart := restarting_of_ringsIdle hidle
  unfold commitNext
  rw [if_neg (by simp [hclaim, hrestart]), hfind]
  dsimp only
  split
  next heq => exact absurd heq (hdt _ _ _)
  next => rfl

/-! What the sequencer does with an entry whose regions are aligned, by what its admission answers. -/

theorem commitEntry_refuse {m : Mach} {e : JEntry} {st : Nat} {r : Ref} (ha : regionAligned e.cmd = true)
    (h : commitCmd (commitCtx m e) e.cmd m = .refuse st r) : commitEntry m e = conclude m e.jseq 2 st r.bytes := by
  simp only [commitCtx] at h
  simp only [commitEntry, ha, if_true, h]

theorem commitEntry_wait {m m' : Mach} {e : JEntry} (ha : regionAligned e.cmd = true) (hacked : e.unacked = false)
    (h : commitCmd (commitCtx m e) e.cmd m = .wait m') : commitEntry m e =
      postRoom (setEntry m' e.jseq fun x => { x with waiting := true }) e (mkResps e.cmd.opcode sPending 0 e.hseq e.of []) false := by
  simp only [commitCtx] at h
  simp only [commitEntry, ha, if_true, h, hacked, Bool.false_eq_true, if_false]

theorem commitEntry_commit {m m' : Mach} {e : JEntry} {items : List Item} (ha : regionAligned e.cmd = true)
    (h : commitCmd (commitCtx m e) e.cmd m = .commit m' items) : commitEntry m e =
      conclude (newEpoch m m' (m.xb.epoch + 1)) e.jseq 1 sDone (layout (.q (m.xb.epoch + 1) :: items)) (m.xb.epoch + 1) := by
  simp only [commitCtx] at h
  simp only [commitEntry, ha, if_true, h]

end Sys2Proof.Machine

namespace Sys2Proof.Proofs
open Sys2Proof.Machine Sys2Proof.Safety

/-- Settles O15: the entry's admission decides; one that waits has moved nothing that lets the rings go on. -/
theorem commitSequencerOutcomes : Obligations.CommitSequencerOutcomes := by
  unfold Obligations.CommitSequencerOutcomes
  intro s e h hdt
  have hnext := commitNext_of_commitsNext h hdt
  have hexec : exec .changeSetCommit s = .next { s with toMach := serveRings (commitEntry s.toMach e) } := by rw [← hnext]; rfl
  obtain ⟨-, -, -, hidle, -, haligned, hacked, -⟩ := commitsNext_iff.1 h
  split
  next hc => rw [hexec, commitEntry_refuse haligned hc]
  next m hc =>
    obtain ⟨hsame, hwaits⟩ := postRoom_keeps (setEntry m e.jseq fun x => { x with waiting := true }) e
      (mkResps e.cmd.opcode sPending 0 e.hseq e.of []) false
    have hquiet : ringsIdle m = true := by rw [← hidle]; simp only [ringsIdle, commitCmd_wait_ctl hc]
    rw [commitEntry_wait haligned hacked hc, serveRings, engine_idle _ _ (hsame.trans hquiet)] at hexec
    refine ⟨_, hexec, hwaits.trans ?_⟩
    rw [jentry?_setEntry_same (f := fun x => { x with waiting := true }) _ _ fun _ => rfl, Option.map_map]
    rfl
  next hc => rw [hexec, commitEntry_commit haligned hc]

end Sys2Proof.Proofs

/-! SUPPORT. The audio domain: what writing containers, placing frames and filling missed indices leave as they are, and what an output
index and a bank's end leave. -/
namespace Sys2Proof.Machine
open Sys2Proof.Safety

@[simp] theorem srcOf_setSrc_same (m : Mach) (k : Nat) (f : Src → Src) : srcOf (setSrc m k f) k = f (srcOf m k) := tget_tmod_same _ _ _ _ _
theorem srcOf_setSrc_other (m : Mach) {j k : Nat} (f : Src → Src) (h : j ≠ k) : srcOf (setSrc m k f) j = srcOf m j := tget_tmod_other _ _ _ _ h
@[simp] theorem group_setGrp_same (m : Mach) (k : Nat) (f : AGroup → AGroup) : group (setGrp m k f) k = f (group m k) := tget_tmod_same _ _ _ _ _
@[simp] theorem apt_setApt_same (m : Mach) (k : Nat) (f : Apt → Apt) : apt (setApt m k f) k = f (apt m k) := tget_tmod_same _ _ _ _ _

/-! ### Containers -/

/-- The machine has changed in the rings of input channels and their lengths alone. -/
def onlyRings (m m' : Mach) : Prop :=
  m' = { m with aud := { m.aud with rings := m'.aud.rings, len := m'.aud.len, lenNext := m'.aud.lenNext } }

theorem onlyRings.refl (m : Mach) : onlyRings m m := rfl

theorem onlyRings.trans {a b c : Mach} (h : onlyRings a b) (k : onlyRings b c) : onlyRings a c := by
  unfold onlyRings at *; rw [k, h]

theorem onlyRings.group {m m' : Mach} (h : onlyRings m m') (g : Nat) : group m' g = group m g := by rw [h]; rfl

theorem onlyRings_putRing (m : Mach) (n : Nat) (np miss : Bool) (cx : Nat × Int) : onlyRings m (putRing m n np miss cx) := rfl

@[simp] theorem ring_putRing_same (m : Mach) (n : Nat) (np miss : Bool) (ch : Nat) (x : Int) :
    tget? n (ring (putRing m n np miss (ch, x)) ch) = some (container np miss x) := by
  simp [ring, putRing]

theorem ring_putRing_other (m : Mach) (n : Nat) (np miss : Bool) {ch c : Nat} (x : Int) (h : c ≠ ch) :
    ring (putRing m n np miss (ch, x)) c = ring m c := tget_tset_other _ _ _ h

/-- Samples written on consecutive channels, the flag of each from its place. -/
def putSpan (n : Nat) (np : Nat → Bool) (miss : Bool) (base : Nat) (xs : List (Int × Nat)) (m : Mach) : Mach :=
  xs.foldl (fun m x => putRing m n (np x.2) miss (base + x.2, x.1)) m

theorem putGroup_eq (m : Mach) (g n : Nat) (miss : Bool) (xs : List Int) : putGroup m g n miss xs =
    putSpan n (nonAudio (group m g)) miss (groupChans m g).1 (xs.take (groupChans m g).2).zipIdx m := rfl

theorem onlyRings_putSpan (n : Nat) (np : Nat → Bool) (miss : Bool) (base : Nat) (xs : List (Int × Nat)) (m : Mach) :
    onlyRings m (putSpan n np miss base xs m) := by
  induction xs generalizing m with
  | nil => exact .refl m
  | cons x xs ih => exact (onlyRings_putRing m n _ miss _).trans (ih _)

theorem onlyRings_putGroup (m : Mach) (g n : Nat) (miss : Bool) (xs : List Int) : onlyRings m (putGroup m g n miss xs) :=
  onlyRings_putSpan ..

/-- Channels below those written keep what they hold. -/
theorem ring_putSpan_below (n : Nat) (np : Nat → Bool) (miss : Bool) (base : Nat) (xs : List Int) {k c : Nat} (h : c < base + k) (m : Mach) :
    ring (putSpan n np miss base (xs.zipIdx k) m) c = ring m c := by
  induction xs generalizing m k with
  | nil => rfl
  | cons x xs ih =>
    exact (ih (k := k + 1) (by omega) _).trans (ring_putRing_other m n _ miss x (by dsimp only; omega))

/-- Each channel written holds its sample at the index. -/
theorem ring_putSpan (n : Nat) (np : Nat → Bool) (miss : Bool) (base : Nat) (xs : List Int) (k : Nat) {i : Nat} (hi : i < xs.length)
    (m : Mach) : tget? n (ring (putSpan n np miss base (xs.zipIdx k) m) (base + (k + i))) =
      some (container (np (k + i)) miss (lget 0 xs i)) := by
  induction xs generalizing m k i with
  | nil => simp at hi
  | cons x xs ih =>
    rw [List.zipIdx_cons]
    cases i with
    | zero =>
      rw [putSpan, List.foldl_cons, ← putSpan, ring_putSpan_below n np miss base xs (by omega)]
      exact ring_putRing_same ..
    | succ i =>
      have h := ih (k + 1) (i := i) (by simpa using hi) (putRing m n (np k) miss (base + k, x))
      rw [show k + 1 + i = k + (i + 1) by omega] at h
      exact h

theorem ring_putGroup (m : Mach) (g n : Nat) (miss : Bool) (xs : List Int) {i : Nat} (hi : i < min xs.length (groupChans m g).2) :
    tget? n (ring (putGroup m g n miss xs) ((groupChans m g).1 + i)) = some (container (nonAudio (group m g) i) miss (lget 0 xs i)) := by
  have h := ring_putSpan n (nonAudio (group m g)) miss (groupChans m g).1 (xs.take (groupChans m g).2) 0 (i := i)
    (by rw [List.length_take]; omega) m
  rw [Nat.zero_add] at h
  rw [putGroup_eq, h, lget, List.getElem?_take_of_lt (by omega), ← lget]

/-! ### Frames on the grid -/

theorem tooLate_unplaced {m : Mach} {g : Nat} (h : (group m g).next = none) (n : Nat) :
    tooLate m g n = decide ((n / blockLen m + 1) * secU ≤ m.dt.t * 3000) := by
  simp [tooLate, h]

theorem nextIndex_unplaced {m : Mach} {g : Nat} (h : (group m g).next = none) (stamp : Nat) : nextIndex m g stamp = indexNear m stamp := by
  simp [nextIndex, h]

/-- A group that has placed nothing has nothing to fill. -/
theorem fillTo_unplaced {m : Mach} {g : Nat} (h : (group m g).next = none) (stop k : Nat) : fillTo g stop k m = m := by
  cases k with
  | zero => rfl
  | succ k => rw [fillTo, h]

/-- The machine has changed in the audio domain alone. -/
def onlyAud (m m' : Mach) : Prop := m' = { m with aud := m'.aud }

theorem onlyAud.trans {a b c : Mach} (h : onlyAud a b) (k : onlyAud b c) : onlyAud a c := by
  unfold onlyAud at *; rw [k, h]

theorem onlyRings.onlyAud {m m' : Mach} (h : onlyRings m m') : onlyAud m m' := by rw [h]; rfl

theorem onlyAud_setGrp (m : Mach) (g : Nat) (f : AGroup → AGroup) : onlyAud m (setGrp m g f) := rfl

/-- The machine has changed in the input groups alone. -/
def onlyGroups (m m' : Mach) : Prop := m' = { m with aud := { m.aud with groups := m'.aud.groups } }

theorem onlyGroups.refl (m : Mach) : onlyGroups m m := rfl

theorem onlyGroups.trans {a b c : Mach} (h : onlyGroups a b) (k : onlyGroups b c) : onlyGroups a c := by
  unfold onlyGroups at *; rw [k, h]

theorem onlyGroups.onlyAud {m m' : Mach} (h : onlyGroups m m') : onlyAud m m' := by rw [h]; rfl

theorem onlyGroups_setGrp (m : Mach) (g : Nat) (f : AGroup → AGroup) : onlyGroups m (setGrp m g f) := rfl

/-- Two groups that stand at the same place of the grid with the same last samples: what is measured of them may differ. -/
def AGroup.samePlace (a b : AGroup) : Prop :=
  b = { a with err := b.err, lastBlock := b.lastBlock, stamps := b.stamps, rate := b.rate, status := b.status, block := b.block }

theorem AGroup.samePlace.trans {a b c : AGroup} (h : a.samePlace b) (k : b.samePlace c) : a.samePlace c := by
  unfold samePlace at *; rw [k, h]

theorem AGroup.samePlace.next {a b : AGroup} (h : a.samePlace b) : b.next = a.next := by rw [h]
theorem AGroup.samePlace.gap {a b : AGroup} (h : a.samePlace b) : b.gap = a.gap := by rw [h]
theorem AGroup.samePlace.up {a b : AGroup} (h : a.samePlace b) : b.up = a.up := by rw [h]
theorem AGroup.samePlace.convert {a b : AGroup} (h : a.samePlace b) : b.convert = a.convert := by rw [h]
theorem AGroup.samePlace.mismatch {a b : AGroup} (h : a.samePlace b) : b.mismatch = a.mismatch := by rw [h]

theorem onlyAud_putFrame (m : Mach) (g n : Nat) (xs : List Int) : onlyAud m (putFrame m g n xs) :=
  (onlyRings_putGroup m g n false _).onlyAud.trans (onlyAud_setGrp _ g _)

theorem group_putFrame (m : Mach) (g n : Nat) (xs : List Int) : group (putFrame m g n xs) g =
    { group m g with gap := 0, up := (group m g).up + 1, next := some (n + 1), last := xs, resync := false } := by
  simp only [putFrame, group_setGrp_same, (onlyRings_putGroup m g n false _).group]

/-- A sample of a frame as it is written: ramped up after a gap, unless its pair is non-audio (R255, R256). -/
def AGroup.written (a : AGroup) (xs : List Int) (i : Nat) : Int := if nonAudio a i then lget 0 xs i else rampUp (lget 0 xs i) a.up

theorem ring_putFrame (m : Mach) (g n : Nat) (xs : List Int) {i : Nat} (hi : i < min xs.length (groupChans m g).2) :
    tget? n (ring (putFrame m g n xs) ((groupChans m g).1 + i)) =
      some (container (nonAudio (group m g) i) false ((group m g).written xs i)) := by
  have h := ring_putGroup m g n false
    (xs.zipIdx.map fun x => if nonAudio (group m g) x.2 then x.1 else rampUp x.1 (group m g).up) (i := i) (by simpa using hi)
  have hx : i < xs.length := by omega
  simp only [lget, List.getElem?_map, List.getElem?_zipIdx, List.getElem?_eq_getElem hx, Option.map_some, Option.getD_some,
    Nat.zero_add] at h
  simp only [AGroup.written, lget, List.getElem?_eq_getElem hx, Option.getD_some]
  exact h

theorem placeFrame_late {m : Mach} {g n : Nat} (h : tooLate m g n = true) (xs : List Int) :
    placeFrame m g n xs = { m with audCnt := { m.audCnt with late := sat m.audCnt.late 1 } } := by
  rw [placeFrame, if_pos h]

theorem placeFrame_first {m : Mach} {g n : Nat} (hn : (group m g).next = none) (h : tooLate m g n = false) (xs : List Int) :
    placeFrame m g n xs = putFrame m g n xs := by
  rw [placeFrame, if_neg (by simp [h]), fillTo_unplaced hn]

/-- After a gap the check of a block moves nothing: the frame goes to its index (R253). -/
theorem slipFrame_gap {m : Mach} {g : Nat} (h : (group m g).gap ≠ 0) (stamp : Nat) (xs : List Int) :
    ∃ m', onlyGroups m m' ∧ (group m g).samePlace (group m' g) ∧ (group m' g).status = (group m g).status ∧
      slipFrame m g stamp xs = placeFrame m' g (nextIndex m g stamp) xs := by
  simp only [slipFrame, h, false_and, if_false]
  split
  · exact ⟨_, onlyGroups_setGrp .., by rw [group_setGrp_same]; rfl, by rw [group_setGrp_same], rfl⟩
  · exact ⟨m, .refl m, rfl, rfl, rfl⟩

theorem noteStatus_samePlace (m : Mach) (g : Nat) (cells : List Nat) :
    onlyGroups m (noteStatus m g cells) ∧ (group m g).samePlace (group (noteStatus m g cells) g) ∧
      (group (noteStatus m g cells) g).rate = (group m g).rate := by
  unfold noteStatus
  split
  · exact ⟨.refl m, rfl, rfl⟩
  · exact ⟨onlyGroups_setGrp .., by rw [group_setGrp_same]; rfl, by rw [group_setGrp_same]⟩

/-- What a frame's cells spell depends on the group's own blocks alone. -/
theorem noteStatus_status {m m' : Mach} {g : Nat} (hs : (group m' g).status = (group m g).status)
    (hb : (group m' g).block = (group m g).block) (cells : List Nat) :
    (group (noteStatus m' g cells) g).status = (group (noteStatus m g cells) g).status := by
  unfold noteStatus
  split
  · exact hs
  · simp only [group_setGrp_same, hs, hb]

theorem checkRate_unmeasured {m : Mach} {g : Nat} (hr : (group m g).rate = 0) (hm : (group m g).mismatch = false) : checkRate m g = m := by
  simp [checkRate, hr, hm]

/-- The first frame of a group that does not convert goes to the index nearest its stamp (R252). -/
theorem deembed_first {m : Mach} {g stamp : Nat} {xs : List Int} (cells : List Nat) (hx : xs ≠ []) (hc : (group m g).convert = false)
    (hm : (group m g).mismatch = false) (hs : (group m g).stamps = []) (hn : (group m g).next = none) (hg : (group m g).gap ≠ 0) :
    ∃ m', onlyGroups m m' ∧ (group m g).samePlace (group m' g) ∧
      (group m' g).status = (group (noteStatus m g cells) g).status ∧
      deembed g (stamp, xs, cells) m = placeFrame m' g (indexNear m stamp) xs := by
  let m1 := noteStamp m g stamp
  have h1 : group m1 g = { group m g with stamps := [stamp], rate := 0 } := by
    simp [m1, noteStamp, hs, rateOf]
  have p1 : (group m g).samePlace (group m1 g) := by rw [h1]; rfl
  obtain ⟨o2, p2, r2⟩ := noteStatus_samePlace m1 g cells
  let m2 := noteStatus m1 g cells
  have p : (group m g).samePlace (group m2 g) := p1.trans p2
  have hrate : checkRate m2 g = m2 := checkRate_unmeasured (by rw [r2, h1]) (by rw [p.mismatch, hm])
  obtain ⟨m', o3, p3, s3, h3⟩ := slipFrame_gap (by rw [p.gap]; exact hg : (group m2 g).gap ≠ 0) stamp xs
  have o : onlyGroups m m2 := (onlyGroups_setGrp m g _).trans o2
  refine ⟨m', o.trans o3, p.trans p3, s3.trans (noteStatus_status (by rw [h1]) (by rw [h1]) cells), ?_⟩
  have hidx : nextIndex m2 g stamp = indexNear m stamp := by
    rw [nextIndex_unplaced (by rw [p.next, hn]), o]; rfl
  rw [← hidx, ← h3]
  have he : xs.isEmpty = false := by simpa using hx
  simp only [deembed, he, Bool.false_eq_true, if_false]
  rw [show checkRate (noteStatus (noteStamp m g stamp) g cells) g = m2 from hrate, if_neg (by rw [p.convert, hc]; exact Bool.false_ne_true),
    if_neg (by rw [p.mismatch, hm]; exact Bool.false_ne_true)]

/-- The oldest frame of a source's de-embedder, the first of its group and in time, stands on the grid (R252). -/
theorem deembed_first_inTime {m : Mach} {g stamp : Nat} {xs : List Int} (cells : List Nat) (hx : xs ≠ [])
    (hc : (group m g).convert = false) (hm : (group m g).mismatch = false) (hs : (group m g).stamps = [])
    (hn : (group m g).next = none) (hg : (group m g).gap ≠ 0) (hl : tooLate m g (indexNear m stamp) = false) :
    let n := indexNear m stamp
    let t := deembed g (stamp, xs, cells) m
    onlyAud m t ∧ (group t g).next = some (n + 1) ∧ (group t g).last = xs ∧ (group t g).gap = 0 ∧
      (group t g).status = (group (noteStatus m g cells) g).status ∧
      ∀ i < min xs.length (groupChans m g).2, tget? n (ring t ((groupChans m g).1 + i)) =
        some (container (nonAudio (group t g) i) false
          (if nonAudio (group t g) i then lget 0 xs i else rampUp (lget 0 xs i) (group m g).up)) := by
  intro n t
  obtain ⟨m', o, p, hst, ht⟩ := deembed_first cells hx hc hm hs hn hg
  have hn' : (group m' g).next = none := by rw [p.next, hn]
  have hl' : tooLate m' g n = false := by
    rw [tooLate_unplaced hn] at hl
    rw [tooLate_unplaced hn', o]; exact hl
  have ht : t = putFrame m' g n xs := ht.trans (placeFrame_first hn' hl' xs)
  have hgr := group_putFrame m' g n xs
  rw [← ht] at hgr
  have hna (i : Nat) : nonAudio (group t g) i = nonAudio (group m' g) i := by rw [hgr]; rfl
  have hch : groupChans m' g = groupChans m g := by rw [o]; rfl
  refine ⟨?_, by rw [hgr], by rw [hgr], by rw [hgr], by rw [hgr]; exact hst, fun i hi => ?_⟩
  · rw [ht]; exact o.onlyAud.trans (onlyAud_putFrame ..)
  · rw [ht, ← hch, ring_putFrame m' g n xs (by rw [hch]; exact hi), ← ht, hna, AGroup.written, p.up]

theorem deembed_first_late {m : Mach} {g stamp : Nat} {xs : List Int} (cells : List Nat) (hx : xs ≠ [])
    (hc : (group m g).convert = false) (hm : (group m g).mismatch = false) (hs : (group m g).stamps = [])
    (hn : (group m g).next = none) (hg : (group m g).gap ≠ 0) (hl : tooLate m g (indexNear m stamp) = true) :
    let t := deembed g (stamp, xs, cells) m
    t = { m with aud := t.aud, audCnt := t.audCnt } ∧ t.audCnt.late = sat m.audCnt.late 1 ∧ (group t g).next = none ∧
      t.aud.rings = m.aud.rings := by
  intro t
  obtain ⟨m', o, p, -, ht⟩ := deembed_first cells hx hc hm hs hn hg
  have hn' : (group m' g).next = none := by rw [p.next, hn]
  have hl' : tooLate m' g (indexNear m stamp) = true := by
    rw [tooLate_unplaced hn] at hl
    rw [tooLate_unplaced hn', o]; exact hl
  have ht : t = _ := ht.trans (placeFrame_late hl' xs)
  refine ⟨by rw [ht, o], by rw [ht, o], ?_, by rw [ht, o]⟩
  rw [ht]; exact hn'

theorem exec_audioInputFrame_source (s : State) {g : Nat} (hg : g < 2304) :
    exec (.audioInputFrame g) s = runIf true (deembedNext g) s := by
  change runIf (g < 2304 || (2400 ≤ g && g < 2432)) (inputFrame g) s = _
  simp only [hg, decide_true, Bool.true_or, runIf_true, inputFrame, if_true]

theorem deembedNext_cons {m : Mach} {g : Nat} {f : Nat × List Int × List Nat} {rest : List (Nat × List Int × List Nat)}
    (h : (srcOf m g).audioQ = f :: rest) : deembedNext g m = deembed g f (setSrc m g fun x => { x with audioQ := rest }) := by
  rw [deembedNext, h]

end Sys2Proof.Machine

namespace Sys2Proof.Machine
open Sys2Proof.Safety

/-! ### A port's input frames -/

/-- The machine has changed in the audio domain and the audio ports alone. -/
def onlyAudApt (m m' : Mach) : Prop := m' = { m with aud := m'.aud, apt := m'.apt }

theorem onlyAudApt.trans {a b c : Mach} (h : onlyAudApt a b) (k : onlyAudApt b c) : onlyAudApt a c := by
  unfold onlyAudApt at *; rw [k, h]

theorem onlyAud.onlyAudApt {m m' : Mach} (h : onlyAud m m') : onlyAudApt m m' := by rw [h]; rfl

theorem onlyAudApt_setApt (m : Mach) (n : Nat) (f : Apt → Apt) : onlyAudApt m (setApt m n f) := rfl
theorem onlyAudApt_setGrp (m : Mach) (g : Nat) (f : AGroup → AGroup) : onlyAudApt m (setGrp m g f) := rfl
theorem onlyAudApt_setAptCnt (m : Mach) (n : Nat) (f : AptCnt → AptCnt) : onlyAudApt m (setAptCnt m n f) := rfl
theorem apt_setAptCnt (m : Mach) (n : Nat) (f : AptCnt → AptCnt) (k : Nat) : apt (setAptCnt m n f) k = apt m k := rfl
theorem onlyAudApt_noteBlock (m : Mach) (n idx stamp : Nat) : onlyAudApt m (noteBlock m n idx stamp) := rfl

theorem onlyRings.apt {m m' : Mach} (h : onlyRings m m') (n : Nat) : apt m' n = apt m n := by rw [h]; rfl

theorem noteBlock_inBuf (m : Mach) (n idx stamp : Nat) : (apt (noteBlock m n idx stamp) n).inBuf = (apt m n).inBuf := by
  rw [noteBlock, apt_setApt_same]

/-- The samples of a port's frame on its ramp (R297, R298). -/
def portSamples (m : Mach) (n : Nat) (xs : List Int) : List Int :=
  if 0 < (apt m n).down then xs.map fun s => fall64 s (64 - (apt m n).down)
  else if (apt m n).rampIn < 64 then xs.map fun s => ramp64 s (apt m n).rampIn
  else xs.map fun s => rampUp s (group m (aptGroup n)).up

theorem portWrite_eq (m : Mach) (n idx : Nat) (miss : Bool) (xs : List Int) : portWrite m n idx miss xs =
    setApt (setGrp (putGroup m (aptGroup n) idx miss (portSamples m n xs)) (aptGroup n) fun a =>
        { a with gap := 0, up := a.up + 1, next := some (idx + 1), last := xs }) n fun p =>
      { p with down := p.down - 1, rampIn := if 0 < p.down then p.rampIn else min 64 (p.rampIn + 1) } := rfl

/-- A frame of a port as written: its group goes on to the next index, its buffer stays. -/
theorem portWrite_leaves (m : Mach) (n idx : Nat) (miss : Bool) (xs : List Int) :
    onlyAudApt m (portWrite m n idx miss xs) ∧ (apt (portWrite m n idx miss xs) n).inBuf = (apt m n).inBuf ∧
      (group (portWrite m n idx miss xs) (aptGroup n)).next = some (idx + 1) ∧
      (group (portWrite m n idx miss xs) (aptGroup n)).last = xs := by
  have h := onlyRings_putGroup m (aptGroup n) idx miss (portSamples m n xs)
  have hgroup : group (portWrite m n idx miss xs) (aptGroup n) =
      { group m (aptGroup n) with gap := 0, up := (group m (aptGroup n)).up + 1, next := some (idx + 1), last := xs } := by
    rw [← h.group, portWrite_eq]; exact group_setGrp_same ..
  rw [hgroup]
  refine ⟨(h.onlyAud.onlyAudApt.trans (onlyAudApt_setGrp ..)).trans (onlyAudApt_setApt ..), ?_, rfl, rfl⟩
  rw [← h.apt n, portWrite_eq, apt_setApt_same]; rfl

theorem portGap_unplaced {m : Mach} {n : Nat} (h : (group m (aptGroup n)).next = none) (idx k : Nat) : portGap n idx k m = m := by
  cases k with
  | zero => rfl
  | succ k => rw [portGap, h]

/-- A port's frame begins a block: its grid error and the block's instant are noted (R290, R294). -/
def portChecked (m : Mach) (n idx stamp : Nat) : Mach :=
  setApt (noteBlock (setGrp m (aptGroup n) fun a => { a with lastBlock := idx / blockLen m + 1 }) n idx stamp) n fun p =>
    { p with e := gridErr m idx stamp / fs m }

/-- A frame of a port in SLIP: written, or at a port block (`block`) dropped or repeated (R294). -/
def portSlip (m : Mach) (n idx stamp : Nat) (xs : List Int) (block drop again : Bool) : Mach :=
  if block then
    let c := portChecked m n idx stamp
    if drop then setAptCnt c n fun c => { c with inDrop := sat c.inDrop 1 }
    else if again then
      let r := setAptCnt c n fun c => { c with inIns := sat c.inIns 1 }
      portWrite (portWrite r n idx false (group r (aptGroup n)).last) n (idx + 1) false xs
    else portWrite c n idx false xs
  else portWrite m n idx false xs

/-- A frame in time of a port in SLIP whose group has placed nothing goes to the index nearest its stamp (R293). -/
theorem portFrame_first {m : Mach} {n stamp : Nat} {ys : List Int} {rest : List (Nat × List Int)}
    (hb : (apt m n).inBuf = (stamp, ys) :: rest) (ht : stamp ≤ m.dt.t) (hst : (apt m n).st = 3)
    (hn : (group m (aptGroup n)).next = none) (hl : tooLate m (aptGroup n) (indexNear m stamp) = false) :
    ∃ block drop again : Bool, ((apt m n).rampIn = 0 → drop = false ∧ again = false) ∧
      portFrame n m = portSlip (setApt m n fun p => { p with inBuf := rest }) n (indexNear m stamp) stamp ys block drop again := by
  let m₁ := setApt m n fun p => { p with inBuf := rest }
  have hn₁ : (group m₁ (aptGroup n)).next = none := hn
  have hidx : nextIndex m₁ (aptGroup n) stamp = indexNear m stamp := nextIndex_unplaced hn₁ stamp
  have hl₁ : tooLate m₁ (aptGroup n) (indexNear m stamp) = false := hl
  have h4 : ((apt m n).st == 4) = false := by rw [hst]; rfl
  have hslip : ¬((apt m n).st ≠ 3 ∧ (apt m n).st ≠ 4 ∧ (apt m n).down = 0) := fun h => h.1 hst
  unfold portFrame
  simp only [hb, if_neg (not_lt.2 ht), if_neg hslip, h4, Bool.false_eq_true, if_false, Bool.not_false, Bool.true_and]
  simp only [show setApt m n (fun p => { p with inBuf := rest }) = m₁ from rfl, hidx, hl₁, portGap_unplaced hn₁, Bool.false_eq_true, if_false]
  let e := gridErr m₁ (indexNear m stamp) stamp
  refine ⟨atBlock m₁ (aptGroup n) (indexNear m stamp), decide ((secU : Int) ≤ 2 * e ∧ (apt m n).rampIn ≠ 0),
    decide (2 * e ≤ -(secU : Int) ∧ (apt m n).rampIn ≠ 0), fun h0 => by simp [h0], ?_⟩
  simp only [portSlip, decide_eq_true_eq]
  by_cases hat : atBlock m₁ (aptGroup n) (indexNear m stamp) = true
  · simp only [hat, if_true]; rfl
  · simp only [hat, Bool.false_eq_true, if_false]

theorem portChecked_leaves (m : Mach) (n idx stamp : Nat) :
    onlyAudApt m (portChecked m n idx stamp) ∧ (apt (portChecked m n idx stamp) n).inBuf = (apt m n).inBuf := by
  unfold portChecked
  refine ⟨((onlyAudApt_setGrp ..).trans (onlyAudApt_noteBlock ..)).trans (onlyAudApt_setApt ..), ?_⟩
  rw [apt_setApt_same]
  exact noteBlock_inBuf ..

theorem portSlip_leaves (m : Mach) (n idx stamp : Nat) (xs : List Int) (block drop again : Bool) :
    let t := portSlip m n idx stamp xs block drop again
    onlyAudApt m t ∧ (apt t n).inBuf = (apt m n).inBuf ∧
      (drop = false ∧ again = false → (group t (aptGroup n)).next = some (idx + 1) ∧ (group t (aptGroup n)).last = xs) := by
  obtain ⟨o, hb⟩ := portChecked_leaves m n idx stamp
  unfold portSlip
  split_ifs with hat hdrop hins
  · exact ⟨o.trans (onlyAudApt_setAptCnt ..), by rw [apt_setAptCnt, hb], fun h => absurd hdrop (by simp [h.1])⟩
  · obtain ⟨o1, b1, -⟩ := portWrite_leaves (setAptCnt (portChecked m n idx stamp) n fun c => { c with inIns := sat c.inIns 1 }) n idx false
      (group (setAptCnt (portChecked m n idx stamp) n fun c => { c with inIns := sat c.inIns 1 }) (aptGroup n)).last
    obtain ⟨o2, b2, -⟩ := portWrite_leaves _ n (idx + 1) false xs
    exact ⟨((o.trans (onlyAudApt_setAptCnt ..)).trans o1).trans o2, by rw [b2, b1, apt_setAptCnt, hb], fun h => absurd hins (by simp [h.2])⟩
  · obtain ⟨o1, b1, h1⟩ := portWrite_leaves (portChecked m n idx stamp) n idx false xs
    exact ⟨o.trans o1, b1.trans hb, fun _ => h1⟩
  · obtain ⟨o1, b1, h1⟩ := portWrite_leaves m n idx false xs
    exact ⟨o1, b1, fun _ => h1⟩

/-- What a frame in time of a port in SLIP leaves, whose group has placed nothing (R293, R294). -/
theorem portFrame_leaves {m : Mach} {n stamp : Nat} {ys : List Int} {rest : List (Nat × List Int)}
    (hb : (apt m n).inBuf = (stamp, ys) :: rest) (ht : stamp ≤ m.dt.t) (hst : (apt m n).st = 3)
    (hn : (group m (aptGroup n)).next = none) (hl : tooLate m (aptGroup n) (indexNear m stamp) = false) :
    let t := portFrame n m
    onlyAudApt m t ∧ (apt t n).inBuf = rest ∧ ((apt m n).rampIn = 0 →
      (group t (aptGroup n)).next = some (indexNear m stamp + 1) ∧ (group t (aptGroup n)).last = ys) := by
  obtain ⟨block, drop, again, hramp, hfirst⟩ := portFrame_first hb ht hst hn hl
  rw [hfirst]
  obtain ⟨o, hbuf, hnext⟩ := portSlip_leaves (setApt m n fun x => { x with inBuf := rest }) n (indexNear m stamp) stamp ys block drop again
  exact ⟨(onlyAudApt_setApt ..).trans o, hbuf.trans (by rw [apt_setApt_same]), fun h0 => hnext (hramp h0)⟩

theorem exec_audioInputFrame_port (s : State) {p : Nat} (hp : p < 32) :
    exec (.audioInputFrame (2400 + p)) s = runIf true (portFrame p) s := by
  have h1 : ¬ 2400 + p < 2304 := by omega
  have h2 : 2400 + p < 2432 := by omega
  change runIf (2400 + p < 2304 || (2400 ≤ 2400 + p && 2400 + p < 2432)) (inputFrame (2400 + p)) s = _
  simp only [h1, h2, decide_false, decide_true, Nat.le_add_right, Bool.and_self, Bool.or_true, runIf_true, inputFrame, if_false,
    Nat.add_sub_cancel_left]

/-- A port's buffer holds a frame until its stamp (R293). -/
theorem portFrame_early {m : Mach} {n stamp : Nat} {ys : List Int} {rest : List (Nat × List Int)}
    (hb : (apt m n).inBuf = (stamp, ys) :: rest) (ht : m.dt.t < stamp) : portFrame n m = m := by
  simp only [portFrame, hb, if_pos ht]

end Sys2Proof.Machine

namespace Sys2Proof.Machine
open Sys2Proof.Safety

/-! ### Blocks -/

/-- The machine has changed in the rings, the input groups and the domain's counters alone. -/
def onlyFills (m m' : Mach) : Prop :=
  m' = { m with audCnt := m'.audCnt, aud := { m.aud with
    rings := m'.aud.rings, len := m'.aud.len, lenNext := m'.aud.lenNext, groups := m'.aud.groups } }

theorem onlyFills.refl (m : Mach) : onlyFills m m := rfl

theorem onlyFills.trans {a b c : Mach} (h : onlyFills a b) (k : onlyFills b c) : onlyFills a c := by
  unfold onlyFills at *; rw [k, h]

theorem onlyRings.onlyFills {m m' : Mach} (h : onlyRings m m') : onlyFills m m' := by rw [h]; rfl

theorem onlyFills_fillOne (m : Mach) (g n : Nat) : onlyFills m (fillOne m g n) := by
  have h : onlyFills m (putGroup m g n true _) := (onlyRings_putGroup m g n true
    ((group m g).last.zipIdx.map fun x => if nonAudio (group m g) x.2 then 0 else rampDown x.1 (group m g).gap)).onlyFills
  exact h.trans rfl

theorem group_fillOne (m : Mach) (g n : Nat) :
    group (fillOne m g n) g = { group m g with gap := (group m g).gap + 1, up := 0, next := some (n + 1) } := by
  have h := onlyRings_putGroup m g n true
    ((group m g).last.zipIdx.map fun x => if nonAudio (group m g) x.2 then 0 else rampDown x.1 (group m g).gap)
  rw [← h.group]
  exact group_setGrp_same _ g fun a => { a with gap := a.gap + 1, up := 0, next := some (n + 1) }

theorem onlyFills_fillTo (g stop k : Nat) (m : Mach) : onlyFills m (fillTo g stop k m) := by
  induction k generalizing m with
  | zero => exact .refl m
  | succ k ih =>
    unfold fillTo
    split
    · split
      · exact (onlyFills_fillOne ..).trans (ih _)
      · exact .refl m
    · exact .refl m

/-- Given steps enough, a group fills up to `stop`, and each index filled widens its gap (R255). -/
theorem group_fillTo {g stop k n : Nat} {m : Mach} (hn : (group m g).next = some n) (hle : n ≤ stop) (hk : stop ≤ n + k) :
    (group (fillTo g stop k m) g).next = some stop ∧ (group (fillTo g stop k m) g).gap = (group m g).gap + (stop - n) ∧
      (group (fillTo g stop k m) g).last = (group m g).last := by
  induction k generalizing m n with
  | zero =>
    obtain rfl : n = stop := by omega
    exact ⟨hn, by simp [fillTo], rfl⟩
  | succ k ih =>
    simp only [fillTo, hn]
    split
    · have h := group_fillOne m g n
      obtain ⟨h1, h2, h3⟩ := ih (m := fillOne m g n) (n := n + 1) (by rw [h]) (by omega) (by omega)
      refine ⟨h1, ?_, by rw [h3, h]⟩
      rw [h2, h]
      dsimp only
      omega
    · obtain rfl : n = stop := by omega
      exact ⟨hn, by simp, rfl⟩

theorem onlyFills_fillGroups (m : Mach) : onlyFills m (fillGroups m) := by
  unfold fillGroups
  generalize m.aud.groups.map (·.1) = gs, m.aud.block * blockLen m = stop
  induction gs generalizing m with
  | nil => exact .refl m
  | cons g gs ih =>
    refine onlyFills.trans ?_ (ih _)
    dsimp only
    split
    · exact .refl m
    · exact onlyFills_fillTo ..

theorem blockChg_nil {m : Mach} (h : m.aud.blockChg = []) : { m with aud := { m.aud with blockChg := [] } } = m := by
  rw [← h]

/-- The block of this instant is the current one. -/
def inBlock (m : Mach) : Mach := { m with aud := { m.aud with block := blockAt m.dt.t } }

/-- Without ports and committed changes a block's boundary only fills the groups (R20). -/
theorem wholeBlock_quiet {m : Mach} (hp : m.apt.ports = []) (hc : m.aud.blockChg = []) : wholeBlock m = fillGroups (inBlock m) := by
  have hfill : fillPorts (inBlock m) = inBlock m := by
    simp only [fillPorts, show (inBlock m).apt.ports = [] from hp, List.map_nil, List.foldl_nil]
  have hchg : (fillGroups (inBlock m)).aud.blockChg = [] := by
    rw [onlyFills_fillGroups]; exact hc
  calc wholeBlock m = audioBlock (inBlock m) := by rw [← hfill]; rfl
    _ = (fillGroups (inBlock m)).aud.blockChg.foldl blockChange
        { fillGroups (inBlock m) with aud := { (fillGroups (inBlock m)).aud with blockChg := [] } } := rfl
    _ = { fillGroups (inBlock m) with aud := { (fillGroups (inBlock m)).aud with blockChg := [] } } := by rw [hchg]; rfl
    _ = fillGroups (inBlock m) := blockChg_nil hchg

theorem fillGroups_none {m : Mach} (h : m.aud.groups = []) : fillGroups m = m := by
  simp only [fillGroups, h, List.map_nil, List.foldl_nil]

theorem fillGroups_one {m : Mach} {g : Nat} {a : AGroup} (h : m.aud.groups = [(g, a)]) (hg : g < 2400) :
    fillGroups m = fillTo g (m.aud.block * blockLen m) (2 * blockLen m) m := by
  simp only [fillGroups, h, List.map_cons, List.map_nil, List.foldl_cons, List.foldl_nil, if_neg (show ¬(2400 ≤ g ∧ g < 3000) by omega)]

/-- A single group that is at most a block behind is filled up to the block's start (R255). -/
theorem wholeBlock_one {m : Mach} {g n : Nat} {a : AGroup} (hp : m.apt.ports = []) (hg : m.aud.groups = [(g, a)]) (hlt : g < 2400)
    (hc : m.aud.blockChg = []) (hn : a.next = some n) :
    let stop := blockAt m.dt.t * blockLen m
    let t := wholeBlock m
    n ≤ stop → stop ≤ n + blockLen m → t = { m with aud := t.aud, audCnt := t.audCnt } ∧ t.aud.block = blockAt m.dt.t ∧
      (group t g).next = some stop ∧ (group t g).gap = a.gap + (stop - n) ∧ (group t g).last = a.last := by
  intro stop t hle hk
  have ht : t = fillTo g stop (2 * blockLen m) (inBlock m) := (wholeBlock_quiet hp hc).trans (fillGroups_one hg hlt)
  have hgroup : group (inBlock m) g = a := by simp [group, inBlock, hg, tget, tget?]
  have hfill := group_fillTo (k := 2 * blockLen m) ((congrArg AGroup.next hgroup).trans hn) hle (by omega)
  have o := onlyFills_fillTo g stop (2 * blockLen m) (inBlock m)
  rw [hgroup, ← ht] at hfill
  rw [← ht] at o
  exact ⟨by rw [o]; rfl, by rw [o]; rfl, hfill⟩

/-! ### Output indices -/

theorem settle_quiet {m : Mach} {ch : Nat} (ht : m.aud.timed = []) (hf : tget? ch m.aud.fades = none) (idx k : Nat) :
    settle ch idx k m = m := by
  cases k with
  | zero => rfl
  | succ k => simp only [settle, hf, dueTimed, ht, List.zipIdx_nil, List.foldl_nil]

theorem blend_quiet {m : Mach} {ch : Nat} (hf : tget? ch m.aud.fades = none) (idx : Nat) : blend m ch idx = mixAcc m ch idx := by
  simp only [blend, hf]

/-- An output sample as the domain keeps it, with the count of those clipped. -/
def putOutput (m : Mach) (ch idx : Nat) (y : Int) (clip : Bool) : Mach :=
  { m with
    free := m.free + idx + 1
    audCnt := { m.audCnt with clip := sat m.audCnt.clip (b2n clip) }
    aud := { m.aud with outs := tset m.aud.outs ch (tset ((tget [] m.aud.outs ch).filter fun x => decide (idx < x.1 + outKeep)) idx y) } }

theorem outputSample_quiet {m : Mach} {ch : Nat} (ht : m.aud.timed = []) (hf : tget? ch m.aud.fades = none) (idx : Nat) :
    let f := if (chanDest m ch).any (silent m) then (0, false) else finalY (mixAcc m ch idx)
    outputSample ch idx m = portWrap (meterTake (putOutput m ch idx (jumpRamp m idx f.1) f.2) ch idx (jumpRamp m idx f.1)) ch idx := by
  intro f
  simp only [outputSample, settle_quiet ht hf, blend_quiet hf]
  rfl

/-- The machine has changed in what consumers of an output sample keep alone: meters, the ports' rings, flows, MACs and free values. -/
def onlyConsumers (m m' : Mach) : Prop :=
  m' = { m with free := m'.free, flw := m'.flw, eth := m'.eth, apt := m'.apt, aud := { m.aud with meters := m'.aud.meters } }

theorem onlyConsumers.refl (m : Mach) : onlyConsumers m m := rfl

theorem onlyConsumers.trans {a b c : Mach} (h : onlyConsumers a b) (k : onlyConsumers b c) : onlyConsumers a c := by
  unfold onlyConsumers at *; rw [k, h]

theorem onlyConsumers_foldl {α : Type} (f : Mach → α → Mach) (h : ∀ m x, onlyConsumers m (f m x)) (l : List α) (m : Mach) :
    onlyConsumers m (l.foldl f m) := by
  induction l generalizing m with
  | nil => exact .refl m
  | cons x l ih => exact (h m x).trans (ih _)

theorem onlyConsumers_meterTake (m : Mach) (ch idx : Nat) (y : Int) : onlyConsumers m (meterTake m ch idx y) := by
  unfold meterTake
  split_ifs <;> rfl

theorem onlyConsumers_portWrap (m : Mach) (ch idx : Nat) : onlyConsumers m (portWrap m ch idx) := by
  unfold portWrap
  dsimp only
  split
  · split
    · split
      · rfl
      · exact .refl m
    · exact .refl m
  · exact .refl m

theorem onlyConsumers_setCtx (m : Mach) (c : Nat) (f : Ctx → Ctx) : onlyConsumers m (setCtx m c f) := rfl
theorem onlyConsumers_queueFrame (m : Mach) (k : Nat) (c : Option Nat) (seq : Nat) (frame : List Byte) (speak : Bool) :
    onlyConsumers m (queueFrame m k c seq frame speak) := rfl

theorem onlyConsumers_sendFrom (m : Mach) (c seq : Nat) (rtp : List Byte) : onlyConsumers m (sendFrom m c seq rtp) := by
  unfold sendFrom
  dsimp only
  split
  · exact .refl m
  · split
    · exact .refl m
    · exact onlyConsumers.trans (b := (fresh m).2) rfl (onlyConsumers_queueFrame ..)

theorem onlyConsumers_sendPacket (m : Mach) (c : Nat) (marker : Bool) (ts : Nat) (body : Nat → List Byte) :
    onlyConsumers m (sendPacket m c marker ts body) := by
  have hone (m' : Mach) (h : onlyConsumers m m') (k seq : Nat) (rtp : List Byte) : onlyConsumers m (sendFrom m' k seq rtp) :=
    h.trans (onlyConsumers_sendFrom ..)
  unfold sendPacket
  dsimp only
  split
  · split_ifs
    · exact hone _ (hone _ (onlyConsumers_setCtx ..) ..) ..
    · exact hone _ (onlyConsumers_setCtx ..) ..
  · exact hone _ (onlyConsumers_setCtx ..) ..

theorem onlyConsumers_audioSend (ch idx : Nat) (m : Mach) : onlyConsumers m (audioSend ch idx m) := by
  refine onlyConsumers_foldl _ (fun m c => ?_) _ m
  extract_lets _ _ turn m₁ _ _ out
  have h₁ : onlyConsumers m m₁ := by
    cases hturn : turn with
    | some on =>
      simp only [m₁, hturn]
      exact onlyConsumers_foldl _ (fun _ _ => onlyConsumers_setCtx ..) _ _
    | none =>
      simp only [m₁, hturn]
      exact .refl m
  split
  · exact h₁
  · split
    · exact (h₁.trans (onlyConsumers_setCtx ..)).trans (onlyConsumers_sendPacket ..)
    · exact h₁.trans (onlyConsumers_setCtx ..)

/-- What an output index leaves, of the state before it (R257 to R260). -/
theorem outputAndSend_leaves {m : Mach} {ch : Nat} (ht : m.aud.timed = []) (hf : tget? ch m.aud.fades = none) (n : Nat) :
    let f := if (chanDest m ch).any (silent m) then (0, false) else finalY (mixAcc m ch n)
    let t := outputAndSend ch n m
    tget? n (tget [] t.aud.outs ch) = some (jumpRamp m n f.1) ∧ t.audCnt.clip = sat m.audCnt.clip (b2n f.2) ∧
      t.aud.taps = m.aud.taps ∧ t.aud.rings = m.aud.rings ∧ t.xb = m.xb := by
  intro f t
  have h : onlyConsumers (putOutput m ch n (jumpRamp m n f.1) f.2) t := by
    have := ((onlyConsumers_meterTake (putOutput m ch n (jumpRamp m n f.1) f.2) ch n (jumpRamp m n f.1)).trans
      (onlyConsumers_portWrap _ ch n)).trans (onlyConsumers_audioSend ch n _)
    rwa [← outputSample_quiet ht hf] at this
  rw [h]
  exact ⟨by simp [putOutput], rfl, rfl, rfl, rfl⟩

/-! ### Banks -/

theorem recordReady_none {m : Mach} (h : (m.ctl.journal.all fun e => !e.waiting) = true) (p : Cmd → Bool) : recordReady m p = m := by
  have hnil : m.ctl.journal.filter (fun e => e.waiting && p e.cmd) = [] := by
    rw [List.filter_eq_nil_iff]
    intro e he
    have hw : e.waiting = false := by simpa using List.all_eq_true.1 h e he
    simp [hw]
  rw [recordReady, hnil]; rfl

theorem bit_eq_testBit (n i : Nat) : bit n i = n.testBit i := by
  rw [Nat.testBit_eq_decide_div_mod_eq, bit]; rfl

/-- Setting a clear bit sets it and no other. -/
theorem bit_add_two_pow {n x : Nat} (h : bit n x = false) (y : Nat) : bit (n + 2 ^ x) y = (decide (y = x) || bit n y) := by
  rw [Nat.add_comm]
  rcases Nat.lt_trichotomy y x with hlt | rfl | hgt
  · simp only [bit_eq_testBit, Nat.testBit_two_pow_add_gt hlt, hlt.ne, decide_false, Bool.false_or]
  · rw [bit_eq_testBit] at h
    simp only [bit_eq_testBit, Nat.testBit_two_pow_add_eq, h, decide_true, Bool.true_or, Bool.not_false]
  · have hhalf : (2 ^ x + n) / 2 ^ (x + 1) = n / 2 ^ (x + 1) := by
      have hclear : n / 2 ^ x % 2 ≠ 1 := by simpa [bit] using h
      rw [Nat.pow_succ, ← Nat.div_div_eq_div_mul, ← Nat.div_div_eq_div_mul, Nat.add_div_left _ (Nat.two_pow_pos x)]
      omega
    have hy (k : Nat) : k / 2 ^ y = k / 2 ^ (x + 1) / 2 ^ (y - (x + 1)) := by
      rw [Nat.div_div_eq_div_mul, ← Nat.pow_add, Nat.add_sub_cancel' hgt]
    simp only [bit, hy, hhalf, hgt.ne', decide_false, Bool.false_or]

/-- The copier has covered a bank: its cluster alone becomes ready (R276). -/
theorem bankWhole_ready {m : Mach} {x : Nat} (h : (m.aud.loads.any fun l => l.cluster == x && decide (131072 ≤ l.copied)) = true) :
    let t := bankWhole x m
    t = { m with aud := { m.aud with ready := t.aud.ready } } ∧ ∀ y, bit t.aud.ready y = (decide (y = x) || bit m.aud.ready y) := by
  intro t
  have ht : t = { m with aud := { m.aud with ready := if bit m.aud.ready x then m.aud.ready else m.aud.ready + 2 ^ x } } := by
    simp only [t, bankWhole, h, if_true]
  refine ⟨by rw [ht], fun y => ?_⟩
  rw [ht]
  dsimp only
  cases hx : bit m.aud.ready x with
  | true =>
    by_cases h : y = x <;> simp [h, hx]
  | false => exact bit_add_two_pow hx y

theorem bankWhole_pending {m : Mach} {x : Nat} (h : (m.aud.loads.any fun l => l.cluster == x && decide (131072 ≤ l.copied)) = false) :
    bankWhole x m = m := by
  simp only [bankWhole, h, Bool.false_eq_true, if_false]

end Sys2Proof.Machine

namespace Sys2Proof.Proofs
open Sys2Proof.Machine Sys2Proof.Safety

/-- Settles O41: each clause is one law of the domain, for the frame, the block, the output index or the bank it speaks of. -/
theorem audioProceeds : Obligations.AudioProceeds := by
  unfold Obligations.AudioProceeds
  refine ⟨fun s g hg => ?_, ?_, ?_, ?_, ?_, ?_⟩
  · have hexec := exec_audioInputFrame_source s hg
    refine ⟨fun hq => takes_of_runIf hexec rfl (by rw [deembedNext, hq]), fun stamp xs cells rest hq => ?_⟩
    intro m
    have hm := deembedNext_cons hq
    refine ⟨?_, fun hx hc hmis hs hn hgap => ⟨fun hl => answers_of_runIf hexec rfl ?_, fun hl => answers_of_runIf hexec rfl ?_⟩⟩
    · rintro rfl
      exact takes_of_runIf hexec rfl hm
    · obtain ⟨o, hnext, hlast, hgap', hst, hring⟩ := deembed_first_inTime (m := m) cells hx hc hmis hs hn hgap hl
      rw [hm]
      exact ⟨o, hnext, hlast, hgap', hst.trans (noteStatus_status (m := s.toMach) (m' := m) rfl rfl cells), hring⟩
    · rw [hm]
      exact deembed_first_late (m := m) cells hx hc hmis hs hn hgap hl
  · intro s p stamp ys rest hp hb
    have hexec := exec_audioInputFrame_port s hp
    refine ⟨fun ht => takes_of_runIf hexec rfl (portFrame_early hb ht), fun ht hst hn hl => ?_⟩
    exact answers_of_runIf hexec rfl (portFrame_leaves hb ht hst hn hl)
  · intro s hp hg hc
    have hwhole : wholeBlock s.toMach = inBlock s.toMach := (wholeBlock_quiet hp hc).trans (fillGroups_none hg)
    exact (run_eq wholeBlock s).trans (by rw [hwhole]; rfl)
  · intro s g n a hp hg hlt hc hn stop hle hk
    exact ⟨_, run_eq wholeBlock s, wholeBlock_one hp hg hlt hc hn hle hk⟩
  · intro s ch n hch ht hf f
    have hexec : exec (.audioOutputSample ch n) s = runIf (ch < 65536) (outputAndSend ch n) s := rfl
    refine answers_of_runIf hexec (by simpa using hch) ?_
    dsimp only
    exact outputAndSend_leaves ht hf n
  · intro s x hx hj
    refine ⟨fun h => takes_of_runIf rfl (by simpa using hx) ?_, fun h => answers_of_runIf rfl (by simpa using hx) ?_⟩
    · rw [bankWhole_pending h]
      exact recordReady_none hj _
    · obtain ⟨heq, hbit⟩ := bankWhole_ready h
      have hready : mixReady (bankWhole x s.toMach) = bankWhole x s.toMach := recordReady_none (by rw [heq]; exact hj) _
      rw [hready]
      exact ⟨heq, by simp [hbit], fun y _ hy => by simp [hbit, hy]⟩

end Sys2Proof.Proofs

/-! SUPPORT. Input stages: what a line's arrival leaves of its source, of other sources and of the planes' measurements. -/
namespace Sys2Proof.Machine
open Sys2Proof.Safety

@[simp] theorem pair_setPair_same (m : Mach) (s p : Nat) (f : SrcPlane → SrcPlane) : pair (setPair m s p f) s p = f (pair m s p) :=
  tget_tmod_same _ _ _ _ _
theorem pair_setPair_other (m : Mach) (s : Nat) {p q : Nat} (f : SrcPlane → SrcPlane) (h : q ≠ p) : pair (setPair m s p f) s q = pair m s q :=
  tget_tmod_other _ _ _ _ (by omega)

/-! ### One line measured by every plane -/

/-- The machine has changed in the measurements of (source, plane) pairs alone. -/
def onlyPairs (m m' : Mach) : Prop := m' = { m with is_ := { m.is_ with pairs := m'.is_.pairs } }

theorem onlyPairs.refl (m : Mach) : onlyPairs m m := rfl

theorem onlyPairs.trans {a b c : Mach} (h : onlyPairs a b) (k : onlyPairs b c) : onlyPairs a c := by
  unfold onlyPairs at *; rw [k, h]

theorem onlyPairs_setPair (m : Mach) (s p : Nat) (f : SrcPlane → SrcPlane) : onlyPairs m (setPair m s p f) := rfl

/-- A pair that is not SYNCHRONOUS only has its measurement noted. -/
theorem measure_plain (m : Mach) (s line : Nat) {m' : Mach} {pl : Nat × Int} (h : (pair m' s pl.1).cls ≠ 3) :
    onlyPairs m' (measure m s line m' pl) ∧ (∀ q, (pair (measure m s line m' pl) s q).cls = (pair m' s q).cls) ∧
      ∀ q ≠ pl.1, pair (measure m s line m' pl) s q = pair m' s q := by
  simp only [measure, if_neg h]
  refine ⟨onlyPairs_setPair .., fun q => ?_, fun q hq => pair_setPair_other _ _ _ hq⟩
  by_cases hq : q = pl.1
  · subst hq; rw [pair_setPair_same]
  · rw [pair_setPair_other _ _ _ hq]

theorem measure_foldl_plain (m : Mach) (s line : Nat) (ls : List (Nat × Int)) {m' : Mach} (h : ∀ x ∈ ls, (pair m' s x.1).cls ≠ 3) :
    onlyPairs m' (ls.foldl (measure m s line) m') ∧ (∀ q, (pair (ls.foldl (measure m s line) m') s q).cls = (pair m' s q).cls) ∧
      ∀ q, (∀ x ∈ ls, q ≠ x.1) → pair (ls.foldl (measure m s line) m') s q = pair m' s q := by
  induction ls generalizing m' with
  | nil => exact ⟨.refl m', fun _ => rfl, fun _ _ => rfl⟩
  | cons x ls ih =>
    obtain ⟨o, hcls, hother⟩ := measure_plain m s line (h x List.mem_cons_self)
    obtain ⟨o', hcls', hother'⟩ := ih (m' := measure m s line m' x) fun y hy => by rw [hcls]; exact h y (List.mem_cons_of_mem _ hy)
    exact ⟨o.trans o', fun q => (hcls' q).trans (hcls q), fun q hq =>
      (hother' q fun y hy => hq y (List.mem_cons_of_mem _ hy)).trans (hother q (hq x List.mem_cons_self))⟩

/-- Each plane with the lead it measures. -/
def planeLeads (m : Mach) (s line arrival : Nat) : List (Nat × Int) := (leadsOf m s line arrival).zipIdx.map fun x => (x.2, x.1)

theorem planeLeads_lt {m : Mach} {s line arrival : Nat} {x : Nat × Int} (h : x ∈ planeLeads m s line arrival) : x.1 < 16 := by
  simp only [planeLeads, List.mem_map, leadsOf] at h
  obtain ⟨y, hy, rfl⟩ := h
  simpa using (List.mem_zipIdx' hy).1

/-- How long the latest SYNCHRONOUS plane instant of a line lies ahead of its arrival, in ns. -/
def stayOf (m m' : Mach) (s line arrival : Nat) : Int :=
  ((leadsOf m s line arrival).zipIdx.filter fun x => (pair m' s x.2).cls == 3).foldl (fun a x => max a x.1) 0

/-- A source's line 1 begins its next frame (R83). -/
def lineOne (m : Mach) (s t : Nat) : Mach :=
  let tick := m.now - (m.dt.t - t) / (2 * nsU)
  beginFrame (setSrc m s fun x => { x with prev1At := x.line1At, line1At := tick, line1T := t }) s (groupFrame m s tick)

/-- A whole line, given by its event, of a source in no group (R77). -/
theorem lineArrival_given {m : Mach} (s : Nat) {l : LineIn} (hh : l.holes = []) :
    let t := l.at_.getD m.dt.t
    let m₁ := if l.line = 1 then lineOne m s t else m
    groupNow m₁ s = [] →
    let m₂ := (planeLeads m₁ s l.line t).foldl (measure m₁ s l.line) m₁
    lineArrival s (some l) m = storeLine m₂ s l l.words t (t + (stayOf m₁ m₂ s l.line t * nsU).toNat) := by
  intro t m₁ hg m₂
  have hgroup : checkGroup m₁ s l.line = m₁ := by simp only [checkGroup, hg, List.head?_nil]
  have hone : (if l.line = 1 then beginFrame (setSrc m s fun x =>
        { x with prev1At := x.line1At, line1At := m.now - (m.dt.t - t) / (2 * nsU), line1T := t }) s
      (groupFrame m s (m.now - (m.dt.t - t) / (2 * nsU))) else m) = m₁ := rfl
  unfold lineArrival
  dsimp only [takeLine]
  rw [hone, hgroup, hh]
  simp only [concealHoles]
  rfl

/-! ### The line joins its source -/

/-- A frame in progress with one more line: its ancillary region takes the packets it has room for (R84, R101). -/
def FrameBuf.withLine (b : FrameBuf) (l : LineIn) (at_ : Nat) : FrameBuf :=
  { b with
    lines := tset b.lines l.line { words := l.words, anc := (fitAncs l.line b.ancLen l.anc).2.1 }
    ancLen := (fitAncs l.line b.ancLen l.anc).1
    fieldAt := b.fieldAt.or (if b.fmt.fieldDone l.line then some at_ else none) }

/-- A source with one more line, as the alignment buffer, the de-embedder of `groups` groups and the frame in progress take it in. -/
def Src.withLine (x : Src) (now instant groups : Nat) (l : LineIn) (at_ until_ : Nat) : Src :=
  { x with
    lab := labKeep instant (tset x.lab l.line { data := { words := l.words, anc := l.anc }, at_, until_ })
    seen := tset x.seen l.line { words := l.words, anc := l.anc }
    pid := (pidOf l.anc).or x.pid
    validAt := if validLine x.fmt l then now else x.validAt
    audioQ := x.audioQ ++ (if 0 < l.ancLost ∧ 0 < groups then [(at_, [], [])] else []) ++ deembedLine x.fmt groups at_ l.anc
    bufs := match x.cur with
      | some i => lmod x.bufs i fun b => b.withLine l at_
      | none => x.bufs }

/-- Ancillary packets of a line that find no room in the frame in progress. -/
def Src.ancLost (x : Src) (l : LineIn) : Nat :=
  match x.cur with
  | some i => (fitAncs l.line (lget ({} : FrameBuf) x.bufs i).ancLen l.anc).2.2
  | none => 0

theorem lmod_congr {α : Type} (d : α) (l : List α) (i : Nat) {f g : α → α} (h : f (lget d l i) = g (lget d l i)) : lmod l i f = lmod l i g := by
  induction l generalizing i with
  | nil => rfl
  | cons a l ih =>
    cases i with
    | zero => exact congrArg (· :: l) h
    | succ i => exact congrArg (a :: ·) (ih i h)

theorem storeLine_eq (m : Mach) (s : Nat) {l : LineIn} (hh : l.holes = []) (at_ until_ : Nat) :
    storeLine m s l l.words at_ until_ =
      setSrc (setSrcCnt m s fun c => { c with ancDrop := sat c.ancDrop (l.ancLost + (srcOf m s).ancLost l) }) s fun _ =>
        (srcOf m s).withLine m.now m.dt.t (audioGroups m s) l at_ until_ := by
  have hconst (m : Mach) (f : Src → Src) : setSrc m s f = setSrc m s fun _ => f (srcOf m s) := rfl
  have hset (f : SrcCnt → SrcCnt) : srcOf (setSrcCnt m s f) s = srcOf m s := rfl
  cases hc : (srcOf m s).cur with
  | none =>
    simp only [storeLine, hc]
    refine (hconst _ _).trans ?_
    simp only [hset, hc, Src.withLine, Src.ancLost]
    rfl
  | some i =>
    have hbuf := lmod_congr {} (srcOf m s).bufs i (g := fun b => b.withLine l at_) (f := fun b => { b with
        lines := tset b.lines l.line { words := l.words, anc := (fitAncs l.line (lget {} (srcOf m s).bufs i).ancLen l.anc).2.1 }
        ancLen := (fitAncs l.line (lget {} (srcOf m s).bufs i).ancLen l.anc).1
        fieldAt := b.fieldAt.or (if b.fmt.fieldDone l.line then some at_ else none)
        concealed := b.concealed || !l.holes.isEmpty }) (by simp [FrameBuf.withLine, hh])
    simp only [storeLine, hc]
    refine (hconst _ _).trans ?_
    simp only [hset, hc, Src.withLine, Src.ancLost, hbuf]
    rfl

/-- The machine has changed in the input stages alone. -/
def onlyIs (m m' : Mach) : Prop := m' = { m with is_ := m'.is_ }

theorem onlyIs.trans {a b c : Mach} (h : onlyIs a b) (k : onlyIs b c) : onlyIs a c := by
  unfold onlyIs at *; rw [k, h]

theorem onlyPairs.onlyIs {m m' : Mach} (h : onlyPairs m m') : onlyIs m m' := by rw [h]; rfl

theorem storeLine_leaves (m : Mach) (s : Nat) {l : LineIn} (hh : l.holes = []) (at_ until_ : Nat) :
    let t := storeLine m s l l.words at_ until_
    onlyIs m t ∧ t.is_.pairs = m.is_.pairs ∧ srcOf t s = (srcOf m s).withLine m.now m.dt.t (audioGroups m s) l at_ until_ ∧
      (tget {} t.is_.cnts s).ancDrop = sat (tget {} m.is_.cnts s).ancDrop (l.ancLost + (srcOf m s).ancLost l) ∧
      ∀ n ≠ s, srcOf t n = srcOf m n := by
  intro t
  have ht := storeLine_eq m s hh at_ until_
  refine ⟨by rw [show t = _ from ht]; rfl, by rw [show t = _ from ht]; rfl, by rw [show t = _ from ht, srcOf_setSrc_same], ?_,
    fun n hn => by rw [show t = _ from ht, srcOf_setSrc_other _ _ hn]; rfl⟩
  rw [show t = _ from ht]
  exact congrArg SrcCnt.ancDrop (tget_tmod_same {} {} m.is_.cnts s fun c : SrcCnt =>
    { c with ancDrop := sat c.ancDrop (l.ancLost + (srcOf m s).ancLost l) })

/-- A line of a source that no plane has SYNCHRONOUS: the planes note it, and it joins its source, which drops it at its instant. -/
theorem lineArrival_plain {m : Mach} {s : Nat} {l : LineIn} (hh : l.holes = []) {m₁ : Mach}
    (h₁ : m₁ = if l.line = 1 then lineOne m s (l.at_.getD m.dt.t) else m) (hg : groupNow m₁ s = [])
    (hc : ∀ p < 16, (pair m₁ s p).cls ≠ 3) :
    ∃ m₂, onlyPairs m₁ m₂ ∧ lineArrival s (some l) m = storeLine m₂ s l l.words (l.at_.getD m.dt.t) (l.at_.getD m.dt.t) := by
  generalize ht : l.at_.getD m.dt.t = t at *
  obtain ⟨m₂, hm₂⟩ : ∃ m₂, m₂ = (planeLeads m₁ s l.line t).foldl (measure m₁ s l.line) m₁ := ⟨_, rfl⟩
  obtain ⟨o, hcls, -⟩ := measure_foldl_plain m₁ s l.line (planeLeads m₁ s l.line t) (m' := m₁)
    fun x hx => hc x.1 (planeLeads_lt hx)
  rw [← hm₂] at o hcls
  have hstay : stayOf m₁ m₂ s l.line t = 0 := by
    have hnone : ∀ x ∈ (leadsOf m₁ s l.line t).zipIdx, ¬((pair m₂ s x.2).cls == 3) = true := fun x hx => by
      have hlt : x.2 < 16 := planeLeads_lt (List.mem_map_of_mem hx)
      simpa [hcls] using hc _ hlt
    rw [stayOf, List.filter_eq_nil_iff.2 hnone, List.foldl_nil]
  have hgiven := lineArrival_given (m := m) s hh
  dsimp only at hgiven
  rw [ht, ← h₁, ← hm₂, hstay, Int.zero_mul, Int.toNat_zero, Nat.add_zero] at hgiven
  exact ⟨m₂, o, hgiven hg⟩

/-- A frame begins at its source: the one before it ends, and the writer takes a buffer or none (R85). -/
theorem beginFrame_leaves (m : Mach) (s gnum : Nat) :
    onlyIs m (beginFrame m s gnum) ∧ (beginFrame m s gnum).is_.pairs = m.is_.pairs ∧
      (∃ bufs cur, srcOf (beginFrame m s gnum) s = { srcOf m s with
        frame := if (srcOf m s).ever then ((srcOf m s).frame + 1) % 2 ^ 32 else (srcOf m s).frame
        ended := (srcOf m s).cur, bufs, cur }) ∧
      ∀ n ≠ s, srcOf (beginFrame m s gnum) n = srcOf m n := by
  unfold beginFrame
  extract_lets m₁
  have h₁ : srcOf m₁ s = { srcOf m s with
      frame := if (srcOf m s).ever then ((srcOf m s).frame + 1) % 2 ^ 32 else (srcOf m s).frame, cur := none,
      ended := (srcOf m s).cur } := srcOf_setSrc_same ..
  have hother (n : Nat) (hn : n ≠ s) : srcOf m₁ n = srcOf m n := srcOf_setSrc_other _ _ hn
  split
  · exact ⟨rfl, rfl, ⟨_, _, h₁⟩, hother⟩
  · split
    · exact ⟨rfl, rfl, ⟨_, _, h₁⟩, hother⟩
    · refine ⟨rfl, rfl, ?_, fun n hn => (srcOf_setSrc_other _ _ hn).trans (hother n hn)⟩
      rw [srcOf_setSrc_same, h₁]
      exact ⟨_, _, rfl⟩

/-- What line 1 leaves of its source, before it is stored (R83). -/
theorem lineOne_leaves (m : Mach) (s t : Nat) :
    onlyIs m (lineOne m s t) ∧ (lineOne m s t).is_.pairs = m.is_.pairs ∧
      (∃ bufs cur, srcOf (lineOne m s t) s = { srcOf m s with
        prev1At := (srcOf m s).line1At, line1At := m.now - (m.dt.t - t) / (2 * nsU), line1T := t, ended := (srcOf m s).cur
        frame := if (srcOf m s).ever then ((srcOf m s).frame + 1) % 2 ^ 32 else (srcOf m s).frame, bufs, cur }) ∧
      ∀ n ≠ s, srcOf (lineOne m s t) n = srcOf m n := by
  unfold lineOne
  extract_lets tick
  obtain ⟨o, hp, ⟨bufs, cur, hsrc⟩, hother⟩ := beginFrame_leaves
    (setSrc m s fun x => { x with prev1At := x.line1At, line1At := tick, line1T := t }) s (groupFrame m s tick)
  refine ⟨(show onlyIs m (setSrc m s _) from rfl).trans o, hp, ⟨bufs, cur, hsrc.trans (by rw [srcOf_setSrc_same])⟩, fun n hn => ?_⟩
  rw [hother n hn, srcOf_setSrc_other _ _ hn]

theorem pair_of_pairs {m m' : Mach} (h : m'.is_.pairs = m.is_.pairs) (s p : Nat) : pair m' s p = pair m s p := by rw [pair, h]; rfl

theorem groupNow_of_pairs {m m' : Mach} (h : m'.is_.pairs = m.is_.pairs) (s : Nat) : groupNow m' s = groupNow m s := by
  simp only [groupNow, pair_of_pairs h]

theorem onlyPairs.srcOf {m m' : Mach} (h : onlyPairs m m') (n : Nat) : srcOf m' n = srcOf m n := by rw [h]; rfl

theorem audioGroups_congr {m m' : Mach} {s : Nat} (hflw : m'.flw = m.flw) (hfmt : (srcOf m' s).fmt = (srcOf m s).fmt) :
    audioGroups m' s = audioGroups m s := by
  simp only [audioGroups, hflw, hfmt]

/-- A line other than line 1, of a source in no group that no plane has SYNCHRONOUS, joins its source (R77, R78). -/
theorem lineArrival_joins {m : Mach} {s : Nat} {l : LineIn} (h1 : l.line ≠ 1) (hh : l.holes = []) (hg : groupNow m s = [])
    (hc : ∀ p < 16, (pair m s p).cls ≠ 3) :
    let t := lineArrival s (some l) m
    let t0 := l.at_.getD m.dt.t
    onlyIs m t ∧ srcOf t s = (srcOf m s).withLine m.now m.dt.t (audioGroups m s) l t0 t0 ∧
      (tget {} t.is_.cnts s).ancDrop = sat (tget {} m.is_.cnts s).ancDrop (l.ancLost + (srcOf m s).ancLost l) ∧
      ∀ n ≠ s, srcOf t n = srcOf m n := by
  intro t t0
  obtain ⟨m₂, o, ht⟩ := lineArrival_plain (m := m) hh (if_neg h1).symm hg hc
  obtain ⟨o', -, hsrc, hdrop, hother⟩ := storeLine_leaves m₂ s hh t0 t0
  rw [show t = _ from ht]
  refine ⟨o.onlyIs.trans o', ?_, ?_, fun n hn => (hother n hn).trans (o.srcOf n)⟩
  · rw [hsrc, o]; rfl
  · rw [hdrop, o]; rfl

/-- Line 1 of such a source ends its frame and begins the next (R83). -/
theorem lineArrival_first {m : Mach} {s : Nat} {l : LineIn} (h1 : l.line = 1) (hh : l.holes = []) (hg : groupNow m s = [])
    (hc : ∀ p < 16, (pair m s p).cls ≠ 3) :
    let x := srcOf m s
    let t := lineArrival s (some l) m
    let t0 := l.at_.getD m.dt.t
    onlyIs m t ∧ (∃ bufs cur, srcOf t s = { x with
        prev1At := x.line1At, line1At := m.now - (m.dt.t - t0) / (2 * nsU), line1T := t0, ended := x.cur
        frame := if x.ever then (x.frame + 1) % 2 ^ 32 else x.frame, bufs, cur }.withLine m.now m.dt.t (audioGroups m s) l t0 t0) ∧
      ∀ n ≠ s, srcOf t n = srcOf m n := by
  intro x t t0
  obtain ⟨o₁, hp, ⟨bufs, cur, hsrc₁⟩, hother₁⟩ := lineOne_leaves m s t0
  obtain ⟨m₂, o, ht⟩ := lineArrival_plain (m := m) hh (if_pos h1).symm (by rw [groupNow_of_pairs hp, hg])
    fun p hlt => by rw [pair_of_pairs hp]; exact hc p hlt
  obtain ⟨o', -, hsrc, -, hother⟩ := storeLine_leaves m₂ s hh t0 t0
  rw [show t = _ from ht]
  refine ⟨(o₁.trans o.onlyIs).trans o', ⟨bufs, cur, ?_⟩, fun n hn => ((hother n hn).trans (o.srcOf n)).trans (hother₁ n hn)⟩
  have hsrc₂ := (o.srcOf s).trans hsrc₁
  have ho := o₁.trans o.onlyIs
  rw [hsrc, audioGroups_congr (m := m) (by rw [ho]) (by rw [hsrc₂]), hsrc₂, ho]

/-! ### A line outside the capture window -/

/-- A change of class due is the latest, and changes nothing else of the pair's class or mode (R80). -/
theorem pair_setDue (m : Mach) (s p c : Nat) : (pair (setDue m s p c) s p).due.getLast? = some (c, target m p) ∧
    (pair (setDue m s p c) s p).cls = (pair m s p).cls := by
  simp only [setDue, pair_setPair_same, List.getLast?_append, List.getLast?_singleton, Option.some_or, and_self]

/-- A raised fault leaves the input stages. -/
theorem raise_is (m : Mach) (src kind cls addr : Nat) : (raise m src kind cls addr).is_ = m.is_ := by
  obtain ⟨-, -, his, -⟩ := apartFromFaults_raise m src kind cls addr
  exact his

/-- Line of a plane that has its pair SYNCHRONOUS, in time but outside the capture window: the pair is due to change class at the next
switch point, which is a fault of a source of mode SYNC (R80, R83). -/
theorem measure_breach (m : Mach) (s line : Nat) {m' : Mach} {p : Nat} {lead : Int} (hc : (pair m' s p).cls = 3)
    (hn : (pair m' s p).next = 3) (hlead : misses m' s p lead = false) (hw : inCapture m s p lead = false)
    (hroom : tableRoom m' = true) :
    let t := measure m s line m' (p, lead)
    (pair t s p).due.getLast? = some (2, target m' p) ∧ (pair t s p).cls = 3 ∧
      ((pair m' s p).sync = true → recorded t s 0x14 = true) ∧ ∀ q ≠ p, pair t s q = pair m' s q := by
  intro t
  obtain ⟨b, hb, hcls, hother, htarget, hflt⟩ : ∃ b, t = (if (pair m' s p).sync then raise (setDue b s p 2) s 0x14 1 else setDue b s p 2) ∧
      (pair b s p).cls = 3 ∧ (∀ q ≠ p, pair b s q = pair m' s q) ∧ target b p = target m' p ∧ b.flt = m'.flt := by
    have hpair (f g : SrcPlane → SrcPlane) : ∀ q ≠ p, pair (setPair (setPair m' s p f) s p g) s q = pair m' s q := fun q hq =>
      (pair_setPair_other _ _ _ hq).trans (pair_setPair_other _ _ _ hq)
    refine ⟨?b, ?ht, ?_, ?_, ?_, ?_⟩
    case ht =>
      simp only [t, measure, hc, hn, hlead, hw, if_true, Bool.false_eq_true, if_false]
      rfl
    · simp only [pair_setPair_same, hc]
    · exact hpair _ _
    · rfl
    · rfl
  obtain ⟨hdue, hkeep⟩ := pair_setDue b s p 2
  have hroom' : tableRoom (setDue b s p 2) = true := by
    rw [← hroom, tableRoom, tableRoom, ← hflt]; rfl
  have hsame : t.is_ = (setDue b s p 2).is_ := by
    rw [hb]
    split
    · exact raise_is ..
    · rfl
  have hpairs (q : Nat) : pair t s q = pair (setDue b s p 2) s q := by rw [pair, hsame]; rfl
  refine ⟨by rw [hpairs, hdue, htarget], by rw [hpairs, hkeep, hcls], fun hs => ?_, fun q hq => ?_⟩
  · rw [hb, if_pos hs]
    exact recorded_raise _ _ _ _ _ hroom'
  · rw [hpairs, setDue, pair_setPair_other _ _ _ hq, hother q hq]

/-- Plane 0 measures first. -/
theorem planeLeads_cons (m : Mach) (s line arrival : Nat) : ∃ rest, planeLeads m s line arrival =
    (0, lget 0 (leadsOf m s line arrival) 0) :: rest ∧ ∀ x ∈ rest, x.1 ≠ 0 := by
  cases h : leadsOf m s line arrival with
  | nil => simp [leadsOf] at h
  | cons lead leads =>
    refine ⟨(leads.zipIdx 1).map fun x => (x.2, x.1), by simp [planeLeads, h, lget], fun x hx => ?_⟩
    obtain ⟨y, hy, rfl⟩ := List.mem_map.1 hx
    have := (List.mem_zipIdx hy).1
    dsimp only
    omega

/-- A line in time that lies outside the capture window of plane 0 alone (R80, R83). -/
theorem lineArrival_breaches {m : Mach} {s : Nat} {l : LineIn} (h1 : l.line ≠ 1) (hh : l.holes = []) (hg : groupNow m s = [])
    (hlead : (leadMin m s : Int) ≤ lget 0 (leadsOf m s l.line (l.at_.getD m.dt.t)) 0) (hc0 : (pair m s 0).cls = 3)
    (hn0 : (pair m s 0).next = 3) (hc : ∀ p < 16, p ≠ 0 → (pair m s p).cls ≠ 3)
    (hw : inCapture m s 0 (lget 0 (leadsOf m s l.line (l.at_.getD m.dt.t)) 0) = false) (hroom : tableRoom m = true) :
    let t := lineArrival s (some l) m
    (pair t s 0).due.getLast? = some (2, target m 0) ∧ (pair t s 0).cls = 3 ∧ ((pair m s 0).sync = true → recorded t s 0x14 = true) := by
  intro t
  have hgiven := lineArrival_given (m := m) s hh
  dsimp only at hgiven
  rw [if_neg h1] at hgiven
  have ht := hgiven hg
  obtain ⟨rest, hrest, hne⟩ := planeLeads_cons m s l.line (l.at_.getD m.dt.t)
  have hmiss : misses m s 0 (lget 0 (leadsOf m s l.line (l.at_.getD m.dt.t)) 0) = false := by
    simp only [misses, decide_eq_false (not_lt.2 hlead), Bool.and_false]
  obtain ⟨hdue, hcls, hrec, hother⟩ := measure_breach m s l.line (m' := m) hc0 hn0 hmiss hw hroom
  rw [hrest, List.foldl_cons] at ht
  generalize measure m s l.line m (0, lget 0 (leadsOf m s l.line (l.at_.getD m.dt.t)) 0) = b at ht hdue hcls hrec hother
  have hplain : ∀ x ∈ rest, (pair b s x.1).cls ≠ 3 := fun x hx => by
    rw [hother _ (hne x hx)]
    exact hc x.1 (planeLeads_lt (hrest ▸ List.mem_cons_of_mem _ hx)) (hne x hx)
  obtain ⟨o, -, hkeep⟩ := measure_foldl_plain m s l.line rest hplain
  have hkeep := hkeep 0 fun x hx => (hne x hx).symm
  generalize rest.foldl (measure m s l.line) b = b₂ at ht o hkeep
  obtain ⟨o₂, hp, -⟩ := storeLine_leaves b₂ s hh (l.at_.getD m.dt.t)
    (l.at_.getD m.dt.t + (stayOf m b₂ s l.line (l.at_.getD m.dt.t) * nsU).toNat)
  rw [← ht] at o₂ hp
  have hpair : pair t s 0 = pair b s 0 := (pair_of_pairs hp s 0).trans hkeep
  have hflt : t.flt = b.flt := by rw [show t = _ from o₂, o]
  exact ⟨by rw [hpair, hdue], by rw [hpair, hcls], fun hs => by rw [recorded, hflt]; exact hrec hs⟩

/-- Buffers of a source whose route has left are free again, unless another route reads them (R41). -/
theorem bufferReturn_eq (m : Mach) (s p : Nat) :
    let b := { m with xb := { m.xb with fbRet := m.xb.fbRet.erase (s, p) } }
    bufferReturn s p m = if (bufSources b m.xb.holds).contains s then b
      else setSrc b s fun x => { x with bufs := [{}, {}, {}], cur := none } := rfl

end Sys2Proof.Machine

/-! SUPPORT. What a destination releases: the flows that send its line, its fault records and the line it keeps. -/
namespace Sys2Proof.Machine
open Sys2Proof.Safety

/-! ### Flows of an egress port -/

theorem onlyConsumers_sendLine (m : Mach) (c ts row : Nat) (field lastLine : Bool) (ws : List Nat) :
    onlyConsumers m (sendLine m c ts row field lastLine ws) :=
  onlyConsumers_foldl _ (fun _ _ => onlyConsumers_sendPacket ..) _ _

theorem onlyConsumers_flushAncs (m : Mach) (c ts fbits : Nat) (marker : Bool) : onlyConsumers m (flushAncs m c ts fbits marker) := by
  unfold flushAncs
  exact (onlyConsumers_setCtx m c fun x => { x with ancQ := [] }).trans (onlyConsumers_sendPacket ..)

theorem onlyConsumers_sendAncs (m : Mach) (c ts line : Nat) (f : Fmt) (as : List Anc) : onlyConsumers m (sendAncs m c ts line f as) := by
  unfold sendAncs
  extract_lets fbits m₁
  have h₁ : onlyConsumers m m₁ := by
    refine onlyConsumers_foldl _ (fun m a => ?_) _ _
    refine onlyConsumers.trans ?_ (onlyConsumers_setCtx ..)
    split
    · exact onlyConsumers_flushAncs ..
    · exact .refl m
  split
  · exact h₁.trans (onlyConsumers_flushAncs ..)
  · exact h₁

theorem onlyConsumers_sendStream (m : Mach) (c ts line : Nat) (f : Fmt) (ws : List Nat) :
    onlyConsumers m (sendStream m c ts line f ws) := by
  unfold sendStream
  extract_lets x
  split
  extract_lets last n v
  split
  extract_lets m₁
  exact onlyConsumers.trans (onlyConsumers_setCtx ..) (onlyConsumers_foldl _ (fun _ _ => onlyConsumers_sendPacket ..) _ _)

theorem onlyConsumers_egressLine (m : Mach) (q line : Nat) (before ws : List Nat) (ancs : List Anc) :
    onlyConsumers m (egressLine m q line before ws ancs) := by
  unfold egressLine
  extract_lets f ts m₁ as m₂ cs serial
  have h₁ : onlyConsumers m m₁ := by
    unfold m₁
    split
    · exact .refl m
    · exact onlyConsumers_foldl _ (fun _ _ => onlyConsumers_sendLine ..) _ _
  have h₂ : onlyConsumers m m₂ := h₁.trans (onlyConsumers_foldl _ (fun _ _ => onlyConsumers_sendAncs ..) _ _)
  split
  · exact h₂
  · exact h₂.trans (onlyConsumers_foldl _ (fun _ _ => onlyConsumers_sendStream ..) _ _)

/-! ### Records of other kinds -/

theorem recorded_iff_getElem? (m : Mach) (src kind : Nat) : recorded m src kind = true ↔
    ∃ (j : Nat) (r : FaultRec), m.flt.recs[j]? = some r ∧ r.src = src ∧ r.kind = kind ∧ r.overflow = false := by
  simp only [recorded, List.any_eq_true, List.mem_iff_getElem?, Bool.and_eq_true, beq_iff_eq, Bool.not_eq_true']
  constructor
  · rintro ⟨r, ⟨j, hj⟩, ⟨hs, hk⟩, ho⟩
    exact ⟨j, r, hj, hs, hk, ho⟩
  · rintro ⟨j, r, hj, hs, hk, ho⟩
    exact ⟨r, ⟨j, hj⟩, ⟨hs, hk⟩, ho⟩

/-- The end of a condition clears no record of another kind (R522). -/
theorem recorded_endCond_other {m : Mach} {src kind : Nat} (src' : Nat) {kind' : Nat} (hne : kind ≠ kind') (h : recorded m src kind = true) :
    recorded (endCond m src' kind') src kind = true := by
  unfold endCond
  split
  · exact h
  case h_2 i hi =>
    obtain ⟨j, r, hj, hs, hk, ho⟩ := (recorded_iff_getElem? ..).1 h
    obtain ⟨hlt, hkey, -⟩ := List.findIdx?_eq_some_iff_getElem.1 hi
    have hij : j ≠ i := by
      rintro rfl
      rw [List.getElem?_eq_getElem hlt, Option.some.injEq] at hj
      simp only [hj, hk, Bool.and_eq_true, beq_iff_eq] at hkey
      exact hne hkey.1.2
    dsimp only
    split_ifs
    · exact h
    · exact (recorded_iff_getElem? ..).2 ⟨j, r, by rw [lmod_getElem?, if_neg hij, hj], hs, hk, ho⟩
    · unfold clearRec
      split
      · exact h
      · refine List.any_eq_true.2 ⟨r, ?_, by simp [hs, hk, ho]⟩
        rw [faultEvt_flt]
        exact List.mem_eraseIdx_iff_getElem?.2 ⟨j, hij, hj⟩

/-! ### A line is released -/

/-- What follows a destination's line out: the crossbar and the lines kept stay, and so do the records of late segments. -/
def keepsRelease (m m' : Mach) : Prop :=
  m'.xb = m.xb ∧ m'.out = m.out ∧ (tableRoom m = true → ∀ src, recorded m src 0x18 = true → recorded m' src 0x18 = true)

theorem keepsRelease.refl (m : Mach) : keepsRelease m m := ⟨rfl, rfl, fun _ _ h => h⟩

/-- The crossbar, the lines kept and the fault table stay. -/
def sameRelease (m m' : Mach) : Prop := m'.xb = m.xb ∧ m'.out = m.out ∧ m'.flt = m.flt

theorem sameRelease.refl (m : Mach) : sameRelease m m := ⟨rfl, rfl, rfl⟩

theorem onlyConsumers.sameRelease {m m' : Mach} (h : onlyConsumers m m') : sameRelease m m' := ⟨by rw [h], by rw [h], by rw [h]⟩

theorem keepsRelease.trans_same {a b c : Mach} (h : keepsRelease a b) (k : sameRelease b c) : keepsRelease a c := by
  obtain ⟨hxb, hout, hrec⟩ := h
  obtain ⟨kxb, kout, kflt⟩ := k
  exact ⟨kxb.trans hxb, kout.trans hout, fun hroom src hr => by rw [recorded, kflt]; exact hrec hroom src hr⟩

theorem keepsRelease_noteRate (m : Mach) (d : Nat) : keepsRelease m (noteRate m d) := by
  unfold noteRate
  split
  · split
    · exact .refl m
    · obtain ⟨-, hxb, h⟩ := apartFromFaults_raise m (destSrc d) 0x20 1 d
      exact ⟨hxb, by tauto, fun hroom _ hr => recorded_raise_of_recorded _ _ _ _ hroom hr⟩
  · split
    · exact .refl m
    · obtain ⟨-, hxb, h⟩ := apartFromFaults_endCond m (destSrc d) 0x20
      exact ⟨hxb, by tauto, fun _ _ hr => recorded_endCond_other _ (by decide) hr⟩

theorem sameRelease_queueLine (m : Mach) (d line : Nat) (l : LineData) : sameRelease m (queueLine m d line l) := by
  unfold queueLine
  extract_lets n ws
  split
  · exact .refl m
  · exact ⟨rfl, rfl, rfl⟩

/-- What the state is once a destination has kept its line, with the fault where the line is late (R31). -/
def releasedTo (m : Mach) (d : Nat) (o : OutLine) : Mach :=
  let m := if o.late then raise { m with xb := { m.xb with lateSeg := sat m.xb.lateSeg 1 } } (destSrc d) 0x18 1 d else m
  { m with out := tset m.out d o }

/-- A line of a destination's plane is kept, and then goes its ways (R18). -/
theorem outputRelease_keeps {m : Mach} {d line : Nat} (late : Bool) (hst : m.pwr.st < 2) (h1 : 1 ≤ line)
    (hl : line ≤ totalLines (plane m (air m d).plane).fmt) :
    ∃ o : OutLine, o.line = line ∧ o.late = late ∧
      o.words = (if late then concealLate m d line (lineOf m d line) else lineOf m d line).words ∧
      keepsRelease (releasedTo m d o) (outputRelease d line late m) := by
  unfold outputRelease
  extract_lets a old idle l₁ l₂ xb m₁
  rw [if_neg (show ¬(2 ≤ m.pwr.st ∨ line = 0 ∨ totalLines (plane m a.plane).fmt < line) by
    rw [not_or, not_or]; exact ⟨by omega, by omega, not_lt.2 hl⟩)]
  generalize hx : (if a.amode = 0 then embedLine m d line old.emb { l₂ with anc := l₂.anc.filter fun x => !isAudioAnc x } else (l₂, none)) = x
  obtain ⟨l, emb⟩ := x
  have hwords : l.words = l₂.words := by
    split at hx
    · exact (congrArg (·.1.words) hx).symm
    · exact (congrArg (·.1.words) hx).symm
  dsimp -zeta only
  extract_lets o m₂ m₃ m₄
  refine ⟨o, rfl, rfl, hwords, ?_⟩
  have h₃ : keepsRelease (releasedTo m d o) m₃ := by
    change keepsRelease m₂ m₃
    unfold m₃
    split
    · exact keepsRelease_noteRate ..
    · exact .refl m₂
  have h₄ : sameRelease m₃ m₄ := (onlyConsumers_egressLine ..).sameRelease
  split
  · split
    · exact h₃
    · exact h₃.trans_same (sameRelease_queueLine ..)
  · split
    · exact h₃.trans_same ⟨rfl, rfl, rfl⟩
    · exact h₃.trans_same h₄

/-- A line in time leaves as the line of what its destination carries (R18). -/
theorem outputRelease_inTime {m : Mach} {d line : Nat} (hst : m.pwr.st < 2) (h1 : 1 ≤ line)
    (hl : line ≤ totalLines (plane m (air m d).plane).fmt) :
    let t := outputRelease d line false m
    t.xb = m.xb ∧ (tget {} t.out d).line = line ∧ (tget {} t.out d).words = (lineOf m d line).words ∧ (tget {} t.out d).late = false ∧
      ∀ n ≠ d, tget? n t.out = tget? n m.out := by
  intro t
  obtain ⟨o, hline, hlate, hwords, hxb, hout, -⟩ := outputRelease_keeps false hst h1 hl
  have hto : releasedTo m d o = { m with out := tset m.out d o } := by
    simp only [releasedTo, hlate, Bool.false_eq_true, if_false]
  rw [hto] at hxb hout
  rw [show t.xb = _ from hxb, show t.out = _ from hout, tget_tset_same]
  exact ⟨rfl, hline, hwords, hlate, fun n hn => tget?_tset_other _ _ hn⟩

/-- A late line is concealed, counted and reported (R31). -/
theorem outputRelease_late {m : Mach} {d line : Nat} (hst : m.pwr.st < 2) (h1 : 1 ≤ line)
    (hl : line ≤ totalLines (plane m (air m d).plane).fmt) (hroom : m.flt.recs.length < 2047) :
    let t := outputRelease d line true m
    t.xb = { m.xb with lateSeg := sat m.xb.lateSeg 1 } ∧
      (tget {} t.out d).words = (concealLate m d line (lineOf m d line)).words ∧ (tget {} t.out d).late = true ∧
      recorded t (destSrc d) 0x18 = true ∧ ∀ n ≠ d, tget? n t.out = tget? n m.out := by
  intro t
  obtain ⟨o, -, hlate, hwords, hxb, hout, hrec⟩ := outputRelease_keeps true hst h1 hl
  let b : Mach := { m with xb := { m.xb with lateSeg := sat m.xb.lateSeg 1 } }
  have hto : releasedTo m d o = { raise b (destSrc d) 0x18 1 d with out := tset (raise b (destSrc d) 0x18 1 d).out d o } := by
    simp only [releasedTo, hlate, if_true]; rfl
  have hout' : (raise b (destSrc d) 0x18 1 d).out = m.out := by
    have h := apartFromFaults_raise b (destSrc d) 0x18 1 d
    unfold apartFromFaults at h
    tauto
  rw [hto] at hxb hout hrec
  rw [show t.xb = _ from hxb, show t.out = _ from hout, hout', tget_tset_same]
  refine ⟨raise_xb .., hwords, hlate, hrec ?_ _ ?_, fun n hn => tget?_tset_other _ _ hn⟩
  · exact tableRoom_raise (m := b) _ _ _ _ hroom
  · exact recorded_raise b _ _ _ _ (by simp only [tableRoom, decide_eq_true_eq]; exact Nat.lt_succ_of_lt hroom)

end Sys2Proof.Machine

namespace Sys2Proof.Proofs
open Sys2Proof.Machine Sys2Proof.Safety

/-- Settles O31: a line's arrival, release or returned route is the law of its stage, for the case the clause speaks of. -/
theorem linesArriveAndLeave : Obligations.LinesArriveAndLeave := by
  unfold Obligations.LinesArriveAndLeave
  refine ⟨?_, ?_, ?_, ?_, ?_, ?_⟩
  · intro s k l hk h1 hh hg hc x t0 data kept
    refine answers_of_runIf rfl (by simpa using hk) ?_
    obtain ⟨o, hsrc, hdrop, hother⟩ := lineArrival_joins h1 hh hg hc
    refine ⟨o, hsrc, fun hcur => hdrop.trans ?_, fun i hcur => hdrop.trans ?_, fun n _ hn => hother n hn⟩
    · rw [Src.ancLost, show (srcOf s.toMach k).cur = none from hcur]; rfl
    · rw [Src.ancLost, show (srcOf s.toMach k).cur = some i from hcur]
  · intro s k l hk h1 hh hg hc x t0 data
    refine answers_of_runIf rfl (by simpa using hk) ?_
    obtain ⟨o, ⟨bufs, cur, hsrc⟩, hother⟩ := lineArrival_first h1 hh hg hc
    dsimp only
    rw [hsrc]
    refine ⟨o, rfl, rfl, rfl, rfl, ?_, ?_, fun n _ hn => hother n hn⟩
    · simp only [Src.withLine, h1]; rfl
    · simp only [Src.withLine, h1]; rfl
  · intro s k l hk h1 hh hg lead hlead hc0 hn0 hc hw hroom
    exact answers_of_runIf rfl (by simpa using hk) (lineArrival_breaches h1 hh hg hlead hc0 hn0 hc hw hroom)
  · intro s d line hd hst h1 hl
    refine answers_of_runIf rfl (by simpa using hd) ?_
    obtain ⟨hxb, hline, hwords, hlate, hother⟩ := outputRelease_inTime hst h1 hl
    exact ⟨hxb, hline, hwords, hlate, fun n _ hn => hother n hn⟩
  · intro s d line hd hst h1 hl hroom
    refine answers_of_runIf rfl (by simpa using hd) ?_
    obtain ⟨hxb, hwords, hlate, hrec, hother⟩ := outputRelease_late hst h1 hl hroom
    exact ⟨hxb, hwords, hlate, hrec, fun n _ hn => hother n hn⟩
  · intro s k p hk hp m
    have hexec : exec (.frameBufferReturn k p) s = runIf (k < 2400 && p < 16) (bufferReturn k p) s := rfl
    have hwf : (decide (k < 2400) && decide (p < 16)) = true := by simp [hk, hp]
    exact ⟨fun h => takes_of_runIf hexec hwf ((bufferReturn_eq ..).trans (if_pos h)),
      fun h => takes_of_runIf hexec hwf ((bufferReturn_eq ..).trans (if_neg fun hc => Bool.false_ne_true (h.symm.trans hc)))⟩

end Sys2Proof.Proofs

/-! SUPPORT. What a budget tick can have started from: where it ends with no session listed and the rings held, nothing was taken. -/
namespace Sys2Proof.Machine
open Sys2Proof.Safety

/-! ### Sessions once listed stay listed -/

/-- No session is listed afterwards only if none was before. -/
structure keepsSessions (m m' : Mach) : Prop where
  none_before : m'.ctl.sessions = [] → m.ctl.sessions = []

theorem keepsSessions.refl (m : Mach) : keepsSessions m m := ⟨id⟩
theorem keepsSessions.trans {a b c : Mach} (h : keepsSessions a b) (k : keepsSessions b c) : keepsSessions a c :=
  ⟨fun hc => h.none_before (k.none_before hc)⟩

theorem keepsSessions.of_eq {m m' : Mach} (h : m'.ctl.sessions = m.ctl.sessions) : keepsSessions m m' := ⟨fun h' => h ▸ h'⟩

/-- A step from a state with the same sessions. -/
theorem keepsSessions.after {m a b : Mach} (k : keepsSessions a b) (h : a.ctl.sessions = m.ctl.sessions) : keepsSessions m b :=
  (keepsSessions.of_eq h).trans k

theorem keepsSessions.of_ne {m m' : Mach} (h : m'.ctl.sessions ≠ []) : keepsSessions m m' := ⟨fun h' => absurd h' h⟩

theorem keepsSessions_foldl {α : Type} (f : Mach → α → Mach) (h : ∀ m x, keepsSessions m (f m x)) (l : List α) (m : Mach) :
    keepsSessions m (l.foldl f m) := by
  induction l generalizing m with
  | nil => exact .refl m
  | cons x l ih => exact (h m x).trans (ih _)

theorem tset_ne_nil {α : Type} (t : Tab α) (k : Nat) (a : α) : tset t k a ≠ [] := by
  cases t with
  | nil => exact List.cons_ne_nil _ _
  | cons x t =>
    rw [tset]
    split
    · exact List.cons_ne_nil _ _
    · split <;> exact List.cons_ne_nil _ _

/-- A session that is written is listed. -/
theorem sessions_setSes (m : Mach) (n : Nat) (f : Session → Session) : (setSes m n f).ctl.sessions ≠ [] := tset_ne_nil _ _ _

theorem keepsSessions_setSes (m : Mach) (n : Nat) (f : Session → Session) : keepsSessions m (setSes m n f) := .of_ne (sessions_setSes _ _ _)
theorem keepsSessions_setCnt (m : Mach) (n : Nat) (f : SesCnt → SesCnt) : keepsSessions m (setCnt m n f) := .of_eq rfl
theorem keepsSessions_setEntry (m : Mach) (j : Nat) (f : JEntry → JEntry) : keepsSessions m (setEntry m j f) := .of_eq rfl
theorem keepsSessions_xlSend (m : Mach) (x : XlMsg) : keepsSessions m (xlSend m x) := .of_eq rfl
theorem keepsSessions_settleGrants (m : Mach) : keepsSessions m (settleGrants m) := .of_eq rfl
theorem keepsSessions_retire (m : Mach) : keepsSessions m (retire m) := .of_eq rfl

theorem sessions_noteEntry (m : Mach) (n : Nat) (now : Bool) : (noteEntry m n now).ctl.sessions ≠ [] := by
  unfold noteEntry
  dsimp only
  split
  · unfold signal
    split
    · exact sessions_setSes _ _ _
    · exact sessions_setSes _ _ _
  · exact sessions_setSes _ _ _

theorem keepsSessions_putResps (m : Mach) (n : Nat) (hare : Bool) (rs : List Resp) : keepsSessions m (putResps m n hare rs) := by
  induction rs generalizing m with
  | nil => exact .refl m
  | cons r rs ih => exact (keepsSessions.of_ne (sessions_noteEntry _ _ _)).trans (ih _)

theorem keepsSessions_postEvt (m : Mach) (n code g : Nat) (b : List Byte) : keepsSessions m (postEvt m n code g b) := by
  unfold postEvt
  dsimp only
  split
  · exact (keepsSessions_setSes ..).trans (keepsSessions_setCnt ..)
  · exact .of_ne (sessions_noteEntry _ _ _)

theorem keepsSessions_event (m : Mach) (code g : Nat) (b : List Byte) (also : Option Nat) : keepsSessions m (event m code g b also) :=
  keepsSessions_foldl _ (fun _ _ => keepsSessions_postEvt ..) _ m

/-! ### Faults -/

theorem snapTrigger_ctl (m : Mach) (k : Nat) (w : BitVec 64) : (snapTrigger m k w).1.ctl = m.ctl := by
  unfold snapTrigger
  split
  · dsimp only; split <;> rfl
  · split <;> rfl

theorem keepsSessions_fallRole (m : Mach) : keepsSessions m (fallRole m) := by
  have hset : keepsSessions m (setRole m 0) := by
    unfold setRole
    dsimp only
    split
    · exact ⟨fun h => List.map_eq_nil_iff.1 h⟩
    · exact .of_eq rfl
  unfold fallRole
  split
  · exact hset.trans (keepsSessions_event ..)
  · exact hset

theorem keepsSessions_reached (m : Mach) (old : Nat) (had : Bool) (r : FaultRec) : keepsSessions m (reached m old had r) := by
  have htrig (m : Mach) (b : Bool) (k : Nat) : keepsSessions m (if b then (snapTrigger m k r.msg).1 else m) := by
    split
    · exact .of_eq (by rw [snapTrigger_ctl])
    · exact .refl m
  unfold reached
  extract_lets up flt m₁ m₂ fire
  have h₁ : keepsSessions m m₁ := by
    unfold m₁
    split
    · exact (keepsSessions_fallRole _).after rfl
    · exact .refl m
  exact (h₁.trans (htrig ..)).trans (htrig ..)

theorem keepsSessions_recordMsg (m : Mach) (src kind cls : Nat) (msg : BitVec 64) (cond inj : Bool) :
    keepsSessions m (recordMsg m src kind cls msg cond inj).1 := by
  have hreach (f : Flt) (old : Nat) (had : Bool) (r : FaultRec) : keepsSessions m (reached { m with flt := f } old had r) :=
    (keepsSessions_reached { m with flt := f } old had r).after rfl
  unfold recordMsg
  dsimp only
  split
  · exact hreach ..
  · split
    · exact hreach ..
    · split
      · exact .of_eq rfl
      · split
        · exact hreach ..
        · split
          · exact hreach ..
          · exact hreach ..

theorem keepsSessions_raise (m : Mach) (src kind cls addr : Nat) : keepsSessions m (raise m src kind cls addr) := by
  unfold raise takeFault
  extract_lets seq msg flt m₁
  have h := (keepsSessions_recordMsg m₁ src kind cls msg (condKinds.contains kind) false).after (m := m) rfl
  generalize recordMsg m₁ src kind cls msg (condKinds.contains kind) false = x at h ⊢
  obtain ⟨m₂, r⟩ := x
  dsimp -zeta only at h ⊢
  extract_lets m₃ n recs
  have h₃ : keepsSessions m m₃ := h.trans (keepsSessions_settleGrants m₂)
  split
  · exact h₃.trans ((keepsSessions_event ..).after rfl)
  · exact h₃.trans (.of_eq rfl)

theorem keepsSessions_unprotect (m : Mach) : keepsSessions m (unprotect m) := by
  unfold unprotect
  split
  · exact .refl m
  · exact (keepsSessions_raise ..).after rfl

/-- The end of a condition that leaves no session listed has sent no event. -/
theorem endCond_ctl {m : Mach} {src kind : Nat} (h : (endCond m src kind).ctl.sessions = []) : (endCond m src kind).ctl = m.ctl := by
  have hevent (m : Mach) (code g : Nat) (b : List Byte) (h : (event m code g b none).ctl.sessions = []) : event m code g b none = m := by
    have hnone : liveSessions m = [] := by
      rw [liveSessions, (keepsSessions_event m code g b none).none_before h]; rfl
    rw [event, hnone]; rfl
  unfold endCond at h ⊢
  split at h
  · rfl
  · dsimp only at h ⊢
    split_ifs at h ⊢
    · rfl
    · rfl
    · unfold clearRec at h ⊢
      split at h
      · rfl
      · rw [faultEvt, hevent _ _ _ _ h]; rfl

/-! ### Taking a command -/

theorem keepsSessions_postRoom (m : Mach) (e : JEntry) (rs : List Resp) (last : Bool) : keepsSessions m (postRoom m e rs last) := by
  unfold postRoom
  split
  · exact keepsSessions_setEntry ..
  · have hput := keepsSessions_putResps m e.ses e.hare rs
    dsimp only
    split
    · exact (hput.trans (keepsSessions_setSes ..)).trans (keepsSessions_setEntry ..)
    · exact hput.trans (keepsSessions_setEntry ..)

theorem keepsSessions_journalPut (m : Mach) (kind n port hseq : Nat) (cmd : Cmd) (data : List Byte) (hare : Bool) (room : Nat) :
    keepsSessions m (journalPut m kind n port hseq cmd data hare room) := by
  unfold journalPut
  extract_lets j e ctl m₁ m₂
  have h₂ : keepsSessions m m₂ := (keepsSessions_unprotect m₁).after rfl
  split
  · exact (keepsSessions_xlSend m₁ _).after rfl
  · split
    · exact h₂.trans (keepsSessions_postRoom ..)
    · exact h₂

theorem keepsSessions_conclude (m : Mach) (j st status : Nat) (result : List Byte) (epoch : Nat) :
    keepsSessions m (conclude m j st status result epoch) := by
  unfold conclude
  split
  · exact .refl m
  case h_2 e _ =>
    extract_lets rs m₁ m₂ m₃
    have h₂ : keepsSessions m m₂ := by
      unfold m₂
      split
      · exact (keepsSessions_setEntry ..).trans (keepsSessions_xlSend ..)
      · exact keepsSessions_setEntry ..
    have h₃ : keepsSessions m m₃ := h₂.trans (keepsSessions_setSes ..)
    split
    · refine keepsSessions.trans ?_ (keepsSessions_retire _)
      split
      · exact h₂
      · exact h₂.trans (keepsSessions_unprotect _)
    · split
      · exact h₃.trans (keepsSessions_setEntry ..)
      · exact ((h₃.trans (keepsSessions_unprotect _)).trans (keepsSessions_postRoom ..)).trans (keepsSessions_retire _)

theorem keepsSessions_requestStep (m : Mach) (sec ns : Int) (flags : Nat) (who : Nat × Nat) (jseq : Nat) :
    keepsSessions m (requestStep m sec ns flags who jseq) := by
  unfold requestStep
  split
  · exact keepsSessions_conclude ..
  · exact .of_eq rfl

theorem keepsSessions_takeJournalled (r : Rung) (c : Cmd) (room : Nat) (m : Mach) : keepsSessions m (takeJournalled r c room m) := by
  unfold takeJournalled
  extract_lets j put
  have hput : keepsSessions m (put m) := keepsSessions_journalPut ..
  split
  · exact hput.trans (keepsSessions_requestStep ..)
  · exact hput.trans (keepsSessions_setSes ..)

theorem keepsSessions_duplicate (r : Rung) (room : Nat) (k : CacheEntry) (m : Mach) : keepsSessions m (duplicate r room k m) := by
  unfold duplicate
  extract_lets m₁ post op acc
  have hpost (rs : List Resp) : keepsSessions m (post rs m₁) := .of_ne (sessions_setSes _ _ _)
  split
  · exact hpost _
  · split
    · split
      · exact ((keepsSessions_setCnt ..).trans (keepsSessions_putResps ..)).trans (keepsSessions_setEntry ..)
      · exact hpost _
    · exact hpost _

/-- No session is listed and the rings are held (R480). -/
def heldBare (m : Mach) : Prop := m.ctl.sessions = [] ∧ m.ctl.quiesced = true

/-- A command that was taken leaves a session listed, or the module restarted. -/
theorem not_heldBare_takeOne (rd : SnapReader) (r : Rung) (m : Mach) : ¬heldBare (takeOne rd r m) := by
  have hses {m' : Mach} {n : Nat} {f : Session → Session} : ¬heldBare (setSes m' n f) := fun h => sessions_setSes _ _ _ h.1
  unfold takeOne
  extract_lets room check m₁ m₂ m₃
  have h₃ : m₃.ctl.sessions ≠ [] := show m₂.ctl.sessions ≠ [] from sessions_setSes m₁ r.ses _
  have hkeep {m' : Mach} (h : keepsSessions m₃ m') : ¬heldBare m' := fun hb => h₃ (h.none_before hb.1)
  split
  · exact hses
  · exact hkeep (.refl m₃)
  · split
    · split
      · exact hkeep (keepsSessions_duplicate ..)
      · exact hkeep (keepsSessions_takeJournalled ..)
    · unfold takeAsked
      extract_lets post accept
      split
      · exact hses
      · dsimp only
        split
        · exact fun h => Bool.false_ne_true h.2
        · exact hses
      · exact hses
      · exact hses

theorem heldBare_of_takeAll (rd : SnapReader) (k : Nat) (stuck : List (Nat × Bool)) {m : Mach} (h : heldBare (takeAll rd k stuck m)) :
    heldBare m := by
  induction k generalizing stuck m with
  | zero => exact h
  | succ k ih =>
    unfold takeAll at h
    split at h
    · exact h
    · split at h
      · exact absurd (ih _ h).1 (sessions_setSes _ _ _)
      · split at h
        · exact ih _ h
        · split at h
          · exact ih (m := markWait m _) _ h
          · exact absurd (ih _ h) (not_heldBare_takeOne _ _ _)

/-- Rings that end held, with no session listed, were not served. -/
theorem engine_of_heldBare {rd : SnapReader} {m : Mach} (h : heldBare (engine rd m)) : engine rd m = m := by
  unfold engine at h ⊢
  split
  · rfl
  case isFalse hrun =>
    rw [if_neg hrun] at h
    have hq : ¬ heldBare m := fun hm => hrun (.inr hm.2)
    have htake := mt (heldBare_of_takeAll rd (2 * m.ctl.rung.length + 1) []) hq
    dsimp only at h
    split at h
    · obtain ⟨hnone, hheld⟩ := h
      have hctl := endCond_ctl hnone
      rw [hctl] at hnone hheld
      exact absurd ⟨hnone, hheld⟩ htake
    · exact absurd h htake

/-! ### The rest of a budget tick -/

/-- A check that ends with the rings held and no changeover in hand has started and ended none (R459). -/
theorem gradeCheck_of_held {m : Mach} (hq : (gradeCheck m).ctl.quiesced = true) (hc : (gradeCheck m).pr.chg = none) : gradeCheck m = m := by
  unfold gradeCheck at hq hc ⊢
  cases hchg : m.pr.chg with
  | some c =>
    simp only [hchg] at hq hc ⊢
    split_ifs at hq ⊢
    · cases hq
    · rfl
  | none =>
    simp only [hchg] at hc ⊢
    split_ifs at hc ⊢
    · cases hc
    · rfl

/-- A tick in which no free value was drawn measured nothing. -/
theorem tickTraffic_of_free {m : Mach} (h : (tickTraffic m).free = 0) : tickTraffic m = m := by
  unfold tickTraffic at h ⊢
  by_cases hrails : m.pwr.rails.isEmpty
  · simp only [if_pos hrails] at h ⊢
    by_cases hoff : targetOff m 22
    · exact if_pos hoff
    · rw [if_neg hoff] at h
      exact absurd h (Nat.succ_ne_zero _)
  · simp only [if_neg hrails] at h
    split at h
    · exact absurd h (Nat.succ_ne_zero _)
    · exact absurd h (Nat.succ_ne_zero _)

end Sys2Proof.Machine

namespace Sys2Proof.Proofs
open Sys2Proof.Machine Sys2Proof.Safety

/-- The module in DEN with its rings held and no session open, one of whose sessions has counted beyond what its counter can show. -/
def overCounted : State := { State.reset with
  ctl := { State.reset.ctl with quiesced := true, cnts := [(0, { held := 2 ^ 32 })] }, pwr := { State.reset.pwr with st := 2 } }

theorem budgetTick_overCounted : exec .budgetTick overCounted = .next overCounted := by rfl

/-- Refutes O51: a budget tick leaves the count of a session that it did not hold as it is, also where the count exceeds the counter's
range, which the statement's seventh clause caps. -/
theorem not_firmwareProceeds : ¬ Obligations.FirmwareProceeds := by
  unfold Obligations.FirmwareProceeds
  rintro ⟨-, -, -, -, -, -, htick, -⟩
  obtain ⟨t, ht, m, hm, -, -, -, -, -, -, -, hn⟩ := htick overCounted
  obtain ⟨-, -, -, -, hheld⟩ := hn 0
  rw [budgetTick_overCounted, Host.Outcome.next.injEq] at ht
  subst ht
  have hserve : serveRings (gradeCheck (settleHold (tickTraffic m))) = gradeCheck (settleHold (tickTraffic m)) :=
    engine_of_heldBare (by rw [← serveRings, ← hm]; exact ⟨rfl, rfl⟩)
  rw [hserve] at hm
  have hgrade := gradeCheck_of_held (by rw [← hm]; rfl) (by rw [← hm]; rfl)
  rw [hgrade] at hm
  have hfree : (tickTraffic m).free = 0 := (congrArg (·.free) hm).symm
  have hctl : m.ctl = overCounted.ctl := by
    rw [← tickTraffic_of_free hfree]; exact (congrArg (·.ctl) hm).symm
  rw [hctl] at hheld
  exact absurd (hheld (by decide)) (by decide)

end Sys2Proof.Proofs

/-! SUPPORT. The crossbar's epoch: its register halves, and the destinations at reset. -/
namespace Sys2Proof.Machine
open Sys2Proof.Safety

/-- The offsets of XB_EPOCH_LO and XB_EPOCH_HI lie in the crossbar's block. -/
theorem targetOf_epoch : ∀ o ∈ [0x10, 0x14], regAddr 22 o < 2 ^ 40 ∧ targetOf (regAddr 22 o) = some (22, o) := by decide

theorem targetOf_epochLo : targetOf (regAddr 22 0x10) = some (22, 0x10) := (targetOf_epoch 0x10 (by decide)).2
theorem targetOf_epochHi : targetOf (regAddr 22 0x14) = some (22, 0x14) := (targetOf_epoch 0x14 (by decide)).2

theorem regIn_epochLo (m : Mach) (port : Option Nat) : regIn m port 22 0x10 = lowHalf m.xb.epoch := rfl
theorem regIn_epochHi (m : Mach) (port : Option Nat) : regIn m port 22 0x14 = topHalf (m.xb.epoch / 2 ^ 32) := rfl

theorem writeReg_epoch {o : Nat} (ho : o ∈ [0x10, 0x14]) (master a v : Nat) (m : Mach) : writeReg master 22 o a v m = m := by
  simp only [List.mem_cons, List.not_mem_nil, or_false] at ho
  rcases ho with rfl | rfl <;> rfl

/-- A read of XB_EPOCH_LO gives the low half and keeps the upper half for its master (R70). -/
theorem epochLo_answers (s : State) (master : Nat) (hm : master ≤ 10) (hc : busCase s.toMach master (regAddr 22 0x10) false = none) :
    Answers (.latchingRead master (regAddr 22 0x10)) s fun t => t.bus.rdata = s.xb.epoch % 2 ^ 32 ∧
      tget 0 t.bus.latched (2 ^ 40 * master + regAddr 22 0x14) = s.xb.epoch / 2 ^ 32 := by
  obtain ⟨t, ht, -, hval, hlatch⟩ := latchingRead_answers s master _ 22 0x10 hm (by decide) hc targetOf_epochLo (by omega) rfl
  simp only [regIn_epochLo] at hval hlatch
  exact ⟨t, ht, hval, hlatch 4 (List.mem_singleton.2 rfl)⟩

/-- A read of XB_EPOCH_HI gives what its master's last read of the low half has kept (R70). -/
theorem epochHi_answers (s : State) (master : Nat) (hm : master ≤ 10) (hc : busCase s.toMach master (regAddr 22 0x14) false = none) :
    Answers (.latchingRead master (regAddr 22 0x14)) s fun t =>
      t.bus.rdata = tget 0 s.bus.latched (2 ^ 40 * master + regAddr 22 0x14) := by
  obtain ⟨t, ht, -, hval, -⟩ := latchingRead_answers s master _ 22 0x14 hm (by decide) hc targetOf_epochHi (by omega) rfl
  simp only [regIn_epochHi, topHalf, if_true] at hval
  exact ⟨t, ht, hval⟩

end Sys2Proof.Machine

namespace Sys2Proof.Proofs
open Sys2Proof.Machine Sys2Proof.Safety

/-- Settles O58: no destination is listed at reset, so each reads as the default one. -/
theorem resetBindsNothing : Obligations.ResetBindsNothing := by
  unfold Obligations.ResetBindsNothing
  have hdest (d : Nat) : dest State.reset.toMach d = {} := rfl
  exact ⟨fun d _ => by simp only [hdest, and_self], rfl⟩

/-- Settles O59: the low half's read keeps the high half under the master's key, and no write rule names either half. -/
theorem epochIsReadWhole : Obligations.EpochIsReadWhole := by
  unfold Obligations.EpochIsReadWhole
  refine ⟨fun s master hm hc => ?_, rfl, rfl, fun s master o v hm ho hv idle hc => ?_⟩
  · obtain ⟨t, ht, hlo, hhi⟩ := epochLo_answers s master hm hc
    refine ⟨t, ht, hlo, fun u hu hcu => ?_⟩
    obtain ⟨v, hv, hval⟩ := epochHi_answers u master hm hcu
    exact ⟨v, hv, hval.trans (by rw [hu, hhi])⟩
  · obtain ⟨haddr, htarget⟩ := targetOf_epoch o ho
    refine registerWrite_takes hm haddr idle ?_ rfl
    rw [busWrite_register v hc htarget (by omega), writeReg_epoch ho]
    rfl

end Sys2Proof.Proofs

/-! SUPPORT. Three statements about the crossbar's commands that the model does not meet, each with a state where it does not. -/
namespace Sys2Proof.Proofs
open Sys2Proof.Machine Sys2Proof.Safety

/-- A claiming module with one open expert session. -/
def claimant : State := { State.reset with
  sys := { State.reset.sys with phase := 0 }, pwr := { State.reset.pwr with st := 0 }
  pr := { State.reset.pr with role := 8, fit := true, unprot := true, st := 2 }
  ctl := { State.reset.ctl with sessions := [(0, { st := .opn, grantEnd := some 1000000000 })] } }

/-- The header of that session's next command. -/
def nextHdr : Hdr := { ses := 0, port := 0, hseq := 7 }

/-- What the step posts for a session; nothing where it answers no next state. -/
def postedBy (i : Instr) (s : State) (n : Nat) : List Resp :=
  match exec i s with
  | .next t => posted s.toMach t.toMach n
  | _ => []

theorem postedBy_of_exec {i : Instr} {s t : State} (h : exec i s = .next t) (n : Nat) :
    postedBy i s n = posted s.toMach t.toMach n := by
  simp only [postedBy, h]

/-! ### A load that its BANK_SWAP has closed -/

/-- A journalled BANK_SWAP of TP_0, still open. -/
def openSwap : JEntry := { jseq := 5, kind := 0, ses := 0, hseq := 6, cmd := .bankSwap 0, of := 5, room := 2 }

/-- The session holds the load of TP_0, and its BANK_SWAP has been accepted. -/
def swapAccepted : State := { claimant with
  xb := { claimant.xb with loads := [{ plane := 0, ses := 0 }] }, ctl := { claimant.ctl with journal := [openSwap], jnext := 6 } }

/-- A write to the load is refused: the accepted swap has closed it (R62). -/
theorem bankLoad_swapAccepted : (postedBy (.bankLoad nextHdr 0 1 0 0) swapAccepted 0).map (·.status) = [sConflict] := by
  decide +kernel

/-- Refutes O12: once its BANK_SWAP has been accepted, a load that the session holds takes no more entries, which the statement's first
clause leaves out. -/
theorem not_loadsAndMessagesTakeEffect : ¬ Obligations.LoadsAndMessagesTakeEffect := by
  unfold Obligations.LoadsAndMessagesTakeEffect
  rintro ⟨hload, -⟩
  obtain ⟨t, ht, hposted, -⟩ := hload swapAccepted nextHdr 0 1 0 0 (by decide +kernel) (by decide) (by decide) (by decide) (by decide)
    rfl rfl
  have hstatus := bankLoad_swapAccepted
  rw [postedBy_of_exec ht, show posted _ _ 0 = _ from hposted] at hstatus
  exact absurd hstatus (by decide)

/-! ### The result of a BANK_SWAP -/

/-- The swap is next to commit, of an empty load into a bank that is whole; the plane's next switch point is its third. -/
def swapReady : State := { swapAccepted with
  xb := { swapAccepted.xb with planes := lmod swapAccepted.xb.planes 0 fun x => { x with ready := true, nextSw := 3 } } }

/-- The switch point follows the epoch at once in the response. -/
theorem bankSwap_swapReady : (postedBy .changeSetCommit swapReady 0).map (fun r => fld r.result 8 4) = [3] := by
  decide +kernel

/-- Refutes O16: BANK_SWAP answers the epoch and the switch point alone (R62); the statement's fourth clause puts the items of a TAKE
between them. -/
theorem not_routeChangeSetsCommit : ¬ Obligations.RouteChangeSetsCommit := by
  unfold Obligations.RouteChangeSetsCommit
  rintro ⟨-, -, -, hswap, -⟩
  obtain ⟨t, ht, -, hposted, -⟩ := hswap swapReady openSwap 0 { plane := 0, ses := 0 } _ _ (by decide +kernel) rfl (by decide)
    (by decide) (by decide) (by decide) rfl
  have hword := bankSwap_swapReady
  rw [postedBy_of_exec ht, show posted _ _ 0 = _ from hposted (by decide +kernel)] at hword
  exact absurd hword (by decide +kernel)

/-! ### A head beyond the range of a ring's index -/

/-- The head of the session's command ring stands at an entry that waits for its final status, whose index is beyond 16 bits. -/
def headBeyond : State := { claimant with ctl := { claimant.ctl with windows := [(0, { unfinished := [(2 ^ 17, 0, 0)] })] } }

/-- The doorbell covers no entry there. -/
theorem pwrStatus_headBeyond : postedBy (.pwrStatus nextHdr) headBeyond 0 = [] := by decide +kernel

/-- Refutes O8: the statement bounds the ring's tail and the index of the next entry but not that of the oldest unfinished one, which is
what MBX_CMD_HEAD shows; where it is beyond 16 bits the ring seems empty after the doorbell too, and the query is not taken. -/
theorem not_routeSessionAndModuleQueriesAnswer : ¬ Obligations.RouteSessionAndModuleQueriesAnswer := by
  unfold Obligations.RouteSessionAndModuleQueriesAnswer
  intro h
  obtain ⟨t, ht, -, -, -, hposted, -⟩ := (h (.pwrStatus nextHdr) nextHdr .pwrStatus headBeyond _ rfl (by decide +kernel)).2 rfl
  have hnone := pwrStatus_headBeyond
  rw [postedBy_of_exec ht, show posted _ _ 0 = _ from hposted] at hnone
  exact absurd hnone (by decide)

end Sys2Proof.Proofs

/-! SUPPORT. What lets the rings go on: events, ROLE and fault messages move no ring. -/
namespace Sys2Proof.Machine
open Sys2Proof.Safety

theorem onlyPosts_foldl {α : Type} (g : Mach → α → Mach) (h : ∀ m x, onlyPosts m (g m x)) (l : List α) (m : Mach) :
    onlyPosts m (l.foldl g m) := by
  induction l generalizing m with
  | nil => exact .refl m
  | cons a l ih => exact (h m a).trans (ih (g m a))

theorem onlyPosts_setCnt (m : Mach) (n : Nat) (f : SesCnt → SesCnt) : onlyPosts m (setCnt m n f) := rfl

theorem onlyPosts_postEvt (m : Mach) (n code g : Nat) (b : List Byte) : onlyPosts m (postEvt m n code g b) := by
  unfold postEvt
  dsimp only
  split
  · exact (onlyPosts_setSes ..).trans (onlyPosts_setCnt ..)
  · exact ((onlyPosts_setWin ..).trans (onlyPosts_setSes ..)).trans (onlyPosts_noteEntry ..)

theorem onlyPosts_event (m : Mach) (code g : Nat) (b : List Byte) (also : Option Nat) : onlyPosts m (event m code g b also) :=
  onlyPosts_foldl _ (fun _ _ => onlyPosts_postEvt ..) _ m

theorem ringsIdle_event (m : Mach) (code g : Nat) (b : List Byte) (also : Option Nat) :
    ringsIdle (event m code g b also) = ringsIdle m := (onlyPosts_event ..).ringsIdle

theorem ringsIdle_of_ctl {m m' : Mach} (h : m'.ctl = m.ctl) : ringsIdle m' = ringsIdle m := by simp only [ringsIdle, h]

theorem ringsIdle_setRole (m : Mach) (r : Nat) : ringsIdle (setRole m r) = ringsIdle m := by
  unfold setRole
  dsimp only
  split <;> rfl

theorem ringsIdle_fallRole (m : Mach) : ringsIdle (fallRole m) = ringsIdle m := by
  unfold fallRole
  split
  · exact (ringsIdle_event ..).trans (ringsIdle_setRole m 0)
  · exact ringsIdle_setRole m 0

theorem ringsIdle_reached (m : Mach) (old : Nat) (had : Bool) (r : FaultRec) : ringsIdle (reached m old had r) = ringsIdle m := by
  have htrig (m : Mach) (b : Bool) (k : Nat) : ringsIdle (if b then (snapTrigger m k r.msg).1 else m) = ringsIdle m := by
    split
    · exact ringsIdle_of_ctl (snapTrigger_ctl ..)
    · rfl
  have hfall (b : Bool) : ringsIdle (if b then fallRole { m with flt := { m.flt with grave := true } } else m) = ringsIdle m := by
    split
    · exact ringsIdle_fallRole _
    · rfl
  exact (htrig _ _ 3).trans ((htrig _ _ 5).trans (hfall _))

theorem ringsIdle_recordMsg (m : Mach) (src kind cls : Nat) (msg : BitVec 64) (cond inj : Bool) :
    ringsIdle (recordMsg m src kind cls msg cond inj).1 = ringsIdle m := by
  unfold recordMsg
  dsimp only
  split
  · exact ringsIdle_reached ..
  · split
    · exact ringsIdle_reached ..
    · split
      · rfl
      · split
        · exact ringsIdle_reached ..
        · split
          · exact ringsIdle_reached ..
          · exact ringsIdle_reached ..

/-- A fault message moves no ring (R518). -/
theorem ringsIdle_raise (m : Mach) (src kind cls addr : Nat) : ringsIdle (raise m src kind cls addr) = ringsIdle m := by
  unfold raise takeFault
  dsimp only
  split
  · exact (ringsIdle_event ..).trans (ringsIdle_recordMsg ..)
  · exact ringsIdle_recordMsg ..

/-- The end of a condition moves no ring (R522). -/
theorem ringsIdle_endCond (m : Mach) (src kind : Nat) : ringsIdle (endCond m src kind) = ringsIdle m := by
  unfold endCond
  split
  · rfl
  · dsimp only
    split
    · rfl
    · split
      · rfl
      · unfold clearRec
        split
        · rfl
        · exact ringsIdle_event ..

end Sys2Proof.Machine

/-! SUPPORT. The plane pipeline: what the steps of a switch point leave of routes, effects and rings, the switch point itself, a late
one, and the reports. -/
namespace Sys2Proof.Machine
open Sys2Proof.Safety

/-! ### Steps that leave the crossbar alone -/

/-- The crossbar is as it was, and no ring has moved. -/
structure keepsXbar (m m' : Mach) : Prop where
  xb : m'.xb = m.xb
  rings : ringsIdle m' = ringsIdle m

theorem keepsXbar.refl (m : Mach) : keepsXbar m m := ⟨rfl, rfl⟩

theorem keepsXbar.trans {a b c : Mach} (h : keepsXbar a b) (k : keepsXbar b c) : keepsXbar a c :=
  ⟨k.xb.trans h.xb, k.rings.trans h.rings⟩

theorem keepsXbar_foldl {α : Type} (g : Mach → α → Mach) (h : ∀ m x, keepsXbar m (g m x)) (l : List α) (m : Mach) :
    keepsXbar m (l.foldl g m) := by
  induction l generalizing m with
  | nil => exact .refl m
  | cons a l ih => exact (h m a).trans (ih (g m a))

/-- The same for a fold that carries a result beside the machine. -/
theorem keepsXbar_foldl_fst {α β : Type} (g : Mach × β → α → Mach × β) (h : ∀ y x, keepsXbar y.1 (g y x).1) (l : List α)
    (y : Mach × β) : keepsXbar y.1 (l.foldl g y).1 := by
  induction l generalizing y with
  | nil => exact .refl y.1
  | cons a l ih => exact (h y a).trans (ih (g y a))

theorem keepsXbar_raise (m : Mach) (src kind cls addr : Nat) : keepsXbar m (raise m src kind cls addr) :=
  ⟨raise_xb .., ringsIdle_raise ..⟩

theorem keepsXbar_endCond (m : Mach) (src kind : Nat) : keepsXbar m (endCond m src kind) := by
  obtain ⟨-, hxb, -⟩ := apartFromFaults_endCond m src kind
  exact ⟨hxb, ringsIdle_endCond ..⟩

theorem keepsXbar_setPair (m : Mach) (s p : Nat) (f : SrcPlane → SrcPlane) : keepsXbar m (setPair m s p f) := ⟨rfl, rfl⟩
theorem keepsXbar_setSrc (m : Mach) (s : Nat) (f : Src → Src) : keepsXbar m (setSrc m s f) := ⟨rfl, rfl⟩
theorem keepsXbar_setCtx (m : Mach) (c : Nat) (f : Ctx → Ctx) : keepsXbar m (setCtx m c f) := ⟨rfl, rfl⟩
theorem keepsXbar_putTimed (m : Mach) (t : Timed) : keepsXbar m (putTimed m t) := ⟨rfl, rfl⟩
theorem keepsXbar_anchorTimed (m : Mach) (p k : Nat) : keepsXbar m (anchorTimed m p k) := ⟨rfl, rfl⟩

theorem keepsXbar_syncBack (m : Mach) (s p : Nat) : keepsXbar m (syncBack m s p) := by
  unfold syncBack
  split
  · dsimp only
    split
    · exact keepsXbar_setPair ..
    · exact (keepsXbar_setPair ..).trans (keepsXbar_endCond ..)
  · exact .refl m

/-- A change of class leaves the crossbar alone (R80 to R83). -/
theorem keepsXbar_changeClass (m : Mach) (s p c : Nat) : keepsXbar m (changeClass m s p c) := by
  unfold changeClass
  extract_lets x _ m₁ m₂ m₃ _ m₄
  have h₁ : keepsXbar m m₁ := by
    unfold m₁
    split
    · exact ⟨rfl, rfl⟩
    · exact .refl m
  have h₂ : keepsXbar m m₂ := h₁.trans ⟨rfl, rfl⟩
  have h₃ : keepsXbar m m₃ := by
    unfold m₃
    split
    · exact h₂.trans (keepsXbar_raise ..)
    · exact h₂
  have h₄ : keepsXbar m m₄ := by
    unfold m₄
    split
    · exact h₃
    · split
      · split
        · exact h₃.trans ⟨rfl, rfl⟩
        · exact h₃
      · exact h₃
  split
  · exact h₄.trans (keepsXbar_syncBack ..)
  · exact h₄

theorem keepsXbar_classesAt (m : Mach) (p k : Nat) : keepsXbar m (classesAt m p k).1 := by
  refine keepsXbar_foldl_fst _ (fun a y => ?_) m.is_.pairs (m, [])
  split
  · exact .refl a.1
  · dsimp only
    split
    · exact .refl a.1
    · split
      · exact keepsXbar_setPair ..
      · exact (keepsXbar_setPair ..).trans (keepsXbar_changeClass ..)

theorem keepsXbar_noteMismatch (was : Nat → Bool) (m : Mach) (d : Nat) : keepsXbar m (noteMismatch was m d) := by
  unfold noteMismatch
  split
  · split
    · exact .refl m
    · exact keepsXbar_raise ..
  · split
    · exact keepsXbar_endCond ..
    · exact .refl m

theorem keepsXbar_fadeGroup (m : Mach) (ep ses d s len start : Nat) : keepsXbar m (fadeGroup m ep ses d s len start) :=
  (keepsXbar_foldl _ (fun _ _ => keepsXbar_putTimed ..) _ m).trans ⟨rfl, rfl⟩

theorem keepsXbar_rewriteGroup (m : Mach) (ep d start : Nat) : keepsXbar m (rewriteGroup m ep d start) := by
  unfold rewriteGroup
  dsimp only
  split
  · exact keepsXbar_fadeGroup ..
  · exact .refl m

theorem keepsXbar_flowSwitch (m : Mach) (p k : Nat) : keepsXbar m (flowSwitch m p k) :=
  keepsXbar_foldl _ (fun _ _ => keepsXbar_setCtx ..) _ m

/-! ### Steps that leave the routes alone -/

/-- What is on air of a destination's route: its sources, its plane and its epoch. -/
def Air.route (a : Air) : Nat × Nat × Nat × Nat := (a.src, a.asrc, a.plane, a.epoch)

/-- Committed state, waiting effects, the number of planes and the routes on air are as they were, and no ring has moved. -/
structure keepsRoutes (m m' : Mach) : Prop where
  dests : m'.xb.dests = m.xb.dests
  epoch : m'.xb.epoch = m.xb.epoch
  pend : m'.xb.pend = m.xb.pend
  planes : m'.xb.planes.length = m.xb.planes.length
  route : ∀ d, (air m' d).route = (air m d).route
  rings : ringsIdle m' = ringsIdle m

theorem keepsRoutes.refl (m : Mach) : keepsRoutes m m := ⟨rfl, rfl, rfl, rfl, fun _ => rfl, rfl⟩

theorem keepsRoutes.trans {a b c : Mach} (h : keepsRoutes a b) (k : keepsRoutes b c) : keepsRoutes a c :=
  ⟨k.dests.trans h.dests, k.epoch.trans h.epoch, k.pend.trans h.pend, k.planes.trans h.planes, fun d => (k.route d).trans (h.route d),
    k.rings.trans h.rings⟩

theorem keepsXbar.keepsRoutes {m m' : Mach} (h : keepsXbar m m') : keepsRoutes m m' := by
  obtain ⟨hxb, hrings⟩ := h
  exact ⟨by rw [hxb], by rw [hxb], by rw [hxb], by rw [hxb], fun d => by rw [air, hxb, ← air], hrings⟩

theorem keepsRoutes_foldl {α : Type} (g : Mach → α → Mach) (h : ∀ m x, keepsRoutes m (g m x)) (l : List α) (m : Mach) :
    keepsRoutes m (l.foldl g m) := by
  induction l generalizing m with
  | nil => exact .refl m
  | cons a l ih => exact (h m a).trans (ih (g m a))

/-- The same for a fold that carries a result beside the machine. -/
theorem keepsRoutes_foldl_fst {α β : Type} (g : Mach × β → α → Mach × β) (h : ∀ y x, keepsRoutes y.1 (g y x).1) (l : List α)
    (y : Mach × β) : keepsRoutes y.1 (l.foldl g y).1 := by
  induction l generalizing y with
  | nil => exact .refl y.1
  | cons a l ih => exact (h y a).trans (ih (g y a))

theorem keepsRoutes_setAir (m : Mach) (n : Nat) {f : Air → Air} (hf : ∀ a, (f a).route = a.route) : keepsRoutes m (setAir m n f) := by
  refine ⟨rfl, rfl, rfl, rfl, fun d => ?_, rfl⟩
  by_cases h : d = n
  · rw [h, air_setAir_same, hf]
  · rw [air_setAir_other _ _ h]

theorem keepsRoutes_setPlane (m : Mach) (p : Nat) (f : Plane → Plane) : keepsRoutes m (setPlane m p f) :=
  ⟨rfl, rfl, rfl, lmod_length .., fun _ => rfl, rfl⟩

theorem keepsRoutes_keepBufs (s p : Nat) {f : Mach → Mach} (m : Mach) (hf : keepsRoutes m (f m)) : keepsRoutes m (keepBufs s p f m) := by
  unfold keepBufs
  dsimp only
  split
  · exact hf.trans ⟨rfl, rfl, rfl, rfl, fun _ => rfl, rfl⟩
  · exact hf

/-- An effect on a source, a generator or a group leaves the routes alone (R35, R103). -/
theorem keepsRoutes_applySource (m : Mach) (e : Pend) : keepsRoutes m (applySource m e) := by
  unfold applySource
  split
  · split
    · exact .refl m
    · dsimp only
      split <;> exact ⟨rfl, rfl, rfl, rfl, fun _ => rfl, rfl⟩
  · dsimp only
    split
    · exact (keepsRoutes_keepBufs _ _ m (keepsXbar_setPair ..).keepsRoutes).trans (keepsXbar_syncBack ..).keepsRoutes
    · exact keepsRoutes_keepBufs _ _ m (keepsXbar_setPair ..).keepsRoutes
  · split
    · exact .refl m
    · exact keepsRoutes_keepBufs _ _ m (keepsXbar_setSrc ..).keepsRoutes
  · exact keepsRoutes_foldl _ (fun _ _ => (keepsXbar_setPair ..).keepsRoutes) _ m
  · exact (keepsXbar_setPair ..).keepsRoutes
  · exact .refl m

theorem keepsRoutes_coldSw (m : Mach) (n : Nat) : keepsRoutes m { m with xb := { m.xb with coldSw := n } } :=
  ⟨rfl, rfl, rfl, rfl, fun _ => rfl, rfl⟩

theorem keepsRoutes_coldSwitch (m : Mach) (d : Nat) : keepsRoutes m (coldSwitch m d).1 := by
  unfold coldSwitch
  dsimp only
  split
  · have hcold : keepsRoutes m (setAir m d fun x => { x with cold := true }) := keepsRoutes_setAir m d fun _ => rfl
    exact (hcold.trans (keepsRoutes_coldSw ..)).trans (keepsXbar_raise ..).keepsRoutes
  · exact .refl m

theorem keepsRoutes_fadeTake (m : Mach) (d ses : Nat) : keepsRoutes m (fadeTake m d ses) := by
  unfold fadeTake
  dsimp only
  split
  · exact .refl m
  · split
    · exact keepsRoutes_setAir m d fun _ => rfl
    · split
      · exact (keepsXbar_fadeGroup ..).keepsRoutes
      · exact (keepsXbar_fadeGroup ..).keepsRoutes.trans (keepsRoutes_setAir _ d fun _ => rfl)

theorem keepsRoutes_warmUp (m : Mach) (d : Nat) : keepsRoutes m (warmUp m d) := by
  unfold warmUp
  dsimp only
  split
  · have hwarm : keepsRoutes m (setAir m d fun x => { x with cold := false }) := keepsRoutes_setAir m d fun _ => rfl
    exact hwarm.trans (keepsRoutes_fadeTake ..)
  · exact .refl m

theorem keepsRoutes_returnRoutes (m : Mach) (p k : Nat) : keepsRoutes m (returnRoutes m p k) :=
  ⟨rfl, rfl, rfl, rfl, fun _ => rfl, rfl⟩

theorem keepsRoutes_reportAir (m : Mach) (p k cold : Nat) : keepsRoutes m (reportAir m p k cold) :=
  ⟨rfl, rfl, rfl, rfl, fun _ => rfl, rfl⟩

theorem keepsRoutes_flipBank (m₀ : Mach) (p : Nat) (m : Mach) : keepsRoutes m (flipBank m₀ p m) :=
  ⟨rfl, rfl, rfl, lmod_length .., fun _ => rfl, rfl⟩

/-! ### The effects on routes -/

/-- Effects on routes move what is on air alone. -/
def onlyAir (m m' : Mach) : Prop := m' = { m with xb := { m.xb with air := m'.xb.air } }

theorem onlyAir.refl (m : Mach) : onlyAir m m := rfl
theorem onlyAir.trans {a b c : Mach} (h : onlyAir a b) (k : onlyAir b c) : onlyAir a c := by
  unfold onlyAir at *; rw [k, h]

theorem onlyAir_applyRoute (m : Mach) (e : Pend) : onlyAir m (applyRoute m e) := by
  unfold applyRoute
  split
  · split
    · rfl
    · exact .refl m
  · rfl
  · rfl
  · exact .refl m

theorem onlyAir_applyRoutes (es : List Pend) (m : Mach) : onlyAir m (es.foldl applyRoute m) := by
  induction es generalizing m with
  | nil => exact .refl m
  | cons e es ih => exact (onlyAir_applyRoute m e).trans (ih _)

/-- What an effect puts on air depends on what is on air alone. -/
theorem air_applyRoute {m m' : Mach} (h : m'.xb.air = m.xb.air) (e : Pend) : (applyRoute m' e).xb.air = (applyRoute m e).xb.air := by
  have hset (d : Nat) (f : Air → Air) : (setAir m' d f).xb.air = (setAir m d f).xb.air := by simp only [setAir, h]
  have hair (d : Nat) : air m' d = air m d := by simp only [air, h]
  unfold applyRoute
  split
  · rw [hair]
    split
    · exact hset ..
    · exact h
  · exact hset ..
  · exact hset ..
  · exact h

theorem air_applyRoutes (es : List Pend) {m m' : Mach} (h : m'.xb.air = m.xb.air) :
    (es.foldl applyRoute m').xb.air = (es.foldl applyRoute m).xb.air := by
  induction es generalizing m m' with
  | nil => exact h
  | cons e es ih => exact ih (air_applyRoute h e)

/-- The same effects on a machine whose crossbar is the same leave the same routes. -/
theorem keepsRoutes_applyRoutes (es : List Pend) {m m' : Mach} (h : keepsXbar m m') :
    keepsRoutes (es.foldl applyRoute m) (es.foldl applyRoute m') := by
  obtain ⟨hxb, hrings⟩ := h
  have ha := air_applyRoutes es (congrArg Xbar.air hxb)
  have hm := onlyAir_applyRoutes es m
  have hm' := onlyAir_applyRoutes es m'
  unfold onlyAir at hm hm'
  rw [hm, hm', hxb, ha]
  exact ⟨rfl, rfl, rfl, rfl, fun _ => rfl, hrings⟩

/-! ### The swap (R53) -/

/-- The effects due at a plane's switch point wait no more. -/
def dropDue (p k : Nat) (m : Mach) : Mach :=
  { m with xb := { m.xb with pend := m.xb.pend.filter fun e => !(e.plane == p && decide (e.target ≤ k)) } }

theorem keepsRoutes.dropDue {m m' : Mach} (h : keepsRoutes m m') (p k : Nat) : keepsRoutes (dropDue p k m) (dropDue p k m') :=
  ⟨h.dests, h.epoch, congrArg (List.filter _) h.pend, h.planes, h.route, h.rings⟩

theorem lt_of_mem_dropDue {p k : Nat} {m : Mach} {e : Pend} (h : e ∈ (dropDue p k m).xb.pend) (hp : e.plane = p) : k < e.target := by
  have h := (List.mem_filter.1 h).2
  simpa [hp] using h

/-- A swap puts the due routes on air; what else it does leaves them alone. -/
theorem keepsRoutes_swapPlane (p k : Nat) (m : Mach) :
    keepsRoutes (dropDue p k ((dueEffs m p k).foldl applyRoute m)) (swapPlane p k m) := by
  have hclasses := keepsXbar_classesAt m p k
  unfold swapPlane
  extract_lets m₀ es
  generalize classesAt m p k = x at hclasses ⊢
  obtain ⟨m₁, changed⟩ := x
  dsimp -zeta only at hclasses ⊢
  extract_lets m₂ _ m₃ moved m₄ turned vd ad m₆ mine m₇ m₈ m₉ m₁₀ m₁₁
  have h₃ : keepsRoutes (dropDue p k ((dueEffs m p k).foldl applyRoute m)) m₃ :=
    ((keepsRoutes_applyRoutes es hclasses).trans (keepsRoutes_foldl _ keepsRoutes_applySource es _)).dropDue p k
  have h₄ : keepsRoutes m₃ m₄ := keepsRoutes_foldl _ (fun _ _ => (keepsXbar_raise ..).keepsRoutes) moved m₃
  have h₅ := keepsRoutes_foldl_fst (fun (a : Mach × Nat) d => ((coldSwitch a.1 d).1, a.2 + b2n (coldSwitch a.1 d).2))
    (fun y d => keepsRoutes_coldSwitch y.1 d) vd (m₄, 0)
  have h₆ : keepsRoutes _ m₆ := keepsRoutes_foldl _ (fun _ _ => keepsRoutes_fadeTake ..) ad _
  have h₇ : keepsRoutes m₆ m₇ := keepsRoutes_foldl _ keepsRoutes_warmUp _ m₆
  have h₈ : keepsRoutes m₇ m₈ := keepsRoutes_foldl _ (fun _ _ => (keepsXbar_rewriteGroup ..).keepsRoutes) _ m₇
  have h₉ : keepsRoutes m₈ m₉ := keepsRoutes_foldl _ (fun _ _ => (keepsXbar_noteMismatch ..).keepsRoutes) _ m₈
  have h₁₀ : keepsRoutes m₉ m₁₀ := (keepsRoutes_returnRoutes m₉ p k).trans (keepsRoutes_reportAir ..)
  have h₁₁ : keepsRoutes m₁₀ m₁₁ := ((keepsXbar_anchorTimed m₁₀ p k).trans (keepsXbar_flowSwitch ..)).keepsRoutes
  have h := h₃.trans (h₄.trans (h₅.trans (h₆.trans (h₇.trans (h₈.trans (h₉.trans (h₁₀.trans h₁₁)))))))
  split
  · exact h
  · exact h.trans (keepsRoutes_flipBank ..)

/-! ### The switch point (R53, R54, R73) -/

/-- A plane once its switch point `k` has come: the next one's count, line and cut-off are in force. -/
def counted (k now : Nat) (x : Plane) : Plane := { x with
  nextSw := k + 1, cut := false, swAt := some now
  swLineNow := if x.applyAt ≤ k + 1 then x.swLine else x.swLineNow
  cutoffNow := if x.applyAt ≤ k + 1 then x.cutoff else x.cutoffNow }

/-- A plane is counted on whether its switch point swaps or staging holds it. -/
theorem switchPoint_eq (p : Nat) (m : Mach) :
    switchPoint p m =
      let m' := if (plane m p).staging then holdPlane p (plane m p).nextSw m else swapPlane p (plane m p).nextSw m
      setPlane m' p (counted (plane m p).nextSw m'.now) := rfl

theorem plane_setPlane_same {m : Mach} {p : Nat} (f : Plane → Plane) (h : p < m.xb.planes.length) :
    plane (setPlane m p f) p = f (plane m p) := lget_lmod_same _ _ _ _ h

/-- The switch point of a powered plane other than TP_0 is the plane's own work alone, if it leaves the rings idle. -/
theorem serveRings_planeSwitch {m : Mach} {p : Nat} (h1 : 1 ≤ p) (hon : targetOff m 22 = false)
    (idle : ringsIdle (switchPoint p m) = true) : serveRings (planeSwitch p m) = switchPoint p m := by
  have hswitch : planeSwitch p m = switchPoint p m := by
    unfold planeSwitch
    rw [if_neg (by simp [hon]), if_neg (by omega)]
  rw [hswitch]
  exact engine_idle _ _ idle

/-- The switch point of a staged plane puts the due routes on air and counts itself (R53). -/
theorem switchPoint_swaps {m : Mach} {p : Nat} (hp : p < m.xb.planes.length) (hst : (plane m p).staging = false) :
    let k := (plane m p).nextSw
    keepsRoutes (dropDue p k ((dueEffs m p k).foldl applyRoute m)) (switchPoint p m) ∧
      (plane (switchPoint p m) p).nextSw = k + 1 ∧ (plane (switchPoint p m) p).cut = false := by
  intro k
  have hswap := keepsRoutes_swapPlane p k m
  have hair := onlyAir_applyRoutes (dueEffs m p k) m
  unfold onlyAir at hair
  have hlen : p < (swapPlane p k m).xb.planes.length := by
    rw [hswap.planes, dropDue, hair]
    exact hp
  simp only [switchPoint_eq, hst, Bool.false_eq_true, if_false]
  rw [plane_setPlane_same _ hlen]
  exact ⟨hswap.trans (keepsRoutes_setPlane ..), rfl, rfl⟩

/-! ### Late staging (R54) -/

/-- An effect on the destination's video or audio is due at the plane's switch point `k`. -/
def waitsAt (m : Mach) (p k d : Nat) (audio : Bool) : Bool := m.xb.pend.any fun e => e.plane == p && decide (e.target ≤ k) &&
  match e.eff with
  | .route x v a _ => x == d && (if audio then a.isSome else v.isSome)
  | .bind x _ _ _ => x == d
  | _ => false

/-- A destination of a plane that is held: the switch counts of what was due move on by one. -/
def heldBack (m : Mach) (p k d : Nat) (x : Dest) : Dest :=
  if x.plane ≠ p then x
  else { x with vswc := if x.vswc = some k ∧ waitsAt m p k d false then some (k + 1) else x.vswc,
                aswc := if x.aswc = some k ∧ waitsAt m p k d true then some (k + 1) else x.aswc }

/-- An effect that was due at a switch point moves on to the next one. -/
def heldPend (p k : Nat) (e : Pend) : Pend := { e with target := if e.plane = p ∧ e.target ≤ k then k + 1 else e.target }

theorem lt_heldPend {p k : Nat} {e : Pend} (h : (heldPend p k e).plane = p) : k < (heldPend p k e).target := by
  have hp : e.plane = p := h
  simp only [heldPend, hp, true_and]
  split <;> omega

/-- A held plane's crossbar, by what the statements about it name. -/
theorem holdPlane_xb (p k : Nat) (m : Mach) :
    (holdPlane p k m).xb.air = m.xb.air ∧ (holdPlane p k m).xb.planes = m.xb.planes ∧
      (holdPlane p k m).xb.pend = m.xb.pend.map (heldPend p k) ∧ (holdPlane p k m).xb.dests = tmap (heldBack m p k) m.xb.dests := by
  unfold holdPlane
  dsimp only
  rw [raise_xb]
  exact ⟨rfl, rfl, rfl, rfl⟩

theorem ringsIdle_holdPlane (p k : Nat) (m : Mach) : ringsIdle (holdPlane p k m) = ringsIdle m := ringsIdle_raise ..

theorem recorded_holdPlane (p k : Nat) {m : Mach} (h : tableRoom m = true) : recorded (holdPlane p k m) 0xE10 0x19 = true :=
  recorded_raise _ 0xE10 0x19 1 p h

/-- A destination that is not listed is of no plane that could hold it back. -/
theorem heldBack_default (m : Mach) (p k d : Nat) : heldBack m p k d {} = {} := by
  unfold heldBack
  split
  · rfl
  · simp

theorem dest_holdPlane (p k : Nat) (m : Mach) (d : Nat) : dest (holdPlane p k m) d = heldBack m p k d (dest m d) := by
  obtain ⟨-, -, -, hdests⟩ := holdPlane_xb p k m
  unfold dest tget
  rw [hdests, tget?_tmap]
  cases tget? d m.xb.dests with
  | none => exact (heldBack_default ..).symm
  | some x => rfl

/-- The switch point of a plane whose staging is late holds it, and counts itself (R54). -/
theorem switchPoint_holds {m : Mach} {p : Nat} (hst : (plane m p).staging = true) :
    switchPoint p m = setPlane (holdPlane p (plane m p).nextSw m) p
      (counted (plane m p).nextSw (holdPlane p (plane m p).nextSw m).now) := by
  simp only [switchPoint_eq, hst, if_true]

/-! ### The catch-up copy (R53, R61) -/

/-- No entry that waits is recorded where no waiting command is one of those asked for. -/
theorem recordReady_of_none {m : Mach} {f : Cmd → Bool} (h : (m.ctl.journal.any fun e => e.waiting && f e.cmd) = false) :
    recordReady m f = m := by
  have hnil : (m.ctl.journal.filter fun e => e.waiting && f e.cmd) = [] :=
    List.filter_eq_nil_iff.2 fun e he => List.any_eq_false.1 h e he
  simp only [recordReady, hnil, List.map_nil, List.foldl_nil]

/-- The copy makes the background bank whole (R61). -/
theorem catchUp_eq {m : Mach} {p : Nat} (h : (m.ctl.journal.any fun e => e.waiting && e.cmd == .bankSwap p) = false) :
    catchUp p m = { m with xb := { m.xb with
      bg := if (plane m p).cut then m.xb.bg else m.xb.bg.filter fun x => !((air m x.1).plane == p && !loadedIn m p x.1)
      planes := lmod m.xb.planes p fun x => { x with ready := true } } } := by
  unfold catchUp bankReady
  dsimp only
  rw [recordReady_of_none]
  · split <;> rfl
  · split <;> exact h

/-! ### Events in a session's ring (R427) -/

/-- The slot of an index in a session's event ring holds an event with this code, group and body. -/
def holdsEvt (m : Mach) (n i code g : Nat) (body : List Byte) : Prop :=
  (tget? (i % 256) (win m n).evts).map (fun e => (e.code, e.group, e.body)) = some (code, g, padTo 0 48 body)

theorem holdsEvt.take {m : Mach} {n i code g : Nat} {body : List Byte} (h : holdsEvt m n i code g body) (k : Nat) :
    (tget? (i % 256) (win m n).evts).map (fun e => (e.code, e.group, e.body.take k)) = some (code, g, (padTo 0 48 body).take k) := by
  have hk := congrArg (Option.map fun x : Nat × Nat × List Byte => (x.1, x.2.1, x.2.2.take k)) h
  rwa [Option.map_map] at hk

theorem win_signal (m : Mach) (n j : Nat) : win (signal m n) j = win m j := by
  unfold signal
  split <;> rfl

theorem win_noteEntry (m : Mach) (n : Nat) (now : Bool) (j : Nat) : win (noteEntry m n now) j = win m j := by
  unfold noteEntry
  dsimp only
  split
  · exact win_signal ..
  · rfl

/-- What posting an event does to the windows: nothing where the ring is full, else the event stands in the slot at the tail. -/
theorem win_postEvt (m : Mach) (n code g : Nat) (body : List Byte) (j : Nat) :
    win (postEvt m n code g body) j = win m j ∧ 256 ≤ ringLen (win m n).evtTail (win m n).evtHead ∨
      ∃ e : Evt, (e.code, e.group, e.body) = (code, g, padTo 0 48 body) ∧ win (postEvt m n code g body) j =
        win (setWin m n fun w => { w with evts := tset w.evts (w.evtTail % 256) e, evtTail := ringNext w.evtTail }) j := by
  unfold postEvt
  dsimp only
  split
  next hfull => exact .inl ⟨rfl, hfull⟩
  next => exact .inr ⟨_, rfl, win_noteEntry ..⟩

/-- Another session's window is left alone. -/
theorem win_postEvt_other (m : Mach) {n j : Nat} (code g : Nat) (body : List Byte) (h : j ≠ n) :
    win (postEvt m n code g body) j = win m j := by
  rcases win_postEvt m n code g body j with ⟨hw, -⟩ | ⟨e, -, hw⟩
  · exact hw
  · rw [hw, win_setWin_other _ _ h]

/-- A ring with room takes the event at its tail. -/
theorem holdsEvt_postEvt {m : Mach} {n : Nat} (code g : Nat) (body : List Byte)
    (h : ringLen (win m n).evtTail (win m n).evtHead < 256) :
    holdsEvt (postEvt m n code g body) n (win m n).evtTail code g body := by
  rcases win_postEvt m n code g body n with ⟨-, hfull⟩ | ⟨e, he, hw⟩
  · omega
  · rw [holdsEvt, hw, win_setWin_same, tget?_tset_same, Option.map_some, he]

/-- A slot that holds the event holds it after the same event has been posted again, to whichever session. -/
theorem holdsEvt_postEvt_again {m : Mach} {n i code g : Nat} {body : List Byte} (h : holdsEvt m n i code g body) (j : Nat) :
    holdsEvt (postEvt m j code g body) n i code g body := by
  rcases win_postEvt m j code g body n with ⟨hw, -⟩ | ⟨e, he, hw⟩
  · rwa [holdsEvt, hw]
  · by_cases hn : n = j
    · subst hn
      rw [holdsEvt, hw, win_setWin_same, tget?_tset]
      split
      · rw [Option.map_some, he]
      · exact h
    · rwa [holdsEvt, hw, win_setWin_other _ _ hn]

/-- An event posted to several sessions stands in the ring of each that had room. -/
theorem holdsEvt_foldl {n : Nat} (code g : Nat) (body : List Byte) {l : List Nat} (hn : n ∈ l) {m : Mach}
    (h : ringLen (win m n).evtTail (win m n).evtHead < 256) :
    holdsEvt (l.foldl (fun m j => postEvt m j code g body) m) n (win m n).evtTail code g body := by
  have again (l : List Nat) {m : Mach} {i : Nat} (h : holdsEvt m n i code g body) :
      holdsEvt (l.foldl (fun m j => postEvt m j code g body) m) n i code g body := by
    induction l generalizing m with
    | nil => exact h
    | cons j l ih => exact ih (holdsEvt_postEvt_again h j)
  induction l generalizing m with
  | nil => simp at hn
  | cons j l ih =>
    by_cases hj : n = j
    · subst hj
      exact again l (holdsEvt_postEvt code g body h)
    · have hw := win_postEvt_other m code g body hj
      have hmem : n ∈ l := (List.mem_cons.1 hn).resolve_left hj
      have hl := ih hmem (m := postEvt m j code g body) (by rwa [hw])
      rwa [hw] at hl

/-- A listed key whose entry satisfies the condition is among the keys. -/
theorem mem_tkeys {α : Type} {p : α → Bool} {t : Tab α} {k : Nat} {a : α} (h : tget? k t = some a) (hp : p a = true) :
    k ∈ tkeys p t := by
  induction t with
  | nil => simp at h
  | cons x t ih =>
    obtain ⟨i, b⟩ := x
    rw [tget?_cons] at h
    have hcons (hk : k ∈ tkeys p t) : k ∈ tkeys p ((i, b) :: t) := by
      simp only [tkeys, List.filter_cons] at hk ⊢
      split
      · exact List.mem_cons_of_mem _ hk
      · exact hk
    split at h
    next hi =>
      cases h
      subst hi
      simp [tkeys, hp]
    next => exact hcons (ih h)

theorem mem_liveSessions {m : Mach} {n : Nat} (h : (ses m n).st = .opn) : n ∈ liveSessions m := by
  unfold ses tget at h
  cases hn : tget? n m.ctl.sessions with
  | none => rw [hn] at h; cases h
  | some x =>
    rw [hn] at h
    exact mem_tkeys hn (by simpa using Or.inl h)

/-- An event that also concerns an open session stands in its ring, if there is room (R426). -/
theorem holdsEvt_event {m : Mach} {n : Nat} (code g : Nat) (body : List Byte) (hst : (ses m n).st = .opn)
    (h : ringLen (win m n).evtTail (win m n).evtHead < 256) :
    holdsEvt (event m code g body (some n)) n (win m n).evtTail code g body :=
  holdsEvt_foldl code g body (List.mem_filter.2 ⟨mem_liveSessions hst, by simp⟩) h

/-! ### The reports of a switch point (R55) -/

/-- The body of a ROUTE_ON_AIR event. -/
def OnAir.body (r : OnAir) : List Byte :=
  le 8 r.epoch ++ le 1 r.plane ++ le 1 0 ++ le 2 r.cold ++ le 4 r.swcnt ++ le 2 r.carried

theorem OnAir.take_body (r : OnAir) : (padTo 0 48 r.body).take 18 = r.body := by
  have hlen : r.body.length = 18 := by simp [OnAir.body]
  rw [padTo, List.take_take, Nat.min_eq_left (by omega), ← hlen, List.take_left]

/-- The reports of a plane are taken to be posted. -/
def takeReports (p : Nat) (m : Mach) : Mach := { m with xb := { m.xb with onAir := m.xb.onAir.filter fun r => r.plane != p } }

/-- A single report of a session that is open is posted to it. -/
theorem postOnAir_single {m : Mach} {p : Nat} {r : OnAir} (hr : (m.xb.onAir.filter fun r => r.plane == p) = [r]) (hn : r.ses < 64)
    (hst : (ses m r.ses).st = .opn) :
    postOnAir p m = event (takeReports p m) 0x0010 0 r.body (some r.ses) := by
  have hlive : live m r.ses = true := by simp [live, hst]
  unfold postOnAir
  rw [hr, List.foldl_cons, List.foldl_nil, if_pos ⟨hn, hlive⟩]
  rfl

end Sys2Proof.Machine

namespace Sys2Proof.Proofs
open Sys2Proof.Machine Sys2Proof.Safety

/-- Settles O30: each event is the law of its step; at a switch point every step after the routes leaves them alone. -/
theorem planePipelineProceeds : Obligations.PlanePipelineProceeds := by
  unfold Obligations.PlanePipelineProceeds
  refine ⟨?_, ?_, ?_, ?_, ?_, ?_⟩
  · intro s p hp staged
    exact answers_of_runIf rfl (decide_eq_true hp) ⟨rfl, rfl, rfl⟩
  · intro s p us hp hst planes
    refine takes_of_runIf rfl (decide_eq_true hp) ?_
    simp only [stagingComplete, hst, Bool.not_true, Bool.false_eq_true, if_false]
    rfl
  · intro s p h1 hp hlen hon idle hst k m
    obtain ⟨hkeep, hnext, hcut⟩ := switchPoint_swaps hlen hst
    have hair : onlyAir s.toMach m := onlyAir_applyRoutes _ _
    unfold onlyAir at hair
    have hidle : ringsIdle (switchPoint p s.toMach) = true := by
      rw [hkeep.rings, ← idle, ringsIdle_of_ctl]
      exact congrArg (·.ctl) hair
    refine answers_of_runIf rfl (decide_eq_true hp) ?_
    rw [serveRings_planeSwitch h1 hon hidle]
    refine ⟨hkeep.dests.trans (congrArg (·.xb.dests) hair), hkeep.epoch.trans (congrArg (·.xb.epoch) hair), hnext, hcut,
      fun e he hpe => lt_of_mem_dropDue (hkeep.pend ▸ he) hpe, fun d _ => ?_⟩
    have hroute : (air (switchPoint p s.toMach) d).route = (air m d).route := hkeep.route d
    simpa only [Air.route, Prod.mk.injEq] using hroute
  · intro s p h1 hp hlen hon idle hst hroom k waits moved
    obtain ⟨hair, hplanes, hpend, -⟩ := holdPlane_xb p k s.toMach
    have hidle : ringsIdle (switchPoint p s.toMach) = true := by
      rw [switchPoint_holds hst]
      exact (ringsIdle_holdPlane ..).trans idle
    refine answers_of_runIf rfl (decide_eq_true hp) ?_
    rw [serveRings_planeSwitch h1 hon hidle, switchPoint_holds hst]
    refine ⟨hair, ?_, ?_, fun e he hpe => ?_, recorded_holdPlane p k hroom, fun d _ => dest_holdPlane p k s.toMach d⟩
    · exact congrArg Plane.nextSw (plane_setPlane_same _ (by rw [hplanes]; exact hlen))
    · exact (congrArg List.length hpend).trans (List.length_map _)
    · obtain ⟨x, -, rfl⟩ := List.mem_map.1 (hpend ▸ he)
      exact lt_heldPend hpe
  · intro s p hp hw copied bg
    exact takes_of_runIf rfl (decide_eq_true hp) (catchUp_eq hw)
  · intro s p r hp hr hn hst hring
    refine answers_of_runIf rfl (decide_eq_true hp) ?_
    rw [postOnAir_single hr hn hst]
    have hctl := sameButCtl_event (takeReports p s.toMach) 0x0010 0 r.body (some r.ses)
    have hevt := (holdsEvt_event (m := takeReports p s.toMach) 0x0010 0 r.body hst hring).take 18
    rw [r.take_body] at hevt
    exact ⟨congrArg (fun m => { s with toMach := m }) hctl, hevt⟩

end Sys2Proof.Proofs

/-! SUPPORT. What a completed frame, a lost source and a read decision leave: the class changes of the sixteen planes, the source, the feed. -/
namespace Sys2Proof.Machine
open Sys2Proof.Safety

/-! ### One step per plane -/

/-- A step of one plane has changed in what that plane holds of a source alone. -/
def onlyPair (s p : Nat) (m m' : Mach) : Prop := onlyPairs m m' ∧ ∀ q ≠ p, pair m' s q = pair m s q

theorem onlyPair.refl (s p : Nat) (m : Mach) : onlyPair s p m m := ⟨.refl m, fun _ _ => rfl⟩

theorem onlyPair.trans {s p : Nat} {a b c : Mach} (h : onlyPair s p a b) (k : onlyPair s p b c) : onlyPair s p a c :=
  ⟨h.1.trans k.1, fun q hq => (k.2 q hq).trans (h.2 q hq)⟩

theorem onlyPair_setPair (m : Mach) (s p : Nat) (f : SrcPlane → SrcPlane) : onlyPair s p m (setPair m s p f) :=
  ⟨rfl, fun _ hq => pair_setPair_other _ _ _ hq⟩

theorem onlyPair_setDue (m : Mach) (s p c : Nat) : onlyPair s p m (setDue m s p c) := onlyPair_setPair ..

/-- A class change that follows a note in the pair. -/
theorem onlyPair_noteDue (m : Mach) (s p c : Nat) (f : SrcPlane → SrcPlane) : onlyPair s p m (setDue (setPair m s p f) s p c) :=
  (onlyPair_setPair ..).trans (onlyPair_setDue ..)

/-- Over several planes each takes its own step, from a machine that what the others did has not changed for it. -/
theorem foldl_planes {s : Nat} {g : Mach → Nat → Mach} (h : ∀ m p, onlyPair s p m (g m p)) {ps : List Nat} (hn : ps.Nodup) (m : Mach) :
    onlyPairs m (ps.foldl g m) ∧ (∀ q ∉ ps, pair (ps.foldl g m) s q = pair m s q) ∧
      ∀ p ∈ ps, ∃ b, onlyPairs m b ∧ pair b s p = pair m s p ∧ pair (ps.foldl g m) s p = pair (g b p) s p := by
  induction ps generalizing m with
  | nil => exact ⟨.refl m, fun _ _ => rfl, fun p hp => absurd hp List.not_mem_nil⟩
  | cons p ps ih =>
    obtain ⟨hp, hps⟩ := List.nodup_cons.1 hn
    obtain ⟨o, hother⟩ := h m p
    obtain ⟨o', hout, hin⟩ := ih hps (g m p)
    refine ⟨o.trans o', fun q hq => ?_, fun q hq => ?_⟩
    · rw [List.mem_cons, not_or] at hq
      exact (hout q hq.2).trans (hother q hq.1)
    · rcases List.mem_cons.1 hq with rfl | hq
      · exact ⟨m, .refl m, rfl, hout q hp⟩
      · obtain ⟨b, ob, hb, hstep⟩ := hin q hq
        exact ⟨b, o.trans ob, hb.trans (hother q fun e => hp (e ▸ hq)), hstep⟩

theorem srcOf_of_is {m m' : Mach} (h : m'.is_ = m.is_) (n : Nat) : srcOf m' n = srcOf m n := by rw [srcOf, h]; rfl

theorem onlyPairs.target {m m' : Mach} (h : onlyPairs m m') (p : Nat) : target m' p = target m p := by rw [h]; rfl

theorem onlyPairs.tableRoom {m m' : Mach} (h : onlyPairs m m') : tableRoom m' = tableRoom m := by rw [h]; rfl

theorem onlyPairs.begun {m m' : Mach} (h : onlyPairs m m') (x : Src) : begun m' x = begun m x := by rw [h]; rfl

theorem onlyPairs.plainClass {m m' : Mach} (h : onlyPairs m m') (s p : Nat) : plainClass m' s p = plainClass m s p := by rw [h]; rfl

/-- Class changes caused towards all planes at once, each after a note in its pair. -/
theorem foldl_noteDue (m : Mach) (s : Nat) (f : SrcPlane → SrcPlane) (cls : Mach → Nat → Nat) :
    let t := (List.range 16).foldl (fun m p => setDue (setPair m s p f) s p (cls m p)) m
    onlyPairs m t ∧ ∀ p < 16, ∃ b, onlyPairs m b ∧ (pair t s p).due.getLast? = some (cls b p, target m p) := by
  intro t
  obtain ⟨o, -, hin⟩ := foldl_planes (s := s) (fun m p => onlyPair_noteDue m s p (cls m p) f) List.nodup_range m
  refine ⟨o, fun p hp => ?_⟩
  obtain ⟨b, ob, -, hstep⟩ := hin p (List.mem_range.2 hp)
  obtain ⟨hdue, -⟩ := pair_setDue (setPair b s p f) s p (cls b p)
  refine ⟨b, ob, ?_⟩
  rw [show pair t s p = _ from hstep, hdue, ← ob.target]
  rfl

/-! ### A frame completes (R76, R79, R80, R87) -/

/-- The machine once a source has noted the frame that completes, before it is judged. -/
def noteFrame (m : Mach) (s : Nat) (h : FrameShape) : Mach := setSrc m s fun x =>
  { x with
    pid := none, periods := (h.period :: x.periods).take 16
    kTicks := ((m.now - if begun m x then x.prev1At else x.line1At) :: x.kTicks).take 16
    cur := if begun m x then x.cur else none, ended := none
    bufs := match (if begun m x then x.ended else x.cur) with
      | some i => lmod x.bufs i fun b => { b with st := 2, at_ := m.dt.t, fmt := h.fmt (srcOf m s).pid }
      | none => x.bufs }

@[simp] theorem noteFrame_present (m : Mach) (s : Nat) (h : FrameShape) : (srcOf (noteFrame m s h) s).present = (srcOf m s).present := by
  rw [noteFrame, srcOf_setSrc_same]
@[simp] theorem noteFrame_fmt (m : Mach) (s : Nat) (h : FrameShape) : (srcOf (noteFrame m s h) s).fmt = (srcOf m s).fmt := by
  rw [noteFrame, srcOf_setSrc_same]
@[simp] theorem noteFrame_lastSig (m : Mach) (s : Nat) (h : FrameShape) : (srcOf (noteFrame m s h) s).lastSig = (srcOf m s).lastSig := by
  rw [noteFrame, srcOf_setSrc_same]
@[simp] theorem noteFrame_pair (m : Mach) (s : Nat) (h : FrameShape) (p : Nat) : pair (noteFrame m s h) s p = pair m s p := rfl
@[simp] theorem noteFrame_target (m : Mach) (s : Nat) (h : FrameShape) (p : Nat) : target (noteFrame m s h) p = target m p := rfl

theorem begun_noteFrame (m : Mach) (s : Nat) (h : FrameShape) : begun (noteFrame m s h) (srcOf (noteFrame m s h) s) = begun m (srcOf m s) := by
  rw [noteFrame, srcOf_setSrc_same]; rfl

/-- The frame in progress is the one that completes, unless the next has begun: it is there to be read. -/
theorem noteFrame_completes {m : Mach} {s i : Nat} (h : FrameShape) (hb : begun m (srcOf m s) = false) (hc : (srcOf m s).cur = some i)
    (hi : i < (srcOf m s).bufs.length) :
    (lget {} (srcOf (noteFrame m s h) s).bufs i).st = 2 ∧ (lget {} (srcOf (noteFrame m s h) s).bufs i).at_ = m.dt.t ∧
      (srcOf (noteFrame m s h) s).cur = none := by
  rw [noteFrame, srcOf_setSrc_same]
  simp only [hb, hc, Bool.false_eq_true, if_false, lget_lmod_same _ _ _ _ hi, and_self]

/-- A frame of the source's own format is judged by every plane. -/
theorem frameComplete_agrees {m : Mach} {s : Nat} {h : FrameShape} (hp : (srcOf m s).present = true)
    (hf : h.fmt (srcOf m s).pid = (srcOf m s).fmt) : frameComplete s h m = (List.range 16).foldl (judge s) (noteFrame m s h) :=
  (if_pos ((noteFrame_present ..).trans hp)).trans (if_pos (hf.trans (noteFrame_fmt ..).symm))

/-- A second frame of the same format makes an absent source present (R76). -/
theorem frameComplete_second {m : Mach} {s : Nat} {h : FrameShape} (hp : (srcOf m s).present = false)
    (hl : (srcOf m s).lastSig = some (h.fmt (srcOf m s).pid)) :
    frameComplete s h m = becomePresent (noteFrame m s h) s (h.fmt (srcOf m s).pid) :=
  (if_neg (Bool.eq_false_iff.1 ((noteFrame_present ..).trans hp))).trans (if_pos ((noteFrame_lastSig ..).trans hl))

/-- A first frame of its format is remembered (R76). -/
theorem frameComplete_first {m : Mach} {s : Nat} {h : FrameShape} (hp : (srcOf m s).present = false)
    (hl : (srcOf m s).lastSig ≠ some (h.fmt (srcOf m s).pid)) :
    frameComplete s h m =
      setSrc (noteFrame m s h) s fun x => { x with lastSig := some (h.fmt (srcOf m s).pid), periods := [h.period] } :=
  (if_neg (Bool.eq_false_iff.1 ((noteFrame_present ..).trans hp))).trans (if_neg fun e => hl ((noteFrame_lastSig ..).symm.trans e))

theorem onlyPair_judge (s : Nat) (m : Mach) (p : Nat) : onlyPair s p m (judge s m p) := by
  unfold judge
  extract_lets x c next q ls m₁
  have h₁ : onlyPair s p m m₁ := onlyPair_setPair ..
  split
  · split
    · exact .refl s p m
    · exact onlyPair_noteDue ..
  · split
    · exact h₁.trans (onlyPair_setDue ..)
    · split
      · exact h₁.trans (onlyPair_noteDue ..)
      · exact h₁

/-- A whole frame in the inner window that reaches the count qualifies an ASYNCHRONOUS pair (R80). -/
theorem judge_qualifies {m : Mach} {s p : Nat} (hb : begun m (srcOf m s) = false) (hc : plainClass m s p = 2)
    (hn : (pair m s p).next = 2) (hi : (pair m s p).inside = true) (hq : (pair m s p).qSet ≤ min 64 ((pair m s p).qcount + 1)) :
    (pair (judge s m p) s p).due.getLast? = some (3, target m p) := by
  obtain ⟨b, hj, ht⟩ : ∃ b, judge s m p = setDue b s p 3 ∧ target b p = target m p := by
    refine ⟨?_, ?_, ?_⟩
    rotate_left
    · simp only [judge, hc, hb, hn, hi, hq, OfNat.ofNat_ne_one, OfNat.ofNat_ne_zero, or_self, and_self, Bool.false_eq_true, if_false,
        if_true]
      rfl
    · rfl
  rw [hj, (pair_setDue b s p 3).1, ht]

/-- A frame of its own format that a present source completes (R79, R80, R87). -/
theorem frameComplete_present {m : Mach} {s i : Nat} {h : FrameShape} (hp : (srcOf m s).present = true)
    (hf : h.fmt (srcOf m s).pid = (srcOf m s).fmt) (hb : begun m (srcOf m s) = false) (hc : (srcOf m s).cur = some i)
    (hi : i < (srcOf m s).bufs.length) :
    let t := frameComplete s h m
    onlyIs m t ∧ (srcOf t s).present = true ∧ (lget {} (srcOf t s).bufs i).st = 2 ∧ (lget {} (srcOf t s).bufs i).at_ = m.dt.t ∧
      (srcOf t s).cur = none ∧ ∀ p < 16, plainClass t s p = 2 → (pair m s p).next = 2 → (pair m s p).inside = true →
        (pair m s p).qSet ≤ min 64 ((pair m s p).qcount + 1) → (pair t s p).due.getLast? = some (3, target m p) := by
  intro t
  have ht : t = (List.range 16).foldl (judge s) (noteFrame m s h) := frameComplete_agrees hp hf
  clear_value t
  obtain ⟨o, -, hin⟩ := foldl_planes (onlyPair_judge s) List.nodup_range (noteFrame m s h)
  rw [← ht] at o hin
  obtain ⟨hst, hat, hcur⟩ := noteFrame_completes h hb hc hi
  rw [o.srcOf]
  refine ⟨(show onlyIs m (noteFrame m s h) from rfl).trans o.onlyIs, (noteFrame_present ..).trans hp, hst, hat, hcur, ?_⟩
  intro p hp16 hcls hn hins hq
  obtain ⟨b, ob, hpair, hstep⟩ := hin p (List.mem_range.2 hp16)
  rw [noteFrame_pair] at hpair
  rw [hstep, judge_qualifies, ob.target, noteFrame_target]
  · rw [ob.begun, ob.srcOf, begun_noteFrame, hb]
  · rw [ob.plainClass, ← o.plainClass, hcls]
  · rw [hpair, hn]
  · rw [hpair, hins]
  · rw [hpair]; exact hq

/-- What a source becomes when it becomes present (R76, R80). -/
theorem becomePresent_leaves (m : Mach) (s : Nat) (f : SrcFmt) :
    let t := becomePresent m s f
    (srcOf t s).present = true ∧ (srcOf t s).fmt = f ∧ ∀ p < 16, (pair t s p).due.getLast?.map (·.2) = some (target m p) := by
  unfold becomePresent
  extract_lets m₁ m₂ t
  have hsrc : (srcOf m₁ s).present = true ∧ (srcOf m₁ s).fmt = f := by
    simp only [m₁, srcOf_setSrc_same]
    split <;> exact ⟨rfl, rfl⟩
  obtain ⟨o, hdue⟩ : onlyPairs m₁ m₂ ∧ ∀ p < 16, ∃ b, onlyPairs m₁ b ∧
      (pair m₂ s p).due.getLast? = some (plainClass b s p, target m₁ p) :=
    foldl_noteDue m₁ s (fun x => { x with inside := false }) fun m p => plainClass m s p
  obtain ⟨-, -, his, -⟩ := apartFromFaults_endCond m₂ s 0x16
  have htarget (p : Nat) : target m₁ p = target m p := rfl
  clear_value m₁ m₂
  rw [(srcOf_of_is his s).trans (o.srcOf s)]
  refine ⟨hsrc.1, hsrc.2, fun p hp => ?_⟩
  obtain ⟨b, -, hb⟩ := hdue p hp
  rw [pair_of_pairs (congrArg Inputs.pairs his), hb, Option.map_some, htarget]

/-! ### A read decision (R88, R91) -/

/-- The drops of R88, written out. -/
theorem dropsFrom_eq (last n : Nat) : dropsFrom last n =
    if 0 < ahead n last ∧ ahead n last < 2 ^ 31 then ahead n last - 1 else 0 := by
  simp only [dropsFrom, newer, Bool.and_eq_true, decide_eq_true_eq]

/-- A feed after a decision that has found frame `n` in buffer `b`. -/
theorem Feed.take_eq (f : Feed) (b n : Nat) : f.take b n = { f with
    started := true, buf := some b, last := n
    repeats := if f.started ∧ n = f.last then sat f.repeats 1 else f.repeats
    drops := if f.started ∧ n ≠ f.last then sat f.drops (dropsFrom f.last n) else f.drops } := by
  cases hs : f.started with
  | false => simp [Feed.take, hs]
  | true =>
    by_cases hn : n = f.last
    · simp [Feed.take, hs, hn]
    · simp [Feed.take, hs, hn]

/-- The feed after a decision that has chosen buffer `b` (R88, R89). -/
def Feed.decided (f : Feed) (m : Mach) (b : Nat) : Feed :=
  { f.take b (lget {} (srcOf m f.src).bufs b).num with prev := f.buf, prevUntil := m.now + 50 * usT, torn := [], lossRun := 0 }

/-- A decision of a feed whose source is there to be read. -/
theorem readDecision_chooses {m : Mach} {i b : Nat} {f : Feed} (hf : tget {} m.is_.feeds i = f) (hv : f.valid = true)
    (hs : f.since ≤ (plane m f.plane).nextSw) (ha : 2304 ≤ f.src ∨ (pair m f.src f.plane).cls ≠ 0)
    (hb : chooseBuf m f.src f.plane = some b) :
    readDecision i m = { m with is_ := { m.is_ with feeds := tset m.is_.feeds i (f.decided m b) } } := by
  have hgo : ¬((!f.valid) = true ∨ (plane m f.plane).nextSw < f.since) := by simp [hv, hs]
  have habs : (decide (f.src < 2304) && (pair m f.src f.plane).cls == 0) = false := by
    rcases ha with h | h
    · simp [h]
    · simp [h]
  simp only [readDecision, hf, if_neg hgo, habs, Bool.not_false, if_true, hb]
  rfl

/-! ### A source is lost (R97, R98) -/

/-- A fault of a kind finds room in the table, and leaves room for one of another kind. -/
def roomBeside (m : Mach) (src kind : Nat) : Prop :=
  m.flt.recs.length < 2047 ∨ recorded m src kind = true ∧ tableRoom m = true

theorem roomBeside.tableRoom {m : Mach} {src kind : Nat} (h : roomBeside m src kind) : tableRoom m = true := by
  rcases h with h | h
  · exact decide_eq_true (Nat.lt_succ_of_lt h)
  · exact h.2

/-- A fault whose record is there takes no room in the table. -/
theorem tableRoom_raise_of_recorded {m : Mach} {src kind : Nat} (cls addr : Nat) (h : tableRoom m = true) (hr : recorded m src kind = true) :
    tableRoom (raise m src kind cls addr) = true := by
  have hk := congrArg List.length (faultKeys_raise m src kind cls addr h)
  rw [if_pos hr, faultKeys, faultKeys, List.length_map, List.length_map] at hk
  rwa [tableRoom, hk]

theorem roomBeside_raise {m : Mach} {src kind : Nat} (cls addr : Nat) (h : roomBeside m src kind) :
    roomBeside (raise m src kind cls addr) src kind := by
  refine .inr ⟨recorded_raise _ _ _ _ _ h.tableRoom, ?_⟩
  rcases h with h | h
  · exact tableRoom_raise _ _ _ _ h
  · exact tableRoom_raise_of_recorded _ _ h.2 h.1

/-- Concealment leaves the crossbar, the pairs and the count of losses, and its faults are of one kind. -/
structure conceals (s : Nat) (m m' : Mach) : Prop where
  xb : m'.xb = m.xb
  pairs : m'.is_.pairs = m.is_.pairs
  loss : (tget {} m'.is_.cnts s).loss = (tget {} m.is_.cnts s).loss
  room : roomBeside m s 0x15 → roomBeside m' s 0x15

theorem conceals.refl (s : Nat) (m : Mach) : conceals s m m := ⟨rfl, rfl, rfl, id⟩

theorem conceals.trans {s : Nat} {a b c : Mach} (h : conceals s a b) (k : conceals s b c) : conceals s a c :=
  ⟨k.xb.trans h.xb, k.pairs.trans h.pairs, k.loss.trans h.loss, k.room ∘ h.room⟩

theorem conceals_setSrc (m : Mach) (s : Nat) (f : Src → Src) : conceals s m (setSrc m s f) := ⟨rfl, rfl, rfl, id⟩

/-- One concealed segment is counted and reported (R93). -/
theorem conceals_noteConceal (m : Mach) (s : Nat) : conceals s m (noteConceal m s) := by
  have his : (noteConceal m s).is_ = (setSrcCnt m s fun c => { c with concLink := sat c.concLink 1 }).is_ := raise_is ..
  refine ⟨raise_xb .., (congrArg Inputs.pairs his).trans rfl, ?_, fun h => ?_⟩
  · simp only [his, setSrcCnt, tget_tmod_same]
  · exact roomBeside_raise (m := setSrcCnt m s fun c => { c with concLink := sat c.concLink 1 }) _ _ h

theorem conceals_concealRest (m : Mach) (s i : Nat) : conceals s m (concealRest m s i) := by
  unfold concealRest
  extract_lets f whole fill
  refine List.foldlRecOn _ fill (.refl s m) fun b hb l _ => hb.trans ?_
  exact (conceals_noteConceal b s).trans (conceals_setSrc ..)

/-- A source that returns has its flow's offset chosen anew (R197): the flow alone changes. -/
theorem rebaseFlow_onlyFlw (m : Mach) (s : Nat) : rebaseFlow m s = { m with flw := (rebaseFlow m s).flw } := by
  unfold rebaseFlow
  split
  · split <;> rfl
  · rfl

/-- What a loss leaves of its source (R97). -/
theorem loseSource_leaves {m : Mach} (s last : Nat) (hroom : tableRoom m = true) :
    let t := loseSource m s last
    (srcOf t s).present = false ∧ (srcOf t s).cur = (srcOf m s).cur ∧ recorded t s 0x16 = true ∧
      (tget {} t.is_.cnts s).loss = sat (tget {} m.is_.cnts s).loss 1 ∧ ∀ p < 16, (pair t s p).due.getLast? = some (0, target m p) := by
  unfold loseSource
  extract_lets m₁ m₂ m₃ quiet aud t
  obtain ⟨o, hdue⟩ : onlyPairs m m₁ ∧ ∀ p < 16, ∃ b, onlyPairs m b ∧ (pair m₁ s p).due.getLast? = some (0, target m p) :=
    foldl_noteDue m s (fun x => { x with qcount := 0, inside := false }) fun _ _ => 0
  clear_value m₁
  have hset (m : Mach) (a : Aud) : ({ m with aud := a } : Mach).is_ = m.is_ := rfl
  have his : t.is_ = m₃.is_ := (raise_is ..).trans (hset m₃ aud)
  have hroom' : tableRoom m₁ = true := o.tableRoom.trans hroom
  rw [srcOf_of_is his, srcOf_setSrc_same]
  refine ⟨rfl, ?_, recorded_raise _ _ _ _ _ hroom', ?_, fun p hp => ?_⟩
  · rw [← o.srcOf]; rfl
  · rw [his, show m.is_.cnts = m₁.is_.cnts by rw [o]]
    exact congrArg SrcCnt.loss (tget_tmod_same {} {} m₁.is_.cnts s fun c : SrcCnt => { c with loss := sat c.loss 1 })
  · obtain ⟨-, -, hb⟩ := hdue p hp
    exact (congrArg (·.due.getLast?) (pair_of_pairs (congrArg Inputs.pairs his) s p)).trans hb

/-- The machine once a lost source's interrupted frame counts as complete (R98), before the source is lost to the planes. -/
theorem sourceLost_eq {m : Mach} {s : Nat} (hp : (srcOf m s).present = true) :
    ∃ b last, sourceLost s m = loseSource b s last ∧ conceals s m b ∧ (srcOf b s).cur = none := by
  have hflow : conceals s m (rebaseFlow m s) := by rw [rebaseFlow_onlyFlw]; exact ⟨rfl, rfl, rfl, id⟩
  unfold sourceLost
  rw [hp, Bool.not_true, if_neg Bool.false_ne_true]
  extract_lets m₁ m₂
  refine ⟨m₂, _, rfl, ?_⟩
  unfold m₂
  split
  case h_1 i hi =>
    exact ⟨hflow.trans ((conceals_concealRest m₁ s i).trans (conceals_setSrc ..)), congrArg Src.cur (srcOf_setSrc_same ..)⟩
  case h_2 hi =>
    exact ⟨hflow.trans (conceals_setSrc ..), (congrArg Src.cur (srcOf_setSrc_same ..)).trans hi⟩

theorem conceals.target {s : Nat} {m m' : Mach} (h : conceals s m m') (p : Nat) : target m' p = target m p := by
  rw [Machine.target, plane, h.xb]; rfl

/-- A present source is lost to every plane, with a fault and a count (R97). -/
theorem sourceLost_leaves {m : Mach} {s : Nat} (hp : (srcOf m s).present = true) (hroom : m.flt.recs.length < 2047) :
    let t := sourceLost s m
    (srcOf t s).present = false ∧ (srcOf t s).cur = none ∧ recorded t s 0x16 = true ∧
      (tget {} t.is_.cnts s).loss = sat (tget {} m.is_.cnts s).loss 1 ∧ ∀ p < 16, (pair t s p).due.getLast? = some (0, target m p) := by
  obtain ⟨b, last, ht, hb, hcur⟩ := sourceLost_eq hp
  obtain ⟨hpres, hkeep, hrec, hloss, hdue⟩ := loseSource_leaves s last (hb.room (.inl hroom)).tableRoom
  rw [ht]
  exact ⟨hpres, hkeep.trans hcur, hrec, by rw [hloss, hb.loss], fun p hp => by rw [hdue p hp, hb.target]⟩

theorem sourceLost_absent {m : Mach} {s : Nat} (h : (srcOf m s).present = false) : sourceLost s m = m := by
  rw [sourceLost, h, Bool.not_false, if_pos rfl]

end Sys2Proof.Machine

namespace Sys2Proof.Proofs
open Sys2Proof.Machine Sys2Proof.Safety

/-- Settles O32: each clause is the law of a frame's completion, of a read decision or of a loss, for the case it speaks of. -/
theorem framesComplete : Obligations.FramesComplete := by
  unfold Obligations.FramesComplete
  refine ⟨?_, ?_, ?_, ?_⟩
  · intro s k i h hk hp hf hb hc hi
    refine answers_of_runIf rfl (decide_eq_true hk) ?_
    obtain ⟨o, hpres, hst, hat, hcur, hjudge⟩ := frameComplete_present hp hf hb hc hi
    exact ⟨o, hpres, hst, hat, hcur, fun p hp ⟨hcls, hn, hins, hq⟩ => hjudge p hp hcls hn hins hq⟩
  · intro s k h hk hp f
    refine answers_of_runIf rfl (decide_eq_true hk) ?_
    split
    next hl =>
      rw [frameComplete_second hp hl]
      exact becomePresent_leaves (noteFrame s.toMach k h) k f
    next hl =>
      rw [frameComplete_first hp hl, srcOf_setSrc_same]
      exact ⟨(noteFrame_present ..).trans hp, rfl⟩
  · intro s i b hi hv hs f ha hb n ahead skipped g
    refine takes_of_runIf rfl (decide_eq_true hi) ((readDecision_chooses rfl hv hs ha hb).trans ?_)
    have hskip : dropsFrom f.last n = skipped := dropsFrom_eq ..
    have hg : f.decided s.toMach b = g := by
      rw [Feed.decided, Feed.take_eq]
      simp [g, hskip, n]
    rw [hg]
  · intro s k hk x silent
    have hno : noLines s.toMach k = decide silent := rfl
    refine ⟨fun hp hs hroom => answers_of_runIf rfl (decide_eq_true hk) ?_, fun h => takes_of_runIf rfl (decide_eq_true hk) ?_⟩
    · rw [signalLost, hno, if_pos (decide_eq_true hs)]
      exact sourceLost_leaves hp hroom
    · rw [signalLost, hno]
      rcases h with h | h
      · rw [sourceLost_absent h, ite_self]
      · rw [decide_eq_false h, if_neg Bool.false_ne_true]

end Sys2Proof.Proofs

/-! SUPPORT. Releases of receive flows: what a line, a sample frame, a second's lateness, a silent path and a swap leave. -/
namespace Sys2Proof.Machine
open Sys2Proof.Safety

@[simp] theorem ingress_setIngress_same (m : Mach) (p : Nat) (f : Ingress → Ingress) : ingress (setIngress m p f) p = f (ingress m p) :=
  tget_tmod_same _ _ _ _ _
@[simp] theorem ctx_setIngress (m : Mach) (p c : Nat) (f : Ingress → Ingress) : ctx (setIngress m p f) c = ctx m c := rfl
@[simp] theorem ctx_setCtxCnt (m : Mach) (k c : Nat) (f : CtxCnt → CtxCnt) : ctx (setCtxCnt m k f) c = ctx m c := rfl
@[simp] theorem ingress_setCtx (m : Mach) (c p : Nat) (f : Ctx → Ctx) : ingress (setCtx m c f) p = ingress m p := rfl

theorem raise_flw (m : Mach) (src kind cls addr : Nat) : (raise m src kind cls addr).flw = m.flw := by
  obtain ⟨-, -, -, -, -, -, hflw, -⟩ := apartFromFaults_raise m src kind cls addr
  exact hflw

theorem cnt_setCtxCnt_same (m : Mach) (c : Nat) (f : CtxCnt → CtxCnt) :
    tget {} (setCtxCnt m c f).flw.cnts c = f (tget {} m.flw.cnts c) := tget_tmod_same _ _ _ _ _

/-! ### The playout offset (R197, R218) -/

/-- A given offset is in force from the next line 1 on. -/
theorem settleOffset_given {m : Mach} {c : Nat} (ts : Nat) (h : (ctx m c).d.auto = false) :
    settleOffset m c ts = setCtx m c fun x => { x with moved := false, offset := (ctx m c).d.offset } := by
  rw [settleOffset, h, Bool.not_false, if_pos rfl]

/-- A flow that has become present has its offset chosen. -/
theorem settleOffset_chosen {m : Mach} {c : Nat} (ts : Nat) (h : (ctx m c).d.auto = true) (hb : (ctx m c).based = false) :
    settleOffset m c ts = setCtx m c fun x =>
      { x with based := true, rebase := false, moved := false, lateRun := 0, offset := autoOffset m (ctx m c).d ts } := by
  simp only [settleOffset, h, hb, Bool.not_true, Bool.false_eq_true, false_and, and_false, if_false]

/-! ### A line is released (R196, R201) -/

/-- The flows have changed alone, and nothing of what a context's offset is. -/
def keepsOffset (c : Nat) (m m' : Mach) : Prop :=
  m' = { m with flw := m'.flw } ∧ (ctx m' c).offset = (ctx m c).offset ∧ (ctx m' c).moved = (ctx m c).moved ∧
    (ctx m' c).based = (ctx m c).based

theorem keepsOffset.refl (c : Nat) (m : Mach) : keepsOffset c m m := ⟨rfl, rfl, rfl, rfl⟩

theorem keepsOffset.trans {c : Nat} {a b d : Mach} (h : keepsOffset c a b) (k : keepsOffset c b d) : keepsOffset c a d := by
  obtain ⟨h, ho, hm, hb⟩ := h
  obtain ⟨k, ko, km, kb⟩ := k
  exact ⟨by rw [k, h], ko.trans ho, km.trans hm, kb.trans hb⟩

/-- A change of a context that is none of its offset. -/
theorem keepsOffset_setCtx (c k : Nat) (m : Mach) {f : Ctx → Ctx}
    (hf : ∀ x, (f x).offset = x.offset ∧ (f x).moved = x.moved ∧ (f x).based = x.based) : keepsOffset c m (setCtx m k f) := by
  by_cases h : c = k
  · subst h
    refine ⟨rfl, ?_⟩
    rw [ctx_setCtx_same]
    exact hf _
  · exact ⟨rfl, by simp only [ctx_setCtx_other _ _ h, and_self]⟩

theorem keepsOffset_setCtxCnt (c k : Nat) (m : Mach) (f : CtxCnt → CtxCnt) : keepsOffset c m (setCtxCnt m k f) := ⟨rfl, rfl, rfl, rfl⟩

theorem keepsOffset_setIngress (c p : Nat) (m : Mach) (f : Ingress → Ingress) : keepsOffset c m (setIngress m p f) :=
  ⟨rfl, rfl, rfl, rfl⟩

theorem keepsOffset_dropAncs (c : Nat) (m : Mach) (p ts : Nat) (lost : List Nat) : keepsOffset c m (dropAncs m p ts lost) := by
  unfold dropAncs
  extract_lets m₁ cs m₂
  have h₁ : keepsOffset c m m₁ := List.foldlRecOn _ _ (.refl c m) fun b hb k _ => hb.trans (keepsOffset_setCtxCnt ..)
  have h₂ : keepsOffset c m₁ m₂ := List.foldlRecOn _ _ (.refl c m₁) fun b hb k _ =>
    hb.trans (keepsOffset_setCtx c k b fun _ => ⟨rfl, rfl, rfl⟩)
  exact (h₁.trans h₂).trans (keepsOffset_setIngress ..)

/-- A -20 context that plays out by itself: no release of it is passed over (R196). -/
def playsOut (m : Mach) (c : Nat) : Prop :=
  2 ≤ (ctx m c).st ∧ (ctx m c).d.dir ≠ 1 ∧ (ctx m c).d.typ = 0 ∧ namedBy m c = none

theorem playsOut.acts {m : Mach} {c : Nat} (h : playsOut m c) :
    ¬((ctx m c).st < 2 ∨ (ctx m c).d.dir = 1 ∨ (!(ctx m c).d.video) = true ∨ (namedBy m c).isSome = true) := by
  obtain ⟨hst, hdir, htyp, hnamed⟩ := h
  simp [Desc.video, htyp, hdir, hnamed, Nat.not_lt.2 hst]

/-- A line's release settles the offset at line 1, and then takes nothing of it back. -/
theorem lineReleaseEv_settles {m : Mach} {c : Nat} (ts line : Nat) (h : playsOut m c) :
    keepsOffset c (if line = 1 then settleOffset m c ts else m) (lineReleaseEv c ts line m) := by
  unfold lineReleaseEv
  extract_lets x d m₁ x₁ mine f l last gone top lost m₂ m₃ released
  rw [if_neg h.acts]
  change keepsOffset c m₁ _
  split
  · exact .refl c m₁
  · have h₃ : keepsOffset c m₁ m₃ := (keepsOffset_setCtxCnt ..).trans (keepsOffset_setCtx c c m₂ fun _ => ⟨rfl, rfl, rfl⟩)
    split
    · split
      extract_lets anc m₄
      have h₄ : keepsOffset c m₃ m₄ := by
        unfold m₄
        split
        · exact keepsOffset_dropAncs ..
        · exact .refl c m₃
      exact (h₃.trans h₄).trans (keepsOffset_setIngress ..)
    · exact h₃

/-- No line goes out before its instant (R196). -/
theorem lineReleaseEv_early {m : Mach} {c ts line : Nat} (h1 : line ≠ 1) (ht : m.dt.t < lineRelease m c ts line) :
    lineReleaseEv c ts line m = m := by
  simp only [lineReleaseEv, if_neg h1, if_pos ht, ite_self]

/-! ### The line that goes out (R94, R196) -/

theorem mem_tset {α : Type} {t : Tab α} {k : Nat} {a : α} {x : Nat × α} (h : x ∈ tset t k a) : x ∈ t ∨ x = (k, a) := by
  induction t with
  | nil => exact .inr (List.mem_singleton.1 h)
  | cons y t ih =>
    obtain ⟨i, b⟩ := y
    unfold tset at h
    split_ifs at h
    · rcases List.mem_cons.1 h with rfl | h
      · exact .inr rfl
      · exact .inl h
    · rcases List.mem_cons.1 h with rfl | h
      · exact .inr rfl
      · exact .inl (List.mem_cons_of_mem _ h)
    · rcases List.mem_cons.1 h with rfl | h
      · exact .inl List.mem_cons_self
      · exact (ih h).imp_left (List.mem_cons_of_mem _)

/-- No listed context is a -40 context. -/
def noAncFlows (m : Mach) : Prop := ∀ x ∈ m.flw.ctxs, x.2.d.typ ≠ 3

theorem noAncFlows_setCtx {m : Mach} {c : Nat} {f : Ctx → Ctx} (h : noAncFlows m) (hf : (f (ctx m c)).d.typ ≠ 3) :
    noAncFlows (setCtx m c f) := by
  intro x hx
  rcases mem_tset hx with hx | rfl
  · exact h x hx
  · exact hf

/-- A port then has no -40 context. -/
theorem noAncFlows.tkeys {m : Mach} (h : noAncFlows m) (p : Nat) :
    tkeys (fun (x : Ctx) => decide (2 ≤ x.st) && x.d.dir == 0 && x.d.typ == 3 && x.d.port == p) m.flw.ctxs = [] := by
  rw [Machine.tkeys, List.map_eq_nil_iff, List.filter_eq_nil_iff]
  intro x hx
  simp [h x hx]

theorem noAncFlows.ancsIn {m : Mach} (h : noAncFlows m) (p ts : Nat) : ancsIn m p ts = [] := by
  simp only [Machine.ancsIn, h.tkeys, List.flatMap_nil, List.mergeSort_nil]

theorem noAncFlows.dropAncs {m : Mach} (h : noAncFlows m) (p ts : Nat) :
    dropAncs m p ts [] = setIngress m p fun i => { i with lastTs := some ts } := by
  simp only [Machine.dropAncs, List.foldl_nil, h.tkeys]

/-- A release instant depends on the clock, the planes, the descriptor and the offset alone. -/
theorem lineRelease_congr {m m' : Mach} {c : Nat} (ts line : Nat) (ht : m'.dt = m.dt) (hx : m'.xb = m.xb)
    (hd : (ctx m' c).d = (ctx m c).d) (ho : (ctx m' c).offset = (ctx m c).offset) :
    lineRelease m' c ts line = lineRelease m c ts line := by
  simp only [lineRelease, lineTime, Desc.rxFmt, plane, ht, hx, hd, ho]

/-- A line of a bound context goes to its port with what has arrived of it. -/
theorem lineReleaseEv_sends {m : Mach} {c ts line : Nat} (h : playsOut m c) (h1 : line ≠ 1) (ht : lineRelease m c ts line ≤ m.dt.t)
    (hst : (ctx m c).st = 3) (hport : (ctx m c).port < 1152) (hanc : noAncFlows m) :
    let x := ctx m c
    let a := assemble m x.d (x.buf.filter fun b => b.ts == ts) line
    let t := lineReleaseEv c ts line m
    t = { m with flw := t.flw } ∧
      (ingress t x.port).lines = (ingress m x.port).lines ++
        [{ line := line, words := a.1, holes := a.2, at_ := some (lineRelease m c ts line) }] ∧
      (ctx t c).buf = x.buf.filter fun b =>
        !(b.ts == ts && decide ((((srds b.data).getD []).map (srdLine m x.d)).max?.getD 1 ≤ line)) := by
  intro x a t
  have hkeep := lineReleaseEv_settles ts line h
  rw [if_neg h1] at hkeep
  refine ⟨hkeep.1, ?_⟩
  obtain ⟨-, -, htyp, -⟩ := id h
  have hm : (if line = 1 then settleOffset m c ts else m) = m := if_neg h1
  have hnp : (ctx m c).port ≠ 4095 := by omega
  unfold t lineReleaseEv
  rw [hm, if_neg h.acts]
  extract_lets d x₁ mine f l last gone top lost m₂ m₃ released
  rw [if_neg (not_lt.2 ht), if_pos ⟨hst, hnp⟩]
  have hctx : ctx m₃ c = { x with
      buf := x.buf.filter fun b => !(b.ts == ts && decide (last b ≤ line)), seq := max x.seq (top.getD 0) } := ctx_setCtx_same ..
  have hl : l = { line := line, words := a.1, holes := a.2 } := if_pos htyp
  have hlast : last = fun b => (((srds b.data).getD []).map (srdLine m x.d)).max?.getD 1 := funext fun b => if_pos htyp
  have hanc₃ : noAncFlows m₃ := noAncFlows_setCtx (m := m₂) hanc (by
    have : (ctx m₂ c).d.typ = 0 := htyp
    simp [this])
  rw [hanc₃.ancsIn]
  dsimp only [placeAncs, List.foldl_nil]
  rw [hanc₃.dropAncs, List.filter_nil, List.map_nil, List.append_nil]
  have hrel₃ : lineRelease m₃ c ts line = lineRelease m c ts line := lineRelease_congr _ _ rfl rfl (by rw [hctx]) (by rw [hctx])
  generalize hm₄ : (if line = totalLines f then setIngress m₃ x₁.port fun i => { i with lastTs := some ts } else m₃) = m₄
  obtain ⟨hctx₄, hlines, hrel⟩ : ctx m₄ c = ctx m₃ c ∧ (ingress m₄ x.port).lines = (ingress m x.port).lines ∧
      lineRelease m₄ c ts line = lineRelease m c ts line := by
    rw [← hm₄]
    split
    · exact ⟨rfl, by rw [ingress_setIngress_same]; rfl, hrel₃⟩
    · exact ⟨rfl, rfl, hrel₃⟩
  rw [ctx_setIngress, hctx₄, hctx, show x₁.port = x.port from rfl, ingress_setIngress_same, hlast]
  refine ⟨?_, rfl⟩
  rw [hlines, hrel, hl]

/-! ### Sample frames (R199) -/

/-- When a sample frame of a context is due (R199). -/
def frameDue (m : Mach) (c ts : Nat) : Int :=
  (mediaAt (ctx m c).d.clock ts m.dt.t + (ctx m c).offset * nsU : Nat) + (ctx m c).slip * (secU / (ctx m c).d.rate : Nat)

/-- The context of descriptor `d` after the frame of a timestamp: its next one, and the packets that hold one from there on. -/
def nextFrame (d : Desc) (c ts : Nat) (m : Mach) : Mach := setCtx m c fun x => { x with
  nextTs := some ((ts + 1) % 2 ^ 32)
  buf := x.buf.filter fun b => decide ((ts + 1 + 2 ^ 32 - b.ts) % 2 ^ 32 * d.nch * d.sampleBytes < b.data.length) ||
    decide (2 ^ 31 ≤ (ts + 1 + 2 ^ 32 - b.ts) % 2 ^ 32) }

theorem nextFrame_nextTs (d : Desc) (c ts : Nat) (m : Mach) : (ctx (nextFrame d c ts m) c).nextTs = some ((ts + 1) % 2 ^ 32) :=
  congrArg Ctx.nextTs (ctx_setCtx_same ..)

theorem nextFrame_cnts (d : Desc) (c ts : Nat) (m : Mach) : (nextFrame d c ts m).flw.cnts = m.flw.cnts := rfl

theorem audioRelease_early {m : Mach} {c ts : Nat} (hn : (ctx m c).nextTs = some ts) (h : (m.dt.t : Int) < frameDue m c ts) :
    audioRelease c m = m := by
  unfold frameDue at h
  simp only [audioRelease, hn, h, or_true, if_true]

/-- A receive context's due frame is not passed over. -/
theorem frame_goes {m : Mach} {c ts : Nat} (hst : 2 ≤ (ctx m c).st) (ha : (ctx m c).d.audio = true) (hdir : (ctx m c).d.dir ≠ 1)
    (hdue : frameDue m c ts ≤ m.dt.t) :
    ¬((ctx m c).st < 2 ∨ (!(ctx m c).d.audio) = true ∨ (ctx m c).d.dir = 1 ∨ (m.dt.t : Int) < frameDue m c ts) := by
  simp [Nat.not_lt.2 hst, ha, hdir, Int.not_lt.2 hdue]

section
variable {m : Mach} {c ts : Nat} (hn : (ctx m c).nextTs = some ts) (hst : 2 ≤ (ctx m c).st) (ha : (ctx m c).d.audio = true)
  (hdir : (ctx m c).d.dir ≠ 1) (hdue : frameDue m c ts ≤ m.dt.t)
  (hblk : atBlock m (3000 + c) (nextIndex m (3000 + c) (frameDue m c ts).toNat) = false)
include hn hst ha hdir hdue hblk

/-- A due frame inside a block goes to the audio domain. -/
theorem audioRelease_places {xs : List Int} (hx : sampleAt m c ts = some xs) : audioRelease c m =
    nextFrame (ctx m c).d c ts (placeFrame (noteStatus m (3000 + c) (cellsAt m c ts)) (3000 + c)
      (nextIndex m (3000 + c) (frameDue m c ts).toNat) xs) := by
  have hgo := frame_goes hst ha hdir hdue
  unfold frameDue at hgo hblk
  simp only [audioRelease, hn, if_neg hgo, hblk, hx, Bool.false_eq_true, false_and, if_false]
  rfl

/-- A due frame inside a block that has not arrived is lost to a group that has had none yet. -/
theorem audioRelease_misses (hx : sampleAt m c ts = none) (hg : (group m (3000 + c)).next = none) : audioRelease c m =
    nextFrame (ctx m c).d c ts (setCtxCnt m c fun k => { k with lost := sat k.lost 1 }) := by
  have hgo := frame_goes hst ha hdir hdue
  have hg' : (group (setCtxCnt m c fun k => { k with lost := sat k.lost 1 }) (3000 + c)).next = none := hg
  unfold frameDue at hgo hblk
  simp only [audioRelease, hn, if_neg hgo, hblk, hx, hg', Option.isSome_none, Bool.false_eq_true, false_and, if_false]
  rfl
end

/-! ### The mean lateness (R200) -/

theorem latenessCheck_none {m : Mach} {c : Nat} (h : (ctx m c).lateN = 0) : latenessCheck c m = m := if_pos (.inl h)

/-- The mean lateness of a second, with the fill of the granules, sets what the context does next. -/
theorem latenessCheck_decides {m : Mach} {c : Nat} (ha : (ctx m c).d.audio = true) (h : (ctx m c).lateN ≠ 0) :
    let mean := (ctx m c).lateSum / (ctx m c).lateN
    let offset : Int := (ctx m c).offset
    let held := heldBytes (ctx m c)
    let cap := granules m c * 65536
    latenessCheck c m = setCtx m c fun x => { x with
      inserting := if offset - 125000 < mean then true else if mean < offset / 2 then false else (ctx m c).inserting
      dropping := if mean < 0 ∧ 3 * cap < 4 * held then true else if 2 * held ≤ cap then false else (ctx m c).dropping
      lateSum := 0, lateN := 0 } :=
  if_neg (by simp [h, ha])

/-! ### Paths of a pair (R203) -/

theorem pathLost_alive {m : Mach} {c : Nat} (h : m.dt.t ≤ (ctx m c).lastPkt + secU / 10) : pathLost c m = m :=
  if_neg fun ⟨_, _, _, _, hlt⟩ => absurd hlt (not_lt.2 h)

/-- A path that has delivered nothing for 100 ms is down, with a fault of its MAC's contexts. -/
theorem pathLost_silent {m : Mach} {c : Nat} (hst : 2 ≤ (ctx m c).st) (hdir : (ctx m c).d.dir = 0) (hpair : 1 < (pairOf m c).length)
    (hup : (ctx m c).pathLost = false) (ht : (ctx m c).lastPkt + secU / 10 < m.dt.t) (hroom : tableRoom m = true) :
    let t := pathLost c m
    (ctx t c).pathUp = false ∧ (ctx t c).pathLost = true ∧ recorded t (0xC30 + (ctx m c).d.mac) 0x32 = true := by
  intro t
  have htt : t = raise (setCtx m c fun x => { x with pathUp := false, pathLost := true }) (ctxSrc m c) 0x32 1 c :=
    if_pos ⟨hst, hdir, hpair, by simp [hup], ht⟩
  have hctx : ctx t c = { ctx m c with pathUp := false, pathLost := true } := by
    rw [ctx, htt, raise_flw]
    exact ctx_setCtx_same ..
  rw [hctx]
  exact ⟨rfl, rfl, htt ▸ recorded_raise _ _ _ _ _ hroom⟩

/-! ### Swaps of an ingress port (R207 to R210) -/

/-- When the swap to a context is due (R207). -/
theorem swapDue_bind (m : Mach) (i : Ingress) {w : SwapTo} {b : Nat} (hw : w.ctx = some b) :
    swapDue m i w = decide (w.target < (plane m w.plane).nextSw ∨ switchInstant (plane m w.plane) w.target m.dt.t ≤
      (m.dt.t + (5352 + 1000 * classW (fmtClass ((ctx m b).d.rxFmt m))) * nsU : Nat)) := by
  simp only [swapDue, hw, Option.some_or, Bool.decide_or]

theorem swapDue_past {m : Mach} {w : SwapTo} (i : Ingress) (h : w.target < (plane m w.plane).nextSw) : swapDue m i w = true := by
  simp only [swapDue, h, decide_true, Bool.true_or]

theorem ctx_event (m : Mach) (code g : Nat) (body : List Byte) (also : Option Nat) (c : Nat) :
    ctx (event m code g body also) c = ctx m c := by rw [sameButCtl_event m code g body also]; rfl

theorem ingress_event (m : Mach) (code g : Nat) (body : List Byte) (also : Option Nat) (p : Nat) :
    ingress (event m code g body also) p = ingress m p := by rw [sameButCtl_event m code g body also]; rfl

/-- A report over a change of the flows. -/
theorem event_onlyFlwCtl {m b : Mach} (h : b = { m with flw := b.flw }) (code g : Nat) (body : List Byte) (also : Option Nat) :
    let t := event b code g body also
    t = { m with flw := t.flw, ctl := t.ctl } := by
  intro t
  have ht : t = { b with ctl := t.ctl } := sameButCtl_event b code g body also
  rw [ht, h]

section
variable {m : Mach} {p b : Nat} {w : SwapTo} (hs : (ingress m p).swap = some w)
include hs

theorem swapRelease_waits (h : swapDue m (ingress m p) w = false) : swapRelease p m = m := by
  simp only [swapRelease, hs, h, Bool.not_false, if_true]

/-- A due swap to a context that is ready binds it, and reports it. -/
theorem swapRelease_binds (hd : swapDue m (ingress m p) w = true) (hw : w.ctx = some b) (ha : (ctx m b).d.auto = false)
    (hr : ready m b = true) (hc : (ingress m p).cur = none) : ∃ body, swapRelease p m =
      event (setIngress (setCtx m b fun x => { x with st := 3, port := p }) p fun i =>
        { i with cur := some b, swap := none, lastTs := none }) 0x0011 0 body (some w.ses) := by
  simp only [swapRelease, hs, hd, hw, ha, hr, hc, Bool.not_true, Bool.false_eq_true, false_and, true_or, if_true, if_false]
  exact ⟨_, rfl⟩

/-- A due swap to a context that is not ready is late, and waits (R208). -/
theorem swapRelease_late (hd : swapDue m (ingress m p) w = true) (hw : w.ctx = some b) (ha : (ctx m b).d.auto = false)
    (hr : ready m b = false) (ht : m.now ≤ w.tick + (ctx m b).d.joinWait * msT) (hl : w.late = false) :
    swapRelease p m = raise (setIngress m p fun i => { i with swap := some { w with late := true } }) (1152 + p) 0x35 0 := by
  simp only [swapRelease, hs, hd, hw, ha, hr, hl, not_lt.2 ht, decide_false, Bool.not_true, Bool.false_eq_true, false_and, or_self,
    if_false]

/-- A due unbinding of a port that nothing feeds and whose source is lost (R209). -/
theorem swapRelease_unbinds (hd : swapDue m (ingress m p) w = true) (hw : w.ctx = none) (hc : (ingress m p).cur = none)
    (hp : (srcOf m (1152 + p)).present = false) : ∃ body, swapRelease p m =
      event (setIngress m p fun i => { i with cur := none, swap := none, lines := [], lastTs := none }) 0x0011 0 body (some w.ses) := by
  have habs (f : Ingress → Ingress) : (srcOf (setIngress m p f) (1152 + p)).present = false := hp
  simp only [swapRelease, hs, hd, hw, hc, Bool.not_true, Bool.false_eq_true, if_false, sourceLost_absent (habs _)]
  exact ⟨_, rfl⟩
end

end Sys2Proof.Machine

namespace Sys2Proof.Proofs
open Sys2Proof.Machine Sys2Proof.Safety

/-- Settles O39: each clause is the law of a release, of the lateness, of a silent path or of a swap, for the case it speaks of. -/
theorem flowsProceed : Obligations.FlowsProceed := by
  unfold Obligations.FlowsProceed
  refine ⟨?_, ?_, ?_, ?_, ?_, ?_⟩
  · intro s c ts line hc hst hdir htyp hnamed
    have hwf := decide_eq_true hc
    have hplays : playsOut s.toMach c := ⟨hst, hdir, htyp, hnamed⟩
    obtain ⟨o, hoff, hmoved, hbased⟩ := lineReleaseEv_settles ts line hplays
    refine ⟨fun h1 ht => takes_of_runIf rfl hwf (lineReleaseEv_early h1 ht), fun hauto h1 => ?_, fun h1 ht hst3 hport hanc => ?_,
      fun hauto hb h1 hst2 => ?_⟩
    · rw [if_pos h1, settleOffset_given ts hauto] at o hoff hmoved
      rw [ctx_setCtx_same] at hoff hmoved
      exact answers_of_runIf rfl hwf ⟨o, hoff, hmoved⟩
    · have hanc' : noAncFlows s.toMach := fun x hx => by simpa using List.all_eq_true.1 hanc x hx
      exact answers_of_runIf rfl hwf (lineReleaseEv_sends hplays h1 ht hst3 hport hanc')
    · rw [if_pos h1, settleOffset_chosen ts hauto hb] at o hoff hbased
      rw [ctx_setCtx_same] at hoff hbased
      exact answers_of_runIf rfl hwf ⟨o, hbased, hoff⟩
  · intro s c ts hc hn hst ha hdir x due n
    have hwf := decide_eq_true hc
    refine ⟨fun h => takes_of_runIf rfl hwf (audioRelease_early hn h), fun hdue hblk => ⟨fun xs hx => ?_, fun hx hg => ?_⟩⟩
    · refine answers_of_runIf rfl hwf ?_
      rw [audioRelease_places hn hst ha hdir hdue hblk hx]
      exact ⟨rfl, nextFrame_nextTs ..⟩
    · refine answers_of_runIf rfl hwf ?_
      rw [audioRelease_misses hn hst ha hdir hdue hblk hx hg]
      refine ⟨rfl, nextFrame_nextTs .., ?_⟩
      simp only [nextFrame_cnts, cnt_setCtxCnt_same]
  · intro s c hc ha x mean held cap
    refine ⟨fun h => takes_of_runIf rfl (decide_eq_true hc) (latenessCheck_none h), fun h => ?_⟩
    refine answers_of_runIf rfl (decide_eq_true hc) ?_
    rw [latenessCheck_decides ha h, ctx_setCtx_same]
    refine ⟨rfl, rfl, fun hi => if_pos hi, fun hi hn => ?_, fun hm hf => if_pos ⟨hm, hf⟩, fun hm hf => ?_⟩
    · exact (if_neg (not_lt.2 hi)).trans (if_pos hn)
    · exact (if_neg fun hd => absurd hd.1 (not_lt.2 hm)).trans (if_pos hf)
  · intro s c hc hst hdir hpair hup
    refine ⟨fun h => takes_of_runIf rfl (decide_eq_true hc) (pathLost_alive h), fun ht hroom => ?_⟩
    exact answers_of_runIf rfl (decide_eq_true hc) (pathLost_silent hst hdir hpair hup ht hroom)
  · intro s p b w hp hs hw ha x due
    have hwf := decide_eq_true hp
    have hdue : swapDue s.toMach (ingress s.toMach p) w = decide due := swapDue_bind _ _ hw
    refine ⟨fun hd => takes_of_runIf rfl hwf (swapRelease_waits hs (hdue.trans (decide_eq_false hd))), fun hd hr hc => ?_,
      fun hd hr ht hl hroom => ?_⟩
    · refine answers_of_runIf rfl hwf ?_
      obtain ⟨body, he⟩ := swapRelease_binds hs (hdue.trans (decide_eq_true hd)) hw ha hr hc
      rw [he]
      refine ⟨event_onlyFlwCtl rfl .., ?_⟩
      simp only [ingress_event, ctx_event, ctx_setIngress, ingress_setIngress_same, ingress_setCtx, ctx_setCtx_same, and_self]
    · refine answers_of_runIf rfl hwf ?_
      rw [swapRelease_late hs (hdue.trans (decide_eq_true hd)) hw ha hr ht hl]
      exact ⟨raise_flw .., recorded_raise _ _ _ _ _ hroom⟩
  · intro s p w hp hs hw hlt hc hpres
    refine answers_of_runIf rfl (decide_eq_true hp) ?_
    obtain ⟨body, he⟩ := swapRelease_unbinds hs (swapDue_past _ hlt) hw hc hpres
    rw [he]
    refine ⟨event_onlyFlwCtl rfl .., ?_⟩
    simp only [ingress_event, ingress_setIngress_same]

end Sys2Proof.Proofs

/-! SUPPORT. Wainar Link: what its updates leave of the link state, and what a transmitter sends in a position. -/
namespace Sys2Proof.Machine
open Sys2Proof.Safety

/-! ### What the updates of the link state leave alone -/

@[simp] theorem rx_setTx (m : Mach) (l : Nat) (f : WlTx → WlTx) (k : Nat) : rx (setTx m l f) k = rx m k := rfl
@[simp] theorem rx_setWlCnt (m : Mach) (l : Nat) (f : WlCnt → WlCnt) (k : Nat) : rx (setWlCnt m l f) k = rx m k := rfl
@[simp] theorem cnts_setRx (m : Mach) (l : Nat) (f : WlRx → WlRx) : (setRx m l f).wl.cnts = m.wl.cnts := rfl
@[simp] theorem cnts_setTx (m : Mach) (l : Nat) (f : WlTx → WlTx) : (setTx m l f).wl.cnts = m.wl.cnts := rfl
@[simp] theorem cnt_setWlCnt_same (m : Mach) (l : Nat) (f : WlCnt → WlCnt) :
    tget {} (setWlCnt m l f).wl.cnts l = f (tget {} m.wl.cnts l) := tget_tmod_same _ _ _ _ _

/-- The machine has changed in the link state alone. -/
def onlyWl (m m' : Mach) : Prop := m' = { m with wl := m'.wl }

theorem onlyWl.refl (m : Mach) : onlyWl m m := rfl
theorem onlyWl.trans {a b c : Mach} (h : onlyWl a b) (k : onlyWl b c) : onlyWl a c := by
  unfold onlyWl at *; rw [k, h]

theorem onlyWl_setRx (m : Mach) (l : Nat) (f : WlRx → WlRx) : onlyWl m (setRx m l f) := rfl
theorem onlyWl_setTx (m : Mach) (l : Nat) (f : WlTx → WlTx) : onlyWl m (setTx m l f) := rfl

/-! ### Block headers (R117) -/

theorem b2n_le_one (b : Bool) : b2n b ≤ 1 := by cases b <;> decide

/-- A header's number, before it is cut to 64 bits. -/
theorem Hd.toNat_word (h : Hd) : h.word.toNat =
    h.seq % 4096 * 2 ^ 52 + h.typ % 16 * 2 ^ 48 + h.claim % 2 ^ 32 * 2 ^ 16 + b2n h.nack.isSome * 2 ^ 15
      + h.nack.getD 0 % 4096 * 2 ^ 3 + b2n h.resend * 4 + b2n h.rxUp * 2 := by
  have hn := b2n_le_one h.nack.isSome
  have hr := b2n_le_one h.resend
  have hu := b2n_le_one h.rxUp
  rw [Hd.word, BitVec.toNat_ofNat, Nat.mod_eq_of_lt]
  omega

theorem hdOf_word_seq (h : Hd) : (hdOf h.word).seq = h.seq % 4096 := by
  have hn := b2n_le_one h.nack.isSome
  have hr := b2n_le_one h.resend
  have hu := b2n_le_one h.rxUp
  simp only [hdOf, bits, Hd.toNat_word]
  omega

theorem hdOf_word_typ (h : Hd) : (hdOf h.word).typ = h.typ % 16 := by
  have hn := b2n_le_one h.nack.isSome
  have hr := b2n_le_one h.resend
  have hu := b2n_le_one h.rxUp
  simp only [hdOf, bits, Hd.toNat_word]
  omega

/-- A header carries its position modulo 4,096. -/
theorem Hd.word_seq_mod (h : Hd) : ({ h with seq := h.seq % 4096 } : Hd).word = h.word := by
  simp only [Hd.word, Nat.mod_mod]

/-! ### A block leaves (R119, R129, R138) -/

/-- What a block's header and the position's advance take from a transmitter. -/
def WlTx.heading (t : WlTx) : Nat × Nat × Nat × List Nat × List (Nat × Nat) := (t.pos, t.cal, t.claim, t.nacks, t.starts)

/-- A machine made ready to send on a lane: transmitters and counters alone have changed, and nothing that the block's header
takes from the lane's. -/
structure readied (l : Nat) (m m' : Mach) : Prop where
  only : m' = { m with wl := { m.wl with tx := m'.wl.tx, cnts := m'.wl.cnts } }
  heading : (tx m' l).heading = (tx m l).heading

theorem readied.refl (l : Nat) (m : Mach) : readied l m m := ⟨rfl, rfl⟩

theorem readied.trans {l : Nat} {a b c : Mach} (h : readied l a b) (k : readied l b c) : readied l a c :=
  ⟨by rw [k.only, h.only], k.heading.trans h.heading⟩

theorem readied_setTx (l : Nat) (m : Mach) {f : WlTx → WlTx} (hf : ∀ t, (f t).heading = t.heading) : readied l m (setTx m l f) :=
  ⟨rfl, by rw [tx_setTx_same, hf]⟩

theorem readied_setWlCnt (l : Nat) (m : Mach) (f : WlCnt → WlCnt) : readied l m (setWlCnt m l f) := ⟨rfl, rfl⟩

theorem readied.onlyWl {l : Nat} {m m' : Mach} (h : readied l m m') : onlyWl m m' := by rw [h.only]; rfl
theorem readied.rx {l : Nat} {m m' : Mach} (h : readied l m m') : rx m' l = rx m l := by rw [h.only]; rfl

/-- A lane's claim word does not depend on what its transmitter holds. -/
theorem readied.sentClaim {l : Nat} {m m' : Mach} (h : readied l m m') : sentClaim m' l = sentClaim m l := by rw [h.only]; rfl

/-- A block with given header fields has left in the position that begins at `at_`, and the position has advanced. -/
def sentBlock (m : Mach) (l at_ seq typ : Nat) (pay : BitVec 4096) (resend : Bool) (u : Mach) : Prop :=
  let t := tx m l
  onlyWl m u ∧ (tx u l).lastPay = pay ∧
    (tx u l).lastHdr = ({ seq, typ, claim := t.claim, nack := t.nacks.head?, resend, rxUp := (rx m l).st == 5 } : Hd).word ∧
    (tx u l).pos = (t.pos + 1) % 4096 ∧ (tx u l).cal = (t.cal + 1) % modeCal (rx m l).mode ∧ (tx u l).nacks = t.nacks.drop 1 ∧
    (tx u l).claim = sentClaim m l ∧ (tx u l).starts = ((t.pos, at_) :: t.starts).take 256

/-- The frame in progress is all that a block's joining it changes. -/
theorem frameOut_eq (m : Mach) (l : Nat) (hdr : BitVec 64) (payload : BitVec 4096) (t : WlTx) : ∃ ovh frame sent scr ball,
    frameOut m l hdr payload t = { t with ovh, frame, sent, scr, ball } := by
  unfold frameOut
  extract_lets ovh frame
  split
  · exact ⟨ovh, frame, t.sent, t.scr, t.ball, rfl⟩
  · obtain ⟨sent, scr⟩ := frameBits ovh frame t.scr
    exact ⟨ovh, [], sent, scr, _, rfl⟩

/-- What `emit` leaves of a transmitter made ready: the block has left, and what waits on the lane stays. -/
theorem emit_sent {l : Nat} {m m' : Mach} (h : readied l m m') (at_ seq typ : Nat) (pay : BitVec 4096) (resend : Bool) :
    let u := emit l at_ seq typ pay resend m'
    sentBlock m l at_ seq typ pay resend u ∧ (tx u l).beatDue = (tx m' l).beatDue ∧ (tx u l).svc = (tx m' l).svc ∧
      (tx u l).slots = (tx m' l).slots ∧ (tx u l).resends = (tx m' l).resends := by
  have hhead := h.heading
  simp only [WlTx.heading, Prod.mk.injEq] at hhead
  obtain ⟨hpos, hcal, hclaim, hnacks, hstarts⟩ := hhead
  unfold emit
  extract_lets t nack hdr m₁ u
  obtain ⟨ovh, frame, sent, scr, ball, hf⟩ := frameOut_eq m₁ l hdr pay (tx m₁ l)
  have htx : tx m₁ l = tx m' l := rfl
  have hsent : readied l m m₁ := h.trans (readied_setWlCnt l m' _)
  have hu : tx u l = { frameOut m₁ l hdr pay (tx m₁ l) with
      pos := (t.pos + 1) % 4096, cal := (t.cal + 1) % modeCal (rx m' l).mode, nacks := t.nacks.drop 1, lastHdr := hdr, lastPay := pay,
      claim := sentClaim m₁ l, starts := ((t.pos, at_) :: t.starts).take 256,
      replay := ({ pos := t.pos, hdr, payload := pay, resend } :: t.replay).take 16 } := tx_setTx_same ..
  rw [hf, htx] at hu
  refine ⟨⟨h.onlyWl.trans rfl, ?_⟩, ?_⟩
  · rw [hu]
    simp only [hsent.sentClaim, hdr, nack, t, hpos, hcal, hclaim, hnacks, hstarts, h.rx, and_self]
  · rw [hu]
    exact ⟨rfl, rfl, rfl, rfl⟩

/-- A position that carries a header for another block's position sends the same header when that is counted modulo 4,096. -/
theorem sentBlock_of_seq_mod {m u : Mach} {l at_ seq typ : Nat} {pay : BitVec 4096} {resend : Bool}
    (h : sentBlock m l at_ (seq % 4096) typ pay resend u) : sentBlock m l at_ seq typ pay resend u := by
  obtain ⟨hwl, hpay, hhdr, hrest⟩ := h
  exact ⟨hwl, hpay, hhdr.trans (Hd.word_seq_mod { seq, typ, claim := _, nack := _, resend, rxUp := _ }), hrest⟩

/-! ### What a position carries -/

theorem positionOut_off {l : Nat} {m : Mach} (at_ : Nat) (h : transmits m l = false) : positionOut l at_ m = m := by
  rw [positionOut, h, Bool.not_false, if_pos rfl]

/-- A heartbeat that waits goes first, its time the position's start (R462). -/
theorem positionOut_beat {l : Nat} {m : Mach} (at_ : Nat) (h : transmits m l = true) (hb : (tx m l).beatDue = true) :
    let u := positionOut l at_ m
    sentBlock m l at_ (tx m l).pos 4 (beatPayload { m.pr.sent with t := at_ }) false u ∧ (tx u l).beatDue = false := by
  have hout : positionOut l at_ m = emit l at_ (tx m l).pos 4 (beatPayload { m.pr.sent with t := at_ }) false
      (setTx m l fun t => { t with beatDue := false }) := by
    simp only [positionOut, h, hb, Bool.not_true, Bool.false_eq_true, if_false, if_true]
  obtain ⟨hsent, hbeat, -⟩ := emit_sent (readied_setTx l m (f := fun t => { t with beatDue := false }) fun _ => rfl) at_
    (tx m l).pos 4 (beatPayload { m.pr.sent with t := at_ }) false
  rw [tx_setTx_same] at hbeat
  rw [hout]
  exact ⟨hsent, hbeat⟩

/-- A slot whose stream can leave sends its next stream block (R111, R120, R124). -/
theorem scheduled_stream {l k : Nat} {m : Mach} (at_ : Nat) (hp : m.pwr.st < 3)
    (hc : ¬((rx m l).mode = 1 ∧ (tget {} (tx m l).slots k).rclass = 3)) (hw : (tget {} (tx m l).slots k).words ≠ []) :
    let out := streamOut (rx m l).mode k (tget {} (tx m l).slots k) at_
    scheduled m l k at_ = ((1, out.1), setTx m l fun t => { t with slots := tset t.slots k out.2 }) := by
  have hgo : ¬((tget {} (tx m l).slots k).words.isEmpty = true ∨ 3 ≤ m.pwr.st) := by
    rw [List.isEmpty_iff, not_or]
    exact ⟨hw, not_le.2 hp⟩
  simp only [scheduled, if_neg hc, if_neg hgo]

/-- A fragment of service that leaves moves what waits on its lane alone (R135). -/
theorem readied_svcOut {l : Nat} {m m' : Mach} {pay : BitVec 4096} (h : svcOut m l = some (pay, m')) : readied l m m' := by
  unfold svcOut at h
  split at h
  · cases h
  · cases h
    exact readied_setTx l m fun _ => rfl

theorem svcOut_nil {l : Nat} {m : Mach} (h : (tx m l).svc = []) : svcOut m l = none := by simp only [svcOut, h]

section
variable {l : Nat} {m : Mach} (at_ : Nat) (h : transmits m l = true) (hb : (tx m l).beatDue = false)
include h hb

/-- A shared position with no re-send, no late block and no service that may go: an idle-echo (R137). -/
theorem positionOut_echo (hr : (tx m l).resends = []) (ho : ownerOf l (rx m l).mode (tx m l).cal = none) (hd : (tx m l).disp = 0)
    (hs : (tx m l).svc = [] ∨ (rx m l).st < 3) :
    sentBlock m l at_ (tx m l).pos 0 (idlePayload m l at_) false (positionOut l at_ m) := by
  have hnone : (if (rx m l).st < 3 then none else svcOut m l) = none := by
    split
    · rfl
    next hst => exact svcOut_nil (hs.resolve_right hst)
  have hout : positionOut l at_ m = emit l at_ (tx m l).pos 0 (idlePayload m l at_) false m := by
    simp only [positionOut, h, hb, hr, ho, hd, hnone, Bool.not_true, Bool.false_eq_true, if_false, lt_irrefl]
  rw [hout]
  exact (emit_sent (readied.refl l m) ..).1

/-- A shared position with no re-send and no late block carries pending service from SYNC on (R120, R135). -/
theorem positionOut_service (hr : (tx m l).resends = []) (ho : ownerOf l (rx m l).mode (tx m l).cal = none) (hd : (tx m l).disp = 0)
    (hst : 3 ≤ (rx m l).st) {pay : BitVec 4096} {m' : Mach} (hs : svcOut m l = some (pay, m')) :
    let u := positionOut l at_ m
    sentBlock m l at_ (tx m l).pos 3 pay false u ∧ (tx u l).svc = (tx m' l).svc := by
  have hout : positionOut l at_ m = emit l at_ (tx m l).pos 3 pay false m' := by
    simp only [positionOut, h, hb, hr, ho, hd, hs, if_neg (not_lt.2 hst), Bool.not_true, Bool.false_eq_true, if_false, lt_irrefl]
  obtain ⟨hsent, -, hsvc, -⟩ := emit_sent (readied_svcOut hs) at_ (tx m l).pos 3 pay false
  rw [hout]
  exact ⟨hsent, hsvc⟩

/-- A shared position of a lane that has a re-send to serve: the block that is kept for it goes out again (R129). -/
theorem positionOut_resend {p : Nat} {ps : List Nat} {b : Replay} (hr : (tx m l).resends = p :: ps)
    (ho : ownerOf l (rx m l).mode (tx m l).cal = none) (hf : (tx m l).replay.find? (fun b => b.pos == p) = some b) :
    let u := positionOut l at_ m
    sentBlock m l at_ (hdOf b.hdr).seq (hdOf b.hdr).typ b.payload true u ∧ (tx u l).resends = ps := by
  have hout : positionOut l at_ m = emit l at_ (hdOf b.hdr).seq (hdOf b.hdr).typ b.payload true
      (setTx m l fun t => { t with resends := ps }) := by
    simp only [positionOut, h, hb, hr, ho, hf, Bool.not_true, Bool.false_eq_true, if_false]
  obtain ⟨hsent, -, -, -, hres⟩ := emit_sent (readied_setTx l m (f := fun t => { t with resends := ps }) fun _ => rfl) at_
    (hdOf b.hdr).seq (hdOf b.hdr).typ b.payload true
  rw [tx_setTx_same] at hres
  rw [hout]
  exact ⟨hsent, hres⟩

/-- An owned position of a slot whose stream can leave, with no block late: the slot's next stream block (R120, R122). -/
theorem positionOut_stream {k : Nat} (hr : (tx m l).resends = []) (ho : ownerOf l (rx m l).mode (tx m l).cal = some k)
    (hl : (tx m l).late = []) (hp : m.pwr.st < 3) (hc : ¬((rx m l).mode = 1 ∧ (tget {} (tx m l).slots k).rclass = 3))
    (hw : (tget {} (tx m l).slots k).words ≠ []) :
    let out := streamOut (rx m l).mode k (tget {} (tx m l).slots k) at_
    let u := positionOut l at_ m
    sentBlock m l at_ (tx m l).pos 1 out.1 false u ∧ tget {} (tx u l).slots k = out.2 := by
  intro out
  let m₁ := setTx m l fun t => { t with slots := tset t.slots k out.2 }
  let m₂ := setTx m₁ l fun t => { t with late := [], disp := (tx m l).disp }
  have hout : positionOut l at_ m = emit l at_ ((tx m l).pos % 4096) 1 out.1 false m₂ := by
    simp only [positionOut, h, hb, hr, ho, scheduled_stream at_ hp hc hw, sendLate, tx_setTx_same, hl, List.nil_append,
      hdOf_word_typ, hdOf_word_seq, Bool.not_true, Bool.false_eq_true, if_false, Nat.reduceMod, one_ne_zero, m₁, m₂, out]
  have h₁ : readied l m m₁ := readied_setTx l m fun _ => rfl
  have hready : readied l m m₂ := h₁.trans (readied_setTx l m₁ fun _ => rfl)
  obtain ⟨hsent, -, -, hslots, -⟩ := emit_sent hready at_ ((tx m l).pos % 4096) 1 out.1 false
  have hkept : (tx m₂ l).slots = tset (tx m l).slots k out.2 := by simp only [m₁, m₂, tx_setTx_same]
  rw [hout]
  exact ⟨sentBlock_of_seq_mod hsent, by rw [hslots, hkept, tget_tset_same]⟩
end

end Sys2Proof.Machine

namespace Sys2Proof.Proofs
open Sys2Proof.Machine Sys2Proof.Safety

/-- Settles O34: each clause is the law of what the position carries; what any block leaves of its transmitter is `emit_sent`. -/
theorem linkBlocksLeave : Obligations.LinkBlocksLeave := by
  unfold Obligations.LinkBlocksLeave
  intro s l at_ hl t mode hd leaves
  have hwf := decide_eq_true hl
  refine ⟨fun h => takes_of_runIf rfl hwf (positionOut_off at_ h), fun h hb => answers_of_runIf rfl hwf (positionOut_beat at_ h hb),
    fun h hb => ⟨?_, ?_, ?_, ?_⟩⟩
  · exact fun hr ho hd hs => answers_of_runIf rfl hwf (positionOut_echo at_ h hb hr ho hd hs)
  · exact fun hr ho hd hst pay m hm => answers_of_runIf rfl hwf (positionOut_service at_ h hb hr ho hd hst hm)
  · exact fun k hr ho hlate hp hc hw => answers_of_runIf rfl hwf (positionOut_stream at_ h hb hr ho hlate hp hc hw)
  · exact fun p ps b hr ho hf => answers_of_runIf rfl hwf (positionOut_resend at_ h hb hr ho hf)

end Sys2Proof.Proofs

/-! SUPPORT. Wainar Link: a mode trial that ends while the lane's eye is scanned. -/
namespace Sys2Proof.Proofs
open Sys2Proof.Machine Sys2Proof.Safety

/-- An eye scan of lane 0 that the session runs. -/
def eyeScan : Scan := { id := 0, lane := 0, ses := 0, hseq := 6, eye := 1, k := 10, sp := 8, sv := 8, thr := 0, off := 0, at_ := 0 }

/-- Lane 0, whose board entry allows WL-100 and WL-25, has spent more than 2 ms in WL-100 without an alignment word; its recovery loop
has lock, and its eye is being scanned. -/
def scannedLane : State := { claimant with
  now := 2 * msT + 1
  wl := { claimant.wl with rx := [(0, { st := 1, mode := 3 })] }
  ln := { claimant.ln with lanes := [(0, { ready := true, lock := true, fitted := true, rate := 5, flags := 40 })], scans := [eyeScan] } }

/-- The next mode's rate takes the lane's lock, and the scan ends LOST (R162): its final response is posted. -/
theorem wlModeTryTimeout_scannedLane :
    (postedBy (.wlModeTryTimeout 0) scannedLane 0).map (fun r => (r.hseq, r.status, fld r.result 0 1)) = [(eyeScan.hseq, sDone, 1)] := by
  decide +kernel

/-- Refutes O35: where a mode trial's end changes the lane's rate while an eye scan runs on the lane, the scan ends LOST and its session is
told (R162), so the control block moves as well; the statement's last clause lets link and lanes alone change. -/
theorem not_linkReleasesAndLoses : ¬ Obligations.LinkReleasesAndLoses := by
  unfold Obligations.LinkReleasesAndLoses
  rintro ⟨-, -, -, -, -, htry⟩
  obtain ⟨t, ht, honly, -⟩ := htry scannedLane 0 (by decide) (by decide) (by decide) (by decide)
  have hposted := wlModeTryTimeout_scannedLane
  have hquiet : posted scannedLane.toMach t.toMach 0 = posted scannedLane.toMach scannedLane.toMach 0 := by rw [honly]; rfl
  rw [postedBy_of_exec ht, hquiet] at hposted
  exact absurd hposted (by decide)

end Sys2Proof.Proofs

/-! SUPPORT. Wainar Link: what a receiver takes from a frame. -/
namespace Sys2Proof.Machine
open Sys2Proof.Safety

/-! ### Frames (R113 to R115, R119) -/

/-- The line bits of a frame as a lane takes them, its inversion undone (R153). -/
def frameLine (m : Mach) (l : Nat) (f : WlFrame) : Nat :=
  bitsOf (rx m l).mode (turned (bit (lane m (serialOf m l)).flags 1) (rx m l).mode f.levels)

/-- The frame begins with the alignment word, but for 6 bits at most (R115). -/
def aligns (m : Mach) (l : Nat) (f : WlFrame) : Bool := decide (fawDiff (frameLine m l f) ≤ 6)

/-- On a searching lane the alignment word alone counts: the third in a row aligns it (R115). -/
theorem frameIn_search {m : Mach} {l : Nat} (f : WlFrame) (hl : looped m l = false) (hst : (rx m l).st = 1) :
    let u := frameIn l f m
    onlyWl m u ∧ (rx u l).fawRun = (if aligns m l f then (rx m l).fawRun + 1 else 0) ∧
      (rx u l).st = (if aligns m l f ∧ 2 ≤ (rx m l).fawRun then 2 else 1) := by
  have hu : frameIn l f m =
      let run := if aligns m l f then (rx m l).fawRun + 1 else 0
      setRx m l fun r => { r with
        fawRun := run, fawMiss := 0, good := 0, bad := 0, st := if 3 ≤ run then 2 else 1
        scr := frameLine m l f / 2 ^ 300 % 2 ^ 58, blocks := [], sched := [] } := by
    unfold frameIn
    extract_lets r x levels line ok run
    rw [hl, if_neg Bool.false_ne_true, if_neg (by rw [hst]; decide), if_pos hst]
    rfl
  rw [hu]
  refine ⟨rfl, congrArg WlRx.fawRun (rx_setRx_same ..), (congrArg WlRx.st (rx_setRx_same ..)).trans ?_⟩
  cases aligns m l f with
  | false => rfl
  | true => simp only [if_true, true_and, Nat.reduceLeDiff]

/-- A lane in UP has no transition to make. -/
theorem advance_up {m : Mach} {l : Nat} (h : (rx m l).st = 5) : advance m l = m := by
  simp [advance, h]

/-- What a receiver takes from a frame's overhead; where its codeword is lost, it counts on by six positions (R114, R119). -/
def WlRx.noteOverhead (o : Option Overhead) (r : WlRx) : WlRx :=
  match o with
  | none => { r with fseq := (r.fseq + 6) % 4096, cpos := (r.cpos + 6) % modeCal r.mode }
  | some o => { r with fseq := o.fseq, cpos := o.cpos, farLane := o.lane, slotId := o.slotId, farMode := o.mode }

/-- What an aligned receiver takes from a decoded frame: its overhead, and six blocks that wait for their checks. -/
def WlRx.noteFrame (hit : Bool) (at_ : Nat) (d : FrameRx) (r : WlRx) : WlRx :=
  let z := r.noteOverhead d.ovh
  let ps := framePositions r.mode z.fseq z.cpos at_
  { z with
    fawMiss := if hit then 0 else r.fawMiss + 1, frameAt := at_, scr := d.hist, sched := r.sched ++ ps
    blocks := r.blocks ++ (ps.zip d.blocks).map fun x => { at_ := x.1, blk := x.2 } }

theorem WlRx.noteFrame_st (hit : Bool) (at_ : Nat) (d : FrameRx) (r : WlRx) : (r.noteFrame hit at_ d).st = r.st := by
  unfold WlRx.noteFrame WlRx.noteOverhead
  cases d.ovh <;> rfl

/-- The machine once a decoded frame has joined a lane's receiver, its counters and what its transmitter echoes of them (R137). -/
def joinFrame (l : Nat) (hit : Bool) (at_ : Nat) (d : FrameRx) (m : Mach) : Mach :=
  let mode := (rx m l).mode
  let m := setWlCnt m l fun c => { c with cwCorr := sat c.cwCorr d.corrected, cwUncorr := sat c.cwUncorr d.uncorrectable }
  let m := setTx m l fun t => { t with cwCorr := (t.cwCorr + d.corrected) % 2 ^ 32, cwUnc := (t.cwUnc + d.uncorrectable) % 2 ^ 32 }
  let m := setRx m l (WlRx.noteOverhead d.ovh)
  let ps := framePositions mode (rx m l).fseq (rx m l).cpos at_
  setRx m l fun r => { r with
    fawMiss := if hit then 0 else r.fawMiss + 1, frameAt := at_, scr := d.hist, sched := r.sched ++ ps
    blocks := r.blocks ++ (ps.zip d.blocks).map fun x => { at_ := x.1, blk := x.2 } }

theorem joinFrame_leaves (l : Nat) (hit : Bool) (at_ : Nat) (d : FrameRx) (m : Mach) :
    let u := joinFrame l hit at_ d m
    onlyWl m u ∧ rx u l = (rx m l).noteFrame hit at_ d ∧
      (tget {} u.wl.cnts l).cwCorr = sat (tget {} m.wl.cnts l).cwCorr d.corrected ∧
      (tget {} u.wl.cnts l).cwUncorr = sat (tget {} m.wl.cnts l).cwUncorr d.uncorrectable := by
  unfold joinFrame
  extract_lets mode m₁ m₂ m₃ ps u
  refine ⟨rfl, ?_, ?_⟩
  · simp only [u, ps, mode, m₃, m₂, m₁, rx_setRx_same, rx_setTx, rx_setWlCnt, WlRx.noteFrame, WlRx.noteOverhead]
    cases d.ovh <;> rfl
  · simp only [u, m₃, m₂, m₁, cnts_setRx, cnts_setTx, cnt_setWlCnt_same, and_self]

/-- On an aligned lane a frame is decoded, and what has come due follows. -/
theorem frameIn_aligned {m : Mach} {l : Nat} (f : WlFrame) (hl : looped m l = false) (hst : 2 ≤ (rx m l).st) :
    frameIn l f m = advance (joinFrame l (aligns m l f) f.at_ (decodeFrame (rx m l).scr (frameLine m l f)) m) l := by
  unfold frameIn
  extract_lets r x levels line ok run d m₁ m₂ m₃ ps
  have h0 : ¬r.st = 0 := Nat.ne_of_gt (Nat.lt_of_lt_of_le Nat.zero_lt_two hst)
  have h1 : ¬r.st = 1 := Nat.ne_of_gt hst
  rw [hl, if_neg Bool.false_ne_true, if_neg h0, if_neg h1]
  change _ = advance (joinFrame l ok f.at_ d m) l
  clear_value d ok
  rfl

/-- On a lane in UP nothing follows. -/
theorem frameIn_up {m : Mach} {l : Nat} (f : WlFrame) (hl : looped m l = false) (hst : (rx m l).st = 5) :
    let d := decodeFrame (rx m l).scr (frameLine m l f)
    let u := frameIn l f m
    onlyWl m u ∧ rx u l = (rx m l).noteFrame (aligns m l f) f.at_ d ∧
      (tget {} u.wl.cnts l).cwCorr = sat (tget {} m.wl.cnts l).cwCorr d.corrected ∧
      (tget {} u.wl.cnts l).cwUncorr = sat (tget {} m.wl.cnts l).cwUncorr d.uncorrectable := by
  intro d
  have hjoin := joinFrame_leaves l (aligns m l f) f.at_ d m
  have ⟨_, hrx, _⟩ := hjoin
  have hup : (rx (joinFrame l (aligns m l f) f.at_ d m) l).st = 5 := by rw [hrx, WlRx.noteFrame_st, hst]
  rw [frameIn_aligned f hl (by rw [hst]; decide), advance_up hup]
  exact hjoin

end Sys2Proof.Machine

/-! SUPPORT. Wainar Link: what a receiver takes from a block, and what a claiming module does after it. -/
namespace Sys2Proof.Machine
open Sys2Proof.Safety

/-! ### Blocks (R116 to R118, R127 to R129, R137, R141) -/

/-- The block that is checked: the one given, or the oldest that waits. -/
def candidate (m : Mach) (l : Nat) (c : Option WlBlock) (b : WlBlock) : Prop :=
  c = some b ∨ c = none ∧ (rx m l).blocks.head? = some b

/-- What a receiver keeps of the blocks that wait. -/
def WlRx.dropTaken (c : Option WlBlock) (r : WlRx) : WlRx := { r with blocks := if c.isSome then r.blocks else r.blocks.drop 1 }

/-- Taking a block moves what waits alone. -/
theorem takeBlock_of_candidate {m : Mach} {l : Nat} {c : Option WlBlock} {b : WlBlock} (h : candidate m l c b) :
    ∃ m', takeBlock m l c = some (b, m') ∧ onlyWl m m' ∧ rx m' l = (rx m l).dropTaken c ∧ m'.wl.tx = m.wl.tx ∧
      m'.wl.cnts = m.wl.cnts := by
  rcases h with rfl | ⟨rfl, hb⟩
  · exact ⟨m, rfl, rfl, rfl, rfl, rfl⟩
  · obtain ⟨bs, hbs⟩ := List.head?_eq_some_iff.1 hb
    refine ⟨setRx m l fun r => { r with blocks := bs }, by simp only [takeBlock, hbs], rfl, ?_, rfl, rfl⟩
    rw [rx_setRx_same, WlRx.dropTaken, hbs]
    rfl

/-- No block is given and none waits. -/
theorem blockIn_none {m : Mach} {l : Nat} (h : (rx m l).blocks = []) : blockIn l none m = m := by
  have ht : takeBlock m l none = none := by simp only [takeBlock, h]
  unfold blockIn
  dsimp only
  rw [ht]
  exact ite_self m

/-- The machine once a block that failed its check is counted, and asked for again unless it was a re-send (R116, R128). -/
def failBlock (l : Nat) (b : WlBlock) (m : Mach) : Mach :=
  let resent := (hdOf b.blk.hdr).resend
  let m := setWlCnt m l fun c => { c with chkFail := sat c.chkFail (b2n !resent) }
  let m := setRx m l fun r => { r with good := 0, bad := r.bad + 1, forRun := 0, ownRun := 0, echoRun := 0 }
  if !resent ∧ !txIdle m l then setTx m l fun t => { t with nacks := t.nacks ++ [b.at_.pos] } else m

/-- What a receiver notes of a block that passes: its run, and the header's claim word and far state (R117). -/
def WlRx.notePassed (h : Hd) (r : WlRx) : WlRx := { r with good := r.good + 1, bad := 0, farUp := h.rxUp, echo := BitVec.ofNat 32 h.claim }

/-- A NACK in a header that passed (R129). -/
def nackIn (l : Nat) (h : Hd) (m : Mach) : Mach :=
  match h.nack with
  | some p => takeNack l p m
  | none => m

/-- A block of a type that carries nothing on its lane is counted (R118). -/
def typeIn (l : Nat) (h : Hd) (m : Mach) : Mach :=
  if typeKnown l h.typ then m else setWlCnt m l fun c => { c with badType := sat c.badType 1 }

/-- The round trip that a block measures, if it does (R137). -/
def tripFrom (m : Mach) (l : Nat) (b : WlBlock) : Option Nat :=
  if (hdOf b.blk.hdr).typ = 0 then tripOf m l b.at_.at_ b.blk.payload else none

/-- A receiver holds a block for its position if the position waits and holds none (R127). -/
def WlRx.hold (h : Hd) (b : RxBlock) (r : WlRx) : WlRx :=
  if r.held.any fun b => b.pos == h.seq && b.good.isSome then r
  else { r with held := (r.held.filter fun b => b.pos != h.seq) ++ [{ pos := h.seq, good := some (b.hdr, b.payload), resent := h.resend }] }

/-- The machine once a lane in UP has taken a block that passed. -/
def passBlock (l : Nat) (b : WlBlock) (m : Mach) : Mach :=
  let h := hdOf b.blk.hdr
  let m := typeIn l h (nackIn l h (setRx m l (WlRx.notePassed h)))
  let m := match tripFrom m l b with
    | some t => tripIn m l t
    | none => m
  let m := if onXl l then m else echoIn m l h.claim
  if (rx m l).sched.any (fun p => p.pos == h.seq) then setRx m l (WlRx.hold h b.blk) else m

/-- What follows a block that passed: grants on XL, on WL the duties of a claiming module (R465, R466). -/
def afterBlock (l : Nat) (m : Mach) : Mach := if onXl l then settleGrants m else echoCheck (foreignDemotion m)

section
variable {m m₀ : Mach} {l : Nat} {c : Option WlBlock} {b : WlBlock} (hst : (rx m l).st = 5) (hl : looped m l = false)
  (ht : takeBlock m l c = some (b, m₀))
include hst hl ht

theorem blockIn_fail (hok : b.blk.ok = false) : blockIn l c m = failBlock l b m₀ := by
  unfold blockIn
  dsimp only
  rw [ht, hst, hl, if_neg (by decide)]
  dsimp only
  rw [hok, Bool.not_false, if_pos rfl]
  simp only [failBlock, true_and]

theorem blockIn_pass (hok : b.blk.ok = true) : blockIn l c m = afterBlock l (advance (passBlock l b m₀) l) := by
  unfold blockIn
  extract_lets r
  have hr : r.st = 5 := hst
  clear_value r
  rw [ht, hl, if_neg (by rw [hr]; decide)]
  dsimp -zeta only
  extract_lets h m₁ m₂ m₃ m₄ m₅ m₆ m₇ m₈ m₉
  rw [hok, Bool.not_true, if_neg Bool.false_ne_true]
  have hnack : m₄ = nackIn l h m₃ := by
    unfold m₄ nackIn
    cases h.nack with
    | none => rfl
    | some p => exact if_pos hr
  have hecho : m₇ = if onXl l then m₆ else echoIn m₆ l h.claim := by
    unfold m₇
    cases onXl l with
    | false => exact if_pos ⟨hr, rfl⟩
    | true => exact if_neg fun h => Bool.false_ne_true h.2
  have hheld : m₈ = if (rx m₇ l).sched.any (fun p => p.pos == h.seq) then setRx m₇ l (WlRx.hold h b.blk) else m₇ := by
    have h3 : 3 ≤ r.st := by rw [hr]; decide
    unfold m₈
    simp only [h3, true_and]
    rfl
  clear_value m₈ m₇ m₄
  subst hheld hecho hnack
  rfl
end

/-- A block that fails counts, breaks the runs and is asked for again, unless it was a re-send. -/
theorem failBlock_leaves {m : Mach} {l : Nat} (b : WlBlock) (hi : txIdle m l = false) :
    let resent := (hdOf b.blk.hdr).resend
    let u := failBlock l b m
    onlyWl m u ∧ (rx u l).held = (rx m l).held ∧ (rx u l).bad = (rx m l).bad + 1 ∧ (rx u l).good = 0 ∧
      (tget {} u.wl.cnts l).chkFail = sat (tget {} m.wl.cnts l).chkFail (b2n !resent) ∧
      (tx u l).nacks = (tx m l).nacks ++ if resent then [] else [b.at_.pos] := by
  unfold failBlock
  extract_lets resent m₁ m₂ u
  have o : onlyWl m m₂ := rfl
  have htx : tx m₂ l = tx m l := rfl
  have hidle : txIdle m₂ l = false := hi
  have hrx : rx m₂ l = { rx m l with good := 0, bad := (rx m l).bad + 1, forRun := 0, ownRun := 0, echoRun := 0 } := rx_setRx_same ..
  have hcnt : (tget {} m₂.wl.cnts l).chkFail = sat (tget {} m.wl.cnts l).chkFail (b2n !resent) :=
    congrArg WlCnt.chkFail (tget_tmod_same {} {} m.wl.cnts l fun c : WlCnt => { c with chkFail := sat c.chkFail (b2n !resent) })
  have hu : u = if resent then m₂ else setTx m₂ l fun t => { t with nacks := t.nacks ++ [b.at_.pos] } := by
    unfold u
    rw [hidle]
    cases resent <;> rfl
  clear_value u m₂ m₁ resent
  rw [hu]
  cases resent with
  | false =>
    rw [if_neg Bool.false_ne_true, if_neg Bool.false_ne_true, tx_setTx_same, rx_setTx, cnts_setTx, hrx, hcnt, htx]
    exact ⟨o.trans (onlyWl_setTx ..), rfl, rfl, rfl, rfl, rfl⟩
  | true =>
    rw [if_pos rfl, if_pos rfl, List.append_nil, hrx, hcnt, htx]
    exact ⟨o, rfl, rfl, rfl, rfl, rfl⟩

/-! ### A block that passes -/

/-- A round trip joins the last 64 (R137). -/
def WlRx.noteTrip (trip : Nat) (r : WlRx) : WlRx :=
  let trips := (trip :: r.trips).take 64
  let full := trips.length == 64
  { r with trips, dvalid := r.dvalid || full, delay := if full then trips.foldl (· + ·) 0 / 128 else r.delay }

/-- The runs of foreign and own echoes after an echo (R141, R466). -/
def WlRx.noteEcho (own claim : Nat) (r : WlRx) : WlRx :=
  let away := claim / 2 ^ 28 != 0 && claim % 256 != own
  let home := claim == 0 || claim % 256 == own
  let forRun := if away then r.forRun + 1 else 0
  let ownRun := if home then r.ownRun + 1 else 0
  { r with forRun, ownRun, echoRun := if claim != 0 && claim % 256 == own then r.echoRun + 1 else 0
           foreign := if 8 ≤ forRun then true else if 8 ≤ ownRun then false else r.foreign }

/-- What a receiver on lane `l` has heard from a block that passes, before it holds the block. -/
def WlRx.heard (l own : Nat) (b : WlBlock) (trip : Option Nat) (r : WlRx) : WlRx :=
  let h := hdOf b.blk.hdr
  let r := trip.elim id WlRx.noteTrip (r.notePassed h)
  if onXl l then r else r.noteEcho own h.claim

/-- What a receiver on lane `l` becomes by a block that passes. -/
def WlRx.pass (l own : Nat) (b : WlBlock) (trip : Option Nat) (r : WlRx) : WlRx :=
  let h := hdOf b.blk.hdr
  let r := r.heard l own b trip
  if r.sched.any (fun p => p.pos == h.seq) then r.hold h b.blk else r

/-- Steps that move neither a lane's receiver nor the starts its transmitter remembers. -/
structure keepsRx (l : Nat) (m m' : Mach) : Prop where
  only : onlyWl m m'
  rx : rx m' l = rx m l
  starts : (tx m' l).starts = (tx m l).starts

theorem keepsRx.refl (l : Nat) (m : Mach) : keepsRx l m m := ⟨.refl m, rfl, rfl⟩

theorem keepsRx.trans {l : Nat} {a b c : Mach} (h : keepsRx l a b) (k : keepsRx l b c) : keepsRx l a c :=
  ⟨h.only.trans k.only, k.rx.trans h.rx, k.starts.trans h.starts⟩

theorem keepsRx_setWlCnt (l : Nat) (m : Mach) (f : WlCnt → WlCnt) : keepsRx l m (setWlCnt m l f) := ⟨rfl, rfl, rfl⟩

theorem keepsRx_takeNack (l pos : Nat) (m : Mach) : keepsRx l m (takeNack l pos m) := by
  unfold takeNack
  extract_lets t m₁
  have h₁ : keepsRx l m m₁ := keepsRx_setWlCnt ..
  split
  · exact h₁.trans (keepsRx_setWlCnt ..)
  · split
    · exact h₁.trans (keepsRx_setWlCnt ..)
    · split
      · exact h₁.trans (keepsRx_setWlCnt ..)
      · exact h₁.trans ⟨rfl, rfl, by rw [tx_setTx_same]⟩

theorem keepsRx_nackIn (l : Nat) (h : Hd) (m : Mach) : keepsRx l m (nackIn l h m) := by
  unfold nackIn
  split
  · exact keepsRx_takeNack ..
  · exact .refl l m

theorem keepsRx_typeIn (l : Nat) (h : Hd) (m : Mach) : keepsRx l m (typeIn l h m) := by
  unfold typeIn
  split
  · exact .refl l m
  · exact keepsRx_setWlCnt ..

/-- The round trip that a block measures follows from the mode and the starts alone. -/
theorem tripFrom_congr {m m' : Mach} {l : Nat} (b : WlBlock) (hs : (tx m' l).starts = (tx m l).starts)
    (hm : (rx m' l).mode = (rx m l).mode) : tripFrom m' l b = tripFrom m l b := by
  simp only [tripFrom, tripOf, hs, hm]

theorem passBlock_leaves (l : Nat) (b : WlBlock) (m : Mach) : onlyWl m (passBlock l b m) ∧
    rx (passBlock l b m) l = (rx m l).pass l (m.pr.slotId % 256) b (tripFrom m l b) := by
  unfold passBlock
  extract_lets h m₁ m₂ m₃
  have k₁ : keepsRx l (setRx m l (WlRx.notePassed h)) m₁ := (keepsRx_nackIn ..).trans (keepsRx_typeIn ..)
  have hrx₁ : rx m₁ l = (rx m l).notePassed h := k₁.rx.trans (rx_setRx_same ..)
  have htrip : tripFrom m₁ l b = tripFrom m l b := tripFrom_congr b k₁.starts (by rw [hrx₁]; rfl)
  have h₂ : onlyWl m₁ m₂ ∧ rx m₂ l = (tripFrom m l b).elim id WlRx.noteTrip (rx m₁ l) := by
    unfold m₂
    rw [htrip]
    cases tripFrom m l b with
    | none => exact ⟨rfl, rfl⟩
    | some t => exact ⟨rfl, rx_setRx_same ..⟩
  have h₃ : onlyWl m₂ m₃ ∧ rx m₃ l = if onXl l then rx m₂ l else (rx m₂ l).noteEcho (m₂.pr.slotId % 256) h.claim := by
    unfold m₃
    split
    · exact ⟨rfl, rfl⟩
    · exact ⟨rfl, rx_setRx_same ..⟩
  obtain ⟨o₂, hrx₂⟩ := h₂
  obtain ⟨o₃, hrx₃⟩ := h₃
  have o : onlyWl m m₂ := ((onlyWl_setRx ..).trans k₁.only).trans o₂
  have hpr : m₂.pr = m.pr := by rw [o]
  rw [hpr] at hrx₃
  have hpass : (rx m l).pass l (m.pr.slotId % 256) b (tripFrom m l b) =
      if (rx m₃ l).sched.any (fun p => p.pos == h.seq) then (rx m₃ l).hold h b.blk else rx m₃ l := by
    rw [hrx₃, hrx₂, hrx₁]
    rfl
  rw [hpass]
  split
  · exact ⟨(o.trans o₃).trans (onlyWl_setRx ..), rx_setRx_same ..⟩
  · exact ⟨o.trans o₃, rfl⟩

section
variable (l own : Nat) (b : WlBlock) (trip : Option Nat) (r : WlRx)

theorem WlRx.heard_notes : let h := hdOf b.blk.hdr
    let u := r.heard l own b trip
    u.st = r.st ∧ u.good = r.good + 1 ∧ u.bad = 0 ∧ u.farUp = h.rxUp ∧ u.echo = BitVec.ofNat 32 h.claim ∧ u.blocks = r.blocks ∧
      u.trips = (trip.elim r.trips fun t => (t :: r.trips).take 64) ∧ u.sched = r.sched ∧ u.held = r.held := by
  unfold WlRx.heard
  cases trip with
  | none => cases onXl l <;> exact ⟨rfl, rfl, rfl, rfl, rfl, rfl, rfl, rfl, rfl⟩
  | some t => cases onXl l <;> exact ⟨rfl, rfl, rfl, rfl, rfl, rfl, rfl, rfl, rfl⟩

/-- On WL the eighth foreign echo in a row makes the lane FOREIGN (R141). -/
theorem WlRx.heard_foreign (hl : l < 144) (ha : (hdOf b.blk.hdr).claim / 2 ^ 28 ≠ 0) (ho : (hdOf b.blk.hdr).claim % 256 ≠ own)
    (hr : 7 ≤ r.forRun) : (r.heard l own b trip).foreign = true := by
  have hxl : onXl l = false := decide_eq_false (not_le.2 hl)
  have haway : ((hdOf b.blk.hdr).claim / 2 ^ 28 != 0 && (hdOf b.blk.hdr).claim % 256 != own) = true := by
    rw [Bool.and_eq_true, bne_iff_ne, bne_iff_ne]
    exact ⟨ha, ho⟩
  have hrun : (trip.elim id WlRx.noteTrip (r.notePassed (hdOf b.blk.hdr))).forRun = r.forRun := by cases trip <;> rfl
  have h8 : 8 ≤ r.forRun + 1 := Nat.succ_le_succ hr
  simp only [WlRx.heard, hxl, Bool.false_eq_true, if_false, WlRx.noteEcho, haway, if_true, hrun, h8]

theorem WlRx.hold_eq (h : Hd) (b : RxBlock) : r.hold h b = { r with held := (r.hold h b).held } := by
  unfold WlRx.hold
  split <;> rfl

/-- Beside what a receiver has heard, a block that passes moves what it holds alone. -/
theorem WlRx.pass_eq : r.pass l own b trip = { r.heard l own b trip with held := (r.pass l own b trip).held } := by
  unfold WlRx.pass
  extract_lets h u
  split
  · exact u.hold_eq h b.blk
  · rfl

/-- Where nothing is held, the block is held for its position if that waits. -/
theorem WlRx.pass_held (hr : r.held = []) : let h := hdOf b.blk.hdr
    (r.pass l own b trip).held = if r.sched.any (fun p => p.pos == h.seq) then
      [{ pos := h.seq, good := some (b.blk.hdr, b.blk.payload), resent := h.resend }] else [] := by
  obtain ⟨-, -, -, -, -, -, -, hsched, hheld⟩ := r.heard_notes l own b trip
  rw [hr] at hheld
  unfold WlRx.pass
  extract_lets h u
  rw [show u.sched = r.sched from hsched]
  split
  · simp only [WlRx.hold, show u.held = [] from hheld, List.any_nil, Bool.false_eq_true, if_false, List.filter_nil, List.nil_append]
  · exact hheld
end

/-! ### What follows a block that passed (R206, R465, R466) -/

theorem onlyConsumers_sendReport (m : Mach) (x : Member) (recs : List (Nat × List (List Byte))) : onlyConsumers m (sendReport m x recs) := by
  have hone (k : Nat) (frame : List Byte) : onlyConsumers m (queueFrame (fresh m).2 k none 0 frame) := rfl
  unfold sendReport
  dsimp only
  split
  · exact .refl m
  · split
    · exact hone ..
    · split
      · exact hone ..
      · exact hone ..

theorem onlyConsumers_sendArp (k : Nat) (tci : Option Nat) (dst op tha : Nat) (tpa : List Byte) (m : Mach) :
    onlyConsumers m (sendArp k tci dst op tha tpa m) := by
  unfold sendArp
  dsimp only
  split
  · exact .refl m
  · exact onlyConsumers_queueFrame ..

theorem onlyConsumers_sendIcmp6 (k : Nat) (tci : Option Nat) (edst : Nat) (src dst msg : List Byte) (m : Mach) :
    onlyConsumers m (sendIcmp6 k tci edst src dst msg m) := by
  unfold sendIcmp6
  dsimp only
  split
  · exact .refl m
  · exact onlyConsumers_queueFrame ..

/-- Announcements leave what consumers of samples do not keep. -/
theorem onlyConsumers_announce (m : Mach) : onlyConsumers m (announce m) := by
  unfold announce
  refine .trans (onlyConsumers_foldl _ (fun m k => ?_) _ m) (onlyConsumers_foldl _ (fun m x => ?_) _ _)
  · refine .trans ?_ (onlyConsumers_foldl _ (fun m a => onlyConsumers_sendIcmp6 ..) _ _)
    split
    · exact onlyConsumers_sendArp ..
    · exact .refl m
  · split
    · exact .refl m
    · exact onlyConsumers_sendReport ..

theorem raise_wl (m : Mach) (src kind cls addr : Nat) : (raise m src kind cls addr).wl = m.wl := by
  obtain ⟨-, -, -, hwl, -⟩ := apartFromFaults_raise m src kind cls addr
  exact hwl

theorem setRole_wl (m : Mach) (r : Nat) : (setRole m r).wl = m.wl := by
  obtain ⟨-, -, -, hwl, -⟩ := apartFromFaults_setRole m r
  exact hwl

theorem foreignDemotion_wl (m : Mach) : (foreignDemotion m).wl = m.wl := by
  unfold foreignDemotion
  split
  · extract_lets m₁ _ _ m₂
    have hraise : (raise m₂ 0xDE0 0x93 2).wl = m₂.wl := raise_wl ..
    have hrole : m₂.wl = m.wl := setRole_wl m 4
    rw [← hrole, ← hraise, sameButCtl_pairEvt]
  · rfl

theorem echoCheck_wl (m : Mach) : (echoCheck m).wl = m.wl := by
  unfold echoCheck
  split
  · rw [echoConfirmed, onlyConsumers_announce]
    rfl
  · rfl

/-- What follows a block leaves the link state. -/
theorem afterBlock_wl (l : Nat) (m : Mach) : (afterBlock l m).wl = m.wl := by
  unfold afterBlock
  split
  · rfl
  · exact (echoCheck_wl _).trans (foreignDemotion_wl m)

/-! ### Demotion by a foreign echo (R465) -/

@[simp] theorem snapTrigger_pr (m : Mach) (k : Nat) (w : BitVec 64) : (snapTrigger m k w).1.pr = m.pr := by
  unfold snapTrigger
  split
  · dsimp only; split <;> rfl
  · split <;> rfl

@[simp] theorem faultEvt_pr (m : Mach) (w : BitVec 64) (c : Nat) : (faultEvt m w c).pr = m.pr := by
  rw [show faultEvt m w c = _ from sameButCtl_event _ _ _ _ _]

/-- Only a record that newly reaches C3 moves ROLE (R524). -/
theorem reached_pr (m : Mach) {old : Nat} {had : Bool} {r : FaultRec} (h : r.cls = 3 → had = true ∧ 3 ≤ old) :
    (reached m old had r).pr = m.pr := by
  have hup : ((!had || decide (old < r.cls)) && r.cls == 3) = false := by
    by_cases h3 : r.cls = 3
    · obtain ⟨rfl, ho⟩ := h h3
      simp [h3, ho]
    · simp [h3]
  unfold reached
  simp only [hup, Bool.false_eq_true, if_false]
  split <;> simp

/-- With room in the table a fault below C3 leaves ROLE and what belongs to it alone. -/
theorem raise_pr {m : Mach} (src kind : Nat) {cls : Nat} (addr : Nat) (hc : cls ≤ 2) (hroom : tableRoom m = true) :
    (raise m src kind cls addr).pr = m.pr := by
  have hrec (m : Mach) (msg : BitVec 64) (cond inj : Bool) (h : tableRoom m = true) :
      (recordMsg m src kind cls msg cond inj).1.pr = m.pr := by
    have hlen : (m.flt.recs.filter fun r => !r.overflow).length < 2048 :=
      lt_of_le_of_lt (List.length_filter_le _ _) (of_decide_eq_true h)
    unfold recordMsg
    dsimp only
    split
    · exact reached_pr _ fun h => ⟨rfl, FaultRec.cls_join_lt hc h⟩
    · rw [if_pos hlen]
      refine reached_pr _ fun h => ?_
      simp only [FaultRec.cls, Bool.false_eq_true, if_false] at h
      omega
  unfold raise takeFault
  dsimp only
  split
  · rw [faultEvt_pr]
    exact hrec _ _ _ _ hroom
  · exact hrec _ _ _ _ hroom

/-- ROLE as given, and the count of demotions as it was. -/
theorem setRole_pr (m : Mach) (r : Nat) : (setRole m r).pr.role = r ∧ (setRole m r).pr.cnt = m.pr.cnt := by
  unfold setRole
  dsimp only
  split <;> exact ⟨rfl, rfl⟩

/-- A claiming module with an UP WL lane that reports FOREIGN gives its claim up (R465). -/
theorem foreignDemotion_demotes {m : Mach} (hc : claiming m = true) (hf : ((upLanes m).any fun l => (rx m l).foreign) = true)
    (hroom : tableRoom m = true) :
    let u := foreignDemotion m
    u.pr.role = 4 ∧ u.pr.split = true ∧ u.pr.cnt.demote = sat m.pr.cnt.demote 1 ∧ recorded u 0xDE0 0x93 = true := by
  unfold foreignDemotion
  rw [if_pos ⟨hc, hf⟩]
  extract_lets m₁ _ _ m₂ u
  obtain ⟨hrole, hcnt⟩ : m₁.pr.role = 4 ∧ m₁.pr.cnt = m.pr.cnt := setRole_pr m 4
  have hroom₂ : tableRoom m₂ = true := by
    have hflt : m₂.flt = m.flt := setRole_flt m 4
    rwa [tableRoom, hflt]
  have hpr : (raise m₂ 0xDE0 0x93 2).pr = m₂.pr := raise_pr _ _ _ (by decide) hroom₂
  have hrec : recorded (raise m₂ 0xDE0 0x93 2) 0xDE0 0x93 = true := recorded_raise _ _ _ _ _ hroom₂
  have hu : sameButCtl (raise m₂ 0xDE0 0x93 2) u := sameButCtl_pairEvt ..
  have hupr : u.pr = m₂.pr := by rw [hu, hpr]
  have hflt : u.flt = (raise m₂ 0xDE0 0x93 2).flt := by rw [hu]
  refine ⟨by rw [hupr]; exact hrole, by rw [hupr], by rw [hupr, ← hcnt], ?_⟩
  rw [← hrec, recorded, recorded, hflt]

/-- A lane of WL in UP is among the lanes whose state R465 asks for. -/
theorem mem_upLanes {m : Mach} {l : Nat} (hl : l < 144) (h : (rx m l).st = 5) : l ∈ upLanes m := by
  refine List.mem_filter.2 ⟨?_, decide_eq_true hl⟩
  unfold rx tget at h
  cases hx : tget? l m.wl.rx with
  | none => rw [hx] at h; cases h
  | some x =>
    rw [hx] at h
    exact mem_tkeys hx (beq_iff_eq.2 h)

/-- Where a lane of WL has become FOREIGN, what follows the block is the demotion alone. -/
theorem afterBlock_demotes {m : Mach} {l : Nat} (hl : l < 144) (hst : (rx m l).st = 5) (hf : (rx m l).foreign = true)
    (hc : claiming m = true) (hroom : tableRoom m = true) :
    let u := afterBlock l m
    u.pr.role = 4 ∧ u.pr.split = true ∧ u.pr.cnt.demote = sat m.pr.cnt.demote 1 ∧ recorded u 0xDE0 0x93 = true := by
  obtain ⟨hrole, hrest⟩ := foreignDemotion_demotes hc (List.any_eq_true.2 ⟨l, mem_upLanes hl hst, hf⟩) hroom
  have hno : claiming (foreignDemotion m) = false := by rw [claiming, hrole]; rfl
  have hafter : afterBlock l m = foreignDemotion m := by
    have hxl : onXl l = false := decide_eq_false (not_le.2 hl)
    rw [afterBlock, hxl, if_neg Bool.false_ne_true, echoCheck, hno, if_neg fun h => Bool.false_ne_true h.1]
  rw [hafter]
  exact ⟨hrole, hrest⟩

/-! ### Blocks on a lane in UP -/

section
variable {m : Mach} {l : Nat} {c : Option WlBlock} {b : WlBlock} (hst : (rx m l).st = 5) (hl : looped m l = false)
  (hc : candidate m l c b)
include hst hl hc

theorem blockIn_fails (hi : txIdle m l = false) (hok : b.blk.ok = false) :
    let resent := (hdOf b.blk.hdr).resend
    let u := blockIn l c m
    onlyWl m u ∧ (rx u l).held = (rx m l).held ∧ (rx u l).bad = (rx m l).bad + 1 ∧ (rx u l).good = 0 ∧
      (tget {} u.wl.cnts l).chkFail = sat (tget {} m.wl.cnts l).chkFail (b2n !resent) ∧
      (tx u l).nacks = (tx m l).nacks ++ if resent then [] else [b.at_.pos] := by
  obtain ⟨m₀, ht, o, hrx, htx, hcnt⟩ := takeBlock_of_candidate hc
  have hi₀ : txIdle m₀ l = false := by rw [o]; exact hi
  obtain ⟨o', hheld, hbad, hgood, hchk, hnacks⟩ := failBlock_leaves b hi₀
  have htx₀ : tx m₀ l = tx m l := by rw [tx, htx]; rfl
  rw [hrx] at hheld hbad
  rw [hcnt] at hchk
  rw [htx₀] at hnacks
  rw [blockIn_fail hst hl ht hok]
  exact ⟨o.trans o', hheld, hbad, hgood, hchk, hnacks⟩

/-- What a block that passes leaves of its receiver, and of the machine until the duties of a claiming module. -/
theorem blockIn_passes (hok : b.blk.ok = true) :
    let r := ((rx m l).dropTaken c).pass l (m.pr.slotId % 256) b (tripFrom m l b)
    ∃ m', blockIn l c m = afterBlock l m' ∧ onlyWl m m' ∧ rx m' l = r ∧ rx (blockIn l c m) l = r := by
  obtain ⟨m₀, ht, o, hrx, htx, -⟩ := takeBlock_of_candidate hc
  have htrip : tripFrom m₀ l b = tripFrom m l b := tripFrom_congr b (by rw [tx, htx]; rfl) (by rw [hrx]; rfl)
  have hpr : m₀.pr = m.pr := by rw [o]
  obtain ⟨o', hrx'⟩ := passBlock_leaves l b m₀
  rw [hrx, htrip, hpr] at hrx'
  obtain ⟨hup, -⟩ := WlRx.heard_notes l (m.pr.slotId % 256) b (tripFrom m l b) ((rx m l).dropTaken c)
  have hst' : (rx (passBlock l b m₀) l).st = 5 := by
    rw [hrx', WlRx.pass_eq]
    exact hup.trans hst
  have hin : blockIn l c m = afterBlock l (passBlock l b m₀) := by rw [blockIn_pass hst hl ht hok, advance_up hst']
  refine ⟨_, hin, o.trans o', hrx', ?_⟩
  rw [hin, rx, afterBlock_wl]
  exact hrx'
end

end Sys2Proof.Machine

namespace Sys2Proof.Proofs
open Sys2Proof.Machine Sys2Proof.Safety

/-- Settles O33: the clauses on frames are the laws of a searching and of an aligned lane, those on blocks the laws of a block that passes
and of one that fails. -/
theorem linkBlocksAlignAndArrive : Obligations.LinkBlocksAlignAndArrive := by
  unfold Obligations.LinkBlocksAlignAndArrive
  refine ⟨?_, ?_, ?_, ?_, fun b => rfl, ?_⟩
  · intro s l f hl hloop r line hit
    have hwf := decide_eq_true hl
    have hhit : hit ↔ aligns s.toMach l f = true := decide_eq_true_iff.symm
    refine ⟨fun hst => ?_, fun hst => ?_⟩
    · obtain ⟨o, hrun, hup⟩ := frameIn_search f hloop hst
      refine answers_of_runIf rfl hwf ⟨o, hrun.trans ?_, hup.trans ?_⟩
      · simp only [hhit]
        rfl
      · simp only [hhit]
        rfl
    · intro d z ps
      obtain ⟨o, hrx, hcnt⟩ := frameIn_up f hloop hst
      have hd : decodeFrame (rx s.toMach l).scr (frameLine s.toMach l f) = d := rfl
      rw [hd] at hrx hcnt
      refine answers_of_runIf rfl hwf ⟨o, hrx.trans ?_, hcnt⟩
      simp only [hhit]
      unfold WlRx.noteFrame WlRx.noteOverhead ps z
      clear_value d
      cases d.ovh <;> rfl
  · intro s l c b hl hst hloop hc hok h p trip
    obtain ⟨m', -, -, -, hrx⟩ := blockIn_passes hst hloop hc hok
    obtain ⟨hup, hgood, hbad, hfar, hecho, hblocks, htrips, -⟩ :=
      WlRx.heard_notes l (s.pr.slotId % 256) b (tripFrom s.toMach l b) ((rx s.toMach l).dropTaken c)
    refine answers_of_runIf rfl (decide_eq_true hl) ?_
    rw [hrx, WlRx.pass_eq]
    refine ⟨hup.trans hst, hgood, hbad, hfar, hecho, hblocks, fun hheld => WlRx.pass_held _ _ _ _ _ hheld, htrips.trans ?_⟩
    change (if h.typ = 0 then trip else none).elim _ _ = _
    cases (if h.typ = 0 then trip else none) <;> rfl
  · exact fun s l c b hl hst hloop hc hi hok => answers_of_runIf rfl (decide_eq_true hl) (blockIn_fails hst hloop hc hi hok)
  · exact fun s l hl h => takes_of_runIf rfl (decide_eq_true hl) (blockIn_none h)
  · intro s l b hl hst hloop hok hcl hroom ha ho hrun
    obtain ⟨m', hin, o, hrx', hrx⟩ := blockIn_passes (c := some b) hst hloop (.inl rfl) hok
    obtain ⟨hup, -⟩ := WlRx.heard_notes l (s.pr.slotId % 256) b (tripFrom s.toMach l b) ((rx s.toMach l).dropTaken (some b))
    have hst' : (rx m' l).st = 5 := by
      rw [hrx', WlRx.pass_eq]
      exact hup.trans hst
    have hforeign : (rx m' l).foreign = true := by
      rw [hrx', WlRx.pass_eq]
      exact WlRx.heard_foreign _ _ _ _ _ hl ha ho hrun
    have hpr : m'.pr = s.pr := by rw [o]
    have hdemoted := afterBlock_demotes hl hst' hforeign (by rw [o]; exact hcl) (by rw [o]; exact hroom)
    rw [← hin, hpr] at hdemoted
    exact answers_of_runIf rfl (decide_eq_true (by omega)) ⟨by rw [hrx, ← hrx']; exact hforeign, hdemoted⟩

end Sys2Proof.Proofs

/-! SUPPORT. The rings: a doorbell that covers no entry, and what posts nothing. -/
namespace Sys2Proof.Machine
open Sys2Proof.Safety

/-- A write of MBX_CMD_TAIL that leaves the ring's length (R397) as it was covers no entry: the tail moves, and nothing is rung (R399). -/
theorem doorbell_uncovered {m : Mach} {port n old head tail : Nat} (hst : (ses m n).st = .opn) (hport : (ses m n).port = port)
    (hold : (win m n).cmdTail = old) (hhead : (win m n).headReg = head) (htail : tail < 65536) (hroom : ringLen old head ≤ 256)
    (hlen : ringLen tail head = ringLen old head) :
    doorbell false port n tail m = setWin m n fun w => { w with cmdTail := tail } := by
  have hown : foreign m port n = false := by simp [foreign, hport]
  have hgood : ¬(ringSize false < ringLen tail head ∨ ringLen tail head < ringLen old head) := by simp [hlen, ringSize, hroom]
  unfold doorbell
  rw [hown, if_neg Bool.false_ne_true, if_neg (by simp [hst])]
  simp only [Bool.false_eq_true, if_false, Nat.mod_eq_of_lt htail, hold, hhead, if_neg hgood]
  simp only [hlen, Nat.sub_self, List.range_zero, List.map_nil, List.append_nil]

/-- What leaves the tail of a session's response ring where it was has posted nothing. -/
theorem posted_of_respTail {m u : Mach} {n : Nat} (h : (win u n).respTail = (win m n).respTail) : posted m u n = [] := by
  simp [posted, h, ringLen]

end Sys2Proof.Machine

/-! SUPPORT. Three statements about serial lanes and status queries that the model does not meet, each with a state where it does not. -/
namespace Sys2Proof.Proofs
open Sys2Proof.Machine Sys2Proof.Safety

/-! ### Commands rung where the head is beyond the range of a ring's index -/

/-- The doorbell of any command of that ring covers no entry there, and the command is not answered. -/
theorem postedBy_headBeyond {i : Instr} {c : Cmd} (hi : exec i headBeyond = host nextHdr c headBeyond) (hring : c.hare = false)
    (hfits : c.fits = true) : postedBy i headBeyond 0 = [] := by
  let written := setWin headBeyond.toMach 0 fun w => { w with ram := mput w.ram 0x10000 (c.entry 7) }
  let u := setWin written 0 fun w => { w with cmdTail := 1 }
  have hentry : hostEntry nextHdr c headBeyond.toMach = u := by
    have hopen : hostEntry nextHdr c headBeyond.toMach = doorbell false 0 0 1 written := by
      unfold hostEntry
      rw [hring, if_neg (by decide), if_neg (by decide)]
      simp only [Bool.false_eq_true, if_false]
      rfl
    exact hopen.trans (doorbell_uncovered (old := 0) (head := 2 ^ 17) rfl rfl rfl rfl (by decide) (by decide) (by decide))
  have hexec : exec i headBeyond = .next { headBeyond with toMach := u } := by
    have hserve : serveRings u = u := engine_idle _ _ rfl
    rw [hi, host, hfits, ← hserve, ← hentry]
    rfl
  rw [postedBy_of_exec hexec]
  exact posted_of_respTail rfl

/-- Refutes O7: the statement does not bound the index of the oldest unfinished entry, which MBX_CMD_HEAD shows; where it is beyond 16
bits, a state that the module itself never comes to, LANE_STATUS is not taken. -/
theorem not_streamQueriesAnswer : ¬ Obligations.StreamQueriesAnswer := by
  unfold Obligations.StreamQueriesAnswer
  intro h
  obtain ⟨t, ht, -, -, -, hposted, -⟩ := h (.laneStatus nextHdr 0) nextHdr (.laneStatus 0) headBeyond _ rfl (by decide +kernel) rfl
  have hnone := postedBy_headBeyond (i := .laneStatus nextHdr 0) (c := .laneStatus 0) rfl rfl rfl
  rw [postedBy_of_exec ht, show posted _ _ 0 = _ from hposted] at hnone
  exact absurd hnone (by decide)

/-- Refutes O9: LANE_LOOP is not taken there either, and the statement's second clause promises its OK. -/
theorem not_laneTestsTakeEffect : ¬ Obligations.LaneTestsTakeEffect := by
  unfold Obligations.LaneTestsTakeEffect
  rintro ⟨-, hloop, -⟩
  obtain ⟨t, ht, hposted, -⟩ := hloop headBeyond nextHdr 0 0 0 (by decide +kernel) (by decide) (by decide) (by decide) rfl (by decide)
    (by decide)
  have hnone := postedBy_headBeyond (i := .laneLoop nextHdr 0 0 0) (c := .laneLoop 0 0 0) rfl rfl rfl
  rw [postedBy_of_exec ht, show posted _ _ 0 = _ from hposted] at hnone
  exact absurd hnone (by decide)

/-! ### A lock loss that is captured in a snapshot -/

/-- A locked lane of MAC 0, whose link is up under a bound context; every fault triggers a snapshot (R527), and the pseudo-channels'
snapshot registers are armed as they are after reset (R382). -/
def watchedLane : State := { State.reset with
  ln := { State.reset.ln with lanes := [(144, { fitted := true, ready := true, lock := true, sig := true, rate := 5 })] }
  eth := { State.reset.eth with macs := [(0, { link := true })] }
  flw := { State.reset.flw with ctxs := [(0, { st := 1 })] }
  snp := { State.reset.snp with enables := 8 } }

/-- The fault of the lost link (R173) triggers the snapshot, which latches the registers of the pseudo-channels. -/
theorem lockLoss_watchedLane : (pc (lockLoss 144 false watchedLane.toMach) 0).capKind = 2 := by decide +kernel

/-- Refutes O36: where the lost lock takes down a MAC's link under a bound context, the C1 fault can trigger a snapshot, which latches the
snapshot registers of armed pseudo-channels (R382); the statement's third clause lets the memory stacks change nothing. -/
theorem not_lanesProceed : ¬ Obligations.LanesProceed := by
  unfold Obligations.LanesProceed
  rintro ⟨-, -, hloss, -⟩
  obtain ⟨t, ht, honly, -⟩ := ((hloss watchedLane 144 false (by decide) rfl).2 (by decide)).1 (by decide)
  cases ht
  have hcap := lockLoss_watchedLane
  rw [show lockLoss 144 false watchedLane.toMach = _ from honly] at hcap
  exact absurd hcap (by decide)

end Sys2Proof.Proofs

/-! SUPPORT. MACs: link changes, packets that leave, next hops that are asked for, group reports. -/
namespace Sys2Proof.Machine
open Sys2Proof.Safety

theorem raise_eth (m : Mach) (src kind cls addr : Nat) : (raise m src kind cls addr).eth = m.eth := by
  obtain ⟨-, -, -, -, -, heth, -⟩ := apartFromFaults_raise m src kind cls addr
  exact heth

/-- Only what a change makes of the MAC as it is counts. -/
theorem setMac_congr {m : Mach} {k : Nat} {f g : Mac → Mac} (h : f (mac m k) = g (mac m k)) : setMac m k f = setMac m k g := by
  change f (tget {} m.eth.macs k) = g (tget {} m.eth.macs k) at h
  simp only [setMac, tmod, h]

@[simp] theorem mac_setMacCnt (m : Mach) (k j : Nat) (f : MacCnt → MacCnt) : mac (setMacCnt m k f) j = mac m j := rfl
@[simp] theorem cnts_setMac (m : Mach) (k : Nat) (f : Mac → Mac) : (setMac m k f).eth.cnts = m.eth.cnts := rfl
@[simp] theorem cnt_setMacCnt_same (m : Mach) (k : Nat) (f : MacCnt → MacCnt) :
    tget {} (setMacCnt m k f).eth.cnts k = f (tget {} m.eth.cnts k) := tget_tmod_same ..

/-! ### Link changes (R173) -/

/-- A condition that does not stand cannot end (R522). -/
theorem endCond_of_not_standing {m : Mach} {src kind : Nat} (h : standing m src kind = false) : endCond m src kind = m := by
  unfold endCond
  split
  · rfl
  case h_2 i hi =>
    obtain ⟨hlt, hkey, -⟩ := List.findIdx?_eq_some_iff_getElem.1 hi
    have hcond : (m.flt.recs[i]).cond = false := by
      have hno := List.any_eq_false.1 h _ (List.getElem_mem hlt)
      simpa [hkey] using hno
    simp only [lget, List.getElem?_eq_getElem hlt, Option.getD_some, hcond, Bool.not_false, if_true]

/-- What the PCS of a MAC reports is noted, with the instant at which a fault stood last. -/
def notePcs (k : Nat) (align lfault rfault : Bool) (m : Mach) : Mach :=
  let x := mac m k
  let faultAt := if x.lfault || x.rfault || lfault || rfault then m.now else x.faultAt
  setMac m k fun x => { x with align, lfault, rfault, faultAt }

theorem linkChange_eq {m : Mach} {k : Nat} (up align lfault rfault : Bool) (h : macExists m k = true) :
    linkChange k up align lfault rfault m =
      setLink k (up && linkReady (notePcs k align lfault rfault m) k) (notePcs k align lfault rfault m) := by
  simp only [linkChange, h, Bool.not_true, Bool.false_eq_true, if_false]
  rfl

/-- When a link can be up: a fault that stood until now has not been gone for 10 ms. -/
theorem linkReady_notePcs_iff {m : Mach} {k : Nat} (align lfault rfault : Bool) (h : macExists m k = true) :
    linkReady (notePcs k align lfault rfault m) k = true ↔
      allLanes m k (fun l => l.lock && l.loop == 0) = true ∧ align = true ∧ lfault = false ∧ rfault = false ∧
        (mac m k).lfault = false ∧ (mac m k).rfault = false ∧ max (mac m k).faultAt m.sys.resetAt + 10 * msT ≤ m.now := by
  have hstood : ¬ max m.now m.sys.resetAt + 10 * msT ≤ m.now := by
    have := le_max_left m.now m.sys.resetAt
    simp only [msT]
    omega
  have hexists : macExists (notePcs k align lfault rfault m) k = true := h
  have hlanes : allLanes (notePcs k align lfault rfault m) k = allLanes m k := rfl
  simp only [linkReady, hexists, hlanes, Bool.true_and, Bool.and_eq_true, Bool.not_eq_true', decide_eq_true_eq, and_assoc]
  simp only [notePcs, mac_setMac_same, setMac_sys, setMac_now]
  by_cases hf : ((mac m k).lfault || (mac m k).rfault || lfault || rfault) = true
  · simp only [hf, if_true, hstood, and_false, false_iff]
    rintro ⟨-, -, hl, hr, hl', hr', -⟩
    simp [hl, hr, hl', hr'] at hf
  · simp only [Bool.or_eq_true, not_or, Bool.not_eq_true] at hf
    obtain ⟨⟨⟨hl', hr'⟩, hl⟩, hr⟩ := hf
    simp [hl, hr, hl', hr']

theorem setLink_same {m : Mach} {k : Nat} {up : Bool} (h : (mac m k).link = up) : setLink k up m = m := if_pos h

/-- The MAC's link stands, and everything else is as it was. -/
def turnLink (k : Nat) (up : Bool) (m : Mach) : Mach := setMac m k fun x => { x with link := up }

theorem linkEvent_ctl (m : Mach) (k : Nat) : linkEvent m k = { m with ctl := (linkEvent m k).ctl } := sameButCtl_event ..

theorem setLink_up {m : Mach} {k : Nat} (h : (mac m k).link = false) (hs : standing m (0xBF0 + k) 0x30 = false) :
    setLink k true m = { turnLink k true m with ctl := (setLink k true m).ctl } := by
  have hend : endCond (linkEvent (turnLink k true m) k) (0xBF0 + k) 0x30 = linkEvent (turnLink k true m) k :=
    endCond_of_not_standing (by rw [linkEvent_ctl]; exact hs)
  have heq : setLink k true m = linkEvent (turnLink k true m) k := by
    rw [setLink, if_neg (by simp [h])]
    exact hend
  rw [heq]
  exact linkEvent_ctl ..

theorem setLink_down {m : Mach} {k : Nat} (h : (mac m k).link = true) :
    setLink k false m = if (ctxOnMac m (· == k)).isSome then raise (linkEvent (turnLink k false m) k) (0xBF0 + k) 0x30 1
      else linkEvent (turnLink k false m) k := by
  have hctx : ctxOnMac (linkEvent (turnLink k false m) k) (· == k) = ctxOnMac m (· == k) := by rw [linkEvent_ctl]; rfl
  rw [setLink, if_neg (by simp [h]), ← hctx]
  rfl

/-- A link lost under no context leaves no more than an event. -/
theorem setLink_down_unbound {m : Mach} {k : Nat} (h : (mac m k).link = true) (hc : ctxOnMac m (· == k) = none) :
    setLink k false m = { turnLink k false m with ctl := (setLink k false m).ctl } := by
  have heq := setLink_down h
  rw [hc, if_neg (by simp)] at heq
  rw [heq]
  exact linkEvent_ctl ..

/-- A link lost under a context is recorded. -/
theorem setLink_down_bound {m : Mach} {k : Nat} (h : (mac m k).link = true) (hc : (ctxOnMac m (· == k)).isSome = true)
    (hroom : tableRoom m = true) :
    (setLink k false m).eth = (turnLink k false m).eth ∧ (setLink k false m).flw = m.flw ∧
      recorded (setLink k false m) (0xBF0 + k) 0x30 = true := by
  have hroom' : tableRoom (linkEvent (turnLink k false m) k) = true := by rw [linkEvent_ctl]; exact hroom
  rw [setLink_down h, if_pos hc]
  refine ⟨?_, ?_, recorded_raise _ _ _ _ _ hroom'⟩
  · rw [raise_eth, linkEvent_ctl]
  · rw [raise_flw, linkEvent_ctl]
    rfl

/-! ### Packets leave (R179, R180) -/

/-- The oldest packet of a MAC has left the release buffer. -/
def dropPacket (k : Nat) (m : Mach) : Mach := setMac m k fun x => { x with txq := x.txq.drop 1 }

/-- A packet has left with its FCS, and is counted. -/
def sentPacket (k : Nat) (p : TxPkt) (m : Mach) : Mach :=
  let f := p.frame ++ fcs p.frame
  setMacCnt (setMac m k fun x => { x with sent := f }) k fun c =>
    { c with txFrames := sat64 c.txFrames 1, txBytes := sat64 c.txBytes f.length }

/-- A context's packet is counted, and its number is the latest sent. -/
def countPacket (c : Option Nat) (seq : Nat) (m : Mach) : Mach :=
  match c with
  | some c => setCtxCnt (setCtx m c fun x => { x with seq }) c fun n => { n with pkts := sat n.pkts 1 }
  | none => m

theorem sentPacket_mac (k : Nat) (p : TxPkt) (m : Mach) :
    (mac (sentPacket k p m) k).sent = p.frame ++ fcs p.frame ∧ (mac (sentPacket k p m) k).txq = (mac m k).txq := by
  simp only [sentPacket, mac_setMacCnt, mac_setMac_same, and_self]

theorem sentPacket_counts (k : Nat) (p : TxPkt) (m : Mach) : let c := tget {} m.eth.cnts k
    (tget {} (sentPacket k p m).eth.cnts k).txFrames = sat64 c.txFrames 1 ∧
      (tget {} (sentPacket k p m).eth.cnts k).txBytes = sat64 c.txBytes (p.frame.length + (fcs p.frame).length) := by
  simp only [sentPacket, cnt_setMacCnt_same, cnts_setMac, List.length_append, and_self]

theorem macSends_dropPacket (m : Mach) (k : Nat) : macSends (dropPacket k m) k = macSends m k := by
  simp only [macSends, macOut, dropPacket, mac_setMac_same, setMac_pwr]
  rfl

theorem packetRelease_empty {m : Mach} {k : Nat} (complete : Bool) (h : (mac m k).txq = []) : packetRelease k complete m = m := by
  simp only [packetRelease, h]

section
variable {m : Mach} {k : Nat} {p : TxPkt} (h : (mac m k).txq.head? = some p)
include h

theorem packetRelease_first (complete : Bool) : packetRelease k complete m =
    let u := dropPacket k m
    if !complete then raise (setMacCnt u k fun c => { c with txLate := sat64 c.txLate 1 }) (0xBF0 + k) 0x18 1
    else if !macSends u k ∨ (p.speak ∧ !speaks u) then u
    else countPacket p.ctx p.seq (sentPacket k p u) := by
  obtain ⟨rest, hq⟩ := List.head?_eq_some_iff.1 h
  have hdrop : setMac m k (fun x => { x with txq := rest }) = dropPacket k m :=
    setMac_congr (by simp only [hq, List.drop_one, List.tail_cons])
  simp only [packetRelease, hq, hdrop]
  rfl

/-- A packet that is not complete at its instant is dropped and reported. -/
theorem packetRelease_late (hroom : tableRoom m = true) :
    (packetRelease k false m).eth = (setMacCnt (dropPacket k m) k fun c => { c with txLate := sat64 c.txLate 1 }).eth ∧
      (packetRelease k false m).flw = m.flw ∧ recorded (packetRelease k false m) (0xBF0 + k) 0x18 = true := by
  rw [packetRelease_first h false]
  exact ⟨raise_eth .., raise_flw .., recorded_raise _ _ _ _ _ hroom⟩

/-- A packet that the MAC or the module may not send is dropped. -/
theorem packetRelease_mute (hg : ¬(macSends m k = true ∧ (p.speak = true → speaks m = true))) :
    packetRelease k true m = dropPacket k m := by
  rw [packetRelease_first h true]
  dsimp only
  rw [macSends_dropPacket, if_neg (by simp), if_pos]
  change _ ∨ (_ ∧ (!speaks m) = true)
  rw [Bool.not_eq_true', Bool.not_eq_true']
  by_cases hs : macSends m k = true
  · refine .inr ?_
    simpa [hs] using hg
  · exact .inl (Bool.eq_false_iff.2 hs)

theorem packetRelease_sends (hs : macSends m k = true) (hp : p.speak = true → speaks m = true) :
    packetRelease k true m = countPacket p.ctx p.seq (sentPacket k p (dropPacket k m)) := by
  rw [packetRelease_first h true]
  dsimp only
  rw [macSends_dropPacket, if_neg (by simp), if_neg]
  rintro (hn | ⟨hspeak, hn⟩)
  · simp [hs] at hn
  · rw [show speaks (dropPacket k m) = true from hp hspeak] at hn
    simp at hn
end

theorem countPacket_leaves (c : Option Nat) (seq : Nat) (m : Mach) : countPacket c seq m = { m with flw := (countPacket c seq m).flw } := by
  cases c <;> rfl

theorem countPacket_counts {c : Option Nat} (seq : Nat) (m : Mach) : ∀ n ∈ c,
    (ctx (countPacket c seq m) n).seq = seq ∧
      (tget {} (countPacket c seq m).flw.cnts n).pkts = sat (tget {} m.flw.cnts n).pkts 1 := by
  rintro n hn
  obtain rfl : c = some n := hn
  rw [countPacket, ctx_setCtxCnt, ctx_setCtx_same, cnt_setCtxCnt_same]
  exact ⟨rfl, rfl⟩

/-! ### Next hops (R192) -/

/-- The one IPv4 next hop of a MAC is asked for by a broadcast request. -/
theorem refreshHops_single {m : Mach} {k c : Nat} (hc : unicastSenders m k = [c]) (h4 : (ctx m c).d.v6 = false)
    (ht : (ctx m c).d.tagged = false) (hi : hasIface m k false = true) (hs : speaks m = true) :
    refreshHops k m = sendArp k none (2 ^ 48 - 1) 1 0 (nextHop m (ctx m c).d) m := by
  simp only [refreshHops, askHops, hs, hc, Bool.not_true, Bool.false_eq_true, if_false, List.map_cons, List.map_nil, h4, ht,
    List.eraseDups_cons, List.filter_nil, List.eraseDups_nil, List.foldl_cons, List.foldl_nil, hi]

theorem refreshHops_mute {m : Mach} (k : Nat) (h : speaks m = false) : refreshHops k m = m := by
  simp only [refreshHops, askHops, h, Bool.not_false, if_true]

theorem sendArp_sends {m : Mach} {k : Nat} (h : macSends m k = true) (tci : Option Nat) (dst op tha : Nat) (tpa : List Byte) :
    sendArp k tci dst op tha tpa m =
      queueFrame m k none 0 (ethFrame dst (mac m k).addr tci 0x0806 (arpBytes op (mac m k).addr (iface m k).ip4 tha tpa)) true := by
  simp only [sendArp, h, Bool.not_true, Bool.false_eq_true, if_false]

/-! ### Group reports (R205) -/

theorem sendReport_flw (m : Mach) (x : Member) (recs : List (Nat × List (List Byte))) : (sendReport m x recs).flw = m.flw := by
  unfold sendReport
  dsimp only
  split
  · rfl
  · split
    · rfl
    · split <;> rfl

/-- Two memberships are of the same group on the same MAC and VLAN. -/
def Member.same (x y : Member) : Bool := y.mac == x.mac && y.addr == x.addr && y.tci == x.tci

/-- A membership whose change has been reported again: one that no context uses is gone. -/
def Member.reported (x y : Member) : Option Member :=
  if x.same y then (if y.ctxs.isEmpty then none else some { y with again := [] }) else some y

theorem reportRepeat_single {m : Mach} {k : Nat} {g : List Byte} {x : Member}
    (h : (m.flw.members.filter fun x => x.mac == k && x.addr == g && !x.again.isEmpty) = [x]) :
    let u := sendReport m x x.again
    reportRepeat k g m = { u with flw := { u.flw with members := m.flw.members.filterMap x.reported } } := by
  have hdone (y : Member) : (if y.mac = x.mac ∧ y.addr = x.addr ∧ y.tci = x.tci then
      (if y.ctxs.isEmpty then none else some { y with again := [] }) else some y) = x.reported y := by
    simp only [Member.reported, Member.same, Bool.and_eq_true, beq_iff_eq, and_assoc]
  simp only [reportRepeat, h, List.foldl_cons, List.foldl_nil, hdone, sendReport_flw]

theorem queryResponse_single {m : Mach} {k : Nat} {x : Member} (h : (m.flw.members.filter fun x => x.mac == k && x.query.isSome) = [x])
    (hx : x.ctxs ≠ []) :
    let u := sendReport m x (answerRecs x)
    queryResponse k m =
      { u with flw := { u.flw with members := m.flw.members.map fun x => if x.mac = k then { x with query := none } else x } } := by
  have hne : x.ctxs.isEmpty = false := by simpa using hx
  simp only [queryResponse, h, List.foldl_cons, List.foldl_nil, hne, Bool.false_eq_true, if_false, sendReport_flw]

end Sys2Proof.Machine

namespace Sys2Proof.Proofs
open Sys2Proof.Machine Sys2Proof.Safety

/-- Settles O38: each clause is the law of a link change, of a packet's release, of a next hop or of a report, for the case it speaks
of. -/
theorem macsProceed : Obligations.MacsProceed := by
  unfold Obligations.MacsProceed
  refine ⟨?_, ?_, ?_, ?_, ?_⟩
  · intro s k up a lf rf hk hex x faultAt m turn
    have hlaw := linkChange_eq up a lf rf hex
    have hlink : (mac m k).link = x.link := by simp only [m, mac_setMac_same, x]
    refine ⟨linkReady_notePcs_iff a lf rf hex, fun h => ?_, fun h hd hc => ?_, fun h hd hc hroom => ?_, fun h hup hr hs => ?_⟩
    · exact takes_of_runIf rfl (decide_eq_true hk) (hlaw.trans (setLink_same (hlink.trans h)))
    · refine answers_of_runIf rfl (decide_eq_true hk) ?_
      rw [hlaw, show (up && linkReady (notePcs k a lf rf s.toMach) k) = false from hd]
      exact setLink_down_unbound (hlink.trans h) hc
    · refine answers_of_runIf rfl (decide_eq_true hk) ?_
      rw [hlaw, show (up && linkReady (notePcs k a lf rf s.toMach) k) = false from hd]
      exact setLink_down_bound (hlink.trans h) hc hroom
    · refine answers_of_runIf rfl (decide_eq_true hk) ?_
      rw [hlaw, hup, show linkReady (notePcs k a lf rf s.toMach) k = true from hr]
      exact setLink_up (hlink.trans h) hs
  · intro s k complete hk
    have hwf := decide_eq_true hk
    refine ⟨fun h => takes_of_runIf rfl hwf (packetRelease_empty complete h), ?_⟩
    intro p hp m goes
    refine ⟨?_, ?_, ?_⟩
    · rintro rfl hroom
      exact answers_of_runIf rfl hwf (packetRelease_late hp hroom)
    · rintro rfl hg
      exact takes_of_runIf rfl hwf (packetRelease_mute hp hg)
    · rintro rfl ⟨hs, hspeak⟩
      refine answers_of_runIf rfl hwf ?_
      rw [packetRelease_sends hp hs hspeak, countPacket_leaves]
      obtain ⟨hsent, htxq⟩ := sentPacket_mac k p m
      obtain ⟨hframes, hbytes⟩ := sentPacket_counts k p m
      exact ⟨rfl, hsent, htxq.trans (congrArg Mac.txq (mac_setMac_same ..)), hframes, hbytes, countPacket_counts p.seq _⟩
  · intro s k c hk hc h4 ht hi hs
    have hwf := decide_eq_true hk
    refine ⟨fun h => takes_of_runIf rfl hwf (refreshHops_mute k h), fun h => takes_of_runIf rfl hwf ?_⟩
    exact (refreshHops_single hc h4 ht hi h).trans (sendArp_sends hs ..)
  · intro s k g x hk hx same m
    refine answers_of_runIf rfl (decide_eq_true hk) ?_
    rw [reportRepeat_single hx]
    exact ⟨rfl, rfl⟩
  · intro s k x hk hx hne
    refine answers_of_runIf rfl (decide_eq_true hk) ?_
    rw [queryResponse_single hx hne]
    exact ⟨rfl, rfl⟩

end Sys2Proof.Proofs

/-! SUPPORT. Packets of a receive context that no other is paired with: what the context notes, and what becomes of the packet. -/
namespace Sys2Proof.Machine
open Sys2Proof.Safety

/-! ### Contexts that none names (R202) -/

/-- A context names another as its partner. -/
def Ctx.names (x : Ctx) (c : Nat) : Bool := decide (1 ≤ x.st) && x.d.partner == c

theorem namedBy_none_iff (m : Mach) (c : Nat) : namedBy m c = none ↔ ∀ x ∈ m.flw.ctxs, x.2.names c = false := by
  rw [namedBy, List.head?_eq_none_iff, tkeys, List.map_eq_nil_iff, List.filter_eq_nil_iff]
  simp only [Ctx.names, Bool.not_eq_true]

theorem names_of_lone {m : Mach} {c : Nat} (h : namedBy m c = none) (k : Nat) : (ctx m k).names c = false := by
  rw [namedBy, List.head?_eq_none_iff] at h
  by_contra hn
  cases hk : tget? k m.flw.ctxs with
  | none =>
    rw [ctx, tget, hk] at hn
    exact hn rfl
  | some x =>
    have hmem := mem_tkeys (p := fun x => x.names c) hk (by simpa [ctx, tget, hk] using hn)
    simp only [Ctx.names, h, List.not_mem_nil] at hmem

theorem lone_setCtx {m : Mach} {c k : Nat} {f : Ctx → Ctx} (h : namedBy m c = none)
    (hf : (f (ctx m k)).names c = (ctx m k).names c) : namedBy (setCtx m k f) c = none := by
  rw [namedBy_none_iff] at h ⊢
  intro x hx
  rcases mem_tset hx with hx | rfl
  · exact h x hx
  · exact hf.trans (names_of_lone ((namedBy_none_iff m c).2 h) k)

/-- A context alone in its pair names none and is named by none. -/
theorem lone_of_pairOf {m : Mach} {c : Nat} (h : pairOf m c = [c]) : namedBy m c = none := by
  simp only [pairOf, List.cons.injEq, true_and, List.append_eq_nil_iff, Option.toList_eq_nil_iff] at h
  exact h.2

theorem primary_of_lone {m : Mach} {c : Nat} (h : namedBy m c = none) : primary m c = c := by
  simp only [primary, h, Option.getD_none, ite_self]

/-! ### What a packet's fate depends on -/

/-- Nothing has changed that decides what becomes of a context's packet: the clock, the planes, the ports, and of the context its
descriptor, its state, its offset and the packets that wait. -/
structure keepsFlow (c : Nat) (m m' : Mach) : Prop where
  xb : m'.xb = m.xb
  dt : m'.dt = m.dt
  ports : m'.flw.ports = m.flw.ports
  lone : namedBy m c = none → namedBy m' c = none
  desc : (ctx m' c).d = (ctx m c).d
  st : (ctx m' c).st = (ctx m c).st
  based : (ctx m' c).based = (ctx m c).based
  offset : (ctx m' c).offset = (ctx m c).offset
  buf : (ctx m' c).buf = (ctx m c).buf

theorem keepsFlow.trans {c : Nat} {a b d : Mach} (h : keepsFlow c a b) (k : keepsFlow c b d) : keepsFlow c a d :=
  ⟨k.xb.trans h.xb, k.dt.trans h.dt, k.ports.trans h.ports, fun hl => k.lone (h.lone hl), k.desc.trans h.desc, k.st.trans h.st,
    k.based.trans h.based, k.offset.trans h.offset, k.buf.trans h.buf⟩

theorem keepsFlow_of_flw {c : Nat} {m m' : Mach} (hx : m'.xb = m.xb) (ht : m'.dt = m.dt) (hf : m'.flw = m.flw) : keepsFlow c m m' := by
  have hctx : ctx m' c = ctx m c := by rw [ctx, hf]; rfl
  exact ⟨hx, ht, by rw [hf], fun h => by rw [namedBy, hf]; exact h, by rw [hctx],
    by rw [hctx], by rw [hctx], by rw [hctx], by rw [hctx]⟩

theorem keepsFlow_setCtxCnt (c k : Nat) (m : Mach) (f : CtxCnt → CtxCnt) : keepsFlow c m (setCtxCnt m k f) :=
  ⟨rfl, rfl, rfl, id, rfl, rfl, rfl, rfl, rfl⟩

theorem keepsFlow_setCtx (c : Nat) (m : Mach) {f : Ctx → Ctx} (hf : ∀ x, (f x).d = x.d ∧ (f x).st = x.st ∧ (f x).based = x.based ∧
    (f x).offset = x.offset ∧ (f x).buf = x.buf) : keepsFlow c m (setCtx m c f) := by
  obtain ⟨hd, hst, hb, ho, hbuf⟩ := hf (ctx m c)
  refine ⟨rfl, rfl, rfl, fun h => lone_setCtx h (by rw [Ctx.names, hd, hst]; rfl), ?_, ?_, ?_, ?_, ?_⟩ <;> rw [ctx_setCtx_same] <;>
    assumption

section
variable {c : Nat} {m m' : Mach} (k : keepsFlow c m m')
include k

theorem keepsFlow.rxFmt (d : Desc) : d.rxFmt m' = d.rxFmt m := by simp only [Desc.rxFmt, plane, k.xb]

theorem keepsFlow.frameGone (p ts : Nat) : frameGone m' p ts = frameGone m p ts := by
  simp only [Machine.frameGone, ingress, k.ports]

theorem keepsFlow.lineRelease (ts line : Nat) : lineRelease m' c ts line = lineRelease m c ts line :=
  lineRelease_congr ts line k.dt k.xb k.desc k.offset

theorem keepsFlow.granules (hl : namedBy m c = none) (hp : (ctx m c).d.partner = 0xFFFF) : granules m' c = granules m c := by
  have heff (u : Mach) : (ctx m c).d.eff u = (ctx m c).d := by simp [Desc.eff, Desc.twin, hp]
  have hplay : playoutNs m' (ctx m c).d = playoutNs m (ctx m c).d := by simp only [playoutNs, k.rxFmt]
  have hrate : rateMb m' c = rateMb m c := by simp only [rateMb, k.desc, heff, k.rxFmt, egressFmt, plane, dest, k.xb]
  simp only [Machine.granules, k.st, k.desc, hl, k.lone hl, Option.getD_none, hplay, hrate]

/-- The first line of a packet: by its payload, or the first where no marker has come before it. -/
theorem keepsFlow.firstLine {seq : Nat} (h : markerBefore (ctx m c).kept seq = none) (h' : markerBefore (ctx m' c).kept seq = none)
    (body : List Byte) : firstLine m' c seq body = firstLine m c seq body := by
  have hline (s : Srd) : srdLine m' (ctx m c).d s = srdLine m (ctx m c).d s := by simp only [srdLine, k.rxFmt]
  simp only [Machine.firstLine, dgramAt, h, h', k.desc, hline, Option.map_none]
end

theorem markerBefore_own {k : Kept} {seq : Nat} (h : k.seq = seq) : markerBefore [k] seq = none := by
  simp [markerBefore, h]

/-! ### A packet is noted -/

theorem cnts_setCtx (m : Mach) (c : Nat) (f : Ctx → Ctx) : (setCtx m c f).flw.cnts = m.flw.cnts := rfl

/-- What a context keeps of a packet (R202). -/
def keptOf (m : Mach) (c seq : Nat) (r : Rtp) : Kept :=
  { seq, at_ := m.dt.t, who := c, ts := r.ts, marker := r.marker,
    field := (ctx m c).d.typ == 0 && ((srds r.body).getD []).any (·.field) }

/-- The path of a context delivers, and the packet is counted. -/
def countReceived (c : Nat) (m : Mach) : Mach := setCtxCnt (pathBack m c) c fun n => { n with pkts := sat n.pkts 1 }

/-- The packet is counted and kept. -/
def notePacket (c : Nat) (k : Kept) (m : Mach) : Mach :=
  setCtx (pruneKept (countReceived c m) c) c fun x => { x with kept := k :: x.kept }

/-- What becomes of a packet that has been noted: its frame is gone, it is late, it finds no room, or it waits (R193, R196, R198,
R201). `x` is the context before. -/
def settlePacket (c seq : Nat) (r : Rtp) (leads : Bool) (x : Ctx) (m : Mach) : Mach :=
  let d := x.d
  if d.typ = 3 ∧ frameGone m d.port r.ts then setCtxCnt m c fun n => { n with discard := sat n.discard 1 }
  else if d.video && (x.based || !d.auto) && decide (lineRelease m c r.ts (firstLine m c seq r.body) < m.dt.t) then
    let m := setCtxCnt m c fun n => { n with late := sat n.late 1 }
    if leads then
      setCtx m c fun x => { x with lateRun := x.lateRun + 1, rebase := x.rebase || (d.auto && decide (2 ≤ x.lateRun + 1)) }
    else m
  else if decide (granules m c * 65536 < heldBytes x + r.body.length) then
    if d.video && d.auto then setCtx m c fun x => { x with rebase := true }
    else setCtxCnt m c fun n => { n with late := sat n.late 1 }
  else
    let pk : RxPkt := { seq, ts := r.ts, marker := r.marker, at_ := m.dt.t, data := r.body }
    let before := x.buf.takeWhile fun b => decide (b.seq < seq)
    setCtx m c fun x => { x with
      buf := before ++ [pk] ++ x.buf.drop before.length,
      lateRun := if leads then 0 else x.lateRun,
      lateSum := x.lateSum + ((m.dt.t : Int) - mediaAt d.clock r.ts m.dt.t) / nsU, lateN := x.lateN + 1,
      nextTs := if d.audio ∧ x.nextTs.isNone then some r.ts else x.nextTs }

theorem pathBack_up {m : Mach} {c : Nat} (h : (ctx m c).pathLost = false) :
    pathBack m c = setCtx m c fun x => { x with pathUp := true, pathLost := false, lastPkt := m.dt.t } := by
  simp only [pathBack, h, Bool.false_eq_true, if_false]

theorem pruneKept_none {m : Mach} {c : Nat} (h : (ctx m c).kept = []) :
    pruneKept m c = setCtx m c fun x => { x with kept := x.kept.filter fun k => decide (m.dt.t ≤ k.at_ + secU / 4) } := by
  simp only [pruneKept, h, List.filter_nil, List.foldl_nil, ite_self]

theorem keepsFlow_countReceived {m : Mach} {c : Nat} (h : (ctx m c).pathLost = false) : keepsFlow c m (countReceived c m) := by
  rw [countReceived, pathBack_up h]
  refine .trans ?_ (keepsFlow_setCtxCnt ..)
  exact keepsFlow_setCtx c m fun x => ⟨rfl, rfl, rfl, rfl, rfl⟩

theorem countReceived_leaves {m : Mach} {c : Nat} (h : (ctx m c).pathLost = false) : let t := countReceived c m
    t = { m with flw := t.flw } ∧ (ctx t c).kept = (ctx m c).kept ∧
      tget {} t.flw.cnts c = { tget {} m.flw.cnts c with pkts := sat (tget {} m.flw.cnts c).pkts 1 } := by
  rw [countReceived, pathBack_up h]
  refine ⟨rfl, ?_, ?_⟩
  · rw [ctx_setCtxCnt, ctx_setCtx_same]
  · rw [cnt_setCtxCnt_same, cnts_setCtx]

theorem keepsFlow_pruneKept {m : Mach} {c : Nat} (h : (ctx m c).kept = []) : keepsFlow c m (pruneKept m c) := by
  rw [pruneKept_none h]
  exact keepsFlow_setCtx c m fun x => ⟨rfl, rfl, rfl, rfl, rfl⟩

theorem pruneKept_leaves {m : Mach} {c : Nat} (h : (ctx m c).kept = []) : let t := pruneKept m c
    t = { m with flw := t.flw } ∧ (ctx t c).kept = [] ∧ t.flw.cnts = m.flw.cnts := by
  rw [pruneKept_none h]
  refine ⟨rfl, ?_, rfl⟩
  rw [ctx_setCtx_same, h]
  rfl

section
variable {m : Mach} {c : Nat} (hlost : (ctx m c).pathLost = false) (hkept : (ctx m c).kept = [])
include hlost hkept

theorem keepsFlow_pruned : keepsFlow c m (pruneKept (countReceived c m) c) :=
  have hk := (countReceived_leaves hlost).2.1.trans hkept
  (keepsFlow_countReceived hlost).trans (keepsFlow_pruneKept hk)

theorem keepsFlow_notePacket (k : Kept) : keepsFlow c m (notePacket c k m) := by
  refine (keepsFlow_pruned hlost hkept).trans ?_
  exact keepsFlow_setCtx c _ fun x => ⟨rfl, rfl, rfl, rfl, rfl⟩

theorem notePacket_leaves (k : Kept) : let t := notePacket c k m
    t = { m with flw := t.flw } ∧ (ctx t c).kept = [k] ∧
      tget {} t.flw.cnts c = { tget {} m.flw.cnts c with pkts := sat (tget {} m.flw.cnts c).pkts 1 } := by
  obtain ⟨hleft, hkeptc, hcnt⟩ := countReceived_leaves hlost
  obtain ⟨hleft', hnone, hsame⟩ := pruneKept_leaves (hkeptc.trans hkept)
  refine ⟨?_, ?_, ?_⟩
  · rw [notePacket, setCtx, hleft', hleft]
  · rw [notePacket, ctx_setCtx_same, hnone]
  · rw [notePacket, cnts_setCtx, hsame, hcnt]
end

/-- A packet of a context alone, the first that it keeps, is noted and settled. -/
theorem rxPacket_eq {m : Mach} {c : Nat} {r : Rtp} (hok : rtpOk (ctx m c).d r = true) (hl : namedBy m c = none)
    (hlost : (ctx m c).pathLost = false) (hkept : (ctx m c).kept = []) :
    let seq := extSeq (ctx m c).d r.seq r
    let k := keptOf m c seq r
    rxPacket c r m = settlePacket c seq r (!k.field) (ctx (pruneKept (countReceived c m) c) c) (notePacket c k m) := by
  intro seq k
  have hp := primary_of_lone hl
  have hp' := primary_of_lone ((keepsFlow_countReceived hlost).lone hl)
  have hkeep := keepsFlow_pruned hlost hkept
  obtain ⟨-, hnone, -⟩ := pruneKept_leaves ((countReceived_leaves hlost).2.1.trans hkept)
  unfold rxPacket
  extract_lets own m₁ p m₂ x d seq' field k' opens m₃ line late leads held full m₄ pk before
  have hpc : c = p := hp'.symm
  clear_value p
  subst hpc
  have hd : d = (ctx m c).d := hkeep.desc
  have hx : x.kept = [] := hnone
  have hseq : seq' = seq := by simp only [seq', hx, hd, List.head?_nil, Option.map_none, Option.getD_none]; rfl
  have hfield : field = k.field := by simp only [field, hd]; rfl
  have hdt : m₂.dt = m.dt := hkeep.dt
  have hk : k' = k := by simp only [k', hseq, hfield, hdt]; rfl
  have hleads : leads = !k.field := by simp only [leads, opens, hx, hfield]; rfl
  rw [if_neg (by simpa [own, hp] using hok), hx, List.find?_nil, ← hleads, ← hk, ← hseq]
  rfl

/-! ### What becomes of it -/

/-- The flows have changed alone, and not the count of the context's packets. -/
def keepsReceived (c : Nat) (m m' : Mach) : Prop :=
  m' = { m with flw := m'.flw } ∧ (tget {} m'.flw.cnts c).pkts = (tget {} m.flw.cnts c).pkts

theorem keepsReceived_setCtx (c : Nat) (m : Mach) (f : Ctx → Ctx) : keepsReceived c m (setCtx m c f) := ⟨rfl, rfl⟩

theorem keepsReceived_setCtxCnt (c : Nat) (m : Mach) {f : CtxCnt → CtxCnt} (hf : ∀ n, (f n).pkts = n.pkts) :
    keepsReceived c m (setCtxCnt m c f) := ⟨rfl, by rw [cnt_setCtxCnt_same, hf]⟩

/-- Whatever becomes of a packet, it has been counted already. -/
theorem keepsReceived_settlePacket (c seq : Nat) (r : Rtp) (leads : Bool) (x : Ctx) (m : Mach) :
    keepsReceived c m (settlePacket c seq r leads x m) := by
  have hlate : keepsReceived c m (setCtxCnt m c fun n => { n with late := sat n.late 1 }) := by
    apply keepsReceived_setCtxCnt; intro; rfl
  unfold settlePacket
  dsimp only
  split
  · apply keepsReceived_setCtxCnt; intro; rfl
  · split
    · split
      · obtain ⟨-, hpkts⟩ := hlate
        exact ⟨rfl, hpkts⟩
      · exact hlate
    · split
      · split
        · exact keepsReceived_setCtx ..
        · exact hlate
      · exact keepsReceived_setCtx ..

section
variable {c seq : Nat} {r : Rtp} {leads : Bool} {x : Ctx} {m : Mach}

theorem settlePacket_gone (h : x.d.typ = 3 ∧ frameGone m x.d.port r.ts = true) :
    settlePacket c seq r leads x m = setCtxCnt m c fun n => { n with discard := sat n.discard 1 } := if_pos h

theorem settlePacket_late (hv : x.d.video = true) (hb : x.based = true ∨ x.d.auto = false)
    (ht : lineRelease m c r.ts (firstLine m c seq r.body) < m.dt.t) : let t := settlePacket c seq r leads x m
    (tget {} t.flw.cnts c).late = sat (tget {} m.flw.cnts c).late 1 ∧ (ctx t c).buf = (ctx m c).buf := by
  have hlate : (x.d.video && (x.based || !x.d.auto) && decide (lineRelease m c r.ts (firstLine m c seq r.body) < m.dt.t)) = true := by
    simpa [hv, ht] using hb
  have hgone : ¬(x.d.typ = 3 ∧ frameGone m x.d.port r.ts = true) := by
    rintro ⟨htyp, -⟩
    simp [Desc.video, htyp] at hv
  unfold settlePacket
  dsimp only
  rw [if_neg hgone, if_pos hlate]
  split
  · rw [cnts_setCtx, cnt_setCtxCnt_same, ctx_setCtx_same, ctx_setCtxCnt]
    exact ⟨rfl, rfl⟩
  · rw [cnt_setCtxCnt_same, ctx_setCtxCnt]
    exact ⟨rfl, rfl⟩

/-- A packet in time for which there is room waits in its place. -/
theorem settlePacket_waits (hgone : ¬(x.d.typ = 3 ∧ frameGone m x.d.port r.ts = true))
    (hlate : ¬(x.d.video = true ∧ (x.based = true ∨ x.d.auto = false) ∧ lineRelease m c r.ts (firstLine m c seq r.body) < m.dt.t))
    (hroom : heldBytes x + r.body.length ≤ granules m c * 65536) (hbuf : (ctx m c).buf = x.buf) :
    let before := x.buf.takeWhile fun b => decide (b.seq < seq)
    (ctx (settlePacket c seq r leads x m) c).buf =
      before ++ [{ seq, ts := r.ts, marker := r.marker, at_ := m.dt.t, data := r.body }] ++ x.buf.drop before.length := by
  intro before
  unfold settlePacket
  dsimp only
  rw [if_neg hgone, if_neg (by simpa [and_assoc] using hlate), if_neg (by simpa using hroom), ctx_setCtx_same, hbuf]
end

/-- The first packet that an unpaired context keeps is noted, and what decides its fate is as before. `m` is the module once the frame
that carries it has been accounted for. -/
theorem rxPacket_noted {s m : Mach} {c : Nat} {r : Rtp} (hx : m.xb = s.xb) (ht : m.dt = s.dt) (hf : m.flw = s.flw)
    (hok : rtpOk (ctx s c).d r = true) (hl : namedBy s c = none) (hkept : (ctx s c).kept = []) (hlost : (ctx s c).pathLost = false) :
    let seq := extSeq (ctx s c).d r.seq r
    ∃ leads x u, rxPacket c r m = settlePacket c seq r leads x u ∧ u = { m with flw := u.flw } ∧ keepsFlow c s u ∧
      firstLine u c seq r.body = firstLine s c seq r.body ∧
      tget {} u.flw.cnts c = { tget {} s.flw.cnts c with pkts := sat (tget {} s.flw.cnts c).pkts 1 } ∧
      x.d = (ctx s c).d ∧ x.based = (ctx s c).based ∧ x.buf = (ctx s c).buf := by
  intro seq
  have hcm : ctx m c = ctx s c := by rw [ctx, hf]; rfl
  have hsm : keepsFlow c s m := keepsFlow_of_flw hx ht hf
  rw [← hcm] at hok hkept hlost
  have heq := rxPacket_eq hok (hsm.lone hl) hlost hkept
  have hpruned := hsm.trans (keepsFlow_pruned hlost hkept)
  have hnoted := hsm.trans (keepsFlow_notePacket hlost hkept (keptOf m c seq r))
  obtain ⟨honly, hone, hcnt⟩ := notePacket_leaves hlost hkept (keptOf m c seq r)
  rw [hcm] at heq
  rw [hf] at hcnt
  have hfirst := hnoted.firstLine (seq := seq) (by rw [← hcm, hkept]; rfl) (by rw [hone]; exact markerBefore_own rfl) r.body
  exact ⟨_, _, _, heq, honly, hnoted, hfirst, hcnt, hpruned.desc, hpruned.based, hpruned.buf⟩

/-- The first packet that an unpaired context keeps is counted, and is gone, late or put in its place (R193, R196, R198, R201). -/
theorem rxPacket_first {s m : Mach} {c : Nat} {r : Rtp} (hx : m.xb = s.xb) (ht : m.dt = s.dt) (hf : m.flw = s.flw)
    (hok : rtpOk (ctx s c).d r = true) (hpair : pairOf s c = [c]) (hpart : (ctx s c).d.partner = 0xFFFF) (hkept : (ctx s c).kept = [])
    (hlost : (ctx s c).pathLost = false) :
    let d := (ctx s c).d
    let seq := extSeq d r.seq r
    let late := d.video ∧ ((ctx s c).based = true ∨ d.auto = false) ∧
      lineRelease s c r.ts (firstLine s c seq r.body) < s.dt.t
    let gone := d.typ = 3 ∧ frameGone s d.port r.ts = true
    let t := rxPacket c r m
    t = { m with flw := t.flw } ∧ (tget {} t.flw.cnts c).pkts = sat (tget {} s.flw.cnts c).pkts 1 ∧
      (gone → (tget {} t.flw.cnts c).discard = sat (tget {} s.flw.cnts c).discard 1 ∧ (ctx t c).buf = (ctx s c).buf) ∧
      (late → (tget {} t.flw.cnts c).late = sat (tget {} s.flw.cnts c).late 1 ∧ (ctx t c).buf = (ctx s c).buf) ∧
      (¬late → ¬gone → heldBytes (ctx s c) + r.body.length ≤ granules s c * 65536 →
        let q : RxPkt := { seq, ts := r.ts, marker := r.marker, at_ := s.dt.t, data := r.body }
        let before := (ctx s c).buf.takeWhile fun b => decide (b.seq < q.seq)
        (ctx t c).buf = before ++ [q] ++ (ctx s c).buf.drop before.length) := by
  intro d seq late gone t
  have hlone := lone_of_pairOf hpair
  obtain ⟨leads, x, u, heq, honly, hkeep, hfirst, hcnt, hd, hb, hbuf⟩ := rxPacket_noted hx ht hf hok hlone hkept hlost
  have heq' : t = settlePacket c seq r leads x u := heq
  obtain ⟨hsettled, hpkts⟩ := keepsReceived_settlePacket c seq r leads x u
  rw [← heq'] at hsettled hpkts
  have hgone : (x.d.typ = 3 ∧ frameGone u x.d.port r.ts = true) ↔ gone := by rw [hd, hkeep.frameGone]
  have hlate : (x.d.video = true ∧ (x.based = true ∨ x.d.auto = false) ∧
      lineRelease u c r.ts (firstLine u c seq r.body) < u.dt.t) ↔ late := by rw [hd, hb, hfirst, hkeep.lineRelease, hkeep.dt]
  refine ⟨by rw [hsettled, honly], by rw [hpkts, hcnt], fun hg => ?_, fun hl => ?_, fun hl hg hroom => ?_⟩
  · rw [heq', settlePacket_gone (hgone.2 hg), cnt_setCtxCnt_same, hcnt, ctx_setCtxCnt, hkeep.buf]
    exact ⟨rfl, rfl⟩
  · obtain ⟨hv, hbased, hlt⟩ := hlate.2 hl
    obtain ⟨hcount, hsame⟩ := settlePacket_late (leads := leads) hv hbased hlt
    rw [heq', hcount, hsame, hcnt, hkeep.buf]
    exact ⟨rfl, rfl⟩
  · have hroom' : heldBytes x + r.body.length ≤ granules u c * 65536 := by
      rw [hkeep.granules hlone hpart, heldBytes, hbuf]
      exact hroom
    have hwaits := settlePacket_waits (leads := leads) (hgone.not.2 hg) (hlate.not.2 hl) hroom' (hkeep.buf.trans hbuf.symm)
    rw [hbuf, hkeep.dt, ← heq'] at hwaits
    exact hwaits

end Sys2Proof.Machine

/-! SUPPORT. The receive path of a MAC: the checks of a frame in their order, the receive buffer, and where a frame is handed on. -/
namespace Sys2Proof.Machine
open Sys2Proof.Safety

/-! ### The checks (R173, R178, R182) -/

/-- Outside Den a frame that matches no wake pattern goes to the checks. -/
theorem frameReceive_unmatched {m : Mach} {k : Nat} {frame : List Byte} (pcs : Bool) (stamp : Int) (hex : macExists m k = true)
    (hlink : (mac m k).link = true) (hst : m.pwr.st < 2) (hm : matched m k frame = []) :
    frameReceive k frame pcs stamp m = receiveFrame k frame pcs stamp m := by
  have h2 : m.pwr.st ≠ 2 := by omega
  have h3 : m.pwr.st ≠ 3 := by omega
  simp [frameReceive, noteMatches, hex, hlink, hm, h2, h3]

section
variable {m : Mach} {k : Nat} {frame : List Byte} {pcs : Bool} {stamp : Int}

theorem receiveFrame_overflow (h : ¬ rxFill (mac m k) + frame.length ≤ rxSize m k) : receiveFrame k frame pcs stamp m =
    setMacCnt m k fun c => { c with ovfFrames := sat64 c.ovfFrames 1, ovfBytes := sat64 c.ovfBytes frame.length } :=
  if_pos (not_le.1 h)

variable (hroom : rxFill (mac m k) + frame.length ≤ rxSize m k)
include hroom

theorem receiveFrame_pcsErr (h : pcs = true) :
    receiveFrame k frame pcs stamp m = setMacCnt m k fun c => { c with pcsErr := sat64 c.pcsErr 1 } :=
  (if_neg (not_lt.2 hroom)).trans (if_pos h)

variable (hpcs : pcs = false)
include hpcs

theorem receiveFrame_fcsErr (h : ¬ fcs (frame.take (frame.length - 4)) = frame.drop (frame.length - 4)) :
    receiveFrame k frame pcs stamp m = setMacCnt m k fun c => { c with fcsErr := sat64 c.fcsErr 1 } :=
  (if_neg (not_lt.2 hroom)).trans ((if_neg (by simp [hpcs])).trans (if_pos h))

variable (hfcs : fcs (frame.take (frame.length - 4)) = frame.drop (frame.length - 4))
include hfcs

/-- What passes the buffer, the PCS and the FCS has its length, its address and its type checked. -/
theorem receiveFrame_whole : receiveFrame k frame pcs stamp m =
    if frame.length < 64 then setMacCnt m k fun c => { c with runt := sat64 c.runt 1 }
    else if (mac m k).maxFrame < frame.length then setMacCnt m k fun c => { c with oversize := sat64 c.oversize 1 }
    else if !accepts m k (frameOf frame).dst then setMacCnt m k fun c => { c with filtered := sat64 c.filtered 1 }
    else if (frameOf frame).etype = 0x8808 then setMacCnt m k fun c => { c with pause := sat64 c.pause 1 }
    else drainRx k ((mac m k).rxq ++ [{ frame := frame, stamp := stamp }]) m :=
  (if_neg (not_lt.2 hroom)).trans ((if_neg (by simp [hpcs])).trans (if_neg (not_not.2 hfcs)))

theorem receiveFrame_runt (h : frame.length < 64) :
    receiveFrame k frame pcs stamp m = setMacCnt m k fun c => { c with runt := sat64 c.runt 1 } := by
  rw [receiveFrame_whole hroom hpcs hfcs, if_pos h]

variable (hmin : 64 ≤ frame.length)
include hmin

theorem receiveFrame_oversize (h : (mac m k).maxFrame < frame.length) :
    receiveFrame k frame pcs stamp m = setMacCnt m k fun c => { c with oversize := sat64 c.oversize 1 } := by
  rw [receiveFrame_whole hroom hpcs hfcs, if_neg (not_lt.2 hmin), if_pos h]

variable (hmax : frame.length ≤ (mac m k).maxFrame)
include hmax

theorem receiveFrame_filtered (h : accepts m k (frameOf frame).dst = false) :
    receiveFrame k frame pcs stamp m = setMacCnt m k fun c => { c with filtered := sat64 c.filtered 1 } := by
  rw [receiveFrame_whole hroom hpcs hfcs, if_neg (not_lt.2 hmin), if_neg (not_lt.2 hmax), if_pos (by simp [h])]

variable (hacc : accepts m k (frameOf frame).dst = true)
include hacc

theorem receiveFrame_accepted : receiveFrame k frame pcs stamp m =
    if (frameOf frame).etype = 0x8808 then setMacCnt m k fun c => { c with pause := sat64 c.pause 1 }
    else drainRx k ((mac m k).rxq ++ [{ frame := frame, stamp := stamp }]) m := by
  rw [receiveFrame_whole hroom hpcs hfcs, if_neg (not_lt.2 hmin), if_neg (not_lt.2 hmax), if_neg (by simp [hacc])]

end

/-! ### The receive buffer (R28, R176) -/

/-- While its memory port is held, what a MAC has received waits. -/
theorem drainRx_held {m : Mach} {k : Nat} (h : portHeld m (13 + k) = true) (x : RxFrame) :
    drainRx k ((mac m k).rxq ++ [x]) m = setMac m k fun y => { y with rxq := y.rxq ++ [x] } := by
  have hwait (y : RxFrame) (ys : List RxFrame) : drainRx k (y :: ys) m = setMac m k fun z => { z with rxq := y :: ys } := by
    rw [drainRx, if_pos h]
  cases hq : (mac m k).rxq with
  | nil => exact (hwait ..).trans (setMac_congr (by rw [hq]; rfl))
  | cons y ys => exact (hwait ..).trans (setMac_congr (by rw [hq]; rfl))

/-- A frame that comes to an empty buffer goes through it at once. -/
theorem drainRx_empty {m : Mach} {k : Nat} (hq : (mac m k).rxq = []) (h : portHeld m (13 + k) = false) (x : RxFrame) :
    drainRx k ((mac m k).rxq ++ [x]) m =
      setMac (handOn k x (spend (13 + k) x.frame.length m)) k fun y => { y with rxq := [] } := by
  rw [hq, List.nil_append, drainRx, h, if_neg (by simp), drainRx]

/-- A frame has been counted on its way through an empty buffer, and nothing else has come of it. -/
theorem counted_leaves {m : Mach} {k : Nat} (hq : (mac m k).rxq = []) (n : Nat) (g : MacCnt → MacCnt) :
    let t := setMac (setMacCnt (spend (13 + k) n m) k g) k fun y => { y with rxq := [] }
    t = { m with eth := t.eth, mem := (spend (13 + k) n m).mem } ∧
      t.eth = { m.eth with macs := t.eth.macs, cnts := tmod {} m.eth.cnts k g } ∧ ∀ j, mac t j = mac m j := by
  intro t
  refine ⟨rfl, rfl, fun j => ?_⟩
  by_cases hj : j = k
  · subst hj
    unfold t
    rw [mac_setMac_same]
    change { mac m j with rxq := [] } = mac m j
    rw [← hq]
  · exact mac_setMac_other _ _ hj

/-- A frame has been handed on to a flow through an empty buffer. -/
theorem handed_leaves {m t : Mach} {k n : Nat} (h : t = { handed k n (spend (13 + k) n m) with flw := t.flw }) :
    let u := setMac t k fun y => { y with rxq := [] }
    u = { m with eth := u.eth, flw := u.flw, mem := (spend (13 + k) n m).mem } ∧
      (tget {} u.eth.cnts k).rxFrames = sat64 (tget {} m.eth.cnts k).rxFrames 1 := by
  intro u
  refine ⟨?_, ?_⟩
  · unfold u
    rw [h]
    rfl
  · unfold u
    rw [cnts_setMac, h]
    exact congrArg MacCnt.rxFrames (cnt_setMacCnt_same ..)

/-! ### Where a frame is handed on (R175, R177, R193) -/

section
variable {m : Mach} {k : Nat} {x : RxFrame}

theorem handOn_other (h : (frameOf x.frame).etype ∉ [0x8808, 0x0800, 0x86DD, 0x0806]) : handOn k x m = unmatched k m := by
  simp only [List.mem_cons, List.not_mem_nil, or_false, not_or] at h
  obtain ⟨-, h4, h6, harp⟩ := h
  simp only [handOn, h4, h6, harp, or_self, if_false]

variable (h4 : (frameOf x.frame).etype = 0x0800)
include h4

theorem handOn_ip4_none (h : ip4Of (frameOf x.frame).body = none) :
    handOn k x m = setMacCnt m k fun c => { c with ipErr := sat64 c.ipErr 1 } := by
  simp only [handOn, ipIn, h4, true_or, if_true, h]
  rfl

variable {ip : Ip} (hip : ip4Of (frameOf x.frame).body = some ip) (hproto : ip.proto = 17)
include hip hproto

theorem handOn_udp_bad (h : udpOk ip = false) : handOn k x m = setMacCnt m k fun c => { c with udpErr := sat64 c.udpErr 1 } := by
  simp only [handOn, ipIn, h4, true_or, if_true, hip, hproto, h, Bool.false_eq_true, if_false]
  rfl

theorem handOn_udp (h : udpOk ip = true) : handOn k x m = udpIn k x.frame.length (frameOf x.frame) ip x.stamp m := by
  simp only [handOn, ipIn, h4, true_or, if_true, hip, hproto, h]
end

/-- The enabled contexts that a datagram matches (R193). -/
def takers (m : Mach) (k : Nat) (tci : Option Nat) (ip : Ip) : List Nat :=
  (matching m k tci ip (beNat (sub ip.data 2 2)) (rtpOf (udpBody ip))).filter fun c => decide (2 ≤ (ctx m c).st)

theorem takers_spend (p n : Nat) (m : Mach) : takers (spend p n m) = takers m := rfl

section
variable {m : Mach} {k n : Nat} {f : Frame} {ip : Ip} {stamp : Int} (hport : beNat (sub ip.data 2 2) ∉ [319, 320])
include hport

theorem udpIn_none (h : takers m k f.tci ip = []) : udpIn k n f ip stamp m = unmatched k m := by
  simp only [List.mem_cons, List.not_mem_nil, or_false, not_or] at hport
  obtain ⟨h319, h320⟩ := hport
  have hfind := congrArg List.head? h
  rw [takers, List.head?_filter, List.head?_nil] at hfind
  simp only [udpIn, h319, h320, or_self, false_and, if_false, hfind]

/-- A datagram of no PTP port goes to the first context that takes it. -/
theorem udpIn_some {c : Nat} (h : (takers m k f.tci ip).head? = some c) (hlen : 12 ≤ (udpBody ip).length) :
    udpIn k n f ip stamp m = rxPacket c (rtpOf (udpBody ip)) (handed k n m) := by
  simp only [List.mem_cons, List.not_mem_nil, or_false, not_or] at hport
  obtain ⟨h319, h320⟩ := hport
  rw [takers, List.head?_filter] at h
  simp only [udpIn, h319, h320, or_self, false_and, if_false, h, not_lt.2 hlen]
end

end Sys2Proof.Machine

namespace Sys2Proof.Proofs
open Sys2Proof.Machine Sys2Proof.Safety

/-- Settles O37: each clause is the law of the check that fails first, of the buffer, or of the place where the frame is handed on. -/
theorem framesAreReceived : Obligations.FramesAreReceived := by
  unfold Obligations.FramesAreReceived
  intro s k frame pcs x hk hex hlink hst hm n f room good fits counts drains leaves
  have hwf := decide_eq_true hk
  have hlaw := frameReceive_unmatched pcs x.stamp hex hlink hst hm
  have hcounts {g : MacCnt → MacCnt} (h : receiveFrame k frame pcs x.stamp s.toMach = setMacCnt s.toMach k g) : counts g :=
    takes_of_runIf rfl hwf (hlaw.trans h)
  have hthrough (h : fits) (h8 : f.etype ≠ 0x8808) (hd : drains) : receiveFrame k frame pcs x.stamp s.toMach =
      setMac (handOn k { frame, stamp := x.stamp } (spend (13 + k) n s.toMach)) k fun y => { y with rxq := [] } := by
    obtain ⟨hroom, hpcs, hgood, hmin, hmax, hacc⟩ := h
    exact (receiveFrame_accepted hroom hpcs hgood hmin hmax hacc).trans ((if_neg h8).trans (drainRx_empty hd.1 hd.2 _))
  have hleaves {g : MacCnt → MacCnt} (h : fits) (h8 : f.etype ≠ 0x8808) (hd : drains)
      (hon : handOn k { frame, stamp := x.stamp } (spend (13 + k) n s.toMach) = setMacCnt (spend (13 + k) n s.toMach) k g) :
      leaves g := by
    refine answers_of_runIf rfl hwf ?_
    rw [hlaw, hthrough h h8 hd, hon]
    obtain ⟨honly, heth, hmacs⟩ := counted_leaves hd.1 n g
    exact ⟨honly, heth, fun j _ => hmacs j⟩
  refine ⟨fun h => hcounts (receiveFrame_overflow h), fun hr hp => hcounts (receiveFrame_pcsErr hr hp),
    fun hr hp hg => hcounts (receiveFrame_fcsErr hr hp hg), fun hr hp hg hn => hcounts (receiveFrame_runt hr hp hg hn),
    fun hr hp hg hn hx => hcounts (receiveFrame_oversize hr hp hg hn hx),
    fun hr hp hg hn hx ha => hcounts (receiveFrame_filtered hr hp hg hn hx ha), ?_, ?_, ?_, ?_⟩
  · rintro ⟨hroom, hpcs, hgood, hmin, hmax, hacc⟩ h8
    exact hcounts ((receiveFrame_accepted hroom hpcs hgood hmin hmax hacc).trans (if_pos h8))
  · rintro ⟨hroom, hpcs, hgood, hmin, hmax, hacc⟩ h8 hheld
    exact takes_of_runIf rfl hwf (hlaw.trans ((receiveFrame_accepted hroom hpcs hgood hmin hmax hacc).trans
      ((if_neg h8).trans (drainRx_held hheld _))))
  · intro hfits hd htype
    exact hleaves hfits (fun h8 => htype (by simp [h8])) hd (handOn_other htype)
  · intro hfits hd h4
    have h8 : f.etype ≠ 0x8808 := by rw [h4]; decide
    refine ⟨fun hip => hleaves hfits h8 hd (handOn_ip4_none h4 hip), fun ip hip hproto => ⟨fun hbad => ?_, fun hok hport => ?_⟩⟩
    · exact hleaves hfits h8 hd (handOn_udp_bad h4 hip hproto hbad)
    · intro r hits
      have hon := handOn_udp (m := spend (13 + k) n s.toMach) (k := k) (x := { frame, stamp := x.stamp }) h4 hip hproto hok
      refine ⟨fun hnone => hleaves hfits h8 hd (hon.trans (udpIn_none hport ?_)), ?_⟩
      · rw [takers_spend]
        exact hnone
      intro c hc hlen hrtp hpair hpart hkept hlost d seq late gone
      have htaker : (takers (spend (13 + k) n s.toMach) k f.tci ip).head? = some c := by
        rw [takers_spend]
        exact hc
      rw [udpIn_some hport htaker hlen] at hon
      refine answers_of_runIf rfl hwf ?_
      rw [hlaw, hthrough hfits h8 hd, hon]
      have hfirst := rxPacket_first (s := s.toMach) (m := handed k n (spend (13 + k) n s.toMach)) rfl rfl rfl hrtp hpair hpart
        hkept hlost
      generalize rxPacket c (rtpOf (udpBody ip)) (handed k n (spend (13 + k) n s.toMach)) = t at hfirst ⊢
      obtain ⟨honly, hpkts, hgone, hlate, hwaits⟩ := hfirst
      obtain ⟨hleft, hframes⟩ := handed_leaves honly
      exact ⟨hleft, hframes, hpkts, hgone, hlate, hwaits⟩

end Sys2Proof.Proofs

/-! SUPPORT. An interface that moves away from the next hop of a context that sends. -/
namespace Sys2Proof.Proofs
open Sys2Proof.Machine Sys2Proof.Safety

/-- A journalled FLOW_IF of MAC 0: address 10.0.1.1 of 24 bits, gateway 10.0.1.254, no IPv6. -/
def movedIf : JEntry := { jseq := 5, kind := 0, ses := 0, hseq := 6, cmd := .flowIf 0 0, of := 5, room := 2
                          data := [10, 0, 1, 1, 24, 0, 0, 0, 10, 0, 1, 254] ++ List.replicate 52 0 }

/-- The entry is next to commit where a context sends from MAC 0 to 10.0.0.5, which is resolved and within the interface's network until
then. -/
def sendingOnIf : State := { claimant with
  flw := { claimant.flw with
    ctxs := [(0, { st := 2, d := { dir := 1, daddr := [10, 0, 0, 5] ++ List.replicate 12 0 } })]
    ifs := [(0, { ip4 := [10, 0, 0, 1], pre4 := 24, gw4 := [10, 0, 0, 254] })]
    hops := [{ mac := 0, ip := [10, 0, 0, 5], eth := 0x020000000005 }] }
  ctl := { claimant.ctl with journal := [movedIf], jnext := 6 } }

/-- The commit leaves the context without its next hop, which is now the gateway: a fault is recorded (R192). -/
theorem commit_sendingOnIf : recorded (serveRings (commitNext sendingOnIf.toMach)) 0xC30 0x31 = true := by decide +kernel

/-- Refutes O19: where the change of an interface leaves a next hop unresolved, its fault is raised with the commit (R192); the
statement's clause on FLOW_IF lets the commit change the interface alone. -/
theorem not_networkChangeSetsCommit : ¬ Obligations.NetworkChangeSetsCommit := by
  unfold Obligations.NetworkChangeSetsCommit
  rintro ⟨-, -, -, -, -, -, -, -, -, -, hif, -⟩
  obtain ⟨t, ht, honly, -⟩ := hif sendingOnIf movedIf 0 0 (by decide +kernel) rfl (by decide) (by decide) (by decide) (by decide)
  cases ht
  have hfault := commit_sendingOnIf
  rw [show serveRings (commitNext sendingOnIf.toMach) = _ from honly] at hfault
  exact absurd hfault (by decide)

end Sys2Proof.Proofs

/-! SUPPORT. Faults below C3 beside the pair block: what they leave of ROLE, power, the crossbar and the grave state. -/
namespace Sys2Proof.Machine
open Sys2Proof.Safety

/-! ### Records of C3 -/

/-- Every record of C3 in the second list comes from one in the first. -/
def gravesFrom (rs rs' : List FaultRec) : Prop := ∀ x ∈ rs', x.cls = 3 → ∃ y ∈ rs, y.cls = 3

theorem grave_iff (m : Mach) : grave m = true ↔ ∃ r ∈ m.flt.recs, r.cls = 3 := by simp [grave]

theorem gravesFrom_of_subset {rs rs' : List FaultRec} (h : rs' ⊆ rs) : gravesFrom rs rs' := fun x hx h3 => ⟨x, h hx, h3⟩

/-- A record that is written over another brings no C3 that the other did not have. -/
theorem gravesFrom_lmod {rs : List FaultRec} {i : Nat} {f : FaultRec → FaultRec}
    (h : ∀ y, rs[i]? = some y → (f y).cls = 3 → y.cls = 3) : gravesFrom rs (lmod rs i f) := by
  intro x hx h3
  obtain ⟨j, hj⟩ := List.mem_iff_getElem?.1 hx
  rw [lmod_getElem?] at hj
  split_ifs at hj with hji
  · subst hji
    obtain ⟨y, hy, rfl⟩ := Option.map_eq_some_iff.1 hj
    exact ⟨y, List.mem_of_getElem? hy, h y hy h3⟩
  · exact ⟨x, List.mem_of_getElem? hj, h3⟩

theorem gravesFrom_append {rs rs' : List FaultRec} {r : FaultRec} (h : rs' ⊆ rs) (hr : r.cls ≠ 3) : gravesFrom rs (rs' ++ [r]) := by
  intro x hx h3
  rcases List.mem_append.1 hx with hx | hx
  · exact ⟨x, h hx, h3⟩
  · rw [List.mem_singleton.1 hx] at h3
    exact absurd h3 hr

theorem gravesFrom_map (rs : List FaultRec) {g : FaultRec → FaultRec} (h : ∀ x, (g x).cls = x.cls) : gravesFrom rs (rs.map g) := by
  intro x hx h3
  obtain ⟨y, hy, rfl⟩ := List.mem_map.1 hx
  exact ⟨y, hy, by rwa [h] at h3⟩

/-- A message below C3 makes no record one of C3 (R521). -/
theorem FaultRec.cls_join_eq {r : FaultRec} {f : Flt} {msg : BitVec 64} {stamp cls : Nat} {cond inj : Bool} (hc : cls ≤ 2)
    (h : (r.join f msg stamp cls cond inj).cls = 3) : r.cls = 3 := by
  have hb : (r.join f msg stamp cls cond inj).base = max r.base cls := rfl
  unfold FaultRec.cls at *
  split_ifs at * <;> omega

/-! ### What stays beside the fault table -/

/-- Faults, events and grants may have changed, but not the pair block, the power states, or a block that faults leave alone; and no
record has come to C3. -/
structure keepsPair (m m' : Mach) : Prop where
  pr : m'.pr = m.pr
  pwr : m'.pwr = m.pwr
  apart : apartFromFaults m m'
  graves : gravesFrom m.flt.recs m'.flt.recs

theorem keepsPair.refl (m : Mach) : keepsPair m m := ⟨rfl, rfl, .refl m, gravesFrom_of_subset fun _ => id⟩

theorem keepsPair.trans {a b c : Mach} (h : keepsPair a b) (k : keepsPair b c) : keepsPair a c :=
  ⟨k.pr.trans h.pr, k.pwr.trans h.pwr, h.apart.trans k.apart, fun x hx h3 => by
    obtain ⟨y, hy, hy3⟩ := k.graves x hx h3
    exact h.graves y hy hy3⟩

theorem keepsPair_foldl {α : Type} (g : Mach → α → Mach) (h : ∀ m x, keepsPair m (g m x)) (l : List α) (m : Mach) :
    keepsPair m (l.foldl g m) := by
  induction l generalizing m with
  | nil => exact .refl m
  | cons a l ih => exact (h m a).trans (ih (g m a))

section
variable {m m' : Mach} (h : keepsPair m m')
include h

theorem keepsPair.claiming : claiming m' = claiming m := by rw [Machine.claiming, h.pr]; rfl

theorem keepsPair.grave (hg : grave m = false) : grave m' = false := by
  rw [← Bool.not_eq_true, grave_iff] at *
  rintro ⟨x, hx, h3⟩
  exact hg (h.graves x hx h3)

theorem keepsPair.xb : m'.xb = m.xb := by
  obtain ⟨-, hxb, -⟩ := h.apart
  exact hxb

theorem keepsPair.sys : m'.sys = m.sys := by
  obtain ⟨-, -, -, -, -, -, -, -, -, -, -, -, -, -, hsys, -⟩ := h.apart
  exact hsys
end

/-- A change of the fault table that brings no C3. -/
theorem keepsPair_flt {m : Mach} {f : Flt} (h : gravesFrom m.flt.recs f.recs) : keepsPair m { m with flt := f } :=
  ⟨rfl, rfl, apartFromFaults_flt m f, h⟩

theorem keepsPair_of_ctl {m m' : Mach} (h : sameButCtl m m') : keepsPair m m' := by
  refine ⟨?_, ?_, apartFromFaults_of_ctl h, ?_⟩ <;> rw [h]
  exact gravesFrom_of_subset fun _ => id

theorem keepsPair_settleGrants (m : Mach) : keepsPair m (settleGrants m) :=
  ⟨rfl, rfl, apartFromFaults_settleGrants m, gravesFrom_of_subset fun _ => id⟩

theorem keepsPair_faultEvt (m : Mach) (w : BitVec 64) (c : Nat) : keepsPair m (faultEvt m w c) :=
  keepsPair_of_ctl (sameButCtl_event ..)

theorem keepsPair_pairEvt (m : Mach) (c : Nat) : keepsPair m (pairEvt m c) := keepsPair_of_ctl (sameButCtl_pairEvt ..)

/-- A class that is reached without a new C3 moves none of it (R524, R527). -/
theorem keepsPair_reached {m : Mach} {old : Nat} {had : Bool} {r : FaultRec} (h : r.cls = 3 → had = true ∧ 3 ≤ old) :
    keepsPair m (reached m old had r) :=
  ⟨reached_pr m h, reached_pwr m h, apartFromFaults_reached .., by rw [reached_recs]; exact gravesFrom_of_subset fun _ => id⟩

/-- A message below C3 is recorded, whatever the table holds. -/
theorem keepsPair_recordMsg (m : Mach) (src kind : Nat) {cls : Nat} (msg : BitVec 64) (cond inj : Bool) (hc : cls ≤ 2) :
    keepsPair m (recordMsg m src kind cls msg cond inj).1 := by
  have hjoin (i : Nat) (d : FaultRec) (f : Flt) (c j : Bool) :
      gravesFrom m.flt.recs (lmod m.flt.recs i fun _ => (lget d m.flt.recs i).join f msg m.dt.t cls c j) := by
    refine gravesFrom_lmod fun y hy h3 => ?_
    have h3' := FaultRec.cls_join_eq hc h3
    rwa [lget, hy] at h3'
  have hnew (r : FaultRec) (hb : r.base = cls) (he : r.escalated = false) : r.cls ≠ 3 := by
    simp only [FaultRec.cls, he, hb, Bool.false_eq_true, if_false]
    omega
  have hfirst (r : FaultRec) (hb : r.base = cls) (he : r.escalated = false) : r.cls = 3 → false = true ∧ 3 ≤ 0 :=
    fun h3 => absurd h3 (hnew r hb he)
  unfold recordMsg
  dsimp only
  split
  · exact (keepsPair_flt (hjoin _ _ _ _ _)).trans (keepsPair_reached fun h => ⟨rfl, FaultRec.cls_join_lt hc h⟩)
  · split
    · exact (keepsPair_flt (gravesFrom_append (fun _ => id) (hnew _ rfl rfl))).trans (keepsPair_reached (hfirst _ rfl rfl))
    · split
      · exact keepsPair_flt (gravesFrom_of_subset fun _ => id)
      · split
        · exact (keepsPair_flt (gravesFrom_append List.eraseIdx_subset (hnew _ rfl rfl))).trans (keepsPair_reached (hfirst _ rfl rfl))
        · split
          · exact (keepsPair_flt (hjoin _ _ _ _ _)).trans (keepsPair_reached fun h => ⟨rfl, FaultRec.cls_join_lt hc h⟩)
          · exact (keepsPair_flt (gravesFrom_append (fun _ => id) (hnew _ rfl rfl))).trans (keepsPair_reached (hfirst _ rfl rfl))

/-- A fault below C3 leaves the pair and the power states alone, whatever room the table has. -/
theorem keepsPair_raise (m : Mach) (src kind : Nat) {cls : Nat} (addr : Nat) (hc : cls ≤ 2) :
    keepsPair m (raise m src kind cls addr) := by
  unfold raise takeFault
  extract_lets seq msg flt m₁
  have h₁ : keepsPair m m₁ := keepsPair_flt (gravesFrom_of_subset fun _ => id)
  have h₂ := h₁.trans (keepsPair_recordMsg m₁ src kind msg (condKinds.contains kind) false hc)
  generalize recordMsg m₁ src kind cls msg (condKinds.contains kind) false = x at h₂ ⊢
  obtain ⟨m₂, r⟩ := x
  dsimp -zeta only at h₂ ⊢
  extract_lets m₃ n
  have h₃ : keepsPair m m₃ := h₂.trans (keepsPair_settleGrants m₂)
  split
  · refine .trans ?_ (keepsPair_faultEvt ..)
    exact h₃.trans (keepsPair_flt (gravesFrom_of_subset fun _ => id))
  · refine h₃.trans (keepsPair_flt ?_)
    cases r with
    | none => exact gravesFrom_of_subset fun _ => id
    | some r => exact gravesFrom_map _ fun x => by split <;> rfl

/-- The end of a condition leaves the pair and the power states alone (R522). -/
theorem keepsPair_endCond (m : Mach) (src kind : Nat) : keepsPair m (endCond m src kind) := by
  unfold endCond
  split
  · exact .refl m
  · dsimp only
    split_ifs
    · exact .refl m
    · exact keepsPair_flt (gravesFrom_lmod fun y _ h3 => h3)
    · unfold clearRec
      split
      · exact .refl m
      · exact ((keepsPair_flt (gravesFrom_of_subset List.eraseIdx_subset)).trans (keepsPair_settleGrants _)).trans
          (keepsPair_faultEvt ..)

/-- The end of a condition takes no room in the table. -/
theorem tableRoom_endCond {m : Mach} (src kind : Nat) (h : tableRoom m = true) : tableRoom (endCond m src kind) = true := by
  unfold endCond
  split
  · exact h
  · dsimp only
    split_ifs
    · exact h
    · simpa [tableRoom] using h
    · unfold clearRec
      split
      · exact h
      · have hlen := List.length_eraseIdx_le m.flt.recs
        rw [tableRoom, decide_eq_true_eq] at *
        rw [faultEvt_flt]
        exact lt_of_le_of_lt (hlen _) h

end Sys2Proof.Machine

/-! SUPPORT. Claims without a changeover: the journal actions of a standby that copies nothing, and what a claim after heartbeat loss
leaves. -/
namespace Sys2Proof.Machine
open Sys2Proof.Safety

/-! ### A claim (R363, R417, R465, R474) -/

theorem claimSessions_ctl (m : Mach) : sameButCtl m (claimSessions m) := by
  refine sameButCtl_foldl startLease (fun m n => ?_) _ m
  unfold startLease
  split
  · exact sameButCtl_setSes ..
  · rfl

/-- PTP ports that take their states change device time alone. -/
theorem ptpResume_dt (m : Mach) : ptpResume m = { m with dt := (ptpResume m).dt } := by
  have hports (g : Nat → PtpPort → PtpPort) (ps : List Nat) (n : Mach) : ps.foldl (fun n p => setPport n p (g p)) n =
      { n with dt := (ps.foldl (fun n p => setPport n p (g p)) n).dt } := by
    induction ps generalizing n with
    | nil => rfl
    | cons p ps ih => rw [List.foldl_cons, ih]; rfl
  unfold ptpResume bmca
  extract_lets n
  have hn : n = { m with dt := n.dt } := hports ..
  unfold servoPort
  split
  · rw [hn]; rfl
  · rw [hn]; rfl
  · split
    · exact hn
    · rw [hn]; rfl

/-- The outputs alone fall idle. What becomes of the 2,304 of them is kept out of the statement, so that no check computes it. -/
theorem idleOuts_out (m : Mach) : ∃ o, idleOuts m = { m with out := o } := ⟨(idleOuts m).out, by simp only [idleOuts]⟩

/-- Without heartbeats a module that takes ROLE 8 or 15 withholds, and no route moves (R466). -/
theorem claimAs_lost {m : Mach} {role : Nat} (hc : claiming m = false) (hl : m.pr.ploss = true) (hr : 8 ≤ role) :
    let t := claimAs m role false
    t.pr.role = role ∧ t.pr.withhold = true ∧ t.pr.ploss = true ∧ t.pr.cnt = m.pr.cnt ∧ t.xb = m.xb := by
  unfold claimAs
  extract_lets was hold pr pwr m₁ m₂ m₃ m₄ t
  have hhold : hold = true := by simp [hold, hl]
  have hm₂ : m₂ = settleGrants { m₁ with pr := { m₁.pr with role } } := by
    unfold m₂ setRole
    have hclaims : claiming { m₁ with pr := { m₁.pr with role } } = true := decide_eq_true hr
    simp only [hclaims, Bool.not_true, Bool.and_false, Bool.false_eq_true, if_false]
  have hm₃ : m₃.pr = m₂.pr ∧ m₃.xb = m₂.xb := by
    unfold m₃
    rw [ptpResume_dt, claimSessions_ctl]
    exact ⟨rfl, rfl⟩
  obtain ⟨hpr, hxb⟩ := hm₃
  have ht : t = idleOuts m₃ := by
    simp only [t, was, hc, Bool.false_eq_true, if_false, hhold, if_true, m₄]
  obtain ⟨o, hidle⟩ := idleOuts_out m₃
  clear_value t
  rw [ht, hidle]
  dsimp only
  rw [hpr, hxb, hm₂]
  exact ⟨rfl, hhold, hl, rfl, rfl⟩

/-! ### A claim after heartbeat loss (R470, R472, R476, R479) -/

/-- An image that is out of date moves the epoch, and the pair block stays. -/
theorem outOfDate_leaves (m : Mach) : (outOfDate m).pr = m.pr ∧ (outOfDate m).xb.dests = m.xb.dests := by
  unfold outOfDate
  split
  · have hraise := keepsPair_raise { m with xb := { m.xb with epoch := m.pr.imgEpoch + 2 ^ 32 } } 0xDE0 0x96 0 (le_refl 2)
    exact ⟨hraise.pr, by rw [hraise.xb]⟩
  · exact ⟨rfl, rfl⟩

/-- With no entry in the journal copy the journal actions concern the epoch alone. -/
theorem journalActions_none {m : Mach} (h : m.pr.jcopy = []) :
    ∃ c, journalActions true m = outOfDate { m with ctl := c, pr := { m.pr with jcopy := [] } } := by
  unfold journalActions
  extract_lets own last
  have hown : own = [] := by simp [own, h]
  clear_value own
  subst hown
  rw [show placed m.ctl.jpos [] = ([], m.ctl.jpos) from rfl]
  dsimp only
  rw [List.filter_nil, List.foldl_nil, List.foldl_nil, if_pos rfl, List.foldl_nil]
  exact ⟨_, rfl⟩

theorem journalActions_leaves {m : Mach} (h : m.pr.jcopy = []) :
    (journalActions true m).pr = { m.pr with jcopy := [] } ∧ (journalActions true m).xb.dests = m.xb.dests := by
  obtain ⟨c, hc⟩ := journalActions_none h
  rw [hc]
  exact outOfDate_leaves _

theorem takeover_claims {m : Mach} (hc : claiming m = false) (hl : m.pr.ploss = true) (hj : m.pr.jcopy = []) :
    let t := takeover m
    t.pr.role = 8 ∧ t.pr.withhold = true ∧ t.pr.ploss = true ∧ t.pr.cnt.takeover = sat m.pr.cnt.takeover 1 ∧
      t.xb.dests = m.xb.dests := by
  obtain ⟨hpr, hdests⟩ := journalActions_leaves hj
  have hc' : claiming (journalActions true m) = false := by rw [claiming, hpr]; exact hc
  obtain ⟨hrole, hhold, hloss, hcnt, hxb⟩ := claimAs_lost hc' (by rw [hpr]; exact hl) (le_refl 8)
  intro t
  have ht : t = takeover m := rfl
  unfold takeover at ht
  extract_lets m₁ at ht
  rw [ht, sameButCtl_pairEvt]
  exact ⟨hrole, hhold, hloss, by rw [hcnt, hpr], (congrArg Xbar.dests hxb).trans hdests⟩

end Sys2Proof.Machine

/-! SUPPORT. Heartbeats: what is sent, a path that misses or hears one, the loss of all paths and its end. -/
namespace Sys2Proof.Machine
open Sys2Proof.Safety

/-! ### Sending (R462, R463, R482) -/

/-- One more pulse is driven, unless a C3 fault stands (R463). -/
def pulsed (m : Mach) : Mach := if grave m then m else { m with pr := { m.pr with pulses := m.pr.pulses + 1 } }

theorem beatSend_rom {m : Mach} (h : m.sys.romMode = true) : beatSend m = m := if_pos h

section
variable {m : Mach} (hrom : m.sys.romMode = false)
include hrom

theorem beatSend_pulse (hx : xlStarted m = false) : beatSend m = pulsed m := by
  have hx' : xlStarted (pulsed m) = false := by unfold pulsed; split <;> exact hx
  unfold beatSend
  rw [if_neg (by simp [hrom])]
  exact if_neg (by simpa [pulsed] using hx')

theorem beatSend_blocks (hx : xlStarted m = true) :
    beatSend m = dueBeats { pulsed m with pr := { (pulsed m).pr with sent := beatNow (pulsed m) } } := by
  have hx' : xlStarted (pulsed m) = true := by unfold pulsed; split <;> exact hx
  unfold beatSend
  rw [if_neg (by simp [hrom])]
  exact if_pos hx'
end

theorem sendReports_idle {m : Mach} (h : m.sys.romMode = true ∨ xlStarted m = false) : sendReports m = m := if_pos (by simpa using h)

/-- Of two messages sent one after the other the first is the last but one of those kept. -/
theorem sentXl_two (m : Mach) (x y : XlMsg) : ∃ b, (xlSend (xlSend m x) y).pr.sentXl = b ++ [x, y] := by
  refine ⟨(m.pr.sentXl.drop (m.pr.sentXl.length - 63)).drop ((xlSend m x).pr.sentXl.length - 63), ?_⟩
  have hx : (xlSend m x).pr.sentXl = m.pr.sentXl.drop (m.pr.sentXl.length - 63) ++ [x] := rfl
  have hy : (xlSend (xlSend m x) y).pr.sentXl = (xlSend m x).pr.sentXl.drop ((xlSend m x).pr.sentXl.length - 63) ++ [y] := rfl
  have hlen : (xlSend m x).pr.sentXl.length - 63 ≤ (m.pr.sentXl.drop (m.pr.sentXl.length - 63)).length := by
    rw [hx, List.length_append, List.length_singleton]
    omega
  rw [hy]
  nth_rw 2 [hx]
  rw [List.drop_append_of_le_length hlen, List.append_assoc]
  rfl

theorem sentXl_last_but_one (m : Mach) (x y : XlMsg) : let l := (xlSend (xlSend m x) y).pr.sentXl
    (l.drop (l.length - 2)).head? = some x := by
  intro l
  obtain ⟨b, hb⟩ := sentXl_two m x y
  have hl : l = b ++ [x, y] := hb
  rw [hl, List.length_append, show b.length + [x, y].length - 2 = b.length from rfl, List.drop_left]
  rfl

section
variable {m : Mach} (hrom : m.sys.romMode = false) (hx : xlStarted m = true)
include hrom hx

theorem sendReports_alone (hr : m.upd.running = false) : sendReports m = xlSend m (.report (ownReport m)) := by
  unfold sendReports
  rw [if_neg (by simp [hrom, hx])]
  exact if_neg (by simp [hr])

/-- A running image sends its formats after the report (R546). -/
theorem sendReports_formats (hr : m.upd.running = true) :
    ∃ p, sendReports m = xlSend (xlSend m (.report (ownReport m))) (.formats p) := by
  unfold sendReports
  rw [if_neg (by simp [hrom, hx])]
  exact ⟨_, if_pos hr⟩
end

/-! ### One path (R464) -/

theorem path_setPath (m : Mach) (i : Nat) (f : HbPath → HbPath) : path (setPath m i f) i = f (path m i) := by
  match i with
  | 0 => rfl
  | 1 => rfl
  | _ + 2 => rfl

theorem setPath_setPath (m : Mach) (i : Nat) (f g : HbPath → HbPath) :
    setPath (setPath m i f) i g = setPath m i fun p => g (f p) := by
  match i with
  | 0 => rfl
  | 1 => rfl
  | _ + 2 => rfl

/-- A path after a valid heartbeat. -/
def HbPath.hear (now : Nat) (p : HbPath) : HbPath := { p with miss := 0, good := min 16 (p.good + 1), ever := true, at_ := now }

/-- A path after a miss. -/
def HbPath.fail (p : HbPath) : HbPath := { p with miss := min 16 (p.miss + 1), good := 0, at_ := p.at_ + 250 * usT }

/-- The miss is counted for its path (R488). -/
def PairCnt.noteMiss (i : Nat) (c : PairCnt) : PairCnt :=
  match i with
  | 0 => { c with missA := sat c.missA 1 }
  | 1 => { c with missB := sat c.missB 1 }
  | _ => { c with missPin := sat c.missPin 1 }

/-- A miss is noted on a path, and nothing else comes of it. -/
def noteMiss (i : Nat) (m : Mach) : Mach := setPath { m with pr := { m.pr with cnt := m.pr.cnt.noteMiss i } } i HbPath.fail

/-- The sixteenth miss in a row is noted: the path is lost. -/
def losePath (i : Nat) (m : Mach) : Mach :=
  setPath { m with pr := { m.pr with cnt := m.pr.cnt.noteMiss i } } i fun p => { p.fail with lost := true }

/-- The sixteenth valid heartbeat in a row is noted: the path is back. -/
def regainPath (i : Nat) (m : Mach) : Mach := setPath m i fun p => { p.hear m.now with lost := false }

section
variable {m : Mach} {i : Nat}

theorem path_noteMiss : path (noteMiss i m) i = (path m i).fail := by
  match i with
  | 0 => rfl
  | 1 => rfl
  | _ + 2 => rfl

theorem missPath_early (h : missDue m i = false) : missPath i m = m := if_pos (by simp [h])

theorem missPath_due (h : missDue m i = true) : missPath i m =
    if (path (noteMiss i m) i).lost = true ∨ (path (noteMiss i m) i).miss < 16 then noteMiss i m
    else if allLost (losePath i m) = true ∧ everHeard (losePath i m) = true then declareLoss (losePath i m) false
    else if (losePath i m).pr.ploss = true then losePath i m
    else pathFault (losePath i m) i := by
  have hlose : losePath i m = setPath (noteMiss i m) i fun p => { p with lost := true } :=
    (setPath_setPath _ i HbPath.fail fun p => { p with lost := true }).symm
  rw [hlose]
  exact if_neg (by simp [h])

theorem missPath_notes (hd : missDue m i = true) (h : (path m i).lost = true ∨ (path m i).miss < 15) : missPath i m = noteMiss i m := by
  rw [missPath_due hd, path_noteMiss]
  refine if_pos (h.imp_right fun hm => ?_)
  change min 16 ((path m i).miss + 1) < 16
  omega

theorem missPath_loses (hd : missDue m i = true) (hl : (path m i).lost = false) (hm : 15 ≤ (path m i).miss) : missPath i m =
    if allLost (losePath i m) = true ∧ everHeard (losePath i m) = true then declareLoss (losePath i m) false
    else if (losePath i m).pr.ploss = true then losePath i m
    else pathFault (losePath i m) i := by
  rw [missPath_due hd, path_noteMiss]
  refine if_neg (not_or.2 ⟨?_, ?_⟩)
  · change ¬(path m i).lost = true
    simp [hl]
  · change ¬min 16 ((path m i).miss + 1) < 16
    omega

theorem goodPath_notes (h : (path m i).lost = false ∨ (path m i).good < 15) : goodPath i m = setPath m i (HbPath.hear m.now) := by
  refine if_pos ?_
  change (!(path (setPath m i (HbPath.hear m.now)) i).lost) = true ∨ (path (setPath m i (HbPath.hear m.now)) i).good < 16
  rw [path_setPath]
  refine h.imp (fun hl => ?_) fun hg => ?_
  · change (!(path m i).lost) = true
    simp [hl]
  · change min 16 ((path m i).good + 1) < 16
    omega

theorem goodPath_regains (hl : (path m i).lost = true) (hg : 15 ≤ (path m i).good) : goodPath i m =
    if (regainPath i m).pr.ploss = true ∧ (!(regainPath i m).pr.plossRole0) = true then endLoss (regainPath i m)
    else pathClear (regainPath i m) i := by
  have hregain : regainPath i m = setPath (setPath m i (HbPath.hear m.now)) i fun p => { p with lost := false } :=
    (setPath_setPath m i (HbPath.hear m.now) fun p => { p with lost := false }).symm
  rw [hregain]
  refine if_neg ?_
  change ¬((!(path (setPath m i (HbPath.hear m.now)) i).lost) = true ∨ (path (setPath m i (HbPath.hear m.now)) i).good < 16)
  rw [path_setPath]
  refine not_or.2 ⟨?_, ?_⟩
  · change ¬(!(path m i).lost) = true
    simp [hl]
  · change ¬min 16 ((path m i).good + 1) < 16
    omega
end

theorem keepsPair_pathFault (m : Mach) (i : Nat) : keepsPair m (pathFault m i) := by
  unfold pathFault
  split
  · exact .refl m
  · exact keepsPair_raise _ _ _ _ (by decide)

theorem keepsPair_pathClear (m : Mach) (i : Nat) : keepsPair m (pathClear m i) := keepsPair_endCond ..

theorem recorded_pathFault {m : Mach} {i : Nat} (hroom : tableRoom m = true) (hs : standing m (0xDE1 + i) 0x91 = false) :
    recorded (pathFault m i) (0xDE1 + i) 0x91 = true := by
  rw [pathFault, if_neg (by simp [hs])]
  exact recorded_raise _ _ _ _ _ hroom

/-- XL_A is lost while XL_B is not: the path alone is reported. -/
theorem missPath_loses_first {m : Mach} (hd : missDue m 0 = true) (hl : m.pr.pathA.lost = false) (hm : 15 ≤ m.pr.pathA.miss)
    (hB : m.pr.pathB.lost = false) (hloss : m.pr.ploss = false) : missPath 0 m = pathFault (losePath 0 m) 0 := by
  have hB' : (losePath 0 m).pr.pathB.lost = false := hB
  have hloss' : (losePath 0 m).pr.ploss = false := hloss
  rw [missPath_loses hd hl hm, if_neg (by simp [allLost, hB']), if_neg (by simp [hloss'])]

/-- The pin is lost as the last of the three: heartbeat loss is declared. -/
theorem missPath_loses_last {m : Mach} (hd : missDue m 2 = true) (hA : m.pr.pathA.lost = true) (hB : m.pr.pathB.lost = true)
    (hl : m.pr.pathPin.lost = false) (hm : 15 ≤ m.pr.pathPin.miss) (hever : everHeard m = true) :
    missPath 2 m = declareLoss (losePath 2 m) false := by
  have hall : allLost (losePath 2 m) = true := by
    change (m.pr.pathA.lost && m.pr.pathB.lost && true) = true
    rw [hA, hB]
    rfl
  rw [missPath_loses hd hl hm, if_pos ⟨hall, hever⟩]

/-! ### Loss is declared (R464, R466, R476, R479) -/

theorem answerWake_none {m : Mach} (h : m.pwr.wakePartner = []) (st : Nat) : answerWake m st = m := by
  unfold answerWake
  rw [h, List.foldl_nil, ← h]

/-- Heartbeat loss as it is noted when it is declared. -/
def lostNow (role0 : Bool) (m : Mach) : Mach :=
  { m with pr := { m.pr with ploss := true, plossRole0 := role0, plossAt := m.now, echoOk := false } }

theorem declareLoss_first {m : Mach} {role0 : Bool} (hl : m.pr.ploss = false) : declareLoss m role0 =
    onLoss (settleGrants (answerWake (pairEvt (raise ((List.range 3).foldl pathClear (lostNow role0 m)) 0xDE0 0x92 2) 1) sFaulted)) :=
  if_neg (by simp [hl])

/-- Loss is declared once: the paths' conditions end, the fault is recorded, and the rest is what loss makes of the module. -/
theorem declareLoss_leads {m : Mach} (role0 : Bool) (hl : m.pr.ploss = false) (hroom : tableRoom m = true)
    (hw : m.pwr.wakePartner = []) :
    ∃ u, declareLoss m role0 = onLoss u ∧ keepsPair (lostNow role0 m) u ∧ recorded u 0xDE0 0x92 = true := by
  have hclear : keepsPair (lostNow role0 m) ((List.range 3).foldl pathClear (lostNow role0 m)) := keepsPair_foldl _ keepsPair_pathClear _ _
  have hroom₁ : tableRoom ((List.range 3).foldl pathClear (lostNow role0 m)) = true :=
    tableRoom_endCond _ _ (tableRoom_endCond _ _ (tableRoom_endCond _ _ hroom))
  have hdecl := declareLoss_first (role0 := role0) hl
  generalize (List.range 3).foldl pathClear (lostNow role0 m) = m₁ at hclear hroom₁ hdecl
  have hrec : recorded (raise m₁ 0xDE0 0x92 2) 0xDE0 0x92 = true := recorded_raise _ _ _ _ _ hroom₁
  have h₂ : keepsPair (lostNow role0 m) (raise m₁ 0xDE0 0x92 2) := hclear.trans (keepsPair_raise _ _ _ _ (by decide))
  generalize raise m₁ 0xDE0 0x92 2 = m₂ at hrec h₂ hdecl
  have h₃ := h₂.trans (keepsPair_pairEvt m₂ 1)
  have hw₃ : (pairEvt m₂ 1).pwr.wakePartner = [] := by rw [h₃.pwr]; exact hw
  rw [answerWake_none hw₃] at hdecl
  refine ⟨_, hdecl, h₃.trans (keepsPair_settleGrants _), ?_⟩
  rw [recorded, settleGrants_flt, sameButCtl_pairEvt]
  exact hrec

/-- No changeover runs, and the rings are not held for one. -/
def noChange (m : Mach) : Mach := { m with pr := { m.pr with chg := none }, ctl := { m.ctl with quiesced := false } }

theorem dropChange_none {m : Mach} (h : m.pr.chg = none) (st : Nat) (r : Ref) : dropChange m st r = noChange m := by
  unfold dropChange endAsked
  rw [h]
  dsimp only
  exact congrArg noChange (if_neg (by simp [h]))

theorem onLoss_claimant {m : Mach} (hc : claiming m = true) (hchg : m.pr.chg = none) : onLoss m =
    settleGrants { noChange m with pr := { (noChange m).pr with withhold := true, echoOk := false } } := by
  unfold onLoss
  rw [if_pos hc, dropChange_none hchg]

/-- A standby that can claim at once: fit, in SHADOW, with no changeover and no drill, its journal copy empty (R465, R479). -/
structure readyToClaim (m : Mach) : Prop where
  role : m.pr.role = 4
  fit : m.pr.fit = true
  split : m.pr.split = false
  sound : grave m = false
  phase : m.sys.phase = 0
  shadow : m.pwr.st = 1
  woken : m.pwr.wakeFail = false
  drilling : m.pr.drilling = false
  chg : m.pr.chg = none
  jcopy : m.pr.jcopy = []

theorem readyToClaim.of_keepsPair {m m' : Mach} (h : readyToClaim m) (k : keepsPair m m') : readyToClaim m' := by
  refine ⟨?_, ?_, ?_, k.grave h.sound, ?_, ?_, ?_, ?_, ?_, ?_⟩
  · rw [k.pr]; exact h.role
  · rw [k.pr]; exact h.fit
  · rw [k.pr]; exact h.split
  · rw [k.sys]; exact h.phase
  · rw [k.pwr]; exact h.shadow
  · rw [k.pwr]; exact h.woken
  · rw [k.pr]; exact h.drilling
  · rw [k.pr]; exact h.chg
  · rw [k.pr]; exact h.jcopy

section
variable {m : Mach} (h : readyToClaim m)
include h

theorem readyToClaim.standby : claiming m = false := by rw [claiming, h.role]; rfl

theorem readyToClaim.mayClaim : mayClaim m = true := by
  simp [Machine.mayClaim, h.fit, h.role, h.split, h.sound, h.phase]

/-- With the partner's heartbeats lost no slot clash counts, and ROLE stays 4 (R458). -/
theorem readyToClaim.settleRole (hl : m.pr.ploss = true) : settleRole m = m := by
  have hrest : restRole m = 4 := by
    simp [restRole, slotClash, partnerHere, hl, h.sound, h.fit, h.woken, h.shadow]
  unfold Machine.settleRole
  rw [h.standby, if_neg Bool.false_ne_true, hrest, if_pos h.role]

theorem onLoss_ready (hl : m.pr.ploss = true) : onLoss m = takeover (noChange m) := by
  have hready : readyToClaim (noChange m) :=
    ⟨h.role, h.fit, h.split, h.sound, h.phase, h.shadow, h.woken, h.drilling, rfl, h.jcopy⟩
  have hdrill : dropDrill m = m := if_neg (by simp [h.drilling])
  unfold onLoss
  rw [h.standby, if_neg Bool.false_ne_true, hdrill, dropChange_none h.chg]
  dsimp only
  rw [if_pos hready.shadow, hready.settleRole hl, if_pos hready.mayClaim]
end

/-- What loss makes of a claimant: it withholds, and no route moves (R466). -/
theorem declareLoss_withholds {m : Mach} (role0 : Bool) (hl : m.pr.ploss = false) (hroom : tableRoom m = true)
    (hw : m.pwr.wakePartner = []) (hc : claiming m = true) (hchg : m.pr.chg = none) :
    let t := declareLoss m role0
    t.pr.ploss = true ∧ t.pr.plossAt = m.now ∧ t.pr.withhold = true ∧ t.pr.role = m.pr.role ∧ t.xb = m.xb ∧
      recorded t 0xDE0 0x92 = true := by
  obtain ⟨u, ht, hkeep, hrec⟩ := declareLoss_leads role0 hl hroom hw
  have hclaims : claiming u = true := by rw [hkeep.claiming]; exact hc
  have hnone : u.pr.chg = none := by rw [hkeep.pr]; exact hchg
  obtain ⟨hlost, hat, hrole⟩ : u.pr.ploss = true ∧ u.pr.plossAt = m.now ∧ u.pr.role = m.pr.role := by
    rw [hkeep.pr]
    exact ⟨rfl, rfl, rfl⟩
  intro t
  have htu : t = _ := ht.trans (onLoss_claimant hclaims hnone)
  clear_value t
  subst htu
  exact ⟨hlost, hat, rfl, hrole, hkeep.xb, hrec⟩

/-- What loss makes of a standby that can claim: it claims at ROLE 8, and withholds until its echo is confirmed (R479). -/
theorem declareLoss_claims {m : Mach} (role0 : Bool) (hl : m.pr.ploss = false) (hroom : tableRoom m = true)
    (hw : m.pwr.wakePartner = []) (h : readyToClaim m) :
    let t := declareLoss m role0
    t.pr.role = 8 ∧ t.pr.withhold = true ∧ t.pr.ploss = true ∧ t.pr.cnt.takeover = sat m.pr.cnt.takeover 1 ∧
      t.xb.dests = m.xb.dests := by
  obtain ⟨u, ht, hkeep, -⟩ := declareLoss_leads role0 hl hroom hw
  have hready : readyToClaim u := .of_keepsPair
    (m := lostNow role0 m) ⟨h.role, h.fit, h.split, h.sound, h.phase, h.shadow, h.woken, h.drilling, h.chg, h.jcopy⟩ hkeep
  have hlost : u.pr.ploss = true := by rw [hkeep.pr]; rfl
  have hcnts : u.pr.cnt = m.pr.cnt := by rw [hkeep.pr]; rfl
  intro t
  have htu : t = _ := ht.trans (onLoss_ready hready hlost)
  obtain ⟨hrole, hhold, hloss, hcnt, hdests⟩ := takeover_claims (m := noChange u) hready.standby hlost hready.jcopy
  rw [← htu] at hrole hhold hloss hcnt hdests
  exact ⟨hrole, hhold, hloss, hcnt.trans (congrArg (fun c : PairCnt => sat c.takeover 1) hcnts),
    hdests.trans (congrArg Xbar.dests hkeep.xb)⟩

/-! ### Loss ends (R464 to R466) -/

/-- The pin's path and the loss of heartbeats are as they were. -/
def samePin (m m' : Mach) : Prop := m'.pr.pathPin = m.pr.pathPin ∧ m'.pr.ploss = m.pr.ploss

theorem samePin.refl (m : Mach) : samePin m m := ⟨rfl, rfl⟩

theorem samePin.trans {a b c : Mach} (h : samePin a b) (k : samePin b c) : samePin a c := ⟨k.1.trans h.1, k.2.trans h.2⟩

theorem samePin_of_pr {m m' : Mach} (h : m'.pr = m.pr) : samePin m m' := by
  unfold samePin
  rw [h]
  exact ⟨rfl, rfl⟩

theorem samePin_setRole (m : Mach) (r : Nat) : samePin m (setRole m r) := by
  unfold setRole
  dsimp only
  split
  · exact ⟨rfl, rfl⟩
  · exact ⟨rfl, rfl⟩

theorem samePin_fallRole (m : Mach) : samePin m (fallRole m) := by
  unfold fallRole
  split
  · exact (samePin_setRole m 0).trans (samePin_of_pr (keepsPair_pairEvt ..).pr)
  · exact samePin_setRole m 0

theorem samePin_settleRole (m : Mach) : samePin m (settleRole m) := by
  unfold settleRole
  split
  · split
    · exact samePin_fallRole m
    · split
      · exact .trans ⟨rfl, rfl⟩ (samePin_fallRole _)
      · exact .refl m
  · split
    · exact .refl m
    · exact samePin_setRole m _

/-- The end of heartbeat loss as it is noted. -/
def lossOver (m : Mach) : Mach := { m with pr := { m.pr with ploss := false, plossRole0 := false, split := false } }

theorem endLoss_ends (m : Mach) : (endLoss m).pr.pathPin = m.pr.pathPin ∧ (endLoss m).pr.ploss = false := by
  have hpin : samePin (lossOver m) (endLoss m) := by
    unfold endLoss
    extract_lets pr m₁ m₂ held pr₂ m₃
    have h₁ : keepsPair (lossOver m) m₁ := keepsPair_endCond (lossOver m) 0xDE0 0x92
    have h₂ : keepsPair m₁ m₂ := keepsPair_foldl _ (fun m i => by
      split
      · exact keepsPair_pathFault m i
      · exact .refl m) _ _
    have h₃ : samePin (lossOver m) m₃ := (samePin_of_pr (h₁.trans h₂).pr).trans ⟨rfl, rfl⟩
    refine h₃.trans (.trans ?_ (samePin_settleRole _))
    split
    · exact samePin_of_pr (by rw [onlyConsumers_announce])
    · exact .refl m₃
  exact hpin

theorem regainPath_pin {m : Mach} (hl : m.pr.pathPin.lost = true) (hg : 15 ≤ m.pr.pathPin.good) :
    let t := goodPath 2 m
    t.pr.pathPin = { m.pr.pathPin.hear m.now with lost := false } ∧ (m.pr.plossRole0 = false → t.pr.ploss = false) := by
  intro t
  have ht : t = _ := goodPath_regains (i := 2) hl hg
  rw [ht]
  split
  · obtain ⟨hpin, hloss⟩ := endLoss_ends (regainPath 2 m)
    exact ⟨hpin, fun _ => hloss⟩
  next hno =>
    have hclear := (keepsPair_pathClear (regainPath 2 m) 2).pr
    rw [hclear]
    refine ⟨rfl, fun h0 => ?_⟩
    have h0' : (regainPath 2 m).pr.plossRole0 = false := h0
    simpa [h0'] using hno

/-! ### Pulses, and the echo's time limit (R464, R466) -/

theorem pulseIn_off {m : Mach} {width : Nat}
    (h : ¬(m.pr.watching = true ∧ m.sys.romMode = false ∧ 1000 ≤ width ∧ width ≤ 4000)) : pulseIn width m = m := by
  refine if_pos ?_
  by_contra hno
  simp only [not_or, not_lt, Bool.not_eq_true', Bool.not_eq_false, Bool.not_eq_true] at hno
  exact h hno

theorem pulseIn_on {m : Mach} {width : Nat} (h : m.pr.watching = true ∧ m.sys.romMode = false ∧ 1000 ≤ width ∧ width ≤ 4000) :
    pulseIn width m = goodPath 2 m := by
  obtain ⟨hw, hrom, hmin, hmax⟩ := h
  exact if_neg (by simp [hw, hrom, hmin, hmax])

theorem echoTimeout_early {m : Mach}
    (h : ¬(claiming m = true ∧ m.pr.withhold = true ∧ m.pr.plossAt + 100 * msT ≤ m.now ∧ upLanes m = [])) : echoTimeout m = m :=
  if_neg (by simpa [List.isEmpty_iff] using h)

theorem echoTimeout_due {m : Mach}
    (h : claiming m = true ∧ m.pr.withhold = true ∧ m.pr.plossAt + 100 * msT ≤ m.now ∧ upLanes m = []) :
    (echoTimeout m).pr = { m.pr with withhold := false, echoOk := true } ∧ (echoTimeout m).xb = m.xb := by
  have ht : echoTimeout m = echoConfirmed m := if_pos (by simpa [List.isEmpty_iff] using h)
  rw [ht, echoConfirmed, onlyConsumers_announce]
  exact ⟨rfl, rfl⟩

end Sys2Proof.Machine

namespace Sys2Proof.Proofs
open Sys2Proof.Machine Sys2Proof.Safety

/-- The same as `takes_of_runIf` for a function of the machine without a guard. -/
theorem takes_of_run {i : Instr} {s : State} {f : Mach → Mach} {m : Mach} (e : exec i s = run f s) (h : f s.toMach = m) : Takes i s m :=
  takes_of_runIf (b := true) e rfl h

theorem answers_of_run {i : Instr} {s : State} {f : Mach → Mach} {P : State → Prop} (e : exec i s = run f s)
    (h : P { s with toMach := f s.toMach }) : Answers i s P :=
  answers_of_runIf (b := true) e rfl h

theorem missDue_of {s : State} {i : Nat} (hwatch : s.pr.watching = true) (hrom : s.sys.romMode = false)
    (h : (path s.toMach i).at_ + 250 * usT < s.now) : missDue s.toMach i = true := by
  simp [missDue, hwatch, hrom, h]

/-- Settles O52: each group of clauses is the law of what is sent, of one path, of the loss of all three or of its end, for the case
that the clause speaks of. -/
theorem heartbeatsProceed : Obligations.HeartbeatsProceed := by
  unfold Obligations.HeartbeatsProceed
  refine ⟨fun s => ⟨fun hrom => ?_, fun hrom hg hx => ?_, fun hrom hg hx => ?_, fun hrom hg hx => ?_, fun hrom hg hx => ?_,
    fun hrom hx hr => ?_, fun hrom hx hr => ?_⟩, ?_, ?_, ?_, ?_, ?_⟩
  · exact ⟨takes_of_run rfl (beatSend_rom hrom), takes_of_run rfl (sendReports_idle (.inl hrom))⟩
  · exact takes_of_run rfl ((beatSend_blocks hrom hx).trans (by rw [pulsed, if_neg (by simp [hg])]))
  · exact takes_of_run rfl ((beatSend_blocks hrom hx).trans (by rw [pulsed, if_pos hg]))
  · exact takes_of_run rfl ((beatSend_pulse hrom hx).trans (if_pos hg))
  · exact ⟨takes_of_run rfl ((beatSend_pulse hrom hx).trans (if_neg (by simp [hg]))),
      takes_of_run rfl (sendReports_idle (.inr hx))⟩
  · exact takes_of_run rfl (sendReports_alone hrom hx hr)
  · obtain ⟨p, hp⟩ := sendReports_formats hrom hx hr
    refine answers_of_run rfl ?_
    rw [hp]
    exact ⟨rfl, sentXl_last_but_one s.toMach (.report (ownReport s.toMach)) (.formats p)⟩
  · intro s width on good
    refine ⟨fun hoff => ?_, fun hon hstay => ?_, fun hon hl hg => ?_⟩
    · exact takes_of_run rfl (pulseIn_off hoff)
    · exact takes_of_run rfl ((pulseIn_on hon).trans (goodPath_notes hstay))
    · refine answers_of_run rfl ?_
      rw [pulseIn_on hon]
      exact regainPath_pin hl hg
  · intro s i hi hno
    exact takes_of_runIf rfl (decide_eq_true hi) (missPath_early hno)
  · intro s hwatch hrom hroom miss due
    have hdue {i : Nat} (hd : due (path s.toMach i) = true) : missDue s.toMach i = true := missDue_of hwatch hrom (of_decide_eq_true hd)
    refine ⟨fun hd h => ?_, fun hd h => ?_, fun hd h => ?_, fun hd hl hm hB hloss hst => ?_⟩
    · exact takes_of_runIf rfl rfl (missPath_notes (i := 0) (hdue hd) h)
    · exact takes_of_runIf rfl rfl (missPath_notes (i := 1) (hdue hd) h)
    · exact takes_of_runIf rfl rfl (missPath_notes (i := 2) (hdue hd) h)
    · refine answers_of_runIf rfl rfl ?_
      dsimp only
      rw [missPath_loses_first (hdue hd) hl hm hB hloss, (keepsPair_pathFault ..).pr]
      exact ⟨rfl, hloss, recorded_pathFault (m := losePath 0 s.toMach) (i := 0) hroom hst⟩
  · intro s hwatch hrom hroom hA hB hl hm hever hloss hchg hw hd
    have hlast := missPath_loses_last (missDue_of (i := 2) hwatch hrom hd) hA hB hl hm hever
    refine ⟨fun hc => ?_, fun hrole hfit hsplit hg hphase hst hfail hdrill hcopy => ?_⟩
    · refine answers_of_runIf rfl rfl ?_
      rw [hlast]
      exact declareLoss_withholds (m := losePath 2 s.toMach) false hloss hroom hw hc hchg
    · refine answers_of_runIf rfl rfl ?_
      rw [hlast]
      exact declareLoss_claims (m := losePath 2 s.toMach) false hloss hroom hw
        ⟨hrole, hfit, hsplit, hg, hphase, hst, hfail, hdrill, hchg, hcopy⟩
  · intro s due
    refine ⟨fun hno => ?_, fun hd => ?_⟩
    · exact takes_of_run rfl (echoTimeout_early hno)
    · obtain ⟨hpr, hxb⟩ := echoTimeout_due hd
      refine answers_of_run rfl ?_
      dsimp only
      rw [hpr, hxb]
      exact ⟨rfl, rfl, rfl, rfl⟩

end Sys2Proof.Proofs

/-! SUPPORT. A change set's commit: what the response entries of its final status leave in the ring, and what else the sequencer moves. -/
namespace Sys2Proof.Machine
open Sys2Proof.Safety

/-! ### Response entries in their ring (R397, R405) -/

/-- The window of a session once a response entry is put in its ring. -/
def Window.push (w : Window) (r : Resp) : Window :=
  { w with resps := tset w.resps (w.respTail % 256) r, respTail := ringNext w.respTail }

theorem win_putResps (m : Mach) (n : Nat) (hare : Bool) (rs : List Resp) :
    win (putResps m n hare rs) n = rs.foldl Window.push (win m n) := by
  induction rs generalizing m with
  | nil => rfl
  | cons r rs ih =>
    rw [putResps, ih, win_noteEntry]
    exact congrArg (rs.foldl Window.push) (win_setWin_same m n fun w => w.push r)

/-- The tail moves by one for each entry. -/
theorem respTail_push {w : Window} (rs : List Resp) (hw : w.respTail < 65536) :
    (rs.foldl Window.push w).respTail = (w.respTail + rs.length) % 65536 := by
  induction rs using List.reverseRecOn with
  | nil => simp [Nat.mod_eq_of_lt hw]
  | append_singleton rs r ih =>
    simp only [List.foldl_append, List.foldl_cons, List.foldl_nil, Window.push, ringNext, ih, List.length_append, List.length_singleton]
    omega

/-- The entries stand in the slots from the tail on, as many as the ring has. -/
theorem resps_push {w : Window} {rs : List Resp} (hw : w.respTail < 65536) (hrs : rs.length ≤ 256) {k : Nat} (hk : k < rs.length) :
    tget {} (rs.foldl Window.push w).resps ((w.respTail + k) % 256) = rs[k] := by
  induction rs using List.reverseRecOn with
  | nil => simp at hk
  | append_singleton rs r ih =>
    simp only [List.length_append, List.length_singleton] at hk hrs
    have hslot : (rs.foldl Window.push w).respTail % 256 = (w.respTail + rs.length) % 256 := by rw [respTail_push rs hw]; omega
    simp only [List.foldl_append, List.foldl_cons, List.foldl_nil, Window.push, hslot]
    by_cases h : k < rs.length
    · rw [tget_tset_other _ _ _ (by omega), ih (by omega) h, List.getElem_append_left h]
    · obtain rfl : k = rs.length := by omega
      rw [tget_tset_same, List.getElem_append_right (le_refl _)]
      simp

/-- What has been put in the ring is what the step has posted. -/
theorem posted_of_push {m m' : Mach} {n : Nat} {rs : List Resp} (hw : (win m n).respTail < 65536) (hrs : rs.length ≤ 256)
    (h : win m' n = rs.foldl Window.push (win m n)) : posted m m' n = rs := by
  have hlen : ringLen (win m' n).respTail (win m n).respTail = rs.length := by
    rw [h, respTail_push rs hw, ringLen]; omega
  refine List.ext_getElem (by simp [posted, hlen]) fun k hk hk' => ?_
  simp only [posted, List.getElem_map, List.getElem_range]
  rw [h, resps_push hw hrs hk']

theorem posted_of_ctl {m m' : Mach} (h : m'.ctl = m.ctl) (u : Mach) (n : Nat) : posted m' u n = posted m u n := by
  simp only [posted, win, h]

theorem length_chunks (k : Nat) (l : List Byte) : (chunks k l).length ≤ k + 1 := by
  induction k generalizing l with
  | zero => simp [chunks]
  | succ k ih =>
    unfold chunks
    split
    · simp
    · simpa using ih _

/-- A response takes at most eight entries (R405). -/
theorem length_mkResps (opcode status flags hseq jseq : Nat) (result : List Byte) :
    (mkResps opcode status flags hseq jseq result).length ≤ 8 := by
  simpa [mkResps] using length_chunks 7 result

/-! ### What concluding an entry moves (R411, R422, R469) -/

/-- The machine has changed in the sessions, their windows and counters, the messages sent and the journal alone. -/
def onlyAnswers (m m' : Mach) : Prop :=
  m' = { m with
    ctl := { m.ctl with
      sessions := m'.ctl.sessions, windows := m'.ctl.windows, cnts := m'.ctl.cnts, irqs := m'.ctl.irqs, journal := m'.ctl.journal }
    pr := { m.pr with sentXl := m'.pr.sentXl } }

theorem onlyAnswers.trans {a b c : Mach} (h : onlyAnswers a b) (k : onlyAnswers b c) : onlyAnswers a c := by
  unfold onlyAnswers at *; rw [k, h]

theorem onlyAnswers.of_posts {m m' : Mach} (h : onlyPosts m m') : onlyAnswers m m' := by
  unfold onlyAnswers; rw [h]

theorem onlyAnswers_setEntry (m : Mach) (j : Nat) (f : JEntry → JEntry) : onlyAnswers m (setEntry m j f) := rfl
theorem onlyAnswers_xlSend (m : Mach) (x : XlMsg) : onlyAnswers m (xlSend m x) := rfl
theorem onlyAnswers_cacheFinal (m : Mach) (n j : Nat) (rs : List Resp) : onlyAnswers m (cacheFinal m n j rs) := rfl
theorem onlyAnswers_retire (m : Mach) : onlyAnswers m (retire m) := rfl

theorem onlyAnswers_postRoom (m : Mach) (e : JEntry) (rs : List Resp) (last : Bool) : onlyAnswers m (postRoom m e rs last) := by
  have hput := onlyAnswers.of_posts (onlyPosts_putResps m e.ses e.hare rs)
  unfold postRoom
  split
  · exact onlyAnswers_setEntry ..
  · dsimp only
    split
    · exact (hput.trans (.of_posts (onlyPosts_setSes ..))).trans (onlyAnswers_setEntry ..)
    · exact hput.trans (onlyAnswers_setEntry ..)

/-- What has answered alone has moved the control block and the messages sent over XL alone. -/
theorem onlyAnswers.eq {m m' : Mach} (h : onlyAnswers m m') :
    m' = { m with ctl := m'.ctl, pr := { m.pr with sentXl := m'.pr.sentXl } } := by
  rw [h]

theorem onlyAnswers.ringsIdle {m m' : Mach} (h : onlyAnswers m m') : ringsIdle m' = ringsIdle m := by rw [h]; rfl

theorem jentry?_cacheFinal (m : Mach) (n j : Nat) (rs : List Resp) (i : Nat) : jentry? (cacheFinal m n j rs) i = jentry? m i := rfl
theorem jentry?_xlSend (m : Mach) (x : XlMsg) (i : Nat) : jentry? (xlSend m x) i = jentry? m i := by unfold xlSend; rfl

theorem live_cacheFinal (m : Mach) (n j : Nat) (rs : List Resp) : live (cacheFinal m n j rs) n = live m n := by
  simp [live, cacheFinal, ses, setSes]


/-- An entry whose outcome is final (R422). -/
def JEntry.concluded (m : Mach) (st status epoch : Nat) (x : JEntry) : JEntry :=
  { x with st, status, epoch, instant := m.dt.t, tick := m.now, waiting := false, savedIn := some ((lget {} m.xb.planes 0).nextSw) }

/-- The response entries of an entry's final status. -/
def JEntry.finalResps (e : JEntry) (status : Nat) (result : List Byte) : List Resp :=
  mkResps e.cmd.opcode status (if e.replay then 2 else 0) e.hseq e.of result

theorem xlUp_setEntry (m : Mach) (j : Nat) (f : JEntry → JEntry) : xlUp (setEntry m j f) = xlUp m := rfl
theorem xlUp_cacheFinal (m : Mach) (n j : Nat) (rs : List Resp) : xlUp (cacheFinal m n j rs) = xlUp m := rfl
theorem xlUp_xlSend (m : Mach) (x : XlMsg) : xlUp (xlSend m x) = xlUp m := by unfold xlSend; rfl

/-! What concluding an entry of a session is, by whether its outcome waits for the partner (R469). -/

section
variable {m : Mach} {e : JEntry} (st status epoch : Nat) (result : List Byte) (hj : jentry? m e.jseq = some e) (hses : e.ses < 64)
include hj hses

/-- While a bundle is up the final response is held for the partner. -/
theorem conclude_up (hxl : xlUp m = true) :
    conclude m e.jseq st status result epoch =
      setEntry (cacheFinal (xlSend (setEntry m e.jseq (.concluded m st status epoch)) (.jstate e.jseq st status epoch m.dt.t))
        e.ses e.of (e.finalResps status result)) e.jseq fun x => { x with held := e.finalResps status result } := by
  have hne : e.ses ≠ 255 := by omega
  simp only [conclude, hj, xlUp_setEntry, xlUp_cacheFinal, xlUp_xlSend, hxl, hne, if_true, if_false]
  rfl

/-- With no bundle up, and its loss reported, the final response is posted at once. -/
theorem conclude_down (hxl : xlUp m = false) (hun : m.pr.unprot = true) :
    conclude m e.jseq st status result epoch =
      retire (postRoom (cacheFinal (setEntry m e.jseq (.concluded m st status epoch)) e.ses e.of (e.finalResps status result)) e
        (e.finalResps status result) true) := by
  have hne : e.ses ≠ 255 := by omega
  have hun' (n j : Nat) (rs : List Resp) (f : JEntry → JEntry) :
      unprotect (cacheFinal (setEntry m e.jseq f) n j rs) = cacheFinal (setEntry m e.jseq f) n j rs := if_pos hun
  simp only [conclude, hj, xlUp_setEntry, xlUp_cacheFinal, hxl, hne, Bool.false_eq_true, if_false, hun']
  rfl
end

/-- A final response that is posted stands in the ring of its session. -/
theorem win_postRoom {m : Mach} {e : JEntry} (rs : List Resp) (hdeaf : e.deaf = false) (hlive : live m e.ses = true) :
    win (postRoom m e rs true) e.ses = rs.foldl Window.push (win m e.ses) := by
  simp only [postRoom, hdeaf, hlive, Bool.not_true, Bool.or_self, Bool.false_eq_true, if_false, if_true]
  exact win_putResps m e.ses e.hare rs

section
variable {m : Mach} {e : JEntry} (st status epoch : Nat) (result : List Byte) (hj : jentry? m e.jseq = some e) (hses : e.ses < 64)
include hj hses

/-- While a bundle is up the entry of a session that is concluded holds its final response (R469). -/
theorem conclude_holds (hxl : xlUp m = true) :
    onlyAnswers m (conclude m e.jseq st status result epoch) ∧
      (jentry? (conclude m e.jseq st status result epoch) e.jseq).map (·.held) = some (e.finalResps status result) := by
  rw [conclude_up st status epoch result hj hses hxl]
  refine ⟨(((onlyAnswers_setEntry ..).trans (onlyAnswers_xlSend ..)).trans (onlyAnswers_cacheFinal ..)).trans
    (onlyAnswers_setEntry ..), ?_⟩
  generalize hm : setEntry m e.jseq (.concluded m st status epoch) = m₁
  have hj₁ : jentry? m₁ e.jseq = some (e.concluded m st status epoch) := by
    rw [← hm, jentry?_setEntry_same (f := .concluded m st status epoch) _ _ fun _ => rfl, hj]; rfl
  rw [jentry?_setEntry_same (f := fun x => { x with held := e.finalResps status result }) _ _ fun _ => rfl,
    jentry?_cacheFinal, jentry?_xlSend, hj₁]
  rfl

/-- With no bundle up an entry that is concluded posts its final response in the ring of its session (R404). -/
theorem conclude_posts (hxl : xlUp m = false) (hun : m.pr.unprot = true) (hdeaf : e.deaf = false) (hlive : live m e.ses = true)
    (htail : (win m e.ses).respTail < 65536) :
    onlyAnswers m (conclude m e.jseq st status result epoch) ∧
      posted m (conclude m e.jseq st status result epoch) e.ses = e.finalResps status result := by
  rw [conclude_down st status epoch result hj hses hxl hun]
  refine ⟨(((onlyAnswers_setEntry ..).trans (onlyAnswers_cacheFinal ..)).trans (onlyAnswers_postRoom ..)).trans
    (onlyAnswers_retire _), ?_⟩
  have hlen : (e.finalResps status result).length ≤ 256 := (length_mkResps ..).trans (by decide)
  exact posted_of_push htail hlen (win_postRoom _ hdeaf ((live_cacheFinal ..).trans hlive))
end

/-- A change set that its admission commits is committed as a whole, where the admission leaves the control block and the bundles alone
(R411, R469). -/
theorem commits_of_commit {s : State} {e : JEntry} {cmd : Cmd} {items : List Item} {m : Mach} (h : commitsNext s.toMach e = true)
    (he : e.cmd = cmd) (hc : commitCmd (commitCtx s.toMach e) cmd s.toMach = .commit m items) (hctl : m.ctl = s.ctl)
    (hpr : m.pr = s.pr) (hxl : xlUp m = xlUp s.toMach) : Commits s e items m := by
  subst he
  obtain ⟨-, hj, -, hidle, hmirror, haligned, -, hses, hdeaf, hlive, htail⟩ := commitsNext_iff.1 h
  have hnext := commitNext_of_commitsNext h fun _ _ _ hd => by rw [hd] at hc; cases hc
  generalize hn : newEpoch s.toMach m (s.xb.epoch + 1) = n
  have hnctl : n.ctl = s.ctl := by rw [← hn]; exact hctl
  have hnxl : xlUp n = xlUp s.toMach := by rw [← hn]; exact hxl
  have hnj : jentry? n e.jseq = some e := by rw [jentry?_of_journal (congrArg Ctl.journal hnctl)]; exact hj
  have hnidle : ringsIdle n = true := by rw [ringsIdle, hnctl]; exact hidle
  generalize hu : conclude n e.jseq 1 sDone (layout (.q (s.xb.epoch + 1) :: items)) (s.xb.epoch + 1) = u
  have hexec (honly : onlyAnswers n u) : exec .changeSetCommit s = .next { s with toMach := u } := by
    have hserve : serveRings u = u := engine_idle _ _ (honly.ringsIdle.trans hnidle)
    rw [← hserve, ← hu, ← hn, ← commitEntry_commit haligned hc, ← hnext]
    rfl
  have hsame (honly : onlyAnswers n u) :
      u = { m with ctl := u.ctl, pr := { m.pr with sentXl := u.pr.sentXl }, xb := nextEpoch s m.xb } :=
    honly.eq.trans (by rw [← hn]; rfl)
  cases hup : xlUp s.toMach with
  | true =>
    obtain ⟨honly, hheld⟩ := conclude_holds 1 sDone (s.xb.epoch + 1) (layout (.q (s.xb.epoch + 1) :: items)) hnj hses (hnxl.trans hup)
    rw [hu] at honly hheld
    exact ⟨_, hexec honly, hsame honly, fun hdown => by simp [hup] at hdown, fun _ => hheld⟩
  | false =>
    have hun : n.pr.unprot = true := by
      rw [← hn]; simpa [mirrorSettled, hup, newEpoch, hpr] using hmirror
    obtain ⟨honly, hposts⟩ := conclude_posts 1 sDone (s.xb.epoch + 1) (layout (.q (s.xb.epoch + 1) :: items)) hnj hses (hnxl.trans hup)
      hun hdeaf (by rw [live, ses, hnctl]; exact hlive) (by rw [win, hnctl]; exact htail)
    rw [hu] at honly hposts
    refine ⟨_, hexec honly, hsame honly, fun _ => ?_, fun hxup => by simp [hup] at hxup⟩
    rwa [posted_of_ctl hnctl] at hposts

/-- What a commit leaves of the crossbar and of the compositors. -/
theorem answers_of_commits {s : State} {e : JEntry} {items : List Item} {m : Mach} {P : State → Prop} (h : Commits s e items m)
    (hP : ∀ t : State, t.xb = nextEpoch s m.xb → t.cmp = m.cmp → P t) : Answers .changeSetCommit s P := by
  obtain ⟨t, ht, hsame, -⟩ := h
  exact ⟨t, ht, hP t (by rw [hsame]) (by rw [hsame])⟩

end Sys2Proof.Machine

/-! SUPPORT. The compositors' commands: what the admission of each answers, for the forms that O20 speaks of. -/
namespace Sys2Proof.Machine
open Sys2Proof.Safety

@[simp] theorem cmpr_setCmp_same (m : Mach) (k : Nat) (f : Cmp → Cmp) : cmpr (setCmp m k f) k = f (cmpr m k) :=
  tget_tmod_same _ _ _ _ _
theorem cmpr_setCmp_other (m : Mach) {j k : Nat} (f : Cmp → Cmp) (h : j ≠ k) : cmpr (setCmp m k f) j = cmpr m j :=
  tget_tmod_other _ _ _ _ h

theorem cmpr_of_cmp {m m' : Mach} (h : m'.cmp = m.cmp) (k : Nat) : cmpr m' k = cmpr m k := by
  simp only [cmpr, h]

/-- A committed layout is in force for admission, and waits for its plane's next switch point. -/
theorem cmpr_putLayout (m : Mach) (k : Nat) (l : Layout) :
    cmpr (putLayout m k l) k = { cmpr m k with com := l, pend := (cmpr m k).pend ++ [(l.plane, target m l.plane, l)] } :=
  cmpr_setCmp_same ..

/-- CMP_BIND that leaves the plane sets the layout's dither, background and audio window (R222). -/
theorem commitCmpBind_stays {m : Mach} {k p dither audwin back : Nat} (hk : k < 32)
    (hp : p = 255 ∨ (p < 16 ∧ p = (cmpr m k).com.plane ∧ (plane m p).fmt.scan = 0)) (hd : dither ≤ 3)
    (ha : audwin ≤ 63 ∨ audwin = 127) (hb : back < 2 ^ 30) :
    commitCmpBind k p dither audwin back m = .done (putLayout m k { (cmpr m k).com with dither, audwin, back }) := by
  unfold commitCmpBind
  dsimp only
  rw [if_neg (by omega), if_neg (by rintro ⟨h255, hscan⟩; tauto), if_pos (by tauto)]

theorem winRecords_one {m : Mach} {k : Nat} {l : Layout} {d : List Byte} {r : Nat × Option Win} (h : winRecord m k l d = some r) :
    winRecords m k l [d] [] = .inr [r] := by
  simp [winRecords, h]

theorem regionRecords_one {f : Fmt} {ep : Nat} {d : List Byte} {r : Nat × Option Region} (h : regionRecord f ep d = some r) :
    regionRecords f ep [d] [] = .inr [r] := by
  simp [regionRecords, h]

/-- CMP_LAYOUT of one record that places a window where there was none: the new layout is put, with the window's hold (R224, R225). -/
theorem commitCmpLayout_one {m : Mach} {c : CCtx} {k i : Nat} {w : Win} {l : Layout} (hk : k < 32)
    (hrec : winRecord m k (cmpr m k).com (sub c.data 0 32) = some (i, some w)) (hnew : tget? i (cmpr m k).com.wins = none)
    (hfrozen : (cmpr m k).com.frozen = [])
    (hadmit : admitRates (plane m (cmpr m k).com.plane).fmt (plane m (cmpr m k).com.plane).fmt (cmpr m k).com [(i, some (markWin m w))]
      (markScan m { (cmpr m k).com with wins := tset (cmpr m k).com.wins i w }) = .inl l)
    (hcap : capStep m m.xb.holds [(0, holdOf k (cmpr m k).com.plane i w.src)] = none) :
    ∃ gone, commitCmpLayout c k 1 m =
      .done (putLayout (setCmp { m with xb := { m.xb with holds := gone ++ [holdOf k (cmpr m k).com.plane i w.src] } } k id) k l) := by
  unfold commitCmpLayout
  rw [if_neg (by omega)]
  dsimp only
  rw [show (List.range 1).map (fun i => sub c.data (32 * i) 32) = [sub c.data 0 32] from rfl, winRecords_one hrec]
  simp only [hfrozen] at hadmit
  simp only [List.foldl_cons, List.foldl_nil, List.map_cons, List.map_nil, Option.map_some, List.zipIdx_cons, List.zipIdx_nil,
    List.filterMap_cons, List.filterMap_nil, hfrozen, hnew, List.filter_nil, List.append_nil, hadmit, hcap, Bool.false_eq_true, if_false]
  exact ⟨_, rfl⟩

/-- CMP_GUARD of one record sets the region, or takes it away (R235). -/
theorem commitCmpGuard_one {m : Mach} {c : CCtx} {k i : Nat} {r : Option Region} (hk : k < 32)
    (hrec : regionRecord (plane m (cmpr m k).com.plane).fmt c.ep (sub c.data 0 32) = some (i, r)) :
    commitCmpGuard c k 1 m = .done (putLayout m k { (cmpr m k).com with
      regions := match (generalizing := false) r with
        | some w => tset (cmpr m k).com.regions i w
        | none => tdel (cmpr m k).com.regions i }) := by
  unfold commitCmpGuard
  rw [if_neg (by omega)]
  dsimp only
  rw [show (List.range 1).map (fun i => sub c.data (32 * i) 32) = [sub c.data 0 32] from rfl, regionRecords_one hrec]
  cases r <;> rfl

/-- CMP_FREEZE of a window that is not frozen takes a frame buffer for it, and ends its hold (R240). -/
theorem commitCmpFreeze_on {m : Mach} {k w : Nat} (hk : k < 32) (hw : (tget? w (cmpr m k).com.wins).isSome = true)
    (hf : (cmpr m k).com.frozen.contains w = false) (hfree : fbFree m m.xb.holds ≠ 0) :
    commitCmpFreeze k w 1 m = .done (putLayout
      { m with xb := { m.xb with
        holds := endHolds m.xb.holds (winHold k w) (cmpr m k).com.plane (target m (cmpr m k).com.plane) } } k
      { (cmpr m k).com with frozen := (cmpr m k).com.frozen ++ [w] }) := by
  obtain ⟨x, hx⟩ := Option.isSome_iff_exists.1 hw
  unfold commitCmpFreeze
  dsimp only
  simp only [hx, hf]
  rw [if_neg (by omega), if_neg (by simp), if_pos trivial, if_neg hfree]

/-- CMP_FREEZE that ends a freeze holds the window's source again; the frozen picture's buffer waits for its return (R240). -/
theorem commitCmpFreeze_off {m : Mach} {k w : Nat} {x : Win} (hk : k < 32) (hw : tget? w (cmpr m k).com.wins = some x)
    (hf : (cmpr m k).com.frozen.contains w = true)
    (hcap : capStep m m.xb.holds [(0xFFFF, holdOf k (cmpr m k).com.plane w x.src)] = none) :
    commitCmpFreeze k w 0 m = .done (putLayout
      (setCmp { m with xb := { m.xb with holds := m.xb.holds ++ [holdOf k (cmpr m k).com.plane w x.src] } } k
        fun c => { c with thaw := c.thaw ++ [w] }) k
      { (cmpr m k).com with frozen := (cmpr m k).com.frozen.filter (· != w) }) := by
  unfold commitCmpFreeze
  dsimp only
  simp only [hw, hf, hcap]
  rw [if_neg (by omega), if_neg (by simp), if_neg (by simp)]

/-- CMP_COEF loads a set whose words and phases are sound (R232). -/
theorem commitCmpCoef_loads {m : Mach} {c : CCtx} {k n : Nat} (hk : k < 32) (h4 : 4 ≤ n) (h7 : n ≤ 7)
    (hs : (coefWords c.data).all signExtended = true) (hp : phasesOk ((coefWords c.data).map (ofBits 16)) = true) :
    commitCmpCoef c k n m =
      .done (putLayout m k { (cmpr m k).com with sets := tset (cmpr m k).com.sets n ((coefWords c.data).map (ofBits 16)) }) := by
  unfold commitCmpCoef
  dsimp only
  rw [if_neg (by simp [hs, hp]; omega)]

end Sys2Proof.Machine

namespace Sys2Proof.Proofs
open Sys2Proof.Machine Sys2Proof.Safety

/-- Settles O20: for each command the admission's answer, which the sequencer commits as it stands. -/
theorem compositorChangeSetsCommit : Obligations.CompositorChangeSetsCommit := by
  unfold Obligations.CompositorChangeSetsCommit
  refine ⟨?_, ?_, ?_, ?_, ?_, ?_⟩
  · intro s e k p dither audwin back h he hk l hp hd ha hb
    exact commits_of_commit h he (commitCmpBind_stays hk hp hd ha hb) rfl rfl rfl
  · intro s e k off i w l h he hk old hrec hnew hfrozen f hadmit hcap
    obtain ⟨gone, hc⟩ := commitCmpLayout_one (c := commitCtx s.toMach e) hk hrec hnew hfrozen hadmit hcap
    refine answers_of_commits (commits_of_commit h he hc rfl rfl rfl) fun t hxb hcmp => ?_
    rw [cmpr_of_cmp hcmp, hxb, cmpr_putLayout, cmpr_setCmp_same]
    exact ⟨rfl, rfl, rfl, List.mem_append_right _ (List.mem_singleton.2 rfl)⟩
  · intro s e k off i r h he hk l hrec regions
    exact commits_of_commit h he (commitCmpGuard_one (c := commitCtx s.toMach e) hk hrec) rfl rfl rfl
  · intro s e k w h he hk l hw hf hfree holds
    exact commits_of_commit h he (commitCmpFreeze_on hk hw hf hfree) rfl rfl rfl
  · intro s e k w x h he hk l hw hf hcap
    refine answers_of_commits (commits_of_commit h he (commitCmpFreeze_off hk hw hf hcap) rfl rfl rfl) fun t hxb hcmp => ?_
    rw [cmpr_of_cmp hcmp, hxb, cmpr_putLayout, cmpr_setCmp_same]
    exact ⟨rfl, rfl, rfl, rfl⟩
  · intro s e k n off h he hk h4 h7 hs hp l
    exact commits_of_commit h he (commitCmpCoef_loads (c := commitCtx s.toMach e) hk h4 h7 hs hp) rfl rfl rfl

end Sys2Proof.Proofs

/-! SUPPORT. Compositors between frames: what finishing a frame, storing it and choosing the windows' pictures leave, what the layout
instant latches, and which compositor is shed or restored. -/
namespace Sys2Proof.Machine
open Sys2Proof.Safety

/-! ### A notice displaces no record (R519) -/

/-- A C0 message keeps the keys of the table, also of a full one. -/
theorem faultKeys_recordMsg_notice {m : Mach} {x : Nat × Nat × Bool} (src kind : Nat) (msg : BitVec 64) (cond inj : Bool)
    (h : x ∈ faultKeys m) : x ∈ faultKeys (recordMsg m src kind 0 msg cond inj).1 := by
  unfold recordMsg
  dsimp only
  split
  case h_1 i hi =>
    simp only [faultKeys, reached_recs]
    rw [map_key_lmod]
    · exact h
    · exact fun r hr => by simp [lget, hr, FaultRec.key, FaultRec.join]
  case h_2 hi =>
    split
    · simp only [faultKeys, reached_recs, List.map_append]
      exact List.mem_append_left _ h
    · exact h

theorem recorded_raise_notice {m : Mach} {src kind : Nat} (src' kind' addr : Nat) (h : recorded m src kind = true) :
    recorded (raise m src' kind' 0 addr) src kind = true := by
  rw [recorded_iff] at h ⊢
  unfold raise takeFault
  dsimp only
  generalize hx : recordMsg _ src' kind' 0 _ _ _ = x
  have hkept : (src, kind, false) ∈ faultKeys x.1 := by rw [← hx]; exact faultKeys_recordMsg_notice _ _ _ _ _ h
  split
  · simpa [faultKeys] using hkept
  · cases x.2 with
    | none => exact hkept
    | some r => rw [faultKeys, map_key_supp]; exact hkept

theorem raise_cmp (m : Mach) (src kind cls addr : Nat) : (raise m src kind cls addr).cmp = m.cmp := by
  obtain ⟨-, -, -, -, -, -, -, hcmp, -⟩ := apartFromFaults_raise m src kind cls addr
  exact hcmp

/-! ### Steps that leave a compositor's frames alone -/

/-- CMP_`k`'s count of late lines is as it was, and every fault recorded still is. -/
structure keepsReports (k : Nat) (m m' : Mach) : Prop where
  late : (tget {} m'.cmp.cnts k).lateLine = (tget {} m.cmp.cnts k).lateLine
  recorded : ∀ src kind, recorded m src kind = true → recorded m' src kind = true

/-- Beside that the crossbar, the two frames of CMP_`k`'s output store and its frame count are as they were. -/
structure keepsFrames (k : Nat) (m m' : Mach) : Prop extends keepsReports k m m' where
  xb : m'.xb = m.xb
  out : (cmpr m' k).out = (cmpr m k).out
  prev : (cmpr m' k).prev = (cmpr m k).prev
  frames : (cmpr m' k).frames = (cmpr m k).frames

theorem keepsReports.trans {k : Nat} {a b c : Mach} (h : keepsReports k a b) (g : keepsReports k b c) : keepsReports k a c :=
  ⟨g.late.trans h.late, fun s n hr => g.recorded s n (h.recorded s n hr)⟩

theorem keepsReports_of_eq (k : Nat) {m m' : Mach} (hcnts : m'.cmp.cnts = m.cmp.cnts) (hflt : m'.flt = m.flt) : keepsReports k m m' :=
  ⟨by rw [hcnts], fun src kind => by simp only [recorded, hflt, imp_self]⟩

theorem keepsFrames.refl (k : Nat) (m : Mach) : keepsFrames k m m := ⟨keepsReports_of_eq k rfl rfl, rfl, rfl, rfl, rfl⟩

theorem keepsFrames.trans {k : Nat} {a b c : Mach} (h : keepsFrames k a b) (g : keepsFrames k b c) : keepsFrames k a c :=
  ⟨h.tokeepsReports.trans g.tokeepsReports, g.xb.trans h.xb, g.out.trans h.out, g.prev.trans h.prev, g.frames.trans h.frames⟩

/-- A fold that carries a result beside the machine keeps the frames if each of its steps does. -/
theorem keepsFrames_foldl_fst {α β : Type} (k : Nat) (g : Mach × β → α → Mach × β) (h : ∀ y x, keepsFrames k y.1 (g y x).1)
    (l : List α) (y : Mach × β) : keepsFrames k y.1 (l.foldl g y).1 := by
  induction l generalizing y with
  | nil => exact .refl k y.1
  | cons a l ih => exact (h y a).trans (ih (g y a))

theorem keepsFrames_of_onlyIs {k : Nat} {m m' : Mach} (h : onlyIs m m') : keepsFrames k m m' := by
  rw [h]; exact ⟨keepsReports_of_eq k rfl rfl, rfl, rfl, rfl, rfl⟩

theorem keepsFrames_setCmp {k : Nat} (m : Mach) {f : Cmp → Cmp}
    (hf : ∀ c, (f c).out = c.out ∧ (f c).prev = c.prev ∧ (f c).frames = c.frames) : keepsFrames k m (setCmp m k f) := by
  obtain ⟨hout, hprev, hframes⟩ := hf (cmpr m k)
  exact ⟨keepsReports_of_eq k rfl rfl, rfl, by rw [cmpr_setCmp_same, hout], by rw [cmpr_setCmp_same, hprev],
    by rw [cmpr_setCmp_same, hframes]⟩

theorem keepsFrames_setCmpCnt {k : Nat} (m : Mach) {f : CmpCnt → CmpCnt} (hf : ∀ c, (f c).lateLine = c.lateLine) :
    keepsFrames k m (setCmpCnt m k f) :=
  ⟨⟨by rw [setCmpCnt, tget_tmod_same, hf], fun _ _ => id⟩, rfl, rfl, rfl, rfl⟩

theorem keepsFrames_raise_notice (k : Nat) (m : Mach) (src kind addr : Nat) : keepsFrames k m (raise m src kind 0 addr) := by
  have hcmp := raise_cmp m src kind 0 addr
  have hcmpr := cmpr_of_cmp hcmp k
  exact ⟨⟨by rw [hcmp], fun _ _ => recorded_raise_notice _ _ _⟩, raise_xb .., by rw [hcmpr], by rw [hcmpr], by rw [hcmpr]⟩

/-- Choosing a window's picture moves what the window has read, and may report it cold (R224). -/
theorem keepsFrames_choosePic (k p i : Nat) (m : Mach) (w : Win) : keepsFrames k m (choosePic k p i m w).1 := by
  unfold choosePic
  dsimp only
  split
  · exact .refl k m
  · split
    · exact .refl k m
    · split
      · exact keepsFrames_setCmp m fun _ => ⟨rfl, rfl, rfl⟩
      · split
        · exact .refl k m
        · split
          · dsimp only
            split
            · refine keepsFrames.trans ?_ (keepsFrames_setCmpCnt _ fun _ => rfl)
              refine keepsFrames.trans ?_ (keepsFrames_raise_notice ..)
              exact keepsFrames_setCmp m fun _ => ⟨rfl, rfl, rfl⟩
            · exact .refl k m
          · refine keepsFrames.trans ?_ (keepsFrames_setCmp _ fun _ => ⟨rfl, rfl, rfl⟩)
            exact keepsFrames_setCmpCnt m fun _ => rfl

/-! ### The output store (R36, R43, R85) -/

theorem onlyIs_storeFrame (m : Mach) (k : Nat) : onlyIs m (storeFrame m k) := by
  unfold storeFrame
  dsimp only
  split <;> rfl

theorem onlyIs_beginStore (m : Mach) (k : Nat) : onlyIs m (beginStore m k) := by
  unfold beginStore
  dsimp only
  split
  · rfl
  · split <;> rfl

theorem cmp_of_onlyIs {m m' : Mach} (h : onlyIs m m') : m'.cmp = m.cmp := by rw [h]

/-- AUDWIN's change of source moves the audio domain alone (R241). -/
theorem noteAudwin_aud (m : Mach) (k : Nat) (before : Option (Nat × Nat)) :
    noteAudwin m k before = { m with aud := (noteAudwin m k before).aud } := by
  unfold noteAudwin
  split <;> rfl

/-! ### The finished frame (R225, R226) -/

/-- A picture as it stands depends on the sources, the generators and the compositors. -/
theorem picImage_congr {m m' : Mach} (his : m'.is_ = m.is_) (hxb : m'.xb = m.xb) (hcmps : m'.cmp.cmps = m.cmp.cmps) (f : Fmt)
    (count : Nat) (p : Pic) : picImage m' f count p = picImage m f count p := by
  cases p with
  | black => rfl
  | rows => rfl
  | sync s => simp only [picImage, srcOf, his]
  | gen g => simp only [picImage, genNow, hxb]
  | cmp k => simp only [picImage, cmpr, hcmps]

theorem cmpr_finish (m : Mach) (k : Nat) (late : List Nat) :
    cmpr (finish m k late) k = { cmpr m k with
      prev := (cmpr m k).out, out := (cmpr (finish m k late) k).out, ice := (cmpr (finish m k late) k).ice } := by
  simp only [finish, cmpr_setCmp_same]

theorem out_finish_congr {m m' : Mach} (his : m'.is_ = m.is_) (hxb : m'.xb = m.xb) (hcmps : m'.cmp.cmps = m.cmp.cmps) (k : Nat)
    (late : List Nat) : (cmpr (finish m' k late) k).out = (cmpr (finish m k late) k).out := by
  have hc : cmpr m' k = cmpr m k := by simp only [cmpr, hcmps]
  simp only [finish, cmpr_setCmp_same, hc, picImage_congr his hxb hcmps]

/-- With no guarded region the finished frame is checked at once. -/
theorem checkRegions_none {m : Mach} {k : Nat} (h : (cmpr m k).out.layout.regions = []) : checkRegions m k = m := by
  simp [checkRegions, h]

/-! ### The layout in force (R223) -/

theorem plane_of_xb {m m' : Mach} (hxb : m'.xb = m.xb) (p : Nat) : plane m' p = plane m p := by
  simp only [plane, hxb]

theorem latchFrom_congr {m m' : Mach} (hxb : m'.xb = m.xb) (l : List (Nat × Nat × Layout)) : latchFrom m' l = latchFrom m l := by
  induction l with
  | nil => rfl
  | cons x l ih => rw [latchFrom, latchFrom, ih, plane_of_xb hxb]

theorem latchLayout_congr {m m' : Mach} {c c' : Cmp} (hxb : m'.xb = m.xb) (hpend : c'.pend = c.pend) (hlat : c'.lat = c.lat) :
    latchLayout m' c' = latchLayout m c := by
  simp only [latchLayout, hpend, hlat, latchFrom_congr hxb]

/-! ### The layout instant (R223, R226, R242) -/

/-- The machine once CMP_`k` has finished its frame; one that was shed until now has none to finish. -/
def frameDone (k : Nat) (late : List Nat) (m : Mach) : Mach := if (cmpr m k).idle then m else finish m k late

theorem frameDone_eq (k : Nat) (late : List Nat) (m : Mach) :
    frameDone k late m = { m with cmp := { m.cmp with cmps := (frameDone k late m).cmp.cmps } } := by
  unfold frameDone
  split <;> rfl

theorem cmpr_frameDone (k : Nat) (late : List Nat) (m : Mach) :
    cmpr (frameDone k late m) k = { cmpr m k with
      prev := if (cmpr m k).idle then (cmpr m k).prev else (cmpr m k).out
      out := if (cmpr m k).idle then (cmpr m k).out else (cmpr (finish m k late) k).out
      ice := (cmpr (frameDone k late m) k).ice } := by
  unfold frameDone
  split
  · rfl
  · exact cmpr_finish m k late

theorem prev_frameDone (k : Nat) (late : List Nat) (m : Mach) :
    (cmpr (frameDone k late m) k).prev = if (cmpr m k).idle then (cmpr m k).prev else (cmpr m k).out := by rw [cmpr_frameDone]

theorem out_frameDone (k : Nat) (late : List Nat) (m : Mach) :
    (cmpr (frameDone k late m) k).out = if (cmpr m k).idle then (cmpr m k).out else (cmpr (finish m k late) k).out := by
  rw [cmpr_frameDone]

/-- With no guarded region the frame that is finished is stored as it is. -/
theorem frameDone_of_none {k : Nat} {late : List Nat} {m : Mach} (h : (cmpr m k).lat.layout.regions = []) :
    (if (cmpr m k).idle then m else checkRegions (finish m k late) k) = frameDone k late m := by
  have hout : (cmpr (finish m k late) k).out.layout = (cmpr m k).lat.layout := by simp only [finish, cmpr_setCmp_same]
  rw [checkRegions_none (by rw [hout, h])]
  rfl

/-- What a compositor without guarded regions has latched at its layout instant: the layout in force, for the frame that its plane begins;
the frame it has finished is the newer of its output store. -/
structure latches (k : Nat) (late : List Nat) (m m' : Mach) : Prop where
  xb : m'.xb = m.xb
  layout : (cmpr m' k).lat.layout = (latchLayout m (cmpr m k)).1
  fmt : (cmpr m' k).lat.fmt = (plane m (latchLayout m (cmpr m k)).1.plane).fmt
  count : (cmpr m' k).lat.count = (plane m (latchLayout m (cmpr m k)).1.plane).nextSw
  frames : (cmpr m' k).frames = ((cmpr m k).frames + 1) % 2 ^ 32
  prev : (cmpr m' k).prev = (cmpr (frameDone k late m) k).prev
  out : (cmpr m' k).out = (cmpr (frameDone k late m) k).out
  idle : (cmpr m' k).idle = false

/-- The same from a machine with the same crossbar, input stages and compositors. -/
theorem latches.congr {k : Nat} {late : List Nat} {a b m' : Mach} (h : latches k late b m') (hxb : b.xb = a.xb) (his : b.is_ = a.is_)
    (hcmps : b.cmp.cmps = a.cmp.cmps) : latches k late a m' := by
  have hc : cmpr b k = cmpr a k := by simp only [cmpr, hcmps]
  have hl : latchLayout b (cmpr a k) = latchLayout a (cmpr a k) := latchLayout_congr hxb rfl rfl
  obtain ⟨hx, hlayout, hfmt, hcount, hframes, hprev, hout, hidle⟩ := h
  simp only [hl, plane_of_xb hxb, prev_frameDone, out_frameDone, hc, out_finish_congr his hxb hcmps]
    at hlayout hfmt hcount hframes hprev hout
  exact ⟨hx.trans hxb, hlayout, hfmt, hcount, hframes, by rw [hprev, prev_frameDone], by rw [hout, out_frameDone], hidle⟩

/-- The end of a layout instant: the compositor takes what `g` gives it, and its next frame begins. -/
theorem latches_of_keepsFrames {k : Nat} {late : List Nat} {m m₂ : Mach} {g : Cmp → Cmp} (before : Option (Nat × Nat))
    (hkeep : keepsFrames k (frameDone k late m) m₂)
    (hg : ∀ c, (g c).lat.layout = (latchLayout m (cmpr m k)).1 ∧
      (g c).lat.fmt = (plane m (latchLayout m (cmpr m k)).1.plane).fmt ∧
      (g c).lat.count = (plane m (latchLayout m (cmpr m k)).1.plane).nextSw ∧
      (g c).frames = (c.frames + 1) % 2 ^ 32 ∧ (g c).prev = c.prev ∧ (g c).out = c.out ∧ (g c).idle = false) :
    latches k late m (noteAudwin (beginStore (setCmp m₂ k g) k) k before) ∧
      keepsReports k m (noteAudwin (beginStore (setCmp m₂ k g) k) k before) := by
  obtain ⟨hreports, hxb, hout, hprev, hframes⟩ := hkeep
  obtain ⟨hlayout, hfmt, hcount, hgframes, hgprev, hgout, hidle⟩ := hg (cmpr m₂ k)
  rw [noteAudwin_aud, show beginStore (setCmp m₂ k g) k = _ from onlyIs_beginStore ..]
  have hdone := frameDone_eq k late m
  have hcmpr : cmpr (setCmp m₂ k g) k = g (cmpr m₂ k) := cmpr_setCmp_same ..
  have hbefore : keepsReports k m (frameDone k late m) := keepsReports_of_eq k (by rw [hdone]) (by rw [hdone])
  refine ⟨?_, (hbefore.trans hreports).trans (keepsReports_of_eq k rfl rfl)⟩
  constructor
  case xb => exact hxb.trans (by rw [hdone])
  case frames => exact (congrArg Cmp.frames hcmpr).trans (hgframes.trans (by rw [hframes, cmpr_frameDone]))
  case layout => exact (congrArg (·.lat.layout) hcmpr).trans hlayout
  case fmt => exact (congrArg (·.lat.fmt) hcmpr).trans hfmt
  case count => exact (congrArg (·.lat.count) hcmpr).trans hcount
  case prev => exact (congrArg Cmp.prev hcmpr).trans (hgprev.trans hprev)
  case out => exact (congrArg Cmp.out hcmpr).trans (hgout.trans hout)
  case idle => exact (congrArg Cmp.idle hcmpr).trans hidle

/-- A window of the latched layout keeps its stored picture while it is frozen; another takes the one that it reads now (R224, R240). -/
def readWindow (k : Nat) (l : Layout) (c : Cmp) (a : Mach × Tab Pic) (x : Nat × Win) : Mach × Tab Pic :=
  match (if l.frozen.contains x.1 then tget? x.1 c.ice else none) with
  | some p => (a.1, tset a.2 x.1 p)
  | none =>
    let (m, p) := choosePic k l.plane x.1 a.1 x.2
    (m, tset a.2 x.1 p)

theorem keepsFrames_readWindow (k : Nat) (l : Layout) (c : Cmp) (a : Mach × Tab Pic) (x : Nat × Win) :
    keepsFrames k a.1 (readWindow k l c a x).1 := by
  unfold readWindow
  split
  · exact .refl k _
  · exact keepsFrames_choosePic ..

/-- A compositor without guarded regions latches, and its notices of cold windows displace no record (R224, R226). -/
theorem compose_latches {k : Nat} {m : Mach} (late : List Nat) (h : (cmpr m k).lat.layout.regions = []) :
    latches k late m (compose k late m) ∧ keepsReports k m (compose k late m) := by
  unfold compose
  rw [frameDone_of_none h]
  extract_lets m₁ c old
  have hstore : onlyIs (frameDone k late m) m₁ := onlyIs_storeFrame ..
  have hxb : m₁.xb = m.xb := by rw [hstore, frameDone_eq]
  have hc : c = cmpr (frameDone k late m) k := cmpr_of_cmp (cmp_of_onlyIs hstore) k
  have hl := latchLayout_congr (c := cmpr m k) (c' := c) hxb (by rw [hc, cmpr_frameDone]) (by rw [hc, cmpr_frameDone])
  generalize latchLayout m₁ c = latched at hl ⊢
  obtain ⟨l, rest⟩ := latched
  have hread : keepsFrames k m₁ (l.wins.foldl (readWindow k l c) (m₁, [])).1 :=
    keepsFrames_foldl_fst k _ (keepsFrames_readWindow k l c) _ (m₁, [])
  refine latches_of_keepsFrames _ ((keepsFrames_of_onlyIs hstore).trans hread) fun c' =>
    ⟨congrArg Prod.fst hl, ?_, ?_, rfl, rfl, rfl, rfl⟩
  · exact congrArg Plane.fmt (hl ▸ plane_of_xb hxb _)
  · exact congrArg Plane.nextSw (hl ▸ plane_of_xb hxb _)

/-- The instant for which the plane's frame is latched already changes nothing. -/
theorem layoutInstant_again {k : Nat} {late : List Nat} {m : Mach}
    (h : (cmpr m k).lat.count = (plane m (latchLayout m (cmpr m k)).1.plane).nextSw ∧
      (cmpr m k).lat.layout.plane = (latchLayout m (cmpr m k)).1.plane) : layoutInstant k late m = m := if_pos h

/-- A late line is counted and reported (R226). -/
def noteLateLine (k : Nat) (m : Mach) : Mach :=
  raise (setCmpCnt m k fun c => { c with lateLine := sat c.lateLine 1 }) (cmpSrc k) 0x41 1

theorem layoutInstant_composes {k : Nat} {late : List Nat} {m : Mach} (hshed : (cmpr m k).shed = false)
    (h : ¬ ((cmpr m k).lat.count = (plane m (latchLayout m (cmpr m k)).1.plane).nextSw ∧
      (cmpr m k).lat.layout.plane = (latchLayout m (cmpr m k)).1.plane)) :
    layoutInstant k late m = compose k late (late.foldl (fun m _ => noteLateLine k m) m) :=
  (if_neg h).trans (if_neg (by simp [hshed]))

/-- A shed compositor counts a frame, for which its last one stands (R242). -/
def repeatFrame (k : Nat) (m : Mach) : Mach :=
  setCmp m k fun c => { c with
    lat := { c.lat with count := (plane m (latchLayout m (cmpr m k)).1.plane).nextSw }
    frames := (c.frames + 1) % 2 ^ 32, idle := true }

theorem layoutInstant_shed {k : Nat} {late : List Nat} {m : Mach} (hshed : (cmpr m k).shed = true)
    (h : (cmpr m k).lat.count ≠ (plane m (latchLayout m (cmpr m k)).1.plane).nextSw) :
    onlyIs (repeatFrame k m) (layoutInstant k late m) := by
  have hinstant : layoutInstant k late m = beginStore (storeFrame (repeatFrame k m) k) k :=
    (if_neg fun hboth => h hboth.1).trans (if_pos hshed)
  rw [hinstant]
  exact (onlyIs_storeFrame ..).trans (onlyIs_beginStore ..)

/-- A late line leaves the crossbar, the input stages and the compositors themselves. -/
theorem noteLateLine_keeps (k : Nat) (m : Mach) :
    (noteLateLine k m).xb = m.xb ∧ (noteLateLine k m).is_ = m.is_ ∧ (noteLateLine k m).cmp.cmps = m.cmp.cmps :=
  ⟨raise_xb .., raise_is .., by rw [noteLateLine, raise_cmp]; rfl⟩

theorem lateLine_noteLateLine (k : Nat) (m : Mach) :
    (tget {} (noteLateLine k m).cmp.cnts k).lateLine = sat (tget {} m.cmp.cnts k).lateLine 1 := by
  rw [noteLateLine, raise_cmp, setCmpCnt, tget_tmod_same]

theorem recorded_noteLateLine (k : Nat) {m : Mach} (h : tableRoom m = true) : recorded (noteLateLine k m) (cmpSrc k) 0x41 = true :=
  recorded_raise _ _ _ _ _ h

/-! ### Shedding (R242, R274) -/

/-- The highest index of a range that satisfies a predicate is the one found from above. -/
theorem find?_reverse_range {n k : Nat} {p : Nat → Bool} (hk : k < n) (hp : p k = true) (habove : ∀ j < n, k < j → p j = false) :
    (List.range n).reverse.find? p = some k := by
  induction n with
  | zero => omega
  | succ n ih =>
    rw [List.range_succ, List.reverse_append, List.reverse_singleton, List.singleton_append]
    rcases Nat.lt_or_eq_of_le (Nat.lt_succ_iff.1 hk) with hlt | rfl
    · rw [List.find?_cons_of_neg (by simp [habove n (by omega) hlt]), ih hlt fun j hj => habove j (by omega)]
    · rw [List.find?_cons_of_pos hp]

theorem cmpr_restartGuards (m : Mach) (k : Nat) :
    (cmpr (restartGuards m k) k).shed = (cmpr m k).shed ∧ ∀ j ≠ k, cmpr (restartGuards m k) j = cmpr m j :=
  ⟨by rw [restartGuards, cmpr_setCmp_same], fun _ hj => cmpr_setCmp_other _ _ hj⟩

/-- The machine once CMP_`k` has been shed or restored. -/
def setShed (m : Mach) (k : Nat) (b : Bool) : Mach := restartGuards (setCmp m k fun c => { c with shed := b }) k

theorem cmpr_setShed (m : Mach) (k : Nat) (b : Bool) :
    (cmpr (setShed m k b) k).shed = b ∧ ∀ j ≠ k, cmpr (setShed m k b) j = cmpr m j := by
  obtain ⟨hsame, hother⟩ := cmpr_restartGuards (setCmp m k fun c => { c with shed := b }) k
  exact ⟨hsame.trans (by rw [cmpr_setCmp_same]), fun j hj => (hother j hj).trans (cmpr_setCmp_other _ _ hj)⟩

theorem shedOne_idle {m : Mach} (h : caseHot m = false ∨ m.now < m.cmp.stepAt) : shedOne m = m := by
  refine if_pos ?_
  rcases h with h | h
  · simp [h]
  · simp [shedDue, h]

theorem shedOne_sheds {m : Mach} {k : Nat} (hk : k < 32) (hhot : caseHot m = true) (hdue : m.cmp.stepAt ≤ m.now)
    (hshed : (cmpr m k).shed = false) (habove : ∀ j < 32, k < j → (cmpr m j).shed = true) :
    shedOne m = raise (setShed (shedNext m) k true) (cmpSrc k) 0x43 1 := by
  have hfind : ((List.range 32).reverse.find? fun k => !(cmpr m k).shed) = some k :=
    find?_reverse_range hk (by simp [hshed]) fun j hj hkj => by simp [habove j hj hkj]
  unfold shedOne
  rw [if_neg (by simp [hhot, shedDue, hdue]), hfind]
  rfl

/-- A cluster's metering is restored before the compositor, if one is shed. -/
theorem metersRestore_keeps (m : Mach) :
    (metersRestore m).aud.shedClusters = m.aud.shedClusters - 1 ∧ (metersRestore m).cmp = m.cmp ∧ (metersRestore m).now = m.now := by
  unfold metersRestore
  split
  next h => exact ⟨by rw [h], rfl, rfl⟩
  next h =>
    obtain ⟨hnow, -, -, -, -, -, -, hcmp, haud, -⟩ := apartFromFaults_endCond
      { m with aud := { m.aud with shedClusters := m.aud.shedClusters - 1 } } (0xC70 + (16 - m.aud.shedClusters)) 0x51
    exact ⟨by rw [haud], hcmp, hnow⟩

theorem restoreOne_idle {m : Mach} (h : caseCool m = false ∨ m.now < m.cmp.stepAt) : restoreOne m = m := by
  refine if_pos ?_
  rcases h with h | h
  · simp [h]
  · simp [shedDue, h]

theorem restoreOne_restores {m : Mach} {k : Nat} (hk : k < 32) (hcool : caseCool m = true) (hdue : m.cmp.stepAt ≤ m.now)
    (hshed : (cmpr m k).shed = true) (hbelow : ∀ j < k, (cmpr m j).shed = false) :
    restoreOne m = endCond (setShed (shedNext (metersRestore m)) k false) (cmpSrc k) 0x43 := by
  have hcmpr (j : Nat) : cmpr (shedNext (metersRestore m)) j = cmpr m j := by
    obtain ⟨-, hcmp, -⟩ := metersRestore_keeps m
    rw [← cmpr_of_cmp hcmp]; rfl
  have hfind : ((List.range 32).find? fun k => (cmpr (shedNext (metersRestore m)) k).shed) = some k := by
    rw [List.find?_range_eq_some]
    exact ⟨by rw [hcmpr, hshed], List.mem_range.2 hk, fun j hj => by rw [hcmpr, hbelow j hj]; rfl⟩
  unfold restoreOne
  rw [if_neg (by simp [hcool, shedDue, hdue])]
  dsimp only
  rw [hfind]
  rfl

theorem metersShed_idle {m : Mach}
    (h : allShed m = false ∨ m.flt.caseTemp ≤ 105 * 128 ∨ 16 ≤ m.aud.shedClusters ∨ m.now < m.cmp.stepAt) : metersShed m = m := by
  refine if_neg ?_
  simp only [caseHot, shedDue, Bool.and_eq_true, decide_eq_true_eq]
  rintro ⟨⟨⟨hall, hhot⟩, hdue⟩, hleft⟩
  rcases h with h | h | h | h
  · simp [hall] at h
  · omega
  · omega
  · omega

theorem metersShed_sheds {m : Mach} (hall : allShed m = true) (hhot : 105 * 128 < m.flt.caseTemp) (hleft : m.aud.shedClusters < 16)
    (hdue : m.cmp.stepAt ≤ m.now) :
    metersShed m = raise { shedNext m with aud := { m.aud with shedClusters := m.aud.shedClusters + 1 } }
      (0xC70 + (15 - m.aud.shedClusters)) 0x51 1 :=
  if_pos (by simp only [caseHot, shedDue, hall, hhot, hdue, hleft, decide_true, Bool.and_self])

end Sys2Proof.Machine

namespace Sys2Proof.Proofs
open Sys2Proof.Machine Sys2Proof.Safety

/-! What the events do, for the case that a clause speaks of. -/

/-- A shed compositor's layout instant (R242). -/
theorem cmpLayoutInstant_shed {s : State} {k : Nat} (late : List Nat) (hk : k < 32) (hshed : (cmpr s.toMach k).shed = true)
    (hcount : (cmpr s.toMach k).lat.count ≠ (plane s.toMach (latchLayout s.toMach (cmpr s.toMach k)).1.plane).nextSw) :
    Answers (.cmpLayoutInstant k late) s fun t => t.toMach = { s.toMach with cmp := t.cmp, is_ := t.is_ } ∧
      cmpr t.toMach k = cmpr (repeatFrame k s.toMach) k := by
  have honly := layoutInstant_shed (late := late) hshed hcount
  refine answers_of_runIf rfl (decide_eq_true hk) ⟨?_, cmpr_of_cmp (cmp_of_onlyIs honly) k⟩
  dsimp only
  rw [honly]
  rfl

/-- The highest-numbered compositor in service is shed (R242). -/
theorem compositorShed_sheds {s : State} {k : Nat} (hk : k < 32) (hhot : caseHot s.toMach = true) (hdue : s.cmp.stepAt ≤ s.now)
    (hshed : (cmpr s.toMach k).shed = false) (habove : ∀ j < 32, k < j → (cmpr s.toMach j).shed = true)
    (hroom : tableRoom s.toMach = true) :
    Answers .compositorShed s fun t => (cmpr t.toMach k).shed = true ∧ recorded t.toMach (cmpSrc k) 0x43 = true ∧
      t.cmp.stepAt = s.now + 100 * msT ∧ ∀ j < 32, j ≠ k → cmpr t.toMach j = cmpr s.toMach j := by
  have hcmp := raise_cmp (setShed (shedNext s.toMach) k true) (cmpSrc k) 0x43 1 0
  obtain ⟨hsame, hother⟩ := cmpr_setShed (shedNext s.toMach) k true
  refine answers_of_run rfl ?_
  dsimp only
  rw [shedOne_sheds hk hhot hdue hshed habove, hcmp]
  simp only [cmpr_of_cmp hcmp]
  exact ⟨hsame, recorded_raise _ _ _ _ _ hroom, rfl, fun j _ hj => hother j hj⟩

/-- The lowest-numbered shed compositor is restored, and a cluster's metering beside it (R242, R274). -/
theorem compositorRestore_restores {s : State} {k : Nat} (hk : k < 32) (hcool : caseCool s.toMach = true)
    (hdue : s.cmp.stepAt ≤ s.now) (hshed : (cmpr s.toMach k).shed = true) (hbelow : ∀ j < k, (cmpr s.toMach j).shed = false) :
    Answers .compositorRestore s fun t => (cmpr t.toMach k).shed = false ∧ t.aud.shedClusters = s.aud.shedClusters - 1 ∧
      t.cmp.stepAt = s.now + 100 * msT ∧ ∀ j < 32, j ≠ k → cmpr t.toMach j = cmpr s.toMach j := by
  obtain ⟨hsame, hother⟩ := cmpr_setShed (shedNext (metersRestore s.toMach)) k false
  obtain ⟨hleft, hcmp, hnow⟩ := metersRestore_keeps s.toMach
  obtain ⟨-, -, -, -, -, -, -, hendcmp, haud, -⟩ :=
    apartFromFaults_endCond (setShed (shedNext (metersRestore s.toMach)) k false) (cmpSrc k) 0x43
  refine answers_of_run rfl ?_
  dsimp only
  rw [restoreOne_restores hk hcool hdue hshed hbelow, hendcmp, haud]
  simp only [cmpr_of_cmp hendcmp]
  exact ⟨hsame, hleft, congrArg (· + 100 * msT) hnow, fun j _ hj => (hother j hj).trans (cmpr_of_cmp hcmp j)⟩

/-- Metering is shed from SHC_15 down (R274). -/
theorem metersShed_answers {s : State} (hall : allShed s.toMach = true) (hhot : 105 * 128 < s.flt.caseTemp)
    (hleft : s.aud.shedClusters < 16) (hdue : s.cmp.stepAt ≤ s.now) (hroom : tableRoom s.toMach = true) :
    Answers .metersShed s fun t => t.aud = { s.aud with shedClusters := s.aud.shedClusters + 1 } ∧
      recorded t.toMach (0xC70 + (15 - s.aud.shedClusters)) 0x51 = true := by
  obtain ⟨-, -, -, -, -, -, -, -, haud, -⟩ := apartFromFaults_raise
    { shedNext s.toMach with aud := { s.aud with shedClusters := s.aud.shedClusters + 1 } } (0xC70 + (15 - s.aud.shedClusters)) 0x51 1 0
  refine answers_of_run rfl ?_
  dsimp only
  rw [metersShed_sheds hall hhot hleft hdue]
  exact ⟨haud, recorded_raise _ _ _ _ _ hroom⟩

/-- Settles O40: a layout instant is the law of what it latches, of a late line, or of a shed compositor; each step of shedding is the
law of the compositor or cluster that it finds. -/
theorem compositorsProceed : Obligations.CompositorsProceed := by
  unfold Obligations.CompositorsProceed
  refine ⟨?_, ?_, fun s => ⟨fun h => takes_of_run rfl (shedOne_idle h), fun k => compositorShed_sheds⟩,
    fun s => ⟨fun h => takes_of_run rfl (restoreOne_idle h), fun k => compositorRestore_restores⟩,
    fun s => ⟨fun h => takes_of_run rfl (metersShed_idle h), metersShed_answers⟩⟩
  · intro s k hk hshed hreg l now out
    refine ⟨fun h late _ => takes_of_runIf rfl (decide_eq_true hk) (layoutInstant_again h), fun h => ?_⟩
    intro latched
    have hlatched {late : List Nat} {u : Mach} (hu : latches k late s.toMach u) :
        latched { s with toMach := u } ∧ (cmpr u k).out = out late := by
      obtain ⟨hxb, hlayout, hfmt, hcount, hframes, hprev, hout, hidle⟩ := hu
      rw [prev_frameDone] at hprev
      rw [out_frameDone] at hout
      exact ⟨⟨hxb, hlayout, hfmt, hcount, hframes, hprev, hidle⟩, hout⟩
    refine ⟨?_, fun y _ hroom => ?_⟩
    · refine answers_of_runIf rfl (decide_eq_true hk) ?_
      dsimp only
      rw [layoutInstant_composes hshed h, List.foldl_nil]
      exact hlatched (compose_latches [] hreg).1
    · obtain ⟨hxb, his, hcmps⟩ := noteLateLine_keeps k s.toMach
      have hcmpr : cmpr (noteLateLine k s.toMach) k = cmpr s.toMach k := by simp only [cmpr, hcmps]
      obtain ⟨hl, hreports⟩ := compose_latches (m := noteLateLine k s.toMach) [y] (by rw [hcmpr, hreg])
      refine answers_of_runIf rfl (decide_eq_true hk) ?_
      dsimp only
      rw [layoutInstant_composes hshed h, List.foldl_cons, List.foldl_nil]
      obtain ⟨hs, hout⟩ := hlatched (hl.congr hxb his hcmps)
      exact ⟨hs, hout, hreports.recorded _ _ (recorded_noteLateLine k hroom), hreports.late.trans (lateLine_noteLateLine ..)⟩
  · intro s k late hk hshed p hcount _
    obtain ⟨t, ht, honly, hcmpr⟩ := cmpLayoutInstant_shed late hk hshed hcount
    rw [repeatFrame, cmpr_setCmp_same] at hcmpr
    exact ⟨t, ht, honly, by rw [hcmpr], by rw [hcmpr], by rw [hcmpr], by rw [hcmpr]⟩

end Sys2Proof.Proofs

/-! SUPPORT. A bank swap whose load has written an entry: the journal entry holds the load's records, and the commit queues them. -/
namespace Sys2Proof.Proofs
open Sys2Proof.Machine Sys2Proof.Safety

/-- The session's open load of SHC_0, which has written a unity tap in slot 0 of output channel 0. -/
def unityLoad : MixLoad := { cluster := 0, ses := 0, begun := true, written := [(0, unityTap 0 0)] }

/-- The load is open and the bank of its cluster is whole (R278). -/
def loadWhole : State := { claimant with aud := { claimant.aud with loads := [unityLoad], ready := 1 } }

/-- The journalled AUD_BANK_SWAP of SHC_0; its data are those that the module copies into the journal as it takes the command (R279). -/
def mixSwap : JEntry := { jseq := 5, kind := 0, ses := 0, hseq := 6, cmd := .audBankSwap 1, of := 5, room := 2
                          data := copied loadWhole.toMach 0 (.audBankSwap 1) }

/-- The swap is next to commit. -/
def mixSwapOpen : State := { loadWhole with ctl := { loadWhole.ctl with journal := [mixSwap], jnext := 6 } }

/-- The change queued for the block boundary carries the load's entry, from the journal data. -/
theorem commit_mixSwapOpen : (serveRings (commitNext mixSwapOpen.toMach)).aud.blockChg.map (·.taps) = [unityLoad.written] := by
  decide +kernel

/-- Refutes O21: the change that an AUD_BANK_SWAP queues carries the entries of its journal data, the records that the load has written
(R275, R279); the statement's clause on AUD_BANK_SWAP queues a change with none. -/
theorem not_audioChangeSetsCommit : ¬ Obligations.AudioChangeSetsCommit := by
  unfold Obligations.AudioChangeSetsCommit
  rintro ⟨-, -, -, -, -, -, hswap, -⟩
  obtain ⟨t, ht, honly, -⟩ := hswap mixSwapOpen mixSwap 0 (by decide +kernel) rfl (by decide) (by decide) (by decide) (by decide)
  cases ht
  have htaps := commit_mixSwapOpen
  rw [show serveRings (commitNext mixSwapOpen.toMach) = _ from honly] at htaps
  exact absurd htaps (by decide)

end Sys2Proof.Proofs

/-! SUPPORT. Serial audio ports: what an edge, a glitch, a change of state and a clock loss leave of the port, its counters and the
fault table. -/
namespace Sys2Proof.Machine
open Sys2Proof.Safety

/-! ### Faults and events leave the ports alone -/

@[simp] theorem raise_apt (m : Mach) (src kind cls addr : Nat) : (raise m src kind cls addr).apt = m.apt := by
  obtain ⟨-, -, -, -, -, -, -, -, -, -, hapt, -⟩ := apartFromFaults_raise m src kind cls addr
  exact hapt

@[simp] theorem endCond_apt (m : Mach) (src kind : Nat) : (endCond m src kind).apt = m.apt := by
  obtain ⟨-, -, -, -, -, -, -, -, -, -, hapt, -⟩ := apartFromFaults_endCond m src kind
  exact hapt

theorem apt_of_apt {m m' : Mach} (h : m'.apt = m.apt) (n : Nat) : apt m' n = apt m n := by simp only [apt, h]

@[simp] theorem apt_raise (m : Mach) (src kind cls addr n : Nat) : apt (raise m src kind cls addr) n = apt m n := apt_of_apt (raise_apt ..) n
@[simp] theorem apt_endCond (m : Mach) (src kind n : Nat) : apt (endCond m src kind) n = apt m n := apt_of_apt (endCond_apt ..) n

theorem recorded_of_flt {m m' : Mach} (h : m'.flt = m.flt) (src kind : Nat) : recorded m' src kind = recorded m src kind := by
  simp only [recorded, h]

theorem tableRoom_of_flt {m m' : Mach} (h : m'.flt = m.flt) : tableRoom m' = tableRoom m := by simp only [tableRoom, h]

@[simp] theorem rateEvent_apt (m : Mach) (n : Nat) : (rateEvent m n).apt = m.apt := by
  rw [show rateEvent m n = _ from sameButCtl_event ..]

@[simp] theorem rateEvent_flt (m : Mach) (n : Nat) : (rateEvent m n).flt = m.flt := by
  rw [show rateEvent m n = _ from sameButCtl_event ..]

/-! ### Entering a state (R291) -/

/-- A port that enters a state has it and is otherwise as it was. -/
@[simp] theorem apt_enter (m : Mach) (n st : Nat) : apt (enter m n st) n = { apt m n with st } := by
  unfold enter
  split
  case isTrue h => rw [← h]
  case isFalse => rw [apt_of_apt (rateEvent_apt ..), apt_setApt_same]

@[simp] theorem enter_cnts (m : Mach) (n st : Nat) : (enter m n st).apt.cnts = m.apt.cnts := by
  unfold enter
  split
  · rfl
  · rw [rateEvent_apt]; rfl

@[simp] theorem enter_flt (m : Mach) (n st : Nat) : (enter m n st).flt = m.flt := by
  unfold enter
  split
  · rfl
  · rw [rateEvent_flt]; rfl

/-! ### Glitches (R289) -/

/-- A glitch is counted and reported, and its frame's index counts as read. -/
def glitchNoted (m : Mach) (n : Nat) : Mach :=
  setApt (raise (setAptCnt m n fun c => { c with glitch := sat c.glitch 1 }) (aptSrc n) 0x52 0) n fun p =>
    { p with glitches := p.glitches + 1, readIdx := p.readIdx + 1 }

@[simp] theorem apt_glitchNoted (m : Mach) (n : Nat) :
    apt (glitchNoted m n) n = { apt m n with glitches := (apt m n).glitches + 1, readIdx := (apt m n).readIdx + 1 } := by
  rw [glitchNoted, apt_setApt_same, apt_raise, apt_setAptCnt]

theorem glitchNoted_glitch (m : Mach) (n : Nat) :
    (tget {} (glitchNoted m n).apt.cnts n).glitch = sat (tget {} m.apt.cnts n).glitch 1 := by
  simp [glitchNoted, setApt, setAptCnt]

theorem recorded_glitchNoted {m : Mach} (n : Nat) (h : tableRoom m = true) : recorded (glitchNoted m n) (aptSrc n) 0x52 = true := by
  rw [glitchNoted, recorded_of_flt (setApt_flt ..)]
  exact recorded_raise _ _ _ _ _ h

theorem tableRoom_glitchNoted {m : Mach} (n : Nat) (h : m.flt.recs.length < 2047) : tableRoom (glitchNoted m n) = true := by
  rw [glitchNoted, tableRoom_of_flt (setApt_flt ..)]
  exact tableRoom_raise _ _ _ _ h

/-- A port that the sixteenth glitch in a row has muted measures again, from silence. -/
def portMuted (m : Mach) (n : Nat) : Mach := enter (setApt m n fun p => { p with coarse := [], rampIn := 0, rampOut := 0 }) n 5

theorem glitch_eq (n : Nat) (m : Mach) : glitch n m =
    if (apt m n).glitches + 1 = 16 then raise (portMuted (glitchNoted m n) n) (aptSrc n) 0x53 1 else glitchNoted m n := by
  have h := congrArg Apt.glitches (apt_glitchNoted m n)
  rw [← show (apt (glitchNoted m n) n).glitches = (apt m n).glitches + 1 from h]
  rfl

theorem apt_portMuted (m : Mach) (n : Nat) :
    apt (portMuted m n) n = { apt m n with coarse := [], rampIn := 0, rampOut := 0, st := 5 } := by
  rw [portMuted, apt_enter, apt_setApt_same]

theorem portMuted_flt (m : Mach) (n : Nat) : (portMuted m n).flt = m.flt := by rw [portMuted, enter_flt, setApt_flt]

/-! ### Edges (R289 to R291) -/

/-- An edge of an enabled port is noted with its instant; the output's ramp starts over if SDOUT was not driven. -/
def edgeNoted (m : Mach) (n : Nat) : Mach :=
  setApt m n fun p => { p with hasEdge := true, lastEdge := m.dt.t, drive := drives m p, rampOut := if p.drive then p.rampOut else 0 }

theorem apt_edgeNoted (m : Mach) (n : Nat) : apt (edgeNoted m n) n =
    { apt m n with hasEdge := true, lastEdge := m.dt.t, drive := drives m (apt m n),
                   rampOut := if (apt m n).drive then (apt m n).rampOut else 0 } := by
  rw [edgeNoted, apt_setApt_same]

/-- A valid edge of a port that stood at `p` ends the run of glitches, and counts with its period. -/
def edgeCounted (p : Apt) (m : Mach) (n : Nat) : Mach :=
  setApt (if 16 ≤ p.glitches then endCond m (aptSrc n) 0x53 else m) n fun x =>
    { x with glitches := 0, coarse := ((m.dt.t - p.lastEdge) :: x.coarse).take 64, edges := x.edges + 1 }

theorem apt_edgeCounted (p : Apt) (m : Mach) (n : Nat) : apt (edgeCounted p m n) n =
    { apt m n with glitches := 0, coarse := ((m.dt.t - p.lastEdge) :: (apt m n).coarse).take 64, edges := (apt m n).edges + 1 } := by
  rw [edgeCounted, apt_setApt_same]
  split
  · rw [apt_endCond]
  · rfl

/-- A frame that a measured port ends at the instant `te` enters its input buffer (R293). -/
def frameBuffered (te : Nat) (slots : List Nat) (m : Mach) (n : Nat) : Mach :=
  if (apt m n).st = 3 ∨ (apt m n).st = 4 ∨ (apt m n).st = 5 then
    setApt m n fun p =>
      { p with inBuf := if p.inBuf.length < 512 then p.inBuf ++ [(te + usU (apt m n).cfg.inLat, inFrame m n slots)] else p.inBuf }
  else m

theorem frameBuffered_measuring {m : Mach} {n : Nat} (te : Nat) (slots : List Nat) (h : (apt m n).st = 2) :
    frameBuffered te slots m n = m := by
  simp [frameBuffered, h]

/-- A port that drives SDOUT begins its next frame. -/
def frameDriven (m : Mach) (n : Nat) : Mach := if (apt m n).drive then driveFrame m n else m

/-- A port that has not been measured drives zeros (R298). -/
theorem driveFrame_measuring {m : Mach} {n : Nat} (h : (apt m n).st = 2) :
    driveFrame m n = setApt m n fun p => { p with lastOut := List.replicate (drivenSlots p.cfg) 0 } := by
  have hidle : (apt m n).st ≠ 3 ∧ (apt m n).st ≠ 4 := by omega
  exact if_pos hidle

/-- While a port measures, a frame that it drives changes nothing in it but SDOUT's words. -/
theorem apt_frameDriven_measuring {m : Mach} {n : Nat} (h : (apt m n).st = 2) :
    ∃ lastOut, apt (frameDriven m n) n = { apt m n with lastOut } := by
  unfold frameDriven
  split
  · exact ⟨_, by rw [driveFrame_measuring h, apt_setApt_same]⟩
  · exact ⟨(apt m n).lastOut, rfl⟩

section
variable {m : Mach} {n bclks : Nat}

theorem fsyncEdge_disabled (slots : List Nat) (h : (apt m n).cfg.enable = false) :
    fsyncEdge n bclks slots m = setApt m n fun p => { p with drive := false } := by
  simp only [fsyncEdge, h, Bool.not_false, if_true]

theorem fsyncEdge_first (slots : List Nat) (he : (apt m n).cfg.enable = true) (h : (apt m n).hasEdge = false) :
    fsyncEdge n bclks slots m = edgeNoted m n := by
  simp only [fsyncEdge, he, h, Bool.not_true, Bool.not_false, Bool.false_eq_true, if_false, if_true, edgeNoted]

theorem fsyncEdge_glitch (slots : List Nat) (he : (apt m n).cfg.enable = true) (h : (apt m n).hasEdge = true)
    (hb : bclks ≠ (apt m n).cfg.s * (apt m n).cfg.w) : fsyncEdge n bclks slots m = glitch n (edgeNoted m n) := by
  simp only [fsyncEdge, he, h, beq_false_of_ne hb, Bool.and_false, Bool.not_true, Bool.not_false, Bool.false_eq_true, if_false, if_true,
    edgeNoted]

theorem fsyncEdge_valid (slots : List Nat) (he : (apt m n).cfg.enable = true) (h : (apt m n).hasEdge = true)
    (hb : bclks = (apt m n).cfg.s * (apt m n).cfg.w) : fsyncEdge n bclks slots m =
      frameDriven (frameBuffered m.dt.t slots (judgePort (edgeCounted (apt m n) (edgeNoted m n) n) n) n) n := by
  simp only [fsyncEdge, he, h, beq_iff_eq.2 hb, Bool.and_true, Bool.not_true, Bool.false_eq_true, if_false]
  rfl

/-- The first valid edge of a waiting port: the port begins to measure. -/
theorem apt_fsyncEdge_waiting (slots : List Nat) (he : (apt m n).cfg.enable = true) (h : (apt m n).hasEdge = true)
    (hb : bclks = (apt m n).cfg.s * (apt m n).cfg.w) (hst : (apt m n).st = 1) :
    ∃ lastOut, apt (fsyncEdge n bclks slots m) n =
      { apt (edgeCounted (apt m n) (edgeNoted m n) n) n with st := 2, lastOut } := by
  let e := edgeCounted (apt m n) (edgeNoted m n) n
  have hjudge : judgePort e n = enter e n 2 := if_pos (by rw [apt_edgeCounted, apt_edgeNoted]; exact hst)
  have hmeasuring : (apt (enter e n 2) n).st = 2 := by rw [apt_enter]
  obtain ⟨lastOut, hout⟩ := apt_frameDriven_measuring hmeasuring
  refine ⟨lastOut, ?_⟩
  rw [fsyncEdge_valid slots he h hb, show judgePort (edgeCounted _ _ n) n = _ from hjudge, frameBuffered_measuring _ _ hmeasuring, hout,
    apt_enter]

end

/-! ### Clock loss (R297) -/

/-- The event of a clock loss. -/
def lossPosted (m : Mach) (n : Nat) : Mach := event m 0x0041 3 (le 1 n ++ le 1 0)

theorem sameButCtl_lossPosted (m : Mach) (n : Nat) : sameButCtl m (lossPosted m n) := sameButCtl_event ..

theorem lossPosted_apt (m : Mach) (n : Nat) : (lossPosted m n).apt = m.apt := by
  rw [show lossPosted m n = _ from sameButCtl_lossPosted m n]

theorem lossPosted_flt (m : Mach) (n : Nat) : (lossPosted m n).flt = m.flt := by
  rw [show lossPosted m n = _ from sameButCtl_lossPosted m n]

/-- The declaration of a clock loss: the event, the count and the fault. -/
def lossDeclared (m : Mach) (n : Nat) : Mach :=
  raise (setAptCnt (lossPosted m n) n fun c => { c with clkLost := sat c.clkLost 1 }) (aptSrc n) 0x55 1

theorem lossDeclared_clkLost (m : Mach) (n : Nat) :
    (tget {} (lossDeclared m n).apt.cnts n).clkLost = sat (tget {} m.apt.cnts n).clkLost 1 := by
  simp only [lossDeclared, raise_apt, setAptCnt, tget_tmod_same, lossPosted_apt]

theorem recorded_lossDeclared {m : Mach} (n : Nat) (h : tableRoom m = true) : recorded (lossDeclared m n) (aptSrc n) 0x55 = true :=
  recorded_raise _ _ _ _ _ (by rw [tableRoom_of_flt (setAptCnt_flt ..), tableRoom_of_flt (lossPosted_flt m n)]; exact h)

/-- A port whose clock is lost ramps down and waits, with nothing measured. -/
def portWaits (m : Mach) (n : Nat) : Mach :=
  enter (setApt (startDown m n) n fun p => { p with coarse := [], win := [], fine := 0, nominal := 0, within := none, clkLost := true,
                                                    glitches := 0, hasEdge := false }) n 1

theorem clockLost_eq (m : Mach) (n : Nat) : clockLost m n = portWaits (lossDeclared m n) n := rfl

theorem apt_portWaits (m : Mach) (n : Nat) : apt (portWaits m n) n =
    { apt (startDown m n) n with coarse := [], win := [], fine := 0, nominal := 0, within := none, clkLost := true, glitches := 0,
                                 hasEdge := false, st := 1 } := by
  rw [portWaits, apt_enter, apt_setApt_same]

theorem portWaits_cnts (m : Mach) (n : Nat) : (portWaits m n).apt.cnts = m.apt.cnts := by rw [portWaits, enter_cnts]; rfl
theorem portWaits_flt (m : Mach) (n : Nat) : (portWaits m n).flt = m.flt := by rw [portWaits, enter_flt, setApt_flt, startDown, setApt_flt]

/-- The clock is lost exactly if the expected periods have passed without an edge. -/
theorem aptClockLost_eq {m : Mach} {n lost : Nat} (he : (apt m n).cfg.enable = true) (h : (apt m n).hasEdge = true)
    (hl : lossTime (apt m n) = some lost) :
    aptClockLost n m = if (apt m n).lastEdge + lost < m.dt.t then clockLost m n else m := by
  simp only [aptClockLost, he, h, hl, Option.any_some, Bool.and_self, Bool.true_and, decide_eq_true_eq]

end Sys2Proof.Machine

namespace Sys2Proof.Proofs
open Sys2Proof.Machine Sys2Proof.Safety

/-- Settles O42: an edge is ignored, noted, a glitch or valid, each with what it leaves of the port; a clock loss is what its declaration
leaves of the counter and the fault table, and then what waiting leaves of the port. -/
theorem audioPortsProceed : Obligations.AudioPortsProceed := by
  unfold Obligations.AudioPortsProceed
  refine ⟨fun s n bclks slots hn => ⟨?_, ?_, ?_, ?_, ?_⟩, fun s n lost hn he hedge hlost => ⟨?_, ?_⟩⟩
  · intro he
    exact takes_of_runIf rfl (decide_eq_true hn) (fsyncEdge_disabled slots he)
  · intro he hedge
    refine answers_of_runIf rfl (decide_eq_true hn) ?_
    rw [fsyncEdge_first slots he hedge]
    exact ⟨rfl, apt_edgeNoted s.toMach n⟩
  · intro he hedge hbad hfew hroom
    have hnoted := apt_edgeNoted s.toMach n
    refine answers_of_runIf rfl (decide_eq_true hn) ?_
    rw [fsyncEdge_glitch slots he hedge hbad, glitch_eq, if_neg (by rw [hnoted]; exact hfew)]
    exact ⟨by rw [apt_glitchNoted, hnoted], by rw [apt_glitchNoted, hnoted], glitchNoted_glitch .., recorded_glitchNoted n hroom⟩
  · intro he hedge hbad hfifteen hroom
    have hsixteen : (apt (edgeNoted s.toMach n) n).glitches + 1 = 16 := by rw [apt_edgeNoted]; exact congrArg (· + 1) hfifteen
    have hmuted : tableRoom (portMuted (glitchNoted (edgeNoted s.toMach n) n) n) = true := by
      rw [tableRoom_of_flt (portMuted_flt ..)]; exact tableRoom_glitchNoted n hroom
    refine answers_of_runIf rfl (decide_eq_true hn) ?_
    dsimp only
    rw [fsyncEdge_glitch slots he hedge hbad, glitch_eq, if_pos hsixteen, apt_raise, apt_portMuted, apt_glitchNoted]
    exact ⟨hsixteen, rfl, rfl, recorded_raise _ _ _ _ _ hmuted⟩
  · intro he hedge hvalid hst
    obtain ⟨lastOut, hport⟩ := apt_fsyncEdge_waiting slots he hedge hvalid hst
    refine answers_of_runIf rfl (decide_eq_true hn) ?_
    dsimp only
    rw [hport, apt_edgeCounted, apt_edgeNoted]
    exact ⟨rfl, rfl, rfl, rfl⟩
  · intro hearly
    refine takes_of_runIf rfl (decide_eq_true hn) ?_
    rw [aptClockLost_eq he hedge hlost, if_neg (not_lt.2 hearly)]
  · intro hlate hroom
    refine answers_of_runIf rfl (decide_eq_true hn) ?_
    dsimp only
    rw [aptClockLost_eq he hedge hlost, if_pos hlate, clockLost_eq, apt_portWaits, portWaits_cnts, recorded_of_flt (portWaits_flt ..)]
    exact ⟨rfl, rfl, rfl, lossDeclared_clkLost .., recorded_lossDeclared n hroom⟩

end Sys2Proof.Proofs

/-! SUPPORT. The queue's front, and the queue after reset. -/
namespace Sys2Proof.Proofs
open Sys2Proof.Machine Sys2Proof.Safety

/-- Settles O1: the step takes the front command off the queue that it was put on. -/
theorem stepRunsFrontCommand : Obligations.StepRunsFrontCommand := by
  unfold Obligations.StepRunsFrontCommand
  exact ⟨fun _ _ => rfl, step_idle⟩

/-- Settles O4: nothing waits after reset. -/
theorem resetQueueIsWellFormed : Obligations.ResetQueueIsWellFormed := by
  unfold Obligations.ResetQueueIsWellFormed
  exact ⟨rfl, rfl⟩

end Sys2Proof.Proofs

/-! SUPPORT. Ring entries: each field of a payload is read back from its offset, and the opcode names the command. -/
namespace Sys2Proof.Machine

/-! ### Fields (R402) -/

/-- The first field of a list of fields. -/
theorem sub_append_same (p r : List Byte) {n : Nat} (h : p.length = n) : sub (p ++ r) 0 n = p := by
  simp [sub, ← h]

/-- A field that lies behind the first. -/
theorem sub_append_skip (p r : List Byte) {o : Nat} (k : Nat) (h : p.length ≤ o) : sub (p ++ r) o k = sub r (o - p.length) k := by
  simp [sub, List.drop_append, List.drop_eq_nil_of_le h]

/-- A field reads as the number that it was made from, where the number fits. -/
theorem fld_le_append_same {n v : Nat} (r : List Byte) (h : fitsU (8 * n) v = true) : fld (le n v ++ r) 0 n = v := by
  have hv : v < 256 ^ n := by
    simpa [fitsU, pow_mul] using h
  rw [fld, sub_append_same _ _ (le_length n v), leNat_le, Nat.mod_eq_of_lt hv]

theorem fld_le_append_skip {n o : Nat} (v k : Nat) (r : List Byte) (h : n ≤ o) : fld (le n v ++ r) o k = fld r (o - n) k := by
  rw [fld, sub_append_skip _ _ _ (by rwa [le_length]), le_length, fld]

theorem fld_be_append_skip {n o : Nat} (v k : Nat) (r : List Byte) (h : n ≤ o) : fld (be n v ++ r) o k = fld r (o - n) k := by
  rw [fld, sub_append_skip _ _ _ (by rwa [be_length]), be_length, fld]

theorem sub_le_append_skip {n o : Nat} (v k : Nat) (r : List Byte) (h : n ≤ o) : sub (le n v ++ r) o k = sub r (o - n) k := by
  rw [sub_append_skip _ _ _ (by rwa [le_length]), le_length]

/-- The same of a field whose most significant byte comes first. -/
theorem beNat_sub_be_append {n v : Nat} (r : List Byte) (h : fitsU (8 * n) v = true) : beNat (sub (be n v ++ r) 0 n) = v := by
  have hv : v < 256 ^ n := by
    simpa [fitsU, pow_mul] using h
  rw [sub_append_same _ _ (be_length n v), beNat_be, Nat.mod_eq_of_lt hv]

theorem toBits_lt (w : Nat) (i : Int) : toBits w i < 2 ^ w := by
  have hpos : (0 : Int) < 2 ^ w := by positivity
  have hlt := Int.emod_lt_of_pos i hpos
  have hnn := Int.emod_nonneg i hpos.ne'
  rw [toBits, ← Int.ofNat_lt, Int.toNat_of_nonneg hnn]
  exact_mod_cast hlt

/-- Two's complement reads back the number, where it fits. -/
theorem ofBits_toBits {w : Nat} {i : Int} (hw : 0 < w) (h : fitsS w i = true) : ofBits w (toBits w i) = i := by
  obtain ⟨w, rfl⟩ := Nat.exists_eq_succ_of_ne_zero hw.ne'
  simp only [fitsS, Bool.and_eq_true, decide_eq_true_eq, Nat.succ_eq_add_one, Nat.add_sub_cancel] at h
  obtain ⟨hlo, hhi⟩ := h
  have hpow : (2 : Int) ^ (w + 1) = 2 * 2 ^ w := by ring
  have hpow' : 2 ^ (w + 1) = 2 * 2 ^ w := by ring
  have hcast : ((2 ^ w : Nat) : Int) = 2 ^ w := by norm_cast
  rw [ofBits, Nat.mod_eq_of_lt (toBits_lt _ i), toBits, Nat.succ_eq_add_one, Nat.add_sub_cancel, hpow]
  rcases lt_or_ge i 0 with hneg | hpos
  · have hmod : i % (2 * 2 ^ w) = i + 2 * 2 ^ w := by
      rw [← Int.add_mul_emod_self_right i 1 (2 * 2 ^ w), one_mul]; exact Int.emod_eq_of_lt (by omega) (by omega)
    rw [hmod, if_neg (by omega)]; omega
  · rw [Int.emod_eq_of_lt hpos (by omega), if_pos (by omega)]; omega

/-- A signed field reads as the number that it was made from. -/
theorem ofBits_fld_le_append {w n : Nat} {i : Int} (r : List Byte) (hw : w = 8 * n) (hn : 0 < n) (h : fitsS w i = true) :
    ofBits w (fld (le n (toBits w i) ++ r) 0 n) = i := by
  subst hw
  rw [fld_le_append_same _ (decide_eq_true (toBits_lt _ i)), ofBits_toBits (by omega) h]

theorem fitsU_opcode (c : Cmd) : fitsU 16 c.opcode = true := by cases c <;> rfl
theorem fitsU_len (c : Cmd) : fitsU 8 c.len = true := by cases c <;> rfl

/-! ### Commands (R402) -/

/-- The opcode and the payload spell the command, whatever follows the payload. -/
theorem parseOp_payload {c : Cmd} (z : List Byte) (h : c.fits = true) : parseOp c.opcode (c.payload ++ z) = some c := by
  cases c
  all_goals
    refine congrArg some (?_ : _ = _)
    simp only [Cmd.fits, Bool.and_eq_true] at h
    simp only [Cmd.payload, List.append_assoc, Nat.reduceLeDiff, Nat.reduceSub, Nat.reduceMul, fld_le_append_skip,
      fld_be_append_skip, sub_le_append_skip, fld_le_append_same, beNat_sub_be_append, ofBits_fld_le_append, h, Nat.reduceLT]

theorem payload_length (c : Cmd) : c.payload.length ≤ 56 := by
  cases c <;> simp only [Cmd.payload, List.length_append, le_length, be_length, List.length_nil] <;> decide

/-- A list that is not too long is padded behind. -/
theorem padTo_of_le {α : Type} (d : α) {n : Nat} {l : List α} (h : l.length ≤ n) : padTo d n l = l ++ List.replicate (n - l.length) d := by
  rw [padTo, List.take_of_length_le]
  simp only [List.length_append, List.length_replicate]
  omega

/-- A ring entry: opcode, LEN, a byte 0, HSEQ, the payload, and zeros to the end. -/
theorem entry_eq (c : Cmd) (hseq : Nat) : ∃ z, c.entry hseq = le 2 c.opcode ++ (le 1 c.len ++ (le 1 0 ++ (le 4 hseq ++ (c.payload ++ z)))) := by
  have hlen := payload_length c
  rw [Cmd.entry, padTo_of_le _ (by simp only [List.length_append, le_length]; omega)]
  exact ⟨_, by simp only [List.append_assoc]; rfl⟩

section
variable (c : Cmd) {hseq : Nat}

theorem fld_entry_opcode : fld (c.entry hseq) 0 2 = c.opcode := by
  obtain ⟨z, hz⟩ := entry_eq c hseq
  rw [hz, fld_le_append_same _ (fitsU_opcode c)]

theorem fld_entry_len : fld (c.entry hseq) 2 1 = c.len := by
  obtain ⟨z, hz⟩ := entry_eq c hseq
  rw [hz, fld_le_append_skip _ _ _ (by decide), fld_le_append_same _ (fitsU_len c)]

theorem fld_entry_zero : fld (c.entry hseq) 3 1 = 0 := by
  obtain ⟨z, hz⟩ := entry_eq c hseq
  rw [hz, fld_le_append_skip _ _ _ (by decide), fld_le_append_skip _ _ _ (by decide), fld_le_append_same _ (by decide)]

theorem fld_entry_hseq (h : hseq < 2 ^ 32) : fld (c.entry hseq) 4 4 = hseq := by
  obtain ⟨z, hz⟩ := entry_eq c hseq
  rw [hz, fld_le_append_skip _ _ _ (by decide), fld_le_append_skip _ _ _ (by decide), fld_le_append_skip _ _ _ (by decide),
    fld_le_append_same _ (decide_eq_true h)]

theorem drop_entry : ∃ z, (c.entry hseq).drop 8 = c.payload ++ z := by
  obtain ⟨z, hz⟩ := entry_eq c hseq
  have hhead : (le 2 c.opcode ++ (le 1 c.len ++ (le 1 0 ++ le 4 hseq))).length = 8 := by simp
  have hdrop := List.drop_left (l₁ := le 2 c.opcode ++ (le 1 c.len ++ (le 1 0 ++ le 4 hseq))) (l₂ := c.payload ++ z)
  rw [hhead] at hdrop
  exact ⟨z, by simpa only [hz, List.append_assoc] using hdrop⟩

end

/-- A ring entry spells its command (R402, R410). -/
theorem parseEntry_entry {c : Cmd} (hseq : Nat) (h : c.fits = true) : parseEntry (c.entry hseq) = some c := by
  obtain ⟨z, hz⟩ := drop_entry c (hseq := hseq)
  rw [parseEntry, fld_entry_opcode, hz, parseOp_payload z h]
  exact if_pos ⟨fld_entry_len c, fld_entry_zero c⟩

end Sys2Proof.Machine

namespace Sys2Proof.Proofs
open Sys2Proof.Machine

/-- Settles O5: every field of the entry is read back from its offset. -/
theorem ringEntryRoundTrip : Obligations.RingEntryRoundTrip := by
  unfold Obligations.RingEntryRoundTrip
  intro c hseq hfits hhseq
  exact ⟨padTo_length .., parseEntry_entry hseq hfits, fld_entry_hseq c hhseq, fld_entry_opcode c⟩

end Sys2Proof.Proofs

/-! SUPPORT. Five statements on host commands that the model does not meet where a ring's head is beyond the range of its index. -/
namespace Sys2Proof.Proofs
open Sys2Proof.Machine Sys2Proof.Safety

/-! ### Commands rung where the head is beyond the range of a ring's index

The statements bound the tail of a ring and the index of its next entry, but not that of its oldest unfinished entry, which MBX_CMD_HEAD
shows (R398). Where that index is beyond 16 bits, a state that the module itself never comes to, the doorbell of a command covers no
entry (R399). -/

/-- Wherever the rings stand as in `headBeyond`, a command of the command ring is not answered. -/
theorem postedBy_of_ctl {s : State} {i : Instr} {c : Cmd} (hctl : s.ctl = headBeyond.ctl) (hi : exec i s = host nextHdr c s)
    (hring : c.hare = false) (hfits : c.fits = true) : postedBy i s 0 = [] := by
  let written := setWin s.toMach 0 fun w => { w with ram := mput w.ram 0x10000 (c.entry 7) }
  let u := setWin written 0 fun w => { w with cmdTail := 1 }
  have hst : ses s.toMach 0 = ses headBeyond.toMach 0 := by simp only [ses, hctl]
  have hwin : win s.toMach 0 = win headBeyond.toMach 0 := by simp only [win, hctl]
  have hwritten : win written 0 = { win s.toMach 0 with ram := mput (win s.toMach 0).ram 0x10000 (c.entry 7) } := win_setWin_same ..
  have hentry : hostEntry nextHdr c s.toMach = u := by
    have hopen : hostEntry nextHdr c s.toMach = doorbell false 0 0 1 written := by
      unfold hostEntry foreign
      simp only [nextHdr, hring, hst, hwin, Bool.false_eq_true, if_false]
      rfl
    refine hopen.trans (doorbell_uncovered (old := 0) (head := 2 ^ 17) ?_ ?_ ?_ ?_ (by decide) (by decide) (by decide))
    · exact congrArg Session.st hst
    · exact congrArg Session.port hst
    · rw [hwritten, hwin]; rfl
    · rw [hwritten, hwin]; rfl
  have hidle : ringsIdle u = true := by
    show ringsIdle s.toMach = true
    rw [ringsIdle_of_ctl (show s.toMach.ctl = headBeyond.toMach.ctl from hctl)]; rfl
  have hexec : exec i s = .next { s with toMach := u } := by
    have hserve : serveRings u = u := engine_idle _ _ hidle
    rw [hi, host, hfits, ← hserve, ← hentry]
    rfl
  rw [postedBy_of_exec hexec]
  exact posted_of_respTail (by simp [u, written])

/-- So no statement holds there that promises such a command a response. -/
theorem false_of_posted {s : State} {i : Instr} {c : Cmd} {rs : List Resp} {P : State → Prop} (hctl : s.ctl = headBeyond.ctl)
    (hi : exec i s = host nextHdr c s) (hring : c.hare = false) (hfits : c.fits = true) (hrs : rs ≠ [])
    (h : Answers i s P) (hP : ∀ t, P t → posted s.toMach t.toMach 0 = rs) : False := by
  obtain ⟨t, ht, hp⟩ := h
  have hnone := postedBy_of_ctl hctl hi hring hfits
  rw [postedBy_of_exec ht, hP t hp] at hnone
  exact hrs hnone

/-- Refutes O6: SRC_WARM is not journalled there, so its ACCEPTED is not posted. -/
theorem not_changeSetIsJournalled : ¬ Obligations.ChangeSetIsJournalled := by
  unfold Obligations.ChangeSetIsJournalled
  intro h
  refine false_of_posted (c := .srcWarm 0 0) (rs := mkResps (Cmd.srcWarm 0 0).opcode sAccepted 0 7 1 []) rfl rfl rfl rfl (by decide)
    (h (.srcWarm nextHdr 0 0) nextHdr (.srcWarm 0 0) headBeyond rfl rfl (by decide +kernel)) fun t ht => ?_
  obtain ⟨-, -, -, -, hposted⟩ := ht
  exact hposted (by decide +kernel)

/-- Refutes O10: MEM_REARM is not answered there, and the statement's first clause promises its OK. -/
theorem not_memoryDiagnosticsTakeEffect : ¬ Obligations.MemoryDiagnosticsTakeEffect := by
  unfold Obligations.MemoryDiagnosticsTakeEffect
  rintro ⟨hrearm, -⟩
  exact false_of_posted (c := .memRearm 0) rfl rfl rfl rfl (by decide)
    (hrearm headBeyond nextHdr 0 (by decide +kernel) (by decide)) fun t ht => ht.1

/-- Refutes O13: PAIR_FORCE is not answered there, and the statement's second clause promises its DONE. -/
theorem not_pairAndPowerCommandsTakeEffect : ¬ Obligations.PairAndPowerCommandsTakeEffect := by
  unfold Obligations.PairAndPowerCommandsTakeEffect
  rintro ⟨-, hforce, -⟩
  exact false_of_posted (c := .pairForce 1) rfl rfl rfl rfl (by decide)
    (hforce headBeyond nextHdr 1 (by decide +kernel) rfl rfl (by decide)) fun t ht => ht.1

/-- The module runs the image of its slot A. -/
def runningBeyond : State := { headBeyond with upd := { headBeyond.upd with running := true, runSlot := 0 } }

/-- Refutes O14: UPD_CONFIRM is not answered there, and the statement's second clause promises its DONE. -/
theorem not_updateCommandsTakeEffect : ¬ Obligations.UpdateCommandsTakeEffect := by
  unfold Obligations.UpdateCommandsTakeEffect
  rintro ⟨-, hconfirm, -⟩
  exact false_of_posted (s := runningBeyond) (c := .updConfirm) rfl rfl rfl rfl (by decide)
    (hconfirm runningBeyond nextHdr (by decide +kernel) rfl (by decide)) fun t ht => ht.1

/-- Refutes O23: a DT_STEP is not journalled there, so its ACCEPTED is not posted. -/
theorem not_deviceTimeChangeSetsCommit : ¬ Obligations.DeviceTimeChangeSetsCommit := by
  unfold Obligations.DeviceTimeChangeSetsCommit
  rintro ⟨-, -, -, -, -, -, -, hstep⟩
  refine false_of_posted (c := .dtStep 0 0 0) (rs := mkResps (Cmd.dtStep 0 0 0).opcode sAccepted 0 7 1 []) rfl rfl rfl rfl (by decide)
    (hstep headBeyond nextHdr 0 0 0 (by decide +kernel) (by decide +kernel)) fun t ht => ?_
  obtain ⟨-, -, -, hposted⟩ := ht
  exact hposted (by decide +kernel)

end Sys2Proof.Proofs

/-! SUPPORT. The selector: a transition that ends in holdover within the cycle that keeps a selector command waiting. -/
namespace Sys2Proof.Proofs
open Sys2Proof.Machine Sys2Proof.Safety

/-- A selector command that sets mode 1. -/
def modeCommand : Cmd × List Byte := (.tmgSelCfg 1 0 0 0 0, [])

/-- A transition to candidate 0, which has no KIND; the selector command has been committed since the last cycle. -/
def lostTarget : State := { State.reset with
  tmg := { State.reset.tmg with dpll := { State.reset.tmg.dpll with st := 3, sel := 0, queued := [modeCommand] } } }

/-- The loss ends the transition in HOLDOVER (R324), and the command waits for the next cycle. -/
theorem evaluation_lostTarget : (evaluation lostTarget.toMach).tmg.dpll.st = 4 ∧ (evaluation lostTarget.toMach).tmg.dpll.queued ≠ [] := by
  decide +kernel

/-- What a command that always runs answers. -/
theorem toMach_of_run {i : Instr} {s t : State} {f : Mach → Mach} (e : exec i s = run f s) (h : exec i s = .next t) :
    t.toMach = f s.toMach := by
  rw [e, run_eq, Host.Outcome.next.injEq] at h
  rw [← h]

/-- Refutes O44: a selector command waits through the cycle in which a transition ends (R321); the statement's second clause applies it
in every cycle that does not leave the loop in transition. -/
theorem not_selectorProceeds : ¬ Obligations.SelectorProceeds := by
  unfold Obligations.SelectorProceeds
  rintro ⟨-, hqueue, -⟩
  obtain ⟨hst, hqueued⟩ := evaluation_lostTarget
  obtain ⟨t, ht, -, happlied⟩ := hqueue lostTarget 1 0 0 0 0 [] rfl
  have hmach : t.toMach = evaluation lostTarget.toMach := toMach_of_run rfl ht
  obtain ⟨hempty, -⟩ := happlied (by rw [hmach, hst]; decide)
  exact hqueued (hmach ▸ hempty)

end Sys2Proof.Proofs

/-! SUPPORT. References: what a reference event, a second's measurement and the end of a reference's events leave of its candidate. -/
namespace Sys2Proof.Machine
open Sys2Proof.Safety

/-! ### Candidates and the events of the timing block (R308, R343) -/

@[simp] theorem cand_setCand_same (m : Mach) (c : Nat) (f : Cand → Cand) : cand (setCand m c f) c = f (cand m c) := tget_tmod_same _ _ _ _ _
theorem cand_setCand_other (m : Mach) {j c : Nat} (f : Cand → Cand) (h : j ≠ c) : cand (setCand m c f) j = cand m j :=
  tget_tmod_other _ _ _ _ h

theorem cand_of_cands {m m' : Mach} (h : m'.tmg.cands = m.tmg.cands) (c : Nat) : cand m' c = cand m c := by simp only [cand, h]

theorem sameButCtl_timingEvt (m : Mach) (c cause : Nat) : sameButCtl m (timingEvt m c cause) := sameButCtl_event ..

/-- A step that is taken or left out. -/
theorem sameButCtl_ite {p : Prop} [Decidable p] {m a b : Mach} (ha : sameButCtl m a) (hb : sameButCtl m b) :
    sameButCtl m (if p then a else b) := by split <;> assumption

/-- A change of the timing block sets the output QL and posts its events. -/
theorem sameButCtl_timed (f : Mach → Mach) (m : Mach) :
    sameButCtl (dpll (f m) fun d => { d with qlout := outputQl (f m) }) (timed f m) := by
  unfold timed
  extract_lets n₁ n₂ o n₃ n₄ n₅
  have h₃ : sameButCtl n₂ n₃ := sameButCtl_foldl _ (fun n c => sameButCtl_ite (sameButCtl_refl n) (sameButCtl_timingEvt n c 0)) _ _
  have h₄ : sameButCtl n₃ n₄ := sameButCtl_ite (sameButCtl_refl n₃) (sameButCtl_timingEvt n₃ 255 1)
  have h₅ : sameButCtl n₄ n₅ := sameButCtl_ite (sameButCtl_refl n₄) (sameButCtl_timingEvt n₄ 255 2)
  exact ((h₃.trans h₄).trans h₅).trans (sameButCtl_ite (sameButCtl_refl n₅) (sameButCtl_timingEvt n₅ 255 3))

/-- What a change of the timing block leaves, its events aside. -/
theorem timed_eq (f : Mach → Mach) (m : Mach) : timed f m = { f m with tmg := (timed f m).tmg, ctl := (timed f m).ctl } := by
  have h : timed f m = _ := sameButCtl_timed f m
  rw [h]; rfl

@[simp] theorem timed_cands (f : Mach → Mach) (m : Mach) : (timed f m).tmg.cands = (f m).tmg.cands := by
  rw [show timed f m = _ from sameButCtl_timed f m]; rfl

/-! ### Events of references (R308, R309, R134) -/

theorem canHaveEvents_pin {m : Mach} {c : Nat} (hc : c < 4) : canHaveEvents m c = ((cand m c).cfg.kind != 0) := by
  simp only [canHaveEvents, if_pos hc]

theorem canHaveEvents_link {m : Mach} {c : Nat} (h4 : 4 ≤ c) (h12 : c < 12) : canHaveEvents m c = linkLive m c := by
  simp only [canHaveEvents, if_neg (not_lt.2 h4), if_pos h12]

/-- A pin without a KIND has no events. -/
theorem refEvent_pin_off {m : Mach} {c : Nat} (at_ : Nat) (phase : Int) (hc : c < 4) (hk : (cand m c).cfg.kind = 0) :
    refEvent c at_ phase m = m := by
  unfold refEvent
  rw [if_neg (by omega), if_pos (by simp [canHaveEvents_pin hc, hk])]

/-- A pin's event is stamped less DELAY. -/
theorem refEvent_pin_on {m : Mach} {c : Nat} (at_ : Nat) (phase : Int) (hc : c < 4) (hk : (cand m c).cfg.kind ≠ 0) :
    refEvent c at_ phase m = setCand m c fun x =>
      { x with present := true, lastEvent := m.now, stamp := stampOf at_ - (cand m c).cfg.delay * (nsU : Nat) / 1000, phase } := by
  unfold refEvent
  rw [if_neg (by omega), if_neg (by simp [canHaveEvents_pin hc, hk]), if_pos hc]

/-- The record of a link reference's event is taken from the queue, and stamps it. -/
theorem refEvent_link {m : Mach} {c lane id : Nat} {r : RefRec} (at_ : Nat) (phase : Int) (h4 : 4 ≤ c) (h12 : c < 12)
    (hbound : tget? (c - 4) m.tmg.lrefs = some (lane, id))
    (hr : (m.wl.refQ.find? fun x => x.lane == lane && x.refid == id) = some r) (hpresent : r.present = true)
    (hlive : linkLive m c = true) :
    refEvent c at_ phase m =
      setCand (setCand { m with wl := { m.wl with refQ := m.wl.refQ.eraseP fun x => x.lane == lane && x.refid == id } } c
        fun x => { x with qlrx := r.ql, stale := r.stale, hold := r.cardHold }) c
        fun x => { x with present := true, lastEvent := m.now, stamp := r.at_, phase } := by
  have hlink (q : List RefRec) (f : Cand → Cand) : linkLive (setCand { m with wl := { m.wl with refQ := q } } c f) c = true := hlive
  unfold refEvent
  rw [if_pos ⟨h4, h12⟩]
  simp only [linkNext, hbound, hr, Option.map_some, canHaveEvents_link h4 h12, hlink, hpresent, Bool.and_self, Bool.not_true,
    Bool.false_eq_true, if_false]
  rfl

/-! ### Quality messages (R310) -/

theorem qlMessage_good {m : Mach} {c : Nat} {bs : List Byte} {gap : Bool}
    (h : gap = false ∧ bs.length = 4 ∧ fld bs 0 1 = 0x51 ∧ crc8 (bs.take 3) = fld bs 3 1) :
    qlMessage c bs gap m =
      setCand m c fun x => { x with qlrx := fld bs 1 1 / 16, hold := bit (fld bs 2 1) 0, lastQl := m.now, stale := false } := by
  obtain ⟨hgap, hlen, hhead, hcrc⟩ := h
  exact if_neg (by simp [hgap, hlen, hhead, hcrc])

theorem qlMessage_bad {m : Mach} {c : Nat} {bs : List Byte} {gap : Bool}
    (h : ¬(gap = false ∧ bs.length = 4 ∧ fld bs 0 1 = 0x51 ∧ crc8 (bs.take 3) = fld bs 3 1)) :
    qlMessage c bs gap m = setCand m c fun x => { x with qlErr := sat x.qlErr 1 } := by
  refine if_pos ?_
  by_contra hall
  simp only [not_or, not_not, Bool.not_eq_true] at hall
  exact h hall

/-! ### A second's measurement (R313, R314) -/

@[simp] theorem freezeMark_markFrozen (m : Mach) : (freezeMark m).tmg.dpll.markFrozen = true := rfl

/-- What a second's events measure: the phases kept, the offset, and whether the limits are passed. -/
structure Measured where
  phases : List (Nat × Int)
  foff : Int
  soft : Bool
  hard : Bool
  slope : Bool

/-- The measurement of a candidate's second, against its limits. -/
def measured (x : Cand) (events : List (Nat × Int)) : Measured :=
  let phases := latestPhases 10000000000 (events.reverse ++ x.phases)
  let foff := slopeOf phases
  { phases, foff, soft := decide (x.cfg.soft * 1000 < foff.natAbs), hard := decide (x.cfg.hard * 1000 < foff.natAbs)
    slope := decide (x.cfg.slope * 1000 < (excursionOf phases foff).natAbs) }

/-- A candidate after the measurement of a second, at the instant `now`. -/
def Cand.measure (x : Cand) (now : Nat) (y : Measured) : Cand :=
  { x with
    phases := y.phases, foff := y.foff, soft := y.soft, hard := y.hard, slope := y.slope,
    softCnt := sat x.softCnt (b2n (y.soft && !x.soft)), hardCnt := sat x.hardCnt (b2n (y.hard && !x.hard)),
    slopeCnt := sat x.slopeCnt (b2n y.slope),
    waitEnd := if (x.st = 2 ∨ x.st = 3) ∧ y.slope then some (now + (if x.st = 2 then 1 else x.cfg.wtr) * 500000000) else x.waitEnd }

theorem decide_cast_lt (a b : Nat) : decide ((a : Int) * 1000 < (b : Int)) = decide (a * 1000 < b) := by
  rw [decide_eq_decide]; omega

/-- The measurement sets the candidate, and freezes the last-good mark where the selected candidate newly passes a limit (R328). -/
theorem measureCand_eq {m : Mach} {c : Nat} (events : List (Nat × Int)) (h : (cand m c).present = true) :
    let x := cand m c
    let y := measured x events
    let m' := setCand m c fun x => x.measure m.now y
    measureCand c events m = if m.tmg.dpll.sel = c ∧ ((y.soft && !x.soft) ∨ (y.hard && !x.hard) ∨ y.slope) then
      { m' with tmg := { m'.tmg with dpll := (freezeMark m).tmg.dpll } } else m' := by
  unfold measureCand
  simp only [h, Bool.not_true, Bool.false_eq_true, if_false, decide_cast_lt]
  rfl

/-- Whatever becomes of the mark, the candidate is measured and only the timing block moves. -/
theorem measureCand_cand {m : Mach} {c : Nat} (events : List (Nat × Int)) (h : (cand m c).present = true) :
    measureCand c events m = { m with tmg := (measureCand c events m).tmg } ∧
      cand (measureCand c events m) c = (cand m c).measure m.now (measured (cand m c) events) := by
  rw [measureCand_eq events h]
  dsimp only
  split
  · exact ⟨rfl, cand_setCand_same m c fun x => x.measure m.now (measured (cand m c) events)⟩
  · exact ⟨rfl, cand_setCand_same ..⟩

/-! ### The end of a reference's events (R314) -/

theorem candAbsent_gone {m : Mach} {c n d : Nat} (hsel : m.tmg.dpll.sel ≠ c) (hp : candPeriod m c = some (n, d))
    (hpresent : (cand m c).present = true) (hlate : (cand m c).cfg.lossn * n < (m.now - (cand m c).lastEvent) * 2 * d) :
    candAbsent c m =
      setCand m c fun x => { x with present := false, soft := false, hard := false, slope := false, phases := [] } := by
  simp only [candAbsent, hp, hpresent, decide_eq_true hlate, Bool.true_or, Bool.and_self, if_true, if_neg hsel]

theorem candAbsent_stays {m : Mach} {c n d : Nat} (hp : candPeriod m c = some (n, d)) (hcan : canHaveEvents m c = true)
    (hsoon : (m.now - (cand m c).lastEvent) * 2 * d ≤ (cand m c).cfg.lossn * n) : candAbsent c m = m := by
  simp [candAbsent, hp, hcan, not_lt.2 hsoon]

end Sys2Proof.Machine

namespace Sys2Proof.Proofs
open Sys2Proof.Machine Sys2Proof.Safety

/-- Settles O43: each clause is the law of an event, a quality message, a second's measurement or a silence, for the case it speaks of;
what an event of the timing block posts moves the control block alone. -/
theorem referencesProceed : Obligations.ReferencesProceed := by
  unfold Obligations.ReferencesProceed
  refine ⟨fun s c at_ phase hc => ⟨fun hk => ?_, fun hk => ?_⟩, ?_, fun s c bs gap hc => ⟨fun h => ?_, fun h => ?_⟩,
    fun s c hc => ⟨fun hsoon => ?_, fun hlate => ?_⟩, fun s c events hc => ⟨fun h => ?_, fun h => ?_⟩,
    fun s c n d hc hsel hp => ⟨fun hpresent hlate => ?_, fun hcan hsoon => ?_⟩⟩
  · refine answers_of_runIf rfl (decide_eq_true (by omega)) ⟨?_, ?_, fun j _ hj => ?_⟩
    · exact (timed_eq ..).trans (by rw [refEvent_pin_on at_ phase hc hk]; rfl)
    · rw [cand_of_cands (timed_cands ..), refEvent_pin_on at_ phase hc hk, cand_setCand_same]; rfl
    · rw [cand_of_cands (timed_cands ..), refEvent_pin_on at_ phase hc hk, cand_setCand_other _ _ hj]
  · refine answers_of_runIf rfl (decide_eq_true (by omega)) ⟨?_, ?_⟩
    · exact (timed_eq ..).trans (by rw [refEvent_pin_off at_ phase hc hk])
    · exact (timed_cands ..).trans (by rw [refEvent_pin_off at_ phase hc hk])
  · intro s c at_ phase lane id r h4 h12 hbound mine hr hpresent hlive
    have hevent := refEvent_link at_ phase h4 h12 hbound hr hpresent hlive
    refine answers_of_runIf rfl (decide_eq_true (by omega)) ⟨?_, ?_⟩
    · exact (timed_eq ..).trans (by rw [hevent]; rfl)
    · rw [cand_of_cands (timed_cands ..), hevent, cand_setCand_same, cand_setCand_same]; rfl
  · exact takes_of_runIf rfl (decide_eq_true (by omega)) (qlMessage_good h)
  · exact takes_of_runIf rfl (decide_eq_true (by omega)) (qlMessage_bad h)
  · exact takes_of_runIf rfl (decide_eq_true (by omega)) (if_neg (not_lt.2 hsoon))
  · exact takes_of_runIf rfl (decide_eq_true (by omega)) (if_pos hlate)
  · exact takes_of_runIf rfl (decide_eq_true (by omega)) (if_pos (by rw [h]; rfl))
  · obtain ⟨honly, hcand⟩ := measureCand_cand events h
    refine answers_of_runIf rfl (decide_eq_true (by omega)) ⟨honly, ?_⟩
    dsimp only
    rw [hcand]
    refine ⟨rfl, rfl, rfl, rfl, rfl, rfl, fun hsel hslope => ?_, fun hsel => ?_⟩
    · rw [measureCand_eq events h]
      dsimp only
      rw [if_pos ⟨hsel, Or.inr (Or.inr hslope)⟩]
      exact freezeMark_markFrozen _
    · rw [measureCand_eq events h]
      dsimp only
      rw [if_neg fun hboth => hsel hboth.1]
      rfl
  · exact takes_of_runIf rfl (decide_eq_true (by omega)) (candAbsent_gone hsel hp hpresent hlate)
  · exact takes_of_runIf rfl (decide_eq_true (by omega)) (candAbsent_stays hp hcan hsoon)

end Sys2Proof.Proofs

/-! SUPPORT. PTP: what one message leaves in its MAC's queue and in its port, and what the port states' decision leaves. -/
namespace Sys2Proof.Machine
open Sys2Proof.Safety

/-! ### Ports (R361) -/

/-- A part of a port that a change of a port keeps. -/
theorem pport_setPport_part {α : Type} (g : PtpPort → α) {f : PtpPort → PtpPort} (hf : ∀ x, g (f x) = g x) (m : Mach) (p q : Nat) :
    g (pport (setPport m p f) q) = g (pport m q) := by
  by_cases h : q = p
  · subst h; rw [pport_setPport_same, hf]
  · rw [pport_setPport_other _ _ h]

theorem pports_setPport {f : PtpPort → PtpPort} (hf : ∀ x, (f x).mac = x.mac) (m : Mach) (p : Nat) :
    pports (setPport m p f) = pports m := by
  simp only [pports, pport_setPport_part PtpPort.mac hf]

theorem clockIdent_setPport {f : PtpPort → PtpPort} (hf : ∀ x, (f x).mac = x.mac) (m : Mach) (p : Nat) :
    clockIdent (setPport m p f) = clockIdent m := by
  have hident : (setPport m p f).dt.ptp.ident = m.dt.ptp.ident := rfl
  have hmac (k : Nat) : mac (setPport m p f) k = mac m k := rfl
  simp only [clockIdent, hident, hmac, pports_setPport hf, pport_setPport_part PtpPort.mac hf]

/-- A message's header names the domain, the clock and the port; a change of a port that keeps its MAC keeps it. -/
theorem ptpMsg_setPport {f : PtpPort → PtpPort} (hf : ∀ x, (f x).mac = x.mac) (m : Mach) (p q typ flags seq corr ctrl log : Nat)
    (body : List Byte) : ptpMsg (setPport m p f) q typ flags seq corr ctrl log body = ptpMsg m q typ flags seq corr ctrl log body := by
  have hdomain : (setPport m p f).dt.ptp.domain = m.dt.ptp.domain := rfl
  simp only [ptpMsg, hdomain, clockIdent_setPport hf]

/-- A key whose entry fails a test before and after a write is among the tested keys neither time. -/
theorem tkeys_tset {α : Type} (p : α → Bool) (t : Tab α) (k : Nat) {v : α} (hv : p v = false) (hk : ∀ x, tget? k t = some x → p x = false) :
    tkeys p (tset t k v) = tkeys p t := by
  induction t with
  | nil => simp [tset, tkeys, hv]
  | cons x r ih =>
    obtain ⟨i, b⟩ := x
    unfold tset
    split_ifs with hlt heq
    · simp [tkeys, hv]
    · subst heq
      have hb := hk b (by rw [tget?_cons, if_pos rfl])
      simp [tkeys, hv, hb]
    · have hrest := ih fun x hx => hk x (by rw [tget?_cons, if_neg fun h => heq h.symm]; exact hx)
      simp only [tkeys] at hrest ⊢
      simp only [List.filter_cons]
      split_ifs
      · simp only [List.map_cons, hrest]
      · exact hrest

/-- A port in MASTER that stays so is no port in SLAVE. -/
theorem slavePort_setPport {m : Mach} {p : Nat} {f : PtpPort → PtpPort} (hf : ∀ x, (f x).st = x.st) (hst : (pport m p).st ≠ 3) :
    slavePort (setPport m p f) = slavePort m := by
  refine congrArg List.head? (tkeys_tset _ _ _ ?_ fun x hx => ?_)
  · rw [hf]; exact beq_false_of_ne hst
  · have : pport m p = x := by simp only [pport, tget, hx, Option.getD_some]
    rw [← this]; exact beq_false_of_ne hst

/-- What the module announces of itself goes through a change of a port that keeps its MAC. -/
theorem ownClock_setPport {f : PtpPort → PtpPort} (hf : ∀ x, (f x).mac = x.mac) (m : Mach) (p : Nat) :
    ownClock (setPport m p f) = ownClock m := by
  simp only [ownClock, clockIdent_setPport hf]
  rfl

section
variable {m : Mach} {p : Nat} {f : PtpPort → PtpPort} (hmac : ∀ x, (f x).mac = x.mac) (hbest : ∀ x, (f x).best = x.best)
  (hslave : slavePort (setPport m p f) = slavePort m)
include hmac hbest hslave

theorem announceBody_setPport : announceBody (setPport m p f) = announceBody m := by
  have hdpll : (setPport m p f).tmg.dpll = m.tmg.dpll := rfl
  have hsrc : (setPport m p f).dt.ptp.timesrc = m.dt.ptp.timesrc := rfl
  simp only [announceBody, ownClock_setPport hmac, hslave, pport_setPport_part PtpPort.best hbest, hdpll, hsrc]

omit hmac in
theorem leapFlags_setPport : leapFlags (setPport m p f) = leapFlags m := by
  have hflags : (setPport m p f).dt.ptp.flags = m.dt.ptp.flags := rfl
  simp only [leapFlags, hslave, pport_setPport_part PtpPort.best hbest, hflags]

end

/-! ### One message (R357, R361) -/

theorem ip4Header_length (id tos ttl proto len : Nat) {src dst : List Byte} (hs : src.length = 4) (hd : dst.length = 4) :
    (ip4Header id tos ttl proto len src dst).length = 20 := by
  simp [ip4Header, hs, hd]

/-- A UDP datagram is its header of 8 bytes and its payload. -/
theorem udp_eq (src dst : List Byte) (sport dport : Nat) (check : Bool) (b : List Byte) :
    ∃ h, h.length = 8 ∧ udp src dst sport dport check b = h ++ b := by
  refine ⟨_, ?_, rfl⟩
  simp

/-- The UDP payload stands 42 bytes into an untagged frame of IPv4 without options. -/
theorem drop_ethFrame_udp (dst src id tos ttl len sport dport : Nat) (check : Bool) {a d : List Byte} (ha : a.length = 4)
    (hd : d.length = 4) (b : List Byte) :
    ((ethFrame dst src none 0x0800 (ip4Header id tos ttl 17 len a d ++ udp a d sport dport check b)).drop 42).take b.length = b := by
  obtain ⟨h, hh, hudp⟩ := udp_eq a d sport dport check b
  have hframe : ∃ z, ethFrame dst src none 0x0800 (ip4Header id tos ttl 17 len a d ++ udp a d sport dport check b) =
      (be 6 dst ++ be 6 src ++ be 2 0x0800 ++ ip4Header id tos ttl 17 len a d ++ h) ++ (b ++ z) := by
    rw [hudp]
    exact ⟨_, by simp only [ethFrame, List.append_nil, List.append_assoc]; rfl⟩
  obtain ⟨z, hz⟩ := hframe
  have hlen : (be 6 dst ++ be 6 src ++ be 2 0x0800 ++ ip4Header id tos ttl 17 len a d ++ h).length = 42 := by
    simp only [List.length_append, be_length, ip4Header_length _ _ _ _ _ ha hd, hh]
  rw [hz, ← hlen, List.drop_left, List.take_left]

/-- `n` messages have been put in the queue of MAC `k`, `b` first, and nothing has moved beside the port, the queue and the free values. -/
def ptpSends (m m' : Mach) (k n : Nat) (b : List Byte) : Prop :=
  m' = { m with dt := m'.dt, eth := m'.eth, free := m'.free } ∧
    ∃ l, (mac m' k).txq = (mac m k).txq ++ l ∧ l.length = n ∧ (l.head?.map fun z => (z.frame.drop 42).take b.length) = some b

theorem ptpSends.trans {m n o : Mach} {k i j : Nat} {b c : List Byte} (h : ptpSends m n k i b) (h' : ptpSends n o k j c) :
    ptpSends m o k (i + j) b := by
  obtain ⟨hn, l, hq, hl, hhead⟩ := h
  obtain ⟨ho, l', hq', hl', -⟩ := h'
  refine ⟨by rw [ho, hn], l ++ l', by rw [hq', hq, List.append_assoc], by rw [List.length_append, hl, hl'], ?_⟩
  cases l with
  | nil => cases hhead
  | cons z l => exact hhead

/-- A message's first bytes are a message's first bytes. -/
theorem ptpSends.of_append {m m' : Mach} {k n : Nat} {b c : List Byte} (h : ptpSends m m' k n (b ++ c)) : ptpSends m m' k n b := by
  obtain ⟨honly, l, hq, hl, hhead⟩ := h
  refine ⟨honly, l, hq, hl, ?_⟩
  cases l with
  | nil => cases hhead
  | cons z l =>
    have hmsg := congrArg (List.take b.length) (Option.some.inj hhead)
    rw [List.take_take, List.take_left, Nat.min_eq_left (by simp)] at hmsg
    exact congrArg some hmsg

/-- A message to the group over IPv4 takes a free value, is counted if it is an event message, and is put in the queue. -/
theorem sendPtp_eq {m : Mach} {p k : Nat} (event : Bool) (b : List Byte) (hk : (pport m p).mac = some k)
    (hv4 : bit (pport m p).flags 0 = false) (hip : (iface m k).ip4.length = 4) :
    ∃ frame, sendPtp m p event none b =
        queueFrame (if event then setPport (fresh m).2 p fun x => { x with txEvt := sat x.txEvt 1 } else (fresh m).2) k none 0 frame ∧
      (frame.drop 42).take b.length = b := by
  have hgroup : (ptpGroup false).length = 4 := rfl
  unfold sendPtp
  simp only [hk, hv4, Option.getD_some, Option.map_none, Option.getD_none, Bool.false_eq_true, if_false]
  exact ⟨_, rfl, drop_ethFrame_udp _ _ _ _ _ _ _ _ _ hip hgroup b⟩

/-- What a message leaves of its port: an event message is counted. -/
theorem pport_sendPtp {m : Mach} {p k : Nat} (event : Bool) (b : List Byte) (hk : (pport m p).mac = some k)
    (hv4 : bit (pport m p).flags 0 = false) (hip : (iface m k).ip4.length = 4) :
    pport (sendPtp m p event none b) p = if event then { pport m p with txEvt := sat (pport m p).txEvt 1 } else pport m p := by
  obtain ⟨frame, hsend, -⟩ := sendPtp_eq event b hk hv4 hip
  rw [hsend]
  cases event
  · rfl
  · exact pport_setPport_same (fresh m).2 p fun x => { x with txEvt := sat x.txEvt 1 }

theorem ptpSends_sendPtp {m : Mach} {p k : Nat} (event : Bool) (b : List Byte) (hk : (pport m p).mac = some k)
    (hv4 : bit (pport m p).flags 0 = false) (hip : (iface m k).ip4.length = 4) : ptpSends m (sendPtp m p event none b) k 1 b := by
  obtain ⟨frame, hsend, hmsg⟩ := sendPtp_eq event b hk hv4 hip
  rw [hsend]
  unfold queueFrame
  cases event <;> exact ⟨rfl, _, congrArg Mac.txq (mac_setMac_same ..), rfl, congrArg some hmsg⟩

section
variable {m : Mach} {p k : Nat} {f : PtpPort → PtpPort} (event : Bool) (b : List Byte) (hk : (pport m p).mac = some k)
  (hv4 : bit (pport m p).flags 0 = false) (hip : (iface m k).ip4.length = 4) (hmac : ∀ x, (f x).mac = x.mac) (hflags : ∀ x, (f x).flags = x.flags)
include hk hv4 hip hmac hflags

/-- A message after a change of its port that leaves the port's MAC and flags. -/
theorem ptpSends_setPport : ptpSends m (sendPtp (setPport m p f) p event none b) k 1 b := by
  obtain ⟨honly, l, hq, hl, hmsg⟩ := ptpSends_sendPtp (m := setPport m p f) event b (by rw [pport_setPport_same, hmac, hk])
    (by rw [pport_setPport_same, hflags, hv4]) hip
  exact ⟨honly, l, hq, hl, hmsg⟩

theorem pport_sendPtp_setPport : pport (sendPtp (setPport m p f) p event none b) p =
    if event then { f (pport m p) with txEvt := sat (f (pport m p)).txEvt 1 } else f (pport m p) := by
  rw [pport_sendPtp (m := setPport m p f) event b (by rw [pport_setPport_same, hmac, hk])
    (by rw [pport_setPport_same, hflags, hv4]) hip, pport_setPport_same]

end

/-! ### PTP_MESSAGE_SEND (R357, R358, R362) -/

/-- A port that has counted a Sync, an Announce, a Management message or a Delay_Req. -/
def withSync (seq : Nat) (x : PtpPort) : PtpPort := { x with seqSync := seq }
def withAnnounce (seq : Nat) (x : PtpPort) : PtpPort := { x with seqAnn := seq }
def withManagement (seq : Nat) (x : PtpPort) : PtpPort := { x with seqMgmt := seq }
def withRequest (at_ : Int) (seq : Nat) (x : PtpPort) : PtpPort := { x with t3 := at_, seqReq := seq }

section
variable {m : Mach} {p k : Nat} (stamp : Int) (hsp : speaks m = true) (hsend : macSends m k = true) (hk : (pport m p).mac = some k)

/-- A port that may not send, or that has no part in the message, sends nothing. -/
theorem ptpSend_silent {kind : Nat} (hk : (pport m p).mac = some k) (h : speaks m = false ∨ macSends m k = false) : ptpSend p kind stamp m = m := by
  refine if_pos ?_
  rw [hk]
  rcases h with h | h
  · exact .inl (by rw [h]; rfl)
  · exact .inr (.inr (by rw [Option.getD_some, h]; rfl))

theorem ptpSend_request_other (hst : (pport m p).st ∉ [2, 3]) : ptpSend p 1 stamp m = m := by
  have : (pport m p).st ≠ 2 ∧ (pport m p).st ≠ 3 := by simpa using hst
  simp only [ptpSend, if_true, this, ne_eq, not_false_eq_true, and_self, ite_self]

theorem ptpSend_master_other {kind : Nat} (hkind : kind ≠ 1) (hst : (pport m p).st ≠ 4) : ptpSend p kind stamp m = m := by
  simp only [ptpSend, if_neg hkind, if_pos hst, ite_self]

include hsp hsend hk

theorem ptpSend_allowed : ¬ ((!speaks m) = true ∨ (pport m p).mac.isNone = true ∨ (!macSends m ((pport m p).mac.getD 0)) = true) := by
  simp [hsp, hsend, hk]

theorem ptpSend_sync (hst : (pport m p).st = 4) (hone : bit m.dt.ptp.flags 2 = false) :
    let y := pport m p
    let at_ := stampPs stamp + y.txdly
    let seq := (y.seqSync + 1) % 65536
    ptpSend p 0 stamp m = sendPtp (setPport m p (withSync seq)) p true none
      (ptpMsg m p 0 0 seq (subNs at_) 0 (logByte y.logSync) (ptpStamp at_)) := by
  intro y at_ seq
  unfold ptpSend
  rw [if_neg (ptpSend_allowed hsp hsend hk), if_neg (by decide), if_neg (not_not.2 hst)]
  exact (if_neg (ne_true_of_eq_false hone)).trans (congrArg (sendPtp _ p true none) (ptpMsg_setPport (f := withSync seq) (fun _ => rfl) ..))

/-- A Sync of a two-step clock is followed by its Follow_Up. -/
theorem ptpSend_twoStep (hst : (pport m p).st = 4) (htwo : bit m.dt.ptp.flags 2 = true) :
    let y := pport m p
    let seq := (y.seqSync + 1) % 65536
    ∃ b, ptpSend p 0 stamp m = sendPtp (sendPtp (setPport m p (withSync seq)) p true none
      (ptpMsg m p 0 0x0200 seq 0 0 (logByte y.logSync) (List.replicate 10 0))) p false none b := by
  intro y seq
  unfold ptpSend
  rw [if_neg (ptpSend_allowed hsp hsend hk), if_neg (by decide), if_neg (not_not.2 hst)]
  have hmsg := ptpMsg_setPport (f := withSync seq) (fun _ => rfl) m p p 0 0x0200 seq 0 0 (logByte y.logSync) (List.replicate 10 0)
  exact ⟨_, (if_pos htwo).trans (congrArg (fun b => sendPtp (sendPtp _ p true none b) p false none _) hmsg)⟩

theorem ptpSend_announce (hst : (pport m p).st = 4) :
    let y := pport m p
    let seq := (y.seqAnn + 1) % 65536
    ptpSend p 11 stamp m = sendPtp (setPport m p (withAnnounce seq)) p false none
      (ptpMsg m p 11 (0x0C + leapFlags m) seq 0 5 (logByte y.logAnn) (announceBody m)) := by
  intro y seq
  have hslave : slavePort (setPport m p (withAnnounce seq)) = slavePort m :=
    slavePort_setPport (fun _ => rfl) (by rw [hst]; decide)
  unfold ptpSend
  rw [if_neg (ptpSend_allowed hsp hsend hk), if_neg (by decide), if_neg (not_not.2 hst),
    ← announceBody_setPport (f := withAnnounce seq) (fun _ => rfl) (fun _ => rfl) hslave,
    ← leapFlags_setPport (f := withAnnounce seq) (fun _ => rfl) hslave]
  exact congrArg (sendPtp _ p false none) (ptpMsg_setPport (f := withAnnounce seq) (fun _ => rfl) ..)

theorem ptpSend_management (hst : (pport m p).st = 4) :
    let seq := ((pport m p).seqMgmt + 1) % 65536
    ∃ b, ptpSend p 13 stamp m = sendPtp (fresh (setPport m p (withManagement seq))).2 p false none ([0x0D#8, 0x02#8] ++ b) := by
  intro seq
  unfold ptpSend
  rw [if_neg (ptpSend_allowed hsp hsend hk), if_neg (by decide), if_neg (not_not.2 hst)]
  simp only [ptpMsg, List.append_assoc]
  exact ⟨_, rfl⟩

theorem ptpSend_request (hst : (pport m p).st = 2 ∨ (pport m p).st = 3) (hgroup : bit (pport m p).flags 2 = false) :
    let y := pport m p
    let at_ := stampPs stamp + y.txdly
    let seq := (y.seqReq + 1) % 65536
    ptpSend p 1 stamp m = sendPtp (setPport m p (withRequest at_ seq)) p true none
      (ptpMsg m p 1 0 seq (at_ * 65536 / 1000 % (2 ^ 64 : Int)).toNat 1 0x7F (List.replicate 10 0)) := by
  intro y at_ seq
  have hslave : ¬ ((pport m p).st ≠ 2 ∧ (pport m p).st ≠ 3) := by omega
  unfold ptpSend
  rw [if_neg (ptpSend_allowed hsp hsend hk), if_pos rfl, if_neg hslave]
  simp only [hgroup, Bool.false_eq_true, if_false]
  exact congrArg (sendPtp _ p true none) (ptpMsg_setPport (f := withRequest at_ seq) (fun _ => rfl) ..)

theorem ptpSend_twoStep_sends (hv4 : bit (pport m p).flags 0 = false) (hip : (iface m k).ip4.length = 4) (hst : (pport m p).st = 4)
    (htwo : bit m.dt.ptp.flags 2 = true) :
    let y := pport m p
    let seq := (y.seqSync + 1) % 65536
    ptpSends m (ptpSend p 0 stamp m) k 2 (ptpMsg m p 0 0x0200 seq 0 0 (logByte y.logSync) (List.replicate 10 0)) ∧
      pport (ptpSend p 0 stamp m) p = { withSync seq y with txEvt := sat y.txEvt 1 } := by
  intro y seq
  obtain ⟨b, heq⟩ := ptpSend_twoStep stamp hsp hsend hk hst htwo
  have hmac (x : PtpPort) : (withSync seq x).mac = x.mac := rfl
  have hflags (x : PtpPort) : (withSync seq x).flags = x.flags := rfl
  have hfirst := ptpSends_setPport true (ptpMsg m p 0 0x0200 seq 0 0 (logByte y.logSync) (List.replicate 10 0)) hk hv4 hip hmac hflags
  have hport := pport_sendPtp_setPport true (ptpMsg m p 0 0x0200 seq 0 0 (logByte y.logSync) (List.replicate 10 0)) hk hv4 hip hmac hflags
  have hk' := (congrArg PtpPort.mac hport).trans hk
  have hv4' := (congrArg (fun z : PtpPort => bit z.flags 0) hport).trans hv4
  have hip' : (iface (sendPtp (setPport m p (withSync seq)) p true none
      (ptpMsg m p 0 0x0200 seq 0 0 (logByte y.logSync) (List.replicate 10 0))) k).ip4.length = 4 := by
    rw [hfirst.1]; exact hip
  rw [heq]
  exact ⟨hfirst.trans (ptpSends_sendPtp false b hk' hv4' hip'), (pport_sendPtp false b hk' hv4' hip').trans hport⟩

theorem ptpSend_management_sends (hv4 : bit (pport m p).flags 0 = false) (hip : (iface m k).ip4.length = 4) (hst : (pport m p).st = 4) :
    ptpSends m (ptpSend p 13 stamp m) k 1 [0x0D#8, 0x02#8] ∧
      pport (ptpSend p 13 stamp m) p = withManagement (((pport m p).seqMgmt + 1) % 65536) (pport m p) := by
  obtain ⟨b, heq⟩ := ptpSend_management stamp hsp hsend hk hst
  have hport : pport (fresh (setPport m p (withManagement (((pport m p).seqMgmt + 1) % 65536)))).2 p =
    withManagement (((pport m p).seqMgmt + 1) % 65536) (pport m p) := pport_setPport_same ..
  have hk' := (congrArg PtpPort.mac hport).trans hk
  have hv4' := (congrArg (fun z : PtpPort => bit z.flags 0) hport).trans hv4
  obtain ⟨honly, l, hq, hl, hhead⟩ := (ptpSends_sendPtp false ([0x0D#8, 0x02#8] ++ b) hk' hv4' hip).of_append
  rw [heq]
  exact ⟨⟨honly, l, hq, hl, hhead⟩, (pport_sendPtp false _ hk' hv4' hip).trans hport⟩

end

/-! ### The decision (R361, R363) -/

/-- The state that the decision gives port `p` of state `x`. -/
def portState (now : Nat → Bool) (m : Mach) (p : Nat) (x : PtpPort) : Nat :=
  if !claiming m then 1
  else
    let d := decided m p
    let st := if d = 4 then (if bit x.flags 1 then 1 else if x.st = 1 ∧ x.best.isNone ∧ !now p then 1 else 4)
      else if d = 3 then (if x.st = 3 then 3 else 2)
      else d
    if st = 5 ∧ bit x.flags 1 then 1 else st

def setPortStates (now : Nat → Bool) (m : Mach) (l : List Nat) (n : Mach) : Mach :=
  l.foldl (fun n p => setPport n p fun x => { x with st := portState now m p x }) n

theorem bmca_eq (now : Nat → Bool) (m : Mach) : bmca now m = servoPort m (setPortStates now m (pports m) m) := by
  unfold bmca setPortStates portState
  cases claiming m <;> rfl

theorem ports_servoPort (m n : Mach) : (servoPort m n).dt.ptp.ports = n.dt.ptp.ports := by
  unfold servoPort
  split
  · rfl
  · rfl
  · dsimp only
    split <;> rfl

theorem servoPort_eq (m n : Mach) : servoPort m n = { n with dt := (servoPort m n).dt } := by
  unfold servoPort
  split
  · rfl
  · rfl
  · dsimp only
    split <;> rfl

theorem setPortStates_eq (now : Nat → Bool) (m : Mach) (l : List Nat) (n : Mach) :
    setPortStates now m l n = { n with dt := (setPortStates now m l n).dt } := by
  induction l generalizing n with
  | nil => rfl
  | cons p l ih => exact ih (setPport n p _)

theorem bmca_dt (now : Nat → Bool) (m : Mach) : bmca now m = { m with dt := (bmca now m).dt } := by
  rw [bmca_eq, servoPort_eq, setPortStates_eq]

theorem pport_setPortStates_other {now : Nat → Bool} {m : Mach} {l : List Nat} {p : Nat} (h : p ∉ l) (n : Mach) :
    pport (setPortStates now m l n) p = pport n p := by
  induction l generalizing n with
  | nil => rfl
  | cons q l ih =>
    obtain ⟨hq, hl⟩ := List.ne_and_not_mem_of_not_mem_cons h
    exact (ih hl _).trans (pport_setPport_other n _ hq)

theorem pport_setPortStates {now : Nat → Bool} {m : Mach} {l : List Nat} {p : Nat} (h : p ∈ l) (hnd : l.Nodup) (n : Mach) :
    pport (setPortStates now m l n) p = { pport n p with st := portState now m p (pport n p) } := by
  induction l generalizing n with
  | nil => cases h
  | cons q l ih =>
    obtain ⟨hq, hnd⟩ := List.nodup_cons.1 hnd
    by_cases heq : p = q
    · subst heq
      exact (pport_setPortStates_other hq _).trans (pport_setPport_same n p fun x => { x with st := portState now m p x })
    · refine (ih ((List.mem_cons.1 h).resolve_left heq) hnd _).trans ?_
      rw [pport_setPport_other _ _ heq]

theorem mem_pports {m : Mach} {p : Nat} (hp : p < 16) (h : (pport m p).mac.isSome = true) : p ∈ pports m :=
  List.mem_filter.2 ⟨List.mem_range.2 hp, h⟩

/-- An enabled port takes the state of the decision and keeps all else. -/
theorem pport_bmca {now : Nat → Bool} {m : Mach} {p : Nat} (hp : p < 16) (h : (pport m p).mac.isSome = true) :
    pport (bmca now m) p = { pport m p with st := portState now m p (pport m p) } := by
  rw [bmca_eq, ← pport_setPortStates (mem_pports hp h) (List.nodup_range.filter _) m]
  exact congrArg (fun t => tget {} t p) (ports_servoPort ..)

/-- A lone port that hears no master is master of its own clock. -/
theorem decided_alone {m : Mach} {p : Nat} (hbest : (pport m p).best = none) (halone : pports m = [p]) : decided m p = 4 := by
  have hmaster : bestMaster m = none := by
    rw [bestMaster, halone]; simp [hbest]
  simp only [decided, hbest, hmaster, Option.all_none, if_true, ite_self]

/-- A port without its masters, after the receipt timeout. -/
def forgetMasters (x : PtpPort) : PtpPort := { x with annTo := sat x.annTo 1, foreign := [], best := none }

theorem announceTimeout_eq {m : Mach} {p : Nat} (h : (pport m p).mac.isSome = true) :
    announceTimeout p m = bmca (fun q => q == p) (setPport m p forgetMasters) := by
  refine if_neg ?_
  rw [← Option.not_isSome, h]; decide

theorem pport_announceTimeout {m : Mach} {p : Nat} (hp : p < 16) (h : (pport m p).mac.isSome = true) :
    let n := setPport m p forgetMasters
    pport (announceTimeout p m) p =
      { forgetMasters (pport m p) with st := portState (fun q => q == p) n p (forgetMasters (pport m p)) } := by
  intro n
  have hsame : pport n p = forgetMasters (pport m p) := pport_setPport_same ..
  rw [announceTimeout_eq h, pport_bmca hp (by rw [hsame]; exact h), hsame]

theorem portState_alone {m : Mach} {p : Nat} {x : PtpPort} (hc : claiming m = true) (hd : decided m p = 4) :
    portState (fun q => q == p) m p x = if bit x.flags 1 then 1 else 4 := by
  unfold portState
  simp only [hc, hd, Bool.not_true, Bool.false_eq_true, if_false, if_true, beq_self_eq_true, and_false]
  split_ifs <;> simp_all

end Sys2Proof.Machine

namespace Sys2Proof.Proofs
open Sys2Proof.Machine Sys2Proof.Safety

/-- What `n` messages queued at their MAC leave, as the obligation says it. -/
theorem answers_of_ptpSends {s : State} {p kind k n : Nat} {x : PtpMeas} {P : State → Prop} {msg : List Byte} (hp : p < 16)
    (h : ptpSends s.toMach (ptpSend p kind x.stamp s.toMach) k n msg)
    (hP : ∀ t : State, t.toMach = ptpSend p kind x.stamp s.toMach → P t) :
    Answers (.ptpMessageSend p kind x) s fun t => t.toMach = { s.toMach with dt := t.dt, eth := t.eth, free := t.free } ∧
      ((mac t.toMach k).txq.take (mac s.toMach k).txq.length, (mac t.toMach k).txq.length) =
        ((mac s.toMach k).txq, (mac s.toMach k).txq.length + n) ∧ P t ∧
      (((mac t.toMach k).txq.drop (mac s.toMach k).txq.length).head?.map fun z => (z.frame.drop 42).take msg.length) = some msg := by
  obtain ⟨honly, l, hq, hl, hhead⟩ := h
  refine answers_of_runIf rfl (decide_eq_true hp) ⟨honly, ?_, hP _ rfl, ?_⟩
  · rw [hq, List.take_left, List.length_append, hl]
  · rw [hq, List.drop_left, hhead]

/-- A message that its port's change precedes. -/
theorem answers_of_sendPtp {s : State} {p kind k : Nat} {x : PtpMeas} {P : State → Prop} {msg : List Byte} {f : PtpPort → PtpPort} {event : Bool}
    (hp : p < 16) (heq : ptpSend p kind x.stamp s.toMach = sendPtp (setPport s.toMach p f) p event none msg)
    (hk : (pport s.toMach p).mac = some k) (hv4 : bit (pport s.toMach p).flags 0 = false) (hip : (iface s.toMach k).ip4.length = 4)
    (hmac : ∀ x, (f x).mac = x.mac) (hflags : ∀ x, (f x).flags = x.flags)
    (hP : ∀ t : State, pport t.toMach p =
      (if event then { f (pport s.toMach p) with txEvt := sat (f (pport s.toMach p)).txEvt 1 } else f (pport s.toMach p)) → P t) :
    Answers (.ptpMessageSend p kind x) s fun t => t.toMach = { s.toMach with dt := t.dt, eth := t.eth, free := t.free } ∧
      ((mac t.toMach k).txq.take (mac s.toMach k).txq.length, (mac t.toMach k).txq.length) =
        ((mac s.toMach k).txq, (mac s.toMach k).txq.length + 1) ∧ P t ∧
      (((mac t.toMach k).txq.drop (mac s.toMach k).txq.length).head?.map fun z => (z.frame.drop 42).take msg.length) = some msg := by
  refine answers_of_ptpSends hp (heq ▸ ptpSends_setPport event msg hk hv4 hip hmac hflags) fun t ht => hP t ?_
  rw [ht, heq, pport_sendPtp_setPport event msg hk hv4 hip hmac hflags]

/-- Settles O46: a message is the law of its kind, queued by `sendPtp`; a timeout forgets the masters and leaves the decision's state. -/
theorem ptpProceeds : Obligations.PtpProceeds := by
  unfold Obligations.PtpProceeds
  refine ⟨fun s p kind k x hp hk => ⟨fun h => ?_, fun hkind hst => ?_, fun hkind hst => ?_⟩,
    fun s p k x hp hk _ hsp hsend hv4 hip => ⟨fun hst hone => ?_, fun hst htwo => ?_, fun hst => ?_, fun hst => ?_, fun hst hgroup => ?_⟩,
    fun s p hp => ⟨fun hmac => ?_, fun hmac => ?_⟩⟩
  · exact takes_of_runIf rfl (decide_eq_true hp) (ptpSend_silent _ hk h)
  · subst hkind
    exact takes_of_runIf rfl (decide_eq_true hp) (ptpSend_request_other _ hst)
  · exact takes_of_runIf rfl (decide_eq_true hp) (ptpSend_master_other _ hkind hst)
  · refine answers_of_sendPtp hp (ptpSend_sync x.stamp hsp hsend hk hst hone) hk hv4 hip (fun _ => rfl) (fun _ => rfl) fun t ht => ?_
    rw [ht]; exact ⟨rfl, rfl⟩
  · obtain ⟨hsends, hport⟩ := ptpSend_twoStep_sends x.stamp hsp hsend hk hv4 hip hst htwo
    refine answers_of_ptpSends hp hsends fun t ht => ?_
    rw [ht, hport]; exact ⟨rfl, rfl⟩
  · refine answers_of_sendPtp hp (ptpSend_announce x.stamp hsp hsend hk hst) hk hv4 hip (fun _ => rfl) (fun _ => rfl) fun t ht => ?_
    rw [ht]; exact ⟨rfl, rfl⟩
  · obtain ⟨hsends, hport⟩ := ptpSend_management_sends x.stamp hsp hsend hk hv4 hip hst
    refine answers_of_ptpSends hp hsends fun t ht => ?_
    rw [ht, hport]; rfl
  · refine answers_of_sendPtp hp (ptpSend_request x.stamp hsp hsend hk hst hgroup) hk hv4 hip (fun _ => rfl) (fun _ => rfl) fun t ht => ?_
    rw [ht]; exact ⟨rfl, rfl⟩
  · exact takes_of_runIf rfl (decide_eq_true hp) (if_pos (by rw [hmac]; rfl))
  · have hport := pport_announceTimeout hp hmac
    refine answers_of_runIf rfl (decide_eq_true hp) ⟨?_, ?_⟩
    · dsimp only
      rw [announceTimeout_eq hmac, bmca_dt]
      rfl
    · dsimp only
      rw [hport]
      refine ⟨rfl, rfl, rfl, fun hno => ?_, fun hyes halone => ?_⟩
      · exact if_pos (by rw [show claiming (setPport s.toMach p forgetMasters) = claiming s.toMach from rfl, hno]; rfl)
      · exact portState_alone hyes (decided_alone (congrArg PtpPort.best (pport_setPport_same ..)) ((pports_setPport (f := forgetMasters) (fun _ => rfl) ..).trans halone))

end Sys2Proof.Proofs

/-! SUPPORT. The memory stacks: a scrub count beyond its counter's range. -/
namespace Sys2Proof.Proofs
open Sys2Proof.Machine Sys2Proof.Safety

/-- Pseudo-channel 0 has counted 2^32 scrub findings, one more than its counter holds. -/
def overScrubbed : State := { State.reset with mem := { State.reset.mem with pcs := [(0, { scrub := 2 ^ 32 })] } }

/-- A clean unit leaves the count as it is. -/
theorem scrub_overScrubbed : (pc (patrolScrub 0 0 0 overScrubbed.toMach) 0).scrub = 2 ^ 32 := by decide +kernel

/-- Refutes O49: a clean unit (R384) leaves a pseudo-channel's count of scrub findings as it is, also where the count exceeds the
counter's range, which the statement's ninth clause caps. -/
theorem not_memoryProceeds : ¬ Obligations.MemoryProceeds := by
  unfold Obligations.MemoryProceeds
  rintro ⟨-, -, -, -, -, -, -, -, hscrub, -⟩
  obtain ⟨-, hruns⟩ := hscrub overScrubbed 0 0 0 (by decide)
  obtain ⟨t, ht, -, -, hcount, -⟩ := hruns (by decide)
  have hmach : t.toMach = patrolScrub 0 0 0 overScrubbed.toMach := by
    obtain ⟨t', ht', hm⟩ := answers_of_runIf (i := .patrolScrub 0 0 0) (s := overScrubbed) (P := fun t =>
      t.toMach = patrolScrub 0 0 0 overScrubbed.toMach) rfl rfl rfl
    rw [ht, Host.Outcome.next.injEq] at ht'
    rw [ht', hm]
  rw [hmach, scrub_overScrubbed] at hcount
  exact absurd hcount (by decide)

end Sys2Proof.Proofs

/-! SUPPORT. Snapshots: what a trigger does, by what stands in its way. -/
namespace Sys2Proof.Machine
open Sys2Proof.Safety

/-- A pseudo-channel captured by a snapshot: the armed registers take its kind, its ID and its instant (R382). -/
def Pc.snapped (p : Pc) (id now v : Nat) : Pc :=
  { p with capKind := 2, capId := id, capAt := now, capAddr := Config.unstated v % 2 ^ 24 * 64, capPort := Config.unstated (v + 1) % 128,
           capBank := Config.unstated (v + 2) % 32, capRow := Config.unstated (v + 3) % 2 ^ 14 }

/-- Pseudo-channel `n` is captured if it is armed. -/
def capturedPc (id now seed : Nat) (t : Tab Pc) (n : Nat) : Tab Pc :=
  if (tget {} t n : Pc).armed then tset t n ((tget {} t n : Pc).snapped id now (seed + 4 * n)) else t

theorem capturedPc_armed {id now seed : Nat} {t : Tab Pc} {n : Nat} (h : (tget {} t n : Pc).armed = true) :
    tget {} (capturedPc id now seed t n) n = (tget {} t n : Pc).snapped id now (seed + 4 * n) := by
  rw [capturedPc, if_pos h, tget_tset_same]

theorem capturedPc_other {id now seed : Nat} {t : Tab Pc} {j n : Nat} (h : j ≠ n) :
    tget {} (capturedPc id now seed t n) j = (tget {} t j : Pc) := by
  unfold capturedPc
  split
  · exact tget_tset_other _ _ _ h
  · rfl

/-- The captures of the pseudo-channels of a list. -/
def capturedPcs (id now seed : Nat) (t : Tab Pc) (l : List Nat) : Tab Pc := l.foldl (capturedPc id now seed) t

theorem capturePcs_eq (m : Mach) (id : Nat) : capturePcs m id =
    { m with mem := { m.mem with pcs := capturedPcs id m.dt.t m.free m.mem.pcs (List.range 128) }, free := m.free + 512 } := rfl

theorem capturedPcs_other {id now seed : Nat} {t : Tab Pc} {l : List Nat} {n : Nat} (h : n ∉ l) :
    tget {} (capturedPcs id now seed t l) n = (tget {} t n : Pc) := by
  induction l generalizing t with
  | nil => rfl
  | cons k l ih =>
    obtain ⟨hk, hl⟩ := List.ne_and_not_mem_of_not_mem_cons h
    exact (ih hl).trans (capturedPc_other hk)

/-- An armed pseudo-channel of the list is captured. -/
theorem capturedPcs_armed {id now seed : Nat} {t : Tab Pc} {l : List Nat} {n : Nat} (h : n ∈ l) (hnd : l.Nodup)
    (harmed : (tget {} t n : Pc).armed = true) :
    tget {} (capturedPcs id now seed t l) n = (tget {} t n : Pc).snapped id now (seed + 4 * n) := by
  induction l generalizing t with
  | nil => cases h
  | cons k l ih =>
    obtain ⟨hk, hnd⟩ := List.nodup_cons.1 hnd
    by_cases heq : n = k
    · subst heq
      exact (capturedPcs_other hk).trans (capturedPc_armed harmed)
    · have hkeep : tget {} (capturedPc id now seed t k) n = (tget {} t n : Pc) := capturedPc_other heq
      exact (ih ((List.mem_cons.1 h).resolve_left heq) hnd (by rw [hkeep]; exact harmed)).trans (by rw [hkeep])

/-- The slot of a snapshot that a trigger of source `source` takes. -/
def takenSlot (m : Mach) (source : Nat) (msg : BitVec 64) : SnapSlot :=
  { id := m.snp.nextId, st := 1, mask := 2 ^ source, epoch := m.xb.epoch, instant := m.dt.t,
    swcnt := ((plane m 0).nextSw - 1) % 2 ^ 32, msg, grave := source == 5 }

section
variable {m : Mach} {source k : Nat} {msg : BitVec 64}

theorem snapTrigger_full (hbusy : m.snp.busy = none) (hslot : snapSlot m = none) :
    (snapTrigger m source msg).1 = { m with snp := { m.snp with missed := sat m.snp.missed 1 } } := by
  simp only [snapTrigger, hbusy, hslot]

theorem snapTrigger_busy (hbusy : m.snp.busy = some k) (hinstant : (lget {} m.snp.slots k).instant ≠ m.dt.t) :
    (snapTrigger m source msg).1 = { m with snp := { m.snp with missed := sat m.snp.missed 1 } } := by
  simp only [snapTrigger, hbusy, if_neg hinstant]

theorem snapTrigger_taken (hbusy : m.snp.busy = none) (hslot : snapSlot m = some k) :
    (snapTrigger m source msg).1 = { capturePcs { m with images := tset m.images k m.toBlocks } m.snp.nextId with
      snp := { m.snp with slots := lmod m.snp.slots k fun _ => takenSlot m source msg, busy := some k, lastId := m.snp.nextId,
                          nextId := if m.snp.nextId + 1 = 2 ^ 32 then 1 else m.snp.nextId + 1, triggers := sat m.snp.triggers 1 } } := by
  simp only [snapTrigger, hbusy, hslot]
  rfl

end

/-- An edge of SNAP_TRIG that triggers: the source is enabled, the pin is high long enough and carries no PPS (R527). -/
theorem trigEdge_on {m : Mach} {high : Nat} (h : bit m.snp.enables 0 = true ∧ 20 ≤ high ∧ m.dt.pps = false) :
    trigEdge high m = (snapTrigger m 0).1 := by
  obtain ⟨hbit, hhigh, hpps⟩ := h
  simp [trigEdge, hbit, hhigh, hpps]

theorem trigEdge_off {m : Mach} {high : Nat} (h : ¬ (bit m.snp.enables 0 = true ∧ 20 ≤ high ∧ m.dt.pps = false)) : trigEdge high m = m := by
  refine if_neg ?_
  simpa [and_assoc] using h

end Sys2Proof.Machine

namespace Sys2Proof.Proofs
open Sys2Proof.Machine Sys2Proof.Safety

/-- Settles O48: a trigger is missed or taken by whether a copy runs and a slot is free, and the copy's end frees the copier. -/
theorem snapshotsProceed : Obligations.SnapshotsProceed := by
  unfold Obligations.SnapshotsProceed
  refine ⟨fun s high => ⟨fun hoff => ?_, fun hon hbusy hslot => ?_, fun hon k hbusy hinstant => ?_, fun hon hbusy k hslot => ?_⟩,
    fun s => ⟨fun hbusy => ?_, fun k hbusy => ?_⟩⟩
  · exact takes_of_run rfl (trigEdge_off hoff)
  · exact takes_of_run rfl ((trigEdge_on hon).trans (snapTrigger_full hbusy hslot))
  · exact takes_of_run rfl ((trigEdge_on hon).trans (snapTrigger_busy hbusy hinstant))
  · refine answers_of_run rfl ?_
    have htaken : trigEdge high s.toMach = _ := (trigEdge_on hon).trans (snapTrigger_taken hbusy hslot)
    dsimp only
    rw [htaken, capturePcs_eq]
    refine ⟨rfl, rfl, tget?_tset_same .., by dsimp only, fun n hn harmed => ?_⟩
    dsimp only
    rw [capturedPcs_armed (List.mem_range.2 hn) List.nodup_range harmed]
    exact ⟨rfl, rfl, rfl⟩
  · exact takes_of_run rfl (by rw [copyComplete, hbusy])
  · exact takes_of_run rfl (by rw [copyComplete, Option.mem_def.1 hbusy])

end Sys2Proof.Proofs

/-! SUPPORT. What events, and faults below C3, leave of the control block: the rings, the sessions' settings and the journal stay. -/
namespace Sys2Proof.Machine
open Sys2Proof.Safety

/-! ### What an event counts (R395, R426, R427) -/

/-- A session, a window and a session's counters without what posting an event moves. -/
def Session.still (x : Session) : Session := { x with unsig := 0, unsigAt := 0, eseq := 0, lost := 0, lostFirst := 0 }
def Window.still (w : Window) : Window := { w with evts := [], evtTail := 0 }
def SesCnt.still (c : SesCnt) : SesCnt := { c with evtLost := 0 }

def sesCnt (m : Mach) (n : Nat) : SesCnt := tget {} m.ctl.cnts n

theorem sesCnt_setCnt (m : Mach) (n : Nat) (f : SesCnt → SesCnt) (j : Nat) :
    sesCnt (setCnt m n f) j = if j = n then f (sesCnt m n) else sesCnt m j := by
  by_cases h : j = n
  · subst h; rw [if_pos rfl]; exact tget_tmod_same ..
  · rw [if_neg h]; exact tget_tmod_other _ _ _ _ h

/-- The control block has changed in nothing but what events move. -/
structure eventsOnly (m m' : Mach) : Prop where
  ctl : m'.ctl = { m.ctl with sessions := m'.ctl.sessions, windows := m'.ctl.windows, cnts := m'.ctl.cnts, irqs := m'.ctl.irqs }
  ses : ∀ n, (ses m' n).still = (ses m n).still
  win : ∀ n, (win m' n).still = (win m n).still
  cnt : ∀ n, (sesCnt m' n).still = (sesCnt m n).still

theorem eventsOnly.trans {a b c : Mach} (h : eventsOnly a b) (k : eventsOnly b c) : eventsOnly a c :=
  ⟨by rw [k.ctl, h.ctl], fun n => (k.ses n).trans (h.ses n), fun n => (k.win n).trans (h.win n), fun n => (k.cnt n).trans (h.cnt n)⟩

theorem eventsOnly_of_ctl {m m' : Mach} (h : m'.ctl = m.ctl) : eventsOnly m m' :=
  ⟨by rw [h], fun _ => by rw [Machine.ses, h]; rfl, fun _ => by rw [Machine.win, h]; rfl, fun _ => by rw [sesCnt, h]; rfl⟩

theorem eventsOnly.refl (m : Mach) : eventsOnly m m := eventsOnly_of_ctl rfl

theorem eventsOnly_foldl {α : Type} (g : Mach → α → Mach) (h : ∀ m x, eventsOnly m (g m x)) (l : List α) (m : Mach) :
    eventsOnly m (l.foldl g m) := by
  induction l generalizing m with
  | nil => exact .refl m
  | cons a l ih => exact (h m a).trans (ih (g m a))

/-- A change of a session that what events move alone takes part in. -/
theorem eventsOnly_setSes (m : Mach) (n : Nat) {f : Session → Session} (hf : ∀ x, (f x).still = x.still) : eventsOnly m (setSes m n f) := by
  refine ⟨rfl, fun j => ?_, fun _ => rfl, fun _ => rfl⟩
  by_cases h : j = n
  · subst h; rw [ses_setSes_same, hf]
  · rw [ses_setSes_other _ _ h]

theorem eventsOnly_setWin (m : Mach) (n : Nat) {f : Window → Window} (hf : ∀ x, (f x).still = x.still) : eventsOnly m (setWin m n f) := by
  refine ⟨rfl, fun _ => rfl, fun j => ?_, fun _ => rfl⟩
  by_cases h : j = n
  · subst h; rw [win_setWin_same, hf]
  · rw [win_setWin_other _ _ h]

theorem eventsOnly_setCnt (m : Mach) (n : Nat) {f : SesCnt → SesCnt} (hf : ∀ x, (f x).still = x.still) : eventsOnly m (setCnt m n f) := by
  refine ⟨rfl, fun _ => rfl, fun _ => rfl, fun j => ?_⟩
  rw [sesCnt_setCnt]
  split
  · next h => rw [hf, h]
  · rfl

theorem eventsOnly_signal (m : Mach) (n : Nat) : eventsOnly m (signal m n) := by
  have hfire (p : Nat) : eventsOnly m (fireVector m p n) := ⟨rfl, fun _ => rfl, fun _ => rfl, fun _ => rfl⟩
  unfold signal
  split
  · exact (hfire _).trans (eventsOnly_setSes _ _ fun _ => rfl)
  · exact .refl m

theorem eventsOnly_noteEntry (m : Mach) (n : Nat) (now : Bool) : eventsOnly m (noteEntry m n now) := by
  have hset : eventsOnly m (setSes m n fun x => { x with unsig := x.unsig + 1, unsigAt := if x.unsig = 0 then m.now else x.unsigAt }) :=
    eventsOnly_setSes _ _ fun _ => rfl
  unfold noteEntry
  dsimp only
  split
  · exact hset.trans (eventsOnly_signal _ n)
  · exact hset

theorem eventsOnly_postEvt (m : Mach) (n code g : Nat) (b : List Byte) : eventsOnly m (postEvt m n code g b) := by
  unfold postEvt
  dsimp only
  split
  · refine .trans ?_ (eventsOnly_setCnt _ _ ?_)
    · exact eventsOnly_setSes _ _ fun _ => rfl
    · exact fun _ => rfl
  · refine .trans ?_ (eventsOnly_noteEntry ..)
    refine .trans ?_ (eventsOnly_setSes _ _ ?_)
    · exact eventsOnly_setWin _ _ fun _ => rfl
    · exact fun _ => rfl

theorem eventsOnly_event (m : Mach) (code g : Nat) (b : List Byte) (also : Option Nat) : eventsOnly m (event m code g b also) :=
  eventsOnly_foldl _ (fun _ _ => eventsOnly_postEvt ..) _ m

theorem eventsOnly_faultEvt (m : Mach) (w : BitVec 64) (c : Nat) : eventsOnly m (faultEvt m w c) := eventsOnly_event ..
theorem eventsOnly_pairEvt (m : Mach) (c : Nat) : eventsOnly m (pairEvt m c) := eventsOnly_event ..
theorem eventsOnly_powerEvt (m : Mach) (c : Nat) : eventsOnly m (powerEvt m c) := eventsOnly_event ..
theorem eventsOnly_sessionEvt (m : Mach) (n what : Nat) : eventsOnly m (sessionEvt m n what) := eventsOnly_event ..

/-! ### Faults below C3 (R518 to R527) -/

theorem eventsOnly_reached {m : Mach} {old : Nat} {had : Bool} {r : FaultRec} (h : r.cls = 3 → had = true ∧ 3 ≤ old) :
    eventsOnly m (reached m old had r) := by
  have hnot : ((!had || decide (old < r.cls)) && r.cls == 3) = false := by
    by_cases h3 : r.cls = 3
    · obtain ⟨rfl, hle⟩ := h h3
      simp [h3]; omega
    · simp [h3]
  unfold reached
  simp only [hnot, Bool.false_eq_true, if_false]
  split
  · exact eventsOnly_of_ctl (snapTrigger_ctl ..)
  · exact .refl m

theorem eventsOnly_recordMsg (m : Mach) (src kind : Nat) {cls : Nat} (msg : BitVec 64) (cond inj : Bool) (hc : cls ≤ 2) :
    eventsOnly m (recordMsg m src kind cls msg cond inj).1 := by
  have hnew (r : FaultRec) (hb : r.base = cls) (he : r.escalated = false) : r.cls = 3 → false = true ∧ 3 ≤ 0 := by
    intro h3
    simp only [FaultRec.cls, he, hb, Bool.false_eq_true, if_false] at h3
    omega
  have hflt (f : Flt) {old : Nat} {had : Bool} {r : FaultRec} (h : r.cls = 3 → had = true ∧ 3 ≤ old) :
      eventsOnly m (reached { m with flt := f } old had r) :=
    (eventsOnly_of_ctl (m := m) (m' := { m with flt := f }) rfl).trans (eventsOnly_reached h)
  unfold recordMsg
  dsimp only
  split
  · exact hflt _ fun h => ⟨rfl, FaultRec.cls_join_lt hc h⟩
  · split
    · exact hflt _ (hnew _ rfl rfl)
    · split
      · exact eventsOnly_of_ctl rfl
      · split
        · exact hflt _ (hnew _ rfl rfl)
        · split
          · exact hflt _ fun h => ⟨rfl, FaultRec.cls_join_lt hc h⟩
          · exact hflt _ (hnew _ rfl rfl)

/-- A fault below C3 posts events and nothing else. -/
theorem eventsOnly_raise (m : Mach) (src kind : Nat) {cls : Nat} (addr : Nat) (hc : cls ≤ 2) :
    eventsOnly m (raise m src kind cls addr) := by
  unfold raise takeFault
  extract_lets seq msg flt m₁
  have h₂ := (eventsOnly_of_ctl (m := m) (m' := m₁) rfl).trans
    (eventsOnly_recordMsg m₁ src kind msg (condKinds.contains kind) false hc)
  generalize recordMsg m₁ src kind cls msg (condKinds.contains kind) false = x at h₂ ⊢
  obtain ⟨m₂, r⟩ := x
  dsimp -zeta only at h₂ ⊢
  extract_lets m₃ n
  have h₃ : eventsOnly m m₃ := h₂.trans (eventsOnly_of_ctl rfl)
  split
  · refine .trans ?_ (eventsOnly_faultEvt ..)
    exact h₃.trans (eventsOnly_of_ctl rfl)
  · exact h₃.trans (eventsOnly_of_ctl rfl)

theorem eventsOnly_endCond (m : Mach) (src kind : Nat) : eventsOnly m (endCond m src kind) := by
  unfold endCond
  split
  · exact .refl m
  · dsimp only
    split_ifs
    · exact .refl m
    · exact eventsOnly_of_ctl rfl
    · unfold clearRec
      split
      · exact .refl m
      · refine .trans ?_ (eventsOnly_faultEvt ..)
        exact eventsOnly_of_ctl rfl

/-! ### What stays -/

section
variable {m m' : Mach} (h : eventsOnly m m')
include h

theorem eventsOnly.rung : m'.ctl.rung = m.ctl.rung := by rw [h.ctl]
theorem eventsOnly.journal : m'.ctl.journal = m.ctl.journal := by rw [h.ctl]
theorem eventsOnly.idle : ringsIdle m' = ringsIdle m := by rw [ringsIdle, h.ctl]; rfl

theorem eventsOnly.window {α : Type} (g : Window → α) (hg : ∀ w, g w.still = g w) (n : Nat) : g (Machine.win m' n) = g (Machine.win m n) := by
  rw [← hg, h.win n, hg]

theorem eventsOnly.session {α : Type} (g : Session → α) (hg : ∀ x, g x.still = g x) (n : Nat) : g (Machine.ses m' n) = g (Machine.ses m n) := by
  rw [← hg, h.ses n, hg]

theorem eventsOnly.live (n : Nat) : Machine.live m' n = Machine.live m n :=
  h.session (fun x => x.st != .free) (fun _ => rfl) n

/-- What has been posted since an earlier state is what had been before. -/
theorem eventsOnly.posted (s : Mach) (n : Nat) : posted s m' n = posted s m n := by
  have htail := h.window Window.respTail (fun _ => rfl) n
  have hresps := h.window Window.resps (fun _ => rfl) n
  simp only [Safety.posted, htail, hresps]

end

end Sys2Proof.Machine

/-! SUPPORT. Time limits of sessions and of the journal: an acknowledgement that does not come, internal change sets, interrupts. -/
namespace Sys2Proof.Machine
open Sys2Proof.Safety

/-! ### Responses that are not the last (R404) -/

/-- A response that is posted while more are to come stands in the ring of its session. -/
theorem win_postRoom_more {m : Mach} {e : JEntry} (rs : List Resp) (hdeaf : e.deaf = false) (hlive : live m e.ses = true) :
    win (postRoom m e rs false) e.ses = rs.foldl Window.push (win m e.ses) := by
  simp only [postRoom, hdeaf, hlive, Bool.not_true, Bool.or_self, Bool.false_eq_true, if_false]
  exact win_putResps m e.ses e.hare rs

/-- Posting changes nothing of an entry but the room it holds. -/
theorem jentry?_postRoom {α : Type} (g : JEntry → α) (hg : ∀ e k, g { e with room := k } = g e) (m : Mach) (e : JEntry) (rs : List Resp)
    (last : Bool) : (jentry? (postRoom m e rs last) e.jseq).map g = (jentry? m e.jseq).map g := by
  have room (m' : Mach) (f : JEntry → Nat) (h : onlyPosts m m') :
      (jentry? (setEntry m' e.jseq fun x => { x with room := f x }) e.jseq).map g = (jentry? m e.jseq).map g := by
    rw [jentry?_setEntry_same (f := fun x => { x with room := f x }) _ _ fun _ => rfl, jentry?_of_journal h.journal, Option.map_map]
    exact congrArg (Option.map · _) (funext fun x => hg x (f x))
  unfold postRoom
  split
  · exact room m (fun _ => 0) (.refl m)
  · dsimp only
    split
    · exact room _ (fun _ => 0) ((onlyPosts_putResps m _ _ _).trans (onlyPosts_setSes _ _ _))
    · exact room _ (fun x => x.room - rs.length) (onlyPosts_putResps m _ _ _)

theorem jseq_of_jentry? {m : Mach} {j : Nat} {e : JEntry} (h : jentry? m j = some e) : e.jseq = j := by
  simpa using List.find?_some h

/-! ### UNPROT (R469) -/

theorem unprotect_unprot (m : Mach) : (unprotect m).pr.unprot = true := by
  unfold unprotect
  split
  · assumption
  · rw [(keepsPair_raise _ 0xDE0 0x95 0 (by decide : 1 ≤ 2)).pr]

theorem eventsOnly_unprotect (m : Mach) : eventsOnly m (unprotect m) := by
  unfold unprotect
  split
  · exact .refl m
  · refine .trans ?_ (eventsOnly_raise _ 0xDE0 0x95 0 (by decide : 1 ≤ 2))
    exact eventsOnly_of_ctl rfl

theorem unprotect_xb (m : Mach) : (unprotect m).xb = m.xb := by
  unfold unprotect
  split
  · rfl
  · exact (keepsPair_raise _ 0xDE0 0x95 0 (by decide : 1 ≤ 2)).xb

theorem recorded_unprotect {m : Mach} (hroom : tableRoom m = true) (hun : m.pr.unprot = false) :
    recorded (unprotect m) 0xDE0 0x95 = true := by
  unfold unprotect
  rw [hun, if_neg Bool.false_ne_true]
  exact recorded_raise _ _ _ _ _ hroom

/-! ### An acknowledgement that does not come (R469) -/

/-- The entry's ACCEPTED alone waits for the partner: it is posted. -/
theorem finalAcked_of_unacked {m : Mach} {j : Nat} {e : JEntry} (hj : jentry? m j = some e) (hun : e.unacked = true) (hheld : e.held = []) :
    finalAcked m j = postRoom (setEntry m j fun x => { x with unacked := false }) e (acceptedResp e) false := by
  have hjseq := jseq_of_jentry? hj
  have hset : jentry? (setEntry m j fun x => { x with unacked := false }) j = some { e with unacked := false } := by
    rw [jentry?_setEntry_same (f := fun x => { x with unacked := false }) _ _ fun _ => rfl, hj]; rfl
  have hkeep := jentry?_postRoom JEntry.held (fun _ _ => rfl) (setEntry m j fun x => { x with unacked := false }) e (acceptedResp e) false
  rw [hjseq, hset] at hkeep
  obtain ⟨e', he', hheld'⟩ := Option.map_eq_some_iff.1 hkeep
  have hacked : entryAcked m j = postRoom (setEntry m j fun x => { x with unacked := false }) e (acceptedResp e) false := by
    simp only [entryAcked, hj, hun, if_true]
  have hempty : e'.held.isEmpty = true := by rw [hheld']; exact List.isEmpty_iff.2 hheld
  simp only [finalAcked, hacked, he', hempty, if_true]

theorem ackTimeout_soon {m : Mach} {j : Nat} {e : JEntry} (hj : jentry? m j = some e) (hsoon : m.now ≤ e.tick + 5000) :
    ackTimeout j m = m := by
  simp only [ackTimeout, hj, not_lt.2 hsoon, and_false, if_false]

theorem ackTimeout_late {m : Mach} {j : Nat} {e : JEntry} (hj : jentry? m j = some e) (hun : e.unacked = true)
    (hlate : e.tick + 5000 < m.now) : ackTimeout j m = retire (unprotect (finalAcked m j)) := by
  simp only [ackTimeout, hj, hun, hlate, true_or, and_self, if_true]

/-- With the ACCEPTED posted and UNPROT reported, nothing but the control block, the messages sent and the fault's record has moved. -/
theorem ackTimeout_posts {m : Mach} {j : Nat} {e : JEntry} (hj : jentry? m j = some e) (hun : e.unacked = true) (hheld : e.held = [])
    (hlate : e.tick + 5000 < m.now) (hdeaf : e.deaf = false) (hlive : live m e.ses = true) (htail : (win m e.ses).respTail < 65536)
    (hroom : tableRoom m = true) :
    (ackTimeout j m).pr.unprot = true ∧ posted m (ackTimeout j m) e.ses = acceptedResp e ∧
      (m.pr.unprot = false → recorded (ackTimeout j m) 0xDE0 0x95 = true) ∧ (ackTimeout j m).xb = m.xb := by
  rw [ackTimeout_late hj hun hlate, finalAcked_of_unacked hj hun hheld]
  generalize hp : postRoom (setEntry m j fun x => { x with unacked := false }) e (acceptedResp e) false = p
  have honly : onlyAnswers m p := by
    rw [← hp]; exact (onlyAnswers_setEntry m j fun x => { x with unacked := false }).trans (onlyAnswers_postRoom ..)
  have hwin : win p e.ses = (acceptedResp e).foldl Window.push (win m e.ses) := by
    rw [← hp]; exact win_postRoom_more _ hdeaf hlive
  refine ⟨unprotect_unprot p, ?_, fun hoff => recorded_unprotect ?_ ?_, (unprotect_xb p).trans (by rw [honly])⟩
  · refine ((eventsOnly_unprotect p).posted m e.ses).trans (posted_of_push htail ?_ hwin)
    exact (length_mkResps ..).trans (by decide)
  · rw [honly]; exact hroom
  · rw [honly]; exact hoff

/-! ### Internal change sets (R415, R417, R419) -/

/-- An internal entry is journalled and nothing is answered (R422). -/
theorem journalPut_internal {m : Mach} (cmd : Cmd) (data : List Byte) (hxl : xlUp m = false) (hun : m.pr.unprot = true) :
    let e : JEntry := { jseq := m.ctl.jnext, kind := 2, ses := 255, port := 0, hseq := 0, cmd, data, of := m.ctl.jnext, room := 0,
                        hare := false, tick := m.now, unacked := false, at_ := m.ctl.jpos }
    journalPut m 2 255 0 0 cmd data false 0 = { m with ctl := { m.ctl with
      journal := m.ctl.journal ++ [e], jnext := m.ctl.jnext + 1, jpos := (m.ctl.jpos + e.size) % 2 ^ 20 } } := by
  intro e
  have hput : xlUp { m with ctl := { m.ctl with journal := m.ctl.journal ++ [e], jnext := m.ctl.jnext + 1,
                                                jpos := (m.ctl.jpos + e.size) % 2 ^ 20 } } = false := hxl
  unfold journalPut
  simp only [hxl, Bool.and_false, OfNat.ofNat_ne_zero, if_false]
  rw [if_neg (by rw [hput]; exact Bool.false_ne_true)]
  exact if_pos hun

/-- An entry with one byte of copied data takes 192 bytes (R422). -/
theorem size_of_byte {e : JEntry} (h : e.data.length = 1) : e.size = 192 := by
  rw [JEntry.size, h]; decide

theorem leaseExpiry_running {m : Mach} {n t : Nat} (h : (ses m n).leaseEnd = some t) (hsoon : m.now ≤ t) : leaseExpiry n m = m := by
  simp only [leaseExpiry, h, not_lt.2 hsoon, and_false, if_false]

theorem leaseExpiry_due {m : Mach} {n t : Nat} (h : (ses m n).leaseEnd = some t) (hc : claiming m = true) (hlate : t < m.now) :
    leaseExpiry n m = journalPut (setSes m n fun x => { x with leaseEnd := none }) 2 255 0 0 (.sessionClose n) [] false 0 := by
  simp only [leaseExpiry, h, hc, hlate, and_self, if_true]

theorem grantExpiry_running {m : Mach} {n t : Nat} (h : (ses m n).grantEnd = some t) (hsoon : m.now < t) : grantExpiry n m = m := by
  simp only [grantExpiry, h, not_le.2 hsoon, and_false, if_false]

theorem grantExpiry_due {m : Mach} {n t : Nat} (h : (ses m n).grantEnd = some t) (hc : claiming m = true) (hlate : t ≤ m.now) :
    grantExpiry n m = journalPut m 2 255 0 0 (.expertGrant 0 0) (le 1 n) false 0 := by
  simp only [grantExpiry, h, hc, hlate, and_self, if_true]

/-! ### Openings and interrupts (R395, R415) -/

theorem openingTimeout_due {m : Mach} {n : Nat} (h : (ses m n).st = .opening ∧ (ses m n).openingAt + 1000 * msT < m.now) :
    openingTimeout n m = { m with ctl := { m.ctl with
      sessions := tset m.ctl.sessions n {}, windows := tset m.ctl.windows n {}, rung := m.ctl.rung.filter fun r => r.ses != n } } :=
  if_pos h

theorem signal_opn {m : Mach} {n : Nat} (h : (ses m n).st = .opn) :
    signal m n = setSes (fireVector m (ses m n).port n) n fun x => { x with unsig := 0 } := if_pos (.inl h)

end Sys2Proof.Machine

namespace Sys2Proof.Proofs
open Sys2Proof.Machine Sys2Proof.Safety

/-- Settles O50: each limit is the law of its timer, before and after the instant; what the journal's timeout posts is the entry's
ACCEPTED, the fault's event going to another ring. -/
theorem sessionTimersExpire : Obligations.SessionTimersExpire := by
  unfold Obligations.SessionTimersExpire
  refine ⟨fun s n hn => ⟨fun h => ?_, fun h => ?_⟩, fun s n at_ hn hc hxl hun => ⟨fun h hsoon => ?_, fun h hlate => ?_, fun h hsoon => ?_,
    fun h hlate => ?_⟩, fun s n hn => ⟨fun h => ?_, fun h hopn => ?_⟩, fun s j e hj hu hheld => ⟨fun hsoon => ?_,
    fun hlate _ hdeaf hlive hroom htail _ => ?_⟩⟩
  · exact takes_of_runIf rfl (decide_eq_true hn) (if_neg h)
  · refine answers_of_runIf rfl (decide_eq_true hn) ?_
    dsimp only
    rw [openingTimeout_due h]
    exact ⟨rfl, tget_tset_same .., tget_tset_same .., fun k _ hk => tget_tset_other _ _ _ hk⟩
  · exact takes_of_runIf rfl (decide_eq_true hn) (leaseExpiry_running h hsoon)
  · refine answers_of_runIf rfl (decide_eq_true hn) ?_
    dsimp only
    rw [leaseExpiry_due h hc hlate, journalPut_internal (m := setSes s.toMach n fun x => { x with leaseEnd := none }) _ _ hxl hun]
    have hses := tget_tmod_same {} {} s.ctl.sessions n fun x : Session => { x with leaseEnd := none }
    exact ⟨rfl, rfl, rfl, congrArg Session.leaseEnd hses, (congrArg Session.st hses).trans rfl⟩
  · exact takes_of_runIf rfl (decide_eq_true hn) (grantExpiry_running h hsoon)
  · have hput := (grantExpiry_due h hc hlate).trans (journalPut_internal (.expertGrant 0 0) (le 1 n) hxl hun)
    rw [size_of_byte (le_length 1 n)] at hput
    exact takes_of_runIf rfl (decide_eq_true hn) hput
  · exact takes_of_runIf rfl (decide_eq_true hn) (if_neg h)
  · refine answers_of_runIf rfl (decide_eq_true hn) ?_
    have hdue : irqDelay n s.toMach = signal s.toMach n := if_pos h
    dsimp only
    rw [hdue, signal_opn hopn]
    exact ⟨rfl, congrArg Session.unsig (ses_setSes_same (fireVector s.toMach _ n) n fun x => { x with unsig := 0 }),
      tget_tmod_same ..⟩
  · exact takes_of_run rfl (ackTimeout_soon hj hsoon)
  · exact answers_of_run rfl (ackTimeout_posts hj hu hheld hlate hdeaf hlive htail hroom)

end Sys2Proof.Proofs

/-! SUPPORT. Index writes: doorbells, what frees entries, and what is ignored; allocations and lost links. -/
namespace Sys2Proof.Machine
open Sys2Proof.Safety

theorem serveRings_idle {m : Mach} (h : ringsIdle m = true) : serveRings m = m := engine_idle _ m h

theorem rung_of_ringsIdle {m : Mach} (h : ringsIdle m = true) : m.ctl.rung = [] := by
  simp only [ringsIdle, Bool.and_eq_true, List.isEmpty_iff] at h
  exact h.1.1

/-! ### Doorbells (R399) -/

/-- The tail and the head of a session's command ring or Hare ring. -/
def ringTail (m : Mach) (n : Nat) (hare : Bool) : Nat := if hare then (win m n).hareTail else (win m n).cmdTail
def ringHead (m : Mach) (n : Nat) (hare : Bool) : Nat := if hare then (win m n).hareHead else (win m n).headReg

def withTail (hare : Bool) (tail : Nat) (w : Window) : Window := if hare then { w with hareTail := tail } else { w with cmdTail := tail }

section
variable {m : Mach} {port n tail : Nat} {hare : Bool} (hown : foreign m port n = false) (hlive : (ses m n).st ≠ .free) (ht : tail < 65536)
include hown hlive ht

theorem doorbell_eq : doorbell hare port n tail m =
    if ringSize hare < ringLen tail (ringHead m n hare) ∨ ringLen tail (ringHead m n hare) < ringLen (ringTail m n hare) (ringHead m n hare) then
      badIndex m n
    else
      let new := (List.range (ringLen tail (ringHead m n hare) - ringLen (ringTail m n hare) (ringHead m n hare))).map fun i =>
        readEntry m port n hare (ringTail m n hare + i)
      let m' := setWin m n (withTail hare tail)
      { m' with ctl := { m'.ctl with rung := m.ctl.rung ++ new } } := by
  unfold doorbell
  rw [hown, if_neg Bool.false_ne_true, if_neg hlive]
  cases hare <;> simp only [Nat.mod_eq_of_lt ht, Bool.false_eq_true, if_false, if_true] <;> rfl

/-- A tail that covers entries, as many as the ring has, rings their doorbell. -/
theorem doorbell_rings (hmore : ringLen (ringTail m n hare) (ringHead m n hare) ≤ ringLen tail (ringHead m n hare))
    (hroom : ringLen tail (ringHead m n hare) ≤ ringSize hare) (hempty : m.ctl.rung = []) :
    let new := (List.range (ringLen tail (ringHead m n hare) - ringLen (ringTail m n hare) (ringHead m n hare))).map fun i =>
      readEntry m port n hare (ringTail m n hare + i)
    let m' := setWin m n (withTail hare tail)
    doorbell hare port n tail m = { m' with ctl := { m'.ctl with rung := new } } := by
  rw [doorbell_eq hown hlive ht, if_neg (by omega), hempty]
  rfl

/-- A tail that the ring does not allow is ignored. -/
theorem doorbell_bad (hbad : ringLen tail (ringHead m n hare) < ringLen (ringTail m n hare) (ringHead m n hare) ∨
    ringSize hare < ringLen tail (ringHead m n hare)) : doorbell hare port n tail m = badIndex m n := by
  rw [doorbell_eq hown hlive ht, if_pos hbad.symm]

end

/-- An ignored index write is counted and reported, and moves no ring. -/
theorem badIndex_keeps {m : Mach} (n : Nat) (hidle : ringsIdle m = true) (hroom : tableRoom m = true) :
    ringsIdle (badIndex m n) = true ∧ (win (badIndex m n) n).cmdTail = (win m n).cmdTail ∧
      (win (badIndex m n) n).hareTail = (win m n).hareTail ∧ (badIndex m n).ctl.rung = [] ∧
      (sesCnt (badIndex m n) n).idxErr = sat (sesCnt m n).idxErr 1 ∧ recorded (badIndex m n) (0xD80 + n) 0x80 = true := by
  have hevents := eventsOnly_raise (setCnt m n fun c => { c with idxErr := sat c.idxErr 1 }) (0xD80 + n) 0x80 0 (by decide : 1 ≤ 2)
  refine ⟨hevents.idle.trans hidle, hevents.window Window.cmdTail (fun _ => rfl) n, hevents.window Window.hareTail (fun _ => rfl) n,
    hevents.rung.trans (rung_of_ringsIdle hidle), ?_, recorded_raise _ _ _ _ _ hroom⟩
  have hcnt := congrArg SesCnt.idxErr (hevents.cnt n)
  rw [sesCnt_setCnt, if_pos rfl] at hcnt
  exact hcnt

/-! ### Heads (R399, R417, R427) -/

theorem sameButCtl_startLease (m : Mach) (n : Nat) : sameButCtl m (startLease m n) := by
  unfold startLease
  split
  · exact sameButCtl_setSes ..
  · exact sameButCtl_refl m

theorem startLease_windows (m : Mach) (n : Nat) : (startLease m n).ctl.windows = m.ctl.windows := by
  unfold startLease; split <;> rfl

theorem ringsIdle_startLease (m : Mach) (n : Nat) : ringsIdle (startLease m n) = ringsIdle m := by
  unfold startLease; split <;> rfl

theorem ses_startLease_lost (m : Mach) (n : Nat) : (ses (startLease m n) n).lost = (ses m n).lost := by
  unfold startLease
  split
  · rw [ses_setSes_same]
  · rfl

theorem win_startLease (m : Mach) (n j : Nat) : win (startLease m n) j = win m j := by rw [win, startLease_windows]; rfl

section
variable {m : Mach} {port n head : Nat} (hown : foreign m port n = false) (hlive : (ses m n).st ≠ .free) (hh : head < 65536)
include hown hlive hh

theorem headWrite_resp (hless : ringLen (win m n).respTail head ≤ ringLen (win m n).respTail (win m n).respHead) :
    headWrite false port n head m = setWin (startLease m n) n fun w => { w with respHead := head } := by
  unfold headWrite
  rw [hown, if_neg Bool.false_ne_true, if_neg hlive]
  simp only [win_startLease, Nat.mod_eq_of_lt hh, Bool.false_eq_true, if_false, if_neg (not_lt.2 hless)]

theorem headWrite_evt (hless : ringLen (win m n).evtTail head ≤ ringLen (win m n).evtTail (win m n).evtHead) (hlost : (ses m n).lost = 0) :
    headWrite true port n head m = setWin (startLease m n) n fun w => { w with evtHead := head } := by
  have hnone : (ses (setWin (startLease m n) n fun w => { w with evtHead := head }) n).lost = 0 := (ses_startLease_lost m n).trans hlost
  unfold headWrite
  rw [hown, if_neg Bool.false_ne_true, if_neg hlive]
  simp only [win_startLease, Nat.mod_eq_of_lt hh, if_true, if_neg (not_lt.2 hless)]
  exact if_neg fun h => h.1 hnone

end

/-- A head that is written moves its window's head and the lease. -/
theorem answers_headWrite {s : State} {i : Instr} {port n head : Nat} {evt : Bool} {f : Window → Window} (hi : exec i s =
    runIf (decide (port < 2) && decide (n < 64)) (fun m => serveRings (headWrite evt port n head m)) s) (hport : port < 2) (hn : n < 64)
    (hidle : ringsIdle s.toMach = true) (hw : headWrite evt port n head s.toMach = setWin (startLease s.toMach n) n f) :
    Answers i s fun t => t = { s with ctl := t.ctl } ∧ win t.toMach n = f (win s.toMach n) := by
  refine answers_of_runIf hi (by rw [decide_eq_true hport, decide_eq_true hn]; rfl) ?_
  dsimp only
  have hstill : ringsIdle (setWin (startLease s.toMach n) n f) = true := (ringsIdle_startLease ..).trans hidle
  rw [hw, serveRings_idle hstill, win_setWin_same, win_startLease]
  refine ⟨?_, rfl⟩
  rw [sameButCtl_startLease s.toMach n]
  rfl

/-! ### Allocation and links (R396, R416) -/

theorem find?_range_first {p : Nat → Bool} {n k : Nat} (hn : n < k) (hp : p n = true) (hbefore : ∀ j < n, p j = false) :
    (List.range k).find? p = some n := by
  rw [List.find?_range_eq_some]
  exact ⟨hp, List.mem_range.2 hn, fun j hj => by rw [hbefore j hj]; rfl⟩

theorem allocate_eq {m : Mach} {port n : Nat} (hn : n < 64) (hc : claiming m = true) (hrom : m.sys.romMode = false) (hphase : m.sys.phase = 0)
    (hfree : (ses m n).st = .free) (hbefore : ∀ k < n, (ses m k).st ≠ .free) :
    allocate port m = fireVector { m with ctl := { m.ctl with
      sessions := tset m.ctl.sessions n { st := .opening, port, openingAt := m.now }
      windows := tset m.ctl.windows n {}
      cnts := tset m.ctl.cnts n {}
      alloc := tset m.ctl.alloc port (true, true, n) } } port 64 := by
  have hfind : (List.range 64).find? (fun n => (ses m n).st == .free) = some n :=
    find?_range_first hn (by rw [hfree]; rfl) fun j hj => beq_false_of_ne (hbefore j hj)
  simp only [allocate, hc, hrom, hphase, Bool.not_false, Bool.and_self, beq_self_eq_true, if_true, hfind]
  rfl

/-- Mapping a table maps what a key reads, where the default is its own image. -/
theorem tget_tmap {α : Type} (f : Nat → α → α) {d : α} (t : Tab α) {k : Nat} (hd : f k d = d) : tget d (tmap f t) k = f k (tget d t k) := by
  rw [tget, tget?_tmap, tget]
  cases tget? k t with
  | none => exact hd.symm
  | some a => rfl

/-- A session whose link goes down (R396). -/
def cutOff (port : Nat) (x : Session) : Session := if x.st = .opn ∧ x.port = port then { x with st := .detached } else x

theorem ses_linkDown (m : Mach) (port n : Nat) : ses (linkDown port m) n = cutOff port (ses m n) :=
  tget_tmap (fun _ => cutOff port) (d := {}) m.ctl.sessions (if_neg fun h => SesState.noConfusion h.1)

end Sys2Proof.Machine

namespace Sys2Proof.Proofs
open Sys2Proof.Machine Sys2Proof.Safety

/-- Settles O27: a doorbell is the law of its tail, a head that of its ring; with the rings idle nothing more is taken. -/
theorem mailboxWritesTakeEffect : Obligations.MailboxWritesTakeEffect := by
  unfold Obligations.MailboxWritesTakeEffect
  refine ⟨fun s port n tail hare hport hn hidle hlive hown ht => ?_, fun s port n tail hare hport hn hidle hlive hown ht hroom => ?_,
    fun s port n head hport hn hidle hlive hown hh => ⟨fun hless => ?_, fun hless hlost => ?_⟩,
    fun s port n hport hn hc hrom hphase hfree hbefore => ?_, fun s port hport => ?_⟩
  · intro old head hmore hsize rung m
    have hbell := doorbell_rings (hare := hare) hown hlive ht hmore hsize (rung_of_ringsIdle hidle)
    cases hare
    · exact takes_of_runIf rfl (by rw [decide_eq_true hport, decide_eq_true hn]; rfl) (congrArg serveRings hbell)
    · exact takes_of_runIf rfl (by rw [decide_eq_true hport, decide_eq_true hn]; rfl) (congrArg serveRings hbell)
  · intro old head hbad
    have hbell := doorbell_bad (hare := hare) hown hlive ht hbad
    obtain ⟨hstill, hkeeps⟩ := badIndex_keeps n hidle hroom
    have hserve : serveRings (doorbell hare port n tail s.toMach) = badIndex s.toMach n := by rw [hbell, serveRings_idle hstill]
    cases hare
    · exact answers_of_runIf rfl (by rw [decide_eq_true hport, decide_eq_true hn]; rfl) (by dsimp only; rw [hserve]; exact hkeeps)
    · exact answers_of_runIf rfl (by rw [decide_eq_true hport, decide_eq_true hn]; rfl) (by dsimp only; rw [hserve]; exact hkeeps)
  · exact answers_headWrite rfl hport hn hidle (headWrite_resp hown hlive hh hless)
  · exact answers_headWrite rfl hport hn hidle (headWrite_evt hown hlive hh hless hlost)
  · refine answers_of_runIf rfl (decide_eq_true hport) ?_
    dsimp only
    rw [allocate_eq hn hc hrom hphase hfree hbefore]
    exact ⟨rfl, tget_tset_same .., tget_tset_same .., tget_tmod_same .., tget_tset_same ..⟩
  · exact answers_of_runIf rfl (decide_eq_true hport) ⟨rfl, fun n _ => ses_linkDown ..⟩

end Sys2Proof.Proofs

/-! SUPPORT. What a commit runs to, where its admission may have moved the pair block or the sessions; the module's own change sets. -/
namespace Sys2Proof.Machine
open Sys2Proof.Safety

theorem live_of_ctl {m m' : Mach} (h : m'.ctl = m.ctl) (n : Nat) : live m' n = live m n := by rw [live, ses, h]; rfl
theorem win_of_ctl {m m' : Mach} (h : m'.ctl = m.ctl) (n : Nat) : win m' n = win m n := by rw [win, h]; rfl

/-! ### Concluding, whoever waits for the answer (R411, R469) -/

/-- With the mirror's state settled, concluding an entry answers and does nothing else. -/
theorem onlyAnswers_conclude {m : Mach} (j st status : Nat) (result : List Byte) (epoch : Nat)
    (hmirror : xlUp m = true ∨ m.pr.unprot = true) : onlyAnswers m (conclude m j st status result epoch) := by
  unfold conclude
  split
  · rfl
  · extract_lets rs m₁ m₂ m₃
    have h₂ : onlyAnswers m m₂ := by
      unfold m₂
      split
      · exact (onlyAnswers_setEntry ..).trans (onlyAnswers_xlSend ..)
      · exact onlyAnswers_setEntry ..
    have hun (n : Mach) (hn : onlyAnswers m n) (hxl : xlUp n ≠ true) : unprotect n = n := by
      refine if_pos ?_
      have hup : xlUp n = xlUp m := by rw [hn]; rfl
      rw [hn]
      exact hmirror.resolve_left fun h => hxl (hup.trans h)
    split
    · refine .trans ?_ (onlyAnswers_retire _)
      split
      · exact h₂
      · next hxl => rw [hun m₂ h₂ hxl]; exact h₂
    · have h₃ : onlyAnswers m m₃ := h₂.trans (onlyAnswers_cacheFinal ..)
      split
      · exact h₃.trans (onlyAnswers_setEntry ..)
      · next hxl =>
        refine .trans ?_ (onlyAnswers_retire _)
        rw [hun m₃ h₃ hxl]
        exact h₃.trans (onlyAnswers_postRoom ..)

/-- The machine that a change set's commit leaves, where its admission made the machine `m`. -/
def committed (s : State) (e : JEntry) (items : List Item) (m : Mach) : Mach :=
  conclude (newEpoch s.toMach m (s.xb.epoch + 1)) e.jseq 1 sDone (layout (.q (s.xb.epoch + 1) :: items)) (s.xb.epoch + 1)

section
variable {s : State} {e : JEntry} {items : List Item} {m : Mach} (h : commitsNext s.toMach e = true)
  (hc : commitCmd (commitCtx s.toMach e) e.cmd s.toMach = .commit m items) (hidle : ringsIdle m = true)
  (hmirror : xlUp m = true ∨ m.pr.unprot = true)

include hmirror in
theorem onlyAnswers_committed : onlyAnswers (newEpoch s.toMach m (s.xb.epoch + 1)) (committed s e items m) :=
  onlyAnswers_conclude _ _ _ _ _ hmirror

include h hc hidle hmirror in
/-- A commit that leaves the rings idle is all that the sequencer's step does. -/
theorem exec_of_commit : exec .changeSetCommit s = .next { s with toMach := committed s e items m } := by
  obtain ⟨-, -, -, -, -, haligned, -⟩ := commitsNext_iff.1 h
  have hnext := commitNext_of_commitsNext h fun _ _ _ hd => by rw [hd] at hc; cases hc
  have hserve : serveRings (committed s e items m) = committed s e items m :=
    serveRings_idle ((onlyAnswers_committed hmirror).ringsIdle.trans hidle)
  rw [← hserve, committed, ← commitEntry_commit haligned hc, ← hnext]
  rfl

end

/-- Where a change set's admission leaves the control block and what the mirror depends on, it is committed as a whole. -/
theorem commits_of_mirror {s : State} {e : JEntry} {items : List Item} {m : Mach} (h : commitsNext s.toMach e = true)
    (hc : commitCmd (commitCtx s.toMach e) e.cmd s.toMach = .commit m items) (hctl : m.ctl = s.ctl)
    (hun : m.pr.unprot = s.pr.unprot) (hxl : xlUp m = xlUp s.toMach) : Commits s e items m := by
  obtain ⟨-, hj, -, hidle, hmirror, -, -, hses, hdeaf, hlive, htail⟩ := commitsNext_iff.1 h
  have hsettled : xlUp m = true ∨ m.pr.unprot = true := by
    rw [hxl, hun]; simpa [mirrorSettled, or_comm] using hmirror
  have hexec := exec_of_commit h hc ((ringsIdle_of_ctl hctl).trans hidle) hsettled
  have hnj : jentry? (newEpoch s.toMach m (s.xb.epoch + 1)) e.jseq = some e := by
    rw [jentry?_of_journal (m' := newEpoch s.toMach m (s.xb.epoch + 1)) (congrArg Ctl.journal hctl)]; exact hj
  have hsame : committed s e items m = { m with ctl := (committed s e items m).ctl
                                                pr := { m.pr with sentXl := (committed s e items m).pr.sentXl }
                                                xb := nextEpoch s m.xb } :=
    (onlyAnswers_committed hsettled).eq
  refine ⟨_, hexec, hsame, fun hdown => ?_, fun hup => ?_⟩
  · obtain ⟨-, hposts⟩ := conclude_posts 1 sDone (s.xb.epoch + 1) (layout (.q (s.xb.epoch + 1) :: items)) hnj hses (hxl.trans hdown)
      (hsettled.resolve_left fun hup => by rw [hxl, hdown] at hup; cases hup) hdeaf
      ((live_of_ctl hctl e.ses).trans hlive) ((congrArg Window.respTail (win_of_ctl hctl e.ses)).trans_lt htail)
    rwa [posted_of_ctl (m' := newEpoch s.toMach m (s.xb.epoch + 1)) hctl] at hposts
  · exact (conclude_holds 1 sDone (s.xb.epoch + 1) (layout (.q (s.xb.epoch + 1) :: items)) hnj hses (hxl.trans hup)).2

/-! ### The module's own settings (R484, R509, R521, R527, R547) -/

/-- The bundles that a PAIR_CFG keeps in Den, those kept before first (R484). -/
def keptOrder (m : Mach) (flags : Nat) : List Nat :=
  let keep (b : Nat) : Bool := bit flags (b + 1)
  let old := m.pr.keepOrder.filter fun b => if b = 0 then keep 0 else keep 1
  old ++ [0, 1].filter fun b => keep b && !old.contains b

theorem commitPairCfg_eq {m : Mach} {demote flags p drill warmMax : Nat} (hd : demote ≤ 15) (hf : flags ≤ 7) (hp : p ≤ 15) (hr : drill ≤ 168)
    (hw : 1 ≤ warmMax) (hw' : warmMax ≤ 60) :
    let cfg : PairCfg := { demote, denAuto := bit flags 0, keepA := bit flags 1, keepB := bit flags 2, plane := p, drill, warmMax }
    let m' := { m with pr := { m.pr with cfg, keepOrder := keptOrder m flags } }
    tooCostly m m' = false → commitPairCfg demote flags p drill warmMax m = .commit m' [] := by
  intro cfg m' hcheap
  have hok : ¬(15 < demote ∨ 7 < flags ∨ 15 < p ∨ 168 < drill ∨ warmMax = 0 ∨ 60 < warmMax) := by omega
  exact (if_neg hok).trans (if_neg (ne_true_of_eq_false hcheap))

theorem commitPwrCfg_eq {m : Mach} {hold flags : Nat} (h : hold = 0 ∨ 10 ≤ hold) (h' : hold ≤ 3600) (hf : flags ≤ 1) :
    commitPwrCfg hold flags m = .commit { m with pwr := { m.pwr with shadowHold := hold, limchk := flags == 1 } } [] :=
  if_neg (by omega)

theorem commitFltCfg_eq {m : Mach} {escn esct fnclass budget : Nat} (hn : 2 ≤ escn ∧ escn ≤ 64) (ht : 10 ≤ esct ∧ esct ≤ 60000)
    (hf : 1 ≤ fnclass ∧ fnclass ≤ 3) (hb : 1 ≤ budget ∧ budget ≤ 64) :
    commitFltCfg escn esct fnclass budget m = .commit { m with flt := { m.flt with escn, esct, fnclass, budget } } [] :=
  if_neg (by omega)

theorem commitSnpCfg_eq {m : Mach} {en sc src kind div ms mns period : Nat} (hen : en ≤ 31) (hsc : sc ≤ 3) (hdiv : 1 ≤ div)
    (hms : ms < 2 ^ 48) (hmns : mns < 1000000000) (hpps : bit en 0 = true → m.dt.pps = false) :
    let frames := if bit m.snp.enables 4 then m.snp.frames else 0
    let unit : MatchUnit := { on := bit en 2, at_ := ms * secU + mns * nsU, period }
    let snp := { m.snp with enables := en, sclass := sc, src, kind, div, matchSec := ms, matchNs := mns, period, frames }
    commitSnpCfg en sc src kind div ms mns period m = .commit { m with snp, dt := { m.dt with units := tset m.dt.units 0 unit } } [] := by
  intro frames unit snp
  have hok : ¬(31 < en ∨ 3 < sc ∨ div = 0 ∨ 2 ^ 48 ≤ ms ∨ 1000000000 ≤ mns) := by omega
  have hfree : ¬(bit en 0 = true ∧ m.dt.pps = true) := fun h => by rw [hpps h.1] at h; exact Bool.false_ne_true h.2
  exact (if_neg hok).trans (if_neg hfree)

/-- A changeover that may start waits for its sequence (R480, R485). -/
theorem commitPairChangeover_eq {m : Mach} {c : CCtx} {p w : Nat} (hp : p ≤ 15 ∨ p = 255) (hw : w ≤ 60) (hcan : canChange m = true) :
    commitPairChangeover c p w m =
      .wait (startChange m (if p = 255 then m.pr.cfg.plane else p) (if w = 0 then m.pr.cfg.warmMax else w) c.jseq false) := by
  have hok : ¬((15 < p ∧ p ≠ 255) ∨ 60 < w) := by omega
  exact (if_neg hok).trans (if_neg (by rw [hcan]; decide))

/-- Switching the service port on or off, while no transfer runs, does no more (R552). -/
theorem commitUpdSvcCfg_eq {m : Mach} {on : Nat} (hon : on ≤ 1) (hxfer : m.upd.xfer = none) :
    commitUpdSvcCfg on m = .commit { m with upd := { m.upd with svcOn := on == 1 } } [] := by
  have hset : setService (on == 1) m = { m with upd := { m.upd with svcOn := on == 1 } } := by
    unfold setService dropXfer
    simp only [hxfer, ite_self]
  exact (if_neg (not_lt.2 hon)).trans (by rw [hset])

/-! ### An entry found to wait (R411) -/

theorem sameButCtl_of_posts {m m' : Mach} (h : onlyPosts m m') : sameButCtl m m' := by unfold sameButCtl; rw [h]
theorem sameButCtl_setEntry (m : Mach) (j : Nat) (f : JEntry → JEntry) : sameButCtl m (setEntry m j f) := rfl

theorem sameButCtl_postRoom (m : Mach) (e : JEntry) (rs : List Resp) (last : Bool) : sameButCtl m (postRoom m e rs last) := by
  have hput := sameButCtl_of_posts (onlyPosts_putResps m e.ses e.hare rs)
  unfold postRoom
  split
  · exact sameButCtl_setEntry ..
  · dsimp only
    split
    · exact (hput.trans (sameButCtl_setSes ..)).trans (sameButCtl_setEntry ..)
    · exact hput.trans (sameButCtl_setEntry ..)

/-- PENDING is posted, the entry waits, and the admission's change stands. -/
theorem answers_of_wait {s : State} {e : JEntry} {m : Mach} {P : State → Prop} (h : commitsNext s.toMach e = true)
    (hc : commitCmd (commitCtx s.toMach e) e.cmd s.toMach = .wait m) (hctl : m.ctl = s.ctl)
    (hP : ∀ t : State, sameButCtl m t.toMach → (jentry? t.toMach e.jseq).any (·.waiting) = true →
      posted s.toMach t.toMach e.ses = mkResps e.cmd.opcode sPending 0 e.hseq e.of [] → P t) : Answers .changeSetCommit s P := by
  obtain ⟨-, hj, -, hidle, -, haligned, hacked, -, hdeaf, hlive, htail⟩ := commitsNext_iff.1 h
  have hnext := commitNext_of_commitsNext h fun _ _ _ hd => by rw [hd] at hc; cases hc
  have hentry := commitEntry_wait haligned hacked hc
  generalize hu : postRoom (setEntry m e.jseq fun x => { x with waiting := true }) e (mkResps e.cmd.opcode sPending 0 e.hseq e.of []) false = u
    at hentry
  have hmj : jentry? (setEntry m e.jseq fun x => { x with waiting := true }) e.jseq = some { e with waiting := true } := by
    rw [jentry?_setEntry_same (f := fun x => { x with waiting := true }) _ _ fun _ => rfl, jentry?_of_journal (congrArg Ctl.journal hctl), hj]
    rfl
  have hsame : sameButCtl m u := by
    rw [← hu]; exact (sameButCtl_setEntry m e.jseq fun x => { x with waiting := true }).trans (sameButCtl_postRoom ..)
  have honly : onlyAnswers m u := by
    rw [← hu]; exact (onlyAnswers_setEntry m e.jseq fun x => { x with waiting := true }).trans (onlyAnswers_postRoom ..)
  have hserve : serveRings u = u := serveRings_idle (honly.ringsIdle.trans ((ringsIdle_of_ctl hctl).trans hidle))
  have hexec : exec .changeSetCommit s = .next { s with toMach := u } := by
    rw [← hserve, ← hentry, ← hnext]; rfl
  refine ⟨_, hexec, hP _ hsame ?_ ?_⟩
  · have hkeep := jentry?_postRoom JEntry.waiting (fun _ _ => rfl) (setEntry m e.jseq fun x => { x with waiting := true }) e
      (mkResps e.cmd.opcode sPending 0 e.hseq e.of []) false
    rw [hu, hmj] at hkeep
    obtain ⟨e', he', hwaits⟩ := Option.map_eq_some_iff.1 hkeep
    dsimp only
    rw [he', Option.any_some, hwaits]
  · refine posted_of_push htail ((length_mkResps ..).trans (by decide)) ?_
    have hwin := win_postRoom_more (m := setEntry m e.jseq fun x => { x with waiting := true })
      (mkResps e.cmd.opcode sPending 0 e.hseq e.of []) hdeaf ((live_of_ctl hctl e.ses).trans hlive)
    rw [hu] at hwin
    exact hwin.trans (congrArg (List.foldl Window.push · _) (win_of_ctl hctl e.ses))

end Sys2Proof.Machine

namespace Sys2Proof.Proofs
open Sys2Proof.Machine Sys2Proof.Safety

/-- Settles O24: each of the module's own change sets is admitted by the law of its command; a changeover waits. -/
theorem moduleChangeSetsCommit : Obligations.ModuleChangeSetsCommit := by
  unfold Obligations.ModuleChangeSetsCommit
  refine ⟨fun s e p w h he hp hw hcan => ?_, fun s e demote flags p drill warmMax h he hd hf hp hr hw hw' => ?_,
    fun s e hold flags h he hh hh' hf => ?_, fun s e escn esct fnclass budget h he hn hn' ht ht' hf hf' hb hb' => ?_,
    fun s e en sc src kind div ms mns period h he hen hsc hdiv hms hmns hpps => ?_, fun s e on h he hon hxfer => ?_⟩
  · have hc : commitCmd (commitCtx s.toMach e) e.cmd s.toMach = .wait (startChange s.toMach (if p = 255 then s.pr.cfg.plane else p)
        (if w = 0 then s.pr.cfg.warmMax else w) e.of false) := by
      rw [he]; exact commitPairChangeover_eq hp hw hcan
    refine answers_of_wait h hc rfl fun t hsame hwaits hposts => ⟨?_, hwaits, ?_, ?_, hposts⟩
    · rw [hsame]; rfl
    · rw [hsame]; rfl
    · rw [hsame]; exact List.getLast?_concat ..
  · intro keep old keepOrder cfg m hcheap
    refine commits_of_mirror h ?_ rfl rfl rfl
    rw [he]
    exact commitPairCfg_eq hd hf hp hr hw hw' hcheap
  · exact commits_of_mirror h (by rw [he]; exact commitPwrCfg_eq hh hh' hf) rfl rfl rfl
  · exact commits_of_mirror h (by rw [he]; exact commitFltCfg_eq ⟨hn, hn'⟩ ⟨ht, ht'⟩ ⟨hf, hf'⟩ ⟨hb, hb'⟩) rfl rfl rfl
  · exact commits_of_mirror h (by rw [he]; exact commitSnpCfg_eq hen hsc hdiv hms hmns hpps) rfl rfl rfl
  · exact commits_of_mirror h (by rw [he]; exact commitUpdSvcCfg_eq hon hxfer) rfl rfl rfl

end Sys2Proof.Proofs

/-! SUPPORT. The service port: what a request answers, and what a frame on it is taken for. -/
namespace Sys2Proof.Machine
open Sys2Proof.Safety

/-! ### Numbers that bytes spell -/

theorem le_leNat_self (l : List Byte) : le l.length (leNat l) = l := by
  induction l with
  | nil => rfl
  | cons b r ih =>
    have hmod : (b.toNat + 256 * leNat r) / 256 = leNat r := by have := b.isLt; omega
    have hb : BitVec.ofNat 8 (b.toNat + 256 * leNat r) = b := by
      apply BitVec.eq_of_toNat_eq
      have := b.isLt
      rw [BitVec.toNat_ofNat]; omega
    show BitVec.ofNat 8 (b.toNat + 256 * leNat r) :: le r.length ((b.toNat + 256 * leNat r) / 256) = b :: r
    rw [hb, hmod, ih]

theorem be_beNat {l : List Byte} {n : Nat} (h : l.length = n) : be n (beNat l) = l := by
  have hself := le_leNat_self l.reverse
  rw [List.length_reverse, h] at hself
  rw [be, beNat, hself, List.reverse_reverse]

/-! ### Requests (R538 to R540) -/

section
variable {m : Mach} {c : SvcReq} {x : Xfer}

theorem svcOpen_new {k len : Nat} (hon : m.upd.svcOn = true) (hnone : m.upd.xfer = none) (hk : k ≤ 1) (h1 : 1 ≤ len) (hmax : len ≤ imageMax)
    (h4096 : len % 4096 = 0) (hfree : inUse m k = false) :
    let xfer : Xfer := { client := c.client, slot := k, len, lastAt := m.now }
    svcOpen c k len m = { m with upd := replied { m.upd with xfer := some xfer } (svcReply c 2 0) } := by
  have hok : ¬(1 < k ∨ len = 0 ∨ imageMax < len ∨ len % 4096 ≠ 0) := by omega
  simp only [svcOpen, hon, hnone, Bool.not_true, Bool.false_eq_true, if_false, if_neg hok, hfree]
  rfl

theorem named_own {op : Nat} {f : Xfer → Mach → Mach} (hx : m.upd.xfer = some x) (hown : x.client = c.client) :
    named_ c op m f = f x { m with upd := { m.upd with xfer := some { x with lastAt := m.now } } } := by
  simp only [named_, hx, hown, ne_eq, not_true_eq_false, if_false]

theorem svcStatus_own (hx : m.upd.xfer = some x) (hown : x.client = c.client) :
    let n := (x.ranges.map fun r => r.2 - r.1).sum
    let upd := { m.upd with xfer := some { x with lastAt := m.now } }
    svcStatus c m = { m with upd := replied upd (svcReply c 6 0 (layout [.b x.st, .w n, .w (missing x.ranges)])) } := by
  have hsum : x.ranges.foldl (fun a r => a + (r.2 - r.1)) 0 = (x.ranges.map fun r => r.2 - r.1).sum := by
    rw [List.sum_eq_foldl, List.foldl_map]
  simp only [svcStatus, hx, named_own hx hown, hsum]
  rfl

theorem svcAbort_own (hx : m.upd.xfer = some x) (hown : x.client = c.client) (hst : x.st ≠ 3) :
    svcAbort c m = { m with upd := replied { m.upd with xfer := none } (svcReply c 7 0) } := by
  simp only [svcAbort, hx, named_own hx hown, if_neg hst]
  rfl

theorem svcActivate_valid {k : Nat} (hrun : m.upd.running = false) (hk : k ≤ 1) (hvalid : (slot m k).sr.valid = true) :
    svcActivate c k m = { restart (activate m k) with upd := replied (restart (activate m k)).upd (svcReply c 8 0) } := by
  simp only [svcActivate, hrun, hvalid, not_lt.2 hk, Bool.not_true, Bool.false_eq_true, or_self, if_false]
  rfl

theorem svcSnapshot_complete {k : Nat} (hrom : m.sys.romMode = false) (hk : k ≤ 15) (hst : (lget {} m.snp.slots k).st = 2)
    (h4 : c.offset % 4 = 0) (hin : c.offset < 0x800000) :
    svcSnapshot c k m =
      { m with upd := replied m.upd (svcReply c 0x11 0 (snapRead m k c.offset (min 1408 (0x800000 - c.offset))) c.offset) } := by
  have hok : ¬(15 < k ∨ (lget {} m.snp.slots k).st ≠ 2 ∨ c.offset % 4 ≠ 0 ∨ 0x800000 ≤ c.offset) := by omega
  simp only [svcSnapshot, hrom, Bool.false_eq_true, if_false, if_neg hok]
  rfl

end

/-! ### Frames on SVC (R535) -/

/-- An untagged frame is taken apart where it was put together. -/
theorem frameOf_untagged {dst src body z : List Byte} {ty : Nat} (hd : dst.length = 6) (hs : src.length = 6) (hz : z.length = 4)
    (hty : ty < 65536) (hplain : ty ≠ 0x8100) :
    frameOf (dst ++ (src ++ (be 2 ty ++ body)) ++ z) = { dst := beNat dst, src := beNat src, tci := none, etype := ty, body } := by
  have htake : (dst ++ (src ++ (be 2 ty ++ body)) ++ z).take ((dst ++ (src ++ (be 2 ty ++ body)) ++ z).length - 4) =
      dst ++ (src ++ (be 2 ty ++ body)) := by
    rw [List.length_append, hz, Nat.add_sub_cancel, List.take_left]
  have hetype : beNat (sub (dst ++ (src ++ (be 2 ty ++ body))) 12 2) = ty := by
    rw [sub_append_skip _ _ _ (by omega), sub_append_skip _ _ _ (by omega), hd, hs]
    exact beNat_sub_be_append _ (decide_eq_true hty)
  have hsrc : beNat (sub (dst ++ (src ++ (be 2 ty ++ body))) 6 6) = beNat src := by
    rw [sub_append_skip _ _ _ (by omega), hd, sub_append_same _ _ hs]
  have hdst : (dst ++ (src ++ (be 2 ty ++ body))).take 6 = dst := by rw [← hd, List.take_left]
  have hbody : (dst ++ (src ++ (be 2 ty ++ body))).drop 14 = body := by
    rw [← List.append_assoc src, ← List.append_assoc dst]
    exact List.drop_left' (by simp [hd, hs])
  unfold frameOf
  simp only [htake, hetype, hsrc, hdst, hbody, if_neg hplain]

theorem fcs_length (bs : List Byte) : (fcs bs).length = 4 := le_length ..

/-- A frame with its own FCS passes the check. -/
theorem drop_fcs (bs : List Byte) :
    (bs ++ fcs bs).drop ((bs ++ fcs bs).length - 4) = fcs ((bs ++ fcs bs).take ((bs ++ fcs bs).length - 4)) := by
  rw [List.length_append, fcs_length, Nat.add_sub_cancel, List.drop_left, List.take_left]

/-- The header of an ARP packet over Ethernet and IPv4, with its operation. -/
def arpHead (op : Nat) : List Byte := be 2 1 ++ be 2 0x0800 ++ [6#8, 4#8] ++ be 2 op

theorem arpHead_length (op : Nat) : (arpHead op).length = 8 := by simp [arpHead]

/-- A request for the module's address is answered with the module's MAC (R535). -/
theorem serviceArp_request {m : Mach} {mac ip : List Byte} (hmac : mac.length = 6) (hip : ip.length = 4) :
    let own := be 4 (svcAddr m)
    let me := be 6 (Config.serviceMac % 2 ^ 48)
    serviceArp (arpHead 1 ++ (mac ++ (ip ++ (List.replicate 6 0 ++ (own ++ List.replicate 18 0))))) m =
      { m with upd := { m.upd with arp := mac ++ me ++ be 2 0x0806 ++ arpHead 2 ++ me ++ own ++ mac ++ ip ++ List.replicate 18 0 } } := by
  intro own me
  have hhead := arpHead_length 1
  have hown : own.length = 4 := be_length ..
  generalize hp : arpHead 1 ++ (mac ++ (ip ++ (List.replicate 6 0 ++ (own ++ List.replicate 18 0)))) = p
  have htake : p.take 8 = arpHead 1 := by rw [← hp]; exact List.take_left' hhead
  have hlen : ¬p.length < 28 := by rw [← hp]; simp [hhead, hmac, hip, hown]
  have htarget : sub p 24 4 = own := by
    have hrest : arpHead 1 ++ (mac ++ (ip ++ (List.replicate 6 0 ++ (own ++ List.replicate 18 0)))) =
        (arpHead 1 ++ mac ++ ip ++ List.replicate 6 0) ++ (own ++ List.replicate 18 0) := by simp only [List.append_assoc]
    have hat : (arpHead 1 ++ mac ++ ip ++ List.replicate 6 0).length = 24 := by simp [hhead, hmac, hip]
    rw [← hp, hrest, sub_append_skip _ _ _ hat.le, hat, sub_append_same _ _ hown]
  have hasker : sub p 8 6 = mac := by
    rw [← hp, sub_append_skip _ _ _ (by omega), hhead, sub_append_same _ _ hmac]
  have hback : sub p 8 10 = mac ++ ip := by
    rw [← hp, sub_append_skip _ _ _ (by omega), hhead, ← List.append_assoc mac, sub_append_same _ _ (by simp [hmac, hip])]
  have hasked : ¬(p.take 8 ≠ arpHead 1 ∨ p.length < 28 ∨ sub p 24 4 ≠ own) := by simp [htake, hlen, htarget]
  have harp : ethFrame (beNat mac) (Config.serviceMac % 2 ^ 48) none 0x0806 (arpHead 2 ++ me ++ own ++ (mac ++ ip)) =
      mac ++ me ++ be 2 0x0806 ++ arpHead 2 ++ me ++ own ++ mac ++ ip ++ List.replicate 18 0 := by
    have hframe : (be 6 (beNat mac) ++ me ++ [] ++ be 2 0x0806 ++ (arpHead 2 ++ me ++ own ++ (mac ++ ip))).length = 42 := by
      simp [arpHead_length, hmac, hip, hown, me]
    simp only [ethFrame]
    rw [hframe, be_beNat hmac]
    simp only [List.append_assoc, List.nil_append]
    rfl
  refine (if_neg hasked).trans ?_
  rw [hasker, hback]
  exact congrArg (fun a => { m with upd := { m.upd with arp := a } }) harp

theorem serviceEthernet_arp {m : Mach} {src body : List Byte} (hs : src.length = 6) :
    let ask := be 6 (2 ^ 48 - 1) ++ (src ++ (be 2 0x0806 ++ body))
    serviceEthernet (ask ++ fcs ask) m = serviceArp body m := by
  intro ask
  have hframe := frameOf_untagged (dst := be 6 (2 ^ 48 - 1)) (z := fcs ask) (body := body) (be_length ..) hs (fcs_length ask)
    (by decide : 0x0806 < 65536) (by decide)
  have hdst : beNat (be 6 (2 ^ 48 - 1)) = 2 ^ 48 - 1 := by rw [beNat_be]; decide
  have hok : ¬((ask ++ fcs ask).drop ((ask ++ fcs ask).length - 4) ≠ fcs ((ask ++ fcs ask).take ((ask ++ fcs ask).length - 4)) ∨
      (frameOf (ask ++ fcs ask)).tci.isSome = true ∨
      ((frameOf (ask ++ fcs ask)).dst ≠ Config.serviceMac % 2 ^ 48 ∧ (frameOf (ask ++ fcs ask)).dst ≠ 2 ^ 48 - 1)) := by
    rw [hframe, hdst, drop_fcs]
    simp
  refine (if_neg hok).trans ((if_pos ?_).trans ?_)
  · rw [hframe]
  · rw [hframe]

/-! ### Frames on SVC_UART (R536) -/

/-- A request of IDENT: a header alone. -/
def identRequest (tag : Nat) : List Byte := le 2 0x5653 ++ ([1#8, 0#8] ++ (le 4 tag ++ List.replicate 8 0))

theorem serviceMessage_ident {m : Mach} {client tag : Nat} (ht : tag < 2 ^ 32) :
    serviceMessage client (identRequest tag) m = svcIdent { client, tag } m := by
  have hmagic : fld (identRequest tag) 0 2 = 0x5653 := fld_le_append_same _ (by decide)
  have hlen : (identRequest tag).length = 16 := by simp [identRequest]
  have hop : fld (identRequest tag) 2 1 = 1 := by
    rw [identRequest, fld_le_append_skip _ _ _ (by decide)]; rfl
  have htag : fld (identRequest tag) 4 4 = tag := by
    rw [identRequest, fld_le_append_skip _ _ _ (by decide), fld, sub_append_skip _ _ _ (by decide)]
    exact fld_le_append_same _ (decide_eq_true ht)
  have hzero (o n : Nat) (ho : 8 ≤ o) : fld (identRequest tag) o n = fld (List.replicate 8 0) (o - 8) n := by
    rw [identRequest, fld_le_append_skip _ _ _ (by omega), fld, sub_append_skip _ _ _ (by simp; omega)]
    exact (fld_le_append_skip _ _ _ (by simp; omega)).trans (congrArg (fld _ · n) (by simp; omega))
  have hok : serviceOk (identRequest tag) = true := by
    simp only [serviceOk, hmagic, hlen, hzero 12 2 (by decide)]
    decide
  simp only [serviceMessage, hok, hop, htag, hzero 8 4 (by decide), Bool.not_true, Bool.false_eq_true, if_false]
  rfl

theorem serviceUart_good {m : Mach} {ask : List Byte} (hplain : unslip (ask ++ le 4 (crc32c ask).toNat) = ask ++ le 4 (crc32c ask).toNat) :
    serviceUart (ask ++ le 4 (crc32c ask).toNat) m = serviceMessage 0 ask m := by
  have hn : (ask ++ le 4 (crc32c ask).toNat).length - 4 = ask.length := by simp
  have htake : (ask ++ le 4 (crc32c ask).toNat).take ask.length = ask := List.take_left
  have hcrc : fld (ask ++ le 4 (crc32c ask).toNat) ask.length 4 = (crc32c ask).toNat := by
    rw [fld, sub_append_skip _ _ _ le_rfl, Nat.sub_self, sub, List.drop_zero, List.take_of_length_le (by simp), leNat_le,
      Nat.mod_eq_of_lt (by have := (crc32c ask).isLt; omega)]
  unfold serviceUart
  rw [hplain]
  simp only [hn, htake, hcrc]
  exact if_neg (by simp)

theorem serviceUart_bad {m : Mach} {bad : List Byte} (hplain : unslip bad = bad)
    (hcrc : (crc32c (bad.take (bad.length - 4))).toNat ≠ fld bad (bad.length - 4) 4) : serviceUart bad m = badMessage m := by
  unfold serviceUart
  rw [hplain]
  exact if_pos (.inr hcrc)

end Sys2Proof.Machine

namespace Sys2Proof.Proofs
open Sys2Proof.Machine Sys2Proof.Safety

/-- A request is served where the port works (R535). -/
theorem takes_of_serve {i : Instr} {s : State} {f : Mach → Mach} {m : Mach} (e : exec i s = serve f s) (hup : svcUp s.toMach = true)
    (h : f s.toMach = m) : Takes i s m := takes_of_run e ((if_pos hup).trans h)

/-- Settles O28: each request is the law of its operation, and each frame is taken for the request that it spells. -/
theorem servicePortAnswers : Obligations.ServicePortAnswers := by
  unfold Obligations.ServicePortAnswers
  refine ⟨fun s c hup => ?_, fun s c k len hup hon hnone hk h1 hmax h4096 hfree => ?_, fun s c x hup hx hown => ?_,
    fun s c x hup hx hown hst => ?_, fun s c k hup hrun hk hvalid => ?_, fun s c hup => ?_, fun s c k hup hrom hk hst h4 hin => ?_,
    fun s mac ip hup hmac hip => ?_, fun s tag hup htag => ?_⟩
  · exact takes_of_serve rfl hup rfl
  · exact takes_of_serve rfl hup (svcOpen_new hon hnone hk h1 hmax h4096 hfree)
  · exact takes_of_serve rfl hup (svcStatus_own hx hown)
  · exact takes_of_serve rfl hup (svcAbort_own hx hown hst)
  · exact takes_of_serve rfl hup (svcActivate_valid hrun hk hvalid)
  · exact takes_of_serve rfl hup (by rw [List.flatMap_def]; rfl)
  · exact takes_of_serve rfl hup (svcSnapshot_complete hrom hk hst h4 hin)
  · intro own head ask me
    have hask : ask = be 6 (2 ^ 48 - 1) ++ (mac ++ (be 2 0x0806 ++
        (arpHead 1 ++ (mac ++ (ip ++ (List.replicate 6 0 ++ (own ++ List.replicate 18 0))))))) := by
      simp only [ask, head, arpHead, List.append_assoc]
    refine takes_of_serve (f := serviceEthernet (ask ++ fcs ask)) rfl hup ?_
    rw [hask, serviceEthernet_arp hmac]
    exact serviceArp_request hmac hip
  · intro ask good
    have hask : ask = identRequest tag := by simp only [ask, identRequest, List.append_assoc]
    refine ⟨fun hplain => ?_, fun bad hplain hlen hcrc => ?_⟩
    · refine takes_of_serve (f := serviceUart good) rfl hup ((serviceUart_good hplain).trans ?_)
      rw [hask]
      exact serviceMessage_ident htag
    · exact takes_of_serve rfl hup (serviceUart_bad hplain hcrc)

end Sys2Proof.Proofs

/-! SUPPORT. Writes to the memories of the map, wherever their positions stand. -/
namespace Sys2Proof.Machine
open Sys2Proof.Safety

/-- A pool with a word's four bytes at `x`, where its position takes them. -/
def putWhere (takes : Bool) (p : Mem) (x v : Nat) : Mem := if takes then mput p x (le 4 v) else p

theorem pool_writePlace_putWhere (x v : Nat) (m : Mach) :
    (writePlace x v m).mem.pool = putWhere (!lostPosition m x) m.mem.pool x v := by
  rw [pool_writePlace, putWhere]
  cases lostPosition m x <;> rfl

/-- Below the system area one place takes a write. -/
theorem pool_writePool_below {x : Nat} (v : Nat) (m : Mach) (hx : x < systemBase) :
    (writePool x v m).mem.pool = putWhere (!lostPosition m x) m.mem.pool x v := by
  rw [writePool, if_neg (by omega), pool_writePlace_putWhere]

/-- In the system area the other copy takes a write of the first copy too, whether or not the first position holds it (R372). -/
theorem pool_writePool_system {x : Nat} (v : Nat) (m : Mach) (hx : systemBase ≤ x) :
    (writePool x v m).mem.pool = putWhere (decide (x < systemBase + 2 ^ 31) && !lostPosition m (otherCopy x))
      (putWhere (!lostPosition m x) m.mem.pool x v) (otherCopy x) v := by
  by_cases hlow : x < systemBase + 2 ^ 31
  · rw [writePool, if_pos ⟨hx, hlow⟩, pool_writePlace_putWhere, pool_writePlace_putWhere, lostPosition_writePlace,
      decide_eq_true hlow, Bool.true_and]
  · rw [writePool, if_neg (by omega), pool_writePlace_putWhere, decide_eq_false hlow, Bool.false_and]
    rfl

/-- What a word that takes its place in a memory leaves: its bytes there, every other byte, and the canonical form. -/
theorem mput_word_lands (p : Mem) (x v : Nat) : mbytes (mput p x (le 4 v)) x 4 = le 4 v ∧
    (∀ z, (z < x ∨ x + 4 ≤ z) → mget (mput p x (le 4 v)) z = mget p z) ∧
    (Memory.wf p = true → Memory.wf (mput p x (le 4 v)) = true) := by
  have hlen : (le 4 v).length = 4 := by simp
  refine ⟨?_, fun z hz => mget_mput_outside _ _ _ _ (by omega), Memory.wf_mput _ _⟩
  simpa only [hlen] using mbytes_mput p x (le 4 v)

theorem mget_putWhere {b : Bool} {x z : Nat} (p : Mem) (v : Nat) (h : ¬(b = true ∧ x ≤ z ∧ z < x + 4)) :
    mget (putWhere b p x v) z = mget p z := by
  cases b with
  | false => rfl
  | true => exact (mput_word_lands p x v).2.1 z (by simp only [true_and] at h; omega)

theorem wf_putWhere (b : Bool) {p : Mem} (x v : Nat) (h : Memory.wf p = true) : Memory.wf (putWhere b p x v) = true := by
  cases b with
  | false => exact h
  | true => exact Memory.wf_mput _ _ h

/-- A word four bytes or more away leaves a place's bytes. -/
theorem mbytes_putWhere_apart {b : Bool} {x y : Nat} (p : Mem) (v : Nat) (h : x + 4 ≤ y ∨ y + 4 ≤ x) :
    mbytes (putWhere b p y v) x 4 = mbytes p x 4 := by
  unfold mbytes
  refine List.map_congr_left fun z hz => mget_putWhere p v ?_
  simp only [span, List.mem_map, List.mem_range] at hz
  omega

/-- What a word leaves that two places take, each if it does, four bytes or more apart. -/
theorem putBoth_lands (p : Mem) {x y : Nat} (v : Nat) (h : x + 4 ≤ y ∨ y + 4 ≤ x) (here there : Bool) :
    let q := putWhere there (putWhere here p x v) y v
    (here = true → mbytes q x 4 = le 4 v) ∧ (there = true → mbytes q y 4 = le 4 v) ∧
      (∀ z, ¬(here = true ∧ x ≤ z ∧ z < x + 4) → ¬(there = true ∧ y ≤ z ∧ z < y + 4) → mget q z = mget p z) ∧
      (Memory.wf p = true → Memory.wf q = true) := by
  refine ⟨fun hh => ?_, fun ht => ?_, fun z hx hy => ?_, fun hp => wf_putWhere _ _ _ (wf_putWhere _ _ _ hp)⟩
  · rw [mbytes_putWhere_apart _ _ h, hh]
    exact (mput_word_lands p x v).1
  · rw [ht]
    exact (mput_word_lands _ y v).1
  · rw [mget_putWhere _ _ hy, mget_putWhere _ _ hx]

/-- A write that a pool takes at once moves the memory controller alone. -/
theorem busWrite_pool_taken {m : Mach} {master a t o v x : Nat} (hc : busCase m master a true = none)
    (ht : targetOf a = some (t, o)) (hv : v < 2 ^ 32) (h : 5 ≤ t ∧ t ≤ 8) (hx : a - 0x8000000000 = x)
    (hw : poolWaits m x = false) :
    busWrite master a v m = writePool x v (spend 81 4 (noError m)) ∧
      sameButMem (noError m) (writePool x v (spend 81 4 (noError m))) := by
  refine ⟨?_, (sameButMem_spend 81 4 (noError m)).trans (sameButMem_writePool x v _)⟩
  rw [busWrite_pool hc ht hv h, hx, hw, if_neg Bool.false_ne_true]

/-- The copies of a system address lie 2 GiB apart. -/
theorem otherCopy_apart (x : Nat) : x + 4 ≤ otherCopy x ∨ otherCopy x + 4 ≤ x := by
  unfold otherCopy systemBase
  split <;> omega

/-- The blocks of the register region are targets from 16 on. -/
theorem blockAtOff_register {x t o : Nat} (h : blockAtOff x = some (t, o)) : 16 ≤ t := by
  obtain ⟨b, hb, hbt⟩ := Option.map_eq_some_iff.mp h
  have hfrom : ∀ b ∈ regionBlocks, 16 ≤ b.1 := by decide
  obtain ⟨rfl, -⟩ : b.1 = t ∧ _ := by simpa using hbt
  exact hfrom b (List.mem_of_find?_eq_some hb)

/-- The pools of targets 5 to 8 by their offsets from the first pool. -/
theorem poolOffset_of_target {a t o : Nat} (ht : targetOf a = some (t, o)) (h : 5 ≤ t ∧ t ≤ 8) :
    (t ≤ 7 → a - 0x8000000000 < systemBase) ∧ (t = 8 → systemBase ≤ a - 0x8000000000) := by
  unfold targetOf at ht
  split at ht
  · rename_i e he
    have hmem := List.mem_of_find?_eq_some he
    have hin := List.find?_some he
    obtain ⟨rfl, -⟩ : e.1 = t ∧ _ := by simpa using ht
    simp only [memTargets, List.mem_cons, List.not_mem_nil, or_false] at hmem
    unfold systemBase
    rcases hmem with rfl | rfl | rfl | rfl | rfl | rfl | rfl | rfl | rfl <;> simp at h hin ⊢ <;> omega
  · split at ht
    · exact absurd (blockAtOff_register ht) (by omega)
    · cases ht

/-- REGISTER_WRITE of a memory: the bus write is all, as no ring waits. -/
theorem registerWrite_answers {s : State} {master a v : Nat} {m : Mach} {P : State → Prop} (hm : master ≤ 10) (ha : a < 2 ^ 40)
    (idle : ringsIdle s.toMach = true) (hw : busWrite master a v s.toMach = m) (hctl : m.ctl = s.ctl)
    (hP : P { s with toMach := m }) : Answers (.registerWrite master a v) s P := by
  refine answers_of_runIf rfl (busOk_of hm ha) ?_
  rw [hw, engine_idle _ _ (by simpa only [ringsIdle, hctl] using idle)]
  exact hP

theorem writePool_below_lands {m : Mach} {x : Nat} (v : Nat) (hx : x < systemBase) (hlost : lostPosition m x = false) :
    (writePool x v (spend 81 4 (noError m))).mem.pool = mput m.mem.pool x (le 4 v) := by
  rw [pool_writePool_below v _ hx]
  change putWhere (!lostPosition m x) _ x v = _
  rw [hlost]; rfl

theorem writePool_below_lost {m : Mach} {x : Nat} (v : Nat) (hx : x < systemBase) (hlost : lostPosition m x = true) :
    (writePool x v (spend 81 4 (noError m))).mem.pool = m.mem.pool := by
  rw [pool_writePool_below v _ hx]
  change putWhere (!lostPosition m x) _ x v = _
  rw [hlost]; rfl

/-- A write of the system area, as two places take it. -/
theorem writePool_system_pool {m : Mach} {x : Nat} (v : Nat) (hx : systemBase ≤ x) :
    (writePool x v (spend 81 4 (noError m))).mem.pool =
      putWhere (decide (x < systemBase + 2 ^ 31) && !lostPosition m (otherCopy x)) (putWhere (!lostPosition m x) m.mem.pool x v)
        (otherCopy x) v :=
  pool_writePool_system v _ hx

end Sys2Proof.Machine

namespace Sys2Proof.Proofs
open Sys2Proof.Machine Sys2Proof.Safety

/-- Settles O60: a write's bytes land in the memory that its target names; in the system area in both copies, where their
positions take them. -/
theorem memoryWritesLand : Obligations.MemoryWritesLand := by
  unfold Obligations.MemoryWritesLand
  intro s master a t o v hm ha hv idle hc ht lands
  have write {m : Mach} {P : State → Prop} := registerWrite_answers (v := v) (m := m) (P := P) hm ha idle
  refine ⟨fun h => ?_, fun h => ?_, fun h => ?_, ?_⟩
  · exact write (busWrite_work hc ht hv h) rfl ⟨mput_word_lands _ _ _, rfl⟩
  · exact write (busWrite_jsram hc ht hv h) rfl ⟨mput_word_lands _ _ _, rfl⟩
  · exact write (busWrite_owl hc ht hv h) rfl ⟨mput_word_lands _ _ _, rfl⟩
  intro x
  obtain ⟨x', hx⟩ : ∃ x', x' = x := ⟨_, rfl⟩
  rw [← hx]
  have hpool (h : 5 ≤ t ∧ t ≤ 8) := busWrite_pool_taken (m := s.toMach) hc ht hv h hx.symm
  constructor
  · intro h hw
    have h58 : 5 ≤ t ∧ t ≤ 8 := ⟨h.1, by omega⟩
    have hbelow : x' < systemBase := by rw [hx]; exact (poolOffset_of_target ht h58).1 h.2
    obtain ⟨hwrite, hsame⟩ := hpool h58 hw
    refine write hwrite hsame.ctl ⟨?_, ?_⟩
    · rw [hsame]; rfl
    · split
      next hlost => exact writePool_below_lost v hbelow hlost
      next hlost =>
        rw [writePool_below_lands v hbelow (by simpa using hlost)]
        exact mput_word_lands _ _ _
  · intro h hw
    have h58 : 5 ≤ t ∧ t ≤ 8 := by omega
    have hfrom : systemBase ≤ x' := by rw [hx]; exact (poolOffset_of_target ht h58).2 h
    obtain ⟨hwrite, hsame⟩ := hpool h58 hw
    refine write hwrite hsame.ctl ?_
    rw [writePool_system_pool v hfrom]
    exact putBoth_lands s.mem.pool v (otherCopy_apart x') (!lostPosition s.toMach x') _

end Sys2Proof.Proofs

/-! SUPPORT. What a fault of any class leaves: one principle for every relation that the parts of a fault keep, and the blocks that
faults touch in one place alone. -/
namespace Sys2Proof.Machine
open Sys2Proof.Safety

/-! ### The parts of a fault (R518 to R527) -/

/-- A relation that every part of taking a fault keeps: the table, the grants, the events, the snapshot, the fall of ROLE. -/
structure FaultFrame (R : Mach → Mach → Prop) : Prop where
  refl : ∀ m, R m m
  trans : ∀ {a b c}, R a b → R b c → R a c
  flt : ∀ (m : Mach) (f : Flt), R m { m with flt := f }
  grants : ∀ m, R m (settleGrants m)
  ctl : ∀ {m m'}, sameButCtl m m' → R m m'
  snap : ∀ (m : Mach) (k : Nat) (w : BitVec 64), R m (snapTrigger m k w).1
  falls : ∀ m, R m (setRole m 0)

namespace FaultFrame
variable {R : Mach → Mach → Prop} (h : FaultFrame R)
include h

theorem fallRole (m : Mach) : R m (fallRole m) := by
  unfold Machine.fallRole
  split
  · exact h.trans (h.falls m) (h.ctl (sameButCtl_pairEvt ..))
  · exact h.falls m

theorem reached (m : Mach) (old : Nat) (had : Bool) (r : FaultRec) : R m (reached m old had r) := by
  have falls (b : Bool) (m : Mach) : R m (if b = true then Machine.fallRole { m with flt := { m.flt with grave := true } } else m) := by
    split
    · exact h.trans (h.flt m _) (h.fallRole _)
    · exact h.refl m
  have fires (b : Bool) (k : Nat) (m : Mach) : R m (if b = true then (snapTrigger m k r.msg).1 else m) := by
    split
    · exact h.snap ..
    · exact h.refl m
  unfold Machine.reached
  exact h.trans (h.trans (falls _ m) (fires _ 5 _)) (fires _ 3 _)

theorem recordMsg (m : Mach) (src kind cls : Nat) (msg : BitVec 64) (cond inj : Bool) :
    R m (recordMsg m src kind cls msg cond inj).1 := by
  have hrec (f : Flt) (old : Nat) (had : Bool) (r : FaultRec) : R m (Machine.reached { m with flt := f } old had r) :=
    h.trans (h.flt m f) (h.reached ..)
  unfold Machine.recordMsg
  dsimp only
  split
  · exact hrec ..
  · split
    · exact hrec ..
    · split
      · exact h.flt ..
      · split
        · exact hrec ..
        · split
          · exact hrec ..
          · exact hrec ..

/-- What holds of the parts holds of a fault. -/
theorem raise (m : Mach) (src kind cls addr : Nat) : R m (raise m src kind cls addr) := by
  unfold Machine.raise takeFault
  extract_lets seq msg flt m₁
  have h₁ : R m m₁ := h.flt ..
  have h₂ := h.trans h₁ (h.recordMsg m₁ src kind cls msg (condKinds.contains kind) false)
  generalize Machine.recordMsg m₁ src kind cls msg (condKinds.contains kind) false = x at h₂ ⊢
  obtain ⟨m₂, r⟩ := x
  dsimp -zeta only at h₂ ⊢
  extract_lets m₃ n
  have h₃ : R m m₃ := h.trans h₂ (h.grants m₂)
  split
  · exact h.trans (h.trans h₃ (h.flt ..)) (h.ctl (sameButCtl_event ..))
  · exact h.trans h₃ (h.flt ..)

/-- What holds of the parts holds of the end of a condition. -/
theorem endCond (m : Mach) (src kind : Nat) : R m (endCond m src kind) := by
  unfold Machine.endCond
  split
  · exact h.refl m
  · dsimp only
    split_ifs
    · exact h.refl m
    · exact h.flt ..
    · unfold clearRec
      split
      · exact h.refl m
      · exact h.trans (h.trans (h.flt ..) (h.grants _)) (h.ctl (sameButCtl_event ..))

theorem foldl {α : Type} (g : Mach → α → Mach) (hg : ∀ m x, R m (g m x)) (l : List α) (m : Mach) : R m (l.foldl g m) := by
  induction l generalizing m with
  | nil => exact h.refl m
  | cons a l ih => exact h.trans (hg m a) (ih (g m a))

end FaultFrame

/-! ### The blocks that a fault touches in one place -/

/-- The blocks beside the fault table stay; of the timing block the grants move, of the memory controller the registers that a
snapshot latches, and of a module that does not claim ROLE alone, which falls to 0 or stays. -/
structure faultsOnly (m m' : Mach) : Prop where
  apart : apartFromFaults m m'
  tmg : m'.tmg = { m.tmg with outs := m'.tmg.outs }
  mem : m'.mem = { m.mem with pcs := m'.mem.pcs }
  pr : m.pr.role < 8 → m'.pr = { m.pr with role := m'.pr.role }
  role : m.pr.role < 8 → m'.pr.role = m.pr.role ∨ m'.pr.role = 0
  pwr : m.pr.role < 8 → m'.pwr = m.pwr

theorem faultsOnly.refl (m : Mach) : faultsOnly m m := ⟨.refl m, rfl, rfl, fun _ => rfl, fun _ => .inl rfl, fun _ => rfl⟩

theorem faultsOnly.rests {m m' : Mach} (h : faultsOnly m m') (hr : m.pr.role < 8) : m'.pr.role < 8 := by
  have := h.role hr
  omega

theorem faultsOnly.trans {a b c : Mach} (h : faultsOnly a b) (k : faultsOnly b c) : faultsOnly a c where
  apart := h.apart.trans k.apart
  tmg := by rw [k.tmg, h.tmg]
  mem := by rw [k.mem, h.mem]
  pr hr := by rw [k.pr (h.rests hr), h.pr hr]
  role hr := by
    have := h.role hr
    have := k.role (h.rests hr)
    omega
  pwr hr := (k.pwr (h.rests hr)).trans (h.pwr hr)

theorem faultsOnly_of_ctl {m m' : Mach} (h : sameButCtl m m') : faultsOnly m m' := by
  refine ⟨apartFromFaults_of_ctl h, ?_, ?_, fun _ => ?_, fun _ => .inl ?_, fun _ => ?_⟩ <;> rw [h]

theorem faultsOnly_settleGrants (m : Mach) : faultsOnly m (settleGrants m) :=
  ⟨apartFromFaults_settleGrants m, rfl, rfl, fun _ => rfl, fun _ => .inl rfl, fun _ => rfl⟩

/-- A module that does not claim changes ROLE, and with it the grants, alone. -/
theorem setRole_of_rests {m : Mach} (r : Nat) (hr : m.pr.role < 8) :
    setRole m r = settleGrants { m with pr := { m.pr with role := r } } := by
  have hc : claiming m = false := by simp only [claiming, decide_eq_false_iff_not]; omega
  simp only [setRole, hc, Bool.false_and, Bool.false_eq_true, if_false]

theorem faultsOnly_setRole (m : Mach) : faultsOnly m (setRole m 0) := by
  have rests (hr : m.pr.role < 8) := setRole_of_rests 0 hr
  refine ⟨apartFromFaults_setRole m 0, ?_, ?_, fun hr => ?_, fun hr => .inr ?_, fun hr => ?_⟩
  · unfold setRole; dsimp only; split <;> rfl
  · unfold setRole; dsimp only; split <;> rfl
  · rw [rests hr]; rfl
  · rw [rests hr]; rfl
  · rw [rests hr]; rfl

theorem faultsOnly_capturePcs (m : Mach) (id : Nat) : faultsOnly m (capturePcs m id) := by
  unfold capturePcs
  extract_lets pcs
  generalize pcs = pcs
  exact ⟨by simp [apartFromFaults], rfl, rfl, fun _ => rfl, fun _ => .inl rfl, fun _ => rfl⟩

/-- The snapshot's slots and images. -/
theorem faultsOnly_snp (m : Mach) (x : Snp) (b : Tab Blocks) : faultsOnly m { m with snp := x, images := b } :=
  ⟨by simp [apartFromFaults], rfl, rfl, fun _ => rfl, fun _ => .inl rfl, fun _ => rfl⟩

theorem faultsOnly_snapTrigger (m : Mach) (k : Nat) (w : BitVec 64) : faultsOnly m (snapTrigger m k w).1 := by
  unfold snapTrigger
  split
  · dsimp only
    split
    · exact faultsOnly_snp m _ m.images
    · exact faultsOnly_snp m _ m.images
  · split
    · exact faultsOnly_snp m _ m.images
    · extract_lets id e m₁
      have h₁ : faultsOnly m m₁ := (faultsOnly_snp m m.snp _).trans (faultsOnly_capturePcs _ id)
      exact h₁.trans (faultsOnly_snp m₁ _ m₁.images)

theorem faultFrame_faultsOnly : FaultFrame faultsOnly where
  refl := .refl
  trans := .trans
  flt m f := ⟨apartFromFaults_flt m f, rfl, rfl, fun _ => rfl, fun _ => .inl rfl, fun _ => rfl⟩
  grants := faultsOnly_settleGrants
  ctl := faultsOnly_of_ctl
  snap := faultsOnly_snapTrigger
  falls := faultsOnly_setRole

theorem faultsOnly_raise (m : Mach) (src kind cls addr : Nat) : faultsOnly m (raise m src kind cls addr) :=
  faultFrame_faultsOnly.raise ..

theorem faultsOnly_endCond (m : Mach) (src kind : Nat) : faultsOnly m (endCond m src kind) := faultFrame_faultsOnly.endCond ..

section
variable {m m' : Mach} (h : faultsOnly m m')
include h

theorem faultsOnly.dpll : m'.tmg.dpll = m.tmg.dpll := by rw [h.tmg]
theorem faultsOnly.osc : m'.tmg.osc = m.tmg.osc := by rw [h.tmg]
theorem faultsOnly.awake : m'.mem.awake = m.mem.awake := by rw [h.mem]

theorem faultsOnly.xb : m'.xb = m.xb := by
  obtain ⟨-, hxb, -⟩ := h.apart
  exact hxb

theorem faultsOnly.wl : m'.wl = m.wl := by
  obtain ⟨-, -, -, hwl, -⟩ := h.apart
  exact hwl

theorem faultsOnly.upd : m'.upd = m.upd := by
  obtain ⟨-, -, -, -, -, -, -, -, -, -, -, -, -, hupd, -⟩ := h.apart
  exact hupd

theorem faultsOnly.bus : m'.bus = m.bus := by
  obtain ⟨-, -, -, -, -, -, -, -, -, -, -, -, hbus, -⟩ := h.apart
  exact hbus

theorem faultsOnly.sys : m'.sys = m.sys := by
  obtain ⟨-, -, -, -, -, -, -, -, -, -, -, -, -, -, hsys, -⟩ := h.apart
  exact hsys

theorem faultsOnly.dt : m'.dt = m.dt := by
  obtain ⟨-, -, -, -, -, -, -, -, -, -, -, hdt, -⟩ := h.apart
  exact hdt

theorem faultsOnly.now : m'.now = m.now := by
  obtain ⟨hnow, -⟩ := h.apart
  exact hnow
end

end Sys2Proof.Machine

/-! SUPPORT. Start-up: what the phases find and leave (R554 to R566). -/
namespace Sys2Proof.Machine
open Sys2Proof.Safety

/-! ### S1 to S3 -/

/-- Outside the boot phases nothing ends (R556, R559). -/
theorem phaseEnd_idle {m : Mach} (f : BootFind) (h : m.sys.romMode = true ∨ m.sys.phase = 0 ∨ 7 < m.sys.phase) : phaseEnd f m = m := by
  unfold phaseEnd
  split
  next => rfl
  next hrom =>
    have hphase : m.sys.phase = 0 ∨ 7 < m.sys.phase := h.resolve_left hrom
    split <;> first | rfl | omega

section
variable {m : Mach} (f : BootFind) (hrom : m.sys.romMode = false)
include hrom

theorem phaseEnd_1 (h : m.sys.phase = 1) : phaseEnd f m = endS1 f m := by simp only [phaseEnd, hrom, h, Bool.false_eq_true, if_false]
theorem phaseEnd_2 (h : m.sys.phase = 2) : phaseEnd f m = endS2 f m := by simp only [phaseEnd, hrom, h, Bool.false_eq_true, if_false]
theorem phaseEnd_3 (h : m.sys.phase = 3) : phaseEnd f m = endS3 f m := by simp only [phaseEnd, hrom, h, Bool.false_eq_true, if_false]
theorem phaseEnd_4 (h : m.sys.phase = 4) : phaseEnd f m = chooseImage m := by simp only [phaseEnd, hrom, h, Bool.false_eq_true, if_false]
theorem phaseEnd_5 (h : m.sys.phase = 5) : phaseEnd f m = endS5 m := by simp only [phaseEnd, hrom, h, Bool.false_eq_true, if_false]
theorem phaseEnd_6 (h : m.sys.phase = 6) : phaseEnd f m = endS6 m := by simp only [phaseEnd, hrom, h, Bool.false_eq_true, if_false]
theorem phaseEnd_7 (h : m.sys.phase = 7) : phaseEnd f m = settleReady m := by simp only [phaseEnd, hrom, h, Bool.false_eq_true, if_false]
end

theorem tget?_ten {α : Type} (g : Nat → α) {k : Nat} (hk : k < 10) :
    tget? k ((List.range 10).map fun i => (i, g i)) = some (g k) := by
  interval_cases k <;> rfl

/-- A measurement of the rails finds none low and none good again (R513). -/
theorem railGood_endS1 (f : BootFind) (m : Mach) {k : Nat} (hk : k < 10) :
    (tget (true, 0) (endS1 f m).pwr.rails k).1 = (tget (true, 0) m.pwr.rails k).1 := by
  simp only [endS1, toPhase, railsGood, sampleRails]
  rw [tget, tget?_tmap, tget?_ten _ hk]
  simp only [Option.map_some, Option.getD_some]
  split
  next h => exact h.symm
  next => rfl

/-- Neither copy of the store is valid: none is in use, and 0xE1 is raised (R561). -/
theorem useCal_of_bad {m : Mach} (ha : calOk m.sys.calA = false) (hb : calOk m.sys.calB = false) :
    useCal m = loadOsc (raise { m with sys := { m.sys with calUsed := 0, cal := [] } } 0xE40 0xE1 1) := by
  simp only [useCal, ha, hb]

/-- Neither copy of the board table is valid: 0xE4 is raised (R564). -/
theorem useBoard_of_bad {m : Mach} (ha : boardOk m.sys.btA = false) (hb : boardOk m.sys.btB = false) :
    useBoard m = raise { m with sys := { m.sys with btAOk := false, btBOk := false } } 0xE40 0xE4 2 := by
  simp only [useBoard, ha, hb]

/-- An empty store gives no values of the oscillator. -/
theorem osc_loadOsc {m : Mach} (h : m.sys.cal = []) : (loadOsc m).tmg.osc = [] := by
  have hno : calHas m 2 = false := by rw [calHas, calNum, h]; rfl
  simp only [loadOsc, hno, Bool.false_eq_true, if_false]

/-- Entries set one after another, but for the keys that are kept. -/
theorem tget_setEach {α : Type} (d : α) (keep : Nat → Bool) (v : Nat → α) (t : Tab α) {l : List Nat} {n : Nat} (hn : n ∈ l)
    (hk : keep n = false) : tget d (l.foldl (fun t n => if keep n = true then t else tset t n (v n)) t) n = v n := by
  induction l using List.reverseRecOn with
  | nil => simp at hn
  | append_singleton l e ih =>
    simp only [List.foldl_append, List.foldl_cons, List.foldl_nil]
    by_cases he : n = e
    · rw [← he, hk, if_neg Bool.false_ne_true, tget_tset_same]
    · have hl := ih (by simpa [he] using hn)
      split
      · exact hl
      · rwa [tget_tset_other _ _ _ he]

theorem verifyMem_nil (m : Mach) : verifyMem [] [] m = m := by
  simp [verifyMem]

/-- With nothing found wrong, the delays of the store are loaded, but for positions searched before (R385). -/
theorem loadMemory_good {m : Mach} (h : calHas m 0 = true) : ∃ delays,
    loadMemory [] [] m = { m with mem := { m.mem with delays } } ∧
      ∀ n < 136, (128 ≤ n ∨ (pc m n).searched = false) → tget [] delays n = sub m.sys.cal (delayAt n) 64 := by
  refine ⟨_, ?_, fun n hn hfree => tget_setEach [] (fun n => n < 128 && (pc m n).searched) (fun n => sub m.sys.cal (delayAt n) 64)
    m.mem.delays (List.mem_range.mpr hn) ?_⟩
  · simp only [loadMemory, h, if_true, List.filter_nil, List.foldl_nil, verifyMem_nil]
  · rcases hfree with h128 | hs
    · simp; omega
    · simp [hs]

/-! ### S4 (R544, R557) -/

/-- The module as ROM service mode begins, before its fault. -/
def romBegins (m : Mach) : Mach :=
  let idle (_ : Nat) (x : Lane) : Lane := { x with ready := false, lock := false, sig := false, rate := 0, toRate := none }
  { m with sys := { m.sys with romMode := true }, upd := { m.upd with running := false },
           ln := { m.ln with lanes := tmap idle m.ln.lanes }, wl := {} }

theorem enterRom_eq (m : Mach) : enterRom m = setRole (raise (romBegins m) 0xE40 0xE6 2) 0 := rfl

theorem faultsOnly_enterRom (m : Mach) : faultsOnly (romBegins m) (enterRom m) :=
  (faultsOnly_raise ..).trans (faultsOnly_setRole _)

theorem sys_enterRom (m : Mach) : (enterRom m).sys = { m.sys with romMode := true } := (faultsOnly_enterRom m).sys

/-- ROM service mode runs no firmware, holds no link, has ROLE 0, and is recorded (R559). -/
theorem enterRom_leaves (m : Mach) : (enterRom m).upd.running = false ∧ (enterRom m).pr.role = 0 ∧ (enterRom m).wl = {} ∧
    (tableRoom m = true → recorded (enterRom m) 0xE40 0xE6 = true) := by
  refine ⟨congrArg Upd.running (faultsOnly_enterRom m).upd, (setRole_pr _ _).1, (faultsOnly_enterRom m).wl, fun hroom => ?_⟩
  rw [enterRom_eq, recorded_of_flt (setRole_flt _ _)]
  exact recorded_raise (romBegins m) _ _ _ _ hroom

/-- An image fails one of the checks 2 to 5 (R557). -/
def imageBad (m : Mach) (k : Nat) : Bool := imageFault m (slot m k).image (slot m k).sr.imglen != 0

/-- The fault that a slot passed over for its trial leaves to the firmware (R544). -/
def passedOver (p : Option Nat) : List (Nat × Nat × Nat) :=
  match p with
  | some k => [(0xE30, 0xD3, k)]
  | none => []

section
variable {m : Mach} (h0 : bootable m 0 = true) (h1 : bootable m 1 = true)
include h0 h1

/-- Slot A comes first unless slot B is of a later generation (R544, R557). -/
theorem bootOrder_first (hg : (slot m 1).sr.gen ≤ (slot m 0).sr.gen) (ht : (slot m 0).sr.trial ≠ 2) : bootOrder m = ([0, 1], none) := by
  have hgen : ¬(slot m 0).sr.gen < (slot m 1).sr.gen := Nat.not_lt.mpr hg
  simp only [bootOrder, hgen, if_false, h0, h1, Nat.sub_zero, ht]

/-- A first slot that has failed its trial comes last (R544). -/
theorem bootOrder_first_tried (hg : (slot m 1).sr.gen ≤ (slot m 0).sr.gen) (ht : (slot m 0).sr.trial = 2) :
    bootOrder m = ([1, 0], some 0) := by
  have hgen : ¬(slot m 0).sr.gen < (slot m 1).sr.gen := Nat.not_lt.mpr hg
  simp only [bootOrder, hgen, if_false, h0, h1, Nat.sub_zero, ht, if_true]

/-- Slot B of a later generation comes first. -/
theorem bootOrder_later (hg : (slot m 0).sr.gen < (slot m 1).sr.gen) (ht : (slot m 1).sr.trial ≠ 2) : bootOrder m = ([1, 0], none) := by
  simp only [bootOrder, hg, if_true, h0, h1, Nat.sub_self, ht, if_false]
end

theorem bootOrder_one {m : Mach} (h0 : bootable m 0 = true) (h1 : bootable m 1 = false) : bootOrder m = ([0], none) := by
  unfold bootOrder
  by_cases hgen : (slot m 0).sr.gen < (slot m 1).sr.gen
  · simp only [hgen, if_true, h0, h1, Nat.sub_self]
  · simp only [hgen, if_false, h0, h1, Nat.sub_zero]

theorem bootOrder_other {m : Mach} (h0 : bootable m 0 = false) (h1 : bootable m 1 = true) : bootOrder m = ([1], none) := by
  unfold bootOrder
  by_cases hgen : (slot m 0).sr.gen < (slot m 1).sr.gen
  · simp only [hgen, if_true, h0, h1, Nat.sub_self]
  · simp only [hgen, if_false, h0, h1, Nat.sub_zero]

theorem bootOrder_none {m : Mach} (h0 : bootable m 0 = false) (h1 : bootable m 1 = false) : bootOrder m = ([], none) := by
  unfold bootOrder
  by_cases hgen : (slot m 0).sr.gen < (slot m 1).sr.gen
  · simp only [hgen, if_true, h0, h1, Nat.sub_self]
  · simp only [hgen, if_false, h0, h1, Nat.sub_zero]

/-- The module with a slot's image running, once S4 has ended. -/
def runsSlot (m : Mach) (k : Nat) (later : List (Nat × Nat × Nat)) (rejected : List Nat) : Mach :=
  { m with upd := { m.upd with runSlot := k, running := true, fallback := !later.isEmpty }
           sys := { m.sys with phase := 5, phaseAt := m.now, slot := k, later, rejected } }

/-- S4 with an order of the slots. -/
theorem chooseImage_of_order {m : Mach} {order : List Nat} {p : Option Nat} (ho : bootOrder m = (order, p)) :
    chooseImage m = match order.find? fun k => !imageBad m k with
      | none => enterRom { m with sys := { m.sys with rejected := order } }
      | some k => runsSlot (if (slot m k).sr.trial = 1 then setRec m k fun r => { r with trial := 2 } else m) k
          (passedOver p ++ (order.takeWhile (imageBad m)).map fun k => (0xE40, 0xE5, k)) (order.takeWhile (imageBad m)) := by
  have hfallback (l : List (Nat × Nat × Nat)) : decide (l ≠ []) = !l.isEmpty := by cases l <;> rfl
  simp only [chooseImage, ho, hfallback]
  rfl

section
variable {m : Mach} {order : List Nat} {p : Option Nat} (ho : bootOrder m = (order, p))
include ho

/-- No slot in order passes. -/
theorem chooseImage_none (h : ∀ k ∈ order, imageBad m k = true) :
    chooseImage m = enterRom { m with sys := { m.sys with rejected := order } } := by
  have hfind : (order.find? fun k => !imageBad m k) = none := by simpa using h
  rw [chooseImage_of_order ho, hfind]
end

/-- The first slot in order passes. -/
theorem chooseImage_first {m : Mach} {k : Nat} {rest : List Nat} {p : Option Nat} (ho : bootOrder m = (k :: rest, p))
    (hk : imageBad m k = false) (ht : (slot m k).sr.trial ≠ 1) : chooseImage m = runsSlot m k (passedOver p) [] := by
  rw [chooseImage_of_order ho]
  simp [hk, ht]

/-- The first slot in order passes, in its first trial (R544). -/
theorem chooseImage_trial {m : Mach} {k : Nat} {rest : List Nat} {p : Option Nat} (ho : bootOrder m = (k :: rest, p))
    (hk : imageBad m k = false) (ht : (slot m k).sr.trial = 1) :
    chooseImage m = runsSlot (setRec m k fun r => { r with trial := 2 }) k (passedOver p) [] := by
  rw [chooseImage_of_order ho]
  simp [hk, ht]

/-- The first slot in order fails, and the other passes. -/
theorem chooseImage_second {m : Mach} {j k : Nat} {p : Option Nat} (ho : bootOrder m = ([j, k], p)) (hj : imageBad m j = true)
    (hk : imageBad m k = false) (ht : (slot m k).sr.trial ≠ 1) :
    chooseImage m = runsSlot m k (passedOver p ++ [(0xE40, 0xE5, j)]) [j] := by
  rw [chooseImage_of_order ho]
  simp [hj, hk, ht]

/-! ### S5 to S7 (R558, R566) -/

/-- The matrix and the watch of the heartbeats as S5 ends. -/
def watchBegins (m : Mach) : Mach :=
  let from_ (p : HbPath) : HbPath := { p with at_ := m.now }
  { m with bus := { m.bus with remap := true },
           pr := { m.pr with watching := true, pathA := from_ m.pr.pathA, pathB := from_ m.pr.pathB, pathPin := from_ m.pr.pathPin } }

/-- No calibration write waits. -/
theorem pumpCal_none {m : Mach} (h : m.sys.jobs = []) : pumpCal m = m := by rw [pumpCal, h]

/-- S6 begins, with nothing left to raise. -/
def toS6 (m : Mach) : Mach := { m with sys := { m.sys with phase := 6, phaseAt := m.now, later := [] } }

/-- S5 ends: the firmware raises what start-up found. -/
theorem endS5_eq (m : Mach) :
    endS5 m = pumpCal (toS6 (m.sys.later.foldl (fun m x => raise m x.1 x.2.1 1 x.2.2) (watchBegins m))) := rfl

theorem endS5_quiet {m : Mach} (hl : m.sys.later = []) (hj : m.sys.jobs = []) :
    endS5 m = { watchBegins m with sys := { m.sys with phase := 6, phaseAt := m.now } } := by
  rw [endS5_eq, hl, List.foldl_nil, pumpCal_none (m := toS6 (watchBegins m)) hj]
  simp only [toS6, watchBegins, ← hl]

/-- The fault of a rejected image is recorded as S5 ends. -/
theorem endS5_rejected {m : Mach} (hl : m.sys.later = [(0xE40, 0xE5, 0)]) (hj : m.sys.jobs = []) (hroom : tableRoom m = true) :
    (endS5 m).sys.phase = 6 ∧ (endS5 m).bus.remap = true ∧ (endS5 m).pr.watching = true ∧ (endS5 m).sys.later = [] ∧
      recorded (endS5 m) 0xE40 0xE5 = true := by
  have h := keepsPair_raise (watchBegins m) 0xE40 0xE5 (cls := 1) 0 (by omega)
  have hf := faultsOnly_raise (watchBegins m) 0xE40 0xE5 1 0
  have hrec := recorded_raise (watchBegins m) 0xE40 0xE5 1 0 hroom
  rw [endS5_eq, hl]
  simp only [List.foldl_cons, List.foldl_nil]
  generalize raise (watchBegins m) 0xE40 0xE5 1 0 = b at *
  rw [pumpCal_none (m := toS6 b) ((congrArg Sys.jobs hf.sys).trans hj)]
  exact ⟨rfl, congrArg Bus.remap hf.bus, congrArg Pair.watching h.pr, rfl, hrec⟩

theorem enterHoldover_leaves (m : Mach) : (enterHoldover m).xb = m.xb ∧ (enterHoldover m).tmg.dpll.st = 4 := by
  unfold enterHoldover
  extract_lets d none_ m₁ m₂
  have h₂ : faultsOnly m₁ m₂ := by
    unfold m₂
    split
    · exact faultsOnly_raise ..
    · exact .refl _
  have h := h₂.trans (faultsOnly_raise m₂ 0xCAE 0x62 1 0)
  exact ⟨h.xb, congrArg Dpll.st h.dpll⟩

theorem enterFreerun_leaves (m : Mach) : (enterFreerun m).xb = m.xb ∧ (enterFreerun m).tmg.dpll.st = 0 := by
  unfold enterFreerun endHoldover
  have h (m : Mach) := (faultsOnly_endCond m 0xCAE 0x62).trans (faultsOnly_endCond _ 0xCAE 0x61)
  exact ⟨(h _).xb, congrArg Dpll.st (h _).dpll⟩

/-- The DPLL starts in holdover where the history lets it, and otherwise runs free. -/
theorem endS6_leaves (m : Mach) : (endS6 m).sys.phase = 7 ∧ (endS6 m).xb = m.xb ∧
    (endS6 m).tmg.dpll.st = (if m.sys.rstCause = 2 ∧ trusted m.tmg.dpll ≠ [] then 4 else 0) := by
  have hcond : (m.sys.rstCause = 2 ∧ (!(trusted m.tmg.dpll).isEmpty) = true) = (m.sys.rstCause = 2 ∧ trusted m.tmg.dpll ≠ []) := by
    simp
  refine ⟨rfl, ?_⟩
  simp only [endS6, toPhase, hcond]
  split
  · exact enterHoldover_leaves m
  · exact enterFreerun_leaves m

/-- The limits of the phases but S4, which the length of the image sets (R556). -/
theorem phaseLimit_of_phase {m : Mach} (hp : m.sys.phase ∈ [1, 2, 3, 5]) : phaseLimit m = match m.sys.phase with
    | 1 => m.sys.resetAt + msT
    | 2 => m.sys.resetAt + 5 * msT
    | 3 => m.sys.resetAt + 7 * msT
    | _ => m.sys.phaseAt + 5 * msT := by
  simp only [List.mem_cons, List.not_mem_nil, or_false] at hp
  rcases hp with h | h | h | h <;> simp only [phaseLimit, h]

/-! ### The pair decision (R565, R566) -/

/-- A standby that is fit, with nothing against it, takes ROLE 4. -/
theorem restRole_of_fit {m : Mach} (hg : grave m = false) (hf : m.pr.fit = true) (hw : m.pwr.wakeFail = false) (hb : m.pr.beat = none)
    (hst : m.pwr.st ≠ 4) : restRole m = 4 := by
  simp [restRole, hg, hf, hw, slotClash, partnerHere, hb, hst]

/-- ROLE of a module that does not claim settles, and the grants with it, alone. -/
theorem settleRole_of_rests {m : Mach} (hr : m.pr.role < 8) :
    ∃ outs, settleRole m = { m with pr := { m.pr with role := restRole m }, tmg := { m.tmg with outs } } := by
  have hc : ¬claiming m = true := by simp only [claiming, decide_eq_true_eq]; omega
  rw [settleRole, if_neg hc]
  split
  next h => exact ⟨m.tmg.outs, by rw [← h]⟩
  next => exact ⟨_, setRole_of_rests _ hr⟩

/-- A fit standby is ready at the end of S7. -/
theorem settleReady_of_fit {m : Mach} (hp : m.sys.phase = 7) (hf : m.pr.fit = true) (hr : m.pr.role = 4 ∨ 8 ≤ m.pr.role) :
    settleReady m = { m with sys := { m.sys with phase := 0, readyMs := (m.now - m.sys.resetAt) / msT } } :=
  if_pos ⟨hp, hf, hr⟩

/-- The module takes its own state where nothing stands against it (R565, R566). -/
theorem takeOwn_leaves {m : Mach} (lone : Nat) (hphase : m.sys.phase = 7) (hb : m.pr.beat = none) (hr : m.pr.role < 8)
    (hg : grave m = false) (hw : m.pwr.wakeFail = false) (hst : m.pwr.st ≠ 4) :
    (takeOwn lone m).pr.fit = true ∧ (takeOwn lone m).pr.ownImage = true ∧ (takeOwn lone m).pr.imgEpoch = 0 ∧
      (takeOwn lone m).pr.role = 4 ∧ (takeOwn lone m).pr.st = 2 ∧ (takeOwn lone m).pr.lone = lone ∧
      (takeOwn lone m).sys.phase = 0 ∧ (takeOwn lone m).xb = m.xb := by
  unfold takeOwn
  generalize hm₁ : ({ m with pr := { m.pr with fit := true, ownImage := true, imgEpoch := 0, lone, st := 2 } } : Mach) = m₁
  have hrest : restRole m₁ = 4 := by subst hm₁; exact restRole_of_fit hg rfl hw hb hst
  obtain ⟨outs, hsettle⟩ := settleRole_of_rests (m := m₁) (by subst hm₁; exact hr)
  rw [hsettle, hrest, settleReady_of_fit (by subst hm₁; exact hphase) (by subst hm₁; rfl) (.inl rfl)]
  subst hm₁
  exact ⟨rfl, rfl, rfl, rfl, rfl, rfl, rfl, rfl⟩

end Sys2Proof.Machine

namespace Sys2Proof.Proofs
open Sys2Proof.Machine Sys2Proof.Safety

/-- The flash devices as S2 finds them. -/
def flashFound (f : BootFind) (m : Mach) : Mach :=
  { m with sys := { m.sys with calA := f.calA.getD m.sys.calA, calB := f.calB.getD m.sys.calB,
                               btA := f.btA.getD m.sys.btA, btB := f.btB.getD m.sys.btB },
           upd := { m.upd with slotA := m.upd.slotA.programmed f.recA f.imgA, slotB := m.upd.slotB.programmed f.recB f.imgB } }

theorem endS2_eq (f : BootFind) (m : Mach) : endS2 f m =
    let b := useBoard (useCal (flashFound f m))
    toPhase 3 (if b.sys.calUsed ≠ 0 ∧ calNum b 12 1 ≠ b.sys.xonom then raise b 0xE40 0xE7 1 (calNum b 12 1) else b) := rfl

section
variable {m : Mach} (ha : calOk m.sys.calA = false) (hb : calOk m.sys.calB = false)
include ha hb

/-- No store: the fault, and nothing else but the oscillator's values (R331, R561). -/
theorem useCal_bad_leaves : (useCal m).sys = { m.sys with calUsed := 0, cal := [] } ∧ (useCal m).upd = m.upd ∧ (useCal m).now = m.now ∧
    (useCal m).tmg.osc = [] ∧ (m.flt.recs.length < 2047 → tableRoom (useCal m) = true ∧ recorded (useCal m) 0xE40 0xE1 = true) := by
  rw [useCal_of_bad ha hb]
  have h := faultsOnly_raise { m with sys := { m.sys with calUsed := 0, cal := [] } } 0xE40 0xE1 1 0
  refine ⟨h.sys, h.upd, h.now, osc_loadOsc (by rw [h.sys]), fun hroom => ⟨tableRoom_raise _ _ _ _ hroom, recorded_raise _ _ _ _ _ ?_⟩⟩
  rw [tableRoom, decide_eq_true_eq]
  exact Nat.lt_succ_of_lt hroom
end

/-- No board table: the fault alone (R564). -/
theorem useBoard_bad_leaves {m : Mach} (ha : boardOk m.sys.btA = false) (hb : boardOk m.sys.btB = false) :
    (useBoard m).sys = { m.sys with btAOk := false, btBOk := false } ∧ (useBoard m).upd = m.upd ∧ (useBoard m).now = m.now ∧
      (useBoard m).tmg.osc = m.tmg.osc ∧ (tableRoom m = true → recorded (useBoard m) 0xE40 0xE4 = true ∧
        (recorded m 0xE40 0xE1 = true → recorded (useBoard m) 0xE40 0xE1 = true)) := by
  rw [useBoard_of_bad ha hb]
  generalize hm : ({ m with sys := { m.sys with btAOk := false, btBOk := false } } : Mach) = m₁
  have h := faultsOnly_raise m₁ 0xE40 0xE4 2 0
  have hflt : m₁.flt = m.flt := by rw [← hm]
  rw [h.sys, h.upd, h.now, h.osc, ← recorded_of_flt hflt, ← tableRoom_of_flt hflt]
  refine ⟨by rw [← hm], by rw [← hm], by rw [← hm], by rw [← hm], fun hroom => ⟨recorded_raise _ _ _ _ _ hroom, ?_⟩⟩
  exact recorded_raise_of_recorded _ _ _ _ hroom

/-- S2 with no valid copy of the store or of the board table. -/
theorem endS2_of_bad {m : Mach} {f : BootFind} (hroom : m.flt.recs.length < 2047)
    (hca : calOk (f.calA.getD m.sys.calA) = false) (hcb : calOk (f.calB.getD m.sys.calB) = false)
    (hba : boardOk (f.btA.getD m.sys.btA) = false) (hbb : boardOk (f.btB.getD m.sys.btB) = false) :
    let t := endS2 f m
    t.sys.phase = 3 ∧ t.sys.phaseAt = m.now ∧ t.sys.calA = f.calA.getD m.sys.calA ∧
      t.sys.calB = f.calB.getD m.sys.calB ∧ t.sys.btA = f.btA.getD m.sys.btA ∧ t.sys.btB = f.btB.getD m.sys.btB ∧ t.sys.calUsed = 0 ∧
      t.upd = { m.upd with slotA := m.upd.slotA.programmed f.recA f.imgA, slotB := m.upd.slotB.programmed f.recB f.imgB } ∧
      t.sys.btUsed = m.sys.btUsed ∧ t.tmg.osc = [] ∧ recorded t 0xE40 0xE1 = true ∧ recorded t 0xE40 0xE4 = true := by
  obtain ⟨hsys, hupd, hnow, hosc, hrecorded⟩ := useCal_bad_leaves (m := flashFound f m) hca hcb
  obtain ⟨hroom', he1⟩ := hrecorded hroom
  generalize hc : useCal (flashFound f m) = c at *
  obtain ⟨hsys', hupd', hnow', hosc', hrecorded'⟩ := useBoard_bad_leaves (m := c) (by rw [hsys]; exact hba) (by rw [hsys]; exact hbb)
  obtain ⟨he4, hkept⟩ := hrecorded' hroom'
  generalize hb : useBoard c = b at *
  have hsysB : b.sys = { (flashFound f m).sys with calUsed := 0, cal := [], btAOk := false, btBOk := false } := by rw [hsys', hsys]
  have hend : endS2 f m = toPhase 3 b := by
    rw [endS2_eq, hc, hb]
    exact congrArg (toPhase 3) (if_neg fun h => h.1 (by rw [hsysB]))
  rw [hend]
  dsimp only [toPhase]
  rw [hsysB, hupd', hupd, hnow', hnow, hosc', hosc]
  exact ⟨rfl, rfl, rfl, rfl, rfl, rfl, rfl, rfl, rfl, rfl, hkept he1, he4⟩

theorem endS1_answers (s : State) (f : BootFind) (hrom : s.sys.romMode = false) (hp : s.sys.phase = 1) :
    Answers (.bootPhaseEnd f) s fun t =>
      t.sys = { s.sys with phase := 2, phaseAt := s.now, slotId := f.slotId % 256, xonom := nearestXo f.xo } ∧
        t.pr.slotId = f.slotId % 256 ∧ t.flt = { s.flt with passed := true } ∧
        (∀ k < 10, (tget (true, 0) t.pwr.rails k).1 = (tget (true, 0) s.pwr.rails k).1) ∧ t.xb = s.xb := by
  refine answers_of_run rfl ?_
  rw [phaseEnd_1 f hrom hp]
  refine ⟨?_, ?_, ?_, fun k hk => railGood_endS1 f s.toMach hk, ?_⟩
  all_goals simp only [endS1, toPhase, railsGood, sampleRails]

theorem endS3_answers (s : State) (f : BootFind) (hrom : s.sys.romMode = false) (hp : s.sys.phase = 3)
    (hcal : calHas s.toMach 0 = true) (hgood : f.badPos = []) : Answers (.bootPhaseEnd f) s fun t =>
      t.toMach = { s.toMach with sys := { s.sys with phase := 4, phaseAt := s.now }, mem := { s.mem with delays := t.mem.delays } } ∧
      ∀ n < 136, (128 ≤ n ∨ (pc s.toMach n).searched = false) → tget [] t.mem.delays n = sub s.sys.cal (delayAt n) 64 := by
  obtain ⟨delays, hload, hdelays⟩ := loadMemory_good hcal
  have hend : phaseEnd f s.toMach = toPhase 4 { s.toMach with mem := { s.mem with delays } } := by
    rw [phaseEnd_3 f hrom hp, endS3, hgood]
    exact congrArg (toPhase 4) hload
  refine answers_of_run rfl ?_
  rw [hend]
  exact ⟨rfl, hdelays⟩

/-! ### S4 answers -/

section
variable {s : State} {f : BootFind} (hrom : s.sys.romMode = false) (hp : s.sys.phase = 4)
include hrom hp

/-- S4 ends in ROM service mode when no slot in order passes. -/
theorem chooseImage_rom {order : List Nat} {p : Option Nat} (ho : bootOrder s.toMach = (order, p))
    (h : ∀ k ∈ order, imageBad s.toMach k = true) : Answers (.bootPhaseEnd f) s fun t =>
      t.sys.romMode = true ∧ t.upd.running = false ∧ t.sys.phase = 4 ∧ t.pr.role = 0 ∧ t.wl = {} ∧
        (tableRoom s.toMach = true → recorded t.toMach 0xE40 0xE6 = true) := by
  refine answers_of_run rfl ?_
  rw [phaseEnd_4 f hrom hp, chooseImage_none ho h]
  generalize hm : ({ s.toMach with sys := { s.sys with rejected := order } } : Mach) = m
  obtain ⟨hrun, hrole, hwl, hrec⟩ := enterRom_leaves m
  have hsys := sys_enterRom m
  have hphase : m.sys.phase = 4 := by rw [← hm]; exact hp
  have hroom : tableRoom m = tableRoom s.toMach := tableRoom_of_flt (by rw [← hm])
  exact ⟨congrArg Sys.romMode hsys, hrun, (congrArg Sys.phase hsys).trans hphase, hrole, hwl, by rwa [← hroom]⟩

theorem chooseImage_takes {m : Mach} (h : chooseImage s.toMach = m) : Takes (.bootPhaseEnd f) s m :=
  takes_of_run rfl ((phaseEnd_4 f hrom hp).trans h)
end

/-- Settles O57: by the phase that ends, each with what it finds. -/
theorem bootProceeds : Obligations.BootProceeds := by
  unfold Obligations.BootProceeds
  refine ⟨?_, ?_, endS1_answers, ?_, endS3_answers, ?_, ?_, ?_, ?_⟩
  · intro s cause hc
    exact takes_of_runIf rfl (decide_eq_true hc) rfl
  · intro s f h
    exact takes_of_run rfl (phaseEnd_idle f h)
  · intro s f hrom hp hroom hca hcb hba hbb
    refine answers_of_run rfl ?_
    rw [phaseEnd_2 f hrom hp]
    exact endS2_of_bad hroom hca hcb hba hbb
  · intro s f hrom hp a b bad okA okB runs rom
    have hA : imageBad s.toMach 0 = bad s.upd.slotA := rfl
    have hB : imageBad s.toMach 1 = bad s.upd.slotB := rfl
    have hokA : bootable s.toMach 0 = okA := rfl
    have hokB : bootable s.toMach 1 = okB := rfl
    have rom_of {order : List Nat} {p : Option Nat} (ho : bootOrder s.toMach = (order, p)) (h : ∀ k ∈ order, imageBad s.toMach k = true) :
        rom := chooseImage_rom hrom hp ho h
    have takes {m : Mach} (h : chooseImage s.toMach = m) : Takes (.bootPhaseEnd f) s m := chooseImage_takes hrom hp h
    have fails {k : Nat} (h : ¬imageBad s.toMach k = false) : imageBad s.toMach k = true := Bool.of_not_eq_false h
    have aOld (h : a.trial ≠ 1) : (slot s.toMach 0).sr.trial ≠ 1 := h
    have bOld (h : b.trial ≠ 1) : (slot s.toMach 1).sr.trial ≠ 1 := h
    refine ⟨fun hA' hB' => ?_, fun hA' hB' hg ha hb => ?_, fun hA' hB' hg ha hb => ?_, fun hA' hB' ha => ?_, fun hB' hg hb ha => ?_⟩
    · exact rom_of (bootOrder_none hA' hB') (by simp)
    · have ho := bootOrder_first hA' hB' hg (by change a.trial ≠ 2; omega)
      split_ifs with h0 h1
      · exact takes (chooseImage_first ho h0 (aOld (by omega)))
      · exact takes (chooseImage_second ho (fails h0) h1 (bOld (by omega)))
      · exact rom_of ho (List.forall_mem_cons.mpr ⟨fails h0, List.forall_mem_singleton.mpr (fails h1)⟩)
    · have ho := bootOrder_first_tried hA' hB' hg ha
      split_ifs with h1 h0
      · exact takes (chooseImage_first ho h1 (bOld (by omega)))
      · exact takes (chooseImage_second ho (fails h1) h0 (aOld (by omega)))
      · exact rom_of ho (List.forall_mem_cons.mpr ⟨fails h1, List.forall_mem_singleton.mpr (fails h0)⟩)
    · have ho := bootOrder_one hA' hB'
      split_ifs with h0
      · exact takes (chooseImage_first ho h0 (aOld (by omega)))
      · exact rom_of ho (List.forall_mem_singleton.mpr (fails h0))
    · by_cases hA' : okA = true
      · have ho := bootOrder_later hA' hB' hg (by change b.trial ≠ 2; omega)
        split_ifs with h1 h0
        · exact takes (chooseImage_trial ho h1 hb)
        · exact takes (chooseImage_second ho (fails h1) h0.2 (aOld (by omega)))
        · exact rom_of ho (List.forall_mem_cons.mpr ⟨fails h1, List.forall_mem_singleton.mpr (fails fun h => h0 ⟨hA', h⟩)⟩)
      · have ho := bootOrder_other (Bool.of_not_eq_true hA') hB'
        split_ifs with h1 h0
        · exact takes (chooseImage_trial ho h1 hb)
        · exact absurd h0.1 hA'
        · exact rom_of ho (List.forall_mem_singleton.mpr (fails h1))
  · intro s f hrom
    refine ⟨fun hp hl hj => ?_, fun hp hl hj hroom => ?_, fun hp => ?_, fun hp hfit hr => ?_, fun hp h => ?_⟩
    · exact takes_of_run rfl ((phaseEnd_5 f hrom hp).trans (endS5_quiet hl hj))
    · refine answers_of_run rfl ?_
      rw [phaseEnd_5 f hrom hp]
      exact endS5_rejected hl hj hroom
    · refine answers_of_run rfl ?_
      rw [phaseEnd_6 f hrom hp]
      exact endS6_leaves s.toMach
    · exact takes_of_run rfl ((phaseEnd_7 f hrom hp).trans (settleReady_of_fit hp hfit hr))
    · refine takes_of_run rfl ((phaseEnd_7 f hrom hp).trans (if_neg ?_))
      rintro ⟨-, hfit, hrole⟩
      rcases h with hunfit | hlow
      · exact Bool.false_ne_true (hunfit.symm.trans hfit)
      · omega
  · intro s limit
    refine ⟨fun h => ?_, fun hp hn => ?_, fun hp hn hrom hroom => ?_⟩
    · exact takes_of_run rfl (if_pos (by tauto))
    · refine takes_of_run rfl (if_pos (.inr (.inr (.inr ?_))))
      rwa [phaseLimit_of_phase hp]
    · refine answers_of_run rfl ?_
      have hover : phaseOverrun s.toMach = enterRom s.toMach := by
        refine if_neg ?_
        rw [phaseLimit_of_phase hp, hrom]
        simp only [List.mem_cons, List.not_mem_nil, or_false] at hp
        rintro (h | h | h | h)
        · cases h
        · omega
        · omega
        · exact absurd h (Nat.not_le.mpr hn)
      rw [hover]
      obtain ⟨hrun, hrole, hwl, hrec⟩ := enterRom_leaves s.toMach
      exact ⟨congrArg Sys.romMode (sys_enterRom s.toMach), hrun, hrole, hwl, hrec hroom⟩
  · intro s waits
    have hdecides (h : waits) : ¬(s.sys.phase ≠ 7 ∨ s.sys.romMode = true ∨ s.pr.fit = true ∨ s.pwr.reseed = true ∨ s.sys.btUsed = 0) := by
      obtain ⟨hp, hrom, hfit, hre, hbt⟩ := h
      simp [hp, hrom, hfit, hre, hbt]
    have hrole : partnerRole s.toMach = s.pr.beat.map fun b => b.claim / 2 ^ 28 := rfl
    refine ⟨fun h => ?_, fun h b hb hclaim => ?_, fun h hb hA hB hr hg hw hst hpin => ?_, fun h hb hAB => ?_⟩
    · refine takes_of_run rfl (if_pos ?_)
      simp only [waits] at h
      by_contra hnot
      exact h (by simpa [and_assoc] using hnot)
    · refine takes_of_run rfl ((if_neg (hdecides h)).trans ?_)
      rw [hrole, Option.mem_def.mp hb]
      exact if_pos hclaim
    · have hown : pairDecision s.toMach = takeOwn (if s.pr.pathPin.silent = true then 1 else 2) s.toMach := by
        refine (if_neg (hdecides h)).trans ?_
        rw [hrole, hb]
        refine (if_pos ⟨hA, hB⟩).trans ?_
        split
        next => rfl
        next hloud => exact if_pos (hpin.resolve_left hloud)
      refine answers_of_run rfl ?_
      rw [hown]
      obtain ⟨hfit, himg, hep, hrole4, hst2, hlone, hphase, hxb⟩ := takeOwn_leaves (if s.pr.pathPin.silent = true then 1 else 2) h.1 hb hr hg hw hst
      exact ⟨hfit, himg, hep, hrole4, hst2, hlone, hphase, hxb⟩
    · refine takes_of_run rfl ((if_neg (hdecides h)).trans ?_)
      rw [hrole, hb]
      refine if_neg ?_
      rintro ⟨hA, hB⟩
      simp [hA, hB] at hAB

end Sys2Proof.Proofs

/-! SUPPORT. Den entry: a MAC that carries a bound context is gated. -/
namespace Sys2Proof.Proofs
open Sys2Proof.Machine Sys2Proof.Safety

/-- Den entry in P5, with the link of MAC 0 up under a bound receive context. -/
def linkedInP5 : State := { State.reset with
  pwr := { State.reset.pwr with st := 3, phase := 5 }
  eth := { State.reset.eth with macs := [(0, { link := true })] }
  flw := { State.reset.flw with ctxs := [(0, { st := 3 })] } }

/-- The MAC that is gated in Den loses its link, which under a bound context is a fault (R173, R494). -/
theorem flt_linkedInP5 : (denPhaseEnd linkedInP5.toMach).flt ≠ linkedInP5.flt := by decide +kernel

/-- Refutes O55: as P5 ends, a MAC without a matcher stops, and its link that goes down under a bound context raises fault 0x30 (R173);
the statement has the fault table unchanged where the configuration's cost is within its limit. -/
theorem not_denEntryProceeds : ¬ Obligations.DenEntryProceeds := by
  unfold Obligations.DenEntryProceeds
  rintro ⟨-, hphases, -⟩
  obtain ⟨-, hquiet, -⟩ := hphases linkedInP5
  obtain ⟨-, -, -, hlast⟩ := hquiet rfl rfl
  obtain ⟨t, ht, -, -, -, -, -, hcheap, -⟩ := hlast rfl (by decide)
  obtain ⟨-, hflt⟩ := hcheap (by decide)
  have hmach : t.toMach = denPhaseEnd linkedInP5.toMach := toMach_of_run rfl ht
  exact flt_linkedInP5 (hmach ▸ hflt)

end Sys2Proof.Proofs

/-! SUPPORT. The wake: a step that times out a second time with one place left in the fault table. -/
namespace Sys2Proof.Proofs
open Sys2Proof.Machine Sys2Proof.Safety

/-- A record of C1 that is neither of a link nor of a wake. -/
def someFault : FaultRec := { src := 1, kind := 1, msg := 0, first := 0, latest := 0, base := 1 }

/-- Wake step W1 has been retried and is overdue; one place of the fault table is free, and MAC 0 has its link up under a bound
context. -/
def crowdedWake : State := { State.reset with
  now := stepLimit 9 + 1
  pwr := { State.reset.pwr with st := 4, phase := 9, retried := true }
  flt := { State.reset.flt with recs := List.replicate 2047 someFault }
  eth := { State.reset.eth with macs := [(0, { link := true })] }
  flw := { State.reset.flw with ctxs := [(0, { st := 3 })] } }

/-- The link of the MAC that is gated takes the last place (R173), so that the wake's fault goes to the overflow record (R519). -/
theorem unrecorded_crowdedWake : recorded (stepTimeout crowdedWake.toMach) 0xDF0 0xA4 = false := by decide +kernel

theorem tableRoom_crowdedWake : tableRoom crowdedWake.toMach = true := by decide +kernel

/-- Refutes O56: a wake that fails gates the domains first, and a MAC that carries a bound context raises 0x30 as its link goes down
(R173); where that takes the table's last place, the failed wake's 0xA4 is not recorded under its own key. -/
theorem not_wakeStepsProceed : ¬ Obligations.WakeStepsProceed := by
  unfold Obligations.WakeStepsProceed
  rintro ⟨-, -, -, htimeout⟩
  obtain ⟨-, hfails⟩ := htimeout crowdedWake rfl (by decide) (by decide)
  obtain ⟨t, ht, -, -, -, -, -, -, -, -, -, hrec⟩ := hfails rfl tableRoom_crowdedWake
  have hmach : t.toMach = stepTimeout crowdedWake.toMach := toMach_of_run rfl ht
  rw [hmach, unrecorded_crowdedWake] at hrec
  exact Bool.false_ne_true hrec

end Sys2Proof.Proofs

/-! SUPPORT. Drills: a drill that ends with failing blocks and one place left in the fault table. -/
namespace Sys2Proof.Proofs
open Sys2Proof.Machine Sys2Proof.Safety

/-- An image whose port 0 is split. -/
def splitImage : Saved := { flows := { eth := { split := [(0, 1)] } } }

/-- A drill runs; one place of the fault table is free, and MAC 0, of a port that the image splits otherwise, has its link up under a
bound context. -/
def crowdedDrill : State := { State.reset with
  pr := { State.reset.pr with drilling := true, img := some splitImage }
  flt := { State.reset.flt with recs := List.replicate 2047 someFault }
  eth := { State.reset.eth with macs := [(0, { link := true })] }
  flw := { State.reset.flw with ctxs := [(0, { st := 3 })] } }

/-- The link that goes down at the restored split takes the last place (R171, R173), so that the drill's fault goes to the overflow
record (R519). -/
theorem unrecorded_crowdedDrill : recorded (drillComplete 1 crowdedDrill.toMach) 0xDE0 0x97 = false := by decide +kernel

theorem tableRoom_crowdedDrill : tableRoom crowdedDrill.toMach = true := by decide +kernel

/-- Refutes O54: the end of a drill restores the blocks from the image first, and a MAC that a restored split stops raises 0x30 under a
bound context (R173); where that takes the table's last place, the failing drill's 0x97 is not recorded under its own key. -/
theorem not_changeoversProceed : ¬ Obligations.ChangeoversProceed := by
  unfold Obligations.ChangeoversProceed
  rintro ⟨-, -, -, -, -, hcomplete⟩
  obtain ⟨-, hruns⟩ := hcomplete crowdedDrill 1 tableRoom_crowdedDrill
  obtain ⟨t, ht, -, -, -, -, hrec, -⟩ := hruns rfl
  have hmach : t.toMach = drillComplete 1 crowdedDrill.toMach := toMach_of_run rfl ht
  have hnone := hrec (by decide)
  rw [hmach, unrecorded_crowdedDrill] at hnone
  exact Bool.false_ne_true hnone

end Sys2Proof.Proofs

/-! SUPPORT. Sessions: what concluding an entry leaves of their settings, and what closing one takes away. -/
namespace Sys2Proof.Machine
open Sys2Proof.Safety

/-! ### A session's settings (R413 to R430) -/

/-- A session without what answers and events move: its outcome cache, its reservation, its interrupts and its event numbers. -/
def Session.settings (x : Session) : Session :=
  { x with cache := [], unsig := 0, unsigAt := 0, reserved := 0, eseq := 0, lost := 0, lostFirst := 0 }

/-- Every session keeps its settings. -/
structure keepsSettings (m m' : Mach) : Prop where
  same : ∀ n, (ses m' n).settings = (ses m n).settings

theorem keepsSettings.refl (m : Mach) : keepsSettings m m := ⟨fun _ => rfl⟩
theorem keepsSettings.trans {a b c : Mach} (h : keepsSettings a b) (k : keepsSettings b c) : keepsSettings a c :=
  ⟨fun n => (k.same n).trans (h.same n)⟩

theorem keepsSettings.field {m m' : Mach} (h : keepsSettings m m') {α : Type} (g : Session → α) (hg : ∀ x, g x.settings = g x) (n : Nat) :
    g (ses m' n) = g (ses m n) := by
  rw [← hg, h.same n, hg]

theorem keepsSettings_of_sessions {m m' : Mach} (h : m'.ctl.sessions = m.ctl.sessions) : keepsSettings m m' := ⟨fun n => by
  rw [ses, h]; rfl⟩

theorem keepsSettings_of_events {m m' : Mach} (h : eventsOnly m m') : keepsSettings m m' := ⟨fun n => by
  have hs : ∀ x : Session, x.still.settings = x.settings := fun _ => rfl
  rw [← hs, h.ses n, hs]⟩

theorem keepsSettings_setSes (m : Mach) (n : Nat) {f : Session → Session} (hf : ∀ x, (f x).settings = x.settings) :
    keepsSettings m (setSes m n f) := ⟨fun j => by
  by_cases h : j = n
  · subst h; rw [ses_setSes_same, hf]
  · rw [ses_setSes_other _ _ h]⟩

theorem keepsSettings_putResps (m : Mach) (n : Nat) (hare : Bool) (rs : List Resp) : keepsSettings m (putResps m n hare rs) := by
  induction rs generalizing m with
  | nil => exact .refl m
  | cons r rs ih =>
    refine .trans ?_ (ih _)
    refine .trans ?_ (keepsSettings_of_events (eventsOnly_noteEntry ..))
    refine .trans ?_ (keepsSettings_setSes _ _ ?_)
    · exact keepsSettings_of_sessions rfl
    · exact fun _ => rfl

theorem keepsSettings_setEntry (m : Mach) (j : Nat) (f : JEntry → JEntry) : keepsSettings m (setEntry m j f) :=
  keepsSettings_of_sessions rfl

theorem keepsSettings_unreserve (m : Mach) (n k : Nat) : keepsSettings m (unreserve m n k) := keepsSettings_setSes _ _ fun _ => rfl
theorem keepsSettings_retire (m : Mach) : keepsSettings m (retire m) := keepsSettings_of_sessions rfl

theorem keepsSettings_postRoom (m : Mach) (e : JEntry) (rs : List Resp) (last : Bool) : keepsSettings m (postRoom m e rs last) := by
  have hput := keepsSettings_putResps m e.ses e.hare rs
  unfold postRoom
  split
  · exact keepsSettings_setEntry ..
  · dsimp only
    split
    · exact (hput.trans (keepsSettings_unreserve ..)).trans (keepsSettings_setEntry ..)
    · exact hput.trans (keepsSettings_setEntry ..)

/-- Concluding an entry leaves every session's settings. -/
theorem keepsSettings_conclude (m : Mach) (j st status : Nat) (result : List Byte) (epoch : Nat) :
    keepsSettings m (conclude m j st status result epoch) := by
  unfold conclude
  split
  · exact .refl m
  · extract_lets rs m₁ m₂ m₃
    have h₂ : keepsSettings m m₂ := by
      unfold m₂
      split
      · exact keepsSettings_of_sessions rfl
      · exact keepsSettings_of_sessions rfl
    have hun (m : Mach) : keepsSettings m (unprotect m) := keepsSettings_of_events (eventsOnly_unprotect m)
    split
    · refine .trans ?_ (keepsSettings_retire _)
      split
      · exact h₂
      · exact h₂.trans (hun _)
    · have h₃ : keepsSettings m m₃ := h₂.trans (keepsSettings_setSes _ _ fun _ => rfl)
      split
      · exact h₃.trans (keepsSettings_setEntry ..)
      · refine .trans ?_ (keepsSettings_retire _)
        exact (h₃.trans (hun _)).trans (keepsSettings_postRoom ..)

/-! ### Commits that change a session (R411) -/

/-- Whether the journal is mirrored is settled (R469). -/
theorem mirrored_iff (m : Mach) : mirrorSettled m = true ↔ xlUp m = true ∨ m.pr.unprot = true := by
  simp [mirrorSettled, or_comm]

theorem mirrorSettled_of {m m' : Mach} (hwl : m'.wl = m.wl) (hpr : m'.pr = m.pr) : mirrorSettled m' = mirrorSettled m := by
  have hb (b : Nat) : bundleUp m' b = bundleUp m b := by
    unfold bundleUp rxMask xlRxUp claiming partnerClaims partnerRole
    rw [hwl, hpr]
  simp only [mirrorSettled, xlUp, hb, hpr]

/-- A commit that moves sessions, and posts events, does what its admission did under a new epoch. -/
theorem answers_of_commit {s : State} {e : JEntry} {items : List Item} {m : Mach} {P : State → Prop}
    (h : commitsNext s.toMach e = true) (hc : commitCmd (commitCtx s.toMach e) e.cmd s.toMach = .commit m items)
    (hidle : ringsIdle s.toMach = true → ringsIdle m = true) (hmirror : mirrorSettled s.toMach = true → mirrorSettled m = true)
    (hP : ∀ t : State, t.toMach = committed s e items m → t.xb.epoch = s.xb.epoch + 1 →
      onlyAnswers (newEpoch s.toMach m (s.xb.epoch + 1)) t.toMach → keepsSettings m t.toMach → P t) : Answers .changeSetCommit s P := by
  obtain ⟨-, -, -, hidle₀, hmirror₀, -⟩ := commitsNext_iff.1 h
  have hsettled := (mirrored_iff m).1 (hmirror hmirror₀)
  have honly := onlyAnswers_committed (s := s) (e := e) (items := items) hsettled
  refine ⟨_, exec_of_commit h hc (hidle hidle₀) hsettled, hP _ rfl ?_ honly ?_⟩
  · dsimp only
    rw [honly]
    rfl
  · have hepoch : keepsSettings m (newEpoch s.toMach m (s.xb.epoch + 1)) := keepsSettings_of_sessions rfl
    exact hepoch.trans (keepsSettings_conclude _ _ _ _ (layout (.q (s.xb.epoch + 1) :: items)) _)

theorem mirrorSettled_of_ctl {m m' : Mach} (h : sameButCtl m m') : mirrorSettled m' = mirrorSettled m := by
  refine mirrorSettled_of ?_ ?_ <;> rw [h]

/-! ### SESSION_OPEN (R415, R417) -/

/-- A session as SESSION_OPEN sets it; the attach key is a free value. -/
def opened (m : Mach) (name lease sub ic id : Nat) (x : Session) : Session :=
  { x with st := .opn, name, sub, irqCount := ic, irqDelay := id, key := Config.attachKey m.free, lease := if lease = 0 then 5000 else lease }

/-- The machine once a session has been opened. -/
def openSession (m : Mach) (n name lease sub ic id : Nat) : Mach :=
  sessionEvt (startLease (setSes { m with free := m.free + 1 } n (opened m name lease sub ic id)) n) n 0

theorem commitSessionOpen_eq {m : Mach} {c : CCtx} {n name lease sub ic id : Nat} (hses : c.ses = some n) (hst : (ses m n).st = .opening)
    (hl : lease = 0 ∨ 100 ≤ lease) (hl' : lease ≤ 60000) (hsub : sub < 512) (hirq : irqOk ic id = true) (hcp : cpHeld m n + (ses m n).cpus ≤ 448) :
    ∃ items, commitSessionOpen c name lease sub ic id m = .commit (openSession m n name lease sub ic id) items := by
  have hok : ¬((lease ≠ 0 ∧ lease < 100) ∨ 60000 < lease ∨ 512 ≤ sub ∨ (!irqOk ic id) = true) := by
    rw [hirq]; simp only [Bool.not_true, Bool.false_eq_true, or_false]; omega
  simp only [commitSessionOpen, hses]
  rw [if_neg (not_not.2 hst), if_neg hok, if_neg (by omega)]
  exact ⟨_, rfl⟩

theorem sameButCtl_sessionEvt (m : Mach) (n what : Nat) : sameButCtl m (sessionEvt m n what) := sameButCtl_event ..

/-- The session that has been opened, its lease running where the module claims. -/
theorem ses_openSession {m : Mach} (n name lease sub ic id : Nat) (hc : claiming m = true) :
    (ses (openSession m n name lease sub ic id) n).settings =
      Session.settings { opened m name lease sub ic id (ses m n) with
        leaseEnd := some (m.now + (if lease = 0 then 5000 else lease) * msT) } := by
  unfold openSession
  rw [(keepsSettings_of_events (eventsOnly_sessionEvt ..)).same]
  generalize hm : setSes { m with free := m.free + 1 } n (opened m name lease sub ic id) = m₁
  have hses : ses m₁ n = opened m name lease sub ic id (ses m n) := by rw [← hm]; exact ses_setSes_same ..
  have hnow : m₁.now = m.now := by rw [← hm]; rfl
  have hlease : startLease m₁ n = setSes m₁ n fun x => { x with leaseEnd := some (m₁.now + x.lease * msT) } :=
    if_pos ⟨by rw [← hm]; exact hc, .inl (by rw [hses]; rfl)⟩
  rw [hlease, ses_setSes_same, hses, hnow]
  rfl

theorem free_openSession (m : Mach) (n name lease sub ic id : Nat) : (openSession m n name lease sub ic id).free = m.free + 1 := by
  unfold openSession
  rw [sameButCtl_sessionEvt, sameButCtl_startLease]
  rfl

theorem ringsIdle_openSession (m : Mach) (n name lease sub ic id : Nat) : ringsIdle (openSession m n name lease sub ic id) = ringsIdle m :=
  (eventsOnly_sessionEvt ..).idle.trans (ringsIdle_startLease ..)

theorem mirrorSettled_openSession (m : Mach) (n name lease sub ic id : Nat) :
    mirrorSettled (openSession m n name lease sub ic id) = mirrorSettled m :=
  (mirrorSettled_of_ctl ((sameButCtl_startLease ..).trans (sameButCtl_sessionEvt ..))).trans (mirrorSettled_of rfl rfl)

/-! ### Grants (R419) -/

theorem sameButCtl_endGrant (m : Mach) (n : Nat) : sameButCtl m (endGrant m n) := by
  unfold endGrant
  split
  · exact (sameButCtl_setSes ..).trans (sameButCtl_sessionEvt ..)
  · exact sameButCtl_refl m

theorem ringsIdle_endGrant (m : Mach) (n : Nat) : ringsIdle (endGrant m n) = ringsIdle m := by
  unfold endGrant
  split
  · exact (eventsOnly_sessionEvt ..).idle
  · rfl

theorem grantEnd_endGrant (m : Mach) (n : Nat) : (ses (endGrant m n) n).grantEnd = none := by
  unfold endGrant
  split
  · rw [(eventsOnly_sessionEvt ..).session Session.grantEnd (fun _ => rfl), ses_setSes_same]
  · next h => simpa [expert] using h

/-- A grant begins, with its notice. -/
def beginGrant (m : Mach) (n lease : Nat) : Mach :=
  sessionEvt (raise (setSes m n fun x => { x with grantEnd := some (m.now + lease * 1000 * msT) }) (0xD80 + n) 0x81 0) n 2

theorem commitExpertGrant_begin {m : Mach} {c : CCtx} {n lease : Nat} (hses : c.ses = some n) (hl : 1 ≤ lease) (hl' : lease ≤ 3600)
    (hg : grants m n < 4) : commitExpertGrant c 1 lease m = .commit (beginGrant m n lease) [] := by
  simp only [commitExpertGrant, hses]
  exact (if_neg (by omega)).trans ((if_neg (by omega)).trans (if_neg (Nat.not_le.2 hg)))

theorem commitExpertGrant_end {m : Mach} {c : CCtx} {n lease : Nat} (hses : c.ses = some n) :
    commitExpertGrant c 0 lease m = .commit (endGrant m n) [] := by
  simp only [commitExpertGrant, hses]
  exact (if_neg (by omega)).trans (if_pos trivial)

theorem eventsOnly_beginGrant (m : Mach) (n lease : Nat) :
    eventsOnly (setSes m n fun x => { x with grantEnd := some (m.now + lease * 1000 * msT) }) (beginGrant m n lease) :=
  (eventsOnly_raise _ _ 0x81 0 (by decide : 0 ≤ 2)).trans (eventsOnly_sessionEvt ..)

theorem mirrorSettled_beginGrant (m : Mach) (n lease : Nat) : mirrorSettled (beginGrant m n lease) = mirrorSettled m := by
  unfold beginGrant
  rw [mirrorSettled_of_ctl (sameButCtl_sessionEvt ..)]
  exact mirrorSettled_of (faultsOnly_raise ..).wl (keepsPair_raise _ _ 0x81 0 (by decide : 0 ≤ 2)).pr

/-! ### Settings that a session sets (R413, R426) -/

theorem commitSubscribe_eq {m : Mach} {c : CCtx} {n sub ic id : Nat} (hses : c.ses = some n) (hsub : sub < 512) (hirq : irqOk ic id = true) :
    commitSubscribe c sub ic id m = .commit (setSes m n fun x => { x with sub, irqCount := ic, irqDelay := id }) [] := by
  simp only [commitSubscribe, hses, Option.getD_some]
  exact if_neg (by rw [hirq]; simpa using hsub)

theorem commitSessionBudget_eq {m : Mach} {n cmds hare cpus : Nat} (hn : n < 64) (hh : 1 ≤ hare) (hh' : hare ≤ 32) (hc : 1 ≤ cpus)
    (hc' : cpus ≤ 125) (hst : (ses m n).st = .opn ∨ (ses m n).st = .detached) (hcp : cpHeld m n + cpus ≤ 448) :
    commitSessionBudget n cmds hare cpus m =
      .commit (setSes m n fun x => { x with cmds := if cmds = 0 then 256 else cmds, hare, cpus }) [] :=
  (if_neg (by omega)).trans ((if_neg (by tauto)).trans (if_neg (by omega)))

/-! ### What closing a session ends beforehand (R418) -/

/-- No load has been opened, no destination has changed, the rings are idle as before, and the journal's mirror is settled if it was. -/
structure endsHeld (m m' : Mach) : Prop where
  loads : ∀ l ∈ m'.xb.loads, l ∈ m.xb.loads
  mixes : ∀ l ∈ m'.aud.loads, l ∈ m.aud.loads
  dests : m'.xb.dests = m.xb.dests
  idle : ringsIdle m' = ringsIdle m
  settled : mirrorSettled m = true → mirrorSettled m' = true

theorem endsHeld.refl (m : Mach) : endsHeld m m := ⟨fun _ => id, fun _ => id, rfl, rfl, id⟩

theorem endsHeld.trans {a b c : Mach} (h : endsHeld a b) (k : endsHeld b c) : endsHeld a c :=
  ⟨fun l hl => h.loads l (k.loads l hl), fun l hl => h.mixes l (k.mixes l hl), k.dests.trans h.dests, k.idle.trans h.idle,
    fun hs => k.settled (h.settled hs)⟩

theorem endsHeld_foldl {α : Type} (g : Mach → α → Mach) (h : ∀ m x, endsHeld m (g m x)) (l : List α) (m : Mach) :
    endsHeld m (l.foldl g m) := by
  induction l generalizing m with
  | nil => exact .refl m
  | cons a l ih => exact (h m a).trans (ih (g m a))

theorem endsHeld_of_answers {m m' : Mach} (h : onlyAnswers m m') : endsHeld m m' := by
  refine ⟨?_, ?_, ?_, h.ringsIdle, fun hs => ?_⟩
  · rw [h]; exact fun _ => id
  · rw [h]; exact fun _ => id
  · rw [h]
  · rw [h]; exact hs

theorem endsHeld_endGrant (m : Mach) (n : Nat) : endsHeld m (endGrant m n) := by
  have h := sameButCtl_endGrant m n
  refine ⟨?_, ?_, ?_, ringsIdle_endGrant m n, fun hs => (mirrorSettled_of_ctl h).trans hs⟩
  · rw [h]; exact fun _ => id
  · rw [h]; exact fun _ => id
  · rw [h]

theorem endsHeld_unprotect (m : Mach) : endsHeld m (unprotect m) := by
  have hxb := unprotect_xb m
  have haud : (unprotect m).aud = m.aud := by
    unfold unprotect
    split
    · rfl
    · obtain ⟨-, -, -, -, -, -, -, -, haud, -⟩ := (faultsOnly_raise { m with pr := { m.pr with unprot := true } } 0xDE0 0x95 1 0).apart
      exact haud
  refine ⟨?_, ?_, ?_, (eventsOnly_unprotect m).idle, fun _ => (mirrored_iff _).2 (.inr (unprotect_unprot m))⟩
  · rw [hxb]; exact fun _ => id
  · rw [haud]; exact fun _ => id
  · rw [hxb]

/-- A commit record moves the journal, and what mirrors it. -/
theorem endsHeld_commitRecord (m : Mach) (j : Nat) : endsHeld m (commitRecord m j) := by
  have hjournal (js : List JEntry) (jnext jpos : Nat) : endsHeld m { m with ctl := { m.ctl with journal := js, jnext, jpos } } :=
    ⟨fun _ => id, fun _ => id, rfl, rfl, id⟩
  unfold commitRecord
  split
  · exact .refl m
  · split
    · exact .refl m
    · extract_lets r m₁ ctl m₂
      have h₂ : endsHeld m m₂ := hjournal ..
      split
      · exact (h₂.trans (endsHeld_of_answers (onlyAnswers_xlSend ..))).trans (endsHeld_of_answers (onlyAnswers_xlSend ..))
      · exact h₂.trans (endsHeld_unprotect _)

theorem endsHeld_recordReady (m : Mach) (p : Cmd → Bool) : endsHeld m (recordReady m p) := endsHeld_foldl _ endsHeld_commitRecord _ m

theorem endsHeld_setPlane (m : Mach) (p : Nat) (f : Plane → Plane) : endsHeld m (setPlane m p f) :=
  ⟨fun _ => id, fun _ => id, rfl, rfl, id⟩

theorem endsHeld_setPc (m : Mach) (n : Nat) (f : Pc → Pc) : endsHeld m (setPc m n f) := ⟨fun _ => id, fun _ => id, rfl, rfl, id⟩

/-- A session's loads of banks go (R61). -/
theorem abandonBanks_leaves (m : Mach) (n : Nat) :
    endsHeld m (abandonBanks m n fun _ => true) ∧ ∀ l ∈ (abandonBanks m n fun _ => true).xb.loads, l.ses ≠ n := by
  unfold abandonBanks
  extract_lets gone xb m₁ m₂
  have h₁ : endsHeld m m₁ := ⟨fun _ => List.mem_of_mem_filter, fun _ => id, rfl, rfl, id⟩
  have h₂ : endsHeld m₁ m₂ := endsHeld_foldl _ (fun _ _ => endsHeld_setPlane ..) _ _
  have h := h₂.trans (endsHeld_recordReady m₂ fun c => match c with
    | .bankSwap q => gone.contains q
    | _ => false)
  refine ⟨h₁.trans h, fun l hl => ?_⟩
  have hkept := List.of_mem_filter (h.loads l hl)
  simpa using hkept

/-- A session's loads of mixes go (R275). -/
theorem abandonMixes_leaves (m : Mach) (n : Nat) :
    endsHeld m (abandonMixes m n fun _ => true) ∧ ∀ l ∈ (abandonMixes m n fun _ => true).aud.loads, l.ses ≠ n := by
  unfold abandonMixes
  extract_lets gone ready aud m₁
  have h₁ : endsHeld m m₁ := ⟨fun _ => id, fun _ => List.mem_of_mem_filter, rfl, rfl, id⟩
  have h := endsHeld_recordReady m₁ fun c => match c with
    | .audBankSwap k => gone.any (bit k)
    | _ => false
  refine ⟨h₁.trans h, fun l hl => ?_⟩
  have hkept := List.of_mem_filter (h.mixes l hl)
  simpa using hkept

theorem onlyPosts_postFinal (m : Mach) (n opcode hseq status : Nat) (result : List Byte) (room : Nat) (hare : Bool) :
    onlyPosts m (postFinal m n opcode hseq status result room hare) := by
  have hunfinished (f : Window → Window) : onlyPosts m (setWin m n f) := rfl
  unfold postFinal
  extract_lets rs m₁
  exact ((hunfinished _).trans (onlyPosts_putResps m₁ n hare rs)).trans (onlyPosts_setSes ..)

/-- A scan that ends writes its result and posts its answer (R163). -/
theorem endsHeld_cutScan (m : Mach) (s : Scan) (status : Nat) : endsHeld m (cutScan m s status) := by
  unfold cutScan endScan
  extract_lets n counts m₁ m₂
  have h₂ : endsHeld m m₂ := ⟨fun _ => id, fun _ => id, rfl, rfl, id⟩
  split
  · exact h₂
  · refine h₂.trans (endsHeld_of_answers (.of_posts ?_))
    have hsalvo (bs : List Byte) : onlyPosts m₂ (putSalvo m₂ s.ses s.off bs) := rfl
    exact (hsalvo _).trans (onlyPosts_postFinal ..)

theorem endsHeld_cutScans (m : Mach) (status : Nat) (p : Scan → Bool) : endsHeld m (cutScans m status p) :=
  endsHeld_foldl _ (fun _ _ => endsHeld_cutScan ..) _ m

/-- The pseudo-channels that a session has frozen thaw. -/
def thawFreezes (m : Mach) (n : Nat) : Mach :=
  (tkeys (fun (p : Pc) => p.frozen.any fun f => f.1 == n) m.mem.pcs).foldl (fun m k => setPc m k fun p => { p with frozen := none, st := 0 }) m

theorem endsHeld_thawFreezes (m : Mach) (n : Nat) : endsHeld m (thawFreezes m n) :=
  endsHeld_foldl (fun m k => setPc m k fun p => { p with frozen := none, st := 0 }) (fun _ _ => endsHeld_setPc ..) _ m

/-- What a session holds has ended: its grant, its loads, its scans and its freezes (R418). -/
def endHeld (m : Mach) (n : Nat) : Mach :=
  thawFreezes (cutScans (abandonMixes (abandonBanks (endGrant m n) n fun _ => true) n fun _ => true) 2 fun s => s.ses == n) n

theorem endHeld_leaves (m : Mach) (n : Nat) : endsHeld m (endHeld m n) ∧ (∀ l ∈ (endHeld m n).xb.loads, l.ses ≠ n) ∧
    ∀ l ∈ (endHeld m n).aud.loads, l.ses ≠ n := by
  have hgrant := endsHeld_endGrant m n
  unfold endHeld
  generalize endGrant m n = a at hgrant ⊢
  obtain ⟨hbanks, hnobank⟩ := abandonBanks_leaves a n
  generalize abandonBanks a n (fun _ => true) = b at hbanks hnobank ⊢
  obtain ⟨hmixes, hnomix⟩ := abandonMixes_leaves b n
  generalize abandonMixes b n (fun _ => true) = c at hmixes hnomix ⊢
  have hlast := (endsHeld_cutScans c 2 fun s => s.ses == n).trans (endsHeld_thawFreezes _ n)
  exact ⟨((hgrant.trans hbanks).trans hmixes).trans hlast,
    fun l hl => hnobank l (hmixes.loads l (hlast.loads l hl)), fun l hl => hnomix l (hlast.mixes l hl)⟩

/-! ### A session that nothing posts to -/

/-- Session `n` and its window are as they were. -/
structure sameSession (n : Nat) (m m' : Mach) : Prop where
  ses : ses m' n = ses m n
  win : win m' n = win m n

section
variable {n : Nat}

theorem sameSession.refl (m : Mach) : sameSession n m m := ⟨rfl, rfl⟩
theorem sameSession.trans {a b c : Mach} (h : sameSession n a b) (k : sameSession n b c) : sameSession n a c :=
  ⟨k.ses.trans h.ses, k.win.trans h.win⟩

theorem sameSession_setSes {k : Nat} (m : Mach) (f : Session → Session) (hk : n ≠ k) : sameSession n m (setSes m k f) :=
  ⟨ses_setSes_other _ _ hk, rfl⟩

theorem sameSession_setWin {k : Nat} (m : Mach) (f : Window → Window) (hk : n ≠ k) : sameSession n m (setWin m k f) :=
  ⟨rfl, win_setWin_other _ _ hk⟩

theorem sameSession_noteEntry {k : Nat} (m : Mach) (now : Bool) (hk : n ≠ k) : sameSession n m (noteEntry m k now) := by
  have hsignal (m : Mach) : sameSession n m (signal m k) := by
    have hfire (p : Nat) : sameSession n m (fireVector m p k) := ⟨rfl, rfl⟩
    unfold signal
    split
    · exact (hfire _).trans (sameSession_setSes _ _ hk)
    · exact .refl m
  unfold noteEntry
  dsimp only
  split
  · exact (sameSession_setSes _ _ hk).trans (hsignal _)
  · exact sameSession_setSes _ _ hk

theorem sameSession_postEvt {k : Nat} (m : Mach) (code g : Nat) (b : List Byte) (hk : n ≠ k) : sameSession n m (postEvt m k code g b) := by
  have hcnt (m : Mach) (f : SesCnt → SesCnt) : sameSession n m (setCnt m k f) := ⟨rfl, rfl⟩
  unfold postEvt
  dsimp only
  split
  · exact (sameSession_setSes _ _ hk).trans (hcnt _ _)
  · exact ((sameSession_setWin _ _ hk).trans (sameSession_setSes _ _ hk)).trans (sameSession_noteEntry _ _ hk)

/-- An event passes by a session that does not subscribe to its group. -/
theorem sameSession_event {m : Mach} {g : Nat} (code : Nat) (b : List Byte) (hsub : bit (ses m n).sub g = false) :
    sameSession n m (event m code g b) := by
  unfold event
  have hothers : ∀ k ∈ (liveSessions m).filter fun k => bit (ses m k).sub g || (none : Option Nat) == some k, n ≠ k := by
    rintro k hk rfl
    have hgets := List.of_mem_filter hk
    rw [hsub] at hgets
    simp at hgets
  generalize ((liveSessions m).filter fun k => bit (ses m k).sub g || (none : Option Nat) == some k) = ks at hothers
  clear hsub
  induction ks generalizing m with
  | nil => exact .refl m
  | cons k ks ih =>
    exact (sameSession_postEvt m code g b (hothers k (List.mem_cons_self ..))).trans
      (ih fun j hj => hothers j (List.mem_cons_of_mem _ hj))

theorem sameSession_putResps {k : Nat} (m : Mach) (hare : Bool) (rs : List Resp) (hk : n ≠ k) : sameSession n m (putResps m k hare rs) := by
  induction rs generalizing m with
  | nil => exact .refl m
  | cons r rs ih =>
    exact (((sameSession_setWin _ _ hk).trans (sameSession_setSes _ _ hk)).trans (sameSession_noteEntry _ _ hk)).trans (ih _)

/-- Nothing is posted for an entry of another session, or of one that has closed. -/
theorem sameSession_postRoom {m : Mach} {e : JEntry} (rs : List Resp) (last : Bool) (he : e.ses = n → e.deaf = true) :
    sameSession n m (postRoom m e rs last) := by
  have hentry (m : Mach) (f : JEntry → JEntry) : sameSession n m (setEntry m e.jseq f) := ⟨rfl, rfl⟩
  unfold postRoom
  split
  · exact hentry ..
  · next hheard =>
    have hk : n ≠ e.ses := fun h => hheard (by rw [he h.symm]; rfl)
    dsimp only
    split
    · exact ((sameSession_putResps m e.hare rs hk).trans (sameSession_setSes _ _ hk)).trans (hentry ..)
    · exact (sameSession_putResps m e.hare rs hk).trans (hentry ..)

theorem sameSession_cacheFinal {m : Mach} (k j : Nat) (rs : List Resp) (hcache : (ses m n).cache = []) : sameSession n m (cacheFinal m k j rs) := by
  by_cases hk : n = k
  · subst hk
    refine ⟨?_, rfl⟩
    unfold cacheFinal
    rw [ses_setSes_same]
    simp only [hcache, List.map_nil]
    rw [← hcache]
  · exact sameSession_setSes _ _ hk

/-- Concluding an entry leaves a session alone that is closed, and whose entries are deaf. -/
theorem sameSession_conclude {m : Mach} {j : Nat} (st status : Nat) (result : List Byte) (epoch : Nat)
    (hmirror : xlUp m = true ∨ m.pr.unprot = true) (hcache : (ses m n).cache = []) (hdeaf : ∀ e ∈ m.ctl.journal, e.ses = n → e.deaf = true) :
    sameSession n m (conclude m j st status result epoch) := by
  unfold conclude
  split
  · exact .refl m
  · next e he =>
    have hheard : e.ses = n → e.deaf = true := hdeaf e (List.mem_of_find?_eq_some he)
    have hentry (m : Mach) (f : JEntry → JEntry) : sameSession n m (setEntry m j f) := ⟨rfl, rfl⟩
    have hretire (m : Mach) : sameSession n m (retire m) := ⟨rfl, rfl⟩
    extract_lets rs m₁ m₂ m₃
    have h₂ : sameSession n m m₂ := by
      unfold m₂
      split
      · exact ⟨rfl, rfl⟩
      · exact hentry ..
    have honly : onlyAnswers m m₂ := by
      unfold m₂
      split
      · exact (onlyAnswers_setEntry ..).trans (onlyAnswers_xlSend ..)
      · exact onlyAnswers_setEntry ..
    have hun (m' : Mach) (h : onlyAnswers m m') (hxl : xlUp m' ≠ true) : unprotect m' = m' := by
      refine if_pos ?_
      have hup : xlUp m' = xlUp m := by rw [h]; rfl
      rw [h]
      exact hmirror.resolve_left fun h => hxl (hup.trans h)
    split
    · refine .trans ?_ (hretire _)
      split
      · exact h₂
      · next hxl => rw [hun _ honly hxl]; exact h₂
    · have h₃ : sameSession n m m₃ := h₂.trans (sameSession_cacheFinal _ _ _ (by rw [h₂.ses]; exact hcache))
      split
      · exact h₃.trans (hentry ..)
      · next hxl =>
        rw [hun m₃ (honly.trans (onlyAnswers_cacheFinal ..)) hxl]
        exact (h₃.trans (sameSession_postRoom rs true hheard)).trans (hretire _)
end

/-! ### SESSION_CLOSE (R418) -/

/-- The machine without a session: nothing names it any more. -/
def dropSession (m : Mach) (n : Nat) : Mach :=
  let unown (s : Nat) : Nat := if s = n then 255 else s
  { m with
    xb := { m.xb with
      dests := tmap (fun _ (d : Dest) => if d.prot = some n then { d with prot := none } else d) m.xb.dests
      airing := m.xb.airing.map fun a => { a with ses := unown a.ses }
      onAir := m.xb.onAir.map fun a => { a with ses := unown a.ses } }
    flw := { m.flw with ports := tmap (fun _ (p : Ingress) =>
      { p with swap := p.swap.map fun s => { s with ses := unown s.ses } }) m.flw.ports }
    ctl := { m.ctl with
      svc := m.ctl.svc.filter fun w => w.ses != n
      rung := m.ctl.rung.filter fun r => r.ses != n
      journal := m.ctl.journal.map fun e => if e.ses = n then { e with deaf := true, room := 0, held := [], unacked := false } else e
      windows := tset m.ctl.windows n {}
      sessions := tset m.ctl.sessions n {} }
    sys := { m.sys with jobs := m.sys.jobs.map fun j => { j with ask := j.ask.filter fun x => x.1 != n } }
    pwr := { m.pwr with wakePartner := m.pwr.wakePartner.filter fun x => x.1 != n }
    pr := { m.pr with drillAsk := m.pr.drillAsk.filter fun x => x.1 != n } }

theorem closeSession_eq (m : Mach) (n what : Nat) : closeSession m n what = sessionEvt (dropSession (endHeld m n) n) n what := by
  simp only [closeSession, endHeld, thawFreezes, dropSession]

theorem commitSessionClose_eq {m : Mach} {c : CCtx} {k target : Nat} (hses : c.ses = some k) :
    let n := if target = 255 then k else target
    n < 64 → ((ses m n).st = .opn ∨ (ses m n).st = .detached) → commitSessionClose c target m = .commit (closeSession m n 1) [] := by
  intro n hn hst
  simp only [commitSessionClose, hses, Option.getD_some, Option.isNone_some, Bool.false_eq_true, if_false]
  exact (if_neg (by omega)).trans (if_neg (by tauto))

theorem dest_dropSession (m : Mach) (n d : Nat) :
    dest (dropSession m n) d = if (dest m d).prot = some n then { dest m d with prot := none } else dest m d :=
  tget_tmap (fun _ (x : Dest) => if x.prot = some n then { x with prot := none } else x) m.xb.dests rfl

/-- The session and its window are those of a free one. -/
theorem sameSession_closed (m : Mach) (n what : Nat) : ses (closeSession m n what) n = {} ∧ win (closeSession m n what) n = {} := by
  rw [closeSession_eq]
  generalize endHeld m n = a
  have hses : ses (dropSession a n) n = {} := tget_tset_same ..
  have hwin : win (dropSession a n) n = {} := tget_tset_same ..
  have h : sameSession n (dropSession a n) (sessionEvt (dropSession a n) n what) := sameSession_event _ _ (by rw [hses]; rfl)
  exact ⟨h.ses.trans hses, h.win.trans hwin⟩

/-- What a closed session leaves: no load, no lines of its own, no entry that is answered, no protection (R418). -/
theorem closeSession_leaves (m : Mach) (n what : Nat) :
    (∀ l ∈ (closeSession m n what).xb.loads, l.ses ≠ n) ∧ (∀ l ∈ (closeSession m n what).aud.loads, l.ses ≠ n) ∧
      (∀ w ∈ (closeSession m n what).ctl.svc, w.ses ≠ n) ∧
      (∀ e ∈ (closeSession m n what).ctl.journal, e.ses = n → e.deaf = true) ∧
      ∀ d, dest (closeSession m n what) d = if (dest m d).prot = some n then { dest m d with prot := none } else dest m d := by
  obtain ⟨hends, hbanks, hmixes⟩ := endHeld_leaves m n
  have hdests (d : Nat) : dest (endHeld m n) d = dest m d := by rw [dest, hends.dests]; rfl
  rw [closeSession_eq]
  generalize endHeld m n = a at hbanks hmixes hdests ⊢
  have hevent := sameButCtl_sessionEvt (dropSession a n) n what
  have hctl := (eventsOnly_sessionEvt (dropSession a n) n what).ctl
  refine ⟨?_, ?_, ?_, ?_, fun d => ?_⟩
  · rw [hevent]; exact hbanks
  · rw [hevent]; exact hmixes
  · rw [hctl]
    intro w hw
    simpa using List.of_mem_filter hw
  · rw [hctl]
    intro e he hn
    obtain ⟨x, -, rfl⟩ := List.mem_map.1 he
    split at hn
    next h => rw [if_pos h]
    next h => exact absurd hn h
  · rw [← hdests d, ← dest_dropSession]
    rw [hevent]
    rfl

theorem ringsIdle_closeSession {m : Mach} (n what : Nat) (h : ringsIdle m = true) : ringsIdle (closeSession m n what) = true := by
  rw [closeSession_eq, (eventsOnly_sessionEvt ..).idle]
  have hidle := (endHeld_leaves m n).1.idle.trans h
  generalize endHeld m n = a at hidle
  simp only [ringsIdle, Bool.and_eq_true, List.isEmpty_iff] at hidle ⊢
  obtain ⟨⟨hrung, hstarted⟩, hfull⟩ := hidle
  exact ⟨⟨by simp only [dropSession, hrung, List.filter_nil], hstarted⟩, hfull⟩

theorem mirrorSettled_closeSession {m : Mach} (n what : Nat) (h : mirrorSettled m = true) : mirrorSettled (closeSession m n what) = true := by
  rw [closeSession_eq, mirrorSettled_of_ctl (sameButCtl_sessionEvt ..)]
  have hsettled := (endHeld_leaves m n).1.settled h
  generalize endHeld m n = a at hsettled ⊢
  exact hsettled

end Sys2Proof.Machine

namespace Sys2Proof.Proofs
open Sys2Proof.Machine Sys2Proof.Safety

/-- Settles O18: each session change set is admitted by the law of its command. -/
theorem sessionChangeSetsCommit : Obligations.SessionChangeSetsCommit := by
  unfold Obligations.SessionChangeSetsCommit
  have mine {s : State} {e : JEntry} (h : commitsNext s.toMach e = true) : (commitCtx s.toMach e).ses = some e.ses := by
    obtain ⟨-, -, -, -, -, -, -, hses, -⟩ := commitsNext_iff.1 h
    exact if_neg (by omega)
  have irq {ic id : Nat} (h1 : 1 ≤ ic) (h64 : ic ≤ 64) (hid : id ≤ 1000) : irqOk ic id = true := by
    simp only [irqOk, h1, h64, hid, decide_true, Bool.and_self]
  refine ⟨?_, ?_, ?_, ?_, ?_, ?_⟩
  · intro s e name lease sub ic id h he hst hl hl' hsub h1 h64 hid hcp
    obtain ⟨items, hcommit⟩ := commitSessionOpen_eq (mine h) hst hl hl' hsub (irq h1 h64 hid) hcp
    obtain ⟨-, -, hclaim, -⟩ := commitsNext_iff.1 h
    refine answers_of_commit h (by rw [he]; exact hcommit) (ringsIdle_openSession ..).trans (mirrorSettled_openSession ..).trans
      fun t _ hepoch honly hkeeps => ⟨hepoch, ?_, ?_⟩
    · rw [honly]
      exact free_openSession ..
    · have hx := (hkeeps.same e.ses).trans (ses_openSession e.ses name lease sub ic id hclaim)
      have field {α : Type} (g : Session → α) (hg : ∀ x, g x.settings = g x) :=
        (hg (ses t.toMach e.ses)).symm.trans ((congrArg g hx).trans (hg _))
      have hlease := field Session.lease fun _ => rfl
      refine ⟨field Session.st fun _ => rfl, field Session.name fun _ => rfl, field Session.sub fun _ => rfl,
        field Session.irqCount fun _ => rfl, field Session.irqDelay fun _ => rfl, field Session.key fun _ => rfl, hlease, ?_⟩
      rw [hlease]
      exact field Session.leaseEnd fun _ => rfl
  · intro s e target h he n hn hst
    have hcommit := commitSessionClose_eq (m := s.toMach) (mine h) hn hst
    obtain ⟨-, -, -, -, hmirror, -⟩ := commitsNext_iff.1 h
    refine answers_of_commit h ((congrArg (commitCmd _ · s.toMach) he).trans hcommit) (ringsIdle_closeSession n 1)
      (mirrorSettled_closeSession n 1) fun t ht hepoch honly _ => ?_
    obtain ⟨hbanks, hmixes, hsvc, hdeaf, hdests⟩ := closeSession_leaves s.toMach n 1
    obtain ⟨hses, hwin⟩ := sameSession_closed s.toMach n 1
    have hsettled := (mirrored_iff _).1 (mirrorSettled_closeSession n 1 hmirror)
    generalize closeSession s.toMach n 1 = m at *
    have hsame : sameSession n m t.toMach := by
      have hepoch : sameSession n m (newEpoch s.toMach m (s.xb.epoch + 1)) := ⟨rfl, rfl⟩
      rw [ht]
      refine hepoch.trans (sameSession_conclude _ _ _ _ hsettled ?_ hdeaf)
      rw [hepoch.ses, hses]
    refine ⟨hepoch, hsame.ses.trans hses, hsame.win.trans hwin, ?_, ?_, ?_, fun d _ => ?_⟩
    · rw [honly]; exact hbanks
    · rw [honly]; exact hmixes
    · rw [honly]; exact hsvc
    · rw [← hdests d, honly]; rfl
  · intro s e sub ic id h he hsub h1 h64 hid
    have hcommit := commitSubscribe_eq (m := s.toMach) (mine h) hsub (irq h1 h64 hid)
    refine answers_of_commit h ((congrArg (commitCmd _ · s.toMach) he).trans hcommit) (fun hidle => hidle) (mirrorSettled_of_ctl (sameButCtl_setSes ..)).trans
      fun t _ hepoch _ hkeeps => ⟨hepoch, ?_, ?_, ?_⟩
    · rw [hkeeps.field Session.sub fun _ => rfl, ses_setSes_same]
    · rw [hkeeps.field Session.irqCount fun _ => rfl, ses_setSes_same]
    · rw [hkeeps.field Session.irqDelay fun _ => rfl, ses_setSes_same]
  · intro s e lease h he hl hl' hg
    have hcommit := commitExpertGrant_begin (mine h) hl hl' hg
    refine answers_of_commit h (by rw [he]; exact hcommit) (eventsOnly_beginGrant ..).idle.trans
      (mirrorSettled_beginGrant ..).trans fun t _ hepoch _ hkeeps => ⟨hepoch, ?_⟩
    rw [hkeeps.field Session.grantEnd fun _ => rfl, (eventsOnly_beginGrant ..).session Session.grantEnd (fun _ => rfl), ses_setSes_same]
  · intro s e lease h he
    have hcommit := commitExpertGrant_end (m := s.toMach) (lease := lease) (mine h)
    refine answers_of_commit h (by rw [he]; exact hcommit) (ringsIdle_endGrant ..).trans
      (mirrorSettled_of_ctl (sameButCtl_endGrant ..)).trans fun t _ hepoch _ hkeeps => ⟨hepoch, ?_⟩
    rw [hkeeps.field Session.grantEnd fun _ => rfl, grantEnd_endGrant]
  · intro s e n cmds hare cpus h he hn hh hh' hc hc' hst hcp
    have hcommit := commitSessionBudget_eq (cmds := cmds) hn hh hh' hc hc' hst hcp
    refine answers_of_commit h ((congrArg (commitCmd _ · s.toMach) he).trans hcommit) (fun hidle => hidle) (mirrorSettled_of_ctl (sameButCtl_setSes ..)).trans
      fun t _ hepoch _ hkeeps => ⟨hepoch, ?_, ?_, ?_⟩
    · rw [hkeeps.field Session.cmds fun _ => rfl, ses_setSes_same]
    · rw [hkeeps.field Session.hare fun _ => rfl, ses_setSes_same]
    · rw [hkeeps.field Session.cpus fun _ => rfl, ses_setSes_same]

end Sys2Proof.Proofs

/-! SUPPORT. What a heartbeat leaves for good: device time, the heartbeat itself and the XL paths outlast every change set and every
wake, and the next parts show the same of claims and changeovers. -/
namespace Sys2Proof.Machine
open Sys2Proof.Safety

/-! ### What a heartbeat leaves -/

/-- Device time, the latest heartbeat and the XL paths (R351, R464). -/
def beatView (m : Mach) : Nat × Bool × Option Beat × HbPath × HbPath := (m.dt.t, m.dt.valid, m.pr.beat, m.pr.pathA, m.pr.pathB)

/-- No other block is part of it. -/
@[simp] theorem beatView_blocks (m : Mach) (now free : Nat) (xb : Xbar) (is_ : Inputs) (ctl : Ctl) (flt : Flt) (snp : Snp) (wl : Wl)
    (ln : Lanes) (eth : Eth) (flw : Flw) (cmp : Cmps) (aud : Aud) (audCnt : AudCnt) (apt : Apts) (tmg : Tmg) (mem : MemCtl) (bus : Bus)
    (pwr : Pwr) (upd : Upd) (sys : Sys) (out : Tab OutLine) (images : Tab Blocks) :
    beatView { m with
      now, free, xb, is_, ctl, flt, snp, wl, ln, eth, flw, cmp, aud, audCnt, apt, tmg, mem, bus, pwr, upd, sys, out, images } = beatView m :=
  rfl

/-- Of the block of device time, the count and VALID alone. -/
@[simp] theorem beatView_dt (m : Mach) (incr : Nat) (rem : Int) (mode : Nat) (jump follow pps : Bool) (steplim : Nat) (lastStep : Int)
    (steps stepRef : Nat) (reqs : List StepReq) (units : Tab MatchUnit) (ptp : Ptp) :
    beatView { m with
      dt := { m.dt with incr, rem, mode, jump, follow, pps, steplim, lastStep, steps, stepRef, reqs, units, ptp } } = beatView m :=
  rfl

theorem beatView_foldl {α : Type} {g : Mach → α → Mach} (h : ∀ m x, beatView (g m x) = beatView m) (l : List α) (m : Mach) :
    beatView (l.foldl g m) = beatView m := by
  induction l generalizing m with
  | nil => rfl
  | cons a l ih => exact (ih (g m a)).trans (h m a)

theorem beatView_of_ctl {m m' : Mach} (h : sameButCtl m m') : beatView m' = beatView m := by rw [h]; rfl

/-- The parts of a fault keep it. -/
theorem faultFrame_beatView : FaultFrame fun m m' => beatView m' = beatView m where
  refl _ := rfl
  trans h k := k.trans h
  flt _ _ := rfl
  grants _ := rfl
  ctl := beatView_of_ctl
  snap m k w := by
    unfold snapTrigger
    split
    · dsimp only; split <;> simp
    · split <;> simp [capturePcs]
  falls m := by unfold setRole; dsimp only; split <;> rfl

@[simp] theorem beatView_raise (m : Mach) (src kind cls addr : Nat) : beatView (raise m src kind cls addr) = beatView m :=
  faultFrame_beatView.raise ..

@[simp] theorem beatView_endCond (m : Mach) (src kind : Nat) : beatView (endCond m src kind) = beatView m := faultFrame_beatView.endCond ..

@[simp] theorem beatView_event (m : Mach) (code g : Nat) (b : List Byte) (also : Option Nat) : beatView (event m code g b also) = beatView m :=
  beatView_of_ctl (sameButCtl_event ..)

/-- What the admission of a change set leaves keeps the view of `m`. -/
def CRes.keeps (m : Mach) : CRes → Prop
  | .refuse _ _ => True
  | .wait m' => beatView m' = beatView m
  | .commit m' _ => beatView m' = beatView m

@[simp] theorem CRes.keeps_refuse (m : Mach) (st : Nat) (r : Ref) : (CRes.refuse st r).keeps m := trivial
@[simp] theorem CRes.keeps_arg (m : Mach) : CRes.arg.keeps m := trivial
@[simp] theorem CRes.keeps_conflict (m : Mach) (k i : Nat) : (CRes.conflict k i).keeps m := trivial
@[simp] theorem CRes.keeps_wait (m m' : Mach) : (CRes.wait m').keeps m ↔ beatView m' = beatView m := Iff.rfl
@[simp] theorem CRes.keeps_commit (m m' : Mach) (items : List Item) : (CRes.commit m' items).keeps m ↔ beatView m' = beatView m := Iff.rfl
@[simp] theorem CRes.keeps_done (m m' : Mach) : (CRes.done m').keeps m ↔ beatView m' = beatView m := Iff.rfl

theorem CRes.keeps_ite {m : Mach} {p : Prop} [Decidable p] {a b : CRes} (ha : a.keeps m) (hb : b.keeps m) : (if p then a else b).keeps m := by
  split
  · exact ha
  · exact hb

theorem keeps_of_refuse {m : Mach} {st : Nat} {f : Ref} {r : CRes} (h : some (.refuse st f) = some r) : r.keeps m :=
  Option.some.inj h ▸ trivial

/-- A refusal, if there is one, else an answer. -/
theorem CRes.keeps_refusalOr {m : Mach} {o : Option CRes} {a : CRes} (ho : ∀ r, o = some r → r.keeps m) (ha : a.keeps m) :
    (match o with | some r => r | none => a).keeps m := by
  cases o with
  | some r => exact ho r rfl
  | none => exact ha

theorem keeps_of_beatView {m m' : Mach} {r : CRes} (h : beatView m' = beatView m) (hr : r.keeps m') : r.keeps m := by
  cases r with
  | refuse => trivial
  | wait => exact hr.trans h
  | commit => exact hr.trans h

/-! ### Responses and events (R404, R405) -/

@[simp] theorem beatView_setSes (m : Mach) (n : Nat) (f : Session → Session) : beatView (setSes m n f) = beatView m := rfl
@[simp] theorem beatView_setWin (m : Mach) (n : Nat) (f : Window → Window) : beatView (setWin m n f) = beatView m := rfl
@[simp] theorem beatView_fireVector (m : Mach) (port v : Nat) : beatView (fireVector m port v) = beatView m := rfl

@[simp] theorem beatView_signal (m : Mach) (n : Nat) : beatView (signal m n) = beatView m := by
  unfold signal
  split <;> simp

@[simp] theorem beatView_noteEntry (m : Mach) (n : Nat) (now : Bool) : beatView (noteEntry m n now) = beatView m := by
  unfold noteEntry
  dsimp only
  split <;> simp

@[simp] theorem beatView_putResps (m : Mach) (n : Nat) (hare : Bool) (rs : List Resp) : beatView (putResps m n hare rs) = beatView m := by
  induction rs generalizing m with
  | nil => rfl
  | cons r rs ih => simp [putResps, ih]

@[simp] theorem beatView_unreserve (m : Mach) (n k : Nat) : beatView (unreserve m n k) = beatView m := rfl

@[simp] theorem beatView_postFinal (m : Mach) (n opcode hseq status : Nat) (result : List Byte) (room : Nat) (hare : Bool) :
    beatView (postFinal m n opcode hseq status result room hare) = beatView m := by simp [postFinal]

@[simp] theorem beatView_putSalvo (m : Mach) (n off : Nat) (bs : List Byte) : beatView (putSalvo m n off bs) = beatView m := rfl

/-! ### Clock grants and messages over XL (R340, R461) -/

@[simp] theorem beatView_settleGrants (m : Mach) : beatView (settleGrants m) = beatView m := rfl
@[simp] theorem beatView_xlSend (m : Mach) (x : XlMsg) : beatView (xlSend m x) = beatView m := by
  unfold xlSend
  rfl

/-! ### ROLE and what falls with it (R458, R524) -/

@[simp] theorem beatView_pairEvt (m : Mach) (cause : Nat) : beatView (pairEvt m cause) = beatView m := by simp [pairEvt]

@[simp] theorem beatView_setRole (m : Mach) (r : Nat) : beatView (setRole m r) = beatView m := by
  unfold setRole
  dsimp only
  split <;> rfl

@[simp] theorem beatView_fallRole (m : Mach) : beatView (fallRole m) = beatView m := by
  unfold fallRole
  split
  · rw [beatView_pairEvt, beatView_setRole]
  · exact beatView_setRole ..

/-! ### The journal (R422, R469) -/

@[simp] theorem beatView_setEntry (m : Mach) (j : Nat) (f : JEntry → JEntry) : beatView (setEntry m j f) = beatView m := rfl

@[simp] theorem beatView_unprotect (m : Mach) : beatView (unprotect m) = beatView m := by
  unfold unprotect
  split
  · rfl
  · exact beatView_raise ..

@[simp] theorem beatView_postRoom (m : Mach) (e : JEntry) (rs : List Resp) (last : Bool) :
    beatView (postRoom m e rs last) = beatView m := by
  unfold postRoom
  dsimp only
  split_ifs <;> simp

@[simp] theorem beatView_cacheFinal (m : Mach) (n j : Nat) (rs : List Resp) : beatView (cacheFinal m n j rs) = beatView m := rfl
@[simp] theorem beatView_cacheOpen (m : Mach) (n hseq j : Nat) : beatView (cacheOpen m n hseq j) = beatView m := rfl
@[simp] theorem beatView_retire (m : Mach) : beatView (retire m) = beatView m := rfl

@[simp] theorem beatView_conclude (m : Mach) (j st status : Nat) (result : List Byte) (epoch : Nat) :
    beatView (conclude m j st status result epoch) = beatView m := by
  unfold conclude
  dsimp only
  repeat' split
  all_goals simp

@[simp] theorem beatView_commitRecord (m : Mach) (j : Nat) : beatView (commitRecord m j) = beatView m := by
  unfold commitRecord
  dsimp only
  repeat' split
  all_goals simp

@[simp] theorem beatView_recordReady (m : Mach) (p : Cmd → Bool) : beatView (recordReady m p) = beatView m := by
  unfold recordReady
  exact beatView_foldl (by simp) _ _

/-! ### The setters of planes, destinations and sources (R17, R35) -/

@[simp] theorem beatView_setPlane (m : Mach) (p : Nat) (f : Plane → Plane) : beatView (setPlane m p f) = beatView m := rfl
@[simp] theorem beatView_setDest (m : Mach) (d : Nat) (f : Dest → Dest) : beatView (setDest m d f) = beatView m := rfl
@[simp] theorem beatView_setAir (m : Mach) (d : Nat) (f : Air → Air) : beatView (setAir m d f) = beatView m := rfl
@[simp] theorem beatView_setCmp (m : Mach) (k : Nat) (f : Cmp → Cmp) : beatView (setCmp m k f) = beatView m := rfl
@[simp] theorem beatView_setSrc (m : Mach) (s : Nat) (f : Src → Src) : beatView (setSrc m s f) = beatView m := rfl
@[simp] theorem beatView_setPair (m : Mach) (s p : Nat) (f : SrcPlane → SrcPlane) : beatView (setPair m s p f) = beatView m := rfl
@[simp] theorem beatView_setSrcCnt (m : Mach) (s : Nat) (f : SrcCnt → SrcCnt) : beatView (setSrcCnt m s f) = beatView m := rfl

@[simp] theorem keeps_fbShort (m : Mach) (index : Nat) : (fbShort m index).keeps m := by
  unfold fbShort
  split <;> simp

theorem keeps_capStep (m : Mach) (hs : List Hold) (new : List (Nat × Hold)) : ∀ r ∈ capStep m hs new, r.keeps m := by
  induction new generalizing hs with
  | nil => simp [capStep]
  | cons x rest ih =>
    simp only [capStep]
    split_ifs
    · simp
    · rintro r ⟨⟩
      exact keeps_fbShort ..
    · exact ih _

@[simp] theorem beatView_assignFeeds (m : Mach) : beatView (assignFeeds m) = beatView m := by
  refine beatView_foldl (fun m x => ?_) _ m
  split
  · rfl
  · split <;> simp

@[simp] theorem beatView_dropFeeds (m : Mach) : beatView (dropFeeds m) = beatView m := rfl
@[simp] theorem beatView_pend (m : Mach) (ep p t : Nat) (e : Eff) : beatView (pend m ep p t e) = beatView m := rfl

@[simp] theorem beatView_pendAll (m : Mach) (ep : Nat) (e : Eff) : beatView (pendAll m ep e) = beatView m := by
  unfold pendAll
  exact beatView_foldl (by simp) _ _

@[simp] theorem beatView_report (m : Mach) (ep ses p t : Nat) (dests : List Nat) :
    beatView (report m ep ses p t dests) = beatView m := rfl

/-! ### Takes, banks, destinations and sources (R35 to R61) -/

theorem keeps_ownedTake (m : Mach) (me : Option Nat) (ts : List TakeRec) : ∀ r ∈ ownedTake m me ts, r.keeps m := by
  intro r hr
  obtain ⟨x, -, hx⟩ := List.exists_of_findSome?_eq_some hr
  dsimp only at hx
  split at hx
  · split at hx <;> cases hx
    trivial
  · cases hx

theorem keeps_lockedTake (m : Mach) (me : Option Nat) (ts : List TakeRec) : ∀ r ∈ lockedTake m me ts, r.keeps m := by
  intro r hr
  obtain ⟨x, -, hx⟩ := List.exists_of_findSome?_eq_some hr
  obtain ⟨s, -, rfl⟩ := Option.map_eq_some_iff.1 hx
  trivial

theorem keeps_mixLocked (m : Mach) (ts : List TakeRec) : ∀ r ∈ mixLocked m ts, r.keeps m := by
  intro r hr
  obtain ⟨x, -, hx⟩ := List.exists_of_findSome?_eq_some hr
  split at hx
  · obtain ⟨s, -, rfl⟩ := Option.map_eq_some_iff.1 hx
    trivial
  · cases hx

@[simp] theorem beatView_putTake (ep : Nat) (m : Mach) (t : TakeRec) : beatView (putTake ep m t) = beatView m := by
  unfold putTake
  split <;> simp

@[simp] theorem beatView_reports (m : Mach) (ep ses : Nat) (ds : List Nat) : beatView (reports m ep ses ds) = beatView m := by
  refine beatView_foldl (fun m p => ?_) _ m
  dsimp only
  split <;> simp

@[simp] theorem keeps_commitTakes (c : CCtx) (swapper : Option Nat) (ts : List TakeRec) (expected : Nat) (m : Mach) :
    (commitTakes c swapper ts expected m).keeps m := by
  unfold commitTakes
  split
  · simp
  split
  next r hr => exact keeps_ownedTake _ _ _ r hr
  split
  next r hr =>
    rcases Option.or_eq_some_iff.1 hr with h | ⟨-, h⟩
    · exact keeps_lockedTake _ _ _ r h
    · exact keeps_mixLocked _ _ r h
  split_ifs
  · simp
  dsimp only
  split
  next r hr => exact keeps_capStep _ _ _ r hr
  rw [CRes.keeps_commit, beatView_assignFeeds, beatView_reports, beatView_foldl (by simp)]

@[simp] theorem keeps_commitTake (c : CCtx) (rec expected : Nat) (m : Mach) :
    (commitTake c rec expected m).keeps m := by simp [commitTake]

@[simp] theorem keeps_commitSalvo (c : CCtx) (count rsvd expected : Nat) (m : Mach) :
    (commitSalvo c count rsvd expected m).keeps m := by
  unfold commitSalvo
  split <;> simp

@[simp] theorem beatView_setProt (m : Mach) (first count : Nat) (o : Option Nat) : beatView (setProt m first count o) = beatView m := by
  unfold setProt
  exact beatView_foldl (by simp) _ _

@[simp] theorem keeps_commitProtect (c : CCtx) (first count rel : Nat) (m : Mach) : (commitProtect c first count rel m).keeps m := by
  unfold commitProtect
  split
  · simp
  split
  · simp
  split <;> simp

@[simp] theorem keeps_commitForceRelease (first count : Nat) (m : Mach) : (commitForceRelease first count m).keeps m := by
  unfold commitForceRelease
  split
  · simp
  split <;> simp

@[simp] theorem beatView_abandonBanks (m : Mach) (ses : Nat) (p : Nat → Bool) : beatView (abandonBanks m ses p) = beatView m := by
  simp only [abandonBanks, beatView_recordReady]
  rw [beatView_foldl (by simp)]
  simp

theorem keeps_commitBankSwap_go (c : CCtx) (p : Nat) (m : Mach) (ts : List TakeRec) : (commitBankSwap.go c p m ts).keeps m := by
  have h := keeps_commitTakes c c.ses ts 0 m
  unfold commitBankSwap.go
  split
  next hc => rw [hc] at h; simpa using h
  next => exact h

@[simp] theorem keeps_commitBankSwap (c : CCtx) (p : Nat) (m : Mach) : (commitBankSwap c p m).keeps m := by
  unfold commitBankSwap
  split
  · simp
  split
  · simp
  split
  · split
    · exact keeps_commitBankSwap_go ..
    · simp
  · split
    · simp
    · exact keeps_commitBankSwap_go ..

@[simp] theorem keeps_commitPlaneCfg (p raster scan rate phLines phSamples : Nat) (m : Mach) :
    (commitPlaneCfg p raster scan rate phLines phSamples m).keeps m := by
  unfold commitPlaneCfg
  dsimp only
  repeat' split
  all_goals simp

@[simp] theorem keeps_commitPlaneSwitch (p line cutoff : Nat) (m : Mach) : (commitPlaneSwitch p line cutoff m).keeps m := by
  unfold commitPlaneSwitch
  split <;> simp

@[simp] theorem beatView_putBind (ep p : Nat) (m : Mach) (d : Nat) : beatView (putBind ep p m d) = beatView m := by
  unfold putBind
  dsimp only
  split <;> simp

@[simp] theorem keeps_commitDestBind (c : CCtx) (first count p : Nat) (m : Mach) : (commitDestBind c first count p m).keeps m := by
  unfold commitDestBind
  split
  · simp
  split
  · simp
  dsimp only
  split
  · simp
  split
  next r hr => exact keeps_capStep _ _ _ r hr
  rw [CRes.keeps_done, beatView_assignFeeds, beatView_report, beatView_foldl (by simp)]

@[simp] theorem keeps_commitDestAudio (c : CCtx) (first count mode : Nat) (m : Mach) : (commitDestAudio c first count mode m).keeps m := by
  unfold commitDestAudio
  split
  · simp
  split
  · simp
  rw [CRes.keeps_done, beatView_reports, beatView_foldl (by simp)]

@[simp] theorem keeps_commitGenCfg (c : CCtx) (g p pattern audio y cb cr : Nat) (m : Mach) :
    (commitGenCfg c g p pattern audio y cb cr m).keeps m := by
  unfold commitGenCfg
  dsimp only
  repeat' split
  all_goals simp

@[simp] theorem keeps_commitSrcMode (c : CCtx) (s mode flags hold : Nat) (m : Mach) : (commitSrcMode c s mode flags hold m).keeps m := by
  unfold commitSrcMode
  split
  · simp
  split
  · simp
  dsimp only
  split
  next r hr =>
    split at hr
    · refine keeps_of_beatView ?_ (keeps_capStep _ _ _ r hr)
      split <;> simp
    · cases hr
  · simp

@[simp] theorem keeps_commitSrcWarm (c : CCtx) (s on : Nat) (m : Mach) : (commitSrcWarm c s on m).keeps m := by
  unfold commitSrcWarm
  dsimp only
  split_ifs <;> simp

@[simp] theorem beatView_setGroup (g : List Nat) (m : Mach) (s : Nat) : beatView (setGroup g m s) = beatView m := rfl

@[simp] theorem keeps_commitSrcGroup (c : CCtx) (size a b d e : Nat) (m : Mach) : (commitSrcGroup c size a b d e m).keeps m := by
  unfold commitSrcGroup
  split
  · dsimp only
    split
    · simp
    · rw [CRes.keeps_done, beatView_pendAll, beatView_foldl (by simp), beatView_foldl (by simp)]
  · refine CRes.keeps_ite (by simp) ?_
    rw [CRes.keeps_done, beatView_pendAll, beatView_foldl (by simp)]

@[simp] theorem keeps_commitSrcWindow (c : CCtx) (s w qc : Nat) (m : Mach) : (commitSrcWindow c s w qc m).keeps m := by
  unfold commitSrcWindow
  split <;> simp

/-! ### Audio (R115 to R136) -/

@[simp] theorem beatView_setGrp (m : Mach) (g : Nat) (f : AGroup → AGroup) : beatView (setGrp m g f) = beatView m := rfl
@[simp] theorem beatView_setAdest (m : Mach) (d : Nat) (f : ADest → ADest) : beatView (setAdest m d f) = beatView m := rfl
@[simp] theorem beatView_putTimed (m : Mach) (t : Timed) : beatView (putTimed m t) = beatView m := rfl

@[simp] theorem beatView_fadeGroup (m : Mach) (ep ses d s len start : Nat) :
    beatView (fadeGroup m ep ses d s len start) = beatView m := by
  unfold fadeGroup
  exact beatView_foldl (by simp) _ _

@[simp] theorem beatView_rewriteGroup (m : Mach) (ep d start : Nat) : beatView (rewriteGroup m ep d start) = beatView m := by
  unfold rewriteGroup
  dsimp only
  split <;> simp

@[simp] theorem beatView_anchorTimed (m : Mach) (p k : Nat) : beatView (anchorTimed m p k) = beatView m := rfl

@[simp] theorem keeps_cyclesShort (m : Mach) (index : Nat) : (cyclesShort m index).keeps m := by simp [cyclesShort]

@[simp] theorem keeps_poolShort (m : Mach) : (poolShort m).keeps m := by simp [poolShort]

@[simp] theorem keeps_commitAudMix (c : CCtx) (count ramp anchor : Nat) (m : Mach) : (commitAudMix c count ramp anchor m).keeps m := by
  unfold commitAudMix
  dsimp only
  split
  · simp
  split
  · simp
  split
  · simp
  rw [CRes.keeps_done, beatView_foldl (by simp)]

@[simp] theorem keeps_commitAudGroup (s mode : Nat) (m : Mach) : (commitAudGroup s mode m).keeps m := by
  unfold commitAudGroup
  dsimp only
  split_ifs <;> simp

@[simp] theorem keeps_commitAudOffset (c : CCtx) (d us : Nat) (m : Mach) : (commitAudOffset c d us m).keeps m := by
  unfold commitAudOffset
  split
  · simp
  split <;> simp

@[simp] theorem keeps_commitAudHistory (first count len : Nat) (m : Mach) : (commitAudHistory first count len m).keeps m := by
  unfold commitAudHistory
  dsimp only
  repeat' split
  all_goals simp

@[simp] theorem keeps_commitAudMeter (first count op : Nat) (m : Mach) : (commitAudMeter first count op m).keeps m := by
  unfold commitAudMeter
  dsimp only
  split_ifs <;> simp

@[simp] theorem beatView_abandonMixes (m : Mach) (ses : Nat) (p : Nat → Bool) :
    beatView (abandonMixes m ses p) = beatView m := by simp [abandonMixes]

@[simp] theorem keeps_commitAudBankSwap (c : CCtx) (mask_ : Nat) (m : Mach) : (commitAudBankSwap c mask_ m).keeps m := by
  unfold commitAudBankSwap
  dsimp only
  repeat' split
  all_goals simp

@[simp] theorem keeps_commitAudRate (c : CCtx) (rate : Nat) (m : Mach) : (commitAudRate c rate m).keeps m := by
  unfold commitAudRate
  dsimp only
  repeat' split
  all_goals simp

/-! ### Audio ports (R150) -/

@[simp] theorem beatView_setApt (m : Mach) (n : Nat) (f : Apt → Apt) : beatView (setApt m n f) = beatView m := rfl
@[simp] theorem beatView_setAptCnt (m : Mach) (n : Nat) (f : AptCnt → AptCnt) : beatView (setAptCnt m n f) = beatView m := rfl

@[simp] theorem beatView_rateEvent (m : Mach) (n : Nat) : beatView (rateEvent m n) = beatView m := by simp [rateEvent]

@[simp] theorem beatView_enter (m : Mach) (n st : Nat) : beatView (enter m n st) = beatView m := by
  unfold enter
  split <;> simp

@[simp] theorem beatView_startDown (m : Mach) (n : Nat) : beatView (startDown m n) = beatView m := rfl

@[simp] theorem beatView_clockLost (m : Mach) (n : Nat) : beatView (clockLost m n) = beatView m := by simp [clockLost]

@[simp] theorem beatView_disablePort (m : Mach) (n : Nat) (c : AptCfg) :
    beatView (disablePort m n c) = beatView m := by simp [disablePort]

@[simp] theorem keeps_commitAptCfg (n format s w m_ flags nout inLat outLat : Nat) (m : Mach) :
    (commitAptCfg n format s w m_ flags nout inLat outLat m).keeps m := by
  unfold commitAptCfg
  dsimp only
  split_ifs <;> simp

@[simp] theorem keeps_commitAptRing (n len : Nat) (m : Mach) : (commitAptRing n len m).keeps m := by
  unfold commitAptRing
  dsimp only
  split_ifs <;> simp

/-! ### Ethernet ports (R171 to R183) -/

@[simp] theorem beatView_setMac (m : Mach) (k : Nat) (f : Mac → Mac) : beatView (setMac m k f) = beatView m := rfl
@[simp] theorem beatView_setLane (m : Mach) (k : Nat) (f : Lane → Lane) : beatView (setLane m k f) = beatView m := rfl

@[simp] theorem beatView_linkEvent (m : Mach) (k : Nat) : beatView (linkEvent m k) = beatView m := by simp [linkEvent]

@[simp] theorem beatView_setLink (k : Nat) (up : Bool) (m : Mach) : beatView (setLink k up m) = beatView m := by
  unfold setLink
  dsimp only
  split_ifs <;> simp

@[simp] theorem beatView_stopMac (k : Nat) (m : Mach) : beatView (stopMac k m) = beatView m := by simp [stopMac]

@[simp] theorem beatView_dropMac (old new k : Nat) (m : Mach) : beatView (dropMac old new k m) = beatView m := by
  unfold dropMac
  dsimp only
  split_ifs <;> simp

@[simp] theorem beatView_newSplit (port mode : Nat) (m : Mach) : beatView (newSplit port mode m) = beatView m := by
  rw [newSplit, beatView_blocks, beatView_foldl (by simp)]

@[simp] theorem keeps_commitEthPortSplit (port mode : Nat) (m : Mach) : (commitEthPortSplit port mode m).keeps m := by
  unfold commitEthPortSplit
  dsimp only
  repeat' split
  all_goals simp

@[simp] theorem keeps_commitEthMacCfg (k addr maxFrame : Nat) (m : Mach) : (commitEthMacCfg k addr maxFrame m).keeps m := by
  unfold commitEthMacCfg
  split <;> simp

@[simp] theorem keeps_overDen (m : Mach) : (overDen m).keeps m := by
  unfold overDen
  dsimp only
  split <;> simp

@[simp] theorem keeps_commitWakePattern (w on k check mask_ : Nat) (m : Mach) : (commitWakePattern w on k check mask_ m).keeps m := by
  unfold commitWakePattern
  dsimp only
  split_ifs <;> simp

@[simp] theorem beatView_queueFrame (m : Mach) (k : Nat) (ctx : Option Nat) (seq : Nat) (frame : List Byte) (speak : Bool) :
    beatView (queueFrame m k ctx seq frame speak) = beatView m := rfl

/-! ### Flows (R190 to R218) -/

@[simp] theorem beatView_setCtx (m : Mach) (c : Nat) (f : Ctx → Ctx) : beatView (setCtx m c f) = beatView m := rfl
@[simp] theorem beatView_setIngress (m : Mach) (p : Nat) (f : Ingress → Ingress) : beatView (setIngress m p f) = beatView m := rfl

theorem keeps_rxConflict (m : Mach) (c : Nat) (d : Desc) : ∀ r ∈ rxConflict m c d, ∀ m₀, r.keeps m₀ := by
  intro r hr m₀
  unfold rxConflict at hr
  dsimp only at hr
  split at hr
  · cases hr; trivial
  split at hr
  · cases hr
  split at hr
  · cases hr; trivial
  split at hr
  · split at hr <;> cases hr
    trivial
  · cases hr

/-- `rateLimit` is made a variable first: a product with a large factor, it would otherwise be computed in unary. -/
theorem keeps_flowShort {m m' : Mach} {r : CRes} (h : flowShort m m' = some r) (m₀ : Mach) : r.keeps m₀ := by
  obtain ⟨limit, hlimit⟩ : ∃ f, f = rateLimit := ⟨_, rfl⟩
  rw [(by delta flowShort; exact rfl : flowShort = _), ← hlimit] at h
  extract_lets overRate free at h
  split at h
  · exact keeps_of_refuse h
  · split at h
    · exact keeps_of_refuse h
    · split at h
      · exact keeps_of_refuse h
      · split_ifs at h
        · exact keeps_of_refuse h
        · exact keeps_of_refuse h

@[simp] theorem beatView_sendArp (k : Nat) (tci : Option Nat) (dst op tha : Nat) (tpa : List Byte) (m : Mach) :
    beatView (sendArp k tci dst op tha tpa m) = beatView m := by
  unfold sendArp
  split <;> simp

@[simp] theorem beatView_sendIcmp6 (k : Nat) (tci : Option Nat) (edst : Nat) (src dst : List Byte) (msg : List Byte) (m : Mach) :
    beatView (sendIcmp6 k tci edst src dst msg m) = beatView m := by
  unfold sendIcmp6
  split <;> simp

@[simp] theorem beatView_askHops (k : Nat) (cs : List Nat) (m : Mach) : beatView (askHops k cs m) = beatView m := by
  unfold askHops
  split
  · rfl
  · refine beatView_foldl (fun m h => ?_) _ m
    split_ifs <;> simp

@[simp] theorem beatView_settleHops (before : Mach) (k : Nat) (m : Mach) : beatView (settleHops before k m) = beatView m := by
  have hasked (new : List Nat) : beatView (askHops k new (new.foldl (fun m c => raise m (0xC30 + k) 0x31 1 c) m)) = beatView m := by
    rw [beatView_askHops, beatView_foldl (by simp)]
  unfold settleHops
  dsimp only
  split
  · rw [beatView_endCond, hasked]
  · exact hasked _

@[simp] theorem beatView_sendReport (m : Mach) (x : Member) (recs : List (Nat × List (List Byte))) :
    beatView (sendReport m x recs) = beatView m := by
  unfold sendReport
  dsimp only
  split_ifs <;> simp

@[simp] theorem beatView_changeMember (m : Mach) (d : Desc) (f : List (Nat × Option (List Byte)) → List (Nat × Option (List Byte))) :
    beatView (changeMember m d f) = beatView m := by simp [changeMember]

@[simp] theorem beatView_joinCtx (m : Mach) (c : Nat) : beatView (joinCtx m c) = beatView m := by
  unfold joinCtx
  dsimp only
  split <;> simp

@[simp] theorem beatView_leaveCtx (m : Mach) (c : Nat) : beatView (leaveCtx m c) = beatView m := by
  unfold leaveCtx
  dsimp only
  split <;> simp

@[simp] theorem beatView_enableOne (m : Mach) (c : Nat) : beatView (enableOne m c) = beatView m := by
  unfold enableOne
  dsimp only
  split_ifs <;> simp

@[simp] theorem beatView_disableOne (m : Mach) (c : Nat) : beatView (disableOne m c) = beatView m := by
  unfold disableOne
  dsimp only
  split_ifs <;> simp

@[simp] theorem keeps_enableCtx (before m : Mach) (c : Nat) : (enableCtx before m c).keeps m :=
  CRes.keeps_ite trivial (CRes.keeps_refusalOr (fun _ h => keeps_flowShort h m) (beatView_foldl (by simp) _ m))

@[simp] theorem keeps_commitFlowDefine (cc : CCtx) (c op : Nat) (m : Mach) : (commitFlowDefine cc c op m).keeps m := by
  unfold commitFlowDefine
  refine CRes.keeps_ite trivial (CRes.keeps_ite (CRes.keeps_ite trivial (CRes.keeps_ite trivial (CRes.keeps_refusalOr (fun r h => ?_)
    (CRes.keeps_ite rfl (keeps_of_beatView rfl (keeps_enableCtx ..)))))) (CRes.keeps_ite trivial (CRes.keeps_ite
      (CRes.keeps_ite rfl (keeps_enableCtx ..)) ?_)))
  · split at h
    · exact keeps_rxConflict _ _ _ r h m
    · cases h
  · split
    · trivial
    · refine CRes.keeps_ite (beatView_foldl (by simp) _ m) ?_
      split <;> simp

@[simp] theorem keeps_commitFlowIf (c : CCtx) (k : Nat) (m : Mach) : (commitFlowIf c k m).keeps m := by
  refine CRes.keeps_ite trivial ?_
  rw [CRes.keeps_commit, beatView_settleHops, beatView_blocks]

@[simp] theorem keeps_commitFlowOffset (c auto off : Nat) (m : Mach) : (commitFlowOffset c auto off m).keeps m :=
  CRes.keeps_ite trivial (CRes.keeps_refusalOr (fun _ h => keeps_flowShort h m) (beatView_setCtx ..))

@[simp] theorem beatView_release (keep : Bool) (m : Mach) (c : Nat) : beatView (release keep m c) = beatView m := by
  unfold release
  split
  · simp
  · rw [beatView_foldl (by simp)]
    simp

@[simp] theorem keeps_commitFlowPort (cc : CCtx) (c p flags : Nat) (m : Mach) : (commitFlowPort cc c p flags m).keeps m := by
  obtain ⟨short, hshort⟩ : ∃ f, f = flowShort := ⟨_, rfl⟩
  unfold commitFlowPort
  rw [← hshort]
  extract_lets +onlyGivenNames x port
  refine CRes.keeps_ite trivial ?_
  extract_lets +onlyGivenNames keep dropWaiting
  have hdrop (m' : Mach) : beatView (dropWaiting m') = beatView m' := by
    unfold dropWaiting
    split
    · split
      · split <;> simp
      · rfl
    · rfl
  clear_value dropWaiting
  refine CRes.keeps_ite ?_ (CRes.keeps_ite trivial (CRes.keeps_ite trivial (CRes.keeps_ite rfl ?_)))
  · split <;> simp [hdrop]
  · extract_lets +onlyGivenNames audio
    clear_value audio
    cases audio with
    | some k => trivial
    | none =>
      refine CRes.keeps_refusalOr (fun _ h => keeps_flowShort (hshort ▸ h) m) ?_
      have hall : beatView ((pairOf m c).foldl enableOne m) = beatView m := beatView_foldl (by simp) _ m
      extract_lets +onlyGivenNames m'
      split
      · simp [hdrop, m', hall]
      · refine CRes.keeps_ite ?_ ?_ <;> simp [hdrop, m', hall]

@[simp] theorem beatView_flowSwitch (m : Mach) (p k : Nat) : beatView (flowSwitch m p k) = beatView m := by
  unfold flowSwitch
  exact beatView_foldl (by simp) _ _

/-! ### Compositors (R225 to R240) -/

@[simp] theorem keeps_admitRates (f0 f : Fmt) (old : Layout) (recs : List (Nat × Option Win)) (l : Layout) (r : CRes)
    (h : admitRates f0 f old recs l = .inr r) (m : Mach) : r.keeps m := by
  unfold admitRates at h
  split at h
  · cases h; trivial
  split at h
  · cases h
  · cases h; trivial

@[simp] theorem beatView_putLayout (m : Mach) (k : Nat) (l : Layout) : beatView (putLayout m k l) = beatView m := rfl

@[simp] theorem keeps_commitCmpLayout (c : CCtx) (k count : Nat) (m : Mach) : (commitCmpLayout c k count m).keeps m := by
  unfold commitCmpLayout
  refine CRes.keeps_ite trivial ?_
  extract_lets
  split
  · trivial
  · extract_lets
    split
    next r hr => exact keeps_admitRates _ _ _ _ _ r hr m
    next => exact CRes.keeps_refusalOr (keeps_capStep _ _ _) rfl

@[simp] theorem keeps_commitCmpGuard (c : CCtx) (k count : Nat) (m : Mach) : (commitCmpGuard c k count m).keeps m := by
  unfold commitCmpGuard
  dsimp only
  repeat' split
  all_goals simp

theorem keeps_bindConflict (m : Mach) (k : Nat) : ∀ r ∈ bindConflict m k, ∀ m₀, r.keeps m₀ := by
  intro r hr m₀
  unfold bindConflict at hr
  split at hr
  · cases hr; trivial
  split at hr
  · cases hr; trivial
  obtain ⟨w, -, rfl⟩ := Option.map_eq_some_iff.1 hr
  trivial

@[simp] theorem keeps_commitCmpBind (k p dither audwin back : Nat) (m : Mach) : (commitCmpBind k p dither audwin back m).keeps m := by
  unfold commitCmpBind
  refine CRes.keeps_ite trivial (CRes.keeps_ite trivial (CRes.keeps_ite rfl ?_))
  split
  next r hr => exact keeps_bindConflict _ _ r hr m
  split
  · trivial
  · split
    next r hr => exact keeps_admitRates _ _ _ _ _ r hr m
    next => exact CRes.keeps_refusalOr (keeps_capStep _ _ _) rfl

@[simp] theorem keeps_commitCmpFreeze (k w op : Nat) (m : Mach) : (commitCmpFreeze k w op m).keeps m := by
  unfold commitCmpFreeze
  dsimp only
  split
  · simp
  split
  · simp
  split
  · simp
  split
  · split
    · split <;> simp
    · simp
  split
  next r hr => exact keeps_capStep _ _ _ r hr
  simp

@[simp] theorem keeps_commitCmpCoef (c : CCtx) (k s : Nat) (m : Mach) : (commitCmpCoef c k s m).keeps m := by
  unfold commitCmpCoef
  dsimp only
  split <;> simp

/-! ### Snapshots and faults (R521, R527) -/

@[simp] theorem keeps_commitFltCfg (escn esct fnclass budget : Nat) (m : Mach) : (commitFltCfg escn esct fnclass budget m).keeps m := by
  unfold commitFltCfg
  split <;> simp

@[simp] theorem keeps_commitSnpCfg (enables sclass src kind div msec mns period : Nat) (m : Mach) :
    (commitSnpCfg enables sclass src kind div msec mns period m).keeps m := by
  unfold commitSnpCfg
  split
  · simp
  split
  · simp
  · rfl

/-! ### Timing (R314 to R345) -/

@[simp] theorem beatView_dpll (m : Mach) (f : Dpll → Dpll) : beatView (dpll m f) = beatView m := rfl
@[simp] theorem beatView_setApll (m : Mach) (a : Nat) (f : Apll → Apll) : beatView (setApll m a f) = beatView m := rfl
@[simp] theorem beatView_setOut (m : Mach) (k : Nat) (f : ClkOut → ClkOut) : beatView (setOut m k f) = beatView m := rfl
@[simp] theorem keeps_queueTiming (m : Mach) (x : Cmd) (data : List Byte) : (queueTiming m x data).keeps m := rfl

@[simp] theorem keeps_commitTmgRefCfg (cd kind prio flags num den wtr soft hard slope lossn : Nat) (delay : Int) (m : Mach) :
    (commitTmgRefCfg cd kind prio flags num den wtr soft hard slope lossn delay m).keeps m := by
  unfold commitTmgRefCfg
  dsimp only
  split <;> simp

@[simp] theorem keeps_commitTmgLrefBind (l lane id : Nat) (m : Mach) : (commitTmgLrefBind l lane id m).keeps m := by
  unfold commitTmgLrefBind
  split <;> simp

@[simp] theorem keeps_commitTmgSelCfg (mode forced flags holdql freeql : Nat) (m : Mach) :
    (commitTmgSelCfg mode forced flags holdql freeql m).keeps m := by
  unfold commitTmgSelCfg
  split <;> simp

@[simp] theorem keeps_commitTmgClassMap (c : CCtx) (off : Nat) (m : Mach) : (commitTmgClassMap c off m).keeps m := by
  unfold commitTmgClassMap
  split <;> simp

@[simp] theorem keeps_commitTmgLoopCfg (track acq tt w n alslew guard hwin learn : Nat) (m : Mach) :
    (commitTmgLoopCfg track acq tt w n alslew guard hwin learn m).keeps m := by
  unfold commitTmgLoopCfg
  split <;> simp

@[simp] theorem keeps_commitTmgApllCfg (a mint mnum mden : Nat) (m : Mach) : (commitTmgApllCfg a mint mnum mden m).keeps m := by
  unfold commitTmgApllCfg
  dsimp only
  repeat' split
  all_goals simp

@[simp] theorem keeps_commitTmgClkoutCfg (k src a level d plane flags width : Nat) (outdly : Int) (m : Mach) :
    (commitTmgClkoutCfg k src a level d plane flags width outdly m).keeps m := by
  unfold commitTmgClkoutCfg
  dsimp only
  split_ifs <;> simp

@[simp] theorem keeps_commitTmgWclkCfg (k op a level : Nat) (outdly : Int) (m : Mach) : (commitTmgWclkCfg k op a level outdly m).keeps m := by
  unfold commitTmgWclkCfg
  split_ifs <;> simp

/-! ### Device time (R353 to R360) -/

@[simp] theorem beatView_askStep (m : Mach) (delta : Int) (who : Option (Nat × Nat)) (jseq : Nat) :
    beatView (askStep m delta who jseq) = beatView m := rfl

@[simp] theorem beatView_requestStep (m : Mach) (sec ns : Int) (flags : Nat) (who : Nat × Nat) (jseq : Nat) :
    beatView (requestStep m sec ns flags who jseq) = beatView m := by
  unfold requestStep
  split <;> simp

@[simp] theorem keeps_commitDtCfg (mode steplim : Nat) (m : Mach) : (commitDtCfg mode steplim m).keeps m := by
  unfold commitDtCfg
  split <;> simp

@[simp] theorem keeps_commitDtPinCfg (mode : Nat) (m : Mach) : (commitDtPinCfg mode m).keeps m := by
  unfold commitDtPinCfg
  split_ifs <;> simp

/-! ### PTP (R361 to R363) -/

@[simp] theorem beatView_setPtp (m : Mach) (f : Ptp → Ptp) : beatView (setPtp m f) = beatView m := rfl
@[simp] theorem beatView_setPport (m : Mach) (p : Nat) (f : PtpPort → PtpPort) : beatView (setPport m p f) = beatView m := rfl

@[simp] theorem beatView_servoPort (before m : Mach) : beatView (servoPort before m) = beatView m := by
  unfold servoPort
  dsimp only
  split
  · simp
  · simp
  · split <;> simp

@[simp] theorem beatView_bmca (now : Nat → Bool) (m : Mach) : beatView (bmca now m) = beatView m := by
  unfold bmca
  rw [beatView_servoPort, beatView_foldl (by simp)]

@[simp] theorem keeps_commitPtpCfg (domain prio1 prio2 timesrc utc flags ident classOut : Nat) (m : Mach) :
    (commitPtpCfg domain prio1 prio2 timesrc utc flags ident classOut m).keeps m := by
  unfold commitPtpCfg
  split <;> simp

@[simp] theorem keeps_commitPtpPortCfg (p k flags : Nat) (logSync logAnn : Int) (annTimeout : Nat) (logDelay rxdly txdly asym : Int) (m : Mach) :
    (commitPtpPortCfg p k flags logSync logAnn annTimeout logDelay rxdly txdly asym m).keeps m := by
  unfold commitPtpPortCfg
  dsimp only
  split_ifs <;> simp

@[simp] theorem keeps_commitPtpServoCfg (sbw stepThr slew : Nat) (m : Mach) : (commitPtpServoCfg sbw stepThr slew m).keeps m := by
  unfold commitPtpServoCfg
  split <;> simp

@[simp] theorem beatView_ptpResume (m : Mach) : beatView (ptpResume m) = beatView m := by simp [ptpResume]

/-! ### Wake events (R499 to R505) -/

@[simp] theorem beatView_powerEvt (m : Mach) (cause : Nat) : beatView (powerEvt m cause) = beatView m := by simp [powerEvt]

@[simp] theorem beatView_beginWake (m : Mach) (cause : Nat) : beatView (beginWake m cause) = beatView m := by
  unfold beginWake
  exact (beatView_powerEvt ..).trans rfl

@[simp] theorem beatView_wakeEvent (cause : Nat) (m : Mach) : beatView (wakeEvent cause m) = beatView m := by
  unfold wakeEvent
  dsimp only
  repeat' split
  all_goals simp

/-! ### Speaking for the pair (R206) -/

@[simp] theorem beatView_announce (m : Mach) : beatView (announce m) = beatView m := by
  unfold announce
  rw [beatView_foldl fun m x => ?_, beatView_foldl fun m k => ?_]
  · rw [beatView_foldl (by simp)]
    split <;> simp
  · split <;> simp

/-! ### Lane tests -/

@[simp] theorem beatView_endScan (m : Mach) (s : Scan) (status measured : Nat) (counts : List Nat) :
    beatView (endScan m s status measured counts) = beatView m := by
  unfold endScan
  dsimp only
  split <;> simp

@[simp] theorem beatView_cutScan (m : Mach) (s : Scan) (status : Nat) :
    beatView (cutScan m s status) = beatView m := by simp [cutScan]

@[simp] theorem beatView_cutScans (m : Mach) (status : Nat) (p : Scan → Bool) : beatView (cutScans m status p) = beatView m := by
  unfold cutScans
  exact beatView_foldl (by simp) _ _

@[simp] theorem beatView_endLoop (k : Nat) (m : Mach) : beatView (endLoop k m) = beatView m := by
  unfold endLoop
  split <;> simp

@[simp] theorem beatView_endTests (m : Mach) : beatView (endTests m) = beatView m := by
  have hloops : beatView ((List.range 224).foldl (fun m k => endLoop k m) (cutScans m 2 fun _ => true)) = beatView m := by
    rw [beatView_foldl (by simp), beatView_cutScans]
  exact (beatView_blocks ..).trans hloops

/-! ### Memory stacks (R373, R389) -/

@[simp] theorem beatView_setPc (m : Mach) (n : Nat) (f : Pc → Pc) : beatView (setPc m n f) = beatView m := rfl

@[simp] theorem keeps_commitMemPortCfg (p budget : Nat) (m : Mach) : (commitMemPortCfg p budget m).keeps m := by
  unfold commitMemPortCfg
  dsimp only
  repeat' split
  all_goals simp

/-! ### The service port (R535) -/

@[simp] theorem beatView_dropXfer (m : Mach) : beatView (dropXfer m) = beatView m := by
  unfold dropXfer
  split <;> simp

@[simp] theorem beatView_setService (on : Bool) (m : Mach) : beatView (setService on m) = beatView m := by
  unfold setService
  split <;> simp

@[simp] theorem keeps_commitUpdSvcCfg (on : Nat) (m : Mach) : (commitUpdSvcCfg on m).keeps m := by
  unfold commitUpdSvcCfg
  split <;> simp

end Sys2Proof.Machine

/-! SUPPORT. A heartbeat may end a loss or declare one, and so claim, replay a journal, or end a changeover: all of it keeps what a
heartbeat leaves. -/
namespace Sys2Proof.Machine
open Sys2Proof.Safety

theorem beatView_foldl_fst {α β : Type} {g : Mach × β → α → Mach × β} (h : ∀ y x, beatView (g y x).1 = beatView y.1) (l : List α)
    (y : Mach × β) : beatView (l.foldl g y).1 = beatView y.1 := by
  induction l generalizing y with
  | nil => rfl
  | cons a l ih => exact (ih (g y a)).trans (h y a)

/-! ### Switch points (R53) -/

@[simp] theorem beatView_applyRoute (m : Mach) (e : Pend) : beatView (applyRoute m e) = beatView m := by
  have h := onlyAir_applyRoute m e
  unfold onlyAir at h
  rw [h, beatView_blocks]

@[simp] theorem beatView_syncBack (m : Mach) (s p : Nat) : beatView (syncBack m s p) = beatView m := by
  unfold syncBack
  dsimp only
  split_ifs <;> simp

@[simp] theorem beatView_keepBufs (s p : Nat) (f : Mach → Mach) (m : Mach) (hf : ∀ m, beatView (f m) = beatView m) :
    beatView (keepBufs s p f m) = beatView m := by
  unfold keepBufs
  dsimp only
  split
  · exact (beatView_blocks ..).trans (hf m)
  · exact hf m

@[simp] theorem beatView_applySource (m : Mach) (e : Pend) : beatView (applySource m e) = beatView m := by
  unfold applySource
  split
  · split
    · rfl
    · dsimp only
      split <;> simp
  · dsimp only
    split
    · rw [beatView_syncBack, beatView_keepBufs _ _ _ _ (by simp)]
    · exact beatView_keepBufs _ _ _ _ (by simp)
  · split
    · rfl
    · exact beatView_keepBufs _ _ _ _ (by simp)
  · exact beatView_foldl (by simp) _ m
  · exact beatView_setPair ..
  · rfl

@[simp] theorem beatView_changeClass (m : Mach) (s p c : Nat) : beatView (changeClass m s p c) = beatView m := by
  unfold changeClass
  dsimp only
  repeat' split
  all_goals simp

@[simp] theorem beatView_classesAt (m : Mach) (p k : Nat) : beatView (classesAt m p k).1 = beatView m := by
  refine beatView_foldl_fst (fun a y => ?_) _ (m, [])
  dsimp only
  split
  · rfl
  · split
    · rfl
    · split <;> simp

@[simp] theorem beatView_noteMismatch (was : Nat → Bool) (m : Mach) (d : Nat) : beatView (noteMismatch was m d) = beatView m := by
  unfold noteMismatch
  split_ifs <;> simp

@[simp] theorem beatView_fadeTake (m : Mach) (d : Nat) (ses : Nat) : beatView (fadeTake m d ses) = beatView m := by
  unfold fadeTake
  dsimp only
  repeat' split
  all_goals simp

@[simp] theorem beatView_coldSwitch (m : Mach) (d : Nat) : beatView (coldSwitch m d).1 = beatView m := by
  unfold coldSwitch
  dsimp only
  split <;> simp

@[simp] theorem beatView_warmUp (m : Mach) (d : Nat) : beatView (warmUp m d) = beatView m := by
  unfold warmUp
  dsimp only
  split <;> simp

@[simp] theorem beatView_returnRoutes (m : Mach) (p k : Nat) : beatView (returnRoutes m p k) = beatView m := rfl
@[simp] theorem beatView_reportAir (m : Mach) (p k cold : Nat) : beatView (reportAir m p k cold) = beatView m := rfl
@[simp] theorem beatView_flipBank (m0 : Mach) (p : Nat) (m : Mach) : beatView (flipBank m0 p m) = beatView m := rfl

@[simp] theorem beatView_swapPlane (p k : Nat) (m : Mach) : beatView (swapPlane p k m) = beatView m := by
  have hclasses := beatView_classesAt m p k
  unfold swapPlane
  extract_lets m₀ es
  generalize classesAt m p k = x at hclasses ⊢
  obtain ⟨m₁, changed⟩ := x
  dsimp -zeta only at hclasses ⊢
  extract_lets m₂ _ m₃ moved m₄ turned vd ad m₆ mine m₇ m₈ m₉ m₁₀ m₁₁
  have h₂ : beatView m₂ = beatView m := by
    rw [beatView_foldl (by simp), beatView_foldl (by simp), hclasses]
  have h₄ : beatView m₄ = beatView m₃ := beatView_foldl (by simp) _ _
  have h₅ := beatView_foldl_fst (g := fun (a : Mach × Nat) d => ((coldSwitch a.1 d).1, a.2 + b2n (coldSwitch a.1 d).2)) (by simp) vd (m₄, 0)
  have h₆ : beatView m₆ = _ := beatView_foldl (by simp) _ _
  have h₇ : beatView m₇ = beatView m₆ := beatView_foldl (by simp) _ _
  have h₈ : beatView m₈ = beatView m₇ := beatView_foldl (by simp) _ _
  have h₉ : beatView m₉ = beatView m₈ := beatView_foldl (by simp) _ _
  have h₁₁ : beatView m₁₁ = beatView m₉ := by simp [m₁₁, m₁₀]
  have h : beatView m₁₁ = beatView m :=
    h₁₁.trans (h₉.trans (h₈.trans (h₇.trans (h₆.trans (h₅.trans (h₄.trans ((beatView_blocks ..).trans h₂)))))))
  split
  · exact h
  · exact (beatView_flipBank ..).trans h

/-! ### Sessions (R413 to R419) -/

@[simp] theorem beatView_sessionEvt (m : Mach) (n what : Nat) : beatView (sessionEvt m n what) = beatView m := by simp [sessionEvt]

@[simp] theorem beatView_startLease (m : Mach) (n : Nat) : beatView (startLease m n) = beatView m := by
  unfold startLease
  split <;> simp

@[simp] theorem keeps_overCp (m : Mach) (n : Nat) : (overCp m n).keeps m := by simp [overCp]

@[simp] theorem beatView_irqDelay (n : Nat) (m : Mach) : beatView (irqDelay n m) = beatView m := by
  unfold irqDelay
  dsimp only
  split <;> simp

@[simp] theorem keeps_commitSessionOpen (c : CCtx) (name lease sub irqCount irqDelay : Nat) (m : Mach) :
    (commitSessionOpen c name lease sub irqCount irqDelay m).keeps m := by
  unfold commitSessionOpen
  dsimp only
  repeat' split
  all_goals simp

@[simp] theorem beatView_endGrant (m : Mach) (n : Nat) : beatView (endGrant m n) = beatView m := by
  unfold endGrant
  split <;> simp

@[simp] theorem beatView_closeSession (m : Mach) (n what : Nat) : beatView (closeSession m n what) = beatView m := by
  unfold closeSession
  extract_lets unown m₁ m₂ m₃
  have h₁ : beatView m₁ = beatView m := by simp [m₁]
  have h₃ : beatView m₃ = beatView m := (beatView_foldl (by simp) _ _).trans ((beatView_cutScans ..).trans h₁)
  clear_value m₃
  rw [← h₃]
  exact (beatView_sessionEvt ..).trans rfl

@[simp] theorem keeps_commitSessionClose (c : CCtx) (target : Nat) (m : Mach) : (commitSessionClose c target m).keeps m := by
  unfold commitSessionClose
  dsimp only
  split_ifs <;> simp

@[simp] theorem keeps_commitSubscribe (c : CCtx) (sub irqCount irqDelay : Nat) (m : Mach) :
    (commitSubscribe c sub irqCount irqDelay m).keeps m := by
  unfold commitSubscribe
  split <;> simp

@[simp] theorem keeps_commitExpertGrant (c : CCtx) (req lease : Nat) (m : Mach) : (commitExpertGrant c req lease m).keeps m := by
  unfold commitExpertGrant
  dsimp only
  split_ifs <;> simp

@[simp] theorem keeps_commitSessionBudget (target cmds hare cpus : Nat) (m : Mach) :
    (commitSessionBudget target cmds hare cpus m).keeps m := by
  unfold commitSessionBudget
  exact CRes.keeps_ite trivial (CRes.keeps_ite trivial (CRes.keeps_ite (keeps_overCp ..) (beatView_setSes ..)))

/-! ### The admission of a change set (R411) -/

@[simp] theorem keeps_commitPairCfg (demote flags plane drill warmMax : Nat) (m : Mach) :
    (commitPairCfg demote flags plane drill warmMax m).keeps m := by
  unfold commitPairCfg
  exact CRes.keeps_ite trivial (CRes.keeps_ite (keeps_overDen ..) rfl)

@[simp] theorem keeps_commitPwrCfg (hold flags : Nat) (m : Mach) : (commitPwrCfg hold flags m).keeps m := by
  unfold commitPwrCfg
  split <;> simp

@[simp] theorem beatView_startChange (m : Mach) (plane warmMax jseq : Nat) (byGrade : Bool) :
    beatView (startChange m plane warmMax jseq byGrade) = beatView m := rfl

@[simp] theorem keeps_commitPairChangeover (c : CCtx) (plane warmMax : Nat) (m : Mach) :
    (commitPairChangeover c plane warmMax m).keeps m := by
  unfold commitPairChangeover
  exact CRes.keeps_ite trivial (CRes.keeps_ite trivial (beatView_startChange ..))

@[simp] theorem keeps_commitCmd (c : CCtx) (cmd : Cmd) (m : Mach) : (commitCmd c cmd m).keeps m := by
  cases cmd with
  | destBind =>
    dsimp only [commitCmd]
    split
    · exact CRes.keeps_ite trivial (keeps_commitDestBind ..)
    · exact keeps_commitDestBind ..
  | _ => simp [commitCmd]

@[simp] theorem beatView_newEpoch (old m : Mach) (ep : Nat) : beatView (newEpoch old m ep) = beatView m := rfl

@[simp] theorem beatView_commitEntry (m : Mach) (e : JEntry) : beatView (commitEntry m e) = beatView m := by
  unfold commitEntry
  extract_lets c
  have hc : (if regionAligned e.cmd then commitCmd c e.cmd m else .arg).keeps m := CRes.keeps_ite (keeps_commitCmd ..) trivial
  split
  · exact beatView_conclude ..
  next h =>
    rw [h] at hc
    split
    · rfl
    · rw [beatView_postRoom, beatView_setEntry]
      exact hc
  next h =>
    rw [h] at hc
    rw [beatView_conclude, beatView_newEpoch]
    exact hc

/-! ### Den entry and drills (R483, R498) -/

@[simp] theorem beatView_leaveGroups (m : Mach) : beatView (leaveGroups m) = beatView m := by
  refine beatView_foldl (fun m x => ?_) _ m
  split <;> simp

@[simp] theorem beatView_stopBlocks (m : Mach) : beatView (stopBlocks m) = beatView m := rfl

@[simp] theorem beatView_beginEntry (m : Mach) : beatView (beginEntry m) = beatView m := by
  unfold beginEntry
  split
  · rfl
  · have hstopped : beatView (stopBlocks (leaveGroups (endTests m))) = beatView m := by
      rw [beatView_stopBlocks, beatView_leaveGroups, beatView_endTests]
    refine (beatView_powerEvt ..).trans (.trans ?_ hstopped)
    generalize stopBlocks (leaveGroups (endTests m)) = x
    rfl

@[simp] theorem beatView_firstEntry (m : Mach) : beatView (firstEntry m) = beatView m := by
  unfold firstEntry
  split <;> simp

@[simp] theorem beatView_answerDrill (m : Mach) : beatView (answerDrill m) = beatView m := by
  unfold answerDrill
  split
  · dsimp only
    split
    · exact beatView_postFinal ..
    · rfl
  · rfl

@[simp] theorem beatView_endDrill (m : Mach) (res blocks : Nat) : beatView (endDrill m res blocks) = beatView m := by
  unfold endDrill
  rw [beatView_pairEvt, beatView_answerDrill]
  rfl

@[simp] theorem beatView_dropDrill (m : Mach) : beatView (dropDrill m) = beatView m := by
  unfold dropDrill
  split <;> simp

/-! ### The journal actions, claims and changeovers (R458, R472, R480) -/

@[simp] theorem beatView_settleRole (m : Mach) : beatView (settleRole m) = beatView m := by
  unfold settleRole
  split
  · split
    · exact beatView_fallRole ..
    · split
      · exact beatView_fallRole ..
      · rfl
  · split
    · rfl
    · exact beatView_setRole ..

@[simp] theorem beatView_cachePut (m : Mach) (e : JEntry) (rs : List Resp) : beatView (cachePut m e rs) = beatView m := by
  unfold cachePut
  dsimp only
  split_ifs <;> simp

@[simp] theorem beatView_recommit (m : Mach) (e : JEntry) : beatView (recommit m e) = beatView m := by
  unfold recommit
  extract_lets c now was _ _ at_ back done
  have hback {x : Mach} (h : beatView x = beatView at_) : beatView (back x) = beatView m := by
    simp only [beatView, Prod.mk.injEq] at h ⊢
    obtain ⟨-, hrest⟩ := h
    exact ⟨rfl, hrest⟩
  have hc := keeps_commitCmd c e.cmd at_
  split
  next m₁ rs heq =>
    have h₁ : beatView m₁ = beatView m := by
      split at heq
      · cases heq
        rfl
      next m' items h _ =>
        cases heq
        rw [h] at hc
        exact hback hc
      · cases heq
        rfl
    rw [beatView_cachePut, beatView_foldl (fun m p => ?_), h₁]
    dsimp only
    split
    · exact beatView_swapPlane ..
    · rfl

@[simp] theorem beatView_recache (m : Mach) (e : JEntry) : beatView (recache m e) = beatView m := by simp [recache]

@[simp] theorem beatView_outOfDate (m : Mach) : beatView (outOfDate m) = beatView m := by
  unfold outOfDate
  split <;> simp

@[simp] theorem beatView_replayEntry (m : Mach) (j : Nat) : beatView (replayEntry m j) = beatView m := by
  unfold replayEntry
  split
  · rfl
  · split
    · rfl
    · split
      · exact beatView_conclude ..
      · exact beatView_conclude ..
      · exact beatView_requestStep ..
      · exact beatView_commitEntry ..

@[simp] theorem beatView_journalActions (lossy : Bool) (m : Mach) : beatView (journalActions lossy m) = beatView m := by
  unfold journalActions
  extract_lets own last
  generalize placed m.ctl.jpos own = x
  obtain ⟨own, jpos⟩ := x
  dsimp -zeta only
  extract_lets m₁ m₂ m₃ opens m₄
  have h₂ : beatView m₂ = beatView m₁ := beatView_foldl (fun m e => by split_ifs <;> simp) _ _
  have h₃ : beatView m₃ = beatView m₂ := by
    dsimp only [m₃]
    split
    · exact beatView_outOfDate ..
    · rfl
  have h₄ : beatView m₄ = beatView m₃ := beatView_foldl (by simp) _ _
  exact (beatView_foldl (by simp) _ _).trans (h₄.trans (h₃.trans h₂))

@[simp] theorem beatView_claimSessions (m : Mach) : beatView (claimSessions m) = beatView m := by
  unfold claimSessions
  exact beatView_foldl (by simp) _ _

@[simp] theorem beatView_idleOuts (m : Mach) : beatView (idleOuts m) = beatView m := by
  exact beatView_blocks ..

@[simp] theorem beatView_claimAs (m : Mach) (role : Nat) (planned : Bool) : beatView (claimAs m role planned) = beatView m := by
  unfold claimAs
  extract_lets was hold _ _ m₁ m₂ m₃ m₄
  have h₂ : beatView m₂ = beatView m := beatView_setRole ..
  have h₃ : beatView m₃ = beatView m := by rw [beatView_ptpResume, beatView_claimSessions, h₂]
  have h₄ : beatView m₄ = beatView m := by
    dsimp only [m₄]
    split
    · exact h₃
    · exact (beatView_idleOuts _).trans h₃
  split
  · exact h₂
  · split
    · exact h₄
    · exact (beatView_announce _).trans h₄

@[simp] theorem beatView_takeover (m : Mach) : beatView (takeover m) = beatView m := by
  unfold takeover
  exact (beatView_pairEvt ..).trans ((beatView_claimAs ..).trans (beatView_journalActions ..))

@[simp] theorem beatView_resumeClaim (m : Mach) : beatView (resumeClaim m) = beatView m := by
  unfold resumeClaim
  dsimp only
  split
  · rfl
  · split
    · rfl
    · rw [beatView_pairEvt, beatView_claimAs, beatView_journalActions]
      rfl

@[simp] theorem beatView_endAsked (m : Mach) (status : Nat) (r : Ref) : beatView (endAsked m status r) = beatView m := by
  unfold endAsked
  dsimp only
  repeat' split
  all_goals simp

@[simp] theorem beatView_dropChange (m : Mach) (status : Nat) (r : Ref) : beatView (dropChange m status r) = beatView m := by
  unfold dropChange
  extract_lets m₁ m₂
  have h₂ : beatView m₂ = beatView m₁ := by
    dsimp only [m₂]
    split
    · exact beatView_xlSend ..
    · rfl
  exact h₂.trans (beatView_endAsked ..)

@[simp] theorem beatView_gradeCheck (m : Mach) : beatView (gradeCheck m) = beatView m := by
  unfold gradeCheck
  split
  · split
    · exact beatView_dropChange ..
    · rfl
  · split
    · exact beatView_startChange ..
    · rfl

/-! ### The heartbeat (R464) -/

@[simp] theorem beatView_pathFault (m : Mach) (i : Nat) : beatView (pathFault m i) = beatView m := by
  unfold pathFault
  split <;> simp

@[simp] theorem beatView_pathClear (m : Mach) (i : Nat) : beatView (pathClear m i) = beatView m := by simp [pathClear]

@[simp] theorem beatView_onLoss (m : Mach) : beatView (onLoss m) = beatView m := by
  unfold onLoss
  split
  · rw [beatView_settleGrants]
    exact beatView_dropChange ..
  · extract_lets m₁ m₂
    have h₁ : beatView m₁ = beatView m := by rw [beatView_dropChange, beatView_dropDrill]
    split
    · split
      · rw [beatView_takeover, beatView_settleRole, h₁]
      · rw [beatView_settleRole, h₁]
    · rw [beatView_settleRole, beatView_wakeEvent, h₁]

@[simp] theorem beatView_answerWake (m : Mach) (status : Nat) : beatView (answerWake m status) = beatView m := by
  unfold answerWake
  extract_lets ws _ m₁
  exact beatView_foldl (fun m w => by split <;> simp) _ m₁

@[simp] theorem beatView_declareLoss (m : Mach) (role0 : Bool) : beatView (declareLoss m role0) = beatView m := by
  unfold declareLoss
  split
  · rfl
  · rw [beatView_onLoss, beatView_settleGrants, beatView_answerWake, beatView_pairEvt, beatView_raise, beatView_foldl (by simp)]
    rfl

@[simp] theorem beatView_endLoss (m : Mach) : beatView (endLoss m) = beatView m := by
  unfold endLoss
  extract_lets _ m₁ m₂ held _ m₃
  have h₁ : beatView m₁ = beatView m := (beatView_endCond ..).trans rfl
  have h₂ : beatView m₂ = beatView m₁ := beatView_foldl (fun m i => by split <;> simp) _ _
  have h₃ : beatView m₃ = beatView m₂ := (beatView_settleGrants _).trans rfl
  rw [beatView_settleRole]
  split
  · rw [beatView_announce, h₃, h₂, h₁]
  · rw [h₃, h₂, h₁]

@[simp] theorem beatView_beatConds (x : Beat) (m : Mach) : beatView (beatConds x m) = beatView m := by
  unfold beatConds
  dsimp only
  split_ifs <;> simp

@[simp] theorem beatView_askWhole (m : Mach) : beatView (askWhole m) = beatView m := beatView_xlSend ..

@[simp] theorem beatView_seeClaimant (m : Mach) : beatView (seeClaimant m) = beatView m := by
  unfold seeClaimant
  split
  · rfl
  · split
    · rfl
    · split
      · exact beatView_askWhole ..
      · rfl

end Sys2Proof.Machine

/-! SUPPORT. Blocks over XL: which copy acts, what each message leaves, an image written into the blocks, and saves. -/
namespace Sys2Proof.Machine
open Sys2Proof.Safety

/-! ### Copies (R461) -/

theorem xlIn_idle {b : Nat} {x : XlMsg} {m : Mach} (h : m.sys.romMode = true ∨ xlStarted m = false) : xlIn b x m = m :=
  if_pos (by simpa using h)

theorem xlIn_beat {b : Nat} {x : Beat} {m : Mach} (hrom : m.sys.romMode = false) (hx : xlStarted m = true) :
    xlIn b (.beat x) m = beatIn b x m := by
  simp [xlIn, hrom, hx, XlMsg.isBeat, xlAct]

theorem xlIn_second {b : Nat} {x : XlMsg} {m : Mach} (hrom : m.sys.romMode = false) (hx : xlStarted m = true) (hb : x.isBeat = false)
    (hdue : (copiesDue m).contains (1 - b, x) = true) :
    xlIn b x m = { m with pr := { m.pr with copies := (copiesDue m).erase (1 - b, x) } } := by
  simp only [xlIn, hrom, hx, hb, hdue, Bool.not_true, Bool.false_eq_true, or_self, if_false, if_true]

theorem xlIn_first {b : Nat} {x : XlMsg} {m : Mach} (h : copyTaken m b x = true) : xlIn b x m = xlAct b x (firstCopy m b x) := by
  simp only [copyTaken, Bool.and_eq_true, Bool.not_eq_true'] at h
  obtain ⟨⟨⟨⟨-, hrom⟩, hx⟩, hb⟩, hdue⟩ := h
  simp only [xlIn, hrom, hx, hb, hdue, Bool.not_true, Bool.false_eq_true, or_self, if_false]
  rfl

theorem lt_of_copyTaken {b : Nat} {x : XlMsg} {m : Mach} (h : copyTaken m b x = true) : b < 2 := by
  simp only [copyTaken, Bool.and_eq_true, decide_eq_true_eq] at h
  obtain ⟨⟨⟨⟨hb, -⟩, -⟩, -⟩, -⟩ := h
  exact hb

/-! ### Messages to a standby (R468 to R470, R480) -/

theorem endedIn_none {m : Mach} (h : m.pr.chg = none) : endedIn m = m := if_pos (.inr (by rw [h]; rfl))

section
variable {m : Mach} (hc : claiming m = false)
include hc

theorem entryIn_standby (e : JEntry) : entryIn e m = xlSend
    { m with pr := { m.pr with jcopy := (m.pr.jcopy.filter fun y => y.jseq != e.jseq) ++ [e], jrecv := max m.pr.jrecv e.jseq } }
    (.jack e.jseq) := by
  simp only [entryIn, hc, Bool.false_eq_true, if_false]

theorem stateIn_standby (j st status epoch instant : Nat) : stateIn j st status epoch instant m = xlSend
    { m with pr := { m.pr with jcopy := m.pr.jcopy.map fun y => if y.jseq = j then { y with st, status, epoch, instant } else y } }
    (.stateAck j) := by
  simp only [stateIn, hc, Bool.false_eq_true, if_false]

theorem recordIn_standby (k : Nat) (r : SavedRec) :
    (if claiming m ∨ m.pr.recv.contains (k, r) then m else { m with pr := { m.pr with recv := m.pr.recv ++ [(k, r)] } }) =
      if m.pr.recv.contains (k, r) = true then m else { m with pr := { m.pr with recv := m.pr.recv ++ [(k, r)] } } := by
  simp only [hc, Bool.false_eq_true, false_or]

theorem sliceIn_standby (k : Nat) (r : SavedRec) :
    (if claiming m ∨ m.pr.slices.contains (k, r) then m else { m with pr := { m.pr with slices := m.pr.slices ++ [(k, r)] } }) =
      if m.pr.slices.contains (k, r) = true then m else { m with pr := { m.pr with slices := m.pr.slices ++ [(k, r)] } } := by
  simp only [hc, Bool.false_eq_true, false_or]

theorem chooseX_standby : chooseX m = m := by
  unfold chooseX
  split
  · exact if_pos (.inl (by simp [hc]))
  · rfl

theorem wakeIn_awake (p w : Nat) (hst : m.pwr.st = 1) (hdrill : m.pr.drilling = false) :
    wakeIn true p w m = { m with pr := { m.pr with chg := some { phase := 1, c := m.now, warmMax := w, plane := p } } } := by
  simp [wakeIn, hc, dropDrill, hdrill, wakeEvent, hst]

theorem chosenIn_standby {c : Changeover} (x : Nat) (h : m.pr.chg = some c) :
    chosenIn x m = xlSend { m with pr := { m.pr with chg := some { c with phase := 2, x := some x } } } (.chosen x) := by
  simp only [chosenIn, h, hc, Bool.false_eq_true, if_false]

theorem endedIn_stays (h : m.pr.chg.isSome = true) (hden : m.pr.cfg.denAuto = false) :
    endedIn m = { m with pr := { m.pr with chg := none } } := by
  have hchg : m.pr.chg.isNone = false := by simpa using h
  simp only [endedIn, hc, hchg, hden, Bool.false_eq_true, or_self, if_false]
end

/-! ### Messages to a claimant (R461, R469, R470, R480) -/

/-- The ACCEPTED that waited for the partner is posted, in the control block alone. -/
theorem entryAcked_posts {m : Mach} {j : Nat} {e : JEntry} (hj : jentry? m j = some e) (hun : e.unacked = true) (hdeaf : e.deaf = false)
    (hlive : live m e.ses = true) (htail : (win m e.ses).respTail < 65536) :
    sameButCtl m (entryAcked m j) ∧ posted m (entryAcked m j) e.ses = acceptedResp e := by
  have hacked : entryAcked m j = postRoom (setEntry m j fun x => { x with unacked := false }) e (acceptedResp e) false := by
    simp only [entryAcked, hj, hun, if_true]
  rw [hacked]
  refine ⟨.trans (b := setEntry m j fun x => { x with unacked := false }) rfl (sameButCtl_postRoom ..), posted_of_push htail ?_ ?_⟩
  · exact (length_mkResps ..).trans (by decide)
  · exact win_postRoom_more _ hdeaf hlive

theorem saveAcked_leaves (k : Nat) (m : Mach) :
    (saveAcked k m).pr.saveAcked = k ∧ (saveAcked k m).pr.unprot = false ∧ (saveAcked k m).xb = m.xb := by
  have hretire (m : Mach) : (retire m).pr = m.pr ∧ (retire m).xb = m.xb := ⟨rfl, rfl⟩
  unfold saveAcked
  extract_lets _ m₁
  split
  · have hend := keepsPair_endCond { m₁ with pr := { m₁.pr with unprot := false } } 0xDE0 0x95
    rw [(hretire _).1, (hretire _).2, hend.pr, hend.xb]
    exact ⟨rfl, rfl, rfl⟩
  next hun => exact ⟨rfl, eq_false_of_ne_true hun, rfl⟩

theorem sendWhole_sends (m : Mach) : (sendWhole m).pr.cnt.fullSync = sat m.pr.cnt.fullSync 1 ∧ (sendWhole m).xb = m.xb ∧
    ∃ k img js, (sendWhole m).pr.sentXl.getLast? = some (.whole k img js) ∧ ∀ y ∈ m.pr.kept.head?, k = y.1 ∧ img = y.2 := by
  refine ⟨rfl, rfl, _, _, _, xlSend_last .., fun y hy => ?_⟩
  rw [Option.mem_def.1 hy]
  exact ⟨rfl, rfl⟩

theorem chooseX_chooses {m : Mach} {c : Changeover} (hc : claiming m = true) (h : m.pr.chg = some c) (hp : c.phase = 1) :
    let x := lastLineAt (plane m c.plane) (m.dt.t + 2000000 * nsU)
    chooseX m = xlSend { m with pr := { m.pr with chg := some { c with phase := 2, x := some x } } } (.chosen x) := by
  simp only [chooseX, h, hc, hp, Bool.not_true, Bool.false_eq_true, ne_eq, not_true_eq_false, or_self, if_false]

theorem reportIn_new {m : Mach} {b : List Byte} (h : m.pr.report ≠ some b) :
    sameButCtl { m with pr := { m.pr with report := some b } } (reportIn b m) := by
  rw [reportIn, if_neg h]
  exact sameButCtl_pairEvt ..

/-! ### An image written into the blocks (R470, R471) -/

/-- The pair block and the crossbar stay as they are. -/
def keepsPairRoutes (m m' : Mach) : Prop := m'.pr = m.pr ∧ m'.xb = m.xb

theorem keepsPairRoutes.refl (m : Mach) : keepsPairRoutes m m := ⟨rfl, rfl⟩
theorem keepsPairRoutes.trans {a b c : Mach} (h : keepsPairRoutes a b) (k : keepsPairRoutes b c) : keepsPairRoutes a c :=
  ⟨k.1.trans h.1, k.2.trans h.2⟩

theorem keepsPair.pairRoutes {m m' : Mach} (h : keepsPair m m') : keepsPairRoutes m m' := ⟨h.pr, h.xb⟩

theorem keepsPairRoutes_foldl {α : Type} {g : Mach → α → Mach} (h : ∀ m x, keepsPairRoutes m (g m x)) (l : List α) (m : Mach) :
    keepsPairRoutes m (l.foldl g m) := by
  induction l generalizing m with
  | nil => exact .refl m
  | cons a l ih => exact (h m a).trans (ih (g m a))

theorem keepsPairRoutes_setLink (k : Nat) (up : Bool) (m : Mach) : keepsPairRoutes m (setLink k up m) := by
  unfold setLink
  split
  · exact .refl m
  · extract_lets m₁
    have h₁ : keepsPairRoutes m m₁ := .trans (b := setMac m k fun x => { x with link := up }) ⟨rfl, rfl⟩
      (keepsPair_of_ctl (sameButCtl_event ..)).pairRoutes
    split
    · exact h₁.trans (keepsPair_endCond ..).pairRoutes
    · split
      · exact h₁.trans (keepsPair_raise _ _ 0x30 0 (by decide : 1 ≤ 2)).pairRoutes
      · exact h₁

theorem keepsPairRoutes_dropMac (old new k : Nat) (m : Mach) : keepsPairRoutes m (dropMac old new k m) := by
  unfold dropMac
  extract_lets m₁ m₂
  have h₁ : keepsPairRoutes m m₁ := .trans ⟨rfl, rfl⟩ (keepsPairRoutes_setLink k false _)
  have h₂ : keepsPairRoutes m m₂ := by
    dsimp only [m₂]
    split
    · exact h₁.trans (keepsPair_endCond ..).pairRoutes
    · exact h₁
  split
  · exact h₂
  · exact h₂

theorem keepsPairRoutes_eth (m : Mach) (eth : Eth) : keepsPairRoutes m { m with eth } := ⟨rfl, rfl⟩

theorem keepsPairRoutes_newSplit (port mode : Nat) (m : Mach) : keepsPairRoutes m (newSplit port mode m) := by
  refine .trans (keepsPairRoutes_foldl (fun x k => ?_) _ m) (keepsPairRoutes_eth ..)
  exact keepsPairRoutes_dropMac ..

theorem keepsPairRoutes_advanceSeqs (m : Mach) (t : Nat) : keepsPairRoutes m (advanceSeqs m t) := ⟨rfl, rfl⟩
theorem keepsPairRoutes_dropFeeds (m : Mach) : keepsPairRoutes m (dropFeeds m) := ⟨rfl, rfl⟩

theorem keepsPairRoutes_assignFeeds (m : Mach) : keepsPairRoutes m (assignFeeds m) := by
  refine keepsPairRoutes_foldl (fun m x => ?_) _ m
  split
  · exact .refl m
  · split
    · exact ⟨rfl, rfl⟩
    · exact .refl m

/-- Of the pair block an image brings the configuration alone, and it brings the committed routes and their epoch. -/
theorem restore_leaves (i : Saved) (m : Mach) :
    (restore i m).pr = { m.pr with cfg := i.settings.pair, keepOrder := i.settings.keepOrder } ∧
      (restore i m).xb.dests = i.routes.xb.dests ∧ (restore i m).xb.epoch = i.head.epoch := by
  unfold restore
  extract_lets r _ xb _ is_ m₁ m₂ _ _ _ m₃ a _ _ m₄ t d _ _ _ _ _ m₅ s _ _ _ _ m₆
  have h₂ : keepsPairRoutes m₁ m₂ := keepsPairRoutes_foldl (fun m p => by
    dsimp only
    split
    · exact .refl m
    · exact keepsPairRoutes_newSplit ..) _ _
  obtain ⟨hpr, hxb⟩ := h₂
  have h₆ : keepsPairRoutes m₆ (settleGrants (assignFeeds (dropFeeds (advanceSeqs m₆ i.head.instant)))) :=
    (((keepsPairRoutes_advanceSeqs ..).trans (keepsPairRoutes_dropFeeds _)).trans (keepsPairRoutes_assignFeeds _)).trans
      (keepsPair_settleGrants _).pairRoutes
  obtain ⟨hpr₆, hxb₆⟩ := h₆
  have hcfg : m₆.pr = { m₂.pr with cfg := i.settings.pair, keepOrder := i.settings.keepOrder } := rfl
  have hroutes : m₆.xb = m₂.xb := rfl
  rw [hpr₆, hxb₆, hcfg, hroutes, hpr, hxb]
  exact ⟨rfl, rfl, rfl⟩

/-- The pair block beside its configuration. -/
def exceptCfg (a b : Pair) : Prop := b = { a with cfg := b.cfg, keepOrder := b.keepOrder }

theorem applyImage_pr (m : Mach) : exceptCfg m.pr (applyImage m).pr := by
  unfold applyImage
  split
  next i _ =>
    split
    · rfl
    · split
      · rfl
      · unfold exceptCfg
        rw [(restore_leaves i m).1]
  · rfl

theorem applyImage_away {m : Mach} (h : m.pwr.st ≠ 1) : applyImage m = m := by
  unfold applyImage
  split
  · exact if_pos (by simp [follows, h])
  · rfl

theorem applyImage_shadow {m : Mach} {i : Saved} (h : m.pr.img = some i) (hst : m.pwr.st = 1) (hc : claiming m = false)
    (hd : m.pr.drilling = false) : (applyImage m).xb.dests = i.routes.xb.dests ∧ (applyImage m).xb.epoch = i.head.epoch := by
  have happly : applyImage m = restore i m := by
    simp [applyImage, h, follows, hst, hc, hd]
  rw [happly]
  exact (restore_leaves i m).2

/-- An image that takes a save's number is applied and acknowledged: in SHADOW its routes are in force, elsewhere none has moved. -/
theorem appliedSave_leaves (k : Nat) (img : Saved) (m : Mach) :
    let t := xlSend (applyImage (nameSave k img m)) (.saveAck k)
    t.pr.save = k ∧ t.pr.img = some img ∧ t.pr.imgEpoch = img.head.epoch ∧ t.pr.stale = m.pr.stale ∧
      t.pr.sentXl.getLast? = some (.saveAck k) ∧
      (m.pwr.st = 1 → claiming m = false → m.pr.drilling = false → t.xb.dests = img.routes.xb.dests ∧ t.xb.epoch = img.head.epoch) ∧
      (m.pwr.st ≠ 1 → t.xb = m.xb) := by
  intro t
  have himage := applyImage_pr (nameSave k img m)
  have ht : t.pr = { (applyImage (nameSave k img m)).pr with sentXl := t.pr.sentXl } := rfl
  have hlast : t.pr.sentXl.getLast? = some (.saveAck k) := xlSend_last ..
  have hxb : t.xb = (applyImage (nameSave k img m)).xb := xlSend_xb ..
  clear_value t
  unfold exceptCfg at himage
  rw [ht, himage, hxb]
  refine ⟨rfl, rfl, rfl, rfl, hlast, fun hst hc hd => ?_, fun hst => ?_⟩
  · exact applyImage_shadow (m := nameSave k img m) rfl hst hc hd
  · rw [applyImage_away (m := nameSave k img m) hst]
    rfl

/-- A whole image is kept and acknowledged, and nothing is wanted any more (R470, R508). -/
theorem wholeIn_standby {m : Mach} (hc : claiming m = false) (hm : compatible m = true) (k : Nat) (img : Saved) (js : List JEntry) :
    let t := wholeIn k img js m
    t.pr.img = some img ∧ t.pr.save = k ∧ t.pr.imgEpoch = img.head.epoch ∧ t.pr.stale = false ∧ t.pr.wanted = [] ∧ t.pr.recv = [] ∧
      t.pr.slices = [] ∧ t.pr.seeded = (m.pr.seeded || !m.pr.fit) ∧ t.pr.sentXl.getLast? = some (.saveAck k) := by
  unfold wholeIn
  rw [if_neg (by simp [hc, hm])]
  extract_lets copy _ _ _ m₁ t
  have himage := applyImage_pr (nameSave k img m₁)
  have ht : t.pr = { (applyImage (nameSave k img m₁)).pr with sentXl := t.pr.sentXl } := rfl
  have hlast : t.pr.sentXl.getLast? = some (.saveAck k) := xlSend_last ..
  clear_value t
  unfold exceptCfg at himage
  rw [ht, himage]
  exact ⟨rfl, rfl, rfl, rfl, rfl, rfl, rfl, rfl, hlast⟩

/-! ### Saves (R468, R470, R546) -/

theorem saveSent_idle {k : Nat} {m : Mach}
    (h : ¬(claiming m = true ∧ compatible m = true ∧ xlUp m = true ∧ (keptSave m k).isSome = true)) : saveSent k m = m := if_neg h

/-- Messages sent one after another move the list of those sent alone. -/
theorem xlSends_alone {α : Type} (f : α → XlMsg) (l : List α) (m : Mach) :
    ∃ sentXl, l.foldl (fun m a => xlSend m (f a)) m = { m with pr := { m.pr with sentXl } } := by
  induction l generalizing m with
  | nil => exact ⟨_, rfl⟩
  | cons a l ih =>
    obtain ⟨t, ht⟩ := ih (xlSend m (f a))
    exact ⟨t, ht.trans (by rw [xlSend_eq])⟩

theorem saveSent_sends {k : Nat} {m : Mach} {v : Saved} (hc : claiming m = true) (hm : compatible m = true) (hx : xlUp m = true)
    (hv : keptSave m k = some v) :
    (∃ sentXl, saveSent k m = { m with pr := { m.pr with save := k, sentXl } }) ∧
      (saveSent k m).pr.sentXl.getLast? = some (.slice k (k % 256) (v.slice k)) := by
  have hsent : saveSent k m = { sendSave k m with pr := { (sendSave k m).pr with save := k } } := if_pos ⟨hc, hm, hx, by rw [hv]; rfl⟩
  obtain ⟨t, ht⟩ := xlSends_alone (fun r => XlMsg.saveRec k r) ((((keptSave m ((k + 2 ^ 32 - 1) % 2 ^ 32)).getD {}).changes v)) m
  have hsend : sendSave k m = xlSend { m with pr := { m.pr with sentXl := t } } (.slice k (k % 256) (v.slice k)) := by
    rw [← ht]
    simp only [sendSave, hv]
  rw [hsent, hsend]
  exact ⟨⟨_, by rw [xlSend_eq]⟩, xlSend_last ..⟩

theorem missSave_known {k : Nat} {m : Mach} (h : m.pr.wanted.contains k = true) : missSave k m = m := if_pos h

theorem missSave_asks {k : Nat} {m : Mach} (h : m.pr.wanted.contains k = false) :
    missSave k m = { m with pr := (missSave k m).pr } ∧ (missSave k m).pr.stale = true ∧ (missSave k m).pr.wanted = m.pr.wanted ++ [k] ∧
      (missSave k m).pr.sentXl.getLast? = some (.resend k) ∧ (missSave k m).pr.img = m.pr.img := by
  unfold missSave
  rw [if_neg (by rw [h]; exact Bool.false_ne_true)]
  exact ⟨rfl, rfl, rfl, xlSend_last .., rfl⟩

theorem saveApply_idle {k : Nat} {ok : Bool} {m : Mach} (h : claiming m = true ∨ m.sys.romMode = true ∨ compatible m = false) :
    saveApply k ok m = m := if_pos (by simpa using h)

section
variable {m : Mach} (hc : claiming m = false) (hrom : m.sys.romMode = false) (hm : compatible m = true)
include hc hrom hm

theorem saveApply_missed (k : Nat) : saveApply k false m = missSave k m := by
  simp [saveApply, hc, hrom, hm]

theorem saveApply_none (k : Nat) (h : m.pr.img = none) : saveApply k true m = m := by
  simp [saveApply, hc, hrom, hm, h]

/-- The save after the image's, none missed and without a slice, joins the image. -/
theorem saveApply_next {img : Saved} (himg : m.pr.img = some img) (hw : m.pr.wanted = []) (hs : m.pr.slices = []) :
    let k := (m.pr.save + 1) % 2 ^ 32
    let img' := ((m.pr.recv.filter fun r => r.1 == k).map (·.2)).foldl Saved.put img
    ∃ m' : Mach, saveApply k true m = xlSend (applyImage (nameSave k img' m')) (.saveAck k) ∧
      m'.pr.stale = (m.pr.stale && decide (m.pr.renewed < 256)) ∧ m'.pr.role = m.pr.role ∧ m'.pr.drilling = m.pr.drilling ∧
      m'.pwr = m.pwr ∧ m'.xb = m.xb := by
  intro k img'
  have hnext : saveAfter k ((m.pr.save + 1) % 2 ^ 32) = 0 := by simp only [saveAfter, k]; omega
  have hlater : saveAfter k m.pr.save = 1 := by simp only [saveAfter, k]; omega
  unfold saveApply
  rw [if_neg (by simp [hc, hrom, hm]), if_neg (by simp)]
  split
  next h => exact absurd (h.symm.trans himg) (by simp)
  next img₀ h =>
    obtain rfl : img₀ = img := Option.some.inj (h.symm.trans himg)
    extract_lets gap m₁ later mine img₁ sl off img₂ wanted renewed stale _ _ m₂ m₃
    have hm₁ : m₁ = m := if_pos (.inl (by simp only [gap, hw, hnext, List.contains_nil, Bool.false_eq_true, if_false]))
    clear_value m₁
    subst hm₁
    have hlate : later = true := by simp [later, hlater]
    have hsl : sl = [] := by simp [sl, hs]
    have hoff : off = [] := by simp [off, hsl]
    have himg₂ : img₂ = img' := by simp only [img₂, hoff, List.foldl_nil, img₁, hlate, if_true]; rfl
    have hm₃ : m₃ = m₂ := by simp only [m₃, hoff, List.foldl_nil]
    have hstale : stale = (m₁.pr.stale && decide (m₁.pr.renewed < 256)) := by simp [stale, renewed, hsl, wanted, hw]
    rw [hlate, if_pos rfl, hm₃, himg₂]
    exact ⟨m₂, rfl, hstale, rfl, rfl, rfl, rfl⟩
end

end Sys2Proof.Machine

/-! SUPPORT. What a heartbeat leaves. -/
namespace Sys2Proof.Machine
open Sys2Proof.Safety

/-! ### A heartbeat over XL (R351, R464) -/

theorem path_of_beatView {m m' : Mach} {b : Nat} (hb : b < 2) (h : beatView m' = beatView m) : path m' b = path m b := by
  simp only [beatView, Prod.mk.injEq] at h
  obtain ⟨-, -, -, hA, hB⟩ := h
  match b, hb with
  | 0, _ => exact hA
  | 1, _ => exact hB

theorem path_setPath_same (m : Mach) (b : Nat) (f : HbPath → HbPath) : path (setPath m b f) b = f (path m b) :=
  match b with
  | 0 => rfl
  | 1 => rfl
  | _ + 2 => rfl

theorem goodPath_hears {b : Nat} (hb : b < 2) (m : Mach) : (path (goodPath b m) b).miss = 0 ∧ (path (goodPath b m) b).ever = true := by
  unfold goodPath
  extract_lets m₁ m₂
  have h₁ : (path m₁ b).miss = 0 ∧ (path m₁ b).ever = true := by
    rw [path_setPath_same]
    exact ⟨rfl, rfl⟩
  have h₂ : (path m₂ b).miss = 0 ∧ (path m₂ b).ever = true := by
    rw [path_setPath_same]
    exact h₁
  split
  · exact h₁
  · split
    · rw [path_of_beatView hb (beatView_endLoss m₂)]
      exact h₂
    · rw [path_of_beatView hb (beatView_pathClear m₂ b)]
      exact h₂

/-- At a module that does not claim, the end of heartbeat loss moves device time, the links and the claim as little. -/
def stillRests (m m' : Mach) : Prop := m.pr.role < 8 → m'.pr.role < 8 ∧ m'.dt = m.dt ∧ m'.wl = m.wl

theorem faultsOnly.stillRests {m m' : Mach} (h : faultsOnly m m') : stillRests m m' := fun hr => ⟨h.rests hr, h.dt, h.wl⟩

theorem stillRests.trans {a b c : Mach} (h : stillRests a b) (k : stillRests b c) : stillRests a c := fun hr => by
  obtain ⟨hr', hdt, hwl⟩ := h hr
  obtain ⟨hr'', hdt', hwl'⟩ := k hr'
  exact ⟨hr'', hdt'.trans hdt, hwl'.trans hwl⟩

theorem stillRests_settleRole (m : Mach) : stillRests m (settleRole m) := fun hr => by
  obtain ⟨outs, h⟩ := settleRole_of_rests hr
  rw [h]
  refine ⟨?_, rfl, rfl⟩
  show restRole m < 8
  unfold restRole
  split <;> decide

theorem stillRests_endLoss (m : Mach) : stillRests m (endLoss m) := by
  unfold endLoss
  extract_lets _ m₁ m₂ held _ m₃
  have h₀ : stillRests m { m with pr := { m.pr with ploss := false, plossRole0 := false, split := false } } :=
    fun hr => ⟨hr, rfl, rfl⟩
  have h₁ : stillRests m m₁ := h₀.trans (faultsOnly_endCond ..).stillRests
  have h₂ : stillRests m₁ m₂ := by
    refine (faultFrame_faultsOnly.foldl _ (fun m i => ?_) _ m₁).stillRests
    split
    · unfold pathFault
      split
      · exact .refl m
      · exact faultsOnly_raise ..
    · exact .refl m
  have h₃ : stillRests m m₃ := .trans (h₁.trans h₂) fun hr => ⟨hr, rfl, rfl⟩
  intro hr
  have hc : claiming m₃ = false := by
    obtain ⟨hr₃, -⟩ := h₃ hr
    simp only [claiming, decide_eq_false_iff_not]
    omega
  rw [if_neg (by simp [hc])]
  exact (h₃.trans (stillRests_settleRole m₃)) hr

theorem stillRests_setPath (m : Mach) (b : Nat) (f : HbPath → HbPath) : stillRests m (setPath m b f) := fun hr => by
  unfold setPath
  refine ⟨?_, rfl, rfl⟩
  dsimp only
  split <;> exact hr

theorem stillRests_goodPath (b : Nat) (m : Mach) : stillRests m (goodPath b m) := by
  unfold goodPath
  extract_lets m₁ m₂
  have h₁ : stillRests m m₁ := stillRests_setPath _ _ _
  have h₂ : stillRests m m₂ := h₁.trans (stillRests_setPath _ _ _)
  split
  · exact h₁
  · split
    · exact h₂.trans (stillRests_endLoss m₂)
    · exact h₂.trans (faultsOnly_endCond ..).stillRests

/-- The heartbeat is noted beside its path. -/
def beatHeard (b : Nat) (x : Beat) (m : Mach) : Mach := { goodPath b m with pr := { (goodPath b m).pr with beat := some x } }

/-- Device time follows it. -/
def beatNoted (b : Nat) (x : Beat) (m : Mach) : Mach := followTime b x (beatHeard b x m)

/-- All that comes after keeps it. -/
theorem beatView_beatIn (b : Nat) (x : Beat) (m : Mach) : beatView (beatIn b x m) = beatView (beatNoted b x m) := by
  unfold beatIn
  extract_lets prev role m₁ _ m₂ m₃ m₄ m₅ m₆
  have h₃ : beatView m₃ = beatView m₂ := by
    rw [beatView_resumeClaim, beatView_settleRole, beatView_settleGrants, beatView_beatConds]
  have h₄ : beatView m₄ = beatView m₃ := by
    dsimp only [m₄]
    split_ifs <;> simp
  have h₅ : beatView m₅ = beatView m₄ := by
    dsimp only [m₅]
    split <;> simp
  have h₆ : beatView m₆ = beatView m₅ := by
    dsimp only [m₆]
    split <;> simp
  rw [beatView_gradeCheck, beatView_firstEntry, h₆, h₅, h₄, h₃]
  rfl

theorem pr_of_dt (m : Mach) (dt : Dt) : { m with dt }.pr = m.pr := rfl

theorem followTime_pr (b : Nat) (x : Beat) (m : Mach) : (followTime b x m).pr = m.pr := by
  unfold followTime
  extract_lets l
  by_cases h : claiming m ∨ !l.dvalid
  · rw [if_pos h]
  · exact (congrArg (fun y : Mach => y.pr) (if_neg h)).trans (pr_of_dt m _)

/-- Device time at a module that does not claim is the partner's, delayed by the measured length of the bundle's lane 0. The large
factors are made variables first: they would otherwise be computed in unary. -/
theorem followTime_follows {b : Nat} {x : Beat} {m : Mach} (hc : claiming m = false) (hd : (rx m (144 + 8 * b)).dvalid = true) :
    (followTime b x m).dt.t = (x.t + (rx m (144 + 8 * b)).delay * nsU / 1000) % dtSpan ∧
      (followTime b x m).dt.valid = (m.dt.valid || x.tvalid) := by
  unfold followTime
  generalize dtSpan = span
  generalize nsU = ns
  extract_lets l _
  rw [if_neg (by simp [hc, l, hd])]
  exact ⟨rfl, rfl⟩

theorem beatNoted_follows {b : Nat} {x : Beat} {m : Mach} (hc : claiming m = false) (hd : (rx m (144 + 8 * b)).dvalid = true) :
    (beatNoted b x m).dt.t = (x.t + (rx m (144 + 8 * b)).delay * nsU / 1000) % dtSpan ∧
      (beatNoted b x m).dt.valid = (m.dt.valid || x.tvalid) := by
  have hr : m.pr.role < 8 := by simpa [claiming] using hc
  obtain ⟨hr', hdt, hwl⟩ := stillRests_goodPath b m hr
  have hc' : claiming (beatHeard b x m) = false := decide_eq_false (not_le.2 hr')
  have hrx : rx (beatHeard b x m) (144 + 8 * b) = rx m (144 + 8 * b) := by simp only [rx, beatHeard, hwl]
  have hvalid : (beatHeard b x m).dt.valid = m.dt.valid := by simp only [beatHeard, hdt]
  have h := followTime_follows (x := x) hc' (hrx ▸ hd)
  rw [hrx, hvalid] at h
  exact h

/-- What a heartbeat leaves. -/
theorem beatIn_leaves {b : Nat} (hb : b < 2) (x : Beat) (m : Mach) :
    (beatIn b x m).pr.beat = some x ∧ (path (beatIn b x m) b).miss = 0 ∧ (path (beatIn b x m) b).ever = true ∧
      (claiming m = false → (rx m (144 + 8 * b)).dvalid = true →
        (beatIn b x m).dt.t = (x.t + (rx m (144 + 8 * b)).delay * nsU / 1000) % dtSpan ∧
          (beatIn b x m).dt.valid = (m.dt.valid || x.tvalid)) := by
  have hview := beatView_beatIn b x m
  have hpr : (beatNoted b x m).pr = { (goodPath b m).pr with beat := some x } := followTime_pr ..
  have hpath : path (beatIn b x m) b = path (goodPath b m) b := by
    rw [path_of_beatView hb hview]
    unfold path
    rw [hpr]
  simp only [beatView, Prod.mk.injEq] at hview
  obtain ⟨ht, hvalid, hbeat, -, -⟩ := hview
  rw [hpath, ht, hvalid, hbeat, hpr]
  obtain ⟨hmiss, hever⟩ := goodPath_hears hb m
  exact ⟨rfl, hmiss, hever, fun hc hd => beatNoted_follows hc hd⟩

end Sys2Proof.Machine

namespace Sys2Proof.Proofs
open Sys2Proof.Machine Sys2Proof.Safety

theorem takes_first {s : State} {b : Nat} {x : XlMsg} {m : Mach} (h : copyTaken s.toMach b x = true)
    (hact : xlAct b x (firstCopy s.toMach b x) = m) : Takes (.xlBlockReceive b x) s m :=
  takes_of_runIf (f := xlIn b x) rfl (decide_eq_true (lt_of_copyTaken h)) ((xlIn_first h).trans hact)

theorem answers_first {s : State} {b : Nat} {x : XlMsg} {P : State → Prop} (h : copyTaken s.toMach b x = true)
    (hact : P { s with toMach := xlAct b x (firstCopy s.toMach b x) }) : Answers (.xlBlockReceive b x) s P :=
  answers_of_runIf (f := xlIn b x) rfl (decide_eq_true (lt_of_copyTaken h)) (by rw [xlIn_first h]; exact hact)

/-- Settles O53: each message is the law of the function that takes it; a heartbeat keeps its note, its path and the time it set through
every claim, loss and changeover that it may bring about. -/
theorem xlBlocksArrive : Obligations.XlBlocksArrive := by
  refine ⟨fun s b x hb => ⟨fun h => ?_, fun hrom hx hbeat hdue => ?_, fun h => takes_first h rfl⟩, fun s b x h hc => ?_,
    fun s b bs h hnew => ?_, fun s b x h hc => ?_, fun s b x hb hrom hx => ?_, fun s k => ⟨fun hno => ?_, ?_⟩, fun s k ok => ⟨?_, ?_, ?_⟩,
    fun s img hc hrom hm himg hw hs => ?_⟩
  · exact takes_of_runIf (f := xlIn b x) rfl (decide_eq_true hb) (xlIn_idle h)
  · exact takes_of_runIf (f := xlIn b x) rfl (decide_eq_true hb) (xlIn_second hrom hx hbeat hdue)
  · have hc' : claiming (firstCopy s.toMach b x) = false := hc
    refine ⟨?_, ?_, ?_, ?_, ?_, ?_, ?_, ?_, fun hx => ⟨?_, ?_⟩⟩
    · rintro e rfl
      exact takes_first h (entryIn_standby hc' e)
    · rintro j st status epoch instant rfl
      exact takes_first h (stateIn_standby hc' j st status epoch instant)
    · rintro k r rfl
      exact takes_first h (recordIn_standby hc' k r)
    · rintro k i r rfl
      exact takes_first h (sliceIn_standby hc' k r)
    · rintro k img js rfl hm
      exact answers_first h (wholeIn_standby hc' hm k img js)
    · rintro (rfl | rfl | ⟨k, rfl | rfl | rfl | rfl⟩)
      · exact takes_first h (if_neg (by simp [hc']))
      · exact takes_first h (chooseX_standby hc')
      · exact takes_first h (if_neg (by simp [hc']))
      · exact takes_first h (if_neg (by simp [hc']))
      · exact takes_first h (if_neg (by simp [hc']))
      · exact takes_first h (if_pos (by simp [hc']))
    · rintro p w rfl hst hg hd
      exact takes_first h (wakeIn_awake hc' p w hst hd)
    · rintro k rfl c hchg
      exact takes_first h (chosenIn_standby hc' k hchg)
    · subst hx
      exact fun hchg => takes_first h (endedIn_none hchg)
    · subst hx
      exact fun hchg hden => takes_first h (endedIn_stays hc' hchg hden)
  · refine answers_first h ?_
    have hreport := reportIn_new (m := firstCopy s.toMach b (.report bs)) hnew
    show reportIn bs (firstCopy s.toMach b (.report bs)) = { s.toMach with
      pr := { s.pr with report := some bs, copies := (reportIn bs (firstCopy s.toMach b (.report bs))).pr.copies }
      ctl := (reportIn bs (firstCopy s.toMach b (.report bs))).ctl }
    generalize reportIn bs (firstCopy s.toMach b (.report bs)) = t at hreport ⊢
    have hcopies : t.pr.copies = (firstCopy s.toMach b (.report bs)).pr.copies := by rw [hreport]
    rw [hcopies]
    exact hreport
  · have hc' : claiming (firstCopy s.toMach b x) = true := hc
    refine ⟨?_, ?_, ?_, ?_, ?_⟩
    · rintro (rfl | ⟨k, e, r, w, rfl | rfl | rfl | rfl | rfl⟩)
      · exact takes_first h (if_pos (.inl hc'))
      · exact takes_first h (if_pos hc')
      · exact takes_first h (if_pos (.inl hc'))
      · exact takes_first h (if_pos (.inl hc'))
      · exact takes_first h (if_pos hc')
      · exact takes_first h (if_pos hc')
    · rintro j e rfl hj hun hdeaf hses hlive hhare htail
      obtain ⟨hctl, hposted⟩ := entryAcked_posts (m := firstCopy s.toMach b (.jack j)) hj hun hdeaf hlive htail
      refine answers_first h ?_
      rw [show xlAct b (.jack j) _ = entryAcked _ j from if_pos hc']
      exact ⟨hctl, hposted⟩
    · rintro k rfl
      refine answers_first h ?_
      rw [show xlAct b (.saveAck k) _ = saveAcked k _ from if_pos hc']
      exact saveAcked_leaves ..
    · rintro rfl hm
      refine answers_first h ?_
      rw [show xlAct b .wantWhole _ = sendWhole _ from if_pos ⟨hc', hm⟩]
      exact sendWhole_sends _
    · rintro c hchg rfl hp
      exact takes_first h (chooseX_chooses hc' hchg hp)
  · refine ⟨takes_of_runIf (f := xlIn b (.beat x)) rfl (decide_eq_true hb) (xlIn_beat hrom hx), ?_⟩
    refine answers_of_runIf (f := xlIn b (.beat x)) rfl (decide_eq_true hb) ?_
    rw [xlIn_beat hrom hx]
    exact beatIn_leaves hb x s.toMach
  · exact takes_of_run rfl (saveSent_idle hno)
  · rintro ⟨hc, hm, hx, hkept⟩
    obtain ⟨v, hv⟩ := Option.isSome_iff_exists.1 hkept
    obtain ⟨⟨sentXl, halone⟩, hlast⟩ := saveSent_sends hc hm hx hv
    refine answers_of_run (f := saveSent k) rfl ⟨?_, fun y hy => ?_⟩
    · dsimp only
      rw [halone]
    · obtain rfl : v = y := Option.some.inj (hv.symm.trans hy)
      exact hlast
  · exact fun h => takes_of_run rfl (saveApply_idle h)
  · intro hc hrom hm hw
    refine answers_of_run (f := saveApply k false) rfl ?_
    rw [saveApply_missed hc hrom hm]
    exact missSave_asks hw
  · rintro hc hrom hm (⟨hw, rfl⟩ | ⟨himg, rfl⟩)
    · exact takes_of_run rfl ((saveApply_missed hc hrom hm k).trans (missSave_known hw))
    · exact takes_of_run rfl (saveApply_none hc hrom hm k himg)
  · intro k img'
    obtain ⟨m', happly, hstale, hrole, hdrill, hpwr, hxb⟩ := saveApply_next hc hrom hm himg hw hs
    obtain ⟨hk, himg', hepoch, hstale', hlast, hshadow, haway⟩ := appliedSave_leaves k img' m'
    refine answers_of_run (f := saveApply k true) rfl ?_
    rw [happly]
    refine ⟨hk, himg', hepoch, hstale'.trans hstale, hlast, fun hst => ?_, fun hst => ?_⟩
    · obtain ⟨hst, hd⟩ := hst
      exact hshadow (by rw [hpwr]; exact hst) (by rw [claiming, hrole]; exact hc) (hdrill.trans hd)
    · exact (haway (by rw [hpwr]; exact hst)).trans hxb

end Sys2Proof.Proofs
